-- ==== Sys2Proof/Word.lean ====
section
/-! DEFINITION. The word types of the device and the sparse tables that hold indexed state: registers are 32 bits
wide (Notation of 00_scope.md), memory is read in bytes, and tables list only what differs from a default. -/

namespace Sys2Proof

/-- A register, 32 bits (R7). -/
abbrev Word := BitVec 32

/-- One byte of memory or of a bit-stream. -/
abbrev Byte := BitVec 8

/-- A 64-bit quantity: a tally word, a device time, a binary64. -/
abbrev Quad := BitVec 64

/-- A sparse table: keys strictly rising, no entry equal to the default. -/
abbrev Tab (α : Type) := List (Nat × α)

namespace Tab

variable {α : Type}

/-- What a key holds: its entry, or the default where no entry stands. -/
def get (d : α) : Tab α → Nat → α
  | [], _ => d
  | (k', v) :: r, k => if k' = k then v else get d r k

/-- Every entry of key `k` removed. -/
def erase : Tab α → Nat → Tab α
  | [], _ => []
  | (k', v) :: r, k => if k' = k then erase r k else (k', v) :: erase r k

/-- An entry put before the first larger key. -/
def insert : Tab α → Nat → α → Tab α
  | [], k, v => [(k, v)]
  | (k', v') :: r, k, v => if k < k' then (k, v) :: (k', v') :: r else (k', v') :: insert r k v

/-- The table after key `k` is given `v`; giving it the default removes its entry. -/
def set [DecidableEq α] (d : α) (t : Tab α) (k : Nat) (v : α) : Tab α :=
  if v = d then erase t k else insert (erase t k) k v

/-- Every key at or above `lo` and below `hi` back at the default. -/
def clear (t : Tab α) (lo hi : Nat) : Tab α := t.filter fun e => !(decide (lo ≤ e.1) && decide (e.1 < hi))

/-- The canonical form: keys strictly rising and no entry equal to the default. -/
def wf [DecidableEq α] (d : α) (t : Tab α) : Bool :=
  decide (t.Pairwise fun a b => a.1 < b.1) && t.all fun e => !(decide (e.2 = d))

end Tab
end Sys2Proof
end

