-- ==== Sys2Proof/Machine/Bytes.lean ====
section
/-! DEFINITION. Bytes: little-endian fields (Notation of 00_scope.md), reads and writes of a sparse byte memory, the
CRC-32C of R293, and the small integer helpers that the layouts of the chapters share. -/

namespace Sys2Proof.Machine

/-- The number that little-endian bytes spell. -/
def ofLE : List Byte → Nat
  | [] => 0
  | b :: r => b.toNat + 256 * ofLE r

/-- The number that big-endian bytes spell (the values of a signature block and of a digest). -/
def ofBE (l : List Byte) : Nat := ofLE l.reverse

/-- The `n` low bytes of a number, little-endian. -/
def toLE : Nat → Nat → List Byte
  | 0, _ => []
  | n + 1, v => BitVec.ofNat 8 v :: toLE n (v / 256)

/-- An integer in `n` bytes of two's complement, little-endian. -/
def intLE (n : Nat) (v : Int) : List Byte := toLE n (v % (256 ^ n : Nat)).toNat

/-- A field of `n` bits read as two's complement. -/
def signed (n v : Nat) : Int := if v % 2 ^ n < 2 ^ (n - 1) then (v % 2 ^ n : Nat) else (v % 2 ^ n : Nat) - (2 ^ n : Nat)

/-- Bits [hi:lo] of a number. -/
def bits (v hi lo : Nat) : Nat := v / 2 ^ lo % 2 ^ (hi + 1 - lo)

/-- Bit `n` of a number. -/
def bit (v n : Nat) : Bool := v.testBit n

/-- A Bool as a bit. -/
def b2n (b : Bool) : Nat := if b then 1 else 0

/-- The quotient rounded up. -/
def cdiv (a b : Nat) : Nat := (a + b - 1) / b

/-- The smallest multiple of `b` at or above `a`. -/
def alignUp (a b : Nat) : Nat := cdiv a b * b

/-- A slice of `n` bytes from `o` on; positions past the end are absent. -/
def slice (l : List Byte) (o n : Nat) : List Byte := (l.drop o).take n

/-- The little-endian number of `n` bytes at `o`. -/
def leAt (l : List Byte) (o n : Nat) : Nat := ofLE (slice l o n)

/-- The little-endian two's complement number of `n` bytes at `o`. -/
def leAtS (l : List Byte) (o n : Nat) : Int := signed (8 * n) (leAt l o n)

/-- The bytes at `o` are `n` zero bytes. -/
def zerosAt (l : List Byte) (o n : Nat) : Bool := (slice l o n).all (· == 0#8)

/-- `n` zero bytes. -/
def zeros (n : Nat) : List Byte := List.replicate n 0#8

/-- A list of bytes padded with zeros, or cut, to `n`. -/
def padTo (n : Nat) (l : List Byte) : List Byte := (l ++ zeros (n - l.length)).take n

/-- One byte through the CRC register of R293, bit by bit. -/
def crcBits : Nat → BitVec 32 → BitVec 32
  | 0, c => c
  | n + 1, c => crcBits n (if c.getLsbD 0 then (c >>> 1) ^^^ 0x82F63B78#32 else c >>> 1)

/-- The CRC register after a run of bytes, in address order (R293). -/
def crcRun (c : BitVec 32) : List Byte → BitVec 32
  | [] => c
  | b :: r => crcRun (crcBits 8 (c ^^^ b.setWidth 32)) r

/-- CRC-32C (R293): Castagnoli, reflected, initial value and final XOR of all ones. -/
def crc32c (l : List Byte) : BitVec 32 := crcRun 0xFFFFFFFF#32 l ^^^ 0xFFFFFFFF#32

/-- `n` bytes of a sparse memory from address `a` on; an unlisted byte reads zero. -/
def peek (m : Tab Byte) (a n : Nat) : List Byte := (List.range n).map fun i => m.get 0#8 (a + i)

/-- Bytes put into a sparse memory from address `a` on. -/
def poke (m : Tab Byte) (a : Nat) : List Byte → Tab Byte
  | [] => m
  | b :: r => poke (m.set 0#8 a b) (a + 1) r

/-- The number held little-endian in `n` bytes at `a`. -/
def peekN (m : Tab Byte) (a n : Nat) : Nat := ofLE (peek m a n)

/-- The square root of `v` found bit by bit from bit `n − 1` down, `r` the bits found so far. -/
def isqrtBits : Nat → Nat → Nat → Nat
  | 0, _, r => r
  | n + 1, v, r => isqrtBits n v (if (r + 2 ^ n) * (r + 2 ^ n) ≤ v then r + 2 ^ n else r)

/-- The integer square root: the largest r with r * r ≤ v (R73, R74). -/
def isqrt (v : Nat) : Nat := isqrtBits (v.log2 / 2 + 1) v 0

/-- The least element of a list under a key, first among equals. -/
def minOn {α : Type} (key : α → Nat) : List α → Option α
  | [] => none
  | a :: r => match minOn key r with
    | none => some a
    | some b => if key b < key a then some b else some a

/-- Saturating add to a 32-bit counter: it stops at 0xFFFF_FFFF. -/
def satAdd (w : Word) (n : Nat) : Word := if w.toNat + n ≤ 0xFFFFFFFF then BitVec.ofNat 32 (w.toNat + n) else 0xFFFFFFFF#32

/-- A list with entry `i` replaced. -/
def listSet {α : Type} (l : List α) (i : Nat) (v : α) : List α := l.set i v

/-- The numbers 0 to n−1 at which a mask has a 1. -/
def maskBits (n mask : Nat) : List Nat := (List.range n).filter fun i => mask.testBit i

/-- Serial-number order over a width of `w` bits (R15): `a` precedes `b`. -/
def serialLt (w a b : Nat) : Bool :=
  let d := (b + 2 ^ w - a % 2 ^ w) % 2 ^ w
  decide (1 ≤ d) && decide (d < 2 ^ (w - 1))

end Sys2Proof.Machine
end

