-- ==== Sys2Proof/Machine/CfgCore.lean ====
section
/-! DEFINITION. The Blend as a byte string (02_blend.md): sections, rejections, the header and section table checks, and
the payloads that chapter defines (PARTITIONS, FRAME, PIPELINES, CLAIMS). -/

namespace Sys2Proof.Machine

/-- One section of a Blend: its table entry and its payload (R41). -/
structure Sect where
  typ     : Nat
  part    : Nat
  entry   : Nat
  off     : Nat
  payload : List Byte
  deriving DecidableEq, Repr

/-- A rejection: BLD_STATUS.CODE and the four words of BLD_REJ_DETAIL (R509). -/
structure Reject where
  code : Nat
  d0   : Nat := 0
  d1   : Nat := 0
  d2   : Nat := 0
  d3   : Nat := 0
  deriving DecidableEq, Repr

/-- The rejection codes of BLD_STATUS.CODE. -/
def cOK := 0x00
/-- R64. -/
def cBUSY := 0x01
/-- R39. -/
def cLENGTH := 0x02
/-- R40. -/
def cFORMAT := 0x03
/-- R40. -/
def cPART := 0x04
/-- R41. -/
def cTABLE := 0x05
/-- R41. -/
def cSECTION_CRC := 0x06
/-- R45. -/
def cSIG_KEY := 0x07
/-- R45. -/
def cSIG := 0x08
/-- R45. -/
def cSAFETY_KEY := 0x09
/-- R45, R46. -/
def cSAFETY_SIG := 0x0A
/-- R47. -/
def cSAFETY_STD := 0x0B
/-- R47. -/
def cLIFECYCLE := 0x0C
/-- R42, R43, R157, R259, R469. -/
def cMISSING := 0x0D
/-- R42. -/
def cUNKNOWN_TYPE := 0x0E
/-- A section's own chapter. -/
def cSECTION_FORMAT := 0x0F
/-- R49. -/
def cPARTITION := 0x10
/-- R50. -/
def cCORE_SHORT := 0x11
/-- R51. -/
def cFRAME := 0x12
/-- R52. -/
def cPIPELINE := 0x13
/-- R55. -/
def cCLAIM_CONFLICT := 0x14
/-- R54. -/
def cUNCLAIMED := 0x15
/-- R55. -/
def cCLAIM_RANGE := 0x16
/-- R55. -/
def cCLAIM_CLASS := 0x17
/-- R67. -/
def cBASE := 0x18
/-- R36, R416. -/
def cPOWER := 0x19
/-- R61, R63, ABORT. -/
def cABORTED := 0x1A
/-- R58. -/
def cFETCH := 0x1B
/-- A command's precondition. -/
def cPART_STATE := 0x1C
/-- R66. -/
def cT0_PAST := 0x1D
/-- R48. -/
def cSAFETY_COVER := 0x1E
/-- A referenced image. -/
def cIMAGE := 0x1F

/-- A fault found within a section: its code, the offset of the failing field within the payload, the sub-code for
SECTION_FORMAT, and the low word of an offset inside a referenced image. -/
structure Bad where
  code : Nat
  off  : Nat
  sub  : Nat := 0
  img  : Nat := 0
  deriving DecidableEq, Repr

/-- A check: nothing when it holds, the fault when it does not. -/
def need (ok : Bool) (code off : Nat) (sub : Nat := 0) : Option Bad := if ok then none else some { code, off, sub }

/-- A SECTION_FORMAT check with its sub-code. -/
def needF (ok : Bool) (sub off : Nat) : Option Bad := if ok then none else some { code := cSECTION_FORMAT, off, sub }

/-- The first fault of a list of checks. -/
def firstBad : List (Option Bad) → Option Bad
  | [] => none
  | some b :: _ => some b
  | none :: r => firstBad r

/-- A fault found first, else what the checks after it find. -/
def Bad.orElse (a : Option Bad) (f : Unit → Option Bad) : Option Bad := match a with
  | some b => some b
  | none => f ()

/-- The first fault over a list, in list order. -/
def firstOver {α : Type} (l : List α) (f : α → Option Bad) : Option Bad := firstBad (l.map f)

/-- The first fault over a list with positions. -/
def firstOverI {α : Type} (l : List α) (f : Nat → α → Option Bad) : Option Bad := firstBad (l.zipIdx.map fun e => f e.2 e.1)

/-- A fault of a section as a rejection (R509): the section, the offset in the Blend, the sub-code and the image offset. A poisoned
image is rejected with FETCH, for which only [1] is set: the 64-byte line of the Blend that names the image, for which R509 has no
other word (DEDUCED, log entry 178). -/
def Bad.toReject (b : Bad) (s : Sect) : Reject :=
  if b.code = cFETCH then { code := cFETCH, d1 := (s.off + b.off) / 64 * 64 } else
  { code := b.code, d0 := s.typ * 65536 + s.entry, d1 := s.off + b.off,
    d2 := if b.code = cSECTION_FORMAT then b.sub else 0, d3 := b.img % 2 ^ 32 }

/-! ### Header (R39, R40) -/

/-- BLD_LEN or TOTAL_LEN is a length R39 allows. -/
def lenOk (n : Nat) : Bool := decide (768 ≤ n) && decide (n ≤ 67108864) && n % 256 == 0

/-- What the header checks of AUTH compare with: the length fetched, the command, the part and what is active. -/
structure HdrEnv where
  len       : Nat            -- BLD_LEN
  partial_  : Bool           -- STEEP_PART
  target    : Nat            -- BLD_CMD.TARGET
  partNum   : Nat            -- GLB_DEVICE_ID.PART
  step      : Nat            -- STEP_LTR * 16 + STEP_NUM
  sflow     : Bool
  activeSerial : Nat
  defined   : List Nat       -- partitions of the active full Blend
  deriving DecidableEq, Repr

/-- A header fault (R509, Header): [0] is 0x0000_FFFF and [1] the offset of the field. -/
def hdrRej (ok : Bool) (code off : Nat) : Option Reject := if ok then none else some { code, d0 := 0xFFFF, d1 := off }

/-- The first rejection of a list of checks. -/
def firstRej : List (Option Reject) → Option Reject
  | [] => none
  | some r :: _ => some r
  | none :: l => firstRej l

/-- The header checks of R40 in ascending field offset. -/
def hdrCheck (e : HdrEnv) (b : List Byte) : Option Reject :=
  let kind := leAt b 0x0C 1
  let tgt := leAt b 0x0D 1
  let tot := leAt b 0x08 4
  let part := leAt b 0x10 2
  let flags := leAt b 0x13 1
  let bser := leAt b 0x18 4
  firstRej [
    hdrRej (leAt b 0 4 == 0x44424C53) cFORMAT 0x00,
    hdrRej (leAt b 4 2 == 1) cFORMAT 0x04,
    hdrRej (leAt b 6 2 == 0x80) cFORMAT 0x06,
    hdrRej (lenOk tot && tot == e.len) cLENGTH 0x08,
    hdrRej (kind == b2n e.partial_) cFORMAT 0x0C,
    hdrRej (!e.partial_ || e.defined.contains tgt) cBASE 0x0D,
    hdrRej (if e.partial_ then tgt == e.target else tgt == 0xFF) cFORMAT 0x0D,
    hdrRej (decide (1 ≤ leAt b 0x0E 2) && decide (leAt b 0x0E 2 ≤ 256)) cFORMAT 0x0E,
    hdrRej (part == 0 || part == e.partNum) cPART 0x10,
    hdrRej (decide (leAt b 0x12 1 ≤ e.step)) cPART 0x12,
    hdrRej (flags / 2 == 0) cFORMAT 0x13,
    hdrRej (flags % 2 == 0 || e.sflow) cPART 0x13,
    hdrRej (leAt b 0x14 4 != 0) cFORMAT 0x14,
    hdrRej (e.partial_ || bser == 0) cFORMAT 0x18,
    hdrRej (!e.partial_ || bser == e.activeSerial) cBASE 0x18,
    hdrRej (zerosAt b 0x1C 4) cFORMAT 0x1C,
    hdrRej (zerosAt b 0x30 80) cFORMAT 0x30]

/-! ### Section table (R41, R42) -/

/-- The section types of R42. -/
def knownTypes : List Nat := (List.range 16).map (· + 1) ++ [0x80]

/-- One section table entry: TYPE, PARTITION, FLAGS, OFFSET, LENGTH, CRC (R41). -/
structure TabEntry where
  typ : Nat
  part : Nat
  flags : Nat
  off : Nat
  len : Nat
  crc : Nat
  deriving DecidableEq, Repr

/-- Entry `i` of the section table. -/
def tabEntry (b : List Byte) (i : Nat) : TabEntry :=
  let o := 0x80 + 16 * i
  { typ := leAt b o 2, part := leAt b (o + 2) 1, flags := leAt b (o + 3) 1, off := leAt b (o + 4) 4, len := leAt b (o + 8) 4,
    crc := leAt b (o + 12) 4 }

/-- Every entry of the table. -/
def tabEntries (b : List Byte) : List TabEntry := (List.range (leAt b 0x0E 2)).map (tabEntry b)

/-- A TABLE fault at entry `i` (R509, Section table). -/
def tabRej (ok : Bool) (typ i : Nat) (code : Nat := cTABLE) : Option Reject :=
  if ok then none else some { code, d0 := typ * 65536 + i, d1 := 0x80 + 16 * i }

/-- The checks of one entry after the previous section ended at `prevEnd` (R41). A gap between sections is zero padding
of fewer than 256 bytes; what lies between the table and the first section, of which R41 says only that the section starts at or
after the end of the table, is not tested (DEDUCED, log entry 37). -/
def tabEntryCheck (b : List Byte) (prevEnd i : Nat) (e : TabEntry) : Option Reject :=
  let lim := b.length - 256
  let firstOk := alignUp prevEnd 256
  firstRej [
    tabRej (knownTypes.contains e.typ) e.typ i cUNKNOWN_TYPE,
    tabRej (decide (e.part < 8) || e.part == 0xFF) 0 i,
    tabRej (e.flags == 0) 0 i,
    tabRej (e.off % 256 == 0 && decide (prevEnd ≤ e.off)) 0 i,
    tabRej (i == 0 || (e.off == firstOk && zerosAt b prevEnd (e.off - prevEnd))) 0 i,
    tabRej (decide (1 ≤ e.len) && decide (e.off + e.len ≤ lim)) 0 i]

/-- The section table checked entry by entry, then the padding before the signature block, named after the last entry. -/
def tabCheckFrom (b : List Byte) (prevEnd i : Nat) : List TabEntry → Option Reject
  | [] => tabRej (decide (b.length - 256 < prevEnd + 256) && zerosAt b prevEnd (b.length - 256 - prevEnd)) 0 (i - 1)
  | e :: r => match tabEntryCheck b prevEnd i e with
    | some x => some x
    | none => tabCheckFrom b (e.off + e.len) (i + 1) r

/-- R41 for the whole table. -/
def tabCheck (b : List Byte) : Option Reject :=
  let es := tabEntries b
  let tend := 0x80 + 16 * es.length
  if b.length < tend + 256 then tabRej false 0 0 else tabCheckFrom b tend 0 es

/-- The sections of a Blend whose table stands. -/
def sections (b : List Byte) : List Sect :=
  (tabEntries b).zipIdx.map fun (e, i) => { typ := e.typ, part := e.part, entry := i, off := e.off, payload := slice b e.off e.len }

/-- The CRC of every section, in table order (R508 step 3). -/
def crcCheck (b : List Byte) : Option Reject :=
  firstRej ((tabEntries b).zipIdx.map fun (e, i) =>
    if (crc32c (slice b e.off e.len)).toNat = e.crc then none
    else some { code := cSECTION_CRC, d0 := e.typ * 65536 + i, d1 := e.off })

/-! ### PARTITIONS (R49) -/

/-- A partition record. -/
structure PartRec where
  num      : Nat := 0
  classes  : Nat := 0
  cores    : List Nat := []     -- 16 counts, index die * 8 + cluster
  ctxFirst : Nat := 0
  ctxCount : Nat := 0
  hbmFirst : Nat := 0
  hbmCount : Nat := 0
  credit   : Nat := 0
  arrays   : Nat := 0
  deriving DecidableEq, Repr

/-- The record at index `i` of a PARTITIONS payload. -/
def partRec (b : List Byte) (i : Nat) : PartRec :=
  let o := 4 + 64 * i
  { num := leAt b o 1, classes := leAt b (o + 1) 1, cores := (slice b (o + 4) 16).map (·.toNat), ctxFirst := leAt b (o + 0x14) 2,
    ctxCount := leAt b (o + 0x16) 2, hbmFirst := leAt b (o + 0x18) 2, hbmCount := leAt b (o + 0x1A) 2, credit := leAt b (o + 0x1C) 1,
    arrays := leAt b (o + 0x1D) 1 }

/-- The records of a PARTITIONS payload. -/
def decPartitions (b : List Byte) : List PartRec := (List.range (min 8 (leAt b 0 4))).map (partRec b)

/-- Two ranges of a given length share an index. -/
def overlap (a n b m : Nat) : Bool := decide (a < b + m) && decide (b < a + n)

/-- The partition has a core on die `d`. -/
def PartRec.onDie (r : PartRec) (d : Nat) : Bool := ((r.cores.drop (8 * d)).take 8).any (· != 0)

/-- The checks of record `i` of a PARTITIONS payload against the records before it (R49), with the Q credit of R351. -/
def partRecCheck (b : List Byte) (prev : List PartRec) (i : Nat) : Option Bad :=
  let r := partRec b i
  let o := 4 + 64 * i
  firstBad [
    need (decide (r.num < 8) && !(prev.any (·.num == r.num))) cPARTITION o,
    need (r.classes != 0 && decide (r.classes < 8)) cPARTITION (o + 1),
    need (zerosAt b (o + 2) 2) cPARTITION (o + 2),
    need (r.cores.all (decide <| · ≤ 8)) cPARTITION (o + 4),
    need (decide (1 ≤ r.ctxCount) && decide (r.ctxFirst + r.ctxCount ≤ 16384)
          && !(prev.any fun q => overlap q.ctxFirst q.ctxCount r.ctxFirst r.ctxCount)
          && (decide (8192 ≤ r.ctxFirst) || r.onDie 0) && (decide (r.ctxFirst + r.ctxCount ≤ 8192) || r.onDie 1)) cPARTITION (o + 0x14),
    need (decide (r.hbmFirst + r.hbmCount ≤ 768) && (r.hbmCount == 0
          || (!(prev.any fun q => q.hbmCount != 0 && overlap q.hbmFirst q.hbmCount r.hbmFirst r.hbmCount)
              && !(overlap r.hbmFirst r.hbmCount 382 2)))) cPARTITION (o + 0x18),
    need (decide ((prev.map (·.credit)).sum + r.credit ≤ 256) && (!(bit r.classes 1) || r.credit != 0)) cPARTITION (o + 0x1C),
    need (decide (r.arrays < 4)) cPARTITION (o + 0x1D),
    need (zerosAt b (o + 0x1E) 34) cPARTITION (o + 0x1E)]

/-- The own checks of PARTITIONS (R49). -/
def ownPartitions (b : List Byte) : Option Bad :=
  let n := leAt b 0 4
  firstBad [
    need (decide (1 ≤ n) && decide (n ≤ 8) && b.length == 4 + 64 * n) cPARTITION 0,
    firstOver (List.range (min n 8)) fun i => partRecCheck b ((List.range i).map (partRec b)) i]

/-! ### FRAME (R20, R51) -/

/-- The frame timing of a partition in microseconds (R20). -/
structure FrameCfg where
  P          : Nat := 1000
  netStart   : Nat := 10
  buildStart : Nat := 300
  publish    : Nat := 400
  selectEnd  : Nat := 1440
  commitEnd  : Nat := 1490
  out        : Nat := 1500
  deriving DecidableEq, Repr

/-- A FRAME payload, unset offsets at their defaults (R51). -/
def decFrame (b : List Byte) : FrameCfg :=
  let f (i dflt : Nat) : Nat := let v := leAt b (2 * i) 2; if v = 0xFFFF then dflt else v
  { P := leAt b 0 2, netStart := f 1 10, buildStart := f 2 300, publish := f 3 400, selectEnd := f 4 1440, commitEnd := f 5 1490,
    out := f 6 1500 }

/-- The own checks of FRAME (R51, and the limits of R20). -/
def ownFrame (b : List Byte) : Option Bad :=
  let c := decFrame b
  firstBad [
    need (b.length == 16) cFRAME 0,
    need (decide (250 ≤ c.P) && decide (c.P ≤ 8000)) cFRAME 0,
    need (c.P == 1000 || (List.range 6).all fun i => leAt b (2 + 2 * i) 2 != 0xFFFF) cFRAME 2,
    need (decide (c.netStart < c.buildStart)) cFRAME 4,
    need (decide (c.buildStart < c.publish) && decide (c.publish < c.P)) cFRAME 6,
    need (decide (c.publish + c.P < c.selectEnd)) cFRAME 8,
    need (decide (c.selectEnd < c.commitEnd) && decide (c.commitEnd ≤ c.out)) cFRAME 10,
    need (decide (c.out ≤ 2 * c.P)) cFRAME 12,
    need (zerosAt b 14 2) cFRAME 14]

/-! ### PIPELINES (R52) -/

/-- The chains of the pipeline chains table. -/
inductive Chain | lattice | optimise | recheck | replay | perception
  deriving DecidableEq, Repr

/-- A chain number. -/
def chainOf : Nat → Option Chain
  | 1 => some .lattice | 2 => some .optimise | 3 => some .recheck | 4 => some .replay | 5 => some .perception | _ => none

/-- A pipeline record; PRIV counts the privileged contexts within the range. -/
structure Pipe where
  chain : Nat := 0
  flags : Nat := 0
  first : Nat := 0
  count : Nat := 0
  priv  : Nat := 0
  deriving DecidableEq, Repr

/-- The records of a PIPELINES payload. -/
def decPipelines (b : List Byte) : List Pipe :=
  (List.range (min (leAt b 0 4) (b.length / 8))).map fun i =>
    let o := 4 + 8 * i
    { chain := leAt b o 1, flags := leAt b (o + 1) 1, first := leAt b (o + 2) 2, count := leAt b (o + 4) 2, priv := leAt b (o + 6) 2 }

/-- The own checks of PIPELINES: those of R52 that need no other section. -/
def ownPipelines (b : List Byte) : Option Bad :=
  let n := leAt b 0 4
  firstBad [
    need (b.length == 4 + 8 * n) cPIPELINE 0,
    firstOverI (decPipelines b) fun i r => let o := 4 + 8 * i
      firstBad [need (chainOf r.chain).isSome cPIPELINE o, need (r.flags == 0) cPIPELINE (o + 1),
                need (decide (1 ≤ r.count)) cPIPELINE (o + 4),
                need (decide (r.priv ≤ r.count) && (r.chain == 2 || r.priv == 0)) cPIPELINE (o + 6)]]

/-! ### CLAIMS (R53, R510) -/

/-- A claim record: CLASS, FEATURE, FIRST, COUNT. -/
structure Claim where
  cls : Nat := 0
  feature : Nat := 0
  first : Nat := 0
  count : Nat := 0
  deriving DecidableEq, Repr

/-- The claim record at an offset. -/
def claimAt (b : List Byte) (o : Nat) : Claim :=
  { cls := leAt b o 1, feature := leAt b (o + 2) 2, first := leAt b (o + 4) 4, count := leAt b (o + 8) 4 }

/-- The records of a claim list whose count word stands at `o`. -/
def claimList (b : List Byte) (o : Nat) : List Claim :=
  (List.range (min (leAt b o 4) (b.length / 16))).map fun i => claimAt b (o + 4 + 16 * i)

/-- The records of a CLAIMS payload. -/
def decClaims (b : List Byte) : List Claim := claimList b 0

/-- The own checks of CLAIMS (R510). -/
def ownClaims (b : List Byte) : Option Bad :=
  let n := leAt b 0 4
  firstBad [
    needF (b.length == 4 + 16 * n) 0x0201 0,
    firstOver (List.range (min n (b.length / 16))) fun i => let o := 4 + 16 * i
      firstBad [needF (zerosAt b (o + 1) 1) 0x0201 (o + 1), needF (leAt b (o + 8) 4 != 0) 0x0202 (o + 8),
                needF (zerosAt b (o + 12) 4) 0x0201 (o + 12)]]

/-- A use of a claimable resource (R54): its class and index, its owner (a partition, or none for the package), and the
section, table entry and offset that make it. -/
structure Use where
  cls   : Nat
  index : Nat
  owner : Option Nat
  sect  : Sect
  off   : Nat
  deriving DecidableEq, Repr

end Sys2Proof.Machine
end

