-- ==== Sys2Proof/Machine/Float.lean ====
section
/-! DEFINITION. Binary floating point with round to nearest even and flush to zero, as R112 (binary32), R161 and R162
(binary64) and the array chapters use it: exact values as sign, significand and exponent, rounded once per operation. -/

namespace Sys2Proof.Machine

/-- A floating-point value: (−1)^neg × m × 2^e, or an infinity, or not a number. -/
inductive FV
  | nan
  | inf (neg : Bool)
  | fin (neg : Bool) (m : Nat) (e : Int)
  deriving DecidableEq, Repr

/-- A binary format: significand bits, exponent bits, and the exponent range of its normal numbers. -/
structure FFmt where
  p    : Nat
  eb   : Nat
  emin : Int
  emax : Int
  deriving DecidableEq, Repr

/-- IEEE 754 binary32. -/
def f32 : FFmt := { p := 24, eb := 8, emin := -126, emax := 127 }
/-- IEEE 754 binary64. -/
def f64 : FFmt := { p := 53, eb := 11, emin := -1022, emax := 1023 }
/-- IEEE 754 binary16. -/
def f16 : FFmt := { p := 11, eb := 5, emin := -14, emax := 15 }
/-- bfloat16: binary32 with an 8-bit significand. -/
def bf16 : FFmt := { p := 8, eb := 8, emin := -126, emax := 127 }

/-- Positive zero. -/
def fZero : FV := .fin false 0 0
/-- One. -/
def fOne : FV := .fin false 1 0

/-- The value of an integer, exactly. -/
def fOfInt (i : Int) : FV := .fin (decide (i < 0)) i.natAbs 0

/-- The value of a natural number, exactly. -/
def fOfNat (n : Nat) : FV := .fin false n 0

/-- The number of bits of a significand. -/
def bitLen (m : Nat) : Nat := if m = 0 then 0 else m.log2 + 1

/-- m ÷ 2^n rounded to nearest, ties to even. -/
def shiftRne (m n : Nat) : Nat :=
  let q := m / 2 ^ n
  let r := m % 2 ^ n
  if n = 0 then m else
  if r > 2 ^ (n - 1) ∨ (r = 2 ^ (n - 1) ∧ q % 2 = 1) then q + 1 else q

/-- A value rounded to `p` significant bits, with an unbounded exponent. -/
def roundSig (p : Nat) (m : Nat) (e : Int) : Nat × Int :=
  let l := bitLen m
  if l ≤ p then (m, e) else (shiftRne m (l - p), e + (l - p : Nat))

/-- A value rounded into a format: to nearest even, overflow to infinity, a subnormal result written as zero of its sign,
judged after rounding (R112). -/
def fRound (f : FFmt) : FV → FV
  | .fin neg m e =>
    if m = 0 then .fin neg 0 0 else
    let (q, x) := roundSig f.p m e
    let top := x + bitLen q - 1
    if top > f.emax then .inf neg
    else if top < f.emin then .fin neg 0 0
    else .fin neg q x
  | v => v

/-- The value of an encoding; a subnormal input reads as zero of its sign (R112). -/
def fOfBits (f : FFmt) (b : Nat) : FV :=
  let frac := b % 2 ^ (f.p - 1)
  let ex := b / 2 ^ (f.p - 1) % 2 ^ f.eb
  let neg := (b / 2 ^ (f.p - 1 + f.eb)) % 2 == 1
  if ex = 2 ^ f.eb - 1 then (if frac = 0 then .inf neg else .nan)
  else if ex = 0 then .fin neg 0 0
  else .fin neg (2 ^ (f.p - 1) + frac) ((ex : Int) - f.emax - (f.p - 1 : Nat))

/-- The value of an encoding as IEEE 754 gives it, subnormals included: where the spec reads a field and states no flush. -/
def fExact (f : FFmt) (b : Nat) : FV :=
  let frac := b % 2 ^ (f.p - 1)
  if b / 2 ^ (f.p - 1) % 2 ^ f.eb = 0 then .fin (b / 2 ^ (f.p - 1 + f.eb) % 2 == 1) frac (f.emin - (f.p - 1 : Nat)) else fOfBits f b

/-- The encoding of a value of the format; not a number is the quiet pattern with a zero sign. -/
def fToBits (f : FFmt) (v : FV) : Nat :=
  let sgn (neg : Bool) : Nat := b2n neg * 2 ^ (f.p - 1 + f.eb)
  match fRound f v with
  | .nan => (2 ^ f.eb - 1) * 2 ^ (f.p - 1) + 2 ^ (f.p - 2)
  | .inf neg => sgn neg + (2 ^ f.eb - 1) * 2 ^ (f.p - 1)
  | .fin neg m e =>
    if m = 0 then sgn neg else
    let l := bitLen m
    let frac := m * 2 ^ (f.p - l) % 2 ^ (f.p - 1)
    sgn neg + (e + l - 1 + f.emax).toNat * 2 ^ (f.p - 1) + frac

/-- The value with its sign turned. -/
def fNeg : FV → FV
  | .nan => .nan
  | .inf n => .inf (!n)
  | .fin n m e => .fin (!n) m e

/-- The magnitude. -/
def fAbs : FV → FV
  | .nan => .nan
  | .inf _ => .inf false
  | .fin _ m e => .fin false m e

/-- The value is finite. -/
def fFinite : FV → Bool
  | .fin _ _ _ => true
  | _ => false

/-- The value is a zero. -/
def fIsZero : FV → Bool
  | .fin _ m _ => m == 0
  | _ => false

/-- The signed integer significand of a finite value over exponent `e0` at or below its own. -/
def scaledTo (e0 : Int) (neg : Bool) (m : Nat) (e : Int) : Int :=
  let v : Int := (m * 2 ^ (e - e0).toNat : Nat)
  if neg then -v else v

/-- The exact sum. A zero sum of unlike signs is positive. -/
def fAddX (a b : FV) : FV :=
  match a, b with
  | .nan, _ => .nan
  | _, .nan => .nan
  | .inf n, .inf k => if n = k then .inf n else .nan
  | .inf n, _ => .inf n
  | _, .inf n => .inf n
  | .fin n m e, .fin k q x =>
    let e0 := min e x
    let s := scaledTo e0 n m e + scaledTo e0 k q x
    if s = 0 then .fin (n && k) 0 0 else .fin (decide (s < 0)) s.natAbs e0

/-- The exact product. -/
def fMulX (a b : FV) : FV :=
  match a, b with
  | .nan, _ => .nan
  | _, .nan => .nan
  | .inf n, .inf k => .inf (n != k)
  | .inf n, .fin k q _ => if q = 0 then .nan else .inf (n != k)
  | .fin n m _, .inf k => if m = 0 then .nan else .inf (n != k)
  | .fin n m e, .fin k q x => .fin (n != k) (m * q) (e + x)

/-- a + b, rounded once. -/
def fAdd (f : FFmt) (a b : FV) : FV := fRound f (fAddX a b)
/-- a − b, rounded once. -/
def fSub (f : FFmt) (a b : FV) : FV := fRound f (fAddX a (fNeg b))
/-- a × b, rounded once. -/
def fMul (f : FFmt) (a b : FV) : FV := fRound f (fMulX a b)
/-- a × b + c, rounded once. -/
def fFma (f : FFmt) (a b c : FV) : FV := fRound f (fAddX (fMulX a b) c)

/-- a ÷ b, rounded once; a non-zero value over zero is infinite, zero over zero not a number. -/
def fDiv (f : FFmt) (a b : FV) : FV :=
  match a, b with
  | .nan, _ => .nan
  | _, .nan => .nan
  | .inf _, .inf _ => .nan
  | .inf n, .fin k _ _ => .inf (n != k)
  | .fin n _ _, .inf k => .fin (n != k) 0 0
  | .fin n m e, .fin k q x =>
    if q = 0 then (if m = 0 then .nan else .inf (n != k))
    else if m = 0 then .fin (n != k) 0 0
    else
      let sh := f.p + 3 + bitLen q
      let num := m * 2 ^ sh
      fRound f (.fin (n != k) (2 * (num / q) + b2n (num % q != 0)) (e - x - sh - 1))

/-- The square root, rounded once; of a negative value, not a number. -/
def fSqrt (f : FFmt) (a : FV) : FV :=
  match a with
  | .nan => .nan
  | .inf n => if n then .nan else .inf false
  | .fin n m e =>
    if m = 0 then .fin n 0 0
    else if n then .nan
    else
      let sh := 2 * f.p + 4 + (e % 2).toNat
      let num := m * 2 ^ sh
      let r := isqrt num
      fRound f (.fin false (2 * r + b2n (r * r != num)) ((e - sh) / 2 - 1))

/-- a < b; never with not a number. Zeros of either sign are equal. -/
def fLt (a b : FV) : Bool :=
  match a, b with
  | .nan, _ => false
  | _, .nan => false
  | .inf n, .inf k => n && !k
  | .inf n, _ => n
  | _, .inf k => !k
  | .fin n m e, .fin k q x => let e0 := min e x; decide (scaledTo e0 n m e < scaledTo e0 k q x)

/-- a ≤ b; never with not a number. -/
def fLe (a b : FV) : Bool :=
  match a, b with
  | .nan, _ => false
  | _, .nan => false
  | a, b => !(fLt b a)

/-- The larger of two values; the first where they are equal. -/
def fMax (a b : FV) : FV := if fLt a b then b else a
/-- The smaller of two values; the first where they are equal. -/
def fMin (a b : FV) : FV := if fLt b a then b else a

/-- The integer nearest to a finite value, ties to even; 0 for anything else. -/
def fToIntRne : FV → Int
  | .fin n m e =>
    let v : Nat := if 0 ≤ e then m * 2 ^ e.toNat else shiftRne m (-e).toNat
    if n then -(v : Int) else v
  | _ => 0

/-- The largest integer at or below a finite value; 0 for anything else. -/
def fFloor : FV → Int
  | .fin n m e =>
    let i : Int := if n then -(m : Int) else m
    if 0 ≤ e then i * 2 ^ e.toNat else i / (2 ^ (-e).toNat : Nat)
  | _ => 0

/-- The value rounded to an integral value, ties to even (R114). -/
def fRoundInt : FV → FV
  | .fin n m e => let v := fToIntRne (.fin n m e); .fin n v.natAbs 0
  | v => v

/-- An integer held within [lo, hi]. -/
def satInt (lo hi v : Int) : Int := max lo (min hi v)

/-- Saturation to a signed 32-bit integer. -/
def sat32 (v : Int) : Int := satInt (-2147483648) 2147483647 v

end Sys2Proof.Machine
end

