-- ==== Sys2Proof/Machine/ArrayFmt.lean ====
section
/-! DEFINITION. Great Array arithmetic (08_array_arithmetic.md): operand formats, long-sum with its LONG containers, the
BF16 reduction tree, and the rounding to every output format, all on exact values. -/

namespace Sys2Proof.Machine

/-! ### Operand formats (R204, R205) -/

/-- A format code of R204. -/
def fmtListed (c : Nat) : Bool := (decide (1 ≤ c) && decide (c ≤ 6)) || (decide (8 ≤ c) && decide (c ≤ 0xD))

/-- An MX format. -/
def fmtMX (c : Nat) : Bool := decide (8 ≤ c) && decide (c ≤ 0xD)

/-- Bits of one stored element; FP32 and INT32 are 32 (0x0 and 0x7), LONG containers 128 (0xF). -/
def fmtBits (c : Nat) : Nat :=
  if c = 0xF then 128 else if c = 0x0 ∨ c = 0x7 then 32 else if c = 0x5 ∨ c = 0x6 then 16
  else if c = 0xA ∨ c = 0xB then 6 else if c = 0x4 ∨ c = 0xC then 4 else 8

/-- Bytes of a row of `n` elements (R205): 6-bit elements in groups of four to 3 bytes. -/
def rowBytes (c n : Nat) : Nat := if fmtBits c = 6 then cdiv n 4 * 3 else cdiv (n * fmtBits c) 8

/-- The unit exponent l of a long-sum format (R204). -/
def fmtL (c : Nat) : Int :=
  if c = 1 ∨ c = 8 then -9 else if c = 2 ∨ c = 9 then -16 else if c = 5 then -24
  else if c = 0xA then -4 else if c = 0xB then -3 else if c = 0xC then -1 else if c = 0xD then -6 else 0

/-- The magnitude bound b of a long-sum format (R204). -/
def fmtB (c : Nat) : Nat :=
  if c = 1 ∨ c = 8 then 18 else if c = 2 ∨ c = 9 then 32 else if c = 5 then 40
  else if c = 0xA then 9 else if c = 0xB then 6 else if c = 4 ∨ c = 0xC then 4 else 8

/-- A floating-point element read at its exact value: `mb` mantissa bits, `eb` exponent bits. -/
def smallFloat (eb mb : Nat) (bias : Int) (raw : Nat) : FV :=
  let man := raw % 2 ^ mb
  let ex := raw / 2 ^ mb % 2 ^ eb
  let neg := raw.testBit (eb + mb)
  if ex = 0 then .fin neg man (1 - bias - mb) else .fin neg (2 ^ mb + man) ((ex : Int) - bias - mb)

/-- The value of an element of a format (R204). A BF16 subnormal reads as zero of its sign (R213). -/
def elemVal (c raw : Nat) : FV :=
  if c = 1 ∨ c = 8 then (if raw % 128 = 127 then .nan else smallFloat 4 3 7 raw)
  else if c = 2 ∨ c = 9 then
    (if raw / 4 % 32 = 31 then (if raw % 4 = 0 then .inf (raw.testBit 7) else .nan) else smallFloat 5 2 15 raw)
  else if c = 3 then fOfInt (signed 8 raw)
  else if c = 4 then fOfInt (signed 4 raw)
  else if c = 5 then
    (if raw / 1024 % 32 = 31 then (if raw % 1024 = 0 then .inf (raw.testBit 15) else .nan) else smallFloat 5 10 15 raw)
  else if c = 6 then fOfBits bf16 raw
  else if c = 0xA then smallFloat 3 2 3 raw
  else if c = 0xB then smallFloat 2 3 1 raw
  else if c = 0xC then smallFloat 2 1 1 raw
  else if c = 0xD then (match fOfInt (signed 8 raw) with | .fin n m _ => .fin n m (-6) | v => v)
  else fOfBits f32 raw

/-- Element `i` of a packed row at `a` (R205). -/
def elemRaw (mem : Tab Byte) (c a i : Nat) : Nat :=
  let w := fmtBits c
  if w = 6 then peekN mem (a + i / 4 * 3) 3 / 2 ^ (6 * (i % 4)) % 64
  else if w = 4 then peekN mem (a + i / 2) 1 / 2 ^ (4 * (i % 2)) % 16
  else peekN mem (a + i * (w / 8)) (w / 8)

/-- Elements packed into the bytes of a row (R205). -/
def packRow (c : Nat) (l : List Nat) : List Byte :=
  let w := fmtBits c
  toLE (rowBytes c l.length) ((l.zipIdx.map fun (v, i) => v % 2 ^ w * 2 ^ (w * i)).sum)

/-- FMT_A and FMT_B form a pair of R207. -/
def pairOk (a b : Nat) : Bool :=
  ((a == 1 || a == 2) && (b == 1 || b == 2)) || (fmtMX a && fmtMX b) || ((a == 3 || a == 4) && (b == 3 || b == 4))
  || (a == 5 && b == 5) || (a == 6 && b == 6)

/-- Multiply-accumulates per ARR cycle (R207). -/
def pairRate (a b : Nat) : Nat :=
  if (a = 0xC ∧ b = 0xC) ∨ (a = 4 ∧ b = 4) then 262144 else if a = 6 then 32768 else if a = 5 then 65536 else 131072

/-! ### Long-sum (R208 to R210) -/

/-- A LONG container (R212): the accumulator, its window, the special state (0 finite, 1 +∞, 2 −∞, 3 NaN) and flags. -/
structure Long where
  sum   : Int := 0
  win   : Int := 0
  st    : Nat := 0
  inv   : Bool := false
  sUnder : Bool := false
  sOver  : Bool := false
  deriving DecidableEq, Repr

/-- The 112-bit two's complement accumulator. -/
def wrap112 (i : Int) : Int := signed 112 (i % (2 ^ 112 : Nat)).toNat

/-- The container in its 16 bytes: its STATE is NaN where its value is (R210, R211). -/
def Long.bytes (l : Long) : List Byte :=
  intLE 14 l.sum ++ toLE 2 ((l.win % 1024).toNat + (if l.inv || l.sOver then 3 else l.st) * 1024 + b2n l.inv * 4096 + b2n l.sUnder * 8192 + b2n l.sOver * 16384)

/-- The container that 16 bytes hold. -/
def decLong (b : List Byte) : Long :=
  let w := leAt b 14 2
  { sum := leAtS b 0 14, win := signed 10 w, st := bits w 11 10, inv := bit w 12, sUnder := bit w 13, sOver := bit w 14 }

/-- The STATE of two partials combined, and whether that sets INVALID (R212). -/
def stCombine (a b : Nat) : Nat × Bool :=
  if a = b then (a, false) else if a = 3 ∨ b = 3 then (3, false)
  else if a ≠ 0 ∧ b ≠ 0 then (3, true) else (max a b, false)

/-- Two partials of one reduction combined (R212). -/
def Long.add (a b : Long) : Long :=
  if a.win ≠ b.win then { a with st := 3, inv := true, sUnder := a.sUnder || b.sUnder, sOver := a.sOver || b.sOver } else
  let (s, v) := stCombine a.st b.st
  { sum := wrap112 (a.sum + b.sum), win := a.win, st := s, inv := a.inv || b.inv || v, sUnder := a.sUnder || b.sUnder,
    sOver := a.sOver || b.sOver }

/-- The SCALE byte of an MX block: none for an operand without scales; `some none` for 0xFF, which reads as NaN (R206). -/
abbrev ScaleOf := Option Nat

/-- The terms of one block: the finite sum β, the infinities of each sign, and whether a term is NaN (R209, R210). -/
structure BlockSum where
  beta : Int := 0
  pinf : Bool := false
  ninf : Bool := false
  nan  : Bool := false
  deriving DecidableEq, Repr

/-- One more term of a block. -/
def BlockSum.term (la lb : Int) (s : BlockSum) (ab : FV × FV) : BlockSum :=
  match ab.1, ab.2 with
  | .fin n m e, .fin k q x => { s with beta := s.beta + scaledTo la n m e * scaledTo lb k q x }
  | a, b => match fMulX a b with
    | .inf false => { s with pinf := true }
    | .inf true => { s with ninf := true }
    | _ => { s with nan := true }

/-- The sum of a block's terms. -/
def blockSum (la lb : Int) (l : List (FV × FV)) : BlockSum := l.foldl (BlockSum.term la lb) {}

/-- An integer times 2^n, truncated toward zero for a negative n (R209). -/
def shiftTrunc (v : Int) (n : Int) : Int := if 0 ≤ n then v * (2 ^ n.toNat : Nat) else Int.tdiv v (2 ^ (-n).toNat : Nat)

/-- One block brought into the accumulator (R208, R209). `sg` is the block's combined scale exponent; without scales it is
0, and SCALE_LO 0 puts the sum into the window unchanged. -/
def Long.block (span : Nat) (lo : Int) (acc : Long) (s : BlockSum) (sg : Int) : Long :=
  let st := if s.nan then 3 else if s.pinf ∧ s.ninf then 3 else if s.pinf then 1 else if s.ninf then 2 else 0
  let (st', v) := stCombine acc.st st
  let acc := { acc with st := st', inv := acc.inv || v || s.nan || (s.pinf && s.ninf) }
  if s.beta = 0 then acc
  else if sg < lo then { acc with sum := wrap112 (acc.sum + shiftTrunc s.beta (sg - lo)), sUnder := true }
  else if lo + span < sg then { acc with sOver := true }
  else { acc with sum := wrap112 (acc.sum + shiftTrunc s.beta (sg - lo)) }

/-- The value a container stands for before rounding (R210). -/
def Long.value (l : Long) : FV :=
  if l.inv ∨ l.sOver ∨ l.st = 3 then .nan else if l.st = 1 then .inf false else if l.st = 2 then .inf true
  else .fin (decide (l.sum < 0)) l.sum.natAbs l.win

/-- An error of the arithmetic in one pass over a tile: what it adds to the accumulator of output element (row, col), and whether it
strikes the second pass as well. It comes from outside the rules; the checksums look for it (R218, R237). -/
structure Upset where
  row   : Nat
  col   : Nat
  delta : Int
  twice : Bool := false
  deriving DecidableEq, Repr

/-! ### Rounding to an output format (R211) -/

/-- A float format an element is written in: significand bits, least normal exponent, largest finite code, bits, and the
codes of infinity (none: saturates) and NaN (none: zero with INVALID). -/
structure OutFloat where
  p    : Nat
  emin : Int
  maxc : Nat
  w    : Nat
  inf  : Option Nat
  nan  : Option Nat
  deriving DecidableEq, Repr

/-- The float output formats of R211 and the MX element formats of R204. -/
def outFloat (c : Nat) : Option OutFloat :=
  if c = 0 then some ⟨24, -126, 0x7F7FFFFF, 32, some 0x7F800000, some 0x7FC00000⟩
  else if c = 1 ∨ c = 8 then some ⟨4, -6, 0x7E, 8, none, some 0x7F⟩
  else if c = 2 then some ⟨3, -14, 0x7B, 8, some 0x7C, some 0x7E⟩
  else if c = 9 then some ⟨3, -14, 0x7B, 8, none, some 0x7E⟩
  else if c = 5 then some ⟨11, -14, 0x7BFF, 16, some 0x7C00, some 0x7E00⟩
  else if c = 6 then some ⟨8, -126, 0x7F7F, 16, some 0x7F80, some 0x7FC0⟩
  else if c = 0xA then some ⟨3, -2, 0x1F, 6, none, none⟩
  else if c = 0xB then some ⟨4, 0, 0x1F, 6, none, none⟩
  else if c = 0xC then some ⟨2, 0, 0x7, 4, none, none⟩
  else none

/-- An element as stored, with the flags its writing sets. -/
structure OutElem where
  raw : Nat
  ovf : Bool := false
  inv : Bool := false
  deriving DecidableEq, Repr

/-- m × 2^e in units of 2^q, rounded to nearest even. -/
def quantise (m : Nat) (e q : Int) : Nat := if q ≤ e then m * 2 ^ (e - q).toNat else shiftRne m (q - e).toNat

/-- A value written in a float format with gradual underflow and saturation (R211). -/
def OutFloat.put (f : OutFloat) (v : FV) : OutElem :=
  let sg (neg : Bool) : Nat := b2n neg * 2 ^ (f.w - 1)
  match v with
  | .nan => match f.nan with
    | some c => { raw := c }
    | none => { raw := 0, inv := true }
  | .inf neg => match f.inf with
    | some c => { raw := sg neg + c }
    | none => { raw := sg neg + f.maxc, ovf := true }
  | .fin neg m e =>
    if m = 0 then { raw := sg neg } else
    let qmin : Int := f.emin - (f.p - 1 : Nat)
    let q := max qmin (e + bitLen m - f.p)
    let code := quantise m e q + (q - qmin).toNat * 2 ^ (f.p - 1)
    if f.maxc < code then { raw := sg neg + f.maxc, ovf := true } else { raw := sg neg + code }

/-- A value written as an integer of `w` bits, saturating (R211); not a number is 0 with INVALID. -/
def intPut (w : Nat) (v : FV) : OutElem :=
  let lo : Int := -(2 ^ (w - 1) : Nat)
  let hi : Int := (2 ^ (w - 1) : Nat) - 1
  let enc (i : Int) : Nat := (i % (2 ^ w : Nat)).toNat
  match v with
  | .nan => { raw := 0, inv := true }
  | .inf neg => { raw := enc (if neg then lo else hi), ovf := true }
  | v => let i := fToIntRne v; { raw := enc (satInt lo hi i), ovf := decide (i < lo) || decide (hi < i) }

/-- A value of +0 for an accumulator of exactly zero (R211). -/
def plusZero (v : FV) : FV := match v with | .fin _ 0 _ => fZero | v => v

/-- A value written to an output format other than LONG, or to INT4, which P of an ATTN may have (R211, R230). -/
def outPut (c : Nat) (v : FV) : OutElem :=
  if c = 3 then intPut 8 v else if c = 4 then intPut 4 v else if c = 7 then intPut 32 v
  else match outFloat c with
    | some f => f.put v
    | none => { raw := 0 }

/-- The value a stored element of an output format has (0x0 FP32, 0x7 INT32, else as R204). -/
def outVal (c raw : Nat) : FV := if c = 7 then fOfInt (signed 32 raw) else if c = 0 then fOfBits f32 raw else elemVal c raw

/-! ### MX conversion (R232) -/

/-- The largest exponent of an MX element format. -/
def mxEmax (c : Nat) : Int := if c = 8 then 8 else if c = 9 then 15 else if c = 0xA then 4 else if c = 0xD then 0 else 2

/-- The exponent of a finite non-zero magnitude: floor(log2 a). -/
def floorLog2 : FV → Int
  | .fin _ m e => e + bitLen m - 1
  | _ => 1024

/-- The scale byte of a block (R232): 0 for a block whose largest magnitude is 0. -/
def mxScale (c : Nat) (blk : List FV) : Nat :=
  let mags := (blk.filter (· ≠ .nan)).map fAbs
  let a := mags.foldl fMax fZero
  if fIsZero a then 0 else (satInt 0 254 (floorLog2 a - mxEmax c + 127)).toNat

/-- One element of a block under its scale byte (R232), saturated to the largest finite value. -/
def mxElem (c x : Nat) (v : FV) : OutElem :=
  let s := match v with | .fin n m e => FV.fin n m (e + 127 - x) | v => v
  if c = 0xD then
    match s with
    | .nan => { raw := 0, inv := true }
    | .inf n => { raw := (if n then 129 else 127) }
    | .fin n m e => { raw := (satInt (-127) 127 (fToIntRne (.fin n m (e + 6))) % 256).toNat }
    else match outFloat c with
    | some f => { f.put s with ovf := false }
    | none => { raw := 0 }

/-- Blocks of 32 along a row. -/
def blocks32 {α : Type} : Nat → List α → List (List α)
  | 0, _ => []
  | n + 1, l => if l.isEmpty then [] else l.take 32 :: blocks32 n (l.drop 32)

/-- A row in an MX format: its elements and its scale bytes. -/
def mxRow (c : Nat) (row : List FV) : List OutElem × List Nat :=
  let bl := blocks32 row.length row
  ((bl.map fun b => let x := mxScale c b; b.map (mxElem c x)).flatten, bl.map (mxScale c))

/-! ### The BF16 path (R213 to R215) -/

/-- An FP32 value of the BF16 path with the flags raised on the way. -/
structure BfVal where
  v   : FV := fZero
  inv : Bool := false
  ovf : Bool := false
  deriving DecidableEq, Repr

/-- A result of the BF16 path brought to FP32: flushed, saturated with OVERFLOW, NaN with INVALID (R213). -/
def bfFix (x : FV) (inv ovf : Bool) : BfVal :=
  match fRound f32 x with
  | .nan => { v := .nan, inv := true, ovf }
  | .inf n => match x with
    | .fin _ _ _ => { v := .fin n 0xFFFFFF 104, inv, ovf := true }
    | _ => { v := .inf n, inv, ovf }
  | v => { v, inv, ovf }

/-- A product of two BF16 elements. -/
def bfMul (a b : FV) : BfVal := bfFix (fMulX a b) false false

/-- A sum of two FP32 values of the path. -/
def bfAdd (a b : BfVal) : BfVal := bfFix (fAddX a.v b.v) (a.inv || b.inv) (a.ovf || b.ovf)

/-- Neighbours added pairwise: one level of R214. -/
def pairUp {α : Type} (add : α → α → α) : List α → List α
  | a :: b :: r => add a b :: pairUp add r
  | l => l

/-- The value of a block of 32: five levels of pairwise addition (R214). -/
def blockTree {α : Type} (add : α → α → α) (zero : α) (l : List α) : α :=
  let l := l ++ List.replicate (32 - l.length) zero
  ((pairUp add (pairUp add (pairUp add (pairUp add (pairUp add l))))).head?).getD zero

/-- The largest power of two below n (n ≥ 2). -/
def pow2Below (n : Nat) : Nat := 2 ^ (n - 1).log2

/-- T(lo, n) of R214 over a list of block values; `fuel` bounds the depth. -/
def treeOf {α : Type} (add : α → α → α) (zero : α) : Nat → List α → α
  | 0, l => (l.head?).getD zero
  | fuel + 1, l => match l with
    | [] => zero
    | [a] => a
    | l => let m := pow2Below l.length; add (treeOf add zero fuel (l.take m)) (treeOf add zero fuel (l.drop m))

/-- The reduction tree of R214 over values in index order. -/
def addTree {α : Type} (add : α → α → α) (zero : α) (l : List α) : α :=
  treeOf add zero 40 ((blocks32 l.length l).map (blockTree add zero))

/-- (lo, m) is a node of the tree over blocks a to a+n−1, `right` asks that it be a right child (R214, R215). -/
def subtreeIn (right : Bool) (lo m : Nat) : Nat → Nat → Nat → Bool → Bool
  | 0, _, _, _ => false
  | fuel + 1, a, n, isRight =>
    if lo = a ∧ m = n ∧ (isRight || !right) then true else
    if n ≤ 1 then false else
    let h := pow2Below n
    if lo + m ≤ a + h then subtreeIn right lo m fuel a h false
    else if a + h ≤ lo then subtreeIn right lo m fuel (a + h) (n - h) true
    else false

/-- The part is a subtree of the tree over `kReduce` elements (R215, R224); with INIT values, it is a right child, so that
the left sibling and the union are subtrees too. -/
def subtreeOk (kBase kTotal kReduce : Nat) (init : Bool) : Bool :=
  (kTotal % 32 == 0 || kBase + kTotal == kReduce) && kBase % 32 == 0 && decide (1 ≤ kTotal)
  && subtreeIn init (kBase / 32) (cdiv kTotal 32) 40 0 (cdiv kReduce 32) false

/-! ### exp, tanh and rsqrt (R233) -/

/-- Fixed point with 256 fraction bits. -/
def fix : Nat := 2 ^ 256

/-- Terms 1 to n of the exponential series of a fixed-point number. -/
def expSeries : Nat → Nat → Int → Int → Int
  | 0, _, _, acc => acc
  | n + 1, k, r, term => let t := term * r / fix / k; t + expSeries n (k + 1) r t

/-- ln 2 in fixed point: Σ 1 ÷ (n 2^n). -/
def ln2Fix : Int := ((List.range 270).map fun n => ((fix / ((n + 1) * 2 ^ (n + 1)) : Nat) : Int)).sum

/-- exp of a fixed-point number as a fixed-point mantissa in [1, 2) and a binary exponent. -/
def expFix (x : Int) : Nat × Int :=
  let k := x / ln2Fix
  let r := x - k * ln2Fix
  (((fix : Int) + expSeries 60 1 r fix).toNat, k)

/-- A finite value in fixed point, truncated. -/
def toFix : FV → Int
  | .fin n m e =>
    let v : Nat := if 0 ≤ e + 256 then m * 2 ^ (e + 256).toNat else m / 2 ^ (-(e + 256)).toNat
    if n then -(v : Int) else v
  | _ => 0

/-- An FP32 value `d` units in the last place away. -/
def nudge (d : Int) (v : FV) : FV :=
  let b := fToBits f32 v
  if fFinite v && !(fIsZero v) then fOfBits f32 ((b / 2 ^ 31 * 2 ^ 31 : Nat) + satInt 0x00800000 0x7F7FFFFF ((b % 2 ^ 31 : Nat) + d)).toNat
  else v

/-- exp correctly rounded to FP32 under R112. -/
def expNear (v : FV) : FV :=
  match v with
  | .nan => .nan
  | .inf n => if n then fZero else .inf false
  | .fin n m e =>
    if fIsZero (.fin n m e) then fOne
    else if fLt (fOfNat 200) (.fin n m e) then .inf false
    else if fLt (.fin n m e) (fOfInt (-200)) then fZero
    else let (q, k) := expFix (toFix (.fin n m e)); fRound f32 (.fin false q (k - 256))

/-- tanh correctly rounded to FP32 under R112; below 2⁻²⁰ of magnitude it is v − v³ ÷ 3. -/
def tanhNear (v : FV) : FV :=
  match v with
  | .nan => .nan
  | .inf n => .fin n 1 0
  | .fin n m e =>
    let a : FV := .fin false m e
    if m = 0 then .fin n 0 0
    else if fLt (fOfNat 20) a then .fin n 1 0
    else if fLt a (.fin false 1 (-20)) then
      let c := fMulX (fMulX a a) a
      fRound f32 (fAddX (.fin n m e) (match c with | .fin _ q x => .fin (!n) (q * 2 ^ 80 / 3) (x - 80) | c => c))
    else
      let (q, k) := expFix (2 * toFix a)
      let t : Nat := q * 2 ^ k.toNat
      fRound f32 (.fin n ((t - fix) * fix / (t + fix)) (-256))

/-- 1 ÷ √v correctly rounded to FP32 under R112. -/
def rsqrtNear (v : FV) : FV :=
  match v with
  | .nan => .nan
  | .inf n => if n then .nan else fZero
  | .fin n m e =>
    if m = 0 then .inf n else if n then .nan else
    let odd := (e % 2).toNat
    let r := isqrt (2 ^ 400 / (m * 2 ^ odd))
    fRound f32 (.fin false (2 * r + 1) (-((e - odd) / 2) - 201))

end Sys2Proof.Machine
end

