-- ==== Sys2Proof/Machine/LinkCfg.lean ====
section
/-! DEFINITION. Crindadon package links (22_crindadon_link.md) and the host queues (20_host_interface.md) at run time: ports,
the link graph and its routes; submission and completion queues. -/

namespace Sys2Proof.Machine

/-! ### Crindadon ports -/

/-- CDL_PORT_STATUS.STATE. -/
inductive LState | down | training | up | degraded | held
  deriving DecidableEq, Repr

/-- The register value. -/
def LState.code : LState → Nat
  | .down => 0 | .training => 1 | .up => 2 | .degraded => 3 | .held => 4

/-- The pools of a port's receive buffers (R480): responses on VC3; transit of a request VC at a hop class (R478); local delivery in
the pools of R351. -/
inductive CPool | resp | transit (vc hops : Nat) | locS | locN | locQ (p : Nat)
  deriving DecidableEq, Repr

/-- Buffers of a pool in one port, of its 512; `credit` is CREDIT of each partition of the receiving package (R351 with C = 304). -/
def CPool.size (credit : List Nat) : CPool → Nat
  | .resp => 64
  | .transit _ _ => 8
  | .locS => 76
  | .locN => 19
  | .locQ p => 209 * credit.getD p 0 / 256

/-- Every pool of a port. -/
def CPool.all : List CPool :=
  [.resp, .locS, .locN] ++ (List.range 8).map CPool.locQ ++ (List.range 3).flatMap fun v => (List.range 6).map fun h => CPool.transit v (h + 1)

/-- A transaction that waits for a credit (R480): a request at its source, named by its number, or a request or response held in a
buffer `at_` of the port it came on. `unit` is DIE + UNIT of its origin tag (R477), `hops` how many it has taken. -/
structure CMsg where
  req   : Option Nat := none
  dest  : Nat
  src   : Nat
  unit  : Nat
  part  : Nat
  cls   : Nat
  resp  : Bool := false
  hops  : Nat := 0
  bytes : Nat
  at_   : Option (Nat × CPool) := none
  deriving DecidableEq, Repr

/-- The virtual channel of a transaction (R474): VC0 to VC2 for requests of class S, Q and N, VC3 for responses. -/
def CMsg.vc (m : CMsg) : Nat := if m.resp then 3 else m.cls

/-- The pools of the next port that may take a transaction, in order of use (R351, R478, R480): `peer` is the package there. -/
def CMsg.pools (m : CMsg) (peer : Nat) : List CPool :=
  if m.resp then [.resp]
  else if peer ≠ m.dest then [.transit m.vc (m.hops + 1)]
  else if m.cls = 0 then [.locS, .locQ m.part] else if m.cls = 1 then [.locQ m.part] else [.locN]

/-- A transaction keeps its place behind another one (R475, R478): one source and virtual channel, or one transit buffer. -/
def CMsg.behind (m x : CMsg) : Bool :=
  m.vc == x.vc && ((m.dest == x.dest && m.src == x.src && m.unit == x.unit) || (m.at_.isSome && m.at_ == x.at_))

/-- One port. `carries` is clear for a link that came up while a partition was RUNNING (R479); `credits` are those that the partner
has returned and that stand unused, `inUse` this port's own receive buffers that hold a transaction (R480). -/
structure CPort where
  st      : LState := .down
  dup     : Bool := false
  peerPkg : Nat := 0
  peerPort : Nat := 0
  peerUid : Nat := 0
  carries : Bool := false
  replays : List Nat := []       -- stamps of the replays of the last 1 ms
  rxSeq   : Nat := 0
  credits : List (CPool × Nat) := []
  inUse   : List CPool := []
  deriving DecidableEq, Repr

/-- Credits of a pool that stand unused. -/
def CPort.credit (p : CPort) (l : CPool) : Nat := ((p.credits.find? fun (e : CPool × Nat) => e.1 == l).map (·.2)).getD 0

/-- A pool's credits set. -/
def CPort.setCredit (p : CPort) (l : CPool) (n : Nat) : CPort :=
  { p with credits := (l, n) :: p.credits.filter fun (e : CPool × Nat) => e.1 != l }

/-- Credits that the partner returns. -/
def CPort.grant (p : CPort) (cs : List (CPool × Nat)) : CPort :=
  cs.foldl (fun (p : CPort) e => p.setCredit e.1 (p.credit e.1 + e.2)) p

/-- The port has a free buffer of a pool for what arrives (R480). Local delivery drains at once into memory. -/
def CPort.room (p : CPort) (l : CPool) : Bool := decide (p.inUse.count l < l.size [])

/-- The port is up, at full or half width. -/
def CPort.live (p : CPort) : Bool := p.st == .up || p.st == .degraded

/-- A route to a package: hops, and the mask of ports. -/
structure CRoute where
  hops  : Nat
  ports : Nat
  deriving DecidableEq, Repr

/-- A request to another package that has not been answered (R483): `t` is when it left its source, none while it waits there (R479,
R480); `core` the core whose DMA engine sent it, `sig` the die, class and address of an array's SIGNAL. -/
structure CReq where
  id    : Nat
  pkg   : Nat
  write : Bool
  t     : Option Nat := none
  part  : Nat
  core  : Option Nat
  sig   : Option (Nat × Nat × Nat) := none
  deriving DecidableEq, Repr

/-- 100 µs have not passed since the request left its source (R483). -/
def CReq.inTime (r : CReq) (now : Nat) : Bool := match r.t with | some t => decide (now ≤ t + 100000) | none => false

/-- The link unit: ports, the edges known of the link graph (package, package), routes, the packages whose route is to change once
the requests sent there are answered (R479), outstanding requests, and the transactions that wait for a credit, oldest first. -/
structure Links where
  ports  : List CPort := List.replicate 4 {}
  edges  : List (Nat × Nat) := []
  routes : List (Option CRoute) := List.replicate 8 none
  turning : List (Nat × Option CRoute) := []
  reqs   : List CReq := []
  msgs   : List CMsg := []
  nextId : Nat := 0
  deriving DecidableEq, Repr

/-- A request sent to package d is unanswered. -/
def Links.sentTo (l : Links) (d : Nat) : Bool := l.reqs.any fun (r : CReq) => r.pkg == d && r.t.isSome

/-- The packages one hop from a package in the graph. -/
def nbrs (edges : List (Nat × Nat)) (p : Nat) : List Nat :=
  (edges.filterMap fun e => if e.1 = p then some e.2 else if e.2 = p then some e.1 else none).eraseDups

/-- Distances from a package, breadth first: those reached within n hops with their distance. -/
def bfs (edges : List (Nat × Nat)) : Nat → Nat → List (Nat × Nat) → List (Nat × Nat)
  | 0, _, seen => seen
  | n + 1, h, seen =>
    let front := (seen.filter (·.2 == h)).flatMap fun e => nbrs edges e.1
    bfs edges n (h + 1) (seen ++ (front.eraseDups.filter fun p => !(seen.any (·.1 == p))).map fun p => (p, h + 1))

/-- Hops between two packages. -/
def hopsTo (edges : List (Nat × Nat)) (a b : Nat) : Option Nat := ((bfs edges 7 0 [(a, 0)]).find? (·.1 == b)).map (·.2)

/-- The route to package d (R477): the neighbour of lowest number on a shortest path, and every port that leads to it. -/
def routeTo (edges : List (Nat × Nat)) (me : Nat) (ports : List CPort) (d : Nat) : Option CRoute :=
  if d = me then none else
  (hopsTo edges me d).bind fun h =>
    let cand := (nbrs edges me).filter fun n => hopsTo (edges.filter fun e => e.1 != me && e.2 != me) n d == some (h - 1)
    (minOn id cand).map fun n =>
      { hops := h, ports := ((ports.zipIdx.filter fun e => e.1.live && e.1.carries && e.1.peerPkg == n).map fun e => 2 ^ e.2).sum }

/-- Every route of the package. -/
def routesOf (edges : List (Nat × Nat)) (me : Nat) (ports : List CPort) : List (Option CRoute) :=
  (List.range 8).map (routeTo edges me ports)

/-- The port that a transaction takes (R477): link (DIE + UNIT) mod the number of links, in ascending port order; `dieUnit` is that
sum. -/
def CRoute.port (r : CRoute) (dieUnit : Nat) : Option Nat :=
  let l := maskBits 4 r.ports
  l[dieUnit % l.length]?

/-! ### Host queues (R435 to R442) -/

/-- HIF_Q_STATUS.ERR. -/
def qeBASE := 1
/-- No HOST task serves the queue. -/
def qeNO_TASK := 2
/-- A tail beyond size − 1. -/
def qeTAIL := 3
/-- A fetch that failed. -/
def qeFETCH := 4

/-- The completion statuses of R438. -/
def hsOK := 0
/-- A malformed command. -/
def hsFORMAT := 1
/-- R33, R349. -/
def hsREFUSED := 2
/-- Poisoned data on the device side. -/
def hsPOISON := 3
/-- R294, R295. -/
def hsCRC := 4
/-- A completion error, or EP, from host memory. -/
def hsPCIE := 5
/-- R268. -/
def hsTALLY_ERR := 6
/-- A reset. -/
def hsABORTED := 7

/-- A completion before it is written. -/
structure HComp where
  cid    : Nat
  status : Nat
  head   : Nat
  result : Nat := 0
  deriving DecidableEq, Repr

/-- One queue pair. `wait` is the command whose tally wait stalls the queue; `ready` the completions that wait for room. -/
structure HQueue where
  en     : Bool := false
  irq    : Bool := false
  sqSize : Nat := 0
  cqSize : Nat := 0
  head   : Nat := 0
  tail   : Nat := 0
  cqHead : Nat := 0
  cqTail : Nat := 0
  phase  : Bool := true
  err    : Nat := 0
  wait   : Option (List Byte) := none
  copy   : Option (List Byte) := none  -- a virtual function's COPY in progress: released as an item of its HOST task (R437)
  mute   : Bool := false               -- its function has been reset since: no completion is posted (R442)
  ready  : List HComp := []
  asleep : Bool := false        -- the function is in D3hot
  counted : Bool := false       -- the command at the head is counted as held for a full CQ
  deriving DecidableEq, Repr

/-- The CQ holds size − 1 unconsumed completions (R440). -/
def HQueue.cqFull (q : HQueue) : Bool :=
  let n := 2 ^ q.cqSize
  (q.cqTail + n - q.cqHead) % n == n - 1

/-- A completion's 16 bytes (R438). -/
def HComp.bytes (c : HComp) (phase : Bool) : List Byte :=
  toLE 2 c.cid ++ toLE 1 c.status ++ toLE 1 (b2n phase) ++ toLE 2 c.head ++ toLE 2 0 ++ toLE 8 c.result

/-- A command's fields (R436). -/
structure HCmd where
  op     : Nat
  notify : Bool
  check  : Bool
  cid    : Nat
  len    : Nat
  host   : Nat
  dev    : Nat
  expect : Nat
  arg    : List Byte
  ok     : Bool          -- every field is well formed for the OP
  deriving DecidableEq, Repr

/-- The 64 bytes of a command read. -/
def decHCmd (b : List Byte) : HCmd :=
  let op := leAt b 0 1
  let fl := leAt b 1 1
  let copy := op == 1 || op == 2
  let len := leAt b 4 4
  { op, notify := bit fl 0, check := bit fl 1, cid := leAt b 2 2, len, host := leAt b 8 8, dev := leAt b 0x10 8, expect := leAt b 0x18 4,
    arg := slice b 0x20 16,
    ok := b.length == 64 && decide (1 ≤ op) && decide (op ≤ 5) && decide (fl < 4) && zerosAt b 0x1C 4 && zerosAt b 0x30 16
      && (if copy then len % 64 == 0 && decide (64 ≤ len) && decide (len ≤ 0x40000000) && leAt b 8 8 % 64 == 0 && leAt b 0x10 8 % 64 == 0
            && zerosAt b 0x20 16 && (bit fl 1 || leAt b 0x18 4 == 0)
          else zerosAt b 4 24 && !(bit fl 1)
            && (if op = 3 then true else if op = 4 then decide (leAt b 0x22 1 ≤ 23) && zerosAt b 0x23 13 else zerosAt b 0x20 16)) }

end Sys2Proof.Machine
end

