-- ==== Sys2Proof/Machine/SyncCfg.lean ====
section
/-! DEFINITION. Synchronisation (11_synchronisation.md): tally references, the SYNC section, the compact translation
table, and the counters, waits and standing monitors at run time. -/

namespace Sys2Proof.Machine

/-- A tally word (R263): a sync counter of a core, or a memory word by device address. -/
inductive TWord
  | ctr (core n : Nat)
  | mem (addr : Nat)
  deriving DecidableEq, Repr

/-- A tally reference as its bits name it (R264): an address, a full-mode counter (k, n), a virtual counter (context, v). -/
inductive TRef
  | addr (a : Nat)
  | full (k n : Nat)
  | virt (ctx v : Nat)
  deriving DecidableEq, Repr

/-- R264: a TREF read in a mode; nothing where a bit outside its fields is set. -/
def decTref (fullMode : Bool) (w : Nat) : Option TRef :=
  if bit w 63 then
    let x := w % 2 ^ 63
    if fullMode then (if x < 65536 then some (.full (bits x 15 8) (bits x 7 0)) else none)
    else (if x < 2 ^ 26 then some (.virt (bits x 25 12) (bits x 11 0)) else none)
  else if w < 2 ^ 48 then some (.addr w) else none

/-- Counter kinds (R267). -/
def ckMONO := 0
/-- R267. -/
def ckSEM := 1
/-- R267. -/
def ckBAR := 2

/-- A counter record of the SYNC section. -/
structure CtrRec where
  tref    : Nat
  kind    : Nat
  parties : Nat
  init    : Nat
  deriving DecidableEq, Repr

/-- A monitor record. -/
structure MonRec where
  tref : Nat
  step : Nat
  task : Nat
  flag : Nat
  deriving DecidableEq, Repr

/-- A channel record. -/
structure ChanRec where
  p     : Nat
  c     : Nat
  bound : Nat
  deriving DecidableEq, Repr

/-- A SYNC payload; the default of R280 stands where the section is absent. -/
structure SyncSec where
  mode     : Nat := 0
  lend     : Nat := 10000
  waitMax  : Nat := 1000
  counters : List CtrRec := []
  monitors : List MonRec := []
  channels : List ChanRec := []
  deriving DecidableEq, Repr

/-- Full mode (R279). -/
def SyncSec.full (s : SyncSec) : Bool := s.mode == 1

/-- The payload decoded (R280). -/
def decSync (b : List Byte) : SyncSec :=
  let nc := min (leAt b 2 2) (b.length / 16)
  let nm := min (leAt b 4 2) (b.length / 16)
  let nh := min (leAt b 6 2) (b.length / 24)
  let om := 32 + 16 * leAt b 2 2
  let oh := om + 16 * leAt b 4 2
  { mode := leAt b 0 1, lend := leAt b 8 4, waitMax := leAt b 0xC 4,
    counters := (List.range nc).map fun i => let o := 32 + 16 * i
      { tref := leAt b o 8, kind := leAt b (o + 8) 1, parties := leAt b (o + 10) 2, init := leAt b (o + 12) 4 },
    monitors := (List.range nm).map fun i => let o := om + 16 * i
      { tref := leAt b o 8, step := leAt b (o + 8) 4, task := leAt b (o + 12) 2, flag := leAt b (o + 14) 1 },
    channels := (List.range nh).map fun i => let o := oh + 24 * i
      { p := leAt b o 8, c := leAt b (o + 8) 8, bound := leAt b (o + 16) 4 } }

/-- The sync counter of a core, (core, n), that a device address inside its counter window names (R263, R264). -/
def ctrAt (a : Nat) : Option (Nat × Nat) :=
  if 0x010000000000 ≤ a ∧ a < 0x010200000000 ∧ a % 0x100000000 < 0x04000000
      ∧ 0xD4000 ≤ a % 0x100000 ∧ a % 0x100000 < 0xD4180 ∧ a % 8 = 0 then
    some (a / 0x100000000 % 2 * 64 + a % 0x100000000 / 0x100000, (a % 0x100000 - 0xD4000) / 8)
  else none

/-! ### The compact table (R279) -/

/-- The first core of a list with `n` free counters. -/
def roomyCore (used : List (Nat × Nat)) (n : Nat) (cores : List Nat) : Option Nat :=
  cores.find? fun c => decide ((used.filter (·.1 == c)).length + n ≤ 48)

/-- The lowest counter of a core that is free. -/
def lowestFree (used : List (Nat × Nat)) (c : Nat) : Nat := ((List.range 48).find? fun n => !(used.contains (c, n))).getD 48

/-- One virtual counter placed on the first core with a free counter; `tab` lists TREF words with their counters. -/
def placeOne (cores : List Nat) (tab : List (Nat × Nat × Nat)) (w : Nat) : Option (List (Nat × Nat × Nat)) :=
  if tab.any (·.1 == w) then some tab else
  let used := tab.map (·.2)
  (roomyCore used 1 cores).map fun c => tab ++ [(w, c, lowestFree used c)]

/-- A channel's pair placed on the first core with two free counters. -/
def placeChan (cores : List Nat) (tab : List (Nat × Nat × Nat)) (h : ChanRec) : Option (List (Nat × Nat × Nat)) :=
  if tab.any (fun e => e.1 == h.p || e.1 == h.c) then
    -- a counter shared by two channels is already placed; the other joins its core's first free counter
    let core := (tab.find? fun e => e.1 == h.p || e.1 == h.c).map (·.2.1)
    (placeOne (core.toList) tab h.p).bind fun t => placeOne core.toList t h.c
  else
    (roomyCore (tab.map (·.2)) 2 cores).bind fun c => (placeOne [c] tab h.p).bind fun t => placeOne [c] t h.c

/-- The compact table of a partition (R279): TREF words with (core, n); nothing where it does not fit. `coresOn d` lists the
partition's cores on die d in ascending k. A channel that names a counter by its window address places nothing. -/
def compactTable (s : SyncSec) (coresOn : Nat → List Nat) : Option (List (Nat × Nat × Nat)) :=
  let die (w : Nat) : Nat := match decTref false w with | some (.virt x _) => x / 8192 | _ => 0
  let chans := (s.channels.filter fun h => bit h.p 63 && bit h.c 63).foldl (fun t h => t.bind fun t => placeChan (coresOn (die h.p)) t h) (some [])
  s.counters.foldl (fun t c => t.bind fun t => placeOne (coresOn (die c.tref)) t c.tref) chans

/-- Where the counters that a section declares lie: TREF words with (core, n). -/
def SyncSec.places (s : SyncSec) (cores : List Nat) : List (Nat × Nat × Nat) :=
  if s.full then
    s.counters.filterMap fun c => match decTref true c.tref with
      | some (.full k n) => cores[k]?.map fun x => (c.tref, x, n)
      | _ => none
  else (compactTable s fun d => cores.filter (· / 64 == d)).getD []

/-- The TREF under which the counter that a reference names is declared: a window address names it as its TREF does (R264). -/
def SyncSec.declName (s : SyncSec) (cores : List Nat) (w : Nat) : Nat :=
  match (if bit w 63 then none else ctrAt w) with
  | some e => ((s.places cores).find? fun x => x.2 == e).elim w (·.1)
  | none => w

/-- A reference names a declared MONO counter; one by window address is judged once the partition's cores are known. -/
def SyncSec.mono (s : SyncSec) (cores : Option (List Nat)) (w : Nat) : Bool :=
  s.counters.any (fun c => c.tref == s.declName (cores.getD []) w && c.kind == ckMONO) || (cores.isNone && !bit w 63 && (ctrAt w).isSome)

/-- P and C of a channel are counters of one sync unit, in compact mode of one context (R270, R281). -/
def SyncSec.sameHome (s : SyncSec) (cores : Option (List Nat)) (h : ChanRec) : Bool :=
  match decTref s.full (s.declName (cores.getD []) h.p), decTref s.full (s.declName (cores.getD []) h.c) with
  | some (.full k _), some (.full k' _) => k == k'
  | some (.virt x _), some (.virt x' _) => x == x'
  | _, _ => cores.isNone

/-- The own checks of SYNC (R281), with what R280 asks of a partition: its cores where they are known, how many it wants, its class S
permission, and its contexts. -/
def ownSync (b : List Byte) (cores : Option (List Nat)) (nCores : Nat) (classS : Bool) (ownsCtx : Nat → Bool) : Option Bad :=
  let s := decSync b
  let nc := leAt b 2 2
  let nm := leAt b 4 2
  let nh := leAt b 6 2
  let om := 32 + 16 * nc
  let oh := om + 16 * nm
  firstBad [
    needF (decide (s.mode ≤ 1)) 0x0B01 0, needF (zerosAt b 1 1) 0x0B01 1, needF (decide (nc ≤ 4096)) 0x0B01 2,
    needF (decide (nm ≤ 256)) 0x0B01 4, needF (decide (nh ≤ 2048)) 0x0B01 6,
    needF (b.length == oh + 24 * nh) 0x0B01 0,
    needF (s.full || decide (nCores ≤ 16)) 0x0B02 0,
    needF (s.lend == 0 || (decide (1000 ≤ s.lend) && decide (s.lend ≤ 1000000000))) 0x0B07 8,
    needF (decide (s.waitMax ≤ 1000000) && (s.waitMax != 0 || !classS)) 0x0B07 0xC,
    needF (zerosAt b 0x10 16) 0x0B01 0x10,
    firstOverI s.counters fun i c => let o := 32 + 16 * i
      firstBad [
        needF ((match decTref s.full c.tref with
                | some (.full k n) => decide (k < nCores) && decide (n < 48)
                | some (.virt x _) => ownsCtx x
                | _ => false) && !((s.counters.take i).any (·.tref == c.tref))) 0x0B03 o,
        needF (decide (c.kind ≤ 2)) 0x0B03 (o + 8), needF (zerosAt b (o + 9) 1) 0x0B01 (o + 9),
        needF (if c.kind = ckBAR then decide (1 ≤ c.parties) && decide (c.parties ≤ 1024) else c.parties == 0) 0x0B03 (o + 10),
        needF (c.kind != ckBAR || c.init == 0) 0x0B03 (o + 12)],
    firstOverI s.monitors fun i m => let o := om + 16 * i
      firstBad [
        needF (m.step != 0) 0x0B05 (o + 8), needF (decide (m.flag ≤ 23)) 0x0B05 (o + 14), needF (zerosAt b (o + 15) 1) 0x0B01 (o + 15)],
    firstOverI s.channels fun i h => let o := oh + 24 * i
      firstBad [
        needF (s.mono cores h.p) 0x0B04 o,
        needF (s.mono cores h.c && s.sameHome cores h) 0x0B04 (o + 8),
        needF (h.bound != 0) 0x0B04 (o + 16), needF (zerosAt b (o + 20) 4) 0x0B01 (o + 20)]]

/-! ### Run time -/

/-- The declaration of a sync counter (R267). Its word stands in memory, at its window address (R263). -/
structure Ctr where
  core    : Nat
  n       : Nat
  part    : Nat
  kind    : Nat := 0
  parties : Nat := 0
  init    : Nat := 0
  deriving DecidableEq, Repr

/-- A channel in force: its two counters and bound (R270). -/
structure Chan where
  p     : TWord
  c     : TWord
  bound : Nat
  deriving DecidableEq, Repr

/-- Who issues a tally operation or a wait (R265, R269): a core's DMA engine, a host command queue, an array's SIGNAL,
the host register of a partition, an ingest channel (R465) or another package. -/
inductive Issuer
  | dma (core : Nat)
  | hostq (fn q : Nat)
  | array (die : Nat)
  | hostReg (p : Nat)
  | ingest (chan : Nat)
  | remote (pkg : Nat)
  deriving DecidableEq, Repr

/-- A registered wait (R269, R273). `op` is the OP of R265; `gen` the generation an ARRIVE recorded. -/
structure Wait where
  issuer  : Issuer
  part    : Nat
  tref    : Nat
  word    : TWord
  op      : Nat
  operand : Nat
  gen     : Nat := 0
  since   : Nat := 0
  cls     : Nat := 0
  polled  : Bool := false
  lent    : Bool := false
  deriving DecidableEq, Repr

/-- What a standing monitor fires (R275). -/
inductive MonUse
  | flag (part task flag : Nat)
  | run (part net : Nat)
  | done (part bank : Nat)
  | int (part k : Nat)
  deriving DecidableEq, Repr

/-- A standing monitor (R275). `fired` serves the DONE words. -/
structure Mon where
  die   : Nat
  word  : TWord
  step  : Nat
  e     : Nat
  use   : MonUse
  fired : Bool := false
  deriving DecidableEq, Repr

/-- The sync units: counters, channels, the compact tables, waits and standing monitors. -/
structure SyncSt where
  ctrs  : List Ctr := []
  chans : List Chan := []
  xlate : List (Nat × Nat × Nat × Nat) := []    -- partition, TREF word, core, n
  waits : List Wait := []
  mons  : List Mon := []
  deriving DecidableEq, Repr

/-- The counter of a core. -/
def SyncSt.ctr (s : SyncSt) (core n : Nat) : Option Ctr := s.ctrs.find? fun c => c.core == core && c.n == n

/-- A tally word in its 64 bits (R263). -/
def tallyBits (err : Bool) (gen value : Nat) : Nat := b2n err * 2 ^ 63 + gen % 128 * 2 ^ 56 + value % 2 ^ 56

/-- The monitor's next expected value after it fires at VALUE v (R275), and the steps skipped. -/
def Mon.advance (m : Mon) (v : Nat) : Mon × Nat :=
  let k := (v - m.e) / m.step
  ({ m with e := m.e + m.step * (k + 1), fired := true }, k)

end Sys2Proof.Machine
end

