-- ==== Sys2Proof/Syntax.lean ====
section
/-! DEFINITION. The commands and events of the package, one constructor for each row of the opcode table, with what each
carries from outside. `t` is the device time at which a command or event comes about (ns); an instant that the spec itself
fixes is not an operand. `late` is how long after its instant, in ns, an event of the planner dies comes about. -/

namespace Sys2Proof

/-- The window of PCIe that a register access uses: the registers of BAR0, the MSI-X table or PBA of BAR4 (R390, R433). -/
inductive Bar | bar0 | bar4
  deriving DecidableEq, Repr

/-- An access to a register by a PCIe function (0 the physical function, 1 + p virtual function p): the window, the byte
offset, and the width in bytes (R7, R507). -/
structure RegAcc where
  fn    : Nat
  off   : Nat
  bar   : Bar := .bar0
  width : Nat := 4
  deriving DecidableEq, Repr

/-- What the package finds at POR_N release (R424): PKG_SEL, whether both channels pass their start-up tests, the planner
dies and units that the fuses enable being in `State.fuses`. -/
structure PorIn where
  pkgSel : Nat := 0
  chA    : Bool := true
  chB    : Bool := true
  t      : Nat := 0
  deriving DecidableEq, Repr

/-- How a function's bring-up test ends (R425): it passes, but for units (identifiers of R368) whose own tests failed twice with the
same signature; or the function fails. -/
inductive ReadyIn
  | pass (retired : List Nat)
  | fail
  deriving DecidableEq, Repr

/-- One execution of an array descriptor: the die, the network (partition and number), tiles whose checksum fails once and
twice (R238), and the instant it ends. -/
structure ArrIn where
  die   : Nat
  part  : Nat
  net   : Nat
  retry : List Nat := []
  fail  : List Nat := []
  upset : List Machine.Upset := []
  t     : Nat := 0
  deriving DecidableEq, Repr

/-- A tally operation that arrives at its word's home: who issued it, for which partition, and its TREF and OPERAND. -/
structure TallyIn where
  issuer  : Machine.Issuer
  part    : Nat
  tref    : Nat
  operand : Nat
  cls     : Nat := 2
  t       : Nat := 0
  deriving DecidableEq, Repr

/-- What a scrub read finds (R285): nothing wrong, a single-bit error at a bit of the word, or an uncorrectable error. -/
inductive EccIn | clean | single (bit : Nat) | double
  deriving DecidableEq, Repr

/-- A safety input wire at its new level: the input (0 to 3 emergency stop, 4 to 11 OSSD, 12 enabling device), the wire and the
level it has held for FILTER_US. -/
structure WireIn where
  input : Nat
  b     : Bool
  level : Bool
  deriving DecidableEq, Repr

/-- How a self-test slice ends: its signature matches, or it fails with a signature and the lanes it names. -/
structure SliceIn where
  pass  : Bool := true
  sig   : Nat := 0
  lanes : List Nat := []
  deriving DecidableEq, Repr

/-- An event reported to the error collector (R369). -/
structure EventIn where
  kind : Nat
  unit : Nat := 0xFFFF
  sub  : Nat := 0
  cls  : Nat := 0
  tag  : Nat := 0xFFFF
  addr : Nat := 0
  op   : Nat := 0
  aux  : Nat := 0
  synd : Nat := 0
  len  : Nat := 0
  t    : Nat := 0
  deriving DecidableEq, Repr

/-- What the Kettle reads in a control period: package power (0.1 W) and die temperatures (eighths of a degree). -/
structure SenseIn where
  power : Nat := 0
  tj    : List Int := [0, 0, 0]
  t     : Nat := 0
  deriving DecidableEq, Repr

/-- A life-cycle request: the function that wrote GO, the request's bytes, whether the fetch succeeded, and whether the burn
read back right (R428, R429). -/
structure LcIn where
  fn    : Nat
  bytes : List Byte
  ok    : Bool := true
  burn  : Bool := true
  t     : Nat := 0
  deriving DecidableEq, Repr

/-- What has come back from another package when a command of a DMA chain runs (R32, R483): nothing yet; an answer with the bytes
read and the poisoned lines among them; a refusal (R481); a transfer that failed its checks there (R294). -/
inductive FarIn | waiting | answer (data : List Byte) (bad : List Nat) | refused | failed
  deriving DecidableEq, Repr

/-- A host command taken from a submission queue: function, queue, its 64 bytes, the host data it reads, whether PCIe reads and
writes succeed, the blocks whose check fails once and twice (R294), and what another package has answered (R32). -/
structure HostIn where
  fn    : Nat
  q     : Nat
  bytes : List Byte
  data  : List Byte := []
  pcie  : Bool := true
  retry : List Nat := []
  fail  : List Nat := []
  far   : FarIn := .waiting
  t     : Nat := 0
  deriving DecidableEq, Repr

/-- A BAR2 access: function, BAR offset, bytes written (none for a read) and the length read. -/
structure MemAcc where
  fn    : Nat
  off   : Nat
  write : Bool
  data  : List Byte := []
  len   : Nat := 0
  t     : Nat := 0
  deriving DecidableEq, Repr

/-- A fieldbus cycle at its start: how late the frame leaves (ns), and whether the datapaths of the channels agree (R318). -/
structure CycleIn where
  late  : Nat := 0
  agree : Bool := true
  deriving DecidableEq, Repr

/-- A returned cyclic frame: its process data as axis values (mechanism, axis, statusword, position), FSoE input frames by
connection, the working counter and the deviation of distributed clocks. -/
structure ImageIn where
  axes : List (Nat × Nat × Nat × Quad) := []
  soe  : List (Nat × List Byte) := []
  wkc  : Nat := 0
  crc  : Bool := true
  dc   : Word := 0#32
  t    : Nat := 0
  deriving DecidableEq, Repr

/-- A TSN drive's feedback frame: the cycle it answers and its axis values. -/
structure FeedIn where
  k    : Nat
  axes : List (Nat × Nat × Nat × Quad) := []
  ok   : Bool := true
  t    : Nat := 0
  deriving DecidableEq, Repr

/-- A PTP Sync at the time-receiver port: the grandmaster, the measured offset (ns, two's complement) and the instant. -/
structure PtpIn where
  gm     : Nat
  offset : Quad
  t      : Nat
  deriving DecidableEq, Repr

/-- A sensor packet: its channel, its payload, whether it arrived without error. -/
structure PacketIn where
  chan  : Nat
  data  : List Byte
  ok    : Bool := true
  stamp : Nat := 0
  t     : Nat := 0
  deriving DecidableEq, Repr

/-- A received flit: good, corrected, or bad; whether it is idle, its sequence number, the credits that its HEADER returns (R472, R480),
and the requests of this package whose responses it brings, for those that no DMA engine waits for. -/
structure FlitIn where
  seq       : Nat
  idle      : Bool := false
  good      : Bool := true
  corrected : Bool := false
  credits   : List (Machine.CPool × Nat) := []
  acks      : List Nat := []
  deriving DecidableEq, Repr

/-- The result of training a port: the peer's package, port and identity, lanes in use, the links known beyond it, and CREDIT of the
peer's partitions, which divides its Q pools (R351, R480). -/
structure TrainIn where
  pkg   : Nat
  port  : Nat
  uid   : Nat
  full  : Bool := true
  edges : List (Nat × Nat) := []
  credit : List Nat := []
  deriving DecidableEq, Repr

/-- A request from another package: its source, the class and partition of its tag, the device address, what it asks (`op` 0 a read
or a write of memory, else a tally operation of R265) and its data, lines of a write that are poisoned, and the blocks of a write that were
sent again and matched, or mismatched twice (R294). `dest` is the package it is
bound for, none this one; `hops` the hops it has taken, `unit` DIE + UNIT of its origin tag, `resp` a response (R474, R477, R478). -/
structure RemoteIn where
  id    : Nat
  pkg   : Nat
  part  : Nat
  cls   : Nat := 2
  addr  : Nat
  op    : Nat := 0
  operand : Nat := 0
  write : Bool := false
  data  : List Byte := []
  bad   : List Nat := []
  retry : List Nat := []
  fail  : List Nat := []
  len   : Nat := 0
  port  : Nat := 0
  dest  : Option Nat := none
  hops  : Nat := 1
  unit  : Nat := 0
  resp  : Bool := false
  t     : Nat := 0
  deriving DecidableEq, Repr

/-- How an EtherCAT bus transition ends: the state reached, or the failure code. -/
structure BusIn where
  ok  : Bool := true
  err : Nat := 0
  deriving DecidableEq, Repr


/-- A command to the package or an event at it (opcode_table.json). -/
inductive Instr
  /-- REGISTER_WRITE (R6). A write to a register that has no row of its own sets its RW fields, or clears W1C bits or sets W1S bits, as its access type allows. -/
  | registerWrite (a : RegAcc) (v : Nat) (t : Nat)
  /-- READ_CLEAR (R6). A read of an RC register returns its current value and clears the field as part of the same read. -/
  | readClear (a : RegAcc) (t : Nat)
  /-- LO_READ_LATCH (R8). A read of a _LO register latches the matching _HI value for the PCIe function that read it. -/
  | loReadLatch (a : RegAcc) (t : Nat)
  /-- COLD_RESET (R419). POR_N driven low resets the whole package and holds every ball in its reset state. -/
  | coldReset (t : Nat)
  /-- POR_N_RELEASE (R424). The release of POR_N starts device time at 0, latches fuses and PKG_SEL, wipes the secure region and starts the warden, the planner dies and the interfaces. -/
  | porNRelease (o : PorIn)
  /-- READY (R425). A function finishes its bring-up test; it sets its readiness bit, or sets its GLB_READY_FAIL bit, or has its unit retired. -/
  | ready (bit : Nat) (o : ReadyIn) (t : Nat)
  /-- HBM_INIT (R511). An HBM controller finishes writing its whole stack with zero data and sets the stack's readiness bit. -/
  | hbmInit (stack : Nat) (t : Nat)
  /-- COLD (R430). A GLB_RESET_CMD write with OP COLD asserts the same cold reset as POR_N and holds the cold-reset pin states for 1 ms. -/
  | cold (fn : Nat) (t : Nat)
  /-- WARM (R420). A GLB_RESET_CMD write with OP WARM asserts a warm reset of both planner dies; the configured partitions are left STOPPED. -/
  | warm (fn : Nat) (t : Nat)
  /-- WARM_RESET_RELEASE (R420). The warm reset is released 99 µs after its first source; the planner functions retest and the HBM stacks retrain. -/
  | warmResetRelease (t : Nat)
  /-- PART (R421). A GLB_RESET_CMD write with OP PART resets the work of one partition, or is rejected with CMD_RESULT 1. -/
  | part (fn : Nat) (p : Nat) (t : Nat)
  /-- PLANNER_RESTART (R329). After a fall-back, once the planner functions are ready, the warden repeats DISTRIBUTE from the active slot and STARTs every partition that was RUNNING. -/
  | plannerRestart (t : Nat)
  /-- DEFERRED_TIME_STEP (R459). A step held back under STEP_WAIT is applied once no partition runs frames. -/
  | deferredTimeStep (t : Nat)
  /-- FRAME_WINDOW (R13). A partition's frame window opens at s: the FRAME_ID advances, GLB_FRAME_HEAD changes, scheduler flag 24 WINDOW is set and the SCHED watchdogs are serviced. -/
  | frameWindow (p : Nat) (late : Nat)
  /-- NET_START (R221). At s + NET_START the FRAME networks start their runs, ingest channels write their frame views and scheduler flag 25 is set. -/
  | netStart (p : Nat) (late : Nat)
  /-- BUILD_START (R81). At the master's BUILD_START the field builders check the DONE tally word of the occupancy bank and start the build of the next epoch. -/
  | buildStart (p : Nat) (late : Nat)
  /-- BUILD_SEAL (R91). The lead builder seals the build and sends its digest to every store, and each store compares its sum and reports READY. -/
  | buildSeal (bad : List Nat) (t : Nat)
  /-- SEAL_DEADLINE (R86). At B − 2 µs a build that has not been sealed is marked not to be published. -/
  | sealDeadline
  /-- READY_DEADLINE (R91). At B − 1 µs a store that is not READY, or whose digest differs, is excluded for the epoch. -/
  | readyDeadline
  /-- PUBLISH (R84). In the last ENG cycle before B each store writes its epoch control word, publishing EPOCH e + 1 and freeing the slots that only e referenced. -/
  | publish (late : Nat)
  /-- PERSON_BOX_BUILD (R132). After a publish each probe engine finishes building the box of each in-effect person and slice, releasing the human tests that wait for it. -/
  | personBoxBuild (core : Nat) (t : Nat)
  /-- STORE_COPY (R91). An excluded or woken store finishes receiving a full copy of the current epoch, and rejoins at the next publish if its digest matches. -/
  | storeCopy (store : Nat) (ok : Bool) (t : Nat)
  /-- LAST_ADMISSION (R23). 1 µs before a check window closes, admission for that frame stops, and items still queued are discarded. -/
  | lastAdmission (p : Nat)
  /-- SELECT_END (R187). At s + SELECT_END retained lists that do not stand are marked LATE, and the commit round starts by picking the first entries. -/
  | selectEnd (p : Nat) (late : Nat)
  /-- ROUND_LATE (R194). At s + COMMIT_END − 12 µs decisions that are not complete are abandoned and every mechanism is written as CARRIED. -/
  | roundLate
  /-- COMMIT_END (R245). At s + COMMIT_END scheduler flag 29 is set, and a commit that is not complete does not take effect for the frame. -/
  | commitEnd (p : Nat)
  /-- OUT (R245). At s + OUT scheduler flag 30 is set, as the frame's setpoints begin to leave. -/
  | out (p : Nat)
  /-- ADMISSION (R143). A core takes a free slot, fetch credits and a work item and issues the primitive fetch, or queues the hand-off record. -/
  | admission (core : Nat) (t : Nat)
  /-- PRIMITIVE_FETCH (R143). All lines of a primitive arrive from HBM and the slot moves from FETCH to BIND. -/
  | primitiveFetch (core slot : Nat) (t : Nat)
  /-- SWEEP_ENTRY (R104). A waiting candidate enters the sweep engine once its context's START_FRAME matches and the gate of R142 opens. -/
  | sweepEntry (core slot : Nat) (t : Nat)
  /-- VERDICT (R138). The Strainer, probe and analytic tests of a candidate complete and its 16-byte verdict is written to the slot. -/
  | verdict (core slot : Nat) (t : Nat)
  /-- COST_SCORE (R177). The cost engine scores a verdict and writes it into the verdict buffer. -/
  | costScore (core slot : Nat) (t : Nat)
  /-- REDUCTION (R184). A verdict-buffer half that fills, or closes with the check window, is reduced into the core's partial lists. -/
  | reduction (core half : Nat) (t : Nat)
  /-- MERGE (R185). Partial lists are merged at cluster, die and commit-unit level into the retained lists. -/
  | merge (p : Nat) (t : Nat)
  /-- SOLVE_START (R158). Solving of a privileged context starts at the later of s + PUBLISH and the write of its start state, with its first seed. -/
  | solveStart (engine : Nat) (t : Nat)
  /-- SOLVER_STEP (R165). A solver step (INIT, EVAL, ASSEMBLE, FACTOR, SOLVE, a SEARCH trial or ACCEPT) completes and the next step, a return or the next seed follows. -/
  | solverStep (engine : Nat) (cols : Nat) (t : Nat)
  /-- SMOOTHING (R169). The smoothing and time-scaling stage re-integrates a returned result within the limits and writes its trajectory record. -/
  | smoothing (engine : Nat) (t : Nat)
  /-- HANDOFF (R172). Once the trajectory record is acknowledged, the stage writes the hand-off record and updates the solver block. -/
  | handoff (engine : Nat) (t : Nat)
  /-- TRY_RESULT (R189). The REPLAY and RECHECK verdicts of a try return; the try passes or fails, and the next entry is picked. -/
  | tryResult (m : Nat) (t : Nat)
  /-- COMMIT_RECORD (R201). The warden's safety processors accept or refuse a commit record presented to the mailbox. -/
  | commitRecord (m : Nat) (t : Nat)
  /-- WRITE_GROUP (R193). All writes of one commit write group are acknowledged, and the next group starts or the round ends. -/
  | writeGroup (t : Nat)
  /-- CONFIRM (R375). A CONFIRM item's verdict is compared with the REPLAY and RECHECK verdicts to find the suspect. -/
  | confirm (core slot : Nat) (t : Nat)
  /-- REPEAT (R375). A REPEAT item's verdict on the suspect core judges its fault transient or lasting. -/
  | repeat_ (core slot : Nat) (t : Nat)
  /-- DEADLINE (R320). At H − 1 µs with no later commit standing, the Saucer of the mechanism is issued. -/
  | deadline (m : Nat)
  /-- STANDSTILL (R322). A Saucer reaches standstill at T_s after its issue; category 1 outputs de-energise, and a stopping partition becomes STOPPED. -/
  | standstill (m : Nat)
  /-- GEMM (R227). The array executes a GEMM descriptor tile by tile. -/
  | gemm (r : ArrIn)
  /-- CONV (R228). The array executes a CONV descriptor as a GEMM over its input windows. -/
  | conv (r : ArrIn)
  /-- ATTN (R230). The array executes an ATTN descriptor: both products and the row softmax. -/
  | attn (r : ArrIn)
  /-- GATHER (R231). The array executes one kernel offset of a sparse convolution through its rulebook. -/
  | gather (r : ArrIn)
  /-- VECTOR (R231). The array applies POST to an M × N input. -/
  | vector (r : ArrIn)
  /-- POOL (R229). The array computes a max or average pool. -/
  | pool (r : ArrIn)
  /-- LOAD (R219). The load unit copies a range from HBM into the array buffer. -/
  | load (r : ArrIn)
  /-- STORE (R219). The load unit copies a range from the array buffer to HBM, after a byte compare with the twin when COMPARE is set. -/
  | store (r : ArrIn)
  /-- SIGNAL (R219). After every earlier STORE of the run is acknowledged, the load unit signals its tally word as a producer increment. -/
  | signal (r : ArrIn)
  /-- TWIN_TIMEOUT (R239). A twin that does not reach the matching COMPARE STORE within 20 µs ends both twins with CMP_FAIL. -/
  | twinTimeout (p net : Nat)
  /-- SCH_FLAG_SET (R262). A write of SCH_FLAG_SET sets a task's event flag, or is rejected and counted. -/
  | schFlagSet (a : RegAcc) (v : Nat) (t : Nat)
  /-- DUE (R247). A delay-list entry falls due in its tick, sets the task's DUE flag and re-arms the task. -/
  | due (die p task : Nat)
  /-- DISPATCH (R253). The scheduler decides for one core and dispatches an item into its dispatch slot by class and deficit round robin. -/
  | dispatch (die core : Nat) (t : Nat)
  /-- ITEM_COMPLETE (R249). An item's work completes with its writes acknowledged, freeing its flow and setting any completion-target flag. -/
  | itemComplete (die core : Nat) (t : Nat)
  /-- TRACE_DROP (R261). A scheduling trace record that cannot be written within 1 µs is dropped and counted. -/
  | traceDrop (die p : Nat) (t : Nat)
  /-- READ (R265). A tally READ returns the word. -/
  | read (r : TallyIn)
  /-- ADD (R265). A tally ADD adds OPERAND to VALUE, checks the channel bounds and re-evaluates the waits and monitors on the word. -/
  | add (r : TallyIn)
  /-- SUB (R265). A tally SUB subtracts OPERAND from a semaphore, or sets ERR on underflow. -/
  | sub (r : TallyIn)
  /-- TAKE (R265). A tally TAKE waits until VALUE ≥ OPERAND and then subtracts OPERAND in the same step. -/
  | take (r : TallyIn)
  /-- WAIT_GE (R265). A tally WAIT_GE registers a wait that stalls its queue until VALUE ≥ OPERAND. -/
  | waitGe (r : TallyIn)
  /-- WAIT_EQ (R265). A tally WAIT_EQ registers a wait that stalls its queue until VALUE = OPERAND. -/
  | waitEq (r : TallyIn)
  /-- ARRIVE (R276). A barrier arrival adds 1 and, when it brings VALUE to PARTIES, completes the barrier. -/
  | arrive (r : TallyIn)
  /-- WAIT_TIMEOUT (R269). A wait that lasts WAIT_MAX_US ends as a timeout and its issuer fails. -/
  | waitTimeout (n : Nat) (t : Nat)
  /-- POLL (R273). A polled wait reads its word every 256 ns and ends when the condition holds. -/
  | poll (n : Nat) (t : Nat)
  /-- SYN_HOST_ADD (R272). A non-zero write of SYN_HOST_ADD issues an ADD to the host signal reference after earlier posted writes are visible. -/
  | synHostAdd (a : RegAcc) (v : Nat) (t : Nat)
  /-- LEND (R278). A core that has been waiting for LEND_NS is reported to the Kettle and its power budget goes on loan. -/
  | lend (core : Nat) (t : Nat)
  /-- END (R292). An END descriptor ends a DMA chain. -/
  | end_ (core : Nat) (t : Nat)
  /-- COPY (R291). A COPY descriptor moves LEN bytes block by block with CRC checks, and compares EXPECT when CHECK is set. -/
  | copy (core : Nat) (bad : List Nat) (far : FarIn) (t : Nat)
  /-- FILL (R291). A FILL descriptor writes an 8-byte pattern over LEN bytes. -/
  | fill (core : Nat) (far : FarIn) (t : Nat)
  /-- TALLY (R271). A TALLY descriptor issues its tally command once earlier writes are acknowledged and earlier reads have returned. -/
  | tally (core : Nat) (far : FarIn) (t : Nat)
  /-- LINK (R291). A LINK descriptor continues the chain at the next descriptor address. -/
  | link (core : Nat) (t : Nat)
  /-- BLOCK_REPEAT (R294). A block whose CRC mismatches at its destination is sent again once; it stands, or it is poisoned and its job fails. -/
  | blockRepeat (core : Nat) (ok : Bool) (t : Nat)
  /-- PATROL_SCRUB (R284). The HBM patrol scrub reads a line and writes back any word it corrected. -/
  | patrolScrub (die : Nat) (line : Nat) (e : EccIn) (t : Nat)
  /-- SCRATCHPAD_SCRUB (R289). The scratchpad scrubber reads a word in a free cycle and writes back any correction. -/
  | scratchpadScrub (core : Nat) (word : Nat) (e : EccIn) (t : Nat)
  /-- COSY_ENTRY (R404). A domain idle for IDLE_US with its COSY bit set is placed in Cosy. -/
  | cosyEntry (dom : Nat) (t : Nat)
  /-- WAKE (R299). A domain woken from Cosy becomes ON and the held requests are served. -/
  | wake (dom : Nat) (t : Nat)
  /-- TAMPER (R301). A tamper event (TAMPER_N, a supply, the clock or the temperature) wipes the secure region, issues every Saucer, de-energises every output and holds the planner dies. -/
  | tamper (cause : Nat) (t : Nat)
  /-- RAIL_FAULT (R494). A planner, HBM or PHY rail outside its window raises a class S fault, or takes the ports down. -/
  | railFault (rail : Nat) (t : Nat)
  /-- LANE_REPAIR (R18). A die-to-die lane is repaired by UCIe lane repair and the link's DEGR bit is set. -/
  | laneRepair (link : Nat) (t : Nat)
  /-- LINK_DOWN (R382). A die-to-die link that fails training or loses too many lanes clears its UP bit and raises a class S fault. -/
  | linkDown (link : Nat) (t : Nat)
  /-- MONITORING_PERIOD (R316). At each 100 µs period the channels read the filtered inputs, exchange and compare their states, and evaluate separation. -/
  | monitoringPeriod (disagree : Bool) (t : Nat)
  /-- CHANNEL (R337). A lockstep mismatch or a lasting channel disagreement de-energises that channel's wires and issues CHANNEL Saucers. -/
  | channel (b : Bool) (t : Nat)
  /-- WATCHDOG (R334). A watchdog window closes with no service, or a service violates its window, and a WATCHDOG trigger follows. -/
  | watchdog (w : Nat) (t : Nat)
  /-- INPUT_FILTER (R335). A safety input wire holds its new level for FILTER_US and its filtered state changes. -/
  | inputFilter (w : WireIn) (t : Nat)
  /-- DISCREPANCY (R335). Filtered wires that disagree for longer than DISC_MS latch a discrepancy fault for the input. -/
  | discrepancy (input : Nat) (t : Nat)
  /-- ESTOP_RESET (R336). A WDN_CMD ESTOP_RESET ends an emergency-stop latch when both wires are energised. -/
  | estopReset (fn : Nat) (n : Nat) (t : Nat)
  /-- RESTART (R331). A WDN_CMD RESTART ends the HELD state and restarts the planner dies. -/
  | restart (fn : Nat) (t : Nat)
  /-- TEST_PULSE (R339). Once per second each channel de-energises its wire of each energised pair for TP_US. -/
  | testPulse (b : Bool) (t : Nat)
  /-- OUTPUT_FAULT (R340). A read-back differing from the commanded level for 1 ms de-energises the pair, issues an OUTPUT trigger and latches the fault. -/
  | outputFault (pair : Nat) (b : Bool) (level : Bool) (t : Nat)
  /-- SOE (R343). An FSoE connection that enters fail-safe, or whose watchdog expires, issues an SOE trigger and restarts its session. -/
  | soe (conn : Nat) (watchdog : Bool) (t : Nat)
  /-- TIME_WINDOW (R352). A new time-partition window begins, changing the admitted classes and abandoning any self-test slice that may not run in it. -/
  | timeWindow (t : Nat)
  /-- SLICE_START (R357). A pending self-test slice starts on its unit when its fit and start conditions hold. -/
  | sliceStart (die unit kind : Nat) (t : Nat)
  /-- SLICE_END (R355). A slice finishes; its signature passes and counts toward the visit, or it fails and is reported. -/
  | sliceEnd (die : Nat) (o : SliceIn) (t : Nat)
  /-- INTERVAL_END (R361). A diagnostic test interval ends; units still pending become LATE and every unit becomes pending again. -/
  | intervalEnd (die : Nat) (t : Nat)
  /-- ERROR_EVENT (R369). An event reported to the error collector is counted against its fault state, moves that state and writes an error record. -/
  | errorEvent (e : EventIn)
  /-- FAULT_WINDOW_EXPIRY (R372). No event within W since the last one returns a unit from WATCH to HEALTHY. -/
  | faultWindowExpiry (unit sub : Nat) (t : Nat)
  /-- ISOLATION_TIMEOUT (R374). An isolation not ended through slices within 2 ms ends through retirement without slices. -/
  | isolationTimeout (unit : Nat) (t : Nat)
  /-- CLEAR_RETIRED (R381). An ERR_CMD CLEAR_RETIRED empties the retirement list at the next cold reset, where permitted. -/
  | clearRetired (fn : Nat) (t : Nat)
  /-- ERR_READ (R384). A write of ERR_READ records the last record the host has read and sets UNREAD. -/
  | errRead (fn : Nat) (v : Nat) (t : Nat)
  /-- INT_DELIVERY (R393). Every 25 ns the controller sends the highest-priority pending slot to an eligible vector. -/
  | intDelivery (t : Nat)
  /-- EOI (R394). Writing 1 to a vector's IN_SERVICE bit returns the vector and its slot to IDLE, or to PENDING. -/
  | eoi (fn vec : Nat) (t : Nat)
  /-- INT_SW_SET_G (R395). A write of INT_SW_SET_G raises the selected global SW sources. -/
  | intSwSetG (a : RegAcc) (v : Nat) (t : Nat)
  /-- INT_SW_SET_P (R395). A write of INT_SW_SET_P raises the selected SW sources of a partition. -/
  | intSwSetP (a : RegAcc) (v : Nat) (t : Nat)
  /-- PEND_SET (R395). Writing 1 to a PEND bit of INT_SRC_STATE raises that slot alone. -/
  | pendSet (fn src slot : Nat) (t : Nat)
  /-- CONTROL_PERIOD (R410). Every 10 µs the Kettle predicts the draw, reads the rails and temperatures, and steps clocks to hold the cap and thermal limits. -/
  | controlPeriod (o : SenseIn)
  /-- PLL_LOCK_LOSS (R409). A PLL that loses lock clears its KTL_PLL_LOCK bit and stops its clock until it relocks. -/
  | pllLockLoss (pll : Nat) (t : Nat)
  /-- STEEP_FULL (R58). A BLD_CMD STEEP_FULL checks BLD_LEN and the preconditions and starts steeping a full Blend. -/
  | steepFull (fn : Nat) (t : Nat)
  /-- STEEP_PART (R67). A BLD_CMD STEEP_PART starts steeping a partition Blend for one STOPPED partition. -/
  | steepPart (fn : Nat) (p : Nat) (t : Nat)
  /-- ABORT (R64). A BLD_CMD ABORT ends the steeping in progress with ABORTED at the next phase boundary. -/
  | abort (fn : Nat) (t : Nat)
  /-- START (R66). A BLD_CMD START sets T0 and starts a STOPPED partition from frame 0. -/
  | start (fn : Nat) (p : Nat) (t : Nat)
  /-- STOP (R65). A BLD_CMD STOP ends a RUNNING partition after the frame whose window contains the write. -/
  | stop (fn : Nat) (p : Nat) (t : Nat)
  /-- FETCH (R58). The Blend has been read from host memory into the free slot and hashed for the main signature. -/
  | fetch (blob : List Byte) (ok : Bool) (t : Nat)
  /-- AUTH (R45). The header checks and the main signature check complete. -/
  | auth (t : Nat)
  /-- PARSE (R508). The section table, CRCs, own checks, readiness, core assignment and cross checks complete. -/
  | parse (t : Nat)
  /-- SAFETY (R345). The safety processors complete the safety signature, safety content and coverage checks. -/
  | safety (t : Nat)
  /-- CLAIMS (R56). Use derivation and claim checks complete. -/
  | claims (t : Nat)
  /-- DISTRIBUTE (R61). The configuration has been written into the planner dies and the warden, or steeping ends ABORTED on a failure. -/
  | distribute (ok : Bool) (t : Nat)
  /-- PROVISION (R428). A PROVISION request programs owner slot 0 and advances BLANK to DEVELOP. -/
  | provision (r : LcIn)
  /-- KEY_OWNER (R428). A KEY_OWNER request programs an unprogrammed owner slot. -/
  | keyOwner (r : LcIn)
  /-- KEY_SAFETY (R428). A KEY_SAFETY request programs an unprogrammed safety slot. -/
  | keySafety (r : LcIn)
  /-- REVOKE_OWNER (R429). A REVOKE_OWNER request burns an owner slot's revocation fuse. -/
  | revokeOwner (r : LcIn)
  /-- REVOKE_SAFETY (R429). A REVOKE_SAFETY request burns a safety slot's revocation fuse. -/
  | revokeSafety (r : LcIn)
  /-- ADVANCE_FIELD (R427). An ADVANCE_FIELD request moves DEVELOP to FIELD, pending a cold reset. -/
  | advanceField (r : LcIn)
  /-- ADVANCE_RETURN (R427). An ADVANCE_RETURN request moves the part to RETURN, pending a cold reset. -/
  | advanceReturn (r : LcIn)
  /-- SQ_TAIL (R439). A write of HIF_SQ_TAIL makes the device fetch new commands while the queue has credit. -/
  | sqTail (a : RegAcc) (v : Nat) (t : Nat)
  /-- CQ_HEAD (R440). A write of HIF_CQ_HEAD frees completion entries so that waiting completions and commands proceed. -/
  | cqHead (a : RegAcc) (v : Nat) (t : Nat)
  /-- QUEUE_ENABLE (R441). A write of HIF_Q_CTRL.EN = 1 enables a queue pair, or sets ERR when refused. -/
  | queueEnable (a : RegAcc) (v : Nat) (t : Nat)
  /-- QUEUE_DISABLE (R441). A write of HIF_Q_CTRL.EN = 0 stops fetching; taken commands complete and the queue becomes IDLE. -/
  | queueDisable (a : RegAcc) (v : Nat) (t : Nat)
  /-- COPY_IN (R437). A COPY_IN command moves host data into the device as a HOST item. -/
  | copyIn (c : HostIn)
  /-- COPY_OUT (R437). A COPY_OUT command moves device data to host memory as a HOST item. -/
  | copyOut (c : HostIn)
  /-- TALLY_COMMAND (R437). A host TALLY command applies its tally command after every earlier command of the queue has completed. -/
  | tallyCommand (c : HostIn)
  /-- FLAG (R437). A host FLAG command acts as a write of SCH_FLAG_SET by the queue's function. -/
  | flag (c : HostIn)
  /-- NOP (R436). A NOP command does nothing but complete. -/
  | nop (c : HostIn)
  /-- PERST_N (R442). A fundamental reset on PERST_N resets the PCIe endpoint and disables every function's queues. -/
  | perstN (t : Nat)
  /-- FLR (R442). A Function Level Reset disables that function's queues and discards its commands not yet released. -/
  | flr (fn : Nat) (t : Nat)
  /-- D3HOT (R442). A function entering D3hot keeps its commands in the ring while in-progress commands complete. -/
  | d3hot (fn : Nat) (t : Nat)
  /-- BAR2_ACCESS (R434). A BAR2 access becomes a request on a device address, checked by the firewalls. -/
  | bar2Access (a : MemAcc)
  /-- VERDICT_TRACE_DROP (R443). A verdict trace record that cannot be written within 1 µs is dropped and counted. -/
  | verdictTraceDrop (p : Nat) (t : Nat)
  /-- CYCLE (R447). A fieldbus cycle starts at c_k: the port transmits its frame with setpoints and controlwords, serves its output watchdog and judges the previous cycle. -/
  | cycle (port : Nat) (o : CycleIn)
  /-- INPUT_IMAGE (R451). A returned cyclic frame gives the input image, with drive states and FSoE input data. -/
  | inputImage (port : Nat) (o : ImageIn)
  /-- FEEDBACK_FRAME (R457). A TSN drive's feedback frame for a cycle is received. -/
  | feedbackFrame (port drive : Nat) (o : FeedIn)
  /-- PHY_POLL (R446). Every 1 ms a port reads its PHY through MDC and MDIO. -/
  | phyPoll (port : Nat) (up : Bool) (t : Nat)
  /-- SYNC_MESSAGE (R459). A PTP Sync received by the time-receiver port updates the servo and the LOCKED and STEP_WAIT bits. -/
  | syncMessage (o : PtpIn)
  /-- SYNC_TRANSMIT (R458). A time-transmitter port sends a two-step Sync every 2^LOG_SYNC s. -/
  | syncTransmit (port : Nat) (t : Nat)
  /-- HOLDOVER (R459). No Sync for 3 s sets HOLDOVER and device time runs at its last rate. -/
  | holdover (t : Nat)
  /-- FRAME_START (R463). A CSI-2 Frame Start opens a buffer and stamps it. -/
  | frameStart (chan : Nat) (t : Nat)
  /-- FRAME_END (R463). A CSI-2 Frame End completes the buffer and writes its header, ADD and INGEST item. -/
  | frameEnd (chan : Nat) (ok : Bool) (t : Nat)
  /-- PACKET (R462). A sensor packet is received into its channel's buffer, or dropped as late or in error. -/
  | packet (o : PacketIn)
  /-- SPAN_COMPLETE (R463). An Ethernet span buffer completes GRACE_US after its span ends. -/
  | spanComplete (chan : Nat) (t : Nat)
  /-- CAPTURE (R466). A selected edge on TSU_IO is stamped into the unit's FIFO. -/
  | capture (unit : Nat) (rising : Bool) (t : Nat)
  /-- PULSE (R466). A PULSE unit drives its edges at START_NS + k × PERIOD_NS. -/
  | pulse (unit : Nat)
  /-- PPS (R466). A PPS unit drives a rising edge at each whole second of device time. -/
  | pps (unit : Nat) (t : Nat)
  /-- TSU_CAP_READ (R466). A read of SNS_TSU_CAP_LO returns the oldest capture and removes it from the FIFO. -/
  | tsuCapRead (fn : Nat) (unit : Nat) (t : Nat)
  /-- FLIT (R473). A received Crindadon flit is accepted, corrected, or discarded with a replay request. -/
  | flit (port : Nat) (o : FlitIn) (t : Nat)
  /-- LINK_UP (R485). A Crindadon port finishes training to UP or DEGRADED and routes are rebuilt, or it is held down as DUP. -/
  | linkUp (port : Nat) (o : TrainIn) (t : Nat)
  /-- PORT_DOWN (R487). A Crindadon port goes down; undelivered traffic is lost and routes change. -/
  | portDown (port : Nat) (t : Nat)
  /-- REMOTE_REQUEST (R481). A request from another package is admitted or refused under CDL_OPEN and the firewalls. -/
  | remoteRequest (o : RemoteIn)
  /-- REMOTE_TIMEOUT (R483). A remote request without a response within 100 µs fails. -/
  | remoteTimeout (id : Nat) (t : Nat)
  /-- CDL_OPEN (R482). A write of CDL_OPEN takes effect only while the partition is not RUNNING. -/
  | cdlOpen (fn : Nat) (p : Nat) (v : Nat) (t : Nat)
  /-- CDL_CTRL (R487). A write of CDL_CTRL.EN lets a port train, or takes it down. -/
  | cdlCtrl (fn : Nat) (port : Nat) (v : Nat) (t : Nat)
  /-- IN_BAND_STATUS (R446). A change of the SGMII in-band status word takes a fieldbus port's link up or down, updates FBS_PORT_STATUS.LINK and raises FIELDBUS[n]. -/
  | inBandStatus (port : Nat) (word : Nat) (t : Nat)
  /-- BLOCK_LOCK (R461). A 25GBASE-R receiver gains or loses block lock on its incoming stream, which sets or clears SNS_ETH_STATUS.UP. -/
  | blockLock (port : Nat) (locked : Bool) (t : Nat)
  /-- PLL_RELOCK (R409). A PLL that has lost lock regains it, sets its KTL_PLL_LOCK bit again and its clock resumes. -/
  | pllRelock (pll : Nat) (t : Nat)
  /-- STEP_UP (R406). After its voltage has risen, a clock step up switches the divider, up to 20 µs after the Kettle's decision, and KTL_CLK.STEP takes the new code. -/
  | stepUp (clk : Nat) (t : Nat)
  /-- D0 (R442). A function returns from D3hot to D0, and its queues resume taking the commands held in their rings. -/
  | d0 (fn : Nat) (t : Nat)
  /-- DELAY_REQ (R458). A PTP Delay_Req received on a time-transmitter port is timestamped and answered with a Delay_Resp, as the delay request-response profile requires. -/
  | delayReq (port : Nat) (t : Nat)
  /-- BUS_TRANSITION (R454). An EtherCAT bus start reaches its next state (INIT, PREOP, SAFEOP, OP), or stops on a failure that sets FBS_PORT_ERR and raises FIELDBUS[n]. -/
  | busTransition (port : Nat) (o : BusIn) (t : Nat)
  deriving DecidableEq, Repr

end Sys2Proof
end

