-- ==== Sys2Proof/Decode.lean ====
section
/-! DEFINITION. The command that a word spells by the opcode table's bits. No row of the table gives bits: a command
reaches the package through its pins, registers and queues, not as an encoded word. -/

namespace Sys2Proof

/-- The command of a word: none, the table giving no row any bits. -/
def decodeTableWord (_nbits _w : Nat) : Option Instr := none

end Sys2Proof
end

