-- ==== Sys2Proof/Machine/Field.lean ====
section
/-! DEFINITION. The clearance field (03_clearance_field.md) as functions of bytes: the FIELD_LAYOUT section, occupancy
records, exact distances, the store layout and its yields, slot placement, and the dirty masks. The stores themselves are
bytes of memory (R31, R77). -/

namespace Sys2Proof.Machine

/-- An occupancy record (R70): fine brick number, FRAME_ID and the 512 two-bit codes. -/
structure OccRec where
  fb      : Nat
  frameId : Nat
  cells   : List Byte
  deriving DecidableEq, Repr

/-- The record at an offset of a byte string. -/
def occRecAt (b : List Byte) (o : Nat) : OccRec := { fb := leAt b o 4, frameId := leAt b (o + 4) 4, cells := slice b (o + 0x10) 128 }

/-- The code of local cell `n` of a record: 0 unknown, 1 free, 2 occupied, 3 reserved (R70). -/
def OccRec.code (r : OccRec) (n : Nat) : Nat := (r.cells.getD (n / 4) 0#8).toNat / 4 ^ (n % 4) % 4

/-- The FIELD_LAYOUT section (R94). -/
structure FieldLayout where
  ox : Int := 0
  oy : Int := 0
  oz : Int := 0
  nx : Nat := 0
  ny : Nat := 0
  nz : Nat := 0
  master : Nat := 0xFF
  margin : Nat := 0
  dflt   : Nat := 0
  occCap : Nat := 0
  ring0  : Nat := 0
  ring1  : Nat := 0
  statics : List OccRec := []
  deriving DecidableEq, Repr

/-- A FIELD_LAYOUT payload. -/
def decFieldLayout (b : List Byte) : FieldLayout :=
  { ox := leAtS b 0 4, oy := leAtS b 4 4, oz := leAtS b 8 4, nx := leAt b 0x0C 1, ny := leAt b 0x0D 1, nz := leAt b 0x0E 1,
    master := leAt b 0x0F 1, margin := leAt b 0x10 1, dflt := leAt b 0x11 1, occCap := leAt b 0x18 4, ring0 := leAt b 0x20 8,
    ring1 := leAt b 0x28 8,
    statics := (List.range (min (leAt b 0x14 4) (b.length / 144))).map fun i => occRecAt b (128 + 144 * i) }

/-- The bank size of R69. -/
def bankSize (occCap : Nat) : Nat := alignUp (0x10300 + 144 * occCap) 4096

/-- The fine brick of number fb lies inside the declared volume (R68): two fine bricks per coarse cell and axis. -/
def fbInVolume (l : FieldLayout) (fb : Nat) : Bool :=
  decide (fb < 2 ^ 22) && decide (fb % 256 < 2 * l.nx) && decide (fb / 256 % 256 < 2 * l.ny) && decide (fb / 65536 < 2 * l.nz)

/-- The volume from ORIGIN stays inside the signed 32-bit range (sub-code 0x0301). -/
def originOk (o : Int) (n : Nat) : Bool := decide (o + 10240 * (n : Int) ≤ 2147483648)

/-- The own checks of FIELD_LAYOUT (R94, R95), in ascending offset. -/
def ownFieldLayout (b : List Byte) : Option Bad :=
  let l := decFieldLayout b
  let n := leAt b 0x14 4
  firstBad [
    needF (originOk l.ox l.nx) 0x0301 0x00, needF (originOk l.oy l.ny) 0x0301 0x04, needF (originOk l.oz l.nz) 0x0301 0x08,
    needF (decide (1 ≤ l.nx) && decide (l.nx ≤ 128)) 0x0301 0x0C,
    needF (decide (1 ≤ l.ny) && decide (l.ny ≤ 128)) 0x0301 0x0D,
    needF (decide (1 ≤ l.nz) && decide (l.nz ≤ 32)) 0x0301 0x0E,
    needF (decide (l.margin ≤ 40)) 0x0304 0x10, needF (decide (l.dflt ≤ 1)) 0x0304 0x11, needF (zerosAt b 0x12 2) 0x0304 0x12,
    needF (decide (n ≤ 65536)) 0x0304 0x14,
    needF (decide (1 ≤ l.occCap) && decide (l.occCap ≤ 65536)) 0x0304 0x18, needF (zerosAt b 0x1C 4) 0x0304 0x1C,
    needF (l.ring0 % 4096 == 0) 0x0305 0x20, needF (l.ring1 % 4096 == 0) 0x0305 0x28,
    needF (!(overlap l.ring0 (2 * bankSize l.occCap) l.ring1 (2 * bankSize l.occCap))) 0x0305 0x28,
    needF (zerosAt b 0x30 80) 0x0304 0x30,
    needF (b.length == 128 + 144 * n) 0x0306 0x14,
    firstOverI l.statics fun i r => let o := 128 + 144 * i
      firstBad [needF (fbInVolume l r.fb) 0x0306 o, needF (r.frameId == 0) 0x0306 (o + 4), needF (zerosAt b (o + 10) 6) 0x0304 (o + 10),
                needF ((List.range 512).all fun n => r.code n != 3) 0x0306 (o + 0x10)]]

/-! ### Cell states and distances (R71, R73, R74) -/

/-- What the builders derive an epoch from: the layout, the records of each die's bank, and the die whose builder builds
the bricks of each builder index (R90). -/
structure FieldIn where
  lay    : FieldLayout
  bank0  : List OccRec
  bank1  : List OccRec
  dieOf  : List Nat          -- 16 entries: the die of the builder that builds index g
  deriving DecidableEq, Repr

/-- The fine brick number of a fine brick position. -/
def fbNum (x y z : Nat) : Nat := x + 256 * y + 65536 * z

/-- The mid brick number of a mid brick position. -/
def mbNum (x y z : Nat) : Nat := x + 64 * y + 4096 * z

/-- The mid brick that holds fine brick fb. -/
def mbOfFb (fb : Nat) : Nat := mbNum (fb % 256 / 4) (fb / 256 % 256 / 4) (fb / 65536 / 4)

/-- The records of the bank of the die whose builder builds mid brick mb. -/
def FieldIn.bankFor (f : FieldIn) (mb : Nat) : List OccRec := if f.dieOf.getD (mb % 16) 0 = 0 then f.bank0 else f.bank1

/-- The fine cell is inside the declared volume. -/
def FieldIn.inside (f : FieldIn) (i j k : Int) : Bool :=
  decide (0 ≤ i) && decide (i < 16 * f.lay.nx) && decide (0 ≤ j) && decide (j < 16 * f.lay.ny) && decide (0 ≤ k) && decide (k < 16 * f.lay.nz)

/-- Fine cell (i, j, k) counts as occupied in distances: occupied or unknown under R71, or outside the volume. -/
def FieldIn.occ (f : FieldIn) (i j k : Int) : Bool :=
  if f.inside i j k then
    let x := i.toNat; let y := j.toNat; let z := k.toNat
    let fb := fbNum (x / 8) (y / 8) (z / 8)
    let n := x % 8 + 8 * (y % 8) + 64 * (z % 8)
    let bk := ((f.bankFor (mbOfFb fb)).filter (·.fb == fb)).map (·.code n)
    let st := (f.lay.statics.filter (·.fb == fb)).map (·.code n)
    if (bk ++ st).any (decide <| 2 ≤ ·) then true
    else if bk.any (· == 1) then false
    else if bk.isEmpty && st.any (· == 1) then false
    else if bk.isEmpty && st.isEmpty then f.lay.dflt != 1
    else true
  else true

/-- Every fine cell of the declared volume. -/
def FieldIn.cells (f : FieldIn) : List (Int × Int × Int) :=
  (List.range (16 * f.lay.nz)).flatMap fun k => (List.range (16 * f.lay.ny)).flatMap fun j =>
    (List.range (16 * f.lay.nx)).map fun i => (Int.ofNat i, Int.ofNat j, Int.ofNat k)

/-- The least of a list of numbers, or none. -/
def minNat : List Nat → Option Nat
  | [] => none
  | a :: r => match minNat r with | none => some a | some b => some (min a b)

/-- The rounded-up integer square root. -/
def isqrtUp (v : Nat) : Nat := let r := isqrt v; if r * r = v then r else r + 1

/-- The centre-to-box term of R73 along one axis: A = max(2|a| − 1, 0). -/
def centreGap (a : Int) : Nat := 2 * a.natAbs - 1

/-- The square sum A² + B² + C² to the nearest cell of state `want` within 14 cells along each axis, which is as far as an
unclamped sample reaches. -/
def FieldIn.nearest (f : FieldIn) (want : Bool) (i j k : Int) : Option Nat :=
  let rng : List Int := (List.range 29).map fun a => Int.ofNat a - 14
  minNat (rng.flatMap fun c => rng.flatMap fun b => (rng.filter fun a => f.occ (i + a) (j + b) (k + c) == want).map fun a =>
    centreGap a * centreGap a + centreGap b * centreGap b + centreGap c * centreGap c)

/-- The fine sample of a cell (R73). -/
def FieldIn.sample (f : FieldIn) (i j k : Int) : Int :=
  if f.occ i j k then match f.nearest false i j k with
    | none => -127
    | some n => -(min 127 (isqrtUp (25 * n)) : Nat)
  else match f.nearest true i j k with
    | none => 127
    | some n => (min 127 (isqrt (25 * n)) : Nat)

/-- The gap in cells between the cells [lo, hi] and a cell along one axis. -/
def boxGap (lo hi c : Int) : Nat := if c < lo then (lo - c - 1).toNat else if hi < c then (c - hi - 1).toNat else 0

/-- The lower bound of R74 for the box of fine cells of edge `w` at index (i, j, k): floor(10 √n) for the nearest occupied
fine cell, those beyond the faces of the volume included. -/
def FieldIn.boxVal (f : FieldIn) (w i j k : Nat) : Nat :=
  let lo (a : Nat) : Int := (w * a : Nat); let hi (a : Nat) : Int := (w * a + w - 1 : Nat)
  let inCells := (f.cells.filter fun (a, b, c) => f.occ a b c).map fun (a, b, c) =>
    let x := boxGap (lo i) (hi i) a; let y := boxGap (lo j) (hi j) b; let z := boxGap (lo k) (hi k) c
    x * x + y * y + z * z
  let face (a n : Nat) : List Nat := [w * a, 16 * n - w * (a + 1)].map fun g => g * g
  match minNat (inCells ++ face i f.lay.nx ++ face j f.lay.ny ++ face k f.lay.nz) with
  | none => 32767
  | some n => isqrt (100 * n)

/-- The value of mid cell (i, j, k); mid cells outside the volume hold 0. -/
def FieldIn.midVal (f : FieldIn) (i j k : Nat) : Nat :=
  if i < 4 * f.lay.nx ∧ j < 4 * f.lay.ny ∧ k < 4 * f.lay.nz then f.boxVal 4 i j k else 0

/-- The value of coarse cell (i, j, k); coarse cells outside the volume hold 0. -/
def FieldIn.coarseVal (f : FieldIn) (i j k : Nat) : Nat :=
  if i < f.lay.nx ∧ j < f.lay.ny ∧ k < f.lay.nz then f.boxVal 16 i j k else 0

/-! ### Store layout and yields (R76 to R79) -/

/-- Offsets of the field store regions (R77). -/
def stCoarseDir : Nat := 0x080000
/-- The mid dirty bitmap of a parity (R77). -/
def stMidDirty (par : Nat) : Nat := 0x082000 + 0x4000 * par
/-- The coarse dirty bitmap of a parity (R77). -/
def stCoarseDirty (par : Nat) : Nat := 0x08A000 + 0x80 * par
/-- The epoch control word (R77, R84). -/
def stControl : Nat := 0x08A100
/-- The person table of a parity (R77). -/
def stPersons (par : Nat) : Nat := 0x08C000 + 0x200 * par
/-- The human sphere array of a parity (R77). -/
def stSpheres (par : Nat) : Nat := 0x090000 + 0x10000 * par
/-- Slot n of the heap (R77). -/
def stSlot (n : Nat) : Nat := 0x100000 + 0x200 * n
/-- The half of mid directory word mb for a parity (R78). -/
def stMidHalf (mb par : Nat) : Nat := 8 * mb + 4 * par
/-- The half of coarse directory word cb for a parity (R78). -/
def stCoarseHalf (cb par : Nat) : Nat := stCoarseDir + 8 * cb + 4 * par
/-- The sample byte of a local fine cell within its brick (R79). -/
def fineByte (x y z : Nat) : Nat := 64 * (x % 2 + 2 * (y % 2) + 4 * (z % 2)) + x / 2 + 4 * (y / 2) + 16 * (z / 2)

/-- A field as a reader sees it: the memory, the base address of the store, the parity, and the layout's volume and
margin. -/
structure FieldView where
  mem  : Tab Byte
  base : Nat
  par  : Nat
  nx   : Nat
  ny   : Nat
  nz   : Nat
  margin : Nat
  psn  : Tab Bool := []

/-- `n` bytes of the store at an offset, little-endian. -/
def FieldView.rd (v : FieldView) (o n : Nat) : Nat := peekN v.mem (v.base + o) n

/-- The MID_SLOT of a mid brick: a slot, 0xFFFF absent, 0xFFFE coarsened (R78). -/
def FieldView.midSlot (v : FieldView) (mb : Nat) : Nat := v.rd (stMidHalf mb v.par) 2

/-- The FMAP_SLOT of a mid brick (R78). -/
def FieldView.fmapSlot (v : FieldView) (mb : Nat) : Nat := v.rd (stMidHalf mb v.par + 2) 2

/-- The slot entry of a fine brick of a stored mid brick: 0xFFFF where the brick has no fine map (R79). -/
def FieldView.fineSlot (v : FieldView) (fx fy fz : Nat) : Nat :=
  let mb := mbNum (fx / 4) (fy / 4) (fz / 4)
  if v.fmapSlot mb = 0xFFFF then 0xFFFF
  else v.rd (stSlot (v.fmapSlot mb) + 2 * (fx % 4 + 4 * (fy % 4) + 16 * (fz % 4))) 2

/-- A 16-bit value of a coarse or mid brick; a negative value is treated as 0 (R74). -/
def FieldView.brick16 (v : FieldView) (slot x y z : Nat) : Nat :=
  let w := v.rd (stSlot slot + 2 * (x + 8 * y + 64 * z)) 2
  if w < 0x8000 then w else 0

/-- A stored value of a coarse or mid brick is negative: a field-format error (R74). -/
def FieldView.neg16 (v : FieldView) (slot x y z : Nat) : Bool := decide (0x8000 ≤ v.rd (stSlot slot + 2 * (x + 8 * y + 64 * z)) 2)

/-- The slot of the coarse brick that holds a coarse cell. -/
def FieldView.coarseSlot (v : FieldView) (x y z : Nat) : Nat := v.rd (stCoarseHalf (x / 8 + 16 * (y / 8) + 256 * (z / 8)) v.par) 2

/-- The yield of a coarse cell: the stored value, or 0 outside the volume (R76). -/
def FieldView.coarse (v : FieldView) (i j k : Int) : Nat :=
  if 0 ≤ i ∧ i < v.nx ∧ 0 ≤ j ∧ j < v.ny ∧ 0 ≤ k ∧ k < v.nz then
    let x := i.toNat; let y := j.toNat; let z := k.toNat
    v.brick16 (v.coarseSlot x y z) (x % 8) (y % 8) (z % 8)
  else 0

/-- A yield with the coarsened mark of R129. -/
structure Yield where
  val  : Int
  coarsened : Bool := false
  deriving DecidableEq, Repr

/-- The yield of a mid cell (R76). -/
def FieldView.mid (v : FieldView) (i j k : Int) : Yield :=
  if 0 ≤ i ∧ i < 4 * v.nx ∧ 0 ≤ j ∧ j < 4 * v.ny ∧ 0 ≤ k ∧ k < 4 * v.nz then
    let x := i.toNat; let y := j.toNat; let z := k.toNat
    let ms := v.midSlot (mbNum (x / 8) (y / 8) (z / 8))
    if ms = 0xFFFF then { val := v.coarse (i / 4) (j / 4) (k / 4) }
    else if ms = 0xFFFE then { val := v.coarse (i / 4) (j / 4) (k / 4), coarsened := true }
    else { val := v.brick16 ms (x % 8) (y % 8) (z % 8) }
  else { val := 0 }

/-- max(−127, min(127, a) − M) of R76: the fine yield of a coarsened place with cell value a. -/
def coarsenedYield (a m : Int) : Int := max (-127) (min 127 a - m)

/-- The yield of a fine sample (R76). -/
def FieldView.fine (v : FieldView) (i j k : Int) : Yield :=
  if 0 ≤ i ∧ i < 16 * v.nx ∧ 0 ≤ j ∧ j < 16 * v.ny ∧ 0 ≤ k ∧ k < 16 * v.nz then
    let x := i.toNat; let y := j.toNat; let z := k.toNat
    let ms := v.midSlot (mbNum (x / 32) (y / 32) (z / 32))
    if ms = 0xFFFF then { val := 127 }
    else if ms = 0xFFFE then { val := coarsenedYield (v.coarse (i / 16) (j / 16) (k / 16)) v.margin, coarsened := true }
    else
      let fs := v.fineSlot (x / 8) (y / 8) (z / 8)
      if fs = 0xFFFF then { val := min 127 (v.mid (i / 4) (j / 4) (k / 4)).val }
      else if fs = 0xFFFE then { val := coarsenedYield (v.mid (i / 4) (j / 4) (k / 4)).val v.margin, coarsened := true }
      else { val := signed 8 (v.rd (stSlot fs + fineByte (x % 8) (y % 8) (z % 8)) 1) }
  else { val := -127 }

/-! Whether the read of a yield finds a negative stored value (R74). -/

/-- The read of a coarse yield finds a negative value. -/
def FieldView.coarseNeg (v : FieldView) (i j k : Int) : Bool :=
  if 0 ≤ i ∧ i < v.nx ∧ 0 ≤ j ∧ j < v.ny ∧ 0 ≤ k ∧ k < v.nz then
    let x := i.toNat; let y := j.toNat; let z := k.toNat
    v.neg16 (v.coarseSlot x y z) (x % 8) (y % 8) (z % 8)
  else false

/-- The read of a mid yield finds a negative value. -/
def FieldView.midNeg (v : FieldView) (i j k : Int) : Bool :=
  if 0 ≤ i ∧ i < 4 * v.nx ∧ 0 ≤ j ∧ j < 4 * v.ny ∧ 0 ≤ k ∧ k < 4 * v.nz then
    let x := i.toNat; let y := j.toNat; let z := k.toNat
    let ms := v.midSlot (mbNum (x / 8) (y / 8) (z / 8))
    if ms ≥ 0xFFFE then v.coarseNeg (i / 4) (j / 4) (k / 4) else v.neg16 ms (x % 8) (y % 8) (z % 8)
  else false

/-- The read of a fine yield finds a negative mid or coarse value. -/
def FieldView.fineNeg (v : FieldView) (i j k : Int) : Bool :=
  if 0 ≤ i ∧ i < 16 * v.nx ∧ 0 ≤ j ∧ j < 16 * v.ny ∧ 0 ≤ k ∧ k < 16 * v.nz then
    let x := i.toNat; let y := j.toNat; let z := k.toNat
    let ms := v.midSlot (mbNum (x / 32) (y / 32) (z / 32))
    if ms = 0xFFFF then false
    else if ms = 0xFFFE then v.coarseNeg (i / 16) (j / 16) (k / 16)
    else decide (0xFFFE ≤ v.fineSlot (x / 8) (y / 8) (z / 8)) && v.midNeg (i / 4) (j / 4) (k / 4)
  else false

/-! The lines of the store that the Strainer reads for a yield (R147): directory words and the lines of coarse and mid bricks. -/

/-- The lines of a coarse yield. -/
def FieldView.coarseLines (v : FieldView) (i j k : Int) : List Nat :=
  if 0 ≤ i ∧ i < v.nx ∧ 0 ≤ j ∧ j < v.ny ∧ 0 ≤ k ∧ k < v.nz then
    let x := i.toNat; let y := j.toNat; let z := k.toNat
    [stCoarseHalf (x / 8 + 16 * (y / 8) + 256 * (z / 8)) v.par / 64, (stSlot (v.coarseSlot x y z) + 2 * (x % 8 + 8 * (y % 8) + 64 * (z % 8))) / 64]
  else []

/-- The lines of a mid yield. -/
def FieldView.midLines (v : FieldView) (i j k : Int) : List Nat :=
  if 0 ≤ i ∧ i < 4 * v.nx ∧ 0 ≤ j ∧ j < 4 * v.ny ∧ 0 ≤ k ∧ k < 4 * v.nz then
    let x := i.toNat; let y := j.toNat; let z := k.toNat
    let mb := mbNum (x / 8) (y / 8) (z / 8)
    let ms := v.midSlot mb
    stMidHalf mb v.par / 64 :: (if ms ≥ 0xFFFE then v.coarseLines (i / 4) (j / 4) (k / 4)
      else [(stSlot ms + 2 * (x % 8 + 8 * (y % 8) + 64 * (z % 8))) / 64])
  else []

/-! Whether the read of a yield meets a poisoned line (R140): the same paths as above, over the lines they read. -/

/-- A line that a read of `n` bytes at an offset touches is poisoned. -/
def FieldView.bad (v : FieldView) (o n : Nat) : Bool :=
  v.psn.get false ((v.base + o) / 64) || v.psn.get false ((v.base + o + n - 1) / 64)

/-- The reads of a coarse yield meet poison. -/
def FieldView.coarseBad (v : FieldView) (i j k : Int) : Bool :=
  if 0 ≤ i ∧ i < v.nx ∧ 0 ≤ j ∧ j < v.ny ∧ 0 ≤ k ∧ k < v.nz then
    let x := i.toNat; let y := j.toNat; let z := k.toNat
    let h := stCoarseHalf (x / 8 + 16 * (y / 8) + 256 * (z / 8)) v.par
    v.bad h 4 || v.bad (stSlot (v.rd h 2) + 2 * (x % 8 + 8 * (y % 8) + 64 * (z % 8))) 2
  else false

/-- The reads of a mid yield meet poison. -/
def FieldView.midBad (v : FieldView) (i j k : Int) : Bool :=
  if 0 ≤ i ∧ i < 4 * v.nx ∧ 0 ≤ j ∧ j < 4 * v.ny ∧ 0 ≤ k ∧ k < 4 * v.nz then
    let x := i.toNat; let y := j.toNat; let z := k.toNat
    let mb := mbNum (x / 8) (y / 8) (z / 8)
    let ms := v.midSlot mb
    v.bad (stMidHalf mb v.par) 4 ||
      (if ms ≥ 0xFFFE then v.coarseBad (i / 4) (j / 4) (k / 4)
       else v.bad (stSlot ms + 2 * (x % 8 + 8 * (y % 8) + 64 * (z % 8))) 2)
  else false

/-- The reads of a fine yield meet poison. -/
def FieldView.fineBad (v : FieldView) (i j k : Int) : Bool :=
  if 0 ≤ i ∧ i < 16 * v.nx ∧ 0 ≤ j ∧ j < 16 * v.ny ∧ 0 ≤ k ∧ k < 16 * v.nz then
    let x := i.toNat; let y := j.toNat; let z := k.toNat
    let mb := mbNum (x / 32) (y / 32) (z / 32)
    let ms := v.midSlot mb
    v.bad (stMidHalf mb v.par) 4 ||
      (if ms = 0xFFFF then false
       else if ms = 0xFFFE then v.coarseBad (i / 16) (j / 16) (k / 16)
       else
        let fs := v.fineSlot (x / 8) (y / 8) (z / 8)
        (v.fmapSlot mb != 0xFFFF && v.bad (stSlot (v.fmapSlot mb) + 2 * (x / 8 % 4 + 4 * (y / 8 % 4) + 16 * (z / 8 % 4))) 2) ||
          (if fs ≥ 0xFFFE then v.midBad (i / 4) (j / 4) (k / 4) else v.bad (stSlot fs + fineByte (x % 8) (y % 8) (z % 8)) 1))
  else false

/-! ### Building an epoch (R75, R87, R88, R90) -/

/-- Positions (x, y, z) of an n³ group. -/
def cube (n : Nat) : List (Nat × Nat × Nat) :=
  (List.range n).flatMap fun z => (List.range n).flatMap fun y => (List.range n).map fun x => (x, y, z)

/-- The mid bricks that meet the declared volume, in ascending mb. -/
def midBricks (l : FieldLayout) : List (Nat × Nat × Nat) :=
  (List.range ((l.nz + 1) / 2)).flatMap fun z => (List.range ((l.ny + 1) / 2)).flatMap fun y =>
    (List.range ((l.nx + 1) / 2)).map fun x => (x, y, z)

/-- The cells of a group that lie inside the volume of `s` cells per coarse cell. -/
def cellsIn (l : FieldLayout) (s n : Nat) (p : Nat × Nat × Nat) : List (Nat × Nat × Nat) :=
  ((cube n).map fun (x, y, z) => (n * p.1 + x, n * p.2.1 + y, n * p.2.2 + z)).filter fun (x, y, z) =>
    decide (x < s * l.nx) && decide (y < s * l.ny) && decide (z < s * l.nz)

/-- The mid brick is present (R75). -/
def FieldIn.midPresent (f : FieldIn) (p : Nat × Nat × Nat) : Bool :=
  (cellsIn f.lay 1 2 p).any fun (x, y, z) => decide (f.coarseVal x y z < 320)

/-- The present fine bricks of a mid brick, in ascending fb (R75). DESIGN CHOICE (log entry 196): a fine brick outside the declared volume, in a
mid brick that straddles its edge, is never present, though its mid cells hold 0. -/
def FieldIn.finePresent (f : FieldIn) (p : Nat × Nat × Nat) : List (Nat × Nat × Nat) :=
  (cellsIn f.lay 2 4 p).filter fun q => (cellsIn f.lay 4 2 q).any fun (x, y, z) => decide (f.midVal x y z < 80)

/-- The bytes of a coarse brick (R79). -/
def FieldIn.coarseBytes (f : FieldIn) (p : Nat × Nat × Nat) : List Byte :=
  (cube 8).flatMap fun (x, y, z) => toLE 2 (f.coarseVal (8 * p.1 + x) (8 * p.2.1 + y) (8 * p.2.2 + z))

/-- The bytes of a mid brick (R79). -/
def FieldIn.midBytes (f : FieldIn) (p : Nat × Nat × Nat) : List Byte :=
  (cube 8).flatMap fun (x, y, z) => toLE 2 (f.midVal (8 * p.1 + x) (8 * p.2.1 + y) (8 * p.2.2 + z))

/-- The bytes of a fine brick (R79). -/
def FieldIn.fineBytes (f : FieldIn) (p : Nat × Nat × Nat) : List Byte :=
  (List.range 512).map fun b =>
    let g := b / 64; let r := b % 64
    BitVec.ofInt 8 (f.sample (8 * p.1 + 2 * (r % 4) + g % 2 : Nat) (8 * p.2.1 + 2 * (r / 4 % 4) + g / 2 % 2 : Nat)
      (8 * p.2.2 + 2 * (r / 16) + g / 4 : Nat))

/-- B_new of R87, from the master's offsets in microseconds. -/
def bNew (c : FrameCfg) : Nat := min 16384 ((c.publish - c.buildStart - 16) * 1000 / 6)

/-- The slots that an epoch of a store references: coarse and mid pairs, fine maps and fine bricks. -/
def FieldView.slots (v : FieldView) (l : FieldLayout) : List Nat :=
  ((List.range 1024).flatMap fun cb => let s := v.rd (stCoarseHalf cb v.par) 2; [s, s + 1])
  ++ (midBricks l).flatMap fun p =>
    let mb := mbNum p.1 p.2.1 p.2.2
    let ms := v.midSlot mb
    if ms ≥ 0xFFFE then [] else
      [ms, ms + 1] ++ (if v.fmapSlot mb = 0xFFFF then [] else
        v.fmapSlot mb :: ((cube 4).map fun (x, y, z) => v.fineSlot (4 * p.1 + x) (4 * p.2.1 + y) (4 * p.2.2 + z)).filter (decide <| · < 0xFFFE))

/-- A build under way (R87, R88): what is used, the totals, and the writes to every store. -/
structure Placing where
  used  : List Nat := []               -- slots not free
  total : Nat := 0
  new   : Nat := 0
  items : List (Nat × List Byte) := [] -- newest first: offset in the store, bytes
  coarsenedMid  : Nat := 0
  coarsenedFine : Nat := 0
  deriving DecidableEq, Repr

/-- The lowest free slot, an even-aligned pair when `pair`, from `n` on; `fuel` bounds the search by the heap. -/
def findSlot (used : List Nat) (pair : Bool) : Nat → Nat → Nat
  | 0, n => n
  | fuel + 1, n =>
    if pair then (if used.contains n || used.contains (n + 1) then findSlot used pair fuel (n + 2) else n)
    else (if used.contains n then findSlot used pair fuel (n + 1) else n)

/-- A write added to a build. -/
def Placing.put (p : Placing) (o : Nat) (b : List Byte) : Placing := { p with items := (o, b) :: p.items }

/-- One coarse brick: kept in its slot when its bytes equal those of the last epoch, else placed anew (R88). -/
def placeCoarse (f : FieldIn) (old : Option FieldView) (par : Nat) (p : Placing) (cb : Nat) : Placing :=
  let pos := (cb % 16, cb / 16 % 16, cb / 256)
  let bs := f.coarseBytes pos
  let kept : Option Nat := old.bind fun v =>
    let s := v.rd (stCoarseHalf cb v.par) 2
    if peek v.mem (v.base + stSlot s) 1024 = bs then some s else none
  match kept with
  | some s => { p with total := p.total + 2 }.put (stCoarseHalf cb par) (toLE 4 s)
  | none =>
    let s := findSlot p.used true 23552 0
    ({ p with used := s :: (s + 1) :: p.used, total := p.total + 2, new := p.new + 2 }.put (stSlot s) bs).put (stCoarseHalf cb par) (toLE 4 s)

/-- A present mid brick with what its placement needs: its lowest mid value, its position and its present fine bricks. -/
structure MidItem where
  low : Nat
  mb  : Nat
  pos : Nat × Nat × Nat
  fines : List (Nat × Nat × Nat)
  deriving DecidableEq, Repr

/-- One mid brick in the order of R88: stored when it fits both limits, else coarsened. The answer says whether it was
stored and the slot of its fine map. -/
def placeMid (f : FieldIn) (old : Option FieldView) (par bnew : Nat) (p : Placing) (m : MidItem) : Placing × Option Nat :=
  let bs := f.midBytes m.pos
  let kept : Option Nat := old.bind fun v =>
    let s := v.midSlot m.mb
    if s < 0xFFFE ∧ peek v.mem (v.base + stSlot s) 1024 = bs then some s else none
  let fm := b2n (!m.fines.isEmpty)
  let cnew := (if kept.isSome then 0 else 2) + fm
  if p.total + 2 + fm ≤ 30720 ∧ p.new + cnew ≤ bnew then
    let (p, s) := match kept with
      | some s => (p, s)
      | none => let s := findSlot p.used true 23552 0
                ({ p with used := s :: (s + 1) :: p.used }.put (stSlot s) bs, s)
    let (p, fs) := if m.fines.isEmpty then (p, 0xFFFF) else
      let q := findSlot p.used false 47104 0
      ({ p with used := q :: p.used }, q)
    ({ p with total := p.total + 2 + fm, new := p.new + cnew }.put (stMidHalf m.mb par) (toLE 4 (s + 65536 * fs)), some fs)
  else ({ p with coarsenedMid := p.coarsenedMid + 1 }.put (stMidHalf m.mb par) (toLE 4 0xFFFFFFFE), none)

/-- One present fine brick of a stored mid brick in the order of R88; its entry goes into the fine map at `fmap`. -/
def placeFine (f : FieldIn) (old : Option FieldView) (bnew : Nat) (p : Placing) (fmap : Nat) (q : Nat × Nat × Nat) : Placing :=
  let bs := f.fineBytes q
  let entry := stSlot fmap + 2 * (q.1 % 4 + 4 * (q.2.1 % 4) + 16 * (q.2.2 % 4))
  let kept : Option Nat := old.bind fun v =>
    if v.midSlot (mbNum (q.1 / 4) (q.2.1 / 4) (q.2.2 / 4)) ≥ 0xFFFE then none else
    let s := v.fineSlot q.1 q.2.1 q.2.2
    if s < 0xFFFE ∧ peek v.mem (v.base + stSlot s) 512 = bs then some s else none
  let cnew := if kept.isSome then 0 else 1
  if p.total + 1 ≤ 30720 ∧ p.new + cnew ≤ bnew then
    let p := { p with total := p.total + 1, new := p.new + cnew }
    match kept with
    | some s => p.put entry (toLE 2 s)
    | none => let s := findSlot p.used false 47104 0
              ({ p with used := s :: p.used }.put (stSlot s) bs).put entry (toLE 2 s)
  else { p with coarsenedFine := p.coarsenedFine + 1 }.put entry (toLE 2 0xFFFE)

/-- The least of numbers, `d` where there is none. -/
def minD (d : Nat) (l : List Nat) : Nat := (minNat l).getD d

/-- Insertion sort by a key of two numbers, lexicographic; equal keys keep their order. -/
def insertBy {α : Type} (key : α → Nat × Nat) (a : α) : List α → List α
  | [] => [a]
  | b :: r => if (key a).1 < (key b).1 ∨ ((key a).1 = (key b).1 ∧ (key a).2 < (key b).2) then a :: b :: r else b :: insertBy key a r

/-- A list sorted by a key of two numbers. -/
def sortBy {α : Type} (key : α → Nat × Nat) (l : List α) : List α := l.reverse.foldl (fun r a => insertBy key a r) []

/-- The placement of a whole epoch (R88): coarse bricks, present mid bricks, present fine bricks; then every directory half
of a mid brick that is not present (R83). -/
def placeAll (f : FieldIn) (old : Option FieldView) (par bnew : Nat) : Placing :=
  let used := match old with | none => [] | some v => v.slots f.lay
  let p0 := (List.range 1024).foldl (placeCoarse f old par) { used }
  let bricks := midBricks f.lay
  let mids := (bricks.filter f.midPresent).map fun pos =>
    { low := minD 0 ((cellsIn f.lay 4 8 pos).map fun (x, y, z) => f.midVal x y z), mb := mbNum pos.1 pos.2.1 pos.2.2, pos,
      fines := f.finePresent pos : MidItem }
  let absent := bricks.filter fun pos => !f.midPresent pos
  let p1 := absent.foldl (fun p pos => p.put (stMidHalf (mbNum pos.1 pos.2.1 pos.2.2) par) (toLE 4 0xFFFFFFFF)) p0
  let (p2, fmaps) := (sortBy (fun m : MidItem => (m.low, m.mb)) mids).foldl (fun (acc : Placing × List (MidItem × Nat)) m =>
    match placeMid f old par bnew acc.1 m with
    | (p, some fs) => (if fs = 0xFFFF then p else p.put (stSlot fs) (List.replicate 128 0xFF#8 ++ zeros 384), acc.2 ++ [(m, fs)])
    | (p, none) => (p, acc.2)) (p1, [])
  let fines := fmaps.flatMap fun (m, fs) => m.fines.map fun q => (fs, q)
  (sortBy (fun e : Nat × Nat × Nat × Nat =>
      ((127 + minD 0 ((cellsIn f.lay 16 8 e.2).map fun (x, y, z) => (f.sample x y z + 127).toNat)), fbNum e.2.1 e.2.2.1 e.2.2.2)) fines).foldl
    (fun p e => placeFine f old bnew p e.1 e.2) p2

/-! ### Dirty masks (R89) -/

/-- The two views differ in a mid cell of the mid brick. -/
def midDirty (a b : FieldView) (pos : Nat × Nat × Nat) : Bool :=
  (cube 8).any fun (x, y, z) =>
    let i : Int := (8 * pos.1 + x : Nat); let j : Int := (8 * pos.2.1 + y : Nat); let k : Int := (8 * pos.2.2 + z : Nat)
    (a.mid i j k).val != (b.mid i j k).val

/-- The two views differ in a fine sample of the fine brick. -/
def fineDirty (a b : FieldView) (q : Nat × Nat × Nat) : Bool :=
  (cube 8).any fun (x, y, z) =>
    let i : Int := (8 * q.1 + x : Nat); let j : Int := (8 * q.2.1 + y : Nat); let k : Int := (8 * q.2.2 + z : Nat)
    (a.fine i j k).val != (b.fine i j k).val

/-- The two views differ in a cell of the coarse brick. -/
def coarseDirty (a b : FieldView) (cb : Nat) : Bool :=
  (cube 8).any fun (x, y, z) =>
    let i : Int := (8 * (cb % 16) + x : Nat); let j : Int := (8 * (cb / 16 % 16) + y : Nat); let k : Int := (8 * (cb / 256) + z : Nat)
    a.coarse i j k != b.coarse i j k

/-- The fine positions (bit u + 4v + 16w) of a mid brick at which two views differ. -/
def dirtyFineMask (a b : FieldView) (pos : Nat × Nat × Nat) : Nat :=
  ((cube 4).map fun (x, y, z) =>
    if fineDirty a b (4 * pos.1 + x, 4 * pos.2.1 + y, 4 * pos.2.2 + z) then 2 ^ (x + 4 * y + 16 * z) else 0).sum

/-- Number of ones among the low 64 bits. -/
def popcount (v : Nat) : Nat := ((List.range 64).filter v.testBit).length

/-- The masks of an epoch: the writes that store them and the counts that FLD_DIRTY and FLD_DIRTY_FINE report. -/
structure Masks where
  items : List (Nat × List Byte)
  mid   : Nat
  fine  : Nat
  deriving DecidableEq, Repr

/-- Bits as bytes, least significant first. -/
def packBits (l : List Bool) : List Byte :=
  (List.range (cdiv l.length 8)).map fun i => BitVec.ofNat 8 (((List.range 8).map fun j => if l.getD (8 * i + j) false then 2 ^ j else 0).sum)

/-- The masks of the first epoch of a run: every bit is 1 (R89). -/
def firstMasks (l : FieldLayout) (new : FieldView) : Masks :=
  { items := (stMidDirty new.par, List.replicate 0x4000 0xFF#8) :: (stCoarseDirty new.par, List.replicate 128 0xFF#8)
      :: ((midBricks l).filter fun p => new.fmapSlot (mbNum p.1 p.2.1 p.2.2) != 0xFFFF).map fun p =>
        (stSlot (new.fmapSlot (mbNum p.1 p.2.1 p.2.2)) + 128, List.replicate 8 0xFF#8),
    mid := 65536, fine := 65536 * 64 }

/-- The masks of an epoch against the last published one (R89). -/
def diffMasks (l : FieldLayout) (old new : FieldView) : Masks :=
  let per := (midBricks l).map fun p =>
    let mb := mbNum p.1 p.2.1 p.2.2
    (mb, midDirty old new p, dirtyFineMask old new p, new.fmapSlot mb)
  let look (mb : Nat) : Bool × Bool := match per.find? (·.1 == mb) with
    | some (_, md, fm, _) => (md, fm != 0)
    | none => (false, false)
  { items :=
      (stMidDirty new.par, packBits ((List.range 65536).flatMap fun mb => [(look mb).1, (look mb).2]))
      :: (stCoarseDirty new.par, packBits ((List.range 1024).map (coarseDirty old new)))
      :: (per.filter fun e => e.2.2.2 != 0xFFFF).map fun e => (stSlot e.2.2.2 + 128, toLE 8 e.2.2.1),
    mid := (per.filter fun e => e.2.1 || e.2.2.1 != 0).length,
    fine := (per.map fun e => if e.2.2.1 = 0 then 0 else if e.2.2.2 = 0xFFFF then 64 else popcount e.2.2.1).sum }

/-- The writes of a build applied to a store, oldest first. -/
def applyItems (mem : Tab Byte) (base : Nat) (items : List (Nat × List Byte)) : Tab Byte :=
  items.foldl (fun m e => poke m (base + e.1) e.2) mem

/-- The digest of a build: the XOR of the CRC-32C of every item (R91). -/
def buildDigest (items : List (Nat × List Byte)) : BitVec 32 := items.foldl (fun d e => d ^^^ crc32c e.2) 0#32

/-- A fine position is dirty in an epoch (R89). -/
def FieldView.finePosDirty (v : FieldView) (fx fy fz : Nat) : Bool :=
  let mb := mbNum (fx / 4) (fy / 4) (fz / 4)
  (v.rd (stMidDirty v.par + (2 * mb + 1) / 8) 1).testBit ((2 * mb + 1) % 8)
  && (v.fmapSlot mb == 0xFFFF || (v.rd (stSlot (v.fmapSlot mb) + 128) 8).testBit (fx % 4 + 4 * (fy % 4) + 16 * (fz % 4)))

/-- MID_DIRTY of a mid brick (R89). -/
def FieldView.midBrickDirty (v : FieldView) (mb : Nat) : Bool := (v.rd (stMidDirty v.par + 2 * mb / 8) 1).testBit (2 * mb % 8)

/-- The coarse dirty bit of a coarse brick (R89). -/
def FieldView.coarseBrickDirty (v : FieldView) (cb : Nat) : Bool := (v.rd (stCoarseDirty v.par + cb / 8) 1).testBit (cb % 8)

/-! ### Persons (R92) -/

/-- A human sphere in effect, in 1/64 mm of the field frame. -/
structure HSphere where
  x : Int
  y : Int
  z : Int
  r : Nat
  deriving DecidableEq, Repr

/-- The VALID persons of a person table. -/
def validPersons (tab : List Byte) : List Nat := (List.range 16).filter fun p => (leAt tab (32 * p + 4) 1).testBit 0

/-- The spheres in effect of person p in slice k (R92). -/
def spheresOf (tab sph : List Byte) (p k : Nat) : List HSphere :=
  if !(leAt tab (32 * p + 4) 1).testBit 0 then [] else
  (List.range (min (leAt tab (32 * p + 5) 1) 32)).filterMap fun j =>
    let o := 16 * (256 * p + 32 * k + j)
    let r := leAt sph (o + 12) 2
    if (leAt sph (o + 15) 1).testBit 0 && r != 0 then some { x := leAtS sph o 4, y := leAtS sph (o + 4) 4, z := leAtS sph (o + 8) 4, r }
    else none

/-- VALID persons whose SPHERES is 0 or above 32, counted once per epoch in FLD_OCC_ERR (R92). -/
def badPersons (tab : List Byte) : Nat :=
  ((validPersons tab).filter fun p => let n := leAt tab (32 * p + 5) 1; n == 0 || decide (32 < n)).length

end Sys2Proof.Machine
end

