-- ==== Sys2Proof/Config.lean ====
section
/-! DEFINITION. What the spec leaves open: constants without a body, applied to what each value depends on or to a fresh
number of the state. Nothing can be proved about their values. -/

namespace Sys2Proof.Config

/-- R233: how far, in units of the last place, the fixed method of the post-op unit lies from the correctly rounded exp of
an FP32 encoding (reduced to −2 .. 2 where it is used). -/
opaque expUlp : Nat → Nat
/-- R233: the same for tanh. -/
opaque tanhUlp : Nat → Nat
/-- R233: the same for rsqrt. -/
opaque rsqrtUlp : Nat → Nat
/-- R206, R232: where the scale bytes of an MX output (use 0) and of the V operand of an ATTN in an MX format (use 1) lie in
the array buffer, for a descriptor whose C_ADDR or V_ADDR is given: no field names it. -/
opaque mxScaleAddr : Nat → Nat → Nat
/-- R206, R229: the buffer offset of the scale byte of an element of a POOL input in an MX format, from SA_ADDR, the position and the
channel: the scales are laid out over a reduction index, which a POOL does not have. -/
opaque poolScaleAddr : Nat → Nat → Nat → Nat
/-- R211: a byte of the LONG container that a POOL, or a VECTOR of FP32 inputs, writes for a value, from its FP32 encoding: such an
element has no accumulator and no window. -/
opaque longByte : Nat → Nat → Byte
/-- R232: the FP32 encoding that a LONG output element is widened to for POST where no FP32 value equals it, from its container. -/
opaque longWide : List Byte → Nat

/-- R512: what a port image of a mode (1 ETHERCAT, 2 TSN) declares, read from its bytes; the layout belongs to Xisoxon. The list
holds, in ETHERCAT mode: the number of SubDevices, the image size, the working counter, the number of init commands, then for
each Safety over EtherCAT connection its address and the offsets of its output and input frames. In TSN mode: the number of
gate control entries, then for each drive its MAC address and its number of axis slots. -/
opaque portImage : Nat → List Byte → List Nat

/-- R384: the core supply of the warden die, mV, in the VOLT field of an error record that the warden die detects; no rule
states it. Applied to a fresh number. -/
opaque wardenMv : Nat → Nat

/-- R241, R303: a byte of the array buffers after a warm reset, undefined until it is written: applied to the number of warm
resets so far and the device address. -/
opaque bufByte : Nat → Nat → Byte

/-- R285, R384: the syndrome of a single-bit error at a bit of a 64-byte line, in the SYNDROME field; the spec does not give the
code's matrix. -/
opaque eccSynd : Nat → Nat

/-- R147: which entry a full translation cache gives up; applied to a fresh number. -/
opaque xlatVictim : Nat → Nat

/-- R155: what the evaluation program of a problem image computes: the objective f (use 0), the constraint violation C1 (1) or the
residual r (2), a binary64, from the program's bytes, the iterate and the multipliers as binary64 encodings, and the yields of the
cells of the field that it reads (mid or coarse, and the cell), none where the read gives no data. The program's instructions are not
in the spec. -/
opaque progValue : Nat → List Byte → List Nat → List Nat → (Bool → Int → Int → Int → Option Int) → Nat
/-- R155, R162: bit 0 set where a computation of the program saturates a result, bit 1 where it meets an invalid operation: of f, C1 and r
(use 0), of the derivatives (1), of A and b (2). -/
opaque progFlags : Nat → List Byte → List Nat → List Nat → (Bool → Int → Int → Int → Option Int) → Nat
/-- R155: the cells of the field that the program reads at an iterate for such a use: mid or coarse, and the cell. -/
opaque progReads : Nat → List Byte → List Nat → List (Bool × Int × Int × Int)
/-- R165: entry (i, k) of the matrix A that ASSEMBLE forms, and entry i of b (where k is the order N), a binary64 encoding. -/
opaque progMatrix : List Byte → List Nat → List Nat → (Bool → Int → Int → Int → Option Int) → Nat × Nat → Nat
/-- R165: the bytes of a work area after ASSEMBLE or FACTOR has written there: applied to a fresh number and the offset. The spec gives
the matrix and its factor no layout. -/
opaque workByte : Nat → Nat → Byte
/-- R165: which component of the solution is the step of element i of the iterate; one past the last where the element is fixed. -/
opaque progStep : List Byte → Nat → Nat

/-- R428: the nonce that the warden draws at a cold reset and after every life-cycle request; applied to a fresh number. -/
opaque lcNonce : Nat → Nat
/-- R459: the size of the rate correction that the servo sets for an offset, in parts per 10⁹ (reduced to at most 200,000 where it
is used): applied to the offset and a fresh number. The servo's law is not in the spec. -/
opaque ptpRate : Nat → Nat → Nat

/-- HIF_LINK: the speed and width that the PCIe link negotiates, applied to a fresh number (reduced to the legal values where it is
used). -/
opaque pcieLink : Nat → Nat
/-- SNS_RX_STATUS: the lane rate that a CSI-2 receiver measures, Mb/s, applied to a fresh number (reduced to 80 to MAX_MBPS where
it is used). -/
opaque csiRate : Nat → Nat

/-- R447: the target position (32 bits) that a port sends for an axis of a mechanism that has no record yet, its controlword being
0x0000; applied to a fresh number, the mechanism and the axis. -/
opaque idleTarget : Nat → Nat → Nat → Nat
/-- R463: the edge that a CSI-2 channel stamps with where its unit has had none yet, in ns; applied to a fresh number. -/
opaque noEdge : Nat → Nat
/-- CDL_TX_FLITS: how many flits the lines of one transfer take, packed with what else travels, from the bytes sent and a fresh
number (at least one where it is used). -/
opaque cdlFlits : Nat → Nat → Nat

/-- R198: a byte of the plan block (from offset 8) of a mechanism that has no record in force, from a fresh number, 16 times the
mechanism plus the bin, and the byte's place. -/
opaque planByte : Nat → Nat → Nat → Byte

/-- MEM_HBM_STATUS.TEMP: the temperature that a stack reports, in °C, from the die and the device time of the read. -/
opaque hbmTemp : Nat → Nat → Nat

end Sys2Proof.Config
end

