-- ==== Sys2Proof/Machine/Array.lean ====
section
/-! DEFINITION. Great Array operations (09_array_operations.md): the operation descriptor and its checks, the cycles of
each kind, what each compute kind writes, the post-op unit, and the NETWORKS section. -/

namespace Sys2Proof.Machine

/-! ### Descriptor (R223) -/

/-- An operation descriptor. `params` are the 32 bytes of PARAMS. -/
structure Desc where
  kind    : Nat := 0
  flags   : Nat := 0
  fa      : Nat := 0
  fb      : Nat := 0
  fo      : Nat := 0
  init    : Nat := 0
  lo      : Int := 0
  M       : Nat := 0
  N       : Nat := 0
  kTotal  : Nat := 0
  kBase   : Nat := 0
  aAddr   : Nat := 0
  aStr    : Nat := 0
  bAddr   : Nat := 0
  bStr    : Nat := 0
  cAddr   : Nat := 0
  cStr    : Nat := 0
  iAddr   : Nat := 0
  saAddr  : Nat := 0
  sbAddr  : Nat := 0
  kReduce : Nat := 0
  post    : List Nat := []
  fs      : Nat := 0
  scAddr  : Nat := 0
  biAddr  : Nat := 0
  params  : List Byte := []
  cycles  : Nat := 0
  ext     : Nat := 0
  resv    : Bool := true       -- the reserved bytes of 0x45 and 0x74 are zero
  deriving DecidableEq, Repr

/-- The descriptor in 128 bytes (R223). -/
def decDesc (b : List Byte) : Desc :=
  { kind := leAt b 0 1, flags := leAt b 1 1, fa := leAt b 2 1, fb := leAt b 3 1, fo := leAt b 4 1, init := leAt b 5 1, lo := leAtS b 6 2,
    M := leAt b 8 4, N := leAt b 0xC 4, kTotal := leAt b 0x10 4, kBase := leAt b 0x14 4, aAddr := leAt b 0x18 4, aStr := leAt b 0x1C 4,
    bAddr := leAt b 0x20 4, bStr := leAt b 0x24 4, cAddr := leAt b 0x28 4, cStr := leAt b 0x2C 4, iAddr := leAt b 0x30 4,
    saAddr := leAt b 0x34 4, sbAddr := leAt b 0x38 4, kReduce := leAt b 0x3C 4, post := ((slice b 0x40 4).map (·.toNat)).takeWhile (· != 0),
    fs := leAt b 0x44 1, scAddr := leAt b 0x48 4, biAddr := leAt b 0x4C 4, params := slice b 0x50 32, cycles := leAt b 0x70 4,
    ext := leAt b 0x78 8, resv := zerosAt b 0x45 3 && zerosAt b 0x74 4 }

/-- The kinds of R223. -/
def kGEMM := 1
/-- R228. -/
def kCONV := 2
/-- R230. -/
def kATTN := 3
/-- R231. -/
def kGATHER := 4
/-- R231. -/
def kVECTOR := 5
/-- R229. -/
def kPOOL := 6
/-- R226. -/
def kLOAD := 0x10
/-- R226, R239. -/
def kSTORE := 0x11
/-- R219. -/
def kSIGNAL := 0x12

/-- A compute kind: the array's own (R219). -/
def Desc.compute (d : Desc) : Bool := decide (1 ≤ d.kind) && decide (d.kind ≤ 6)
/-- FLAGS bits 0 to 3: CHECK, COMPARE, TRANS_B, PARITY. -/
def Desc.check (d : Desc) : Bool := bit d.flags 0
/-- COMPARE (R239). -/
def Desc.compare (d : Desc) : Bool := bit d.flags 1
/-- TRANS_B: B stored as N rows of K. -/
def Desc.transB (d : Desc) : Bool := bit d.flags 2
/-- PARITY: EXT moves with the frame's parity. -/
def Desc.parity (d : Desc) : Bool := bit d.flags 3
/-- `n` bytes of PARAMS at `o`. -/
def Desc.par (d : Desc) (o n : Nat) : Nat := leAt d.params o n
/-- The operation runs on the BF16 path. -/
def Desc.bf (d : Desc) : Bool := d.fa == 6
/-- The kinds that multiply two operands. -/
def Desc.two (d : Desc) : Bool := d.kind == kGEMM || d.kind == kCONV || d.kind == kATTN || d.kind == kGATHER
/-- The outputs come from the BF16 path: of an ATTN, those of its second product (DEDUCED, log entry 195). -/
def Desc.outBf (d : Desc) : Bool := if d.kind = kATTN then d.par 6 1 == 6 else d.two && d.bf
/-- A part of a BF16 reduction that stays short of the root of its tree, with what ACC_INIT brings: it writes FP32 (R214, R215). -/
def Desc.short (d : Desc) : Bool :=
  (d.kind == kGEMM || d.kind == kCONV) && d.bf &&
  !(d.kBase + d.kTotal == d.kReduce && (if d.init = 2 then d.kBase / 32 == pow2Below (cdiv d.kReduce 32) else d.kBase == 0))
/-- OUT_FMT as it takes effect: the root of a tree is converted to it, a part short of the root is not (R215). -/
def Desc.outFmt (d : Desc) : Nat := if d.short then 0 else d.fo
/-- POST as it takes effect. -/
def Desc.posts (d : Desc) : List Nat := if d.short then [] else d.post
/-- The format the outputs are stored in. -/
def Desc.stored (d : Desc) : Nat := if d.posts.isEmpty then d.outFmt else d.fs

/-- The EXT address of a frame (R223, PARITY). -/
def Desc.extAt (d : Desc) (frame : Nat) : Nat := d.ext + (if d.parity then frame % 2 * d.aStr else 0)

/-- Rows, columns and reduction length of the output, by kind. -/
def Desc.rows (d : Desc) : Nat :=
  if d.kind = kCONV ∨ d.kind = kPOOL then d.par 6 2 * d.par 8 2 else if d.kind = kATTN then d.par 0 2
  else if d.kind = kGATHER then d.par 0xC 4 else d.M
/-- Columns of the output. -/
def Desc.cols (d : Desc) : Nat := if d.kind = kATTN then d.par 4 2 else d.N

/-! ### Ranges and cycles (R224, R227 to R231) -/

/-- A matrix of `r` rows of `n` elements with a row stride: its bytes. -/
def spanOf (r str fmt n : Nat) : Nat := (r - 1) * str + rowBytes fmt n

/-- The operand, output, INIT and scratch ranges of a compute descriptor (offset and length), in the order A, B, C, INIT, S, V. -/
def Desc.ranges (d : Desc) : List (Nat × Nat) :=
  let c := (d.cAddr, spanOf d.rows d.cStr d.stored d.cols)
  let init := if d.init = 0 ∨ d.kind = kGATHER then [] else [(d.iAddr, d.rows * d.cols * (if d.init = 1 then 16 else 4))]
  let b := (d.bAddr, if d.transB then spanOf d.N d.bStr d.fb d.kTotal else spanOf d.kTotal d.bStr d.fb d.N)
  let img := (d.aAddr, rowBytes d.fa (d.par 2 2 * d.par 4 2 * d.par 0 2))
  if d.kind = kGEMM then [(d.aAddr, spanOf d.M d.aStr d.fa d.kTotal), b, c] ++ init
  else if d.kind = kCONV then [img, b, c] ++ init
  else if d.kind = kPOOL then [img, c] ++ init
  else if d.kind = kATTN then
    let sq := d.par 0 2; let sk := d.par 2 2; let dh := d.par 4 2
    [(d.aAddr, spanOf sq d.aStr d.fa dh), (d.bAddr, spanOf sk d.bStr d.fb dh), c] ++ init ++
    [(d.par 0x18 4, sq * sk * 4), (d.par 0x10 4, spanOf sk (d.par 0x14 4) (d.par 7 1) dh)]
  else if d.kind = kGATHER then [(d.aAddr, spanOf (d.par 8 4) d.aStr d.fa d.kTotal), b, c]
  else [(d.aAddr, spanOf d.M d.aStr (if d.fa = 0xF then 0xF else 7) d.N), c] ++ init

/-- The bank that a range lies wholly in (R225), if it does. -/
def bankOf (r : Nat × Nat) : Option Nat :=
  let n := r.1 / 0x400000
  if n < 16 ∧ r.1 + max r.2 1 ≤ (n + 1) * 0x400000 then some n else none

/-- The drain of one tile (R227): w is the bytes of a stored element. -/
def drainOf (fmt : Nat) : Nat := max 256 (128 * fmtBits fmt / 8)

/-- ceil(K ÷ k_rate), k_rate being the MACs per cycle over 65,536 (R227). -/
def kCycles (k rate : Nat) : Nat := cdiv (k * 65536) rate

/-- GEMM cycles for an m × n output over k (R227). -/
def gemmCycles (m n k rate fmt : Nat) : Nat := cdiv m 256 * cdiv n 256 * max (kCycles k rate) (drainOf fmt) + 520

/-- One tile again (R238). -/
def Desc.tileCycles (d : Desc) : Nat := max (kCycles d.kTotal (pairRate d.fa d.fb)) (drainOf d.stored)

/-- The time of a descriptor by the timing rules: R227 to R231, and for the load unit R226 and R239. -/
def Desc.time (d : Desc) : Nat :=
  let rate := pairRate d.fa d.fb
  if d.kind = kGEMM ∨ d.kind = kCONV then gemmCycles d.rows d.N d.kTotal rate d.stored
  else if d.kind = kPOOL then 64 + d.par 0xA 1 * d.par 0xB 1 * cdiv (d.rows * d.N) 256
  else if d.kind = kATTN then
    let sq := d.par 0 2; let sk := d.par 2 2; let dh := d.par 4 2
    gemmCycles sq sk dh rate 0 + gemmCycles sq dh sk (pairRate (d.par 6 1) (d.par 7 1)) d.stored + 3 * cdiv (sq * sk) 256
  else if d.kind = kGATHER then
    cdiv (d.par 4 4) 256 * cdiv d.N 256 * max 32 (max (kCycles d.kTotal rate) (drainOf d.stored)) + 520
  else if d.kind = kVECTOR then 64 + 3 * cdiv (d.M * d.N) 256
  else if d.kind = kLOAD then cdiv (d.M * 3) 2048
  else if d.kind = kSTORE then (if d.compare then cdiv (d.M * 3) 512 else cdiv (d.M * 3) 2048)
  else 1

/-! ### Checks (R224) -/

/-- OUT_FMT is listed (R211). -/
def outListed (c : Nat) : Bool := [0, 1, 2, 3, 5, 6, 7, 0xF].contains c

/-- Bytes of PARAMS from `n` on are zero. -/
def Desc.parZero (d : Desc) (n : Nat) : Bool := (d.params.drop n).all (· == 0#8)

/-- The window size along one axis (R228). -/
def convOut (h p dil k s : Nat) : Option Nat :=
  if dil * (k - 1) + 1 ≤ h + 2 * p ∧ 0 < s then some ((h + 2 * p - dil * (k - 1) - 1) / s + 1) else none

/-- The CONV and POOL limits (R228). -/
def Desc.convOk (d : Desc) : Bool :=
  let inr (o : Nat) : Bool := decide (1 ≤ d.par o 1) && decide (d.par o 1 ≤ 15)
  [0xA, 0xB, 0xC, 0xD, 0x10, 0x11].all inr
  && convOut (d.par 2 2) (d.par 0xE 1) (d.par 0x10 1) (d.par 0xA 1) (d.par 0xC 1) == some (d.par 6 2)
  && convOut (d.par 4 2) (d.par 0xF 1) (d.par 0x11 1) (d.par 0xB 1) (d.par 0xD 1) == some (d.par 8 2)

/-- The format checks of a compute descriptor. DESIGN CHOICE (log entry 191): the codes of a field that the kind does not use are
listed too; a POOL in an MX format takes the SCALE_LO range of an MX pair; ACC_INIT 1 and 2 stand only with their kind of sum. -/
def Desc.fmtOk (d : Desc) : Bool :=
  (if d.two then pairOk d.fa d.fb else (if d.kind = kVECTOR then d.fa == 7 || d.fa == 0xF else fmtListed d.fa) && fmtListed d.fb)
  && outListed d.fo && (d.fo != 0xF || !d.outBf)
  && (if d.kind = kATTN then pairOk (d.par 6 1) (d.par 7 1) else true)
  && ((outListed d.fs && d.fs != 0xF) || fmtMX d.fs)
  && decide (d.init ≤ 2) && (d.init != 1 || (d.two && !d.outBf)) && (d.init != 2 || d.outBf)
  && (if fmtMX d.fa then decide (-254 ≤ d.lo) && decide (d.lo ≤ 254) else d.lo == 0)

/-- The reduction range of any descriptor. -/
def Desc.rangeOk (d : Desc) : Bool := decide (d.kBase + d.kTotal ≤ d.kReduce) && decide (d.kReduce ≤ 2 ^ 31)

/-- The reduction checks of a two-operand kind. -/
def Desc.redOk (d : Desc) : Bool :=
  (!(d.bf || fmtMX d.fa) || d.kBase % 32 == 0) && (!d.bf || subtreeOk d.kBase d.kTotal d.kReduce (d.init == 2))

/-- Every range lies in one bank of BANKS, and no two share one. -/
def Desc.banksOk (d : Desc) (banks : Nat) : Bool :=
  let bs := d.ranges.map bankOf
  bs.all (fun b => match b with | some n => bit banks n | none => false) && decide (bs.Nodup)

/-- The kind's own limits. -/
def Desc.kindOk (d : Desc) : Bool :=
  if d.kind = kGEMM then d.parZero 0
  else if d.kind = kCONV then d.convOk && d.kTotal == d.par 0 2 * d.par 0xA 1 * d.par 0xB 1 && d.M == d.rows && d.parZero 0x12
  else if d.kind = kPOOL then d.convOk && d.par 0 2 == d.N && decide (d.par 0x12 1 ≤ 1) && d.parZero 0x13
  else if d.kind = kATTN then d.transB && decide (1 ≤ d.par 0 2) && decide (d.par 0 2 ≤ 256) && decide (1 ≤ d.par 4 2)
    && decide (d.par 4 2 ≤ 256) && decide (1 ≤ d.par 2 2) && decide (d.par 2 2 ≤ 8192) && d.parZero 0x1C
  else if d.kind = kGATHER then d.fo == 0xF && !d.bf && decide (d.init ≤ 1) && (d.init == 0 || d.iAddr == d.cAddr)
    && d.parZero 0x10
  else d.parZero 4

/-- Two ranges of addresses share a byte. -/
def rangesMeet (a b : Nat × Nat) : Bool := overlap a.1 a.2 b.1 b.2

/-- R224 for one descriptor. `banks` is the network's BANKS field; `inUnits a n` says that a range lies in the
partition's HBM units, with OUT_DELTA already applied where it counts. -/
def Desc.ok (d : Desc) (banks : Nat) (inUnits : Nat → Nat → Bool) : Bool :=
  let extOk (n : Nat) : Bool := inUnits d.ext n && (!d.parity || inUnits (d.ext + d.aStr) n)
  decide (d.flags < 16) && d.resv && decide (1 ≤ d.cycles) && decide (d.cycles ≤ 30000) && decide (d.time ≤ d.cycles)
  && (!d.compare || d.kind == kSTORE) && (!d.check || !(d.two && (d.bf || d.outBf))) && d.rangeOk
  && (if d.compute then
        decide (1 ≤ d.M) && decide (d.M ≤ 65536) && decide (1 ≤ d.N) && decide (d.N ≤ 65536) && d.fmtOk && (!d.two || d.redOk)
        && d.kindOk && d.banksOk banks && d.post.all (fun p => decide (p ≤ 9) && (decide (p < 8) || d.kind == kVECTOR))
      else if d.kind = kLOAD ∨ d.kind = kSTORE then
        d.M % 64 == 0 && decide (64 ≤ d.M) && decide (d.M ≤ 4194304) && d.N == 0 && d.post.isEmpty && d.parZero 0
        && (match bankOf (d.aAddr, d.M) with | some n => bit banks n | none => false) && extOk d.M
      else if d.kind = kSIGNAL then d.post.isEmpty && d.parZero 0 && extOk 8
      else false)

/-! ### Output elements -/

/-- One output element before the post-op unit: its LONG container on the long-sum path, or its FP32 value. -/
inductive Acc0
  | long (l : Long)
  | flt (b : BfVal)
  deriving DecidableEq, Repr

/-- What a two-operand product is formed from: element and scale readers over output index and reduction index. -/
structure Operands where
  fa  : Nat
  fb  : Nat
  lo  : Int
  a   : Nat → Nat → FV
  b   : Nat → Nat → FV
  xa  : Nat → Nat → Nat
  xb  : Nat → Nat → Nat

/-- The combined scale exponent of block g, none where a scale byte is 0xFF (R206, R209). -/
def Operands.scale (o : Operands) (i j g : Nat) : Option Int :=
  if fmtMX o.fa then
    let x := o.xa i g; let y := o.xb g j
    if x = 255 ∨ y = 255 then none else some ((x : Int) + y - 254)
  else some 0

/-- The operand elements of block g of output element (i, j), up to `k` elements. -/
def Operands.pairs (o : Operands) (i j k g : Nat) : List (FV × FV) :=
  (List.range (min 32 (k - 32 * g))).map fun n => (o.a i (32 * g + n), o.b (32 * g + n) j)

/-- Output element (i, j) over `k` reduction elements from an initial container (R208 to R210). -/
def Operands.long (o : Operands) (i j k : Nat) (init : Long) : Long :=
  (List.range (cdiv k 32)).foldl (fun acc g =>
    match o.scale i j g with
    | none => acc.block (80 - (fmtB o.fa + fmtB o.fb)) o.lo { nan := true } o.lo
    | some sg => acc.block (80 - (fmtB o.fa + fmtB o.fb)) o.lo (blockSum (fmtL o.fa) (fmtL o.fb) (o.pairs i j k g)) sg) init

/-- The window exponent of the operation (R212). -/
def Operands.win (o : Operands) : Int := fmtL o.fa + fmtL o.fb + o.lo

/-- Output element (i, j) on the BF16 path (R213, R214). -/
def Operands.bf (o : Operands) (i j k : Nat) : BfVal :=
  addTree bfAdd {} ((List.range k).map fun n => bfMul (o.a i n) (o.b n j))

/-- An element of the row-major A and of B in the descriptor's layout. -/
def Desc.aElem (d : Desc) (m : Tab Byte) (base i k : Nat) : FV := elemVal d.fa (elemRaw m d.fa (base + d.aAddr + i * d.aStr) k)
/-- Element (k, j) of B. -/
def Desc.bElem (d : Desc) (m : Tab Byte) (base k j : Nat) : FV :=
  elemVal d.fb (if d.transB then elemRaw m d.fb (base + d.bAddr + j * d.bStr) k else elemRaw m d.fb (base + d.bAddr + k * d.bStr) j)
/-- XA[i][g] and XB[g][j] (R223). -/
def Desc.xa (d : Desc) (m : Tab Byte) (base i g : Nat) : Nat := peekN m (base + d.saAddr + i * cdiv d.kTotal 32 + g) 1
/-- XB[g][j]. -/
def Desc.xb (d : Desc) (m : Tab Byte) (base g j : Nat) : Nat := peekN m (base + d.sbAddr + g * d.N + j) 1

/-- The input element that window position (kh, kw) of output position `pos` reads, none in the padding (R228). -/
def Desc.inPos (d : Desc) (pos kh kw : Nat) : Option Nat :=
  let oh := pos / d.par 8 2; let ow := pos % d.par 8 2
  let y := oh * d.par 0xC 1 + kh * d.par 0x10 1
  let x := ow * d.par 0xD 1 + kw * d.par 0x11 1
  if d.par 0xE 1 ≤ y ∧ y - d.par 0xE 1 < d.par 2 2 ∧ d.par 0xF 1 ≤ x ∧ x - d.par 0xF 1 < d.par 4 2
  then some ((y - d.par 0xE 1) * d.par 4 2 + (x - d.par 0xF 1)) else none

/-- Element k of im2col row `pos` (R228): reads in the padding return +0. -/
def Desc.convElem (d : Desc) (m : Tab Byte) (base pos k : Nat) : FV :=
  let cin := d.par 0 2
  match d.inPos pos (k / cin / d.par 0xB 1) (k / cin % d.par 0xB 1) with
  | some p => elemVal d.fa (elemRaw m d.fa (base + d.aAddr) (p * cin + k % cin))
  | none => fZero

/-- The operands of a GEMM or a CONV. -/
def Desc.operands (d : Desc) (m : Tab Byte) (base : Nat) : Operands :=
  { fa := d.fa, fb := d.fb, lo := d.lo,
    a := if d.kind = kCONV then d.convElem m base else d.aElem m base,
    b := d.bElem m base, xa := d.xa m base, xb := d.xb m base }

/-- The initial LONG container of element (i, j): its own, or zero (R212). -/
def Desc.initLong (d : Desc) (m : Tab Byte) (base : Nat) (win : Int) (i j : Nat) : Long :=
  if d.init = 1 then Long.add (decLong (peek m (base + d.iAddr + (i * d.cols + j) * 16) 16)) { win } else { win }

/-- The INIT subtree value joined on the left of a BF16 element (R215). -/
def Desc.withInit (d : Desc) (m : Tab Byte) (base i j : Nat) (v : BfVal) : BfVal :=
  if d.init = 2 then bfAdd { v := fOfBits f32 (peekN m (base + d.iAddr + (i * d.cols + j) * 4) 4) } v else v

/-- Output element (i, j) of a GEMM or CONV. -/
def Desc.dot (d : Desc) (m : Tab Byte) (base i j : Nat) : Acc0 :=
  let o := d.operands m base
  if d.bf then .flt (d.withInit m base i j (o.bf i j d.kTotal)) else .long (o.long i j d.kTotal (d.initLong m base o.win i j))

/-! ### Post-op unit (R232) -/

/-- exp of the post-op unit (R233): within 2 units in the last place. -/
def exp32 (v : FV) : FV := nudge ((Config.expUlp (fToBits f32 v) % 5 : Nat) - 2) (expNear v)
/-- tanh of the post-op unit (R233). -/
def tanh32 (v : FV) : FV := nudge ((Config.tanhUlp (fToBits f32 v) % 5 : Nat) - 2) (tanhNear v)
/-- rsqrt of the post-op unit (R233). -/
def rsqrt32 (v : FV) : FV := nudge ((Config.rsqrtUlp (fToBits f32 v) % 5 : Nat) - 2) (rsqrtNear v)

/-- A decimal constant as FP32. -/
def f32Dec (num den : Nat) : FV := fDiv f32 (fOfNat num) (fOfNat den)

/-- 1 ÷ (1 + exp(−v)). -/
def sigmoid32 (v : FV) : FV := fDiv f32 fOne (fAdd f32 fOne (exp32 (fNeg v)))

/-- The GELU of the post-op table, each operation rounded in turn. -/
def gelu32 (v : FV) : FV :=
  let c := fMul f32 (f32Dec 44715 1000000) (fMul f32 (fMul f32 v v) v)
  let t := tanh32 (fMul f32 (f32Dec 79788456 100000000) (fAdd f32 v c))
  fMul f32 (fMul f32 (.fin false 1 (-1)) v) (fAdd f32 fOne t)

/-- Row softmax (R230): `masked` excludes a key. A row with every key masked is +0 throughout. -/
def softmax32 (scale : FV) (row : List (FV × Bool)) : List FV :=
  let un := (row.filter (!·.2)).map (·.1)
  match un with
  | [] => row.map fun _ => fZero
  | u :: r =>
    let mx := r.foldl fMax u
    let e := row.map fun (v, k) => if k then fZero else exp32 (fMul f32 scale (fSub f32 v mx))
    let s := addTree (fAdd f32) fZero e
    e.map fun x => fDiv f32 x s

/-- LNORM over a row (R232). -/
def lnorm32 (eps : FV) (row : List FV) : List FV :=
  let n := fOfNat row.length
  let mean := fDiv f32 (addTree (fAdd f32) fZero row) n
  let dv := row.map fun v => fSub f32 v mean
  let var := fDiv f32 (addTree (fAdd f32) fZero (dv.map fun x => fMul f32 x x)) n
  let r := rsqrt32 (fAdd f32 var eps)
  dv.map fun x => fMul f32 x r

/-- The FP32 vector entry j at a buffer offset; `dflt` where the address is 0xFFFF_FFFF. -/
def colVec (m : Tab Byte) (base addr j : Nat) (dflt : FV) : FV :=
  if addr = 0xFFFFFFFF then dflt else fOfBits f32 (peekN m (base + addr + 4 * j) 4)

/-- One post-op code over a row. -/
def Desc.postOp (d : Desc) (m : Tab Byte) (base : Nat) (row : List FV) (code : Nat) : List FV :=
  if code = 1 then row.zipIdx.map fun (v, j) => fMul f32 v (colVec m base d.scAddr j fOne)
  else if code = 2 then row.zipIdx.map fun (v, j) => fAdd f32 v (colVec m base d.biAddr j fZero)
  else if code = 3 then row.map fun v => if v = .nan then .nan else fMax fZero v
  else if code = 4 then row.map sigmoid32
  else if code = 5 then row.map tanh32
  else if code = 6 then row.map gelu32
  else if code = 7 then row.map fun v => fMul f32 v (sigmoid32 v)
  else if code = 8 then lnorm32 (fOfBits f32 (d.par 0 4)) row
  else softmax32 fOne (row.map fun v => (v, false))

/-- One element rounded to OUT_FMT (R211), with the four flags INVALID, OVERFLOW, SCALE_UNDER, SCALE_OVER. -/
def roundElem (fo : Nat) : Acc0 → OutElem × Bool × Bool
  | .long l => let e := outPut fo (plusZero l.value); ({ e with inv := e.inv || l.inv }, l.sUnder, l.sOver)
  | .flt b => let e := outPut fo b.v; ({ e with inv := e.inv || b.inv, ovf := e.ovf || b.ovf }, false, false)

/-- The flags of one output element: INVALID, OVERFLOW, SCALE_UNDER, SCALE_OVER (R216). -/
structure ElFlags where
  inv : Bool := false
  ovf : Bool := false
  und : Bool := false
  ovr : Bool := false
  deriving DecidableEq, Repr

/-- What a compute descriptor does: the bytes it writes and the flags of its output elements. -/
structure ArrOut where
  writes  : List (Nat × List Byte) := []
  flags   : List ElFlags := []
  skip    : Nat := 0        -- rows and columns of tiles not compared (R237)
  retry   : List Nat := []  -- tiles computed again that passed (R238)
  fail    : List Nat := []  -- tiles that failed twice (R238)
  ranges_ : Nat := 0        -- rulebook entries skipped (R231)
  deriving DecidableEq, Repr

/-- The LONG container of an output element (R211). -/
def Acc0.container : Acc0 → List Byte
  | .long l => l.bytes
  | .flt b => (List.range 16).map (Config.longByte (fToBits f32 b.v))

/-- The flags of an output element rounded to a format (R216). -/
def Acc0.flags (fo : Nat) (e : Acc0) : ElFlags :=
  if fo = 0xF then (match e with
    | .long l => { inv := l.inv, und := l.sUnder, ovr := l.sOver }
    | .flt b => { inv := b.inv, ovf := b.ovf })
  else let (r, u, o) := roundElem fo e; { inv := r.inv, ovf := r.ovf, und := u, ovr := o }

/-- A LONG element widened to FP32 for POST. -/
def Long.wide (l : Long) : FV :=
  let v := plusZero l.value
  let r := fRound f32 v
  if fLt r v || fLt v r then fOfBits f32 (Config.longWide l.bytes) else r

/-- An output element widened to FP32 after its rounding (R232). -/
def Acc0.wide (fo : Nat) (e : Acc0) : FV :=
  if fo = 0xF then (match e with | .long l => l.wide | .flt b => b.v) else fRound f32 (outVal fo (roundElem fo e).1.raw)

/-- One output row through rounding and the post-op unit (R232): its bytes, the flags, and the scale bytes of an MX row. -/
def Desc.outRow (d : Desc) (m : Tab Byte) (base : Nat) (row : List Acc0) : List Byte × List ElFlags × List Nat :=
  let fo := d.outFmt
  let fl := row.map (Acc0.flags fo)
  if d.posts.isEmpty then
    (if fo = 0xF then (row.map Acc0.container).flatten else packRow fo (row.map fun e => (roundElem fo e).1.raw), fl, [])
  else
    let v := d.posts.foldl (d.postOp m base) (row.map (Acc0.wide fo))
    let (es, xs) := if fmtMX d.fs then mxRow d.fs v else (v.map (outPut d.fs), [])
    (packRow d.fs (es.map (·.raw)),
     (fl.zip es).map fun (f, e) => { f with inv := f.inv || e.inv, ovf := f.ovf || e.ovf }, xs)

/-! ### Row and column checksums (R218, R237, R238) -/

/-- The element is left out of both sides of a checksum (R218). -/
def Acc0.leftOut : Acc0 → Bool
  | .long l => l.inv || l.st != 0 || l.sUnder || l.sOver
  | .flt _ => false

/-- The accumulator of an element. -/
def Acc0.acc : Acc0 → Int
  | .long l => l.sum
  | .flt _ => 0

/-- The outputs of a compute descriptor before rounding. `terms i` names the operands, and the row of A in them, whose products go into
output row i over `k` reduction elements; `init` is the SUM that the accumulator starts from. A sum that is not long has no terms. -/
structure Prods where
  rows  : List (List Acc0)
  terms : Nat → List (Operands × Nat)
  k     : Nat
  init  : Nat → Nat → Int

/-- Element (i, j) of the outputs. -/
def Prods.el (p : Prods) (i j : Nat) : Acc0 := (p.rows.getD i []).getD j (.flt {})

/-- A 128-bit two's complement sum. -/
def wrap128 (i : Int) : Int := signed 128 (i % (2 ^ 128 : Nat)).toNat

/-- The integer form of a finite element in units of 2^l (R208). -/
def intForm (l : Int) : FV → Int
  | .fin n m e => scaledTo l n m e
  | _ => 0

/-- 2^(s_g − SCALE_LO) of a block, for the blocks that the check compares (R209). -/
def Operands.weight (o : Operands) (i j g : Nat) : Int :=
  match o.scale i j g with
  | some sg => (2 ^ (sg - o.lo).toNat : Nat)
  | none => 0

/-- RS_i: row i of A against the column sums of B over the columns js (R237). -/
def Prods.laneRow (p : Prods) (js : List Nat) (i : Nat) : Int :=
  wrap128 (((p.terms i).map fun (o, r) => ((List.range p.k).map fun k =>
      intForm (fmtL o.fa) (o.a r k) * (js.map fun j => intForm (fmtL o.fb) (o.b k j) * o.weight r j (k / 32)).sum).sum).sum
    + (js.map (p.init i)).sum)

/-- CS_j: the row sums of A over the rows is against column j of B (R237). -/
def Prods.laneCol (p : Prods) (is : List Nat) (j : Nat) : Int :=
  wrap128 (((List.range p.k).map fun k => (is.map fun i => ((p.terms i).map fun (o, r) =>
      intForm (fmtL o.fa) (o.a r k) * o.weight r j (k / 32) * intForm (fmtL o.fb) (o.b k j)).sum).sum).sum
    + (is.map fun i => p.init i j).sum)

/-- The rows of output tile t, 256 × 256 in row-major order. -/
def tileRows (r c t : Nat) : List Nat :=
  let n := t / cdiv c 256
  (List.range (min 256 (r - 256 * n))).map (· + 256 * n)
/-- The columns of output tile t. -/
def tileCols (c t : Nat) : List Nat :=
  let n := t % cdiv c 256
  (List.range (min 256 (c - 256 * n))).map (· + 256 * n)

/-- The rows of a tile that are compared: those without an element left out. -/
def Prods.rowsIn (p : Prods) (is js : List Nat) : List Nat := is.filter fun i => !(js.any fun j => (p.el i j).leftOut)
/-- The columns of a tile that are compared. -/
def Prods.colsIn (p : Prods) (is js : List Nat) : List Nat := js.filter fun j => !(is.any fun i => (p.el i j).leftOut)

/-- Every comparison of a tile holds: `good` forms the operand side, `p` the accumulators as they are drained (R218, R237). -/
def Prods.tileOk (good p : Prods) (is js : List Nat) : Bool :=
  ((p.rowsIn is js).all fun i => good.laneRow js i == wrap128 (js.map fun j => (p.el i j).acc).sum)
  && ((p.colsIn is js).all fun j => good.laneCol is j == wrap128 (is.map fun i => (p.el i j).acc).sum)

/-- The accumulators with the errors of one pass. -/
def Prods.hit (p : Prods) (us : List Upset) : Prods :=
  let add (i j : Nat) (e : Acc0) : Acc0 :=
    match e with
    | .long l => .long { l with sum := wrap112 (l.sum + ((us.filter fun u => u.row == i && u.col == j).map (·.delta)).sum) }
    | e => e
  { p with rows := p.rows.zipIdx.map fun (r, i) => r.zipIdx.map fun (e, j) => add i j e }

/-- What the check of a descriptor's tiles leads to: the accumulators drained, the tiles computed again that passed, those that failed
twice, and the rows and columns not compared. -/
structure Checked where
  out   : Prods
  retry : List Nat := []
  fail  : List Nat := []
  skip  : Nat := 0

/-- The tiles checked and computed again (R237, R238): a tile whose comparison fails is drained from its second pass. -/
def Prods.checked (p : Prods) (check : Bool) (us : List Upset) : Checked :=
  let r := p.rows.length
  let c := (p.rows.headD []).length
  let first := p.hit us
  if !check then { out := first }
  else
    let again := p.hit (us.filter (·.twice))
    let ts := List.range (cdiv r 256 * cdiv c 256)
    let bad := ts.filter fun t => !(p.tileOk first (tileRows r c t) (tileCols c t))
    let fail := bad.filter fun t => !(p.tileOk again (tileRows r c t) (tileCols c t))
    let tileOf (i j : Nat) : Nat := i / 256 * cdiv c 256 + j / 256
    let pick (i j : Nat) : Acc0 := if bad.contains (tileOf i j) then again.el i j else first.el i j
    let rows := (List.range r).map fun i => (List.range c).map (pick i)
    let out : Prods := { p with rows }
    let left (t : Nat) : Nat :=
      (tileRows r c t).length - (out.rowsIn (tileRows r c t) (tileCols c t)).length
        + ((tileCols c t).length - (out.colsIn (tileRows r c t) (tileCols c t)).length)
    { out, retry := bad.filter (!fail.contains ·), fail, skip := (ts.map left).sum }

/-- A matrix that no checksum goes with: a BF16 sum, a POOL or a VECTOR. -/
def Prods.plain (rows : List (List Acc0)) : Prods := { rows, terms := fun _ => [], k := 0, init := fun _ _ => 0 }

/-- The output of a matrix of elements in rows: every row written at C_ADDR with C_STRIDE, MX scales at the place the
spec leaves open. `rowInv` marks rows whose elements all set INVALID (R230). -/
def Desc.outMatrix (d : Desc) (m : Tab Byte) (base : Nat) (us : List Upset) (p : Prods) (rowInv : List Bool) : ArrOut :=
  let c := p.checked (d.check && d.two && !d.outBf) us
  let outs := c.out.rows.map (d.outRow m base)
  let wr := outs.zipIdx.flatMap fun ((b, _, xs), i) =>
    (base + d.cAddr + i * d.cStr, b) ::
    (if xs.isEmpty then [] else
      [(base + (Config.mxScaleAddr 0 d.cAddr + i * xs.length) % 0x4000000, xs.map (BitVec.ofNat 8))])
  let fl := (outs.zip rowInv).flatMap fun ((_, f, _), v) => f.map fun x => { x with inv := x.inv || v }
  { writes := wr, flags := fl, skip := c.skip, retry := c.retry, fail := c.fail }

/-- The SUM that a checked accumulator starts from (R237). -/
def Desc.initSum (d : Desc) (m : Tab Byte) (base : Nat) (win : Int) (i j : Nat) : Int := (d.initLong m base win i j).sum

/-- The rows of a GEMM or CONV (R227, R228). -/
def Desc.runDot (d : Desc) (m : Tab Byte) (base : Nat) (us : List Upset) : ArrOut :=
  let o := d.operands m base
  let rows := (List.range d.rows).map fun i => (List.range d.cols).map (d.dot m base i)
  d.outMatrix m base us { rows, terms := fun i => [(o, i)], k := d.kTotal, init := d.initSum m base o.win } (rows.map fun _ => false)

/-- Element (position p, channel c) of a POOL's input (R229); in an MX format times its block's scale, whose place is open. -/
def Desc.poolElem (d : Desc) (m : Tab Byte) (base p c : Nat) : FV :=
  let v := elemVal d.fa (elemRaw m d.fa (base + d.aAddr) (p * d.N + c))
  if fmtMX d.fa then
    let x := peekN m (base + Config.poolScaleAddr d.saAddr p c % 0x4000000) 1
    if x = 255 then .nan else fMulX v (.fin false 1 ((x : Int) - 127))
  else v

/-- POOL (R229): the maximum, or the FP32 average over the positions inside the input. -/
def Desc.runPool (d : Desc) (m : Tab Byte) (base : Nat) (us : List Upset) : ArrOut :=
  let kw := d.par 0xB 1
  let el (pos c : Nat) : Acc0 :=
    let w := (List.range (d.par 0xA 1 * kw)).map fun n =>
      (d.inPos pos (n / kw) (n % kw)).map fun p => fRound f32 (d.poolElem m base p c)
    let ins := w.filterMap id
    if d.par 0x12 1 = 0 then
      .flt (match ins with
        | [] => {}
        | u :: r => if ins.contains .nan then { v := .nan, inv := true } else { v := r.foldl fMax u })
    else
      let s := addTree bfAdd {} (w.map fun x => ({ v := x.getD fZero } : BfVal))
      .flt { s with v := fDiv f32 s.v (fOfNat ins.length) }
  let rows := (List.range d.rows).map fun i => (List.range d.N).map (el i)
  d.outMatrix m base us (Prods.plain rows) (rows.map fun _ => false)

/-- VECTOR (R231): an FP32 or LONG input through rounding and POST. -/
def Desc.runVector (d : Desc) (m : Tab Byte) (base : Nat) (us : List Upset) : ArrOut :=
  let el (i j : Nat) : Acc0 :=
    let a := base + d.aAddr + i * d.aStr
    if d.fa = 0xF then .long (decLong (peek m (a + 16 * j) 16)) else .flt { v := fOfBits f32 (peekN m (a + 4 * j) 4) }
  let rows := (List.range d.M).map fun i => (List.range d.N).map (el i)
  d.outMatrix m base us (Prods.plain rows) (rows.map fun _ => false)

/-- A row of P converted to P_FMT (R230, R232): its elements, their values and its scale bytes. -/
def convertRow (fmt : Nat) (row : List FV) : List OutElem × List FV × List Nat :=
  if fmtMX fmt then let (es, xs) := mxRow fmt row; (es, es.map fun e => elemVal fmt e.raw, xs)
  else let es := row.map (outPut fmt); (es, es.map fun e => outVal fmt e.raw, [])

/-- ATTN (R230): scores to S_ADDR, row softmax, product with V. Its flags are those of S with what the conversion of P adds, element
by element, and those of O (R216, R232; DEDUCED, log entry 195). -/
def Desc.runAttn (d : Desc) (m : Tab Byte) (base : Nat) (us : List Upset) : ArrOut :=
  let sq := d.par 0 2; let sk := d.par 2 2; let dh := d.par 4 2
  let pf := d.par 6 1; let vf := d.par 7 1
  let qk := d.operands m base
  let score (i j : Nat) : Acc0 := if d.bf then .flt (qk.bf i j dh) else .long (qk.long i j dh { win := qk.win })
  let sEls := (List.range sq).map fun i => (List.range sk).map (score i)
  let sRows := sEls.map fun r => r.map fun e => (roundElem 0 e).1.raw
  let masked (i j : Nat) : Bool :=
    d.par 0xC 4 != 0xFFFFFFFF && bit (peekN m (base + d.par 0xC 4 + i * sk / 8 + j / 8) 1) (j % 8)
  let sw := sRows.zipIdx.map fun (r, i) => (base + d.par 0x18 4 + i * sk * 4, (r.map (toLE 4)).flatten)
  let p := sRows.zipIdx.map fun (r, i) =>
    convertRow pf (softmax32 (fOfBits f32 (d.par 8 4)) (r.zipIdx.map fun (b, j) => (fOfBits f32 b, masked i j)))
  let o : Operands :=
    { fa := pf, fb := vf, lo := if fmtMX pf then d.lo else 0,
      a := fun i k => ((p.getD i ([], [], [])).2.1.getD k fZero),
      b := fun k j => elemVal vf (elemRaw m vf (base + d.par 0x10 4 + k * d.par 0x14 4) j),
      xa := fun i g => ((p.getD i ([], [], [])).2.2.getD g 0),
      xb := fun g j => peekN m (base + (Config.mxScaleAddr 1 (d.par 0x10 4) + g * dh + j) % 0x4000000) 1 }
  let rows := (List.range sq).map fun i => (List.range dh).map fun j =>
    if pf = 6 then Acc0.flt (d.withInit m base i j (o.bf i j sk)) else Acc0.long (o.long i j sk (d.initLong m base o.win i j))
  let r := d.outMatrix m base us { rows, terms := fun i => [(o, i)], k := sk, init := d.initSum m base o.win }
    ((List.range sq).map fun i => (List.range sk).all (masked i))
  let sf := (sEls.zip p).flatMap fun (l, q) => (l.zip q.1).map fun (e, c) =>
    let f := e.flags 0
    { f with inv := f.inv || c.inv, ovf := f.ovf || c.ovf }
  { r with writes := sw ++ r.writes, flags := sf ++ r.flags }

/-- GATHER (R231): each rulebook entry adds its product row into a LONG row; entries out of range are skipped. -/
def Desc.runGather (d : Desc) (m : Tab Byte) (base : Nat) (us : List Upset) : ArrOut :=
  let cnt := d.par 4 4; let inRows := d.par 8 4; let outRows := d.par 0xC 4
  let rule := (List.range cnt).map fun r => (peekN m (base + d.par 0 4 + 8 * r) 4, peekN m (base + d.par 0 4 + 8 * r + 4) 4)
  let good := rule.zipIdx.filter fun ((a, b), _) => decide (a < inRows) && decide (b < outRows)
  let o := d.operands m base
  let start (i j : Nat) : Long :=
    if d.init = 1 then Long.add (decLong (peek m (base + d.cAddr + i * d.cStr + 16 * j) 16)) { win := o.win } else { win := o.win }
  let entries (i : Nat) : List (Operands × Nat) :=
    (good.filter fun e => e.1.2 == i).map fun ((a, _), r) => ({ o with a := fun _ k => d.aElem m base a k }, r)
  let el (i j : Nat) : Long := (entries i).foldl (fun acc (q, r) => Long.add acc (q.long r j d.kTotal { win := o.win })) (start i j)
  let rows := (List.range outRows).map fun i => (List.range d.N).map fun j => Acc0.long (el i j)
  { d.outMatrix m base us { rows, terms := entries, k := d.kTotal, init := fun i j => (start i j).sum } (rows.map fun _ => false)
    with ranges_ := cnt - good.length }

/-- What a compute descriptor writes and flags, with the errors that strike its accumulators. -/
def Desc.run (d : Desc) (m : Tab Byte) (base : Nat) (us : List Upset) : ArrOut :=
  if d.kind = kPOOL then d.runPool m base us else if d.kind = kVECTOR then d.runVector m base us
  else if d.kind = kATTN then d.runAttn m base us else if d.kind = kGATHER then d.runGather m base us else d.runDot m base us

/-- The 256 × 256 output tile `t` in row-major tile order: the address and bytes of each of its rows. -/
def Desc.tileLines (d : Desc) (base t : Nat) : List (Nat × Nat) :=
  let tc := cdiv d.cols 256
  let w := fmtBits d.stored
  let c0 := t % tc * 256
  (List.range (min 256 (d.rows - t / tc * 256))).map fun r =>
    (base + d.cAddr + (t / tc * 256 + r) * d.cStr + c0 * w / 8, cdiv (min 256 (d.cols - c0) * w) 8)

/-! ### NETWORKS (R234 to R236) -/

/-- A network entry. -/
structure Net where
  net    : Nat
  cls    : Nat
  arrays : Nat
  tally  : Bool
  cycles : Nat
  img    : Nat
  imgLen : Nat
  digest : List Byte
  desc0  : Nat
  count  : Nat
  trig   : Nat
  banks  : Nat
  delta  : Int
  deriving DecidableEq, Repr

/-- The entries of a NETWORKS payload (R234). -/
def decNetworks (b : List Byte) : List Net :=
  (List.range (min (leAt b 0 4) (b.length / 128))).map fun i =>
    let o := 16 + 128 * i
    { net := leAt b o 1, cls := leAt b (o + 1) 1, arrays := leAt b (o + 2) 1, tally := leAt b (o + 3) 1 != 0, cycles := leAt b (o + 4) 4,
      img := leAt b (o + 8) 8, imgLen := leAt b (o + 0x10) 8, digest := slice b (o + 0x18) 48, desc0 := leAt b (o + 0x48) 4,
      count := leAt b (o + 0x4C) 4, trig := leAt b (o + 0x50) 8, banks := leAt b (o + 0x58) 2, delta := leAtS b (o + 0x60) 8 }

/-- The network names its die. -/
def Net.onDie (n : Net) (d : Nat) : Bool := bit n.arrays d

/-- A network that runs as twins (R239). -/
def Net.twin (n : Net) : Bool := n.arrays == 3

/-- A range moved by a network's OUT_DELTA, when it has not left the number line. -/
def deltaAddr (a : Nat) (d : Int) : Nat := ((a : Int) + d).toNat

/-- A NETWORKS fault (R236): `off` is the offset of the failing entry. -/
def netRej (ok : Bool) (sub i : Nat) : Option Bad := needF ok sub (16 + 128 * i)

/-- The own checks of NETWORKS. -/
def ownNetworks (b : List Byte) : Option Bad :=
  let n := leAt b 0 4
  let ns := decNetworks b
  firstBad [
    needF (decide (1 ≤ n) && decide (n ≤ 16) && zerosAt b 4 12 && b.length == 16 + 128 * n) 0x0901 0,
    firstOverI ns fun i e => let o := 16 + 128 * i
      firstBad [
        netRej (decide (e.net < 16) && !((ns.take i).any (·.net == e.net))) 0x0901 i,
        netRej (decide (e.cls ≤ 2)) 0x0902 i,
        netRej (e.arrays != 0 && decide (e.arrays ≤ 3) && (e.cls != 0 || e.arrays == 3)) 0x0902 i,
        netRej (decide (leAt b (o + 3) 1 ≤ 1)) 0x0905 i,
        netRej (e.img % 4096 == 0) 0x0905 i,
        netRej (e.desc0 % 128 == 0 && decide (1 ≤ e.count) && decide (e.count ≤ 65536) && decide (e.desc0 + 128 * e.count ≤ e.imgLen)) 0x0905 i,
        netRej (if e.tally then e.trig != 0 && e.trig % 8 == 0 else e.trig == 0) 0x0905 i,
        netRej (zerosAt b (o + 0x5A) 6 && zerosAt b (o + 0x68) 24) 0x0901 i]]

/-- Descriptor `i` of a network's image. -/
def Net.descAt (n : Net) (image : List Byte) (i : Nat) : Desc := decDesc (slice image (n.desc0 + 128 * i) 128)

/-- Every descriptor of the network stands R224. -/
def Net.descsOk (n : Net) (image : List Byte) (inUnits : Nat → Nat → Bool) : Bool :=
  (List.range n.count).all fun i => (n.descAt image i).ok n.banks inUnits

/-- What OUT_DELTA moves on PD1 stays inside the partition's units (R236). -/
def Net.deltaOk (n : Net) (image : List Byte) (inUnits : Nat → Nat → Bool) : Bool :=
  !n.twin || (List.range n.count).all fun i =>
    let d := n.descAt image i
    let a := deltaAddr d.ext n.delta
    let w := if d.kind = kSTORE then d.M else 8
    (d.kind != kSTORE && d.kind != kSIGNAL) || (inUnits a w && (!d.parity || inUnits (a + d.aStr) w))

/-- The class S FRAME sum of one array (R235) over the networks of every partition in force, `bsNs` being
BUILD_START − NET_START of the master in µs. -/
def sumSOk (ns : List Net) (die bsNs : Nat) : Bool :=
  let l := (ns.filter fun n => n.cls == 0 && !n.tally && n.onDie die).map (·.cycles)
  l.isEmpty || decide (l.sum + 30000 ≤ 1500 * bsNs)

/-- The FRAME sum of one array (R235): entries with the frame period of their partition; Σ CYCLES × 1,000 ÷ P is compared
exactly over the common product of the periods. -/
def sumFrameOk (ns : List (Net × Nat)) (die : Nat) : Bool :=
  let l : List (Net × Nat) := ns.filter fun e => !e.1.tally && e.1.onDie die && e.2 != 0
  let den : Nat := (l.map fun e => e.2).prod
  decide ((l.map fun e => e.1.cycles * 1000 * (den / e.2)).sum ≤ 1350000 * den)

end Sys2Proof.Machine
end

