-- ==== Sys2Proof/Machine/FaultCfg.lean ====
section
/-! DEFINITION. Fault detection, containment and recovery (16_fault_handling.md): unit identifiers, error kinds, the
FAULTS section, fault states and error records. -/

namespace Sys2Proof.Machine

/-! ### Units and kinds -/

/-- A unit identifier of R368. -/
def unitId (die pos : Nat) : Nat := die * 512 + pos

/-- The core with a package index (R5) as a unit. -/
def coreUnit (k : Nat) : Nat := unitId (k / 64) (k % 64)

/-- No unit. -/
def noUnit := 0xFFFF

/-- The error kinds of R369 by name. -/
def ekECC_CE := 0x01
/-- R285. -/
def ekECC_UE := 0x02
/-- R294. -/
def ekCRC_RETRY := 0x03
/-- R294. -/
def ekCRC_ERR := 0x04
/-- R297. -/
def ekPOISON := 0x05
/-- R190. -/
def ekREPLAY_DISAGREE := 0x06
/-- R183. -/
def ekDUP_DISAGREE := 0x07
/-- R238. -/
def ekCHK_RECOMPUTE := 0x08
/-- R238. -/
def ekCHK_FAIL := 0x09
/-- R239. -/
def ekCMP_FAIL := 0x0A
/-- R360. -/
def ekST_FAIL := 0x0B
/-- R361. -/
def ekST_MISSED := 0x0C
/-- R18. -/
def ekLINK_DEGR := 0x0D
/-- R18. -/
def ekLINK_DOWN := 0x0E
/-- R268. -/
def ekTALLY_ERR := 0x0F
/-- R292, R295. -/
def ekDMA_FAIL := 0x10
/-- R33, R349. -/
def ekFW_REFUSED := 0x11
/-- R91. -/
def ekREPLICA := 0x12
/-- R86. -/
def ekBUILD_LATE := 0x13
/-- R243, R257. -/
def ekNO_CORE := 0x14
/-- R379. -/
def ekRETIRED := 0x15
/-- R320. -/
def ekTRIGGER := 0x16
/-- R301. -/
def ekTAMPER := 0x17
/-- R375 to R377. -/
def ekUNATTRIB := 0x18
/-- R118. -/
def ekSWP_POISON := 0x19

/-- The kinds that count against a unit or a word (R369). -/
def countedKinds : List Nat := [0x01, 0x02, 0x03, 0x04, 0x06, 0x07, 0x08, 0x09, 0x0A, 0x0B, 0x12]

/-! ### The FAULTS section (R385, R386) -/

/-- A FAULTS payload; the defaults stand where the section is absent. -/
structure FaultSec where
  n    : Nat := 3
  wMs  : Nat := 10000
  log  : Nat := 0
  logLen : Nat := 0
  over_ : List (Nat × Nat × Nat) := []     -- KIND, N, W_MS
  deriving DecidableEq, Repr

/-- The payload decoded. -/
def decFaults (b : List Byte) : FaultSec :=
  { n := leAt b 0 1, wMs := leAt b 4 4, log := leAt b 8 8, logLen := leAt b 0x10 4,
    over_ := (List.range (min (leAt b 2 2) 32)).map fun i => let o := 32 + 8 * i; (leAt b o 1, leAt b (o + 1) 1, leAt b (o + 4) 4) }

/-- N and W_MS in their ranges. -/
def nwOk (n w : Nat) : Bool := decide (2 ≤ n) && decide (100 ≤ w) && decide (w ≤ 3600000)

/-- The own checks of FAULTS (R386). -/
def ownFaults (b : List Byte) : Option Bad :=
  let s := decFaults b
  let no := leAt b 2 2
  firstBad [
    needF (decide (2 ≤ s.n)) 0x1002 0, needF (zerosAt b 1 1) 0x1001 1, needF (decide (no ≤ 32)) 0x1001 2,
    needF (nwOk s.n s.wMs) 0x1002 4, needF (s.log % 4096 == 0) 0x1004 8,
    needF ((s.logLen == 0 && s.log == 0) || (s.log != 0 && decide (4096 ≤ s.logLen) && decide (s.logLen ≤ 16777216) && 2 ^ s.logLen.log2 == s.logLen)) 0x1004 0x10,
    needF (zerosAt b 0x14 12) 0x1001 0x14, needF (b.length == 32 + 8 * no) 0x1001 0,
    firstOverI s.over_ fun i (k, n, w) => let o := 32 + 8 * i
      firstBad [needF (countedKinds.contains k && !((s.over_.take i).any (·.1 == k))) 0x1003 o,
                needF (decide (2 ≤ n)) 0x1002 (o + 1), needF (zerosAt b (o + 2) 2) 0x1001 (o + 2), needF (nwOk n w) 0x1002 (o + 4)]]

/-- The count limit N and window W in ns of a kind (R370). -/
def FaultSec.limits (s : FaultSec) (kind : Nat) : Nat × Nat :=
  match s.over_.find? (·.1 == kind) with
  | some (_, n, w) => (n, w * 1000000)
  | none => if kind = ekCRC_RETRY then (64, 1000000000)
            else if kind = ekECC_CE then (3, 10000000000) else (s.n, s.wMs * 1000000)

/-! ### Fault states (R370 to R372) -/

/-- The states of R372. -/
inductive FPhase | healthy | watch | confirm | isolate | retired
  deriving DecidableEq, Repr

/-- The register value of a state. -/
def FPhase.code : FPhase → Nat
  | .healthy => 0 | .watch => 1 | .confirm => 2 | .isolate => 3 | .retired => 4

/-- What a fault state counts for: a unit with its sub-unit, a 64-bit memory word, or the package-wide UNATTRIB state. -/
inductive FKey
  | unit (u sub : Nat)
  | word (addr : Nat)
  | unattrib
  deriving DecidableEq, Repr

/-- A fault state: its phase, the counted events of its window (stamp, kind), and the master frame of the last one. -/
structure FaultSt where
  key   : FKey
  phase : FPhase := .healthy
  evs   : List (Nat × Nat) := []
  frame : Option Nat := none
  slices : List Nat := []             -- isolation slices still to run (R373)
  lanes  : List Nat := []             -- lanes a failed slice named, as sub-units 1 to 8
  sel    : Bool := false              -- the fault lies in the scratchpad or the selection engine (R379)
  other  : Bool := false              -- a slice other than STRAIN and PROBE failed, or no lane was named
  since  : Nat := 0                   -- stamp of the lasting event
  stSig  : Option (Nat × Nat) := none -- kind and signature of a failed slice awaiting its repeat (R376)
  ref    : Nat := 0
  deriving DecidableEq, Repr

/-- Kinds that share a count within one fault state: CRC_RETRY has its own, every other kind one together. -/
def sameCount (a b : Nat) : Bool := (a == ekCRC_RETRY) == (b == ekCRC_RETRY)

/-- The events of a count, newest first, that stand with a new one at t in one window (R14): each event opens a window of its
own kind's length, and the oldest of those that hold t holds every event after it. -/
def inWindow (evs : List (Nat × Nat)) (kind : Nat) (w : Nat → Nat) (t : Nat) : List (Nat × Nat) :=
  ((evs.filter fun e => sameCount e.2 kind).reverse.dropWhile fun e => decide (e.1 + w e.2 ≤ t)).reverse

/-! ### Error records (R384) -/

/-- An error record before its numbers are given. -/
structure ErrRec where
  kind  : Nat
  act   : Nat := 0
  tag   : Nat := 0xFFFF
  unit  : Nat := 0xFFFF
  cls   : Nat := 0
  count : Nat := 0
  time  : Nat := 0
  aux   : Nat := 0
  op    : Nat := 0
  addr  : Nat := 0
  synd  : Nat := 0
  ref   : Nat := 0
  deriving DecidableEq, Repr

/-- The 64 bytes of a record (R384). -/
def ErrRec.bytes (r : ErrRec) (seq temp volt frame : Nat) : List Byte :=
  let b := toLE 4 seq ++ toLE 1 r.kind ++ toLE 1 r.act ++ toLE 2 r.tag ++ toLE 2 r.unit ++ toLE 1 r.cls ++ toLE 1 (min 255 r.count)
    ++ toLE 2 temp ++ toLE 2 volt ++ toLE 8 r.time ++ toLE 4 frame ++ toLE 4 r.aux ++ toLE 8 r.op ++ toLE 8 r.addr ++ toLE 8 r.synd
    ++ toLE 4 r.ref
  b ++ toLE 4 (crc32c b).toNat

/-- A confirmation in progress (R375): the three cores, the verdict bytes already at hand, the CONFIRM core and verdict, the
suspect, and the record that opened it. -/
structure Confirm where
  mech    : Nat
  part    : Nat
  frame   : Nat
  epoch   : Nat
  source  : Nat
  replay  : Nat
  recheck : Nat
  vReplay : List Byte
  vRecheck : List Byte
  core    : Nat := 0xFF
  vConf   : List Byte := []
  suspect : Option Nat := none
  candId  : Nat := 0
  ctx     : Nat := 0
  poses   : List (List FV) := []     -- joint values of the try's candidate, poses 0 to 8
  addr    : Nat := 0
  ref     : Nat := 0
  deriving DecidableEq, Repr

/-- The error collector: fault states, confirmations in progress, the record number and the ring, and the retirements of the
warden's non-volatile list beside those of this power cycle only (unit, sub-unit). -/
structure ErrColl where
  states  : List FaultSt := []
  confs   : List Confirm := []
  seq     : Nat := 0
  ring    : Tab Byte := []
  logHead : Nat := 0
  list    : List (Nat × Nat) := []
  extra   : List (Nat × Nat) := []
  full    : Bool := false
  clear   : Bool := false            -- CLEAR_RETIRED accepted: the list is empty from the next cold reset (R381)
  deriving DecidableEq, Repr

end Sys2Proof.Machine
end

