-- ==== Sys2Proof/Machine/Mech.lean ====
section
/-! DEFINITION. Mechanisms, check lists, Caddy references and Caddy images (04_candidate_generation.md R97 to R110 and
R120; 05_collision_checking.md R122 and R123): the payloads as data, and the checks the loader runs on them. -/

namespace Sys2Proof.Machine

/-- A sphere record (R99); X, Y, Z are binary32 encodings. -/
structure SphRec where
  x : Nat
  y : Nat
  z : Nat
  radius : Nat
  link   : Nat
  parent : Nat
  deriving DecidableEq, Repr

/-- A check list (R122): the margins and the self-collision pairs. -/
structure CheckList where
  mField : Nat := 0
  mMech  : Nat := 0
  mSelf  : Nat := 0
  mHuman : Nat := 0
  nearHuman : Nat := 0
  pairs  : List (Nat × Nat) := []
  deriving DecidableEq, Repr

/-- A mechanism descriptor with the records it points to (R97 to R99, R122). FP32 values are encodings. -/
structure Mech where
  num      : Nat := 0
  kind     : Nat := 0
  axes     : Nat := 0
  mid      : Nat := 0
  leaf     : Nat := 0
  tag      : Nat := 0
  caddy    : Nat := 0xFFFF
  lattice  : Nat := 0
  maxCand  : Nat := 0
  pad      : Nat := 0
  durUs    : Nat := 0
  ctxFirst : Nat := 0
  ctxCount : Nat := 0
  base     : List Nat := []        -- 12
  qmin     : List Nat := []
  qmax     : List Nat := []
  jtype    : List Nat := []
  vmax     : List Nat := []
  amax     : List Nat := []
  jmax     : List Nat := []
  dmax     : List Nat := []
  chain    : List (List Nat) := [] -- AXES transforms of 12
  tree     : List SphRec := []     -- 1 + MID + LEAF
  check    : CheckList := {}
  off      : Nat := 0              -- offset of the descriptor in the payload
  deriving DecidableEq, Repr

/-- `n` 32-bit words at an offset. -/
def words (b : List Byte) (o n : Nat) : List Nat := (List.range n).map fun i => leAt b (o + 4 * i) 4

/-- Sphere record `i` of a tree. -/
def sphRec (b : List Byte) (o : Nat) : SphRec :=
  { x := leAt b o 4, y := leAt b (o + 4) 4, z := leAt b (o + 8) 4, radius := leAt b (o + 12) 2, link := leAt b (o + 14) 1,
    parent := leAt b (o + 15) 1 }

/-- The check list at an offset, with `n` pairs. -/
def decCheckList (b : List Byte) (o n : Nat) : CheckList :=
  { mField := leAt b o 2, mMech := leAt b (o + 2) 2, mSelf := leAt b (o + 4) 2, mHuman := leAt b (o + 6) 2,
    nearHuman := leAt b (o + 8) 2,
    pairs := (List.range (min n (b.length / 4))).map fun i => (leAt b (o + 16 + 4 * i) 1, leAt b (o + 17 + 4 * i) 1) }

/-- The mechanism whose descriptor stands at offset `o`. -/
def decMech (b : List Byte) (o : Nat) : Mech :=
  let axes := min 12 (leAt b (o + 2) 1)
  let mid := leAt b (o + 4) 1
  let leaf := leAt b (o + 5) 1
  let ch := leAt b (o + 0xC0) 4
  let tr := leAt b (o + 0xC4) 4
  { num := leAt b o 1, kind := leAt b (o + 1) 1, axes, mid, leaf, tag := leAt b (o + 8) 8, caddy := leAt b (o + 0x10) 2,
    lattice := leAt b (o + 0x12) 2, maxCand := leAt b (o + 0x14) 4, pad := leAt b (o + 0x18) 2, durUs := leAt b (o + 0x1A) 2,
    ctxFirst := leAt b (o + 0x1C) 2, ctxCount := leAt b (o + 0x1E) 2, base := words b (o + 0x20) 12, qmin := words b (o + 0x50) 12,
    qmax := words b (o + 0x80) 12, jtype := (slice b (o + 0xB0) 12).map (·.toNat), vmax := words b (o + 0x100) 12,
    amax := words b (o + 0x130) 12, jmax := words b (o + 0x160) 12, dmax := words b (o + 0x190) 12,
    chain := (List.range axes).map fun i => words b (ch + 64 * i) 12,
    tree := (List.range (min 81 (1 + mid + leaf))).map fun i => sphRec b (tr + 16 * i),
    check := decCheckList b (leAt b (o + 0xC8) 4) (leAt b (o + 0xCC) 4), off := o }

/-- The mechanisms of a MECHANISMS payload. -/
def decMechs (b : List Byte) : List Mech := (List.range (min 16 (leAt b 0 4))).map fun i => decMech b (16 + 512 * i)

/-- An FP32 encoding is finite. -/
def f32Fin (w : Nat) : Bool := fFinite (fExact f32 w)

/-- A region that a descriptor points to: offset and size. -/
abbrev Region := Nat × Nat

/-- The regions of the descriptor at `o`: chain, tree, check list (R120). -/
def mechRegions (b : List Byte) (o : Nat) : List Region :=
  [(leAt b (o + 0xC0) 4, 64 * leAt b (o + 2) 1), (leAt b (o + 0xC4) 4, 16 * (1 + leAt b (o + 4) 1 + leAt b (o + 5) 1)),
   (leAt b (o + 0xC8) 4, 16 + 4 * leAt b (o + 0xCC) 4)]

/-- A region lies wholly inside the record area and partly overlaps none of the regions before it (R120). -/
def regionOk (areaLo areaHi : Nat) (prev : List Region) (r : Region) : Bool :=
  decide (areaLo ≤ r.1) && decide (r.1 + r.2 ≤ areaHi) && prev.all fun q => q == r || !(overlap q.1 q.2 r.1 r.2)

/-- 64 rad as binary32. -/
def rad64 : FV := .fin false 64 0
/-- 32,768 mm as binary32. -/
def mm32768 : FV := .fin false 32768 0

/-- The range of a joint type: ±64 rad, or ±32,768 mm. -/
def axisSpan (jt : Nat) : FV := if jt = 0 then rad64 else mm32768

/-- QMIN of an axis: finite and inside the range its joint type allows (sub-code 0x0403). -/
def qminOk (qmin jt : Nat) : Bool := f32Fin qmin && fLe (fNeg (axisSpan jt)) (fExact f32 qmin)

/-- QMAX of an axis: finite, not below QMIN and inside the range its joint type allows (sub-code 0x0403). -/
def qmaxOk (qmin qmax jt : Nat) : Bool :=
  f32Fin qmax && fLe (fExact f32 qmin) (fExact f32 qmax) && fLe (fExact f32 qmax) (axisSpan jt)

/-- DMAX above AMAX on one axis (R199, sub-code 0x0702). -/
def axisBrakes (amax dmax : Nat) : Bool := fLt (fExact f32 amax) (fExact f32 dmax)

/-- The own checks of one sphere record of a tree with `axes` links and `mid` mid spheres (R99). -/
def ownSphere (b : List Byte) (axes mid c i : Nat) : Option Bad :=
  let s := sphRec b c
  firstBad [needF (f32Fin s.x && f32Fin s.y && f32Fin s.z) 0x0403 c, needF (decide (s.link ≤ axes)) 0x0404 (c + 14),
    needF (if i = 0 then s.parent == 0xFF else if i ≤ mid then s.parent == 0
           else if mid = 0 then s.parent == 0 else decide (1 ≤ s.parent) && decide (s.parent ≤ mid)) 0x0404 (c + 15)]

/-- The own checks of the descriptor at `o`, whose record area is [lo, hi), after the descriptors at `prevO` and their
regions `prev` (R97 to R99, R101, R120, R123, R199). A fault of one entry of a table names that entry. -/
def ownMech (b : List Byte) (lo hi : Nat) (prevO : List Nat) (prev : List Region) (o : Nat) : Option Bad :=
  let m := decMech b o
  let axes := leAt b (o + 2) 1
  let ax (off i : Nat) : Nat := leAt b (o + off + 4 * i) 4
  let twelve := List.range 12
  let each (off : Nat) (f : Nat → Option Bad) : Option Bad := firstOver twelve fun i => match f i with
    | some x => some { x with off := o + off + 4 * i }
    | none => none
  let fin (off : Nat) (ok : Nat → Bool) : Option Bad := each off fun i =>
    needF (f32Fin (ax off i) && (decide (axes ≤ i) || ok i)) 0x0403 0
  let pos (off : Nat) : Option Bad := fin off fun i => fLt fZero (fExact f32 (ax off i))
  let jt (i : Nat) : Nat := leAt b (o + 0xB0 + i) 1
  let rs := mechRegions b o
  let r0 := rs.getD 0 (0, 0); let r1 := rs.getD 1 (0, 0); let r2 := rs.getD 2 (0, 0)
  firstBad [
    needF (decide (m.num < 16) && !(prevO.any fun q => leAt b q 1 == m.num)) 0x0401 o,
    needF (decide (1 ≤ axes) && decide (axes ≤ 12) && decide ((prevO.map fun q => leAt b (q + 2) 1).sum + axes ≤ 128)) 0x0402 (o + 2),
    needF (decide (m.mid ≤ 16)) 0x0402 (o + 4),
    needF (decide (1 ≤ m.leaf) && decide (m.leaf ≤ 64)) 0x0402 (o + 5),
    needF (zerosAt b (o + 6) 2) 0x0407 (o + 6),
    needF (m.durUs % 8 == 0 && decide (m.durUs ≤ 65528)) 0x0406 (o + 0x1A),
    needF (!(prevO.any fun q => overlap (leAt b (q + 0x1C) 2) (leAt b (q + 0x1E) 2) m.ctxFirst m.ctxCount)) 0x0405 (o + 0x1C),
    needF (decide (1 ≤ m.ctxCount)) 0x0405 (o + 0x1E),
    each 0x20 fun i => needF (f32Fin (ax 0x20 i)) 0x0403 0,
    each 0x50 fun i => if i < axes then needF (qminOk (ax 0x50 i) (jt i)) 0x0403 0 else needF (ax 0x50 i == 0) 0x0407 0,
    fin 0x80 fun i => qmaxOk (ax 0x50 i) (ax 0x80 i) (jt i),
    firstOver twelve fun i => if i < axes then needF (decide (jt i ≤ 1)) 0x0403 (o + 0xB0 + i) else needF (jt i == 0) 0x0407 (o + 0xB0 + i),
    needF (zerosAt b (o + 0xBC) 4) 0x0407 (o + 0xBC),
    needF (regionOk lo hi prev r0) 0x0404 (o + 0xC0),
    needF (regionOk lo hi (r0 :: prev) r1) 0x0404 (o + 0xC4),
    needF (regionOk lo hi (r1 :: r0 :: prev) r2) 0x0404 (o + 0xC8),
    needF (zerosAt b (o + 0xD0) 48) 0x0407 (o + 0xD0),
    pos 0x100, pos 0x130, pos 0x160, pos 0x190,
    each 0x190 fun i => needF (decide (axes ≤ i) || axisBrakes (ax 0x130 i) (ax 0x190 i)) 0x0702 0,
    needF (zerosAt b (o + 0x1C0) 64) 0x0407 (o + 0x1C0),
    firstOver (List.range axes) fun i => let c := r0.1 + 64 * i
      firstBad [firstOver twelve fun k => needF (f32Fin (leAt b (c + 4 * k) 4)) 0x0403 (c + 4 * k), needF (zerosAt b (c + 48) 16) 0x0407 (c + 48)],
    firstOver (List.range (1 + m.mid + m.leaf)) fun i => ownSphere b axes m.mid (r1.1 + 16 * i) i,
    needF (decide (m.check.mHuman ≤ m.check.nearHuman)) 0x0501 (r2.1 + 8),
    needF (zerosAt b (r2.1 + 10) 6) 0x0501 (r2.1 + 10),
    firstOver (List.range m.check.pairs.length) fun i => let c := r2.1 + 16 + 4 * i
      firstBad [needF (decide (leAt b c 1 < leAt b (c + 1) 1) && decide (leAt b (c + 1) 1 ≤ m.mid + m.leaf)) 0x0502 c,
                needF (zerosAt b (c + 2) 2) 0x0501 (c + 2)]]

/-- Descriptor by descriptor, the offsets and regions of those before carried along. -/
def ownMechsFrom (b : List Byte) (lo hi : Nat) : List Nat → List Region → List Nat → Option Bad
  | _, _, [] => none
  | prevO, regs, o :: r => match ownMech b lo hi prevO regs o with
    | some x => some x
    | none => ownMechsFrom b lo hi (o :: prevO) (mechRegions b o ++ regs) r

/-- The first byte of [lo, hi) that no region covers and that is not zero. -/
def uncovered (b : List Byte) (regs : List Region) (lo n : Nat) : Option Nat :=
  (List.range n).findSome? fun i =>
    let o := lo + i
    if (b.getD o 0#8) != 0#8 && !(regs.any fun r => decide (r.1 ≤ o) && decide (o < r.1 + r.2)) then some o else none

/-- The own checks of MECHANISMS (R120). -/
def ownMechs (b : List Byte) : Option Bad :=
  let n := leAt b 0 4
  let lo := 16 + 512 * n
  let os := (List.range n).map fun i => 16 + 512 * i
  let regs := os.flatMap (mechRegions b)
  firstBad [
    needF (decide (1 ≤ n) && decide (n ≤ 16)) 0x0401 0,
    needF (zerosAt b 4 12) 0x0407 4,
    needF (decide (lo ≤ b.length)) 0x0407 0,
    ownMechsFrom b lo b.length [] [] os,
    (match uncovered b regs lo (b.length - lo) with
      | some o => needF false 0x0407 o
      | none => none),
    let fin := (regs.map fun r => r.1 + r.2).foldl max lo
    needF (b.length == fin) 0x0407 (min b.length fin)]

/-! ### CADDY_REFS and images (R106 to R109) -/

/-- A reference to an image in HBM: address, length and SHA-384 digest. -/
structure ImgRef where
  addr   : Nat := 0
  len    : Nat := 0
  digest : List Byte := []
  deriving DecidableEq, Repr

/-- The entries of a CADDY_REFS payload. -/
def decCaddyRefs (b : List Byte) : List ImgRef :=
  (List.range (min 16 (leAt b 0 4))).map fun i => let o := 16 + 64 * i
    { addr := leAt b o 8, len := leAt b (o + 8) 8, digest := slice b (o + 16) 48 }

/-- The own checks of CADDY_REFS (R120, sub-code 0x0411). -/
def ownCaddyRefs (b : List Byte) : Option Bad :=
  let n := leAt b 0 4
  firstBad [
    needF (decide (1 ≤ n) && decide (n ≤ 16)) 0x0411 0,
    needF (zerosAt b 4 12) 0x0411 4,
    needF (b.length == 16 + 64 * n) 0x0411 0,
    firstOverI (decCaddyRefs b) fun i r => needF (r.addr % 4096 == 0) 0x0411 (16 + 64 * i)]

/-- A lattice table entry (R107). -/
structure Lattice where
  tag     : Nat := 0
  off     : Nat := 0
  axes    : Nat := 0
  classes : Nat := 0
  prims   : Nat := 0
  durUs   : Nat := 0
  stride  : Nat := 0
  deriving DecidableEq, Repr

/-- Entry `i` of an image's lattice table. -/
def latticeAt (img : List Byte) (i : Nat) : Lattice :=
  let o := 0x40 + 64 * i
  { tag := leAt img o 8, off := leAt img (o + 8) 8, axes := leAt img (o + 0x10) 1, classes := leAt img (o + 0x12) 2,
    prims := leAt img (o + 0x14) 4, durUs := leAt img (o + 0x18) 2, stride := leAt img (o + 0x1A) 2 }

/-- The offset of primitive `p` within its lattice body (R108). -/
def primOff (classes stride p : Nat) : Nat := 64 + 64 * cdiv (8 * classes) 64 + p * stride

/-- A fault inside an image (R509): code 0x0412, reported at the entry that names the image, with the offset inside it. -/
def needImg (ok : Bool) (entryOff img : Nat) : Option Bad :=
  if ok then none else some { code := cSECTION_FORMAT, off := entryOff, sub := 0x0412, img }

/-- The checks of lattice `i` of an image, with the mechanisms that use it (R107 to R110). -/
def latticeCheck (img : List Byte) (eo i : Nat) (users : List Mech) : Option Bad :=
  let l := latticeAt img i
  let o := 0x40 + 64 * i
  let n (ok : Bool) (x : Nat) : Option Bad := needImg ok eo x
  let cls (j : Nat) : Nat × Nat := (leAt img (l.off + 64 + 8 * j) 4, leAt img (l.off + 64 + 8 * j + 4) 4)
  Bad.orElse (firstBad [
    n (users.all fun m => m.tag == l.tag) o,
    n (l.off % 64 == 0 && decide (l.off + primOff l.classes l.stride l.prims ≤ img.length)) (o + 8),
    n (users.all fun m => m.axes == l.axes) (o + 0x10),
    n (zerosAt img (o + 0x11) 1) (o + 0x11),
    n (decide (1 ≤ l.classes) && decide (l.classes ≤ 4096)) (o + 0x12),
    n (decide (1 ≤ l.prims) && decide (l.prims ≤ 16777216)) (o + 0x14),
    n (users.all fun m => m.durUs == l.durUs) (o + 0x18),
    n (l.stride == 64 * cdiv (16 + 16 * l.axes) 64) (o + 0x1A),
    n (zerosAt img (o + 0x1C) 36) (o + 0x1C)]) fun _ => firstBad [
    n (zerosAt img (l.off + 48) 16) (l.off + 48),
    firstOver (List.range l.classes) fun j =>
      let c := cls j
      n (decide (c.1 + c.2 ≤ l.prims) && (j != 0 || decide (1 ≤ c.2)) && (List.range j).all fun k => !(overlap (cls k).1 (cls k).2 c.1 c.2))
        (l.off + 64 + 8 * j),
    firstOver (List.range l.prims) fun p => let q := l.off + primOff l.classes l.stride p
      firstBad [n (decide (leAt img q 2 < l.classes)) q, n (leAt img (q + 2) 2 / 2 == 0) (q + 2), n (zerosAt img (q + 6) 2) (q + 6),
        n (zerosAt img (q + 12) 4) (q + 12), n (zerosAt img (q + 16 + 16 * l.axes) (l.stride - 16 - 16 * l.axes)) (q + 16 + 16 * l.axes)]]

/-- The contents of the image of entry `k`, whose entry stands at payload offset `eo`, with the partition's mechanisms
(R107 to R109). -/
def caddyImageCheck (img : List Byte) (k eo : Nat) (mechs : List Mech) : Option Bad :=
  let n := leAt img 6 2
  Bad.orElse (firstBad [
    needImg (leAt img 0 4 == 0x59444143) eo 0,
    needImg (leAt img 4 2 == 1) eo 4,
    needImg (decide (1 ≤ n) && decide (n ≤ 16)) eo 6,
    needImg (leAt img 8 8 == img.length) eo 8,
    needImg (zerosAt img 16 48) eo 16,
    needImg (mechs.all fun m => m.caddy != k || decide (m.lattice < n)) eo 6]) fun _ =>
    firstOver (List.range n) fun i => latticeCheck img eo i (mechs.filter fun m => m.caddy == k && m.lattice == i)

/-- A primitive record as the sweep engine reads it (R109). -/
structure Prim where
  endClass : Nat := 0
  valid    : Bool := false
  sweepPad : Nat := 0
  costSeed : Nat := 0
  inc      : List Int := []       -- AXES × 8 increments, pose by pose
  deriving DecidableEq, Repr

/-- The primitive in a run of bytes, for `axes` axes (R109). -/
def decPrim (b : List Byte) (axes : Nat) : Prim :=
  { endClass := leAt b 0 2, valid := (leAt b 2 2).testBit 0, sweepPad := leAt b 4 2, costSeed := leAt b 8 4,
    inc := (List.range (8 * axes)).map fun i => leAtS b (16 + 2 * i) 2 }

end Sys2Proof.Machine
end

