-- ==== Sys2Proof/Machine/Check.lean ====
section
/-! DEFINITION. The sweep engine (04_candidate_generation.md R112 to R118) and the tests of the Strainer and the probe
engine (05_collision_checking.md R124 to R140) as functions: joint values to placed spheres to a verdict. -/

namespace Sys2Proof.Machine

/-! ### Sweep engine -/

/-- The constants of R114. -/
def twoOverPi : FV := fOfBits f32 0x3F22F983
/-- R114. -/
def pio2Hi : FV := fOfBits f32 0x3FC90FDB
/-- R114. -/
def pio2Lo : FV := fOfBits f32 0xB33BBD2E
/-- R114. -/
def sinS1 : FV := fOfBits f32 0xBE2AAAAB
/-- R114. -/
def sinS2 : FV := fOfBits f32 0x3C088889
/-- R114. -/
def sinS3 : FV := fOfBits f32 0xB9500D01
/-- R114. -/
def cosC1 : FV := fOfBits f32 0xBF000000
/-- R114. -/
def cosC2 : FV := fOfBits f32 0x3D2AAAAB
/-- R114. -/
def cosC3 : FV := fOfBits f32 0xBAB60B61
/-- R114. -/
def cosC4 : FV := fOfBits f32 0x37D00D01

/-- (sin q, cos q) of a revolute joint (R114). -/
def sinCos (q : FV) : FV × FV :=
  let k := fRoundInt (fMul f32 q twoOverPi)
  let r := fFma f32 (fNeg k) pio2Hi q
  let r := fFma f32 (fNeg k) pio2Lo r
  let r2 := fMul f32 r r
  let ps := fFma f32 r2 sinS3 sinS2
  let ps := fFma f32 r2 ps sinS1
  let sn := fFma f32 (fMul f32 r2 r) ps r
  let pc := fFma f32 r2 cosC4 cosC3
  let pc := fFma f32 r2 pc cosC2
  let pc := fFma f32 r2 pc cosC1
  let cs := fFma f32 r2 pc fOne
  match (fToIntRne k % 4).toNat with
  | 0 => (sn, cs)
  | 1 => (cs, fNeg sn)
  | 2 => (fNeg sn, fNeg cs)
  | _ => (fNeg cs, sn)

/-- A 3 × 4 transform: entries 4r + c, the translation in column 3. -/
abbrev Tf := List FV

/-- Entry of a transform. -/
def Tf.at (t : Tf) (r c : Nat) : FV := t.getD (4 * r + c) fZero

/-- A transform from 12 encodings (R97, R98). -/
def tfOf (w : List Nat) : Tf := (List.range 12).map fun i => fOfBits f32 (w.getD i 0)

/-- T × F (R115). -/
def tfMul (t f : Tf) : Tf :=
  (List.range 12).map fun i =>
    let r := i / 4; let c := i % 4
    if c < 3 then fFma f32 (t.at r 2) (f.at 2 c) (fFma f32 (t.at r 1) (f.at 1 c) (fMul f32 (t.at r 0) (f.at 0 c)))
    else fFma f32 (t.at r 2) (f.at 2 3) (fFma f32 (t.at r 1) (f.at 1 3) (fFma f32 (t.at r 0) (f.at 0 3) (t.at r 3)))

/-- The action of a joint after its fixed transform (R115). -/
def tfJoint (jt : Nat) (q : FV) (t : Tf) : Tf :=
  if jt = 0 then
    let (s, c) := sinCos q
    (List.range 12).map fun i =>
      let r := i / 4
      let a := t.at r 0; let b := t.at r 1
      match i % 4 with
      | 0 => fFma f32 b s (fMul f32 a c)
      | 1 => fFma f32 (fNeg a) s (fMul f32 b c)
      | k => t.at r k
  else (List.range 12).map fun i =>
    let r := i / 4
    if i % 4 = 3 then fFma f32 (t.at r 2) q (t.at r 3) else t.at r (i % 4)

/-- Link frames 1 to AXES from frame `t` on, for the remaining joints (R115). -/
def linkFrom (m : Mech) (q : List FV) : Tf → List Nat → List Tf
  | _, [] => []
  | t, i :: r =>
    let t := tfJoint (m.jtype.getD i 0) (q.getD i fZero) (tfMul t (tfOf (m.chain.getD i [])))
    t :: linkFrom m q t r

/-- Link frames 0 to AXES of a pose (R115). -/
def links (m : Mech) (q : List FV) : List Tf := tfOf m.base :: linkFrom m q (tfOf m.base) (List.range m.axes)

/-- A placed sphere in the field frame, 1/64 mm (R116). -/
structure PSph where
  x : Int
  y : Int
  z : Int
  r : Nat
  deriving DecidableEq, Repr

/-- The cell-frame coordinates of a sphere centre (R116). -/
def centre (l : Tf) (s : SphRec) : List FV :=
  (List.range 3).map fun r =>
    fFma f32 (l.at r 2) (fOfBits f32 s.z) (fFma f32 (l.at r 1) (fOfBits f32 s.y) (fFma f32 (l.at r 0) (fOfBits f32 s.x) (l.at r 3)))

/-- A coordinate in 1/64 mm of the field frame (R116). -/
def fieldCoord (x : FV) (o : Int) : Int := sat32 (sat32 (fToIntRne (fMulX x (fOfNat 64))) - o)

/-- The placed spheres of one pose, in record order; none when a value formed for the pose is not finite (R113, R116). -/
def placePose (m : Mech) (lay : FieldLayout) (sweepPad : Nat) (q : List FV) : Option (List PSph) :=
  let ls := links m q
  let cs := m.tree.map fun s => (s, centre (ls.getD s.link []) s)
  if ls.all (·.all fFinite) && cs.all (·.2.all fFinite) then
    some (cs.map fun (s, c) =>
      { x := fieldCoord (c.getD 0 fZero) lay.ox, y := fieldCoord (c.getD 1 fZero) lay.oy, z := fieldCoord (c.getD 2 fZero) lay.oz,
        r := min 65535 (s.radius + m.pad + sweepPad) })
  else none

/-- The joint values of pose `k` (1 to 8) of a lattice candidate (R113). -/
def latticeQ (m : Mech) (p : Prim) (incScale q0 : List Nat) (k : Nat) : List FV :=
  (List.range m.axes).map fun i =>
    fFma f32 (fOfInt (p.inc.getD (m.axes * (k - 1) + i) 0)) (fOfBits f32 (incScale.getD i 0)) (fOfBits f32 (q0.getD i 0))

/-- The joint values of a pose are finite and inside the limits (R113). -/
def inLimits (m : Mech) (q : List FV) : Bool :=
  q.all fFinite && (List.range m.axes).all fun i =>
    let v := q.getD i fZero
    !(fLt v (fOfBits f32 (m.qmin.getD i 0))) && !(fLt (fOfBits f32 (m.qmax.getD i 0)) v)

/-- The 8 poses of a candidate as placed spheres, or none on a limit failure (R113, R118). -/
def sweep (m : Mech) (lay : FieldLayout) (sweepPad : Nat) (qs : List (List FV)) : Option (List (List PSph)) :=
  if qs.all (inLimits m) then qs.mapM (placePose m lay sweepPad) else none

/-- The lane operations of a pose, F of the throughput rules (R119): a candidate issues for ceil(8F ÷ 64) cycles. -/
def laneOps (m : Mech) : Nat :=
  ((m.jtype.take m.axes).map fun j => if j = 0 then 61 else 40).sum + 9 * (1 + m.mid + m.leaf)

/-! ### Tests -/

/-- What the tests of a candidate have found so far. -/
structure Acc where
  min       : Int := 1000000000
  fieldHit  : Bool := false
  humanHit  : Bool := false
  humanNear : Bool := false
  mechHit   : Bool := false
  selfHit   : Bool := false
  coarsened : Bool := false
  planStale : Bool := false
  poison    : Bool := false
  negative  : Bool := false      -- a read found a negative mid or coarse value (R74)
  capped    : Bool := false
  analytic  : Nat := 0
  spheres   : Nat := 0
  acceptC   : Nat := 0
  acceptM   : Nat := 0
  forward   : Nat := 0
  fine      : Nat := 0
  mids      : List Nat := []     -- mid bricks probed, newest first, for the translation cache (R147)
  lines     : List Nat := []     -- store lines the Strainer read, newest first, for its cache (R147)
  dirty     : Bool := false      -- a sample or cell read lies in a dirty brick of the epoch (R89)
  deriving DecidableEq, Repr

/-- A contribution to the minimum clearance (R139). -/
def Acc.put (a : Acc) (c : Int) : Acc := { a with min := Min.min a.min c }

/-- The cell index of a position at a level of edge `w` in 1/64 mm (R68). -/
def cellIx (w : Int) (p : Int) : Int := p.fdiv w

/-- One Strainer test (R125): whether the sphere is accepted, and what is found. -/
def strain (v : FieldView) (c : CheckList) (s : PSph) (a : Acc) : Bool × Acc :=
  if a.poison then (true, a) else
  let i := cellIx 10240 s.x; let j := cellIx 10240 s.y; let k := cellIx 10240 s.z
  if v.coarseBad i j k then (true, { a with poison := true }) else
  let a := { a with spheres := a.spheres + 1, negative := a.negative || v.coarseNeg i j k, lines := (v.coarseLines i j k).reverse ++ a.lines,
                    dirty := a.dirty || (decide (0 ≤ i ∧ 0 ≤ j ∧ 0 ≤ k) && v.coarseBrickDirty (i.toNat / 8 + 16 * (j.toNat / 8) + 256 * (k.toNat / 8))) }
  let lb : Int := 64 * v.coarse i j k - s.r - c.mField
  if 0 < lb then (true, { a with acceptC := a.acceptC + 1 }.put lb) else
  let i := cellIx 2560 s.x; let j := cellIx 2560 s.y; let k := cellIx 2560 s.z
  if v.midBad i j k then (true, { a with poison := true }) else
  let y := v.mid i j k
  let a := { a with coarsened := a.coarsened || y.coarsened, negative := a.negative || v.midNeg i j k, lines := (v.midLines i j k).reverse ++ a.lines,
                    dirty := a.dirty || (decide (0 ≤ i ∧ 0 ≤ j ∧ 0 ≤ k) && v.midBrickDirty (mbNum (i.toNat / 8) (j.toNat / 8) (k.toNat / 8))) }
  let lb : Int := 64 * y.val - s.r - c.mField
  if 0 < lb then (true, { a with acceptM := a.acceptM + 1 }.put lb) else (false, a)

/-- One fine probe of a leaf (R127, R129); a poisoned read ends the tests (R140). DESIGN CHOICE (log entry 182): each sample of the group inside
the declared volume looks its mid brick up in the translation cache, absent or not; one outside looks up nothing (R147). -/
def fineProbe (v : FieldView) (c : CheckList) (s : PSph) (a : Acc) : Acc :=
  if a.poison then a else
  let ax (p : Int) : Int × Int := let u := p - 320; let i0 := u.fdiv 640; (i0, u - 640 * i0)
  let (ix, fx) := ax s.x; let (iy, fy) := ax s.y; let (iz, fz) := ax s.z
  let wt (f : Int) (b : Nat) : Int := if b = 0 then 640 - f else f
  let group := (cube 2).map fun (p, q, r) =>
    let i := ix + p; let j := iy + q; let k := iz + r
    (v.fine i j k, wt fx p * wt fy q * wt fz r, v.fineBad i j k, i, j, k)
  if group.any (fun g => g.2.2.1) then { a with poison := true } else
  let V := (group.map fun g => g.1.val * g.2.1).sum
  let cl : Int := V.fdiv 4096000 - 555 - s.r
  let ins := group.filter fun (_, _, _, i, j, k) =>
    decide (0 ≤ i ∧ i < 16 * v.nx ∧ 0 ≤ j ∧ j < 16 * v.ny ∧ 0 ≤ k ∧ k < 16 * v.nz)
  let mids := (ins.map fun (_, _, _, i, j, k) => mbNum (i.toNat / 32) (j.toNat / 32) (k.toNat / 32)).eraseDups
  let a := { a with
    negative := a.negative || ins.any fun (_, _, _, i, j, k) => v.fineNeg i j k
    coarsened := a.coarsened || group.any fun g => g.1.coarsened && g.2.1 != 0
    fine := a.fine + 1
    mids := mids.reverse ++ a.mids
    fieldHit := a.fieldHit || decide (cl - c.mField ≤ 0)
    dirty := a.dirty || group.any fun (_, _, _, i, j, k) =>
      decide (0 ≤ i ∧ 0 ≤ j ∧ 0 ≤ k) && v.finePosDirty (i.toNat / 8) (j.toNat / 8) (k.toNat / 8) }
  a.put (cl - c.mField)

/-- The leaves of a pose under parent `p`, in record order. -/
def leavesUnder (m : Mech) (pose : List PSph) (p : Nat) : List PSph :=
  ((pose.zip m.tree).drop (1 + m.mid)).filterMap fun (s, t) => if t.parent = p then some s else none

/-- The mid spheres of a pose with their record numbers; the root itself when MID is 0 (R133). -/
def midsOf (m : Mech) (pose : List PSph) : List (Nat × PSph) :=
  if m.mid = 0 then (pose.take 1).map fun s => (0, s)
  else ((pose.take (1 + m.mid)).zipIdx.drop 1).map fun (s, i) => (i, s)

/-- The field tests of a pose: descent through the sphere tree, then the fine probes of the forwarded leaves (R125 to
R127). -/
def fieldTests (v : FieldView) (m : Mech) (pose : List PSph) (a : Acc) : Acc :=
  match pose with
  | [] => a
  | root :: _ =>
    let (acc, a) := strain v m.check root a
    if acc then a else
    let fwd (a : Acc) (ls : List PSph) : Acc :=
      ls.foldl (fun a l => fineProbe v m.check l a) { a with forward := a.forward + ls.length }
    if m.mid = 0 then fwd a (leavesUnder m pose 0) else
    let (a, todo) := (midsOf m pose).foldl (fun (st : Acc × List PSph) e =>
      let (ok, a) := strain v m.check e.2 st.1
      (a, if ok then st.2 else st.2 ++ leavesUnder m pose e.1)) (a, [])
    fwd a todo

/-- |d| clamped to 2^23 − 1 (R130). -/
def clampD (d : Int) : Nat := Min.min d.natAbs 8388607

/-- The sphere to sphere clearance of R130. -/
def clSphere (c : PSph) (q : HSphere) : Int :=
  let x := clampD (c.x - q.x); let y := clampD (c.y - q.y); let z := clampD (c.z - q.z)
  (isqrt (x * x + y * y + z * z) : Int) - c.r - q.r

/-- A box: bounds on each axis. -/
structure Box where
  lo : List Int
  hi : List Int
  deriving DecidableEq, Repr

/-- The sphere to box clearance of R130. -/
def clBox (c : PSph) (b : Box) : Int :=
  let g (p : Int) (i : Nat) : Nat := clampD (max (max (b.lo.getD i 0 - p) (p - b.hi.getD i 0)) 0)
  let x := g c.x 0; let y := g c.y 1; let z := g c.z 2
  (isqrt (x * x + y * y + z * z) : Int) - c.r

/-- One analytic test under the cap of R137, unless poison has ended the tests: its clearance goes to `f`, unless the cap has struck. -/
def Acc.test (a : Acc) (c : Int) (f : Acc → Int → Acc) : Acc :=
  if a.capped || a.poison then a
  else if a.analytic = 1024 then { a with capped := true }
  else f { a with analytic := a.analytic + 1 } c

/-- The family of a nested test: humans or mechanisms. -/
inductive Family | human | mech
  deriving DecidableEq, Repr

/-- The margin of a family. -/
def Family.margin (f : Family) (c : CheckList) : Int := match f with | .human => c.mHuman | .mech => c.mMech

/-- The stop test of a family at the box levels (R133, R135). -/
def Family.stops (f : Family) (c : CheckList) (d : Int) : Bool :=
  match f with | .human => decide ((c.nearHuman : Int) ≤ d) | .mech => decide ((c.mMech : Int) < d)

/-- A contribution of a family. -/
def Family.put (f : Family) (c : CheckList) (a : Acc) (d : Int) : Acc :=
  let x := d - f.margin c
  match f with
  | .human => { a with humanHit := a.humanHit || decide (x ≤ 0) }.put x
  | .mech => { a with mechHit := a.mechHit || decide (x ≤ 0) }.put x

/-- The nested tests of R133 against one box and its spheres. -/
def nested (f : Family) (m : Mech) (pose : List PSph) (b : Box) (sph : List HSphere) (a : Acc) : Acc :=
  match pose with
  | [] => a
  | root :: _ =>
    let c := m.check
    let d := clBox root b
    let a0 := a.test d fun a d => if f.stops c d then f.put c a d else a
    if f.stops c d then a0 else
    (midsOf m pose).foldl (fun a e =>
      let d := clBox e.2 b
      let a1 := a.test d fun a d => if f.stops c d then f.put c a d else a
      if f.stops c d then a1 else
      (leavesUnder m pose e.1).foldl (fun a l => sph.foldl (fun a q =>
        a.test (clSphere l q) fun a d =>
          let a := f.put c a d
          match f with
          | .human => if d < c.nearHuman then { a with humanNear := true } else a
          | .mech => a) a) a1) a0

/-- The box that encloses spheres (R132); none for no sphere. -/
def boxOf (l : List HSphere) : Option Box :=
  match l with
  | [] => none
  | q :: r => some (r.foldl (fun b s =>
      { lo := [Min.min (b.lo.getD 0 0) (s.x - s.r), Min.min (b.lo.getD 1 0) (s.y - s.r), Min.min (b.lo.getD 2 0) (s.z - s.r)],
        hi := [max (b.hi.getD 0 0) (s.x + s.r), max (b.hi.getD 1 0) (s.y + s.r), max (b.hi.getD 2 0) (s.z + s.r)] })
      { lo := [q.x - q.r, q.y - q.r, q.z - q.r], hi := [q.x + q.r, q.y + q.r, q.z + q.r] })

/-- A plan block as the probe engine reads it (R134). -/
structure PlanBlock where
  mech    : Nat
  frameId : Nat
  valid   : Bool
  box     : Box
  spheres : List HSphere
  poison  : Bool := false
  deriving DecidableEq, Repr

/-- The plan block in 320 bytes (R134). -/
def decPlanBlock (mech : Nat) (b : List Byte) (poison : Bool) : PlanBlock :=
  { mech, frameId := leAt b 0 4, valid := (leAt b 5 1).testBit 0,
    box := { lo := [leAtS b 8 4, leAtS b 12 4, leAtS b 16 4], hi := [leAtS b 20 4, leAtS b 24 4, leAtS b 28 4] },
    spheres := (List.range (Min.min 16 (leAt b 4 1))).filterMap fun j =>
      let o := 0x40 + 16 * j
      let r := leAt b (o + 12) 2
      if (leAt b (o + 15) 1).testBit 0 && r != 0 then some { x := leAtS b o 4, y := leAtS b (o + 4) 4, z := leAtS b (o + 8) 4, r } else none,
    poison }

/-- The 320 bytes of a plan block (R134). -/
def encPlanBlock (frameId : Nat) (valid : Bool) (box : Box) (sph : List HSphere) : List Byte :=
  toLE 4 frameId ++ toLE 1 sph.length ++ toLE 1 (b2n valid) ++ zeros 2
  ++ (List.range 3).flatMap (fun i => intLE 4 (box.lo.getD i 0)) ++ (List.range 3).flatMap (fun i => intLE 4 (box.hi.getD i 0)) ++ zeros 32
  ++ padTo 256 (sph.flatMap fun s => intLE 4 s.x ++ intLE 4 s.y ++ intLE 4 s.z ++ toLE 2 s.r ++ toLE 1 0 ++ toLE 1 1)

/-- What the tests of a candidate read besides its poses: the field, the humans, and the plan table. Times in ns. -/
structure ChkEnv where
  view     : FieldView
  frame    : Nat                        -- FRAME_ID N of the candidate
  persons  : List Byte                  -- person table of the epoch
  spheres  : List Byte                  -- human sphere array of the epoch
  hbad     : Nat → Nat → Bool           -- what is read of a person for a slice is poisoned
  se       : Int                        -- window start of the master frame that built the epoch
  cN       : Int                        -- close of the frame's check window
  blocks   : Nat → Nat → PlanBlock      -- block (mechanism, bin) of the frame's copy

/-- The human tests of a pose at time `t` (R131, R133); a poisoned read ends the tests (R140). -/
def humanTests (e : ChkEnv) (m : Mech) (t : Int) (pose : List PSph) (a : Acc) : Acc :=
  let dt := t - e.se
  if a.poison then a
  else if 400000000 ≤ dt then
    if (List.range 16).any fun p => e.hbad p 8 then { a with poison := true }
    else if (validPersons e.persons).isEmpty then a else { a with humanHit := true }.put (-32768)
  else
    let k := (dt.fdiv 50000000).toNat
    (List.range 16).foldl (fun a p =>
      if a.poison then a
      else if e.hbad p k then { a with poison := true }
      else
        let sp := spheresOf e.persons e.spheres p k
        match boxOf sp with
        | none => a
        | some b => nested .human m pose b sp a) a

/-- The tests against the committed plans of the other mechanisms (R135). DESIGN CHOICE (log entry 183): plan blocks are read, and their poison
or stale FRAME_ID counts, also after the cap of R137 has struck, which ends analytic tests alone. -/
def mechTests (e : ChkEnv) (m : Mech) (t : Int) (pose : List PSph) (a : Acc) : Acc :=
  let j := ((t - e.cN).fdiv 5000000).toNat
  (List.range 16).foldl (fun a m' =>
    if m' = m.num ∨ 16 ≤ j ∨ a.poison then a else
    let b := e.blocks m' j
    if b.poison then { a with poison := true }
    else if !b.valid then a
    else if b.frameId != e.frame then { a with planStale := true }.put (-32768)
    else nested .mech m pose b.box b.spheres a) a

/-- The self-collision tests (R136). -/
def selfTests (m : Mech) (pose : List PSph) (a : Acc) : Acc :=
  m.check.pairs.foldl (fun a (i, j) =>
    match pose[i]?, pose[j]? with
    | some p, some q => a.test (clSphere p { x := q.x, y := q.y, z := q.z, r := q.r }) fun a d =>
        let x := d - m.check.mSelf
        { a with selfHit := a.selfHit || decide (x ≤ 0) }.put x
    | _, _ => a) a

/-- All tests of a candidate, pose by pose (R124); poses carry their times. -/
def runTests (e : ChkEnv) (m : Mech) (poses : List (Int × List PSph)) : Acc :=
  poses.foldl (fun a (t, pose) =>
    let a := fieldTests e.view m pose a
    let a := selfTests m pose a
    let a := humanTests e m t pose a
    mechTests e m t pose a) {}

/-! ### The verdict (R138, R139) -/

/-- A verdict: the fields of R138. -/
structure Verdict where
  candId   : Nat := 0
  cost     : Nat := 0
  epoch    : Nat := 0
  minClear : Int := 0
  ctx      : Nat := 0
  flags    : Nat := 0          -- bits [31:14] of CTX_FLAGS, in place
  deriving DecidableEq, Repr

/-- Flag bits of CTX_FLAGS (R138). -/
def vfCOLLIDED := 14
/-- R129. -/
def vfCOARSENED := 15
/-- R133. -/
def vfHUMAN_NEAR := 16
/-- R145. -/
def vfTRUNCATED := 17
/-- R138. -/
def vfREPLAYED := 18
/-- R138. -/
def vfFIELD_HIT := 19
/-- R131, R133. -/
def vfHUMAN_HIT := 20
/-- R135. -/
def vfMECH_HIT := 21
/-- R136. -/
def vfSELF_HIT := 22
/-- R113, R118. -/
def vfLIMIT := 23
/-- R118, R140. -/
def vfPOISON := 24
/-- R135. -/
def vfPLAN_STALE := 25
/-- R137. -/
def vfCAP := 26
/-- R138. -/
def vfRECHECK := 27
/-- R111. -/
def vfDEGRADED := 28

/-- A flag is set in a verdict. -/
def Verdict.has (v : Verdict) (f : Nat) : Bool := v.flags.testBit f

/-- The flag word of a list of flags with their conditions. -/
def flagWord (l : List (Nat × Bool)) : Nat := (l.map fun e => if e.2 then 2 ^ e.1 else 0).sum

/-- The verdict of the tests' findings (R139), before the flags that the candidate's kind adds. -/
def Acc.verdict (a : Acc) (candId ctx epoch : Nat) (extra : List (Nat × Bool)) : Verdict :=
  let forced := a.poison || a.planStale || a.capped
  let mn := if forced then -32768 else satInt (-32768) 32767 a.min
  { candId, epoch, ctx, minClear := mn,
    flags := flagWord ([(vfCOLLIDED, decide (mn ≤ 0) || forced), (vfCOARSENED, a.coarsened), (vfHUMAN_NEAR, a.humanNear),
      (vfFIELD_HIT, a.fieldHit), (vfHUMAN_HIT, a.humanHit), (vfMECH_HIT, a.mechHit), (vfSELF_HIT, a.selfHit),
      (vfPOISON, a.poison), (vfPLAN_STALE, a.planStale), (vfCAP, a.capped)] ++ extra) }

/-- A verdict that no test made: LIMIT, POISON or TRUNCATED, COLLIDED, and a minimum clearance of −32,768 (R118, R139,
R145). -/
def forcedVerdict (flag candId ctx epoch : Nat) (extra : List (Nat × Bool)) : Verdict :=
  { candId, epoch, ctx, minClear := -32768, flags := flagWord ([(vfCOLLIDED, true), (flag, true)] ++ extra) }

/-- The 16 bytes of a verdict (R138). -/
def Verdict.bytes (v : Verdict) : List Byte :=
  toLE 4 v.candId ++ toLE 4 v.cost ++ toLE 2 v.epoch ++ intLE 2 v.minClear ++ toLE 4 (v.ctx % 16384 + v.flags)

/-- The verdict in 16 bytes. -/
def decVerdict (b : List Byte) : Verdict :=
  let w := leAt b 12 4
  { candId := leAt b 0 4, cost := leAt b 4 4, epoch := leAt b 8 2, minClear := leAtS b 10 2, ctx := w % 16384, flags := w - w % 16384 }

/-! ### Hand-off records and start blocks (R102, R111) -/

/-- A hand-off record (R111). -/
structure HandRec where
  ctx      : Nat := 0
  degraded : Bool := false
  seq      : Nat := 0
  frameId  : Nat := 0
  costSeed : Nat := 0
  sweepPad : Nat := 0
  q        : List Nat := []        -- 96 binary32 encodings
  deriving DecidableEq, Repr

/-- The hand-off record in 512 bytes. -/
def decHandRec (b : List Byte) : HandRec :=
  { ctx := leAt b 0 2, degraded := (leAt b 2 2).testBit 0, seq := leAt b 4 4, frameId := leAt b 8 4, costSeed := leAt b 12 4,
    sweepPad := leAt b 16 2, q := words b 0x20 96 }

/-- The 512 bytes of a hand-off record. -/
def HandRec.bytes (h : HandRec) : List Byte :=
  padTo 512 (toLE 2 h.ctx ++ toLE 2 (b2n h.degraded) ++ toLE 4 h.seq ++ toLE 4 h.frameId ++ toLE 4 h.costSeed ++ toLE 2 h.sweepPad
    ++ zeros 14 ++ (List.range 96).flatMap fun i => toLE 4 (h.q.getD i 0))

/-- The joint values of pose `k` of a hand-off record. -/
def HandRec.pose (h : HandRec) (axes k : Nat) : List FV := (List.range axes).map fun i => fOfBits f32 (h.q.getD (12 * (k - 1) + i) 0)

/-- A start block (R102). -/
structure StartBlock where
  mech  : Nat := 0
  role  : Nat := 0
  lane  : Nat := 0
  lanes : Nat := 0
  cls   : Nat := 0
  frame : Nat := 0
  q0    : List Nat := []
  qd0   : List Nat := []
  deriving DecidableEq, Repr

/-- The start block in the first 128 bytes of a context. -/
def decStart (b : List Byte) : StartBlock :=
  { mech := leAt b 0 1, role := leAt b 1 1, lane := leAt b 2 2, lanes := leAt b 4 2, cls := leAt b 6 2, frame := leAt b 8 4,
    q0 := words b 0x10 12, qd0 := words b 0x40 12 }

/-- The fields the commit stage writes: class, frame, joint values and velocities, as (offset, bytes). -/
def startWrites (cls frame : Nat) (q0 qd0 : List Nat) : List (Nat × List Byte) :=
  [(6, toLE 2 cls ++ toLE 4 frame), (0x10, (List.range 12).flatMap fun i => toLE 4 (q0.getD i 0)),
   (0x40, (List.range 12).flatMap fun i => toLE 4 (qd0.getD i 0))]

end Sys2Proof.Machine
end

