-- ==== Sys2Proof/Machine/Solver.lean ====
section
/-! DEFINITION. The SOLVER section and problem images, and the arithmetic of the solver engine and of the smoothing and
time-scaling stage (06_trajectory_solver.md R151 to R173): binary64 with saturation, the banded factorisation with its
pivot rule, seeds, and the re-integration within the limits. -/

namespace Sys2Proof.Machine

/-- A context entry of the SOLVER section (R156). -/
structure SolverCtx where
  ctx      : Nat := 0
  engine   : Nat := 0
  image    : Nat := 0
  seeds    : List Nat := []      -- kinds in order: 1 WARM, 2 STOP, 3 HOST
  solveEnd : Nat := 0xFFFF
  tauExp   : Nat := 0
  maxIter  : Nat := 1
  workAddr : Nat := 0
  seedAddr : Nat := 0
  deriving DecidableEq, Repr

/-- The SOLVER section (R156). -/
structure SolverSec where
  imgs : List ImgRef := []
  ctxs : List SolverCtx := []
  deriving DecidableEq, Repr

/-- The eight nibbles of SEEDS. -/
def seedNibbles (w : Nat) : List Nat := (List.range 8).map fun i => w / 16 ^ i % 16

/-- The seed list: kinds up to the first 0. -/
def seedList (w : Nat) : List Nat := (seedNibbles w).takeWhile (· != 0)

/-- A SOLVER payload. -/
def decSolver (b : List Byte) : SolverSec :=
  let nc := min 8 (leAt b 0 2); let ni := min 8 (leAt b 2 2)
  { imgs := (List.range ni).map fun i => let o := 16 + 64 * i
      { addr := leAt b o 8, len := leAt b (o + 8) 8, digest := slice b (o + 16) 48 },
    ctxs := (List.range nc).map fun i => let o := 16 + 64 * ni + 64 * i
      { ctx := leAt b o 2, engine := leAt b (o + 2) 1, image := leAt b (o + 3) 1, seeds := seedList (leAt b (o + 4) 4),
        solveEnd := leAt b (o + 8) 2, tauExp := leAt b (o + 0xA) 1, maxIter := leAt b (o + 0xB) 1, workAddr := leAt b (o + 0x10) 8,
        seedAddr := leAt b (o + 0x18) 8 } }

/-- The own checks of SOLVER (R157). DESIGN CHOICE (log entry 189): an image address that is not 4 KiB aligned is no fault of any
sub-code and is accepted; a WORK_ADDR or SEED_ADDR that is not is refused as 0x0607. -/
def ownSolver (b : List Byte) : Option Bad :=
  let nc := leAt b 0 2; let ni := leAt b 2 2
  let sec := decSolver b
  firstBad [
    needF (decide (1 ≤ nc) && decide (nc ≤ 8)) 0x0601 0, needF (decide (1 ≤ ni) && decide (ni ≤ 8)) 0x0601 2,
    needF (zerosAt b 4 12) 0x0601 4, needF (b.length == 16 + 64 * (ni + nc)) 0x0601 0,
    firstOverI sec.ctxs fun i c =>
      let o := 16 + 64 * ni + 64 * i
      let w := leAt b (o + 4) 4
      firstBad [
        needF (!((sec.ctxs.take i).any (·.ctx == c.ctx))) 0x0602 o,
        needF (decide (c.engine < 32) && !((sec.ctxs.take i).any (·.engine == c.engine))) 0x0603 (o + 2),
        needF (decide (c.image < ni)) 0x0604 (o + 3),
        needF (!c.seeds.isEmpty && (seedNibbles w).all (decide <| · ≤ 3) && ((seedNibbles w).drop c.seeds.length).all (· == 0)
               && (!(c.seeds.contains 3) || c.seedAddr != 0)) 0x0605 (o + 4),
        needF (c.tauExp == 0 || (decide (4 ≤ c.tauExp) && decide (c.tauExp ≤ 52))) 0x0606 (o + 0xA),
        needF (decide (1 ≤ c.maxIter)) 0x0606 (o + 0xB),
        needF (zerosAt b (o + 0xC) 4) 0x0601 (o + 0xC),
        needF (c.workAddr % 4096 == 0) 0x0607 (o + 0x10), needF (c.seedAddr % 4096 == 0) 0x0607 (o + 0x18),
        needF (zerosAt b (o + 0x20) 32) 0x0601 (o + 0x20)]]

/-- A problem image header (R154); binary64 values are encodings. -/
structure ProbImg where
  method : Nat := 0
  axes   : Nat := 0
  tag    : Nat := 0
  n      : Nat := 0
  w      : Nat := 0
  kseg   : Nat := 8
  evalBound : Nat := 0
  asmBound  : Nat := 0
  meritBound : Nat := 0
  tol    : Nat := 0
  mu     : Nat := 0
  costScale : Nat := 0
  lever  : List Nat := []
  prog   : List Byte := []
  deriving DecidableEq, Repr

/-- A problem image (R154). -/
def decProbImg (b : List Byte) : ProbImg :=
  { method := leAt b 6 1, axes := leAt b 7 1, tag := leAt b 8 8, n := leAt b 0x10 2, w := leAt b 0x12 1, kseg := leAt b 0x13 1,
    evalBound := leAt b 0x14 4, asmBound := leAt b 0x18 4, meritBound := leAt b 0x1C 4, tol := leAt b 0x20 8, mu := leAt b 0x28 8,
    costScale := leAt b 0x30 8, lever := (List.range 12).map fun i => leAt b (0x38 + 8 * i) 8,
    prog := slice b (leAt b 0x98 8) (leAt b 0xA0 4) }

/-- The contents of a problem image against the mechanism that uses it (R154, R157); faults name the entry at `eo`. -/
def probImgCheck (b : List Byte) (eo : Nat) (m : Mech) : Option Bad :=
  let p := decProbImg b
  let n (ok : Bool) (o : Nat) : Option Bad := if ok then none else some { code := cSECTION_FORMAT, off := eo, sub := 0x0604, img := o }
  let bound (v : Nat) : Bool := decide (1 ≤ v) && decide (v ≤ 24000)
  let pos (v : Nat) : Bool := let x := fExact f64 v; fFinite x && fLt fZero x
  firstBad [
    n (decide (256 ≤ b.length)) 0, n (leAt b 0 4 == 0x4D425250) 0, n (leAt b 4 2 == 1) 4, n (decide (p.method ≤ 1)) 6, n (p.axes == m.axes) 7, n (p.tag == m.tag) 8,
    n (decide (p.w + 1 ≤ p.n) && decide (p.n ≤ 6144)) 0x10, n (decide (1 ≤ p.w) && decide (p.w ≤ 96)) 0x12,
    n ([8, 16, 32, 64].contains p.kseg) 0x13, n (bound p.evalBound) 0x14, n (bound p.asmBound) 0x18, n (bound p.meritBound) 0x1C,
    n (pos p.tol) 0x20, n (pos p.mu || fIsZero (fExact f64 p.mu)) 0x28, n (pos p.costScale) 0x30,
    n (p.lever.all fun v => fFinite (fOfBits f64 v)) 0x38,
    n (leAt b 0x98 8 % 64 == 0 && decide (leAt b 0x98 8 + leAt b 0xA0 4 ≤ b.length)) 0x98,
    n (zerosAt b 0xA4 92) 0xA4]

/-! ### Binary64 with saturation (R161, R162) -/

/-- A binary64 value with the sticky marks of the operations that formed it. -/
structure D where
  v   : FV := fZero
  ovf : Bool := false
  inv : Bool := false
  deriving DecidableEq, Repr

/-- The largest finite binary64. -/
def f64Max (neg : Bool) : FV := .fin neg (2 ^ 53 - 1) 971

/-- A result under R162: overflow saturates, an invalid operation gives +0. -/
def dRes (v : FV) (ovf inv : Bool) : D :=
  match v with
  | .inf n => { v := f64Max n, ovf := true, inv }
  | .nan => { v := fZero, ovf, inv := true }
  | v => { v, ovf, inv }

/-- A value from its encoding; an input that is not a normal number reads as a zero (R160, R161). -/
def dOf (bits : Nat) : D := match fOfBits f64 bits with | .fin n m e => { v := .fin n m e } | _ => {}
/-- A value held exactly. -/
def dV (v : FV) : D := { v }
/-- The encoding of a value. -/
def D.bits (a : D) : Nat := fToBits f64 a.v
/-- a + b. -/
def D.add (a b : D) : D := dRes (fAdd f64 a.v b.v) (a.ovf || b.ovf) (a.inv || b.inv)
/-- a − b. -/
def D.sub (a b : D) : D := dRes (fSub f64 a.v b.v) (a.ovf || b.ovf) (a.inv || b.inv)
/-- a × b. -/
def D.mul (a b : D) : D := dRes (fMul f64 a.v b.v) (a.ovf || b.ovf) (a.inv || b.inv)
/-- a × b + c, rounded once. -/
def D.fma (a b c : D) : D := dRes (fFma f64 a.v b.v c.v) (a.ovf || b.ovf || c.ovf) (a.inv || b.inv || c.inv)
/-- a ÷ b. -/
def D.div (a b : D) : D := dRes (fDiv f64 a.v b.v) (a.ovf || b.ovf) (a.inv || b.inv)
/-- The square root. -/
def D.sqrt (a : D) : D := dRes (fSqrt f64 a.v) a.ovf a.inv
/-- The negated value. -/
def D.neg (a : D) : D := { a with v := fNeg a.v }
/-- a < b. -/
def D.lt (a b : D) : Bool := fLt a.v b.v
/-- The magnitude. -/
def D.abs (a : D) : D := { a with v := fAbs a.v }

/-- The extended accumulator's format: 64 bits of significand (R161). -/
def fExt : FFmt := { p := 64, eb := 17, emin := -65534, emax := 65535 }

/-- An accumulator value less the products of two lists, in ascending index: each product and each addition rounded to 64
bits, the sum rounded once to binary64 (R161). DESIGN CHOICE (log entry 187): the entry A_ij or b_i is the value that the accumulator starts
from; the spec does not say whether it is a term of the sum. -/
def dotSub (a : D) (xs ys : List D) : D :=
  let acc := (xs.zip ys).foldl (fun acc p => fAdd fExt acc (fNeg (fMul fExt p.1.v p.2.v))) a.v
  dRes (fRound f64 acc) (a.ovf || xs.any (·.ovf) || ys.any (·.ovf)) (a.inv || xs.any (·.inv) || ys.any (·.inv))

/-! ### Banded factorisation (R163) -/

/-- A symmetric band matrix by rows: row j holds entries (j, j − W) to (j, j), zero where the column is below 0. -/
abbrev Band := List (List D)

/-- Entry (i, k) of the lower triangle of a band of half-bandwidth w. -/
def bandAt (w : Nat) (a : Band) (i k : Nat) : D := if k ≤ i ∧ i ≤ k + w then (a.getD i []).getD (k + w - i) {} else {}

/-- The flags of a factorisation, and how many pivots were regularised. -/
structure PivFlags where
  tiny : Bool := false
  zero : Bool := false
  negp : Bool := false
  count : Nat := 0
  first : Option Nat := none
  deriving DecidableEq, Repr

/-- t_j of R163: τ times the largest magnitude of row and column j, at least 2^−1022. -/
def pivotT (tauExp w n : Nat) (a : Band) (j : Nat) : FV :=
  let aj := ((List.range n).filter fun k => decide (k ≤ j + w) && decide (j ≤ k + w)).foldl
    (fun m k => fMax m (fAbs (if k ≤ j then bandAt w a j k else bandAt w a k j).v)) fZero
  let aj := if fIsZero aj then fOne else aj
  let t := match aj with | .fin n m e => FV.fin n m (e - tauExp) | v => v
  fMax t (.fin false 1 (-1022))

/-- A pivot after the table of R163, with the flags it raises. -/
def regularise (chol : Bool) (t : FV) (p : D) (j : Nat) (f : PivFlags) : D × PivFlags :=
  let note (f : PivFlags) : PivFlags := { f with count := f.count + 1, first := match f.first with | none => some j | s => s }
  if chol then
    if fLt p.v fZero then ({ p with v := t }, note { f with negp := true })
    else if fIsZero p.v then ({ p with v := t }, note { f with zero := true })
    else if fLt p.v t then ({ p with v := t }, note { f with tiny := true })
    else (p, f)
  else
    if fIsZero p.v then ({ p with v := t }, note { f with zero := true })
    else if fLt (fAbs p.v) t then ({ p with v := if fLt p.v fZero then fNeg t else t }, note { f with tiny := true })
    else (p, f)

/-- A factor under construction: rows of L so far (each from column j − W), the pivots (d_j, or l_jj for Cholesky), their
reciprocals, and the flags. -/
structure Factor where
  l     : List (List D) := []
  piv   : List D := []
  rcp   : List D := []
  flags : PivFlags := {}
  deriving DecidableEq, Repr

/-- Entry (i, k) of the strictly lower part of the factor. -/
def Factor.at (f : Factor) (w i k : Nat) : D := if k < i ∧ i ≤ k + w then (f.l.getD i []).getD (k + w - i) {} else {}

/-- Row `i` of the factor: its entries against every earlier pivot, then its own pivot (R161, R163). DESIGN CHOICE (log entry 187): in L D Lᵀ a
term is L_ik × (L_jk × d_k), with L_jk × d_k rounded to binary64 first; the spec gives no association. -/
def factorRow (chol : Bool) (tauExp w n : Nat) (a : Band) (f : Factor) (i : Nat) : Factor :=
  let lo := i - w
  let row := (List.range (i - lo)).foldl (fun (r : List D) off =>
    let k := lo + off
    -- entries (i, lo) to (i, k − 1) stand in r; those of row k come from f
    let xs := (List.range (k - lo)).map fun o => r.getD (o + (w - (i - lo))) {}
    let ys := (List.range (k - lo)).map fun o => let c := lo + o
      if chol then f.at w k c else (f.at w k c).mul (f.piv.getD c {})
    r ++ [(dotSub (bandAt w a i k) xs ys).mul (f.rcp.getD k {})]) (List.replicate (w - (i - lo)) {})
  let xs := (List.range (i - lo)).map fun o => row.getD (o + (w - (i - lo))) {}
  let ys := (List.range (i - lo)).map fun o => if chol then xs.getD o {} else (xs.getD o {}).mul (f.piv.getD (lo + o) {})
  let p := dotSub (bandAt w a i i) xs ys
  let (p, fl) := regularise chol (pivotT tauExp w n a i) p i f.flags
  let p := if chol then p.sqrt else p
  { l := f.l ++ [row], piv := f.piv ++ [p], rcp := f.rcp ++ [(dV fOne).div p], flags := fl }

/-- The factor of a band matrix of order n (R163). -/
def factor (chol : Bool) (tauExp w n : Nat) (a : Band) : Factor :=
  (List.range n).foldl (factorRow chol tauExp w n a) {}

/-- The solution of the factored system: the forward pass, the diagonal, the backward pass (R161). -/
def solveBand (chol : Bool) (w n : Nat) (f : Factor) (b : List D) : List D :=
  let y := (List.range n).foldl (fun (y : List D) i =>
    let lo := i - w
    let xs := (List.range (i - lo)).map fun o => f.at w i (lo + o)
    let v := dotSub (b.getD i {}) xs ((y.drop lo))
    y ++ [if chol then v.mul (f.rcp.getD i {}) else v]) []
  let z := if chol then y else (y.zip f.rcp).map fun p => p.1.mul p.2
  (List.range n).foldl (fun (x : List D) r =>
    let i := n - 1 - r
    let cnt := min w r
    let xs := (List.range cnt).map fun o => f.at w (i + 1 + o) i
    let v := dotSub (z.getD i {}) xs x
    (if chol then v.mul (f.rcp.getD i {}) else v) :: x) []

/-! ### Trajectories and seeds (R159, R165, R169) -/

/-- The state of one axis at a knot: position, velocity, acceleration. -/
structure Knot where
  p : D := {}
  v : D := {}
  a : D := {}
  deriving DecidableEq, Repr

/-- An iterate: the knots (knot 0 to KSEG, axis by axis) and the jerks (segment by segment, axis by axis). -/
structure Iter where
  knots : List Knot := []
  jerks : List D := []
  deriving DecidableEq, Repr

/-- 10^−6 as binary64. -/
def micro : D := dOf 0x3EB0C6F7A0B5ED8D

/-- The segment length h of R165: (DUR_US ÷ KSEG) × 10^−6. -/
def segLen (durUs kseg : Nat) : D := ((dV (fOfNat durUs)).div (dV (fOfNat kseg))).mul micro

/-- The constants of a segment: H2 = (h × h) × 0.5 and H3 = (h × H2) ÷ 3 (R169). -/
def segH2 (h : D) : D := (h.mul h).mul (dV (.fin false 1 (-1)))
/-- R169. -/
def segH3 (h : D) : D := (h.mul (segH2 h)).div (dV (fOfNat 3))

/-- One segment of one axis under jerk j: the a', v', p' lines of R169. -/
def advance (h : D) (k : Knot) (j : D) : Knot :=
  { a := D.fma j h k.a, v := D.fma j (segH2 h) (D.fma k.a h k.v),
    p := D.fma j (segH3 h) (D.fma k.a (segH2 h) (D.fma k.v h k.p)) }

/-- The knots that jerks give from knot 0, all axes (R159). -/
def integrate (h : D) (axes : Nat) : List Knot → List (List D) → List Knot
  | k0, [] => k0
  | k0, js :: r => k0 ++ integrate h axes ((k0.zip js).map fun e => advance h e.1 e.2) r

/-- The jerks of an iterate by segments. -/
def bySegment (axes kseg : Nat) (js : List D) : List (List D) := (List.range kseg).map fun m => (js.drop (axes * m)).take axes

/-- The STOP seed (R159). -/
def stopSeed (axes kseg : Nat) (k0 : List Knot) : Iter :=
  { knots := k0 ++ (List.range kseg).flatMap fun _ => k0.map fun k => { p := k.p }, jerks := List.replicate (axes * kseg) {} }

/-- The old segment whose jerk new segment m of a WARM seed takes: floor(((m + 0.5) × h + Ps) ÷ h) (R159). -/
def warmIndex (h ps : D) (m : Nat) : Int :=
  fFloor ((((((dV (fOfNat m)).add (dV (.fin false 1 (-1)))).mul h).add ps).div h).v)

/-- The WARM seed from the jerks of a trajectory record (R159). -/
def warmSeed (axes kseg : Nat) (h ps : D) (k0 : List Knot) (old : List D) : Iter :=
  let js := (List.range kseg).flatMap fun m =>
    let o := warmIndex h ps m
    (List.range axes).map fun i => if 0 ≤ o ∧ o < kseg then old.getD (axes * o.toNat + i) {} else {}
  { knots := integrate h axes k0 (bySegment axes kseg js), jerks := js }

/-- The HOST seed in a seed buffer (R160); the second component is whether a NaN, infinity or subnormal was read as +0. -/
def hostSeed (axes kseg : Nat) (k0 : List Knot) (b : List Byte) : Iter × Bool :=
  let rd (o : Nat) : D × Bool :=
    let w := leAt b o 8
    let ex := w / 2 ^ 52 % 2048
    if ex = 2047 ∨ (ex = 0 ∧ w % 2 ^ 52 ≠ 0) then ({}, true) else (dOf w, false)
  let all := (List.range (axes * (kseg + 1))).map fun i => let o := 0x40 + 24 * i; (rd o, rd (o + 8), rd (o + 16))
  let ks := all.drop axes
  let js := (List.range (axes * kseg)).map fun i => rd (0x40 + 24 * axes * (kseg + 1) + 8 * i)
  ({ knots := k0 ++ ks.map fun k => { p := k.1.1, v := k.2.1.1, a := k.2.2.1 }, jerks := js.map (·.1) },
   all.any (fun k => k.1.2 || k.2.1.2 || k.2.2.2) || js.any (·.2))

/-- The elements of an iterate in a row, as the step vector meets them. -/
def Iter.elems (x : Iter) : List D := (x.knots.flatMap fun k => [k.p, k.v, k.a]) ++ x.jerks

/-- An iterate from its elements. -/
def Iter.ofElems (nk : Nat) (l : List D) : Iter :=
  { knots := (List.range nk).map fun i => { p := l.getD (3 * i) {}, v := l.getD (3 * i + 1) {}, a := l.getD (3 * i + 2) {} },
    jerks := l.drop (3 * nk) }

/-- y = fma(α, d, x), element by element (R165). -/
def Iter.step (alpha : D) (d : List D) (x : Iter) : Iter :=
  Iter.ofElems x.knots.length (x.elems.zipIdx.map fun (v, i) => D.fma alpha (d.getD i {}) v)

/-! ### Smoothing and time-scaling (R169 to R171) -/

/-- The limits of one axis in binary64. -/
structure AxLim where
  vmax : D
  amax : D
  jmax : D
  deriving DecidableEq, Repr

/-- VM = VMAX − (JMAX × h × h) ÷ 8 (R169). -/
def AxLim.vm (l : AxLim) (h : D) : D := l.vmax.sub (((l.jmax.mul h).mul h).div (dV (fOfNat 8)))

/-- An FP32 encoding taken exactly to binary64. -/
def d32 (w : Nat) : D := match fExact f32 w with | .fin n m e => { v := .fin n m e } | _ => {}

/-- The jerk that keeps the limits: the first five lines of R169. -/
def shapeJerk (l : AxLim) (h : D) (k : Knot) (u : D) : D :=
  let rj := (dV fOne).div ((dV (fOfNat 2)).mul l.jmax)
  let vm := l.vm h
  let j : D := { u with v := fMin l.jmax.v (fMax (fNeg l.jmax.v) u.v) }
  let a1 := D.fma j h k.a
  let v1 := D.fma j (segH2 h) (D.fma k.a h k.v)
  let j1 := if D.lt {} a1 && vm.lt (D.fma a1 (a1.mul rj) v1) then l.jmax.neg else j
  let j2 := if a1.lt {} && (D.fma a1.neg (a1.mul rj) v1).lt vm.neg then l.jmax else j1
  let a2 := D.fma j2 h k.a
  let j3 := if l.amax.lt a2 then (l.amax.sub k.a).div h else j2
  if a2.lt l.amax.neg then (l.amax.neg.sub k.a).div h else j3

/-- The trajectory re-integrated within the limits: the knots, the jerks used, whether any differs, and whether a check of
R170 failed. -/
structure Smooth where
  knots  : List Knot := []
  jerks  : List D := []
  shaped : Bool := false
  failed : Bool := false
  deriving DecidableEq, Repr

/-- Segment by segment from the current knot of each axis (R169, R170). -/
def smoothFrom (lims : List AxLim) (h : D) : List Knot → List (List D) → Smooth
  | k0, [] => { knots := k0 }
  | k0, us :: r =>
    let seg := (k0.zip (us.zip lims)).map fun (k, u, l) =>
      let j := shapeJerk l h k u
      let k' := advance h k j
      (j, k', D.lt j u || D.lt u j, ((l.vm h).lt k'.v.abs || l.amax.lt k'.a.abs))
    let rest := smoothFrom lims h (seg.map fun e => e.2.1) r
    { knots := k0 ++ rest.knots, jerks := (seg.map (·.1)) ++ rest.jerks, shaped := seg.any (fun e => e.2.2.1) || rest.shaped,
      failed := seg.any (fun e => e.2.2.2) || rest.failed }

/-- ceil of a finite value that is zero or above. -/
def fCeil (v : FV) : Int := -(fFloor (fNeg v))

/-- SWEEP_PAD of R171 from the smoothed knots. -/
def smoothPad (axes kseg : Nat) (h : D) (lims : List AxLim) (lever : List Nat) (knots : List Knot) : Int :=
  let at_ (m i : Nat) : D := (knots.getD (axes * m + i) {}).p
  let per := kseg / 8
  let sums := (List.range 8).map fun k =>
    (List.range axes).foldl (fun (s : D) i =>
      let d := (List.range (per + 1)).foldl (fun (mx : FV) o => fMax mx ((at_ (k * per + o) i).sub (at_ (k * per) i)).abs.v) fZero
      let dik := (dV d).add (((lims.getD i ⟨{}, {}, {}⟩).vmax.mul h).div (dV (fOfNat 2)))
      s.add ((dOf (lever.getD i 0)).mul dik)) {}
  fCeil (fMulX (fOfNat 64) (sums.foldl (fun m s => fMax m s.v) fZero))

/-- COST_SEED of R171: floor(f × COST_SCALE) within 32 bits. -/
def costSeedOf (f scale : D) : Nat := (satInt 0 0xFFFFFFFF (fFloor (f.mul scale).v)).toNat

/-- A binary64 value rounded to FP32. -/
def toF32 (a : D) : Nat := fToBits f32 a.v

/-- The 8 KB trajectory record (R172). -/
def trajBytes (frame ctx : Nat) (degraded shaped : Bool) (seq kseg : Nat) (resid merit h : Nat) (axes : Nat) (k0 : List Knot) (js : List D) :
    List Byte :=
  let col (f : Knot → D) : List Byte := padTo 96 (k0.flatMap fun k => toLE 8 (f k).bits)
  padTo 8192 (toLE 4 frame ++ toLE 2 ctx ++ toLE 2 (b2n degraded + 2 * b2n shaped) ++ toLE 4 seq ++ toLE 1 kseg ++ zeros 3
    ++ toLE 8 resid ++ toLE 8 merit ++ toLE 8 h ++ zeros 24 ++ col (·.p) ++ col (·.v) ++ col (·.a)
    ++ (List.range kseg).flatMap fun m => padTo 96 ((List.range axes).flatMap fun i => toLE 8 (js.getD (axes * m + i) {}).bits))

end Sys2Proof.Machine
end

