-- ==== Sys2Proof/Machine/Commit.lean ====
section
/-! DEFINITION. Costs, the selection of a row, retained lists, commit records, the motion of a plan and of its Saucer, and
envelopes (07_selection_and_commit.md R177 to R201) as functions. -/

namespace Sys2Proof.Machine

/-! ### Cost and goal blocks (R177 to R179) -/

/-- A goal block (R178). FP32 values are encodings. -/
structure Goal where
  bounded   : Bool := false
  k         : Nat := 4
  shift     : Nat := 20
  wSeed     : Nat := 1
  wClear    : Nat := 0
  clearRef  : Nat := 0
  nearPen   : Nat := 0
  coarsePen : Nat := 0
  degrPen   : Nat := 0
  goal      : List Nat := List.replicate 12 0
  wGoal     : List Nat := List.replicate 12 0
  deriving DecidableEq, Repr

/-- The goal block of mechanism m for frame F in 128 bytes, or none where R179 replaces it. -/
def decGoal (b : List Byte) (frame mech : Nat) : Option Goal :=
  let mode := leAt b 5 1; let k := leAt b 6 1; let shift := leAt b 7 1
  let wg := words b 0x50 12
  let ok := leAt b 0 4 == frame && leAt b 4 1 == mech && decide (mode ≤ 1) && decide (1 ≤ k) && decide (k ≤ 16) && decide (shift ≤ 20)
    && decide (leAt b 0xC 2 ≤ 32767) && zerosAt b 0xE 2 && zerosAt b 0x1C 4
    && wg.all fun w => let v := fExact f32 w; fFinite v && !(fLt v fZero)
  if ok then some { bounded := mode == 1, k, shift, wSeed := leAt b 8 2, wClear := leAt b 0xA 2, clearRef := leAt b 0xC 2,
                    nearPen := leAt b 0x10 4, coarsePen := leAt b 0x14 4, degrPen := leAt b 0x18 4, goal := words b 0x20 12, wGoal := wg }
  else none

/-- COST of R177; q8 are the joint values of pose 8. -/
def costOf (g : Goal) (v : Verdict) (costSeed axes : Nat) (q8 : List FV) : Nat :=
  if v.has vfCOLLIDED then 0xFFFFFFFF else
  let c := g.wSeed * costSeed
  let c := if v.minClear < g.clearRef then c + g.wClear * ((g.clearRef : Int) - v.minClear).toNat else c
  let c := if v.has vfHUMAN_NEAR then c + g.nearPen else c
  let c := if v.has vfCOARSENED then c + g.coarsePen else c
  let c := if v.has vfDEGRADED then c + g.degrPen else c
  let s := (List.range axes).foldl (fun s i =>
    fFma f32 (fOfBits f32 (g.wGoal.getD i 0)) (fAbs (fSub f32 (q8.getD i fZero) (fOfBits f32 (g.goal.getD i 0)))) s) fZero
  let c := c + (if fFinite s then (fFloor s).toNat else 0xFFFFFFFE)
  min c 0xFFFFFFFE

/-! ### Selection of a row (R180 to R185) -/

/-- An entry of a list: the verdict, the core that produced it, and the SUSPECT mark. -/
structure SelEntry where
  v       : Verdict := {}
  source  : Nat := 0xFF
  suspect : Bool := false
  deriving DecidableEq, Repr

/-- The input index I (R180). -/
def inputIndex (v : Verdict) : Nat := v.candId * 16384 + v.ctx

/-- The bucket of a cost (R181). -/
def bucket (shift c : Nat) : Nat := min 4095 (c / 2 ^ shift)

/-- The rank goes by cost for this entry (R181). -/
def byCost (g : Goal) (c : Nat) : Bool := !g.bounded || (bucket g.shift c == 4095 && decide (g.shift < 20))

/-- The rank key (R181): the cost in EXACT and in the open last bucket, else the bucket. Keys of one bucket compare equal or
by cost. -/
def rankKey (g : Goal) (c : Nat) : Nat := if byCost g c then c else bucket g.shift c

/-- Where an entry stands in the rank order: bucket first when BOUNDED, then its cost where rank goes by cost. -/
def rankPos (g : Goal) (v : Verdict) : Nat :=
  if g.bounded then bucket g.shift v.cost * 2 ^ 32 + (if byCost g v.cost then v.cost else 0) else v.cost

/-- A selection: a partial or retained list before it is laid out in bytes (R182, R183, R186). -/
structure SelList where
  entries  : List SelEntry := []      -- in rank order
  ties     : Nat := 0
  rowValid : Nat := 0
  dup      : Bool := false
  deriving DecidableEq, Repr

/-- What a merge found: agreeing and disagreeing duplicates, and the copies kept and discarded of those that disagree. -/
structure DupCount where
  agree    : Nat := 0
  disagree : Nat := 0
  pairs    : List (SelEntry × SelEntry) := []
  deriving DecidableEq, Repr

/-- Duplicates removed from entries in rank order (R183): the first copy stands, marked when a later one differs. -/
def dedup : List SelEntry → List SelEntry × DupCount
  | [] => ([], {})
  | e :: r =>
    let (rest, n) := dedup r
    let same := rest.filter fun x => inputIndex x.v == inputIndex e.v
    if same.isEmpty then (e :: rest, n) else
    let bad := same.filter fun x => x.v != e.v
    ({ e with suspect := e.suspect || !bad.isEmpty || same.any (·.suspect) } :: rest.filter (fun x => inputIndex x.v != inputIndex e.v),
     { agree := n.agree + (same.length - bad.length), disagree := n.disagree + bad.length,
       pairs := bad.map (e, ·) ++ n.pairs })

/-- The boundary key of a list that holds K entries; none when it holds fewer. -/
def boundaryKey (g : Goal) (l : List SelEntry) : Option Nat :=
  if l.length < g.k then none else some ((l.map fun e => rankPos g e.v).foldl max 0)

/-- Lists of one row merged (R184, R185): the first K of all entries in rank order, the ties of the row, and its count. -/
def mergeLists (g : Goal) (ls : List SelList) : SelList × DupCount :=
  let all := sortBy (fun e : SelEntry => (rankPos g e.v, inputIndex e.v)) (ls.flatMap (·.entries))
  let (u, n) := dedup all
  let sel := u.take g.k
  let b := boundaryKey g sel
  let out := (u.drop g.k).filter fun e => some (rankPos g e.v) == b
  let carried := (ls.filter fun l => (boundaryKey g l.entries).isSome && boundaryKey g l.entries == b).map (·.ties)
  ({ entries := sel, ties := out.length + carried.sum, rowValid := (ls.map (·.rowValid)).sum - (n.agree + n.disagree),
     dup := ls.any (·.dup) || decide (0 < n.disagree) }, n)

/-- A piece as lists of one entry each: the valid entries of a mechanism (R180). -/
def pieceLists (es : List SelEntry) : List SelList :=
  (es.filter fun e => !(e.v.has vfCOLLIDED)).map fun e => { entries := [e], rowValid := 1 }

/-- The padding verdict of R186. -/
def padVerdict (epoch : Nat) : Verdict :=
  { candId := 0xFFFFFFFF, cost := 0xFFFFFFFF, epoch, minClear := -32768, ctx := 0, flags := 0x4000 }

/-- The 512 bytes of a list (R186); the entries in ascending COST and then I. -/
def listBytes (frame mech epoch : Nat) (g : Goal) (late : Bool) (l : SelList) : List Byte :=
  let es := sortBy (fun e : SelEntry => (e.v.cost, inputIndex e.v)) l.entries
  let pad := g.k - es.length
  toLE 4 frame ++ toLE 1 mech ++ toLE 1 (b2n g.bounded) ++ toLE 1 g.k ++ toLE 1 es.length
  ++ toLE 2 (b2n (l.ties != 0) + 2 * b2n l.dup + 4 * b2n late)
  ++ toLE 2 ((es.zipIdx.map fun (e, i) => if e.suspect then 2 ^ i else 0).sum)
  ++ toLE 4 (min l.ties 0xFFFFFFFF) ++ toLE 4 (min l.rowValid 0xFFFFFFFF) ++ zeros 12
  ++ padTo 256 ((es.flatMap fun e => e.v.bytes) ++ (List.range pad).flatMap fun _ => (padVerdict epoch).bytes)
  ++ padTo 16 ((es.map fun e => BitVec.ofNat 8 e.source) ++ List.replicate pad 0xFF#8) ++ zeros 0xD0

/-- A list read back from its 512 bytes. -/
def decList (b : List Byte) : SelList :=
  let n := min 16 (leAt b 7 1)
  { entries := (List.range n).map fun i =>
      { v := decVerdict (slice b (0x20 + 16 * i) 16), source := leAt b (0x120 + i) 1, suspect := (leAt b 0xA 2).testBit i },
    ties := leAt b 0xC 4, rowValid := leAt b 0x10 4, dup := (leAt b 8 2).testBit 1 }

/-! ### Commit records (R201) -/

/-- A commit record. -/
structure CommitRec where
  frame  : Nat := 0
  mech   : Nat := 0
  kind   : Nat := 3
  entry  : Nat := 0xFF
  candId : Nat := 0xFFFFFFFF
  ctx    : Nat := 0
  durUs  : Nat := 0
  tHalf  : Nat := 0
  b      : Nat := 0
  h      : Nat := 0
  q0     : List Nat := []
  qd0    : List Nat := []
  poses  : List Nat := []           -- 96 encodings
  placed : List (List HSphere) := []-- samples 0 to 8: root and mid spheres
  traj   : List Byte := []          -- 6,496 bytes
  deriving DecidableEq, Repr

/-- A placed sphere in the layout of the human sphere record (R201). -/
def hsBytes (s : HSphere) : List Byte := intLE 4 s.x ++ intLE 4 s.y ++ intLE 4 s.z ++ toLE 2 s.r ++ toLE 1 0 ++ toLE 1 1

/-- The 16 KB of a record with a given CRC field. -/
def CommitRec.bytesWith (r : CommitRec) (crc : Nat) : List Byte :=
  let w (l : List Nat) (n : Nat) : List Byte := (List.range n).flatMap fun i => toLE 4 (l.getD i 0)
  padTo 0x4000 (
    toLE 4 r.frame ++ toLE 1 r.mech ++ toLE 1 r.kind ++ toLE 1 r.entry ++ zeros 1 ++ toLE 4 r.candId ++ toLE 2 r.ctx ++ toLE 2 r.durUs
    ++ toLE 4 r.tHalf ++ toLE 4 crc ++ toLE 8 r.b ++ toLE 8 r.h ++ zeros 24 ++ w r.q0 12 ++ w r.qd0 12 ++ w r.poses 96 ++ zeros 32
    ++ (List.range 9).flatMap (fun k => padTo 272 ((r.placed.getD k []).flatMap hsBytes)) ++ zeros 48 ++ padTo 6496 r.traj)

/-- The CRC of a record: over its 16 KB with the field zero. -/
def CommitRec.crc (r : CommitRec) : Nat := (crc32c (r.bytesWith 0)).toNat

/-- The 16 KB of a record. -/
def CommitRec.bytes (r : CommitRec) : List Byte := r.bytesWith r.crc

/-- The record in 16 KB of mailbox. -/
def decCommit (b : List Byte) : CommitRec :=
  { frame := leAt b 0 4, mech := leAt b 4 1, kind := leAt b 5 1, entry := leAt b 6 1, candId := leAt b 8 4, ctx := leAt b 12 2,
    durUs := leAt b 14 2, tHalf := leAt b 0x10 4, b := leAt b 0x18 8, h := leAt b 0x20 8, q0 := words b 0x40 12, qd0 := words b 0x70 12,
    poses := words b 0xA0 96,
    placed := (List.range 9).map fun k => (List.range 17).filterMap fun n =>
      let o := 0x240 + 16 * (17 * k + n)
      if (leAt b (o + 15) 1).testBit 0 then some { x := leAtS b o 4, y := leAtS b (o + 4) 4, z := leAtS b (o + 8) 4, r := leAt b (o + 12) 2 } else none,
    traj := slice b 0xC00 6496 }

/-- The CRC field of a record in bytes matches its contents (R201). -/
def crcOk (b : List Byte) : Bool := (crc32c (slice b 0 0x14 ++ zeros 4 ++ b.drop 0x18)).toNat == leAt b 0x14 4

/-! ### Motion of a plan (R195) and of its Saucer (R199, R200) -/

/-- Position, velocity and acceleration of one axis. -/
abbrev AxState := Knot

/-- 10^9 as binary64. -/
def dGiga : D := dV (fOfNat 1000000000)

/-- A number of nanoseconds, exact in binary64 (R195). -/
def dNs (n : Int) : D := dV (fRound f64 (fOfInt n))

/-- A small whole number. -/
def dN (n : Nat) : D := dV (fOfNat n)

/-- The Hermite motion of one axis (R195): knot positions q and velocities v (0 to 8), D, and the elapsed time. -/
def hermite (q v : List D) (dd tau : D) : AxState :=
  let k := min 8 ((fFloor (tau.div dd).v).toNat + 1)
  let s := (tau.sub ((dN (k - 1)).mul dd)).div dd
  let m0 := dd.mul (v.getD (k - 1) {})
  let m1 := dd.mul (v.getD k {})
  let r := (dN 1).sub s
  let qa := q.getD (k - 1) {}
  let qb := q.getD k {}
  let two := dN 2; let three := dN 3; let six := dN 6
  let p := ((((((dN 1).add (two.mul s)).mul (r.mul r)).mul qa).add ((s.mul (r.mul r)).mul m0)).add
      (((s.mul s).mul (three.sub (two.mul s))).mul qb)).add (((s.mul s).mul (s.sub (dN 1))).mul m1)
  let vd := (((((six.mul s).mul (s.sub (dN 1))).mul (qa.sub qb)).add (((s.sub (dN 1)).mul ((three.mul s).sub (dN 1))).mul m0)).add
      ((s.mul ((three.mul s).sub two)).mul m1)).div dd
  let ad := ((((((dN 12).mul s).sub six).mul (qa.sub qb)).add (((six.mul s).sub (dN 4)).mul m0)).add (((six.mul s).sub two).mul m1) |>.div dd).div dd
  { p, v := vd, a := ad }

/-- The state of every axis of a plan at `tau` seconds after B (R195). -/
def planAt (r : CommitRec) (axes : Nat) (tau : D) : List AxState :=
  if r.kind = 1 then
    let dd := (dN r.durUs).div (dN 8000000)
    (List.range axes).map fun i =>
      let q := d32 (r.q0.getD i 0) :: (List.range 8).map fun k => d32 (r.poses.getD (12 * k + i) 0)
      let g (k : Nat) : D := q.getD k {}
      let v := d32 (r.qd0.getD i 0) :: ((List.range 7).map fun k => ((g (k + 2)).sub (g k)).div ((dN 2).mul dd)) ++ [((g 8).sub (g 7)).div dd]
      hermite q v dd tau
  else if r.kind = 2 then
    let h := dOf (leAt r.traj 0x20 8)
    let kseg := leAt r.traj 0xC 1
    let f (o i : Nat) : D := dOf (leAt r.traj (o + 8 * i) 8)
    let m := min (kseg - 1) (fFloor (tau.div h).v).toNat
    let t := tau.sub ((dN m).mul h)
    (List.range axes).map fun i =>
      let k0 : Knot := { p := f 0x40 i, v := f 0xA0 i, a := f 0x100 i }
      let km := (List.range m).foldl (fun k s => advance h k (f 0x160 (12 * s + i))) k0
      advance t km (f 0x160 (12 * m + i))
  else (List.range axes).map fun i => { p := d32 (r.q0.getD i 0) }

/-- Elapsed seconds of a time in ns from the start of a plan. -/
def tauOf (r : CommitRec) (t : Nat) : D := (dNs ((t : Int) - r.b)).div dGiga

/-- The state of a plan at a device time. -/
def planState (r : CommitRec) (axes t : Nat) : List AxState := planAt r axes (tauOf r t)

/-- Plan time, in seconds from B, of a Saucer issued at `t0` when the device time is `t`, with stop half-time in µs (R200). -/
def saucerTau (r : CommitRec) (tHalf t0 t : Nat) : D :=
  let ts := 2 * tHalf * 1000
  let dt := t - t0
  let x : D := if ts ≤ dt then dNs ((t0 : Int) - r.b + tHalf * 1000)
    else (dNs ((t : Int) - r.b)).sub (((dNs dt).mul (dNs dt)).div (dNs (2 * ts)))
  x.div dGiga

/-- The commanded state of a Saucer: the plan's own positions at plan time σ, the velocity scaled by the rate of σ (R200). -/
def saucerState (r : CommitRec) (axes tHalf t0 t : Nat) : List AxState :=
  let ts := 2 * tHalf * 1000
  let dt := t - t0
  let st := planAt r axes (saucerTau r tHalf t0 t)
  if ts ≤ dt then st.map fun k => { p := k.p }
  else
    let rate := (dN 1).sub ((dNs dt).div (dNs ts))
    st.map fun k => { p := k.p, v := k.v.mul rate }

/-- The stop time in µs of one axis before doubling: ceil(500,000 × VMAX ÷ (DMAX − AMAX)) in binary64 (R199). -/
def stopAxis (vmax dmax amax : Nat) : Nat :=
  (fCeil (((dN 500000).mul (d32 vmax)).div ((d32 dmax).sub (d32 amax))).v).toNat

/-- T_HALF of a mechanism, µs (R199): T_s = 2 × T_HALF. -/
def tHalfOf (m : Mech) : Nat :=
  (List.range m.axes).foldl (fun t i => max t (stopAxis (m.vmax.getD i 0) (m.dmax.getD i 0) (m.amax.getD i 0))) 0

/-! ### Start classes (R196) -/

/-- The offset of the class box table within a lattice body. -/
def boxTable (l : Lattice) : Nat := primOff l.classes l.stride l.prims

/-- The velocity box of class `c` holds a velocity on every axis. -/
def classHolds (img : List Byte) (l : Lattice) (c : Nat) (qd : List FV) : Bool :=
  (List.range l.axes).all fun i =>
    let o := l.off + boxTable l + 8 * l.axes * c + 8 * i
    let v := qd.getD i fZero
    !(fLt v (fOfBits f32 (leAt img o 4))) && !(fLt (fOfBits f32 (leAt img (o + 4) 4)) v)

/-- START_CLASS: the lowest class that holds QD0, or 0xFFFF (R196). -/
def startClass (img : List Byte) (l : Lattice) (qd : List FV) : Nat :=
  ((List.range l.classes).find? fun c => classHolds img l c qd).getD 0xFFFF

/-- The class box table of lattice `i` (sub-code 0x0701): finite, ordered, class 0 holding zero velocity. -/
def classBoxCheck (img : List Byte) (eo i : Nat) : Option Bad :=
  let l := latticeAt img i
  let base := l.off + boxTable l
  let bad (o : Nat) : Option Bad := some { code := cSECTION_FORMAT, off := eo, sub := 0x0701, img := o }
  if img.length < base + 8 * l.axes * l.classes then bad base else
  firstBad [
    firstOver (List.range (l.classes * l.axes)) fun j =>
      let o := base + 8 * j
      let lo := fExact f32 (leAt img o 4); let hi := fExact f32 (leAt img (o + 4) 4)
      if fFinite lo && fFinite hi && fLe lo hi then none else bad o,
    if classHolds img l 0 [] then none else bad base]

/-! ### Envelopes (R198) -/

/-- Samples of a plan: the time of each and its placed root and mid spheres. -/
def samplesOf (r : CommitRec) : List (Int × List HSphere) :=
  r.placed.zipIdx.map fun (s, k) => ((r.b : Int) + k * r.durUs * 125, s)

/-- The samples at or before u₁ together with the first one after it (R198). -/
def coveredTo (u1 : Int) (l : List (Int × List HSphere)) : List (List HSphere) :=
  ((l.filter fun e => decide (e.1 ≤ u1)) ++ (l.filter fun e => decide (u1 < e.1)).take 1).map (·.2)

/-- The samples from the last one at or before `a` up to the first one at or after `b` (R198). -/
def coveredBetween (a b : Int) (l : List (Int × List HSphere)) : List (List HSphere) :=
  let before := l.filter fun e => decide (e.1 ≤ a)
  let mid := l.filter fun e => decide (a < e.1) && decide (e.1 < b)
  let after := l.filter fun e => decide (a < e.1) && decide (b ≤ e.1)
  ((before.drop (before.length - 1)) ++ mid ++ after.take 1).map (·.2)

/-- The sphere that encloses sphere n of every covered sample (R198). -/
def enclose (l : List HSphere) : Option HSphere :=
  match boxOf (l.map fun s => { s with r := 0 }) with
  | none => none
  | some b =>
    let lo (i : Nat) : Int := b.lo.getD i 0; let hi (i : Nat) : Int := b.hi.getD i 0
    let d (i : Nat) : Nat := (hi i - lo i).toNat
    let half := cdiv (isqrtUp (d 0 * d 0 + d 1 * d 1 + d 2 * d 2)) 2
    some { x := (lo 0 + hi 0).fdiv 2, y := (lo 1 + hi 1).fdiv 2, z := (lo 2 + hi 2).fdiv 2,
           r := min 65535 (half + (l.map (·.r)).foldl max 0) }

/-- The envelope of covered samples: the mid spheres 1 to MID, or the root alone (R198). -/
def envelope (mid : Nat) (cov : List (List HSphere)) : List HSphere :=
  let ns := if mid = 0 then [0] else (List.range mid).map (· + 1)
  ns.filterMap fun n => enclose (cov.filterMap fun s => s[n]?)

/-- Two envelopes come within a margin of each other: their boxes first, then their spheres pairwise (R191). -/
def envelopesMeet (margin : Nat) (a b : List HSphere) : Bool :=
  let boxGapOk : Bool := match boxOf a, boxOf b with
    | some x, some y =>
      let g (i : Nat) : Nat := clampD (max (max (x.lo.getD i 0 - y.hi.getD i 0) (y.lo.getD i 0 - x.hi.getD i 0)) 0)
      decide (isqrt (g 0 * g 0 + g 1 * g 1 + g 2 * g 2) ≤ margin)
    | _, _ => false
  boxGapOk && a.any fun p => b.any fun q => decide (clSphere { x := p.x, y := p.y, z := p.z, r := p.r } q ≤ margin)

/-- The 256 bytes of a commit block (R197), from byte 0x100 of a context on. -/
def commitBlock (frame outcome entry kind candId tHalf b h : Nat) : List Byte :=
  padTo 256 (toLE 4 frame ++ toLE 1 outcome ++ toLE 1 entry ++ toLE 1 kind ++ zeros 1 ++ toLE 4 candId ++ toLE 4 tHalf ++ toLE 8 b ++ toLE 8 h)

end Sys2Proof.Machine
end

