-- ==== Sys2Proof/Machine/WardenCfg.lean ====
section
/-! DEFINITION. The safety content (R344, R345), its defaults (R315), the protective separation distance (R327), and the
warden's safety state at run time (14_safety_concept.md). -/

namespace Sys2Proof.Machine

/-! ### The safety content -/

/-- A zone record. OSSD 0xFF is a static zone. -/
structure Zone where
  lo    : List Int
  hi    : List Int
  resp  : Nat
  allow : Nat
  mechs : Nat
  ossd  : Nat
  deriving DecidableEq, Repr

/-- An SoE connection record. -/
structure SoeRec where
  port   : Nat
  mech   : Nat
  addr   : Nat
  wdMs   : Nat
  outLen : Nat
  inLen  : Nat
  deriving DecidableEq, Repr

/-- A mechanism safety record. -/
structure MechSafe where
  mech  : Nat
  cat   : Nat := 2
  outs  : Nat := 0
  flags : Nat := 0
  vr    : Nat := 0
  deriving DecidableEq, Repr

/-- ENABLE_REQUIRED. -/
def MechSafe.enableReq (m : MechSafe) : Bool := bit m.flags 0
/-- SSM. -/
def MechSafe.ssm (m : MechSafe) : Bool := bit m.flags 1

/-- A partition subsection: its mechanisms and claims, and where its parts lie in the payload. -/
structure SafeSub where
  part   : Nat
  mechs  : List MechSafe
  claims : List Claim
  off    : Nat
  clOff  : Nat
  deriving DecidableEq, Repr

/-- The global block (R344); the defaults are those of R315. `wd` holds OPEN and CLOSE of the 12 watchdogs. -/
structure SafeGlob where
  filterUs : Nat := 100
  discMs   : Nat := 100
  vh       : Nat := 1600
  auto     : Bool := true
  rMax     : Nat := 3
  rWin     : Nat := 600
  tpUs     : Nat := 0
  wd       : List (Nat × Nat) := []
  estop    : List (Nat × Nat) := List.replicate 4 (0, 0)   -- MECHS, CAT
  enable   : Nat × Nat := (0, 0)
  deriving DecidableEq, Repr

/-- A safety content. -/
structure SafeSec where
  glob   : SafeGlob := {}
  zones  : List Zone := []
  soe    : List SoeRec := []
  claims : List Claim := []
  subs   : List SafeSub := []
  mask   : Nat := 0
  serial : Nat := 0
  deriving DecidableEq, Repr

/-- The offset of the content within the SAFETY payload (R46). -/
def safeO : Nat := 64

/-- The subsections in payload order: `n` at most, from offset `o`. -/
def decSubs (b : List Byte) : Nat → Nat → List SafeSub
  | 0, _ => []
  | n + 1, o =>
    let nm := min (leAt b (o + 1) 1) 255
    let nc := min (leAt b (o + 2) 2) (b.length / 16)
    let co := o + 16 + 32 * nm
    { part := leAt b o 1, off := o, clOff := co,
      mechs := (List.range nm).map fun i => let m := o + 16 + 32 * i
        { mech := leAt b m 1, cat := leAt b (m + 1) 1, outs := leAt b (m + 2) 1, flags := leAt b (m + 3) 1, vr := leAt b (m + 4) 2 },
      claims := (List.range nc).map fun i => claimAt b (co + 16 * i) } :: decSubs b n (co + 16 * nc)

/-- The number of subsections that a mask names. -/
def popCount (n mask : Nat) : Nat := (maskBits n mask).length

/-- The offset of the global claim list, and of the first subsection. -/
def safeClaimsO (b : List Byte) : Nat := safeO + 128 + 48 * leAt b (safeO + 0xC) 1 + 16 * leAt b (safeO + 0xD) 1
/-- The offset of the first subsection. -/
def safeSubsO (b : List Byte) : Nat := safeClaimsO b + 16 * leAt b (safeO + 0xE) 2

/-- The SAFETY payload decoded (R344). -/
def decSafety (b : List Byte) : SafeSec :=
  let g := safeO
  let zo := g + 128
  let nz := min (leAt b (g + 0xC) 1) 16
  let so := zo + 48 * leAt b (g + 0xC) 1
  let ns := min (leAt b (g + 0xD) 1) 32
  let ng := min (leAt b (g + 0xE) 2) 256
  { mask := leAt b 0xC 1, serial := leAt b 0x10 4,
    glob := { filterUs := leAt b g 2, discMs := leAt b (g + 2) 2, vh := leAt b (g + 4) 2, auto := bit (leAt b (g + 6) 1) 0,
              rMax := leAt b (g + 7) 1, rWin := leAt b (g + 8) 2, tpUs := leAt b (g + 0xA) 2,
              wd := (List.range 12).map fun w => (leAt b (g + 0x10 + 4 * w) 2, leAt b (g + 0x12 + 4 * w) 2),
              estop := (List.range 4).map fun n => (leAt b (g + 0x40 + 4 * n) 2, leAt b (g + 0x42 + 4 * n) 1),
              enable := (leAt b (g + 0x50) 2, leAt b (g + 0x52) 1) },
    zones := (List.range nz).map fun i => let o := zo + 48 * i
      { lo := (List.range 3).map fun k => leAtS b (o + 4 * k) 4, hi := (List.range 3).map fun k => leAtS b (o + 12 + 4 * k) 4,
        resp := leAt b (o + 24) 4, allow := leAt b (o + 28) 2, mechs := leAt b (o + 30) 2, ossd := leAt b (o + 32) 1 },
    soe := (List.range ns).map fun i => let o := so + 16 * i
      { port := leAt b o 1, mech := leAt b (o + 1) 1, addr := leAt b (o + 2) 2, wdMs := leAt b (o + 4) 2, outLen := leAt b (o + 6) 1,
        inLen := leAt b (o + 7) 1 },
    claims := (List.range ng).map fun i => claimAt b (safeClaimsO b + 16 * i),
    subs := decSubs b (popCount 8 (leAt b 0xC 1)) (safeSubsO b) }

/-- The safety header of R46. -/
def safeHeaderOk (b : List Byte) : Bool :=
  decide (320 ≤ b.length) && leAt b 0 4 == 0x44424C53 && leAt b 4 2 == 1 && zerosAt b 6 2 && leAt b 8 4 == b.length && zerosAt b 0xD 3
  && leAt b 0x10 4 != 0 && zerosAt b 0x14 0x2C

/-- What the content checks ask of the configuration in force after steeping: the defined mechanisms (number, partition),
the defined partitions, the master's period, and the TARGET of a partition Blend. -/
structure SafeEnv where
  mechs  : List (Nat × Nat)
  parts  : List Nat
  P      : Nat
  target : Option Nat
  deriving DecidableEq, Repr

/-- A mask names a mechanism that is not defined. -/
def SafeEnv.badMask (e : SafeEnv) (m : Nat) : Bool := (maskBits 16 m).any fun i => !(e.mechs.any (·.1 == i))

/-- Claim records of the safety content (R510). -/
def safeClaims (b : List Byte) (o n : Nat) : Option Bad :=
  firstOver (List.range n) fun i => let c := o + 16 * i
    firstBad [needF (zerosAt b (c + 1) 1) 0x0E01 (c + 1), needF (leAt b (c + 8) 4 != 0) 0x0E01 (c + 8),
              needF (zerosAt b (c + 12) 4) 0x0E01 (c + 12)]

/-- The safety content checks (R345), in ascending offset. -/
def safetyCheck (e : SafeEnv) (soeOk : SoeRec → Bool) (b : List Byte) : Option Bad :=
  let s := decSafety b
  let g := safeO
  let nz := leAt b (g + 0xC) 1
  let ns := leAt b (g + 0xD) 1
  let ng := leAt b (g + 0xE) 2
  let bits := maskBits 8 s.mask
  let fin := match s.subs.reverse with | [] => safeSubsO b | x :: _ => x.clOff + 16 * leAt b (x.off + 2) 2
  let len := fin + 256
  firstBad [
    needF (match e.target with | some t => s.mask == 2 ^ t | none => bits.all e.parts.contains) 0x0E08 0xC,
    needF (decide (s.glob.filterUs ≤ 1000)) 0x0E02 g,
    needF (decide (1 ≤ s.glob.discMs) && decide (s.glob.discMs ≤ 1000)) 0x0E02 (g + 2),
    needF (decide (1 ≤ s.glob.vh) && decide (s.glob.vh ≤ 4000)) 0x0E02 (g + 4),
    needF (decide (leAt b (g + 6) 1 ≤ 1)) 0x0E02 (g + 6),
    needF (decide (1 ≤ s.glob.rMax) && decide (s.glob.rMax ≤ 15)) 0x0E02 (g + 7),
    needF (decide (1 ≤ s.glob.rWin) && decide (s.glob.rWin ≤ 3600)) 0x0E02 (g + 8),
    needF (s.glob.tpUs == 0 || (decide (100 ≤ s.glob.tpUs) && decide (s.glob.tpUs ≤ 500))) 0x0E02 (g + 0xA),
    needF (decide (nz ≤ 16)) 0x0E01 (g + 0xC), needF (decide (ns ≤ 32)) 0x0E01 (g + 0xD), needF (decide (ng ≤ 256)) 0x0E01 (g + 0xE),
    needF (len == b.length) 0x0E01 g,
    firstOverI s.glob.wd fun w (o, c) =>
      needF (decide (o < c) && (decide (8 ≤ w) || decide (c ≤ 2 * e.P))) 0x0E03 (g + 0x10 + 4 * w),
    firstOverI s.glob.estop fun n (m, c) =>
      firstBad [needF (!(e.badMask m)) 0x0E07 (g + 0x40 + 4 * n), needF (decide (c ≤ 1)) 0x0E02 (g + 0x42 + 4 * n),
                needF (zerosAt b (g + 0x43 + 4 * n) 1) 0x0E01 (g + 0x43 + 4 * n)],
    needF (!(e.badMask s.glob.enable.1)) 0x0E07 (g + 0x50), needF (decide (s.glob.enable.2 ≤ 1)) 0x0E02 (g + 0x52),
    needF (zerosAt b (g + 0x53) 45) 0x0E01 (g + 0x53),
    firstOverI s.zones fun i z => let o := g + 128 + 48 * i
      firstBad [
        needF ((List.range 3).all fun k => decide (z.lo.getD k 0 ≤ z.hi.getD k 0)) 0x0E04 o,
        needF (!(e.badMask z.mechs)) 0x0E04 (o + 30), needF (decide (z.ossd ≤ 7) || z.ossd == 0xFF) 0x0E04 (o + 32),
        needF (zerosAt b (o + 33) 15) 0x0E01 (o + 33)],
    firstOverI s.soe fun i c => let o := g + 128 + 48 * nz + 16 * i
      firstBad [
        needF (decide (c.port ≤ 3)) 0x0E05 o, needF (e.mechs.any (·.1 == c.mech)) 0x0E05 (o + 1),
        needF (c.addr != 0 && !((s.soe.take i).any fun d => d.port == c.port && d.addr == c.addr)) 0x0E05 (o + 2),
        needF (decide (1 ≤ c.wdMs) && decide (c.wdMs ≤ 10000)) 0x0E05 (o + 4),
        needF ([2, 4, 6, 8].contains c.outLen) 0x0E05 (o + 6), needF ([2, 4, 6, 8].contains c.inLen) 0x0E05 (o + 7),
        needF (zerosAt b (o + 8) 8) 0x0E01 (o + 8), needF (soeOk c) 0x1307 o],
    safeClaims b (safeClaimsO b) ng,
    firstOverI s.subs fun i u =>
      firstBad [
        needF (bits[i]? == some u.part) 0x0E08 u.off,
        needF (zerosAt b (u.off + 4) 12) 0x0E01 (u.off + 4),
        firstOverI u.mechs fun j m => let o := u.off + 16 + 32 * j
          firstBad [
            needF (e.mechs.contains (m.mech, u.part) && !((u.mechs.take j).any (·.mech == m.mech))) 0x0E06 o,
            needF (decide (m.cat ≤ 2)) 0x0E06 (o + 1), needF (m.cat == 2 || m.outs != 0) 0x0E06 (o + 2),
            needF (decide (m.flags ≤ 3)) 0x0E06 (o + 3),
            needF (decide (1 ≤ m.vr) && decide (m.vr ≤ 10000)) 0x0E06 (o + 4),
            needF (zerosAt b (o + 6) 26) 0x0E01 (o + 6)],
        safeClaims b u.clOff (leAt b (u.off + 2) 2)]]

/-- The safety record of a mechanism, if a subsection covers it. -/
def SafeSec.cover (s : SafeSec) (m : Nat) : Option MechSafe := (s.subs.flatMap (·.mechs)).find? (·.mech == m)

/-- The watchdog windows of R315, from the field master's offsets. -/
def defaultWindows (f : FrameCfg) : List (Nat × Nat) :=
  [(f.netStart, f.netStart + 25), (f.netStart, f.netStart + 25), (f.buildStart, f.buildStart + 5), (f.publish - 1, f.publish),
   (0, 1), (0, 1), (f.selectEnd, f.selectEnd + 1), (f.selectEnd + 1, f.commitEnd), (0, 100), (0, 100), (0, 100), (0, 100)]

/-- S_p of R327 in units of 1/64 mm, in binary64 with the final rounding up. -/
def sepDist (g : SafeGlob) (z : Zone) (vr tHalf : Nat) : Nat :=
  if z.ossd = 0xFF then 64 * z.allow else
  let tr := z.resp + g.filterUs + 201
  let a : D := dV (fRound f64 (fOfNat (64 * (g.vh * (tr + 2 * tHalf) + vr * (tr + tHalf)))))
  (fCeil ((a.div (dV (fOfNat 1000000))).add (dV (fOfNat (64 * z.allow)))).v).toNat

/-! ### Run time -/

/-- The state of one mechanism in the warden: the record in force and the next accepted one (R201), whether it is held
(R202), the Saucer issued, if any, with its stamp t₀, T_HALF, category and causes (R320, R323), and whether a record has
been accepted since each of its output pairs was last de-energised (R338; a mask of pairs). `portHold` is set where only a
STOP and START of the partition lifts the hold (R334). -/
structure WMech where
  cur      : Option CommitRec := none
  next     : Option CommitRec := none
  held     : Bool := true
  issued   : Bool := false
  t0       : Nat := 0
  cat      : Nat := 2
  cause    : Nat := 0
  causes   : Nat := 0
  s1At     : Option Nat := none      -- category 1: the standstill that de-energises
  accepted : Nat := 0
  portHold : Bool := false
  atRest   : Bool := true            -- standstill reached
  iss      : Nat := 0                -- the stamp of the Saucer's issue, from which T_s counts (R65, R202)
  drives   : Option (List Nat) := none  -- after a fall-back restart: the drives' positions that the first commit starts from (R121, R330)
  commanded : Bool := false
  deriving DecidableEq, Repr

/-- One dual-channel safety input: the wires' present level and since when, their filtered states, the latched
discrepancy and since when the filtered wires have disagreed, and the steps of clearing it. -/
structure DualIn where
  lvlA   : Bool := false
  lvlB   : Bool := false
  sinceA : Nat := 0
  sinceB : Nat := 0
  filA   : Bool := false
  filB   : Bool := false
  disagr : Option Nat := none
  disc   : Bool := false
  bothOff : Bool := false             -- both wires de-energised together since the discrepancy
  deriving DecidableEq, Repr

/-- A stop-request output pair: what each channel drives, the read-back levels, and the latched fault. -/
structure OutPair where
  drvA  : Bool := false
  drvB  : Bool := false
  fbA   : Bool := false
  fbB   : Bool := false
  fault : Bool := false
  pulseA : Bool := false
  pulseB : Bool := false
  deriving DecidableEq, Repr

/-- A stage watchdog: armed, the next FRAME_ID expected, its last service and fault. -/
structure Watchdog where
  armed  : Bool := false
  expect : Nat := 0
  served : Bool := false
  fault  : Nat := 0
  frame  : Nat := 0
  deriving DecidableEq, Repr

/-- One Safety over EtherCAT connection (R342, R343). -/
structure SoeSt where
  state : Nat := 0
  in0   : Nat := 0
  inp   : List Byte := []
  rxAt  : Nat := 0
  deriving DecidableEq, Repr

/-- WDN_STATUS.STATE. -/
inductive WState | normal | fallback | held | locked | channelFail
  deriving DecidableEq, Repr

/-- The warden's safety state. -/
structure Warden where
  state    : WState := .normal
  chA      : Bool := false
  chB      : Bool := false
  mechs    : List WMech := List.replicate 16 {}
  estop    : List DualIn := List.replicate 4 {}
  ossd     : List DualIn := List.replicate 8 {}
  enab     : DualIn := {}
  estopLat : List Bool := List.replicate 4 true       -- de-energised in effect until ESTOP_RESET (R336)
  enRel    : Bool := true                             -- the enabling device has passed through released
  enMid    : Bool := false                            -- middle position in effect
  outs     : List OutPair := List.replicate 8 {}
  wds      : List Watchdog := List.replicate 12 {}
  soe      : List SoeSt := List.replicate 32 {}
  trigCause : Nat := 0
  trigMechs : Nat := 0
  trigTime  : Nat := 0
  ossdRead : List Bool := List.replicate 8 false      -- OSSD pairs energised, as read at the last monitoring period (R326)
  falls    : List Nat := []                           -- stamps of the fall-back decisions of R331
  disagree : Nat := 0                                 -- monitoring periods the channels have disagreed
  deriving DecidableEq, Repr

end Sys2Proof.Machine
end

