-- ==== Sys2Proof/Machine/IfaceCfg.lean ====
section
/-! DEFINITION. Fieldbus, sensor and timing interfaces (21_field_interfaces.md): the INTERFACES sections, port images as far
as the loader reads them, drive mapping, and the interfaces at run time. -/

namespace Sys2Proof.Machine

/-! ### The global section (R468) -/

/-- An SGMII port record. -/
structure PortRec where
  mode    : Nat := 0
  missMax : Nat := 1
  cycleUs : Nat := 0
  phase   : Nat := 0
  shift   : Nat := 0
  pcp     : Nat := 0
  vid     : Nat := 0
  mac     : Nat := 0
  img     : Nat := 0
  imgLen  : Nat := 0
  digest  : List Byte := []
  deriving DecidableEq, Repr

/-- Cycle length in ns. -/
def PortRec.len (p : PortRec) : Nat := p.cycleUs * 1000

/-- c_k of R447. -/
def PortRec.start (p : PortRec) (k : Nat) : Nat := k * p.len + p.phase

/-- A timestamp and trigger unit record. -/
structure TsuRec where
  unit   : Nat
  mode   : Nat
  edge   : Nat
  width  : Nat
  start  : Nat
  period : Nat
  deriving DecidableEq, Repr

/-- A 25GBASE-R port record. -/
structure EthRec where
  mode : Nat := 0
  fec  : Nat := 0
  mac  : Nat := 0
  deriving DecidableEq, Repr

/-- The global INTERFACES payload. -/
structure IfGlob where
  ptpPort : Nat := 0xFF
  ptpDom  : Nat := 0
  ptpTx   : Nat := 0
  logSync : Int := 0
  ports   : List PortRec := List.replicate 4 {}
  eth     : List EthRec := List.replicate 4 {}
  csi     : List (Nat × Nat) := List.replicate 8 (0, 0)    -- LANES, MAX_MBPS
  tsus    : List TsuRec := []
  deriving DecidableEq, Repr

/-- Unit records from an offset. -/
def decTsus (b : List Byte) (o n : Nat) : List TsuRec :=
  (List.range n).map fun i => let o := o + 32 * i
    { unit := leAt b o 1, mode := leAt b (o + 1) 1, edge := leAt b (o + 2) 1, width := leAt b (o + 4) 4, start := leAt b (o + 8) 8,
      period := leAt b (o + 16) 8 }

/-- The global payload decoded. -/
def decIfGlob (b : List Byte) : IfGlob :=
  { ptpPort := leAt b 0 1, ptpDom := leAt b 1 1, ptpTx := leAt b 2 1, logSync := leAtS b 3 1,
    ports := (List.range 4).map fun n => let o := 64 + 128 * n
      { mode := leAt b o 1, missMax := leAt b (o + 1) 1, cycleUs := leAt b (o + 2) 2, phase := leAt b (o + 4) 4, shift := leAt b (o + 8) 4,
        pcp := leAt b (o + 0xC) 1, vid := leAt b (o + 0xE) 2, mac := leAt b (o + 0x10) 6, img := leAt b (o + 0x18) 8,
        imgLen := leAt b (o + 0x20) 4, digest := slice b (o + 0x30) 48 },
    eth := (List.range 4).map fun n => let o := 576 + 16 * n; { mode := leAt b o 1, fec := leAt b (o + 1) 1, mac := leAt b (o + 4) 6 },
    csi := (List.range 8).map fun n => let o := 640 + 8 * n; (leAt b o 1, leAt b (o + 2) 2),
    tsus := decTsus b 704 (min 8 (leAt b 4 1)) }

/-- The checks of unit records (0x1304); `seen` lists units already configured. -/
def tsuCheck (b : List Byte) (o : Nat) (ts : List TsuRec) : Option Bad :=
  firstOverI ts fun i t => let o := o + 32 * i
    firstBad [
      needF (decide (t.unit < 8) && !((ts.take i).any (·.unit == t.unit))) 0x1304 o, needF (decide (t.mode ≤ 2)) 0x1304 (o + 1),
      needF (decide (t.edge < 4) && (t.mode != 0 || t.edge != 0)) 0x1304 (o + 2), needF (zerosAt b (o + 3) 1) 0x1301 (o + 3),
      needF (t.mode != 1 || (t.width != 0 && decide (t.width < t.period))) 0x1304 (o + 4),
      needF (t.mode != 1 || (t.period % 8 == 0 && decide (1000 ≤ t.period) && decide (t.period ≤ 1000000000))) 0x1304 (o + 16),
      needF (zerosAt b (o + 24) 8) 0x1301 (o + 24)]

/-- The own checks of the global section (R469). -/
def ownIfGlob (b : List Byte) : Option Bad :=
  let s := decIfGlob b
  let nt := leAt b 4 1
  let portUsed (n : Nat) : Bool := if n < 4 then (s.ports.getD n {}).mode != 0 else (s.eth.getD (n - 4) {}).mode != 0
  firstBad [
    needF (s.ptpPort == 0xFF || (decide (s.ptpPort ≤ 7) && portUsed s.ptpPort)) 0x1303 0, needF (decide (s.ptpDom ≤ 127)) 0x1303 1,
    needF ((maskBits 8 s.ptpTx).all portUsed && (s.ptpPort == 0xFF || !(bit s.ptpTx s.ptpPort))) 0x1303 2,
    needF (decide (-7 ≤ s.logSync) && decide (s.logSync ≤ 0)) 0x1303 3, needF (decide (nt ≤ 8)) 0x1301 4, needF (zerosAt b 5 59) 0x1301 5,
    needF (b.length == 704 + 32 * nt) 0x1301 0,
    firstOverI s.ports fun n p => let o := 64 + 128 * n
      firstBad [
        needF (decide (p.mode ≤ 2)) 0x1302 o,
        needF (p.mode == 0 || (decide (1 ≤ p.missMax) && decide (p.missMax ≤ 8))) 0x1302 (o + 1),
        needF (p.mode == 0 || (p.cycleUs % 125 == 0 && decide (125 ≤ p.cycleUs) && decide (p.cycleUs ≤ 4000))) 0x1302 (o + 2),
        needF (p.mode == 0 || (p.phase % 8 == 0 && decide (p.phase < p.len))) 0x1302 (o + 4),
        needF (p.mode == 0 || (decide (1000 ≤ p.shift) && decide (p.shift ≤ p.len - 1000))) 0x1302 (o + 8),
        needF (p.mode != 2 || decide (p.pcp ≤ 7)) 0x1302 (o + 0xC), needF (zerosAt b (o + 0xD) 1) 0x1301 (o + 0xD),
        needF (p.mode != 2 || (decide (1 ≤ p.vid) && decide (p.vid ≤ 4094))) 0x1302 (o + 0xE),
        needF (zerosAt b (o + 0x16) 2) 0x1301 (o + 0x16), needF (zerosAt b (o + 0x24) 12) 0x1301 (o + 0x24),
        needF (zerosAt b (o + 0x60) 32) 0x1301 (o + 0x60)],
    firstOverI s.eth fun n p => let o := 576 + 16 * n
      firstBad [needF (decide (p.mode ≤ 1)) 0x1303 o, needF (decide (p.fec ≤ 2)) 0x1303 (o + 1), needF (zerosAt b (o + 2) 2) 0x1301 (o + 2),
                needF (zerosAt b (o + 10) 6) 0x1301 (o + 10)],
    firstOverI s.csi fun n (l, m) => let o := 640 + 8 * n
      firstBad [needF ([0, 1, 2, 4].contains l) 0x1303 o, needF (zerosAt b (o + 1) 1) 0x1301 (o + 1),
                needF (l == 0 || (decide (80 ≤ m) && decide (m ≤ 4500))) 0x1303 (o + 2), needF (zerosAt b (o + 4) 4) 0x1301 (o + 4)],
    tsuCheck b 704 s.tsus]

/-! ### Port images (R512) -/

/-- What the loader reads from a port image. `soe` lists FSoE address, output and input offsets; `drives` MAC and slots. -/
structure PortImg where
  subs   : Nat := 0
  size   : Nat := 0
  wkc    : Nat := 0
  inits  : Nat := 0
  soe    : List (Nat × Nat × Nat) := []
  gates  : Nat := 0
  drives : List (Nat × Nat) := []
  deriving DecidableEq, Repr

/-- Numbers in threes. -/
def threes : List Nat → List (Nat × Nat × Nat)
  | a :: b :: c :: r => (a, b, c) :: threes r
  | _ => []
/-- Numbers in twos. -/
def twos : List Nat → List (Nat × Nat)
  | a :: b :: r => (a, b) :: twos r
  | _ => []

/-- The items of R512 of an image in a mode, through the layout that belongs to Xisoxon. -/
def portImg (mode : Nat) (bytes : List Byte) : PortImg :=
  let l := Config.portImage mode bytes
  if mode = 1 then { subs := l.getD 0 0, size := l.getD 1 0, wkc := l.getD 2 0, inits := l.getD 3 0, soe := threes (l.drop 4) }
  else { gates := l.getD 0 0, drives := twos (l.drop 1) }

/-- The limits of R453, R456 and R512. -/
def PortImg.ok (i : PortImg) (mode : Nat) : Bool :=
  if mode = 1 then decide (1 ≤ i.subs) && decide (i.subs ≤ 64) && decide (1 ≤ i.size) && decide (i.size ≤ 1486)
  else decide (1 ≤ i.drives.length) && decide (i.drives.length ≤ 16) && decide (1 ≤ i.gates) && decide (i.gates ≤ 32)
    && i.drives.all fun d => decide (1 ≤ d.2) && decide (d.2 ≤ 12)

/-- An SoE connection is placed (R512). -/
def PortImg.placed (i : PortImg) (c : SoeRec) : Bool :=
  i.soe.any fun (a, o, n) => a == c.addr && decide (o + 3 + 2 * c.outLen ≤ i.size) && decide (n + 3 + 2 * c.inLen ≤ i.size)

/-! ### The partition section -/

/-- An axis record. -/
structure AxisRec where
  mech  : Nat
  axis  : Nat
  port  : Nat
  offs  : List Nat
  scale : Nat
  zero  : Int
  deriving DecidableEq, Repr

/-- An ingest channel record. -/
structure ChanCfg where
  chan   : Nat
  kind   : Nat
  src    : Nat
  vc     : Nat
  dt     : Nat
  stamp  : Nat
  etype  : Nat
  udp    : Nat
  lat    : Int
  span   : Nat
  grace  : Nat
  nbuf   : Nat
  bufLen : Nat
  stride : Nat
  ring   : Nat
  view   : Nat
  tref   : Nat
  task   : Nat
  deriving DecidableEq, Repr

/-- A partition's INTERFACES payload. -/
structure IfPart where
  axes  : List AxisRec := []
  tsus  : List TsuRec := []
  chans : List ChanCfg := []
  deriving DecidableEq, Repr

/-- The partition payload decoded. -/
def decIfPart (b : List Byte) : IfPart :=
  let na := min 128 (leAt b 0 2)
  let nc := min 32 (leAt b 2 1)
  let nt := min 8 (leAt b 3 1)
  let ot := 16 + 32 * leAt b 0 2
  let oc := ot + 32 * leAt b 3 1
  { axes := (List.range na).map fun i => let o := 16 + 32 * i
      { mech := leAt b o 1, axis := leAt b (o + 1) 1, port := leAt b (o + 2) 1, offs := (List.range 4).map fun k => leAt b (o + 4 + 2 * k) 2,
        scale := leAt b (o + 0xC) 8, zero := leAtS b (o + 0x14) 4 },
    tsus := decTsus b ot nt,
    chans := (List.range nc).map fun i => let o := oc + 64 * i
      { chan := leAt b o 1, kind := leAt b (o + 1) 1, src := leAt b (o + 2) 1, vc := leAt b (o + 3) 1, dt := leAt b (o + 4) 1,
        stamp := leAt b (o + 5) 1, etype := leAt b (o + 8) 2, udp := leAt b (o + 10) 2, lat := leAtS b (o + 12) 4, span := leAt b (o + 16) 4,
        grace := leAt b (o + 20) 2, nbuf := leAt b (o + 22) 2, bufLen := leAt b (o + 24) 4, stride := leAt b (o + 28) 4,
        ring := leAt b (o + 32) 8, view := leAt b (o + 40) 8, tref := leAt b (o + 48) 8, task := leAt b (o + 56) 2 } }

/-- A channel's ring and views as ranges. -/
def ChanCfg.rangesOf (c : ChanCfg) : List (Nat × Nat) := [(c.ring, c.nbuf * c.bufLen), (c.view, 128)]

/-- Data types that a receiver supports (R460), 0 meaning any. -/
def dtOk (d : Nat) : Bool := d == 0 || [0x2A, 0x2B, 0x2C, 0x2D, 0x2E, 0x1E, 0x24, 0x12].contains d || (decide (0x30 ≤ d) && decide (d ≤ 0x37))

/-- The own checks of a partition's section (R469): those that need no other section. -/
def ownIfPart (b : List Byte) : Option Bad :=
  let s := decIfPart b
  let na := leAt b 0 2
  let nc := leAt b 2 1
  let nt := leAt b 3 1
  let ot := 16 + 32 * na
  let oc := ot + 32 * nt
  firstBad [
    needF (decide (na ≤ 128)) 0x1301 0, needF (decide (nc ≤ 32)) 0x1301 2, needF (decide (nt ≤ 8)) 0x1301 3, needF (zerosAt b 4 12) 0x1301 4,
    needF (b.length == oc + 64 * nc) 0x1301 0,
    firstOverI s.axes fun i a => let o := 16 + 32 * i
      firstBad [
        needF (decide (a.mech < 16)) 0x1305 o,
        needF (decide (1 ≤ a.axis) && decide (a.axis ≤ 12) && !((s.axes.take i).any fun c => c.mech == a.mech && c.axis == a.axis)) 0x1305 (o + 1),
        needF (decide (a.port ≤ 3)) 0x1305 (o + 2), needF (zerosAt b (o + 3) 1) 0x1301 (o + 3),
        needF (match fExact f64 a.scale with | .fin _ m _ => m != 0 | _ => false) 0x1305 (o + 0xC),
        needF (zerosAt b (o + 0x18) 8) 0x1301 (o + 0x18)],
    tsuCheck b ot s.tsus,
    firstOverI s.chans fun i c => let o := oc + 64 * i
      firstBad [
        needF (decide (c.chan < 32) && !((s.chans.take i).any (·.chan == c.chan))) 0x1306 o,
        needF (decide (c.kind ≤ 1)) 0x1306 (o + 1), needF (decide (c.src < (if c.kind = 0 then 8 else 4))) 0x1306 (o + 2),
        needF (c.kind == 1 || decide (c.vc ≤ 15)) 0x1306 (o + 3), needF (c.kind == 1 || dtOk c.dt) 0x1306 (o + 4),
        needF (decide (c.stamp ≤ 8)) 0x1306 (o + 5), needF (zerosAt b (o + 6) 2) 0x1301 (o + 6),
        needF (c.lat % 8 == 0) 0x1306 (o + 12),
        needF (decide (100 ≤ c.span) && decide (c.span ≤ 100000)) 0x1306 (o + 16),
        needF (decide (4 ≤ c.nbuf) && decide (c.nbuf ≤ 1024)) 0x1306 (o + 22),
        needF (c.bufLen % 64 == 0 && decide (128 ≤ c.bufLen) && decide (c.bufLen ≤ 67108864)) 0x1306 (o + 24),
        needF (c.ring % 64 == 0 && c.view % 64 == 0 && !((s.chans.take i).any fun d =>
            c.rangesOf.any fun r => d.rangesOf.any fun q => overlap r.1 r.2 q.1 q.2)
          && !(overlap c.ring (c.nbuf * c.bufLen) c.view 128)) 0x1306 (o + 32),
        needF (zerosAt b (o + 58) 6) 0x1301 (o + 58)]]

/-! ### Drives (R448, R449) -/

/-- The target position of an axis: round(q × SCALE) + ZERO in binary64 (R448). -/
def targetOf (a : AxisRec) (q : D) : Int := fToIntRne (q.mul (dOf a.scale)).v + a.zero

/-- The position that an actual count stands for (R448). -/
def actualOf (a : AxisRec) (p : Int) : D := (dV (fRound f64 (fOfInt (p - a.zero)))).div (dOf a.scale)

/-- The limits map inside INT32 (R448). -/
def limitsMap (a : AxisRec) (qmin qmax : Nat) : Bool :=
  [qmin, qmax].all fun q => let t := targetOf a (d32 q); decide (-2147483648 ≤ t) && decide (t ≤ 2147483647)

/-- The drive states of FBS_AXIS.STATE from a statusword. -/
def driveState (w : Nat) : Nat :=
  if (w &&& 0x4F) = 0x00 then 0
  else if (w &&& 0x4F) = 0x40 then 1
  else if (w &&& 0x6F) = 0x21 then 2
  else if (w &&& 0x6F) = 0x23 then 3
  else if (w &&& 0x6F) = 0x27 then 4
  else if (w &&& 0x6F) = 0x07 then 5
  else if (w &&& 0x4F) = 0x0F then 6
  else if (w &&& 0x4F) = 0x08 then 7
  else 0

/-- The controlword of R449: `odd` marks the cycles that send 0x0080 to a drive in fault. -/
def controlword (allowed odd : Bool) (w : Nat) : Nat :=
  if !allowed then 0 else
  match driveState w with
  | 0 => 0x0006 | 1 => 0x0006 | 2 => 0x0007 | 3 => 0x000F | 4 => 0x000F | 7 => if odd then 0x0080 else 0x0000 | _ => 0x0000

/-! ### Run time -/

/-- The input image of a drive: statusword and actual position of an axis record. -/
structure AxisIn where
  mech   : Nat
  axis   : Nat
  status : Nat := 0
  pos    : Int := 0
  deriving DecidableEq, Repr

/-- A fieldbus port: link, bus state, the next cycle, what it has sent, its last complete input image, and its counts. -/
structure FPort where
  link    : Bool := false
  bus     : Nat := 0
  dcLock  : Bool := false
  dcGood  : Nat := 0
  k       : Nat := 0
  sent    : Bool := false            -- a cycle has been sent and awaits its return
  sentK   : Nat := 0
  imgAt   : Option Nat := none       -- cycle start of the last complete image
  imgK    : Nat := 0
  axes    : List AxisIn := []
  out     : List (Nat × Nat × Nat × Int) := []   -- mechanism, axis, controlword, target of the last cycle
  soeOut  : List (Nat × List Byte) := []         -- connection and output SafeData of the last cycle
  misses  : Nat := 0
  err     : Nat := 0
  cfgRec  : PortRec := {}
  img     : PortImg := {}
  cycling : Bool := false
  got     : List Nat := []           -- drives whose feedback frame of the cycle has arrived (TSN)
  stage   : List AxisIn := []        -- what they report
  deriving DecidableEq, Repr

/-- The PTP servo (R459). -/
structure Ptp where
  locked   : Bool := false
  holdover : Bool := false
  stepWait : Bool := false
  offset   : Int := 0
  slew     : Int := 0
  good     : Nat := 0
  bad      : Nat := 0
  last     : Option Nat := none
  gm       : Nat := 0
  txSeq    : Nat := 0
  deriving DecidableEq, Repr

/-- A buffer of an ingest channel: ring slot is SEQ mod NBUF. -/
structure IngBuf where
  seq    : Nat
  stamp  : Int
  opened : Nat
  len    : Nat := 0             -- payload bytes so far
  lines  : Nat := 0
  err    : Bool := false
  trunc  : Bool := false
  done   : Option Nat := none
  late   : Bool := false
  frame  : Option Nat := none
  span   : Nat := 0
  deriving DecidableEq, Repr

/-- An ingest channel at run time. `views` holds the ring slots that the last two views list (frame, slots), `service` the
slots whose INGEST item is in service. -/
structure Ingest where
  cfg     : ChanCfg
  part    : Nat
  seq     : Nat := 0
  open_   : List IngBuf := []         -- buffers opened and not complete, oldest first
  done    : List IngBuf := []
  views   : List (Nat × List Nat) := []
  last    : Nat := 0xFFFF
  lastStamp : Int := 0
  lateNow : Nat := 0
  service : List Nat := []
  held    : Bool := false
  lastDone : Nat := 0
  dropSpan : Option Nat := none     -- the span being dropped while holding
  deriving DecidableEq, Repr

/-- A timestamp and trigger unit at run time. -/
structure TsuSt where
  rec_   : Option TsuRec := none
  fifo   : List Nat := []
  lastEdge : Option Nat := none      -- the last edge captured or driven
  level  : Bool := false             -- the ball is driven high (PULSE)
  k      : Nat := 0
  deriving DecidableEq, Repr

/-- The field interfaces. `rx` holds lane rate, lanes and UP of the receivers, `ethUp` of the 25GBASE-R ports. -/
structure FieldIf where
  ports : List FPort := List.replicate 4 {}
  ptp   : Ptp := {}
  chans : List Ingest := []
  tsus  : List TsuSt := List.replicate 8 {}
  rx    : List (Nat × Nat × Bool) := List.replicate 8 (0, 0, false)
  ethUp : List Bool := List.replicate 4 false
  sentSync : List (Nat × Nat × Nat) := []       -- port, sequence, transmit time of the Syncs sent
  delayResp : List (Nat × Nat) := []            -- port and receive time of the delay requests answered
  deriving DecidableEq, Repr

end Sys2Proof.Machine
end

