-- ==== Sys2Proof/Machine/IntCfg.lean ====
section
/-! DEFINITION. The interrupt controller (17_interrupts.md): sources, route slots and vectors, and the INTERRUPTS section. -/

namespace Sys2Proof.Machine

/-! ### Sources (R388) -/

/-- Source 32 + 32p + i. -/
def isrcPart (p i : Nat) : Nat := 32 + 32 * p + i
/-- LOADER. -/
def isrcLOADER := 0
/-- ERR_RECORD. -/
def isrcERR_RECORD := 1
/-- ERR_LOST. -/
def isrcERR_LOST := 2
/-- SAUCER. -/
def isrcSAUCER := 3
/-- WDN_STATE. -/
def isrcWDN_STATE := 4
/-- WATCHDOG. -/
def isrcWATCHDOG := 5
/-- TAMPER. -/
def isrcTAMPER := 6
/-- RETIRED. -/
def isrcRETIRED := 7
/-- TDC. -/
def isrcTDC := 8
/-- FW_REFUSED. -/
def isrcFW_REFUSED := 9
/-- ST_MISSED. -/
def isrcST_MISSED := 10
/-- BUILD_LATE. -/
def isrcBUILD_LATE := 11
/-- D2D. -/
def isrcD2D := 12
/-- FIELDBUS[0]. -/
def isrcFIELDBUS := 13
/-- SENSOR. -/
def isrcSENSOR := 17
/-- LINK[0]. -/
def isrcLINK := 18
/-- PTP. -/
def isrcPTP := 22
/-- KETTLE. -/
def isrcKETTLE := 23

/-- The sources delivered to the warden (R398). -/
def isrcWarden : List Nat := [1, 2, 3, 4, 5, 6, 7, 9, 10, 11, 12]

/-! ### Slots and vectors (R390 to R394) -/

/-- A slot's state (R392). -/
inductive SlotPhase | idle | pending | service
  deriving DecidableEq, Repr

/-- One route slot of a source. -/
structure ISlot where
  routed : Bool := false
  prio   : Nat := 0
  first  : Nat := 0
  count  : Nat := 0
  masked : Bool := false
  st     : SlotPhase := .idle
  second : Bool := false
  deriving DecidableEq, Repr

/-- One vector. -/
structure IVec where
  bound : Bool := false
  func  : Nat := 0
  rp    : Nat := 15
  svc   : Bool := false
  slot  : Nat := 0
  src   : Nat := 0
  prio  : Nat := 15
  deriving DecidableEq, Repr

/-- One MSI-X table entry of a function: address, data and mask (every entry comes out of reset masked). -/
structure MsixEnt where
  addr : Nat := 0
  data : Nat := 0
  mask : Bool := true
  deriving DecidableEq, Repr

/-- A message the controller has sent: function, vector, address and data. -/
structure IMsg where
  fn   : Nat
  vec  : Nat
  addr : Nat
  data : Nat
  t    : Nat
  deriving DecidableEq, Repr

/-- The controller. Slots are keyed by 2 × source + slot, MSI-X entries by 2,048 × function + vector. `warden` lists the
sources delivered to the safety channels (R398), newest first. -/
structure IntSt where
  slots  : Tab ISlot := []
  vecs   : Tab IVec := []
  msix   : Tab MsixEnt := []
  fnMask : Tab Bool := []
  pba    : Tab Bool := []
  msgs   : List IMsg := []
  warden : List Nat := []
  deriving DecidableEq, Repr

/-- The slot of a source. -/
def IntSt.slot (s : IntSt) (src k : Nat) : ISlot := s.slots.get {} (2 * src + k)
/-- A slot replaced. -/
def IntSt.setSlot (s : IntSt) (src k : Nat) (x : ISlot) : IntSt := { s with slots := s.slots.set {} (2 * src + k) x }
/-- The state of a vector. -/
def IntSt.vec (s : IntSt) (v : Nat) : IVec := s.vecs.get {} v
/-- A vector replaced. -/
def IntSt.setVec (s : IntSt) (v : Nat) (x : IVec) : IntSt := { s with vecs := s.vecs.set {} v x }
/-- The MSI-X entry of a function. -/
def IntSt.entry (s : IntSt) (fn v : Nat) : MsixEnt := s.msix.get {} (2048 * fn + v)

/-- The source has a slot 1 (R390): a source of a partition. -/
def hasSlot1 (src : Nat) : Bool := decide (32 ≤ src) && decide (src < 288)

/-- The function that a slot delivers to: 0 the physical function, 1 + p virtual function p. -/
def slotFn (src k : Nat) : Nat := if k = 0 then 0 else 1 + (src - 32) / 32

/-- A vector can take a message of its set (R391): bound, not in service, and unmasked by entry and function. -/
def IntSt.eligible (s : IntSt) (fn v : Nat) : Bool :=
  (s.vec v).bound && !(s.vec v).svc && !(s.entry fn v).mask && !(s.fnMask.get false fn)

/-- The vector of a list with the highest RP, the lowest number among equals (R393). -/
def IntSt.bestVec (s : IntSt) (l : List Nat) : Option Nat := minOn (fun v => (15 - (s.vec v).rp) * 4096 + v) l

/-- A slot's set of vectors. -/
def ISlot.set_ (x : ISlot) : List Nat := (List.range x.count).map (· + x.first)

/-- The slot that the next decision takes (R393): the pending, unmasked slot with an eligible vector of lowest PRIO, source
and slot. -/
def IntSt.winner (s : IntSt) : Option (Nat × Nat) :=
  let c := s.slots.filter fun e =>
    decide (e.2.st = .pending) && e.2.routed && !e.2.masked && e.2.set_.any (s.eligible (slotFn (e.1 / 2) (e.1 % 2)))
  (minOn (fun e : Nat × ISlot => e.2.prio * 1024 + e.1) c).map fun e => (e.1 / 2, e.1 % 2)

/-! ### The INTERRUPTS section (R399, R401) -/

/-- A route record. -/
structure RouteRec where
  src   : Nat
  prio  : Nat
  flags : Nat
  first : Nat
  count : Nat
  deriving DecidableEq, Repr

/-- A tally record. -/
structure ITally where
  tref : Nat
  step : Nat
  k    : Nat
  deriving DecidableEq, Repr

/-- An INTERRUPTS payload. -/
structure IntSec where
  routes  : List RouteRec := []
  tallies : List ITally := []
  deriving DecidableEq, Repr

/-- The payload decoded. -/
def decInts (b : List Byte) : IntSec :=
  let nr := min (leAt b 0 2) 288
  { routes := (List.range nr).map fun i => let o := 16 + 8 * i
      { src := leAt b o 2, prio := leAt b (o + 2) 1, flags := leAt b (o + 3) 1, first := leAt b (o + 4) 2, count := leAt b (o + 6) 1 },
    tallies := (List.range (min (leAt b 2 1) 8)).map fun i => let o := 16 + 8 * leAt b 0 2 + 16 * i
      { tref := leAt b o 8, step := leAt b (o + 8) 4, k := leAt b (o + 12) 1 } }

/-- The own checks of INTERRUPTS (R401): `part` is the section's partition, none for the global section. -/
def ownInts (part : Option Nat) (b : List Byte) : Option Bad :=
  let s := decInts b
  let nr := leAt b 0 2
  let nt := leAt b 2 1
  let own (v : Nat) : Bool := match part with | none => true | some p => decide (32 + 32 * p ≤ v) && decide (v < 64 + 32 * p)
  firstBad [
    needF (decide (nr ≤ 288)) 0x1101 0, needF (decide (nt ≤ 8) && (part.isSome || nt == 0)) 0x1101 2, needF (zerosAt b 3 13) 0x1101 3,
    needF (b.length == 16 + 8 * nr + 16 * nt) 0x1101 0,
    firstOverI s.routes fun i r => let o := 16 + 8 * i
      firstBad [
        needF (decide (r.src < 288) && !(decide (32 ≤ r.src) && r.src % 32 == 7) && own r.src
               && !((s.routes.take i).any (·.src == r.src))) 0x1102 o,
        needF (decide (r.prio ≤ 15)) 0x1103 (o + 2), needF (decide (r.flags ≤ 1)) 0x1101 (o + 3),
        needF (decide (1 ≤ r.count) && decide (r.count ≤ 8)) 0x1103 (o + 6), needF (zerosAt b (o + 7) 1) 0x1101 (o + 7)],
    firstOverI s.tallies fun i t => let o := 16 + 8 * nr + 16 * i
      firstBad [needF (t.step != 0) 0x1104 (o + 8), needF (decide (t.k ≤ 7) && !((s.tallies.take i).any (·.k == t.k))) 0x1104 (o + 12),
                needF (zerosAt b (o + 13) 3) 0x1101 (o + 13)]]

end Sys2Proof.Machine
end

