-- ==== Sys2Proof/Machine/Keys.lean ====
section
/-! DEFINITION. Key slots, signature blocks (R44, R45) and life-cycle requests (R427 to R429). -/

namespace Sys2Proof.Machine

/-- The life-cycle states. -/
inductive LcState | blank | develop | field | ret
  deriving DecidableEq, Repr

/-- The register value. -/
def LcState.code : LcState → Nat
  | .blank => 0 | .develop => 1 | .field => 2 | .ret => 3

/-- A key slot: its digest once programmed, and the revocation fuse. -/
structure KeySlot where
  digest : Option (List Byte) := none
  revoked : Bool := false
  deriving DecidableEq, Repr

/-- Programmed and not revoked. -/
def KeySlot.live (k : KeySlot) : Bool := k.digest.isSome && !k.revoked

/-- What is held in fuses, and the readings latched beside it at POR_N release (R424, R37): identity, enabled cores, life
cycle, key slots, repaired columns of each die, and PKG_SEL. -/
structure Fuses where
  deviceId : Nat := 0x96402820
  coreEn   : List Nat := List.replicate 4 0xFFFFFFFF
  uid      : Nat := 0
  lc       : LcState := .blank
  owner    : List KeySlot := List.replicate 4 {}
  safety   : List KeySlot := List.replicate 4 {}
  repair   : List Nat := [0, 0]
  deriving DecidableEq, Repr

/-- The outcome of a signature block (R45). -/
inductive SigRes | ok | malformed | badKey | badSig
  deriving DecidableEq, Repr

/-- A signature block over a digest against a set of slots, in the order of R45. -/
def sigCheck (slots : List KeySlot) (blk digest : List Byte) : SigRes :=
  let slot := leAt blk 0 1
  let qx := slice blk 0x10 48
  let qy := slice blk 0x40 48
  if 3 < slot ∨ leAt blk 1 1 ≠ 1 ∨ !(zerosAt blk 2 14) ∨ !(zerosAt blk 0xD0 48) ∨ blk.length ≠ 256 then .malformed
  else
    let k := slots.getD slot {}
    if !k.live ∨ k.digest ≠ some (sha384 (qx ++ qy)) then .badKey
    else if p384OnCurve (ofBE qx) (ofBE qy) && ecdsaVerify digest (ofBE qx) (ofBE qy) (ofBE (slice blk 0x70 48)) (ofBE (slice blk 0xA0 48))
    then .ok else .badSig

/-- GLB_LC_STATUS.CODE. -/
def lcOK := 0
/-- A request while one runs, a partition is RUNNING or a steeping runs. -/
def lcBUSY := 1
/-- The state rule of the request operations table. -/
def lcSTATE := 2
/-- MAGIC, OP or a reserved byte. -/
def lcFORMAT := 3
/-- UID. -/
def lcUID := 4
/-- NONCE. -/
def lcNONCE := 5
/-- The signature. -/
def lcSIG := 6
/-- The slot rule. -/
def lcSLOT := 7
/-- A burn that does not verify. -/
def lcFUSE := 8
/-- The request could not be read. -/
def lcFETCH := 9

/-- The digest that a request programs. -/
def lcDigest (r : List Byte) : List Byte := sha384 (slice r 0x40 96)

/-- The request needs the key fields, and the others leave them zero (R428). -/
def lcKeyOp (op : Nat) : Bool := op == 1 || op == 2 || op == 3

/-- MAGIC, OP and every reserved byte. -/
def lcFormOk (r : List Byte) : Bool :=
  let op := leAt r 4 1
  r.length == 512 && leAt r 0 4 == 0x434C4C53 && decide (1 ≤ op) && decide (op ≤ 7) && zerosAt r 6 2 && zerosAt r 0x18 40 && zerosAt r 0xA0 96
  && (lcKeyOp op || zerosAt r 0x40 96)

/-- The states a request is permitted in. -/
def lcStateOk (lc : LcState) (op : Nat) : Bool :=
  if op = 1 then lc == .blank else if op = 6 then lc == .develop else lc == .develop || lc == .field

/-- The slot rule (R428, R429): an unprogrammed slot to program; a revocation of a programmed slot, not revoked yet, that
leaves the set another live slot. -/
def lcSlotOk (f : Fuses) (op slot : Nat) : Bool :=
  let set := if op = 3 ∨ op = 5 then f.safety else f.owner
  let k := set.getD slot {}
  if op = 1 then slot == 0 && k.digest.isNone
  else if op = 2 ∨ op = 3 then decide (slot < 4) && k.digest.isNone
  else if op = 4 ∨ op = 5 then decide (slot < 4) && k.live && (set.zipIdx.any fun e => e.2 != slot && e.1.live)
  else true

/-- The slots that may sign (R428): for KEY_SAFETY a safety slot, an owner slot while none is programmed; for a revocation
another live slot of the set. -/
def lcSigners (f : Fuses) (op slot : Nat) : List KeySlot :=
  let except (l : List KeySlot) : List KeySlot := l.zipIdx.map fun e => if e.2 = slot then {} else e.1
  if op = 3 then (if f.safety.any (·.digest.isSome) then f.safety else f.owner)
  else if op = 4 then except f.owner else if op = 5 then except f.safety else f.owner

/-- The checks of R428 in order: the code of the first that fails, or OK. -/
def lcCheck (f : Fuses) (nonce : Nat) (r : List Byte) : Nat :=
  let op := leAt r 4 1
  let slot := leAt r 5 1
  if !(lcFormOk r) then lcFORMAT
  else if leAt r 8 8 ≠ f.uid then lcUID
  else if leAt r 0x10 8 ≠ nonce then lcNONCE
  else if !(lcStateOk f.lc op) then lcSTATE
  else if !(lcSlotOk f op slot) then lcSLOT
  else if op = 1 then lcOK
  else match sigCheck (lcSigners f op slot) (slice r 0x100 256) (sha384 (slice r 0 0x100)) with
    | .ok => lcOK
    | _ => lcSIG

/-- The fuses after an accepted request, key operations and revocations at once; the state after a transition. -/
def lcApply (f : Fuses) (r : List Byte) : Fuses × Option LcState :=
  let op := leAt r 4 1
  let slot := leAt r 5 1
  let prog (l : List KeySlot) : List KeySlot := l.set slot { l.getD slot {} with digest := some (lcDigest r) }
  let rev (l : List KeySlot) : List KeySlot := l.set slot { l.getD slot {} with revoked := true }
  if op = 1 then ({ f with owner := prog f.owner }, some .develop)
  else if op = 2 then ({ f with owner := prog f.owner }, none)
  else if op = 3 then ({ f with safety := prog f.safety }, none)
  else if op = 4 then ({ f with owner := rev f.owner }, none)
  else if op = 5 then ({ f with safety := rev f.safety }, none)
  else if op = 6 then (f, some .field)
  else (f, some .ret)

end Sys2Proof.Machine
end

