-- ==== Sys2Proof/Machine/PowerCfg.lean ====
section
/-! DEFINITION. Power domains, clock steps, the cap and the POWER section (18_power_and_clocks.md). Powers are in units of
10 microwatts, so that every figure of the chapter is a whole number. -/

namespace Sys2Proof.Machine

/-- The domain numbers: cores 0 to 127, cluster-common 128 to 143, field stores 144 to 159, array segments 160 to 175. -/
def domCommon (c : Nat) : Nat := 128 + c
/-- A field store's domain. -/
def domStore (c : Nat) : Nat := 144 + c
/-- Segment s of the array of die d. -/
def domSeg (d s : Nat) : Nat := 160 + 8 * d + s

/-- The states of R402. -/
inductive DState | on | entering | cosy | waking | off
  deriving DecidableEq, Repr

/-- The register value of a state. -/
def DState.code : DState → Nat
  | .on => 0 | .entering => 1 | .cosy => 2 | .waking => 3 | .off => 4

/-- Full-load power of a domain in 10 µW. -/
def fullLoad (n : Nat) : Nat := if n < 128 then 62500 else if n < 144 then 100000 else if n < 160 then 200000 else 1225000

/-- The always-on 67 W. -/
def alwaysOn : Nat := 6700000

/-- The power fraction f of a step code, in percent (R406). -/
def stepF (c : Nat) : Nat := [100, 70, 52, 35, 22].getD c 22
/-- The idle fraction of a step code, in percent. -/
def stepIdle (c : Nat) : Nat := [30, 21, 16, 11, 7].getD c 7
/-- The divider of a step code from 6.0 GHz. -/
def stepDiv (c : Nat) : Nat := [4, 5, 6, 8, 12].getD c 12

/-- The wake time of a domain from Cosy, in ns. -/
def wakeNs (n : Nat) : Nat := if n < 144 then 2000 else if n < 160 then 12000 else 4000

/-- A POWER payload; the default stands until the first full Blend (R416). -/
structure PowerSec where
  cap    : Nat := 150
  idleUs : Nat := 1
  noLend : Bool := false
  eng    : List Nat := List.replicate 16 4
  arr    : List Nat := [4, 4]
  cosy   : Nat := 0
  off    : Nat := 0
  deriving DecidableEq, Repr

/-- The payload decoded. -/
def decPower (b : List Byte) : PowerSec :=
  { cap := leAt b 0 2, idleUs := leAt b 2 2, noLend := bit (leAt b 4 1) 0, eng := (slice b 8 16).map (·.toNat),
    arr := (slice b 0x18 2).map (·.toNat), cosy := leAt b 0x20 22, off := leAt b 0x40 22 }

/-- The own checks of POWER (R416, R417). -/
def ownPower (b : List Byte) : Option Bad :=
  let s := decPower b
  firstBad [
    needF (b.length == 128) 0x1201 0,
    need (decide (150 ≤ s.cap) && decide (s.cap ≤ 400)) cPOWER 0,
    needF (decide (1 ≤ s.idleUs) && decide (s.idleUs ≤ 10000)) 0x1201 2, needF (decide (leAt b 4 1 ≤ 1)) 0x1201 4,
    needF (zerosAt b 5 3) 0x1201 5,
    firstOverI s.eng fun i c => needF (decide (c ≤ 4)) 0x1201 (8 + i),
    firstOverI s.arr fun i c => needF (decide (c ≤ 4)) 0x1201 (0x18 + i),
    needF (zerosAt b 0x1A 6) 0x1201 0x1A, needF (zerosAt b 0x36 10) 0x1201 0x36, needF (zerosAt b 0x56 42) 0x1201 0x56]

/-- The cluster whose ENG step a domain takes. -/
def domCluster (n : Nat) : Nat := if n < 128 then n / 8 else n % 16

/-- The first domain whose OFF bit breaks 0x1202 or 0x1203: `core k` says that a core is assigned, `arrUsed d` that a
partition names the array of die d, `bank n` that array buffer bank n (die × 16 + bank) is claimed. -/
def powerOffBad (s : PowerSec) (core : Nat → Bool) (arrUsed : Nat → Bool) (bank : Nat → Bool) : Option Bad :=
  firstOver (maskBits 176 s.off) fun n =>
    let o := 0x40 + n / 8
    let held (c : Nat) : Bool := (List.range 8).any fun i => core (8 * c + i)
    if n < 128 then needF (!(core n)) 0x1202 o
    else if n < 160 then needF (!(held (n % 16))) 0x1202 o
    else let d := (n - 160) / 8; let g := (n - 160) % 8
      needF (!(arrUsed d) && !(bank (16 * d + 2 * g)) && !(bank (16 * d + 2 * g + 1))) 0x1203 o

/-- What F of R413 asks of a die's array: named by a network, the cycles of its class S FRAME networks, and whether a class S
network with the TALLY trigger is there. -/
structure ArrLoad where
  named : Bool
  sum   : Nat
  tallyS : Bool
  deriving DecidableEq, Repr

/-- F of R413, times 1,500,000, in units of 10 µW. `present n` says that domain n is not OFF. -/
def floorPower (s : PowerSec) (present : Nat → Bool) (p : Nat) (arr : Nat → ArrLoad) : Nat :=
  let q := 1500000
  let doms := ((List.range 160).filter present).map fun n => fullLoad n / 100 * stepF (s.eng.getD (domCluster n) 4)
  let die (d : Nat) : Nat :=
    let l := arr d
    if l.named then
      let a := if l.tallyS then q else min q (cdiv 1000 p * l.sum)
      98000 * (100 * a + (q - a) * stepF (s.arr.getD d 4))
    else if (List.range 8).any (fun g => present (domSeg d g)) then 98000 * 3 * q else 0
  (alwaysOn + doms.sum) * q + die 0 + die 1

/-- F ≤ 0.98 × CAP_W (R413). -/
def floorOk (s : PowerSec) (present : Nat → Bool) (p : Nat) (arr : Nat → ArrLoad) : Bool :=
  decide (floorPower s present p arr ≤ 98000 * s.cap * 1500000)

/-! ### Run time -/

/-- A switched domain. -/
structure Dom where
  st    : DState := .on
  wakes : Nat := 0
  idleAt : Nat := 0          -- since when the idle condition has held (R404)
  busy   : Bool := false     -- the idle condition does not hold
  planOff : Bool := false
  deriving DecidableEq, Repr

/-- A clock: step in force, target, and whether the cap keeps it below nominal (R411). -/
structure Clk where
  step   : Nat := 0
  target : Nat := 0
  capped : Bool := false
  deriving DecidableEq, Repr

/-- The Kettle: domains, clocks, the section in force, temperatures (signed eighths of a degree), loans and means. `lent`
lists the loans by core (10 µW), `raises` the clocks raised on loan. -/
structure Kettle where
  doms    : List Dom := List.replicate 176 {}
  clks    : List Clk := List.replicate 18 {}
  sec     : PowerSec := {}
  inForce : Bool := false
  tj      : List Int := [0, 0, 0]
  tjMax   : List Int := [0, 0, 0]
  hotAt   : List Nat := [0, 0]       -- last instant a planner die was at T_max − 8 °C or above
  stepAt  : List Nat := [0, 0]       -- last thermal step of a die
  waitAt  : List (Nat × Nat) := []    -- the cores that count as waiting, and since when (R278)
  lent    : List (Nat × Nat) := []
  raises  : List (Nat × Nat) := []    -- clock and cost (10 µW), newest first
  samples : List Nat := []           -- measured powers of the window being formed, 0.1 W
  mean    : Nat := 0
  meanMax : Nat := 0
  energy  : Nat := 0
  trip    : Bool := false
  thermal : List Bool := [false, false]     -- thermal lowering is in effect on a planner die
  exceed  : Bool := false
  lock    : Nat := 0
  rr      : Nat := 0
  deriving DecidableEq, Repr

/-- The voltage of a step code, in mV (R406). -/
def stepMv (c : Nat) : Nat := [850, 780, 720, 660, 600].getD c 600

end Sys2Proof.Machine
end

