-- ==== Sys2Proof/Machine/Sched.lean ====
section
/-! DEFINITION. Hardware task scheduling (10_task_scheduling.md): the SCHEDULER section, items, groups and tasks at run
time, and the decision of deficit round robin and of the legacy policy. -/

namespace Sys2Proof.Machine

/-! ### The SCHEDULER section (R259) -/

/-- A group record. -/
structure GroupRec where
  die  : Nat
  grp  : Nat
  cls  : Nat
  wt   : Nat
  prio : Nat
  qmin : Nat
  qmax : Nat
  deriving DecidableEq, Repr

/-- A task record; `args` are its 32 bytes of ARGS. -/
structure TaskRec where
  task  : Nat
  die   : Nat
  grp   : Nat
  kind  : Nat
  mode  : Nat
  flow  : Nat
  mask  : Nat
  delay : Nat
  aff   : Nat
  cost  : Nat
  args  : List Byte
  deriving DecidableEq, Repr

/-- A SCHEDULER payload. -/
structure SchedSec where
  mode   : Nat := 0
  trAddr : Nat := 0
  trLen  : Nat := 0
  groups : List GroupRec := []
  tasks  : List TaskRec := []
  deriving DecidableEq, Repr

/-- Legacy mode (R254). -/
def SchedSec.legacy (s : SchedSec) : Bool := s.mode == 1

/-- The payload decoded. -/
def decSched (b : List Byte) : SchedSec :=
  let ng := min (leAt b 1 1) (b.length / 16)
  let nt := min (leAt b 2 2) (b.length / 64)
  { mode := leAt b 0 1, trAddr := leAt b 8 8, trLen := leAt b 0x10 4,
    groups := (List.range ng).map fun i => let o := 32 + 16 * i
      { die := leAt b o 1, grp := leAt b (o + 1) 1, cls := leAt b (o + 2) 1, wt := leAt b (o + 3) 1, prio := leAt b (o + 4) 1,
        qmin := leAt b (o + 8) 2, qmax := leAt b (o + 10) 2 },
    tasks := (List.range nt).map fun i => let o := 32 + 16 * leAt b 1 1 + 64 * i
      { task := leAt b o 2, die := leAt b (o + 2) 1, grp := leAt b (o + 3) 1, kind := leAt b (o + 4) 1, mode := leAt b (o + 5) 1,
        flow := leAt b (o + 6) 2, mask := leAt b (o + 8) 4, delay := leAt b (o + 0xC) 4, aff := leAt b (o + 0x10) 8,
        cost := leAt b (o + 0x18) 1, args := slice b (o + 0x20) 32 } }

/-- The kinds of R242. -/
def tkLATTICE := 1
/-- R242. -/
def tkDMA := 2
/-- R242. -/
def tkSELFTEST := 3
/-- R242. -/
def tkHOST := 4
/-- R242. -/
def tkINGEST := 5

/-- The context of a LATTICE task, the queue of a HOST task, the slice kind of a SELFTEST task. -/
def TaskRec.arg (t : TaskRec) (n : Nat) : Nat := leAt t.args 0 n
/-- The completion target: task and flag, none for 0xFFFF (R245). -/
def TaskRec.target (t : TaskRec) : Option (Nat × Nat) :=
  if leAt t.args 0x1C 2 = 0xFFFF then none else some (leAt t.args 0x1C 2, leAt t.args 0x1E 1)
/-- ANY mode (R244). -/
def TaskRec.any (t : TaskRec) : Bool := bit t.mode 0

/-- The own checks of SCHEDULER (R260). -/
def ownSched (b : List Byte) : Option Bad :=
  let s := decSched b
  let ng := leAt b 1 1
  let nt := leAt b 2 2
  let to_ (i : Nat) : Nat := 32 + 16 * ng + 64 * i
  firstBad [
    needF (decide (s.mode ≤ 1)) 0x0A01 0, needF (decide (1 ≤ ng) && decide (ng ≤ 64)) 0x0A01 1, needF (decide (nt ≤ 1024)) 0x0A01 2,
    needF (b.length == 32 + 16 * ng + 64 * nt) 0x0A01 0,
    needF (zerosAt b 4 4) 0x0A01 4,
    needF (s.trAddr % 4096 == 0) 0x0A06 8,
    needF (s.trAddr == 0 || (decide (4096 ≤ s.trLen) && decide (s.trLen ≤ 16777216) && 2 ^ s.trLen.log2 == s.trLen)) 0x0A06 0x10,
    needF (zerosAt b 0x14 12) 0x0A01 0x14,
    firstOverI s.groups fun i g => let o := 32 + 16 * i
      firstBad [
        needF (decide (g.die ≤ 1)) 0x0A02 o,
        needF (decide (g.grp < 64) && !((s.groups.take i).any fun h => h.die == g.die && h.grp == g.grp)) 0x0A02 (o + 1),
        needF (decide (g.cls ≤ 2)) 0x0A02 (o + 2),
        needF (if s.legacy then g.wt == 0 else g.wt != 0) 0x0A02 (o + 3),
        needF (if s.legacy then decide (g.prio ≤ 7) else g.prio == 0) 0x0A02 (o + 4),
        needF (zerosAt b (o + 5) 3) 0x0A01 (o + 5),
        needF (decide (g.qmin ≤ g.qmax) && decide (g.qmax ≤ 8192) && decide (1 ≤ g.qmax)) 0x0A02 (o + 10),
        needF (zerosAt b (o + 12) 4) 0x0A01 (o + 12)],
    firstOverI s.tasks fun i t => let o := to_ i
      firstBad [
        needF (decide (t.task < 1024) && !((s.tasks.take i).any (·.task == t.task))) 0x0A03 o,
        needF (s.groups.any fun g => g.die == t.die && g.grp == t.grp) 0x0A03 (o + 3),
        needF (decide (1 ≤ t.kind) && decide (t.kind ≤ 5)) 0x0A03 (o + 4),
        needF (decide (t.mode ≤ 1)) 0x0A01 (o + 5),
        needF ((t.kind != tkLATTICE || t.flow == 0) && (t.kind != tkHOST || t.flow != 0)) 0x0A04 (o + 6),
        needF (t.mask != 0 && (t.kind != tkLATTICE || bit t.mask 27)) 0x0A04 (o + 8),
        needF (decide (t.delay ≤ 8000000)) 0x0A04 (o + 0xC),
        needF (t.aff != 0) 0x0A05 (o + 0x10),
        needF (if t.kind = tkLATTICE then t.cost == 0 else t.cost != 0) 0x0A04 (o + 0x18),
        needF (zerosAt b (o + 0x19) 7) 0x0A01 (o + 0x19),
        needF (t.kind != tkHOST || !((s.tasks.take i).any fun u => u.kind == tkHOST && u.arg 1 == t.arg 1)) 0x0A04 (o + 0x20)]]

/-! ### Items, tasks and groups at run time -/

/-- A work item (R242). For LATTICE, candidates `first` to `first + n − 1` of context `ctx`; for HOST and INGEST, `arg` names
the command or buffer. `mech`, `core` and `cand` serve the REPLAY and RECHECK items of the commit queue (R243). -/
structure Item where
  part  : Nat := 0
  task  : Nat := 0
  grp   : Nat := 0xFF
  cls   : Nat := 0
  flow  : Nat := 0
  cost  : Nat := 1
  aff   : Nat := 0
  seq   : Nat := 0
  kind  : Nat := 0
  frame : Nat := 0
  epoch : Nat := 0
  ctx   : Nat := 0
  first : Nat := 0
  n     : Nat := 0
  arg   : Nat := 0
  at_   : Nat := 0      -- release order in the package (R249, R254, R256)
  deriving DecidableEq, Repr

/-- A task at run time: its flags, delay-list entry, item sequence number, and items held in the source (R256). -/
structure TaskSt where
  part    : Nat
  task    : Nat
  flags   : Nat := 0
  due     : Option Nat := none
  seq     : Nat := 0
  held    : Bool := false
  backlog : List Item := []
  prev    : Nat := 0                    -- the task's previous due time (R248)
  await   : Option (Nat × Nat × Nat) := none  -- LATTICE: frame and EPOCH of a release before the start state was written, and the class it used
  deriving DecidableEq, Repr

/-- A group at run time. -/
structure GroupSt where
  part    : Nat
  grp     : Nat
  cls     : Nat
  wt      : Nat
  prio    : Nat
  qmin    : Nat
  qmax    : Nat
  legacy  : Bool := false
  items   : List Item := []
  deficit : Nat := 0
  fresh   : Bool := true
  deriving DecidableEq, Repr

/-- The scheduler of one die. `order` is the round-robin list of active groups (partition, group), `slots` the dispatch
slot of each of the 64 cores, `busy` the items in service with their core, `rr` the partition last served, `idle` the cores
whose last decision returned none and that wait for the next release (R253). An entry drawn in part keeps in `first` and `n`
what is still to be drawn. -/
structure SchedDie where
  tasks   : List TaskSt := []
  groups  : List GroupSt := []
  order   : List (Nat × Nat) := []
  slots   : List (List Item) := List.replicate 64 []
  busy    : List (Nat × Item) := []
  commitQ : List Item := []
  rr      : Nat := 7
  clock   : Nat := 0
  idle    : List Nat := []
  deriving DecidableEq, Repr

/-- The items held in the die's item store. -/
def SchedDie.stored (d : SchedDie) : Nat := (d.groups.map (·.items.length)).sum

/-- A group may take one more item (R256): always below QMIN, above it from the unreserved part of the store up to QMAX. -/
def SchedDie.room (d : SchedDie) (g : GroupSt) : Bool :=
  decide (g.items.length < g.qmin) ||
  (decide (g.items.length < g.qmax) && decide ((d.groups.map fun h => max h.qmin h.items.length).sum < 8192))

/-- The group of a partition by number. -/
def SchedDie.group (d : SchedDie) (p g : Nat) : Option GroupSt := d.groups.find? fun x => x.part == p && x.grp == g

/-- The place of a die's self-test slices in the list of its class N groups (R358); no partition has this number. -/
def sliceRef : Nat × Nat := (8, 0xFF)

/-- A group replaced. -/
def SchedDie.setGroup (d : SchedDie) (x : GroupSt) : SchedDie :=
  { d with groups := d.groups.map fun g => if g.part = x.part ∧ g.grp = x.grp then x else g }

/-- A task replaced. -/
def SchedDie.setTask (d : SchedDie) (x : TaskSt) : SchedDie :=
  { d with tasks := d.tasks.map fun t => if t.part = x.part ∧ t.task = x.task then x else t }

/-- An item put at the tail of its group's queue; a group that becomes active joins the tail of its class's list with
deficit 0 and fresh set (R253). -/
def SchedDie.enqueue (d : SchedDie) (i : Item) : SchedDie :=
  match d.group i.part i.grp with
  | none => d
  | some g =>
    let act := g.items.isEmpty
    let g' := { g with items := g.items ++ [i], deficit := if act then 0 else g.deficit, fresh := act || g.fresh }
    { d.setGroup g' with idle := [], order := if act then d.order ++ [(i.part, i.grp)] else d.order }

/-- An item put back at the head of its group's queue, its cost refunded (R252, R257). -/
def SchedDie.giveBack (d : SchedDie) (i : Item) : SchedDie :=
  match d.group i.part i.grp with
  | none => d
  | some g =>
    let act := g.items.isEmpty
    let g' := { g with items := i :: g.items, fresh := act || g.fresh,
                       deficit := if g.legacy then 0 else min (g.deficit + i.cost) (g.wt * 32 + 255) }
    { d.setGroup g' with idle := [], order := if act then d.order ++ [(i.part, i.grp)] else d.order }

/-- An item placed in the commit queue (R243). -/
def SchedDie.pushCommit (d : SchedDie) (i : Item) : SchedDie := { d with commitQ := d.commitQ ++ [i], idle := [] }

/-- A flow of a partition is in service (R249): dispatched, or waiting in a slot. -/
def SchedDie.flowBusy (d : SchedDie) (p f : Nat) : Bool :=
  f != 0 && (d.busy.any (fun e => e.2.part == p && e.2.flow == f) || d.slots.any (·.any fun i => i.part == p && i.flow == f))

/-- Items taken from a list at the first that satisfies a test within its first 8 (R253, R254). -/
def first8 (p : Item → Bool) (l : List Item) : Option Item := (l.take 8).find? p

/-- An item removed from its group's queue. -/
def GroupSt.drop (g : GroupSt) (i : Item) : GroupSt := { g with items := g.items.filter fun x => !(x.task == i.task && x.seq == i.seq) }

/-- The decision of R253 over the active groups of one partition and class: the item taken and the groups and list after. -/
def decideDrr (ok : Item → Bool) (p k : Nat) : Nat → SchedDie → Option Item × SchedDie
  | 0, d => (none, d)
  | n + 1, d =>
    match d.order.find? (fun e => e.1 == p && (match d.group e.1 e.2 with | some g => g.cls == k | none => false)) with
    | none => (none, d)
    | some e => match d.group e.1 e.2 with
      | none => (none, d)
      | some g =>
        let g := if g.fresh then { g with deficit := min (g.deficit + g.wt * 32) (g.wt * 32 + 255), fresh := false } else g
        match first8 ok g.items with
        | some x =>
          if x.cost ≤ g.deficit then
            let g' := { g with deficit := g.deficit - x.cost }.drop x
            if g'.items.isEmpty then (some x, { d.setGroup { g' with deficit := 0 } with order := d.order.filter (· ≠ e) })
            else (some x, d.setGroup g')
          else decideDrr ok p k n { d.setGroup { g with fresh := true } with order := d.order.filter (· ≠ e) ++ [e] }
        | none => decideDrr ok p k n { d.setGroup { g with fresh := true } with order := d.order.filter (· ≠ e) ++ [e] }

/-- The decision of R254: the highest level with an eligible item, and the earliest released within the 8 oldest of it. -/
def decideLegacy (ok : Item → Bool) (p k : Nat) (d : SchedDie) : Option Item × SchedDie :=
  let gs := d.groups.filter fun g => g.part == p && g.cls == k
  let level (l : Nat) : List Item := ((gs.filter (·.prio == l)).flatMap (·.items)).mergeSort fun a b => decide (a.at_ ≤ b.at_)
  match (List.range 8).findSome? fun l => first8 ok (level l) with
  | none => (none, d)
  | some x => match d.group p x.grp with
    | none => (none, d)
    | some g =>
      let g' := g.drop x
      (some x, { d.setGroup g' with order := if g'.items.isEmpty then d.order.filter (· ≠ (p, x.grp)) else d.order })

/-- The decision for class k of partition p, in the partition's mode. -/
def decideClass (legacy : Bool) (ok : Item → Bool) (p k : Nat) (d : SchedDie) : Option Item × SchedDie :=
  if legacy then decideLegacy ok p k d
  else decideDrr ok p k (2 * (d.groups.filter fun g => g.part == p && g.cls == k && !g.items.isEmpty).length) d

/-- A trace record of R261. -/
def traceBytes (t ev core grp info task flow arg : Nat) : List Byte :=
  toLE 4 (t / 8) ++ toLE 1 ev ++ toLE 1 core ++ toLE 1 grp ++ toLE 1 info ++ toLE 2 task ++ toLE 2 flow ++ toLE 4 arg

end Sys2Proof.Machine
end

