-- ==== Sys2Proof/Machine/TimePart.lean ====
section
/-! DEFINITION. Time partitions, S regions, origin tags and the rotating self-tests (15_safety_evidence.md): the
TIME_PARTITIONS section, the windows, and the rotation at run time. -/

namespace Sys2Proof.Machine

/-- The classes of R347: S, Q and N as 0, 1 and 2. -/
def clsS := 0
/-- Production. -/
def clsQ := 1
/-- Diagnostic. -/
def clsN := 2

/-- The class of work marked "S" in R347, for a partition with the given CLASSES field. -/
def sOrQ (classes : Nat) : Nat := if bit classes 0 then clsS else clsQ

/-- An origin tag of R348. -/
def originTag (cls warden part die unit : Nat) : Nat := cls * 16384 + warden * 8192 + part % 8 * 1024 + die * 256 + unit

/-- A window record (R353). -/
structure TWin where
  start : Nat
  stop  : Nat
  admits : Nat
  flags : Nat
  deriving DecidableEq, Repr

/-- SAFETY. -/
def TWin.safety (w : TWin) : Bool := bit w.flags 0

/-- A TIME_PARTITIONS payload. -/
structure TimeSec where
  dti      : Nat := 1
  weight   : Nat := 1
  wins     : List TWin := []
  sRanges  : List (Nat × Nat) := []
  deriving DecidableEq, Repr

/-- The payload decoded. -/
def decTime (b : List Byte) : TimeSec :=
  let nw := min (leAt b 0 1) 16
  let nr := min (leAt b 4 2) 64
  { dti := leAt b 1 1, weight := leAt b 2 1,
    wins := (List.range nw).map fun i => let o := 32 + 8 * i
      { start := leAt b o 2, stop := leAt b (o + 2) 2, admits := leAt b (o + 4) 1, flags := leAt b (o + 5) 1 },
    sRanges := (List.range nr).map fun i => let o := 32 + 8 * leAt b 0 1 + 4 * i; (leAt b o 2, leAt b (o + 2) 2) }

/-- The own checks of TIME_PARTITIONS (R354). -/
def ownTime (b : List Byte) : Option Bad :=
  let s := decTime b
  let nw := leAt b 0 1
  let nr := leAt b 4 2
  firstBad [
    needF (decide (1 ≤ nw) && decide (nw ≤ 16)) 0x0F01 0, needF (decide (1 ≤ s.dti) && decide (s.dti ≤ 64)) 0x0F01 1,
    needF (s.weight != 0) 0x0F07 2, needF (zerosAt b 3 1) 0x0F01 3, needF (decide (nr ≤ 64)) 0x0F01 4, needF (zerosAt b 6 26) 0x0F01 6,
    needF (b.length == 32 + 8 * nw + 4 * nr) 0x0F01 0,
    firstOverI s.wins fun i w => let o := 32 + 8 * i
      firstBad [
        needF (decide (w.start < w.stop) && w.start == (if i = 0 then 0 else (s.wins.getD (i - 1) w).stop)) 0x0F02 o,
        needF (bit w.admits 0 && decide (w.admits < 8)) 0x0F03 (o + 4), needF (decide (w.flags ≤ 1)) 0x0F03 (o + 5),
        needF (zerosAt b (o + 6) 2) 0x0F01 (o + 6)],
    firstOverI s.sRanges fun i r => let o := 32 + 8 * nw + 4 * i
      needF (r.2 == 0 || (decide (r.1 + r.2 ≤ 768) && !(overlap r.1 r.2 382 2)
             && !((s.sRanges.take i).any fun q => q.2 != 0 && overlap q.1 q.2 r.1 r.2))) 0x0F05 o]

/-- The checks against the master's offsets (R354): the windows end at P, and [BUILD_START, OUT − P) is SAFETY throughout. -/
def timeMaster (s : TimeSec) (f : FrameCfg) : Option Bad :=
  let last := 32 + 8 * (s.wins.length - 1)
  firstBad [
    needF ((s.wins.getLast?.map (·.stop)) == some f.P) 0x0F02 last,
    firstOverI s.wins fun i w =>
      needF (w.safety || !(decide (w.start < f.out - f.P) && decide (f.buildStart < w.stop))) 0x0F04 (32 + 8 * i)]

/-- The HBM unit lies in an S region (R350). -/
def TimeSec.sUnit (s : TimeSec) (u : Nat) : Bool := s.sRanges.any fun r => decide (r.1 ≤ u) && decide (u < r.1 + r.2)

/-- The window in force at an offset of the master's frame (µs). -/
def TimeSec.window (s : TimeSec) (us : Nat) : Option (Nat × TWin) :=
  ((s.wins.zipIdx).find? fun e => decide (e.1.start ≤ us) && decide (us < e.1.stop)).map fun e => (e.2, e.1)

/-- The slice lengths of R355 in µs, by kind. -/
def sliceLen (k : Nat) : Nat := [4, 3, 6, 3, 2, 10, 8, 10].getD k 0

/-- The slice kinds of a unit position (R355): cores 0 to 63, solver engines, field builders, the array. -/
def sliceKinds (pos : Nat) : List Nat := if pos < 64 then [0, 1, 2, 3, 4] else if pos < 80 then [5] else if pos < 88 then [6] else [7]

/-- The units of a die in the order of R356: cores, then solver engines, field builders and the array. -/
def dieUnits : List Nat := List.range 89

/-- need of R356 in µs over the units in service. -/
def sliceNeed (units : List Nat) : Nat := (units.map fun u => ((sliceKinds u).map sliceLen).sum + (if u < 64 then 2 else 0)).sum

/-- A of R356 in µs. -/
def sliceRoom (s : TimeSec) : Nat := ((s.wins.filter fun w => !w.safety && bit w.admits 2).map fun w => w.stop - w.start - 20).sum

/-- The rotation of a die fits its interval (0x0F06). -/
def rotationFits (s : TimeSec) (units : List Nat) : Bool := decide (2 * sliceNeed units ≤ s.dti * sliceRoom s)

/-- A self-test slice that runs on a die. -/
structure Slice where
  unit : Nat
  kind : Nat
  t    : Nat
  stop : Nat
  extra : Bool := false      -- released by a SELFTEST task (R362)
  deriving DecidableEq, Repr

/-- The rotation of one die: slices still to pass in this interval as (unit position, kind), LATE units, the slice running, slices
asked for ahead of the rotation (isolation, confirmation, repeats), those that SELFTEST items in service ask for, the unit and kind
of the last slice, the instant the interval began, and how a CMP_FAIL stands at the array (0 none, 1 its slice is awaited, 2 the
slice passed, 3 it failed once). `deficit` and `fresh` are those of the rotation among the class N groups of its die (R253, R358). -/
structure Rotation where
  pend   : List (Nat × Nat) := []
  late   : List Nat := []
  run    : Option Slice := none
  first  : List (Nat × Nat) := []
  asked  : List (Nat × Nat) := []
  unit   : Nat := 0
  kind   : Nat := 0
  start  : Nat := 0
  cmp    : Nat := 0
  deficit : Nat := 0
  fresh  : Bool := true
  deriving DecidableEq, Repr

end Sys2Proof.Machine
end

