-- ==== Sys2Proof/Machine/Cfg.lean ====
section
/-! DEFINITION. The configuration a Blend describes, and the checks of the steeping phases AUTH, PARSE, SAFETY and CLAIMS
over it (02_blend.md R39 to R67, R508 to R510, with the cross checks of every section's own chapter). -/

namespace Sys2Proof.Machine

/-- The configuration of one partition. -/
structure PartCfg where
  pr     : PartRec := {}
  serial : Nat := 0
  cores  : List Nat := []               -- assigned core indexes, ascending (R50)
  frame  : FrameCfg := {}
  pipes  : List Pipe := []
  mechs  : List Mech := []
  caddy  : List ImgRef := []
  nets   : List Net := []
  sched  : Option SchedSec := none
  sync   : SyncSec := {}
  xlate  : List (Nat × Nat × Nat) := [] -- compact table: TREF word, core, counter
  ints   : IntSec := {}
  claims : List Claim := []
  solver : SolverSec := {}
  ifp    : IfPart := {}
  deriving DecidableEq, Repr

/-- The configuration of the package: what the active slot holds (R57). -/
structure Cfg where
  serial : Nat := 0
  parts  : List PartCfg := []           -- ascending partition number
  time   : TimeSec := {}
  lay    : FieldLayout := {}
  ints   : IntSec := {}
  power  : PowerSec := {}
  claims : List Claim := []
  faults : FaultSec := {}
  ifg    : IfGlob := {}
  imgs   : List PortImg := List.replicate 4 {}
  safety : Option SafeSec := none
  dones  : List (Nat × Nat) := []       -- DONE word of each ring bank and its STEP (R275)
  deriving DecidableEq, Repr

namespace PartCfg

/-- The partition's number. -/
def num (q : PartCfg) : Nat := q.pr.num
/-- A range lies wholly inside the partition's HBM units (R49). -/
def inUnits (q : PartCfg) (a n : Nat) : Bool :=
  decide (q.pr.hbmFirst * 2 ^ 26 ≤ a) && decide (a + n ≤ (q.pr.hbmFirst + q.pr.hbmCount) * 2 ^ 26) && decide (a + n ≤ 0x000C00000000)
/-- A context lies inside the partition's contexts (R49). -/
def ownsCtx (q : PartCfg) (c : Nat) : Bool := decide (q.pr.ctxFirst ≤ c) && decide (c < q.pr.ctxFirst + q.pr.ctxCount)
/-- The partition has a pipeline of a chain. -/
def hasChain (q : PartCfg) (c : Nat) : Bool := q.pipes.any (·.chain == c)
/-- The context lies in a pipeline range of a chain (R52). -/
def inChain (q : PartCfg) (ch c : Nat) : Bool := q.pipes.any fun r => r.chain == ch && decide (r.first ≤ c) && decide (c < r.first + r.count)
/-- The privileged contexts of the partition (R151). -/
def privCtxs (q : PartCfg) : List Nat := q.pipes.flatMap fun r => (List.range r.priv).map (· + r.first)
/-- The class is permitted by the partition's CLASSES (R49). -/
def permits (q : PartCfg) (cls : Nat) : Bool := bit q.pr.classes cls
/-- The mechanism that a context belongs to (R101). -/
def mechOf (q : PartCfg) (c : Nat) : Option Mech := q.mechs.find? fun m => decide (m.ctxFirst ≤ c) && decide (c < m.ctxFirst + m.ctxCount)
/-- The partition's cores on a die. -/
def coresOn (q : PartCfg) (d : Nat) : List Nat := q.cores.filter (· / 64 == d)
/-- The tasks of the partition. -/
def tasks (q : PartCfg) : List TaskRec := match q.sched with | some s => s.tasks | none => []
/-- A task by its number. -/
def task (q : PartCfg) (t : Nat) : Option TaskRec := q.tasks.find? (·.task == t)
/-- SOLVE_END of a context entry, the default filled in (R156). -/
def solveEnd (q : PartCfg) (c : SolverCtx) : Nat := if c.solveEnd = 0xFFFF then q.frame.publish + q.frame.P - 40 else c.solveEnd
/-- The cores a partition asks for (R49). -/
def wanted (q : PartCfg) : Nat := q.pr.cores.sum

end PartCfg

namespace Cfg

/-- A defined partition. -/
def part (c : Cfg) (p : Nat) : Option PartCfg := c.parts.find? (·.num == p)
/-- The field master (R81). -/
def master (c : Cfg) : Option PartCfg := c.part c.lay.master
/-- Every mechanism with its partition. -/
def mechs (c : Cfg) : List (PartCfg × Mech) := c.parts.flatMap fun q => q.mechs.map fun m => (q, m)
/-- A mechanism by its number. -/
def mech (c : Cfg) (m : Nat) : Option (PartCfg × Mech) := c.mechs.find? (·.2.num == m)
/-- The partition a context belongs to (R19, R49). -/
def ctxPart (c : Cfg) (x : Nat) : Option PartCfg := c.parts.find? fun q => q.ownsCtx x
/-- The partition that owns an HBM unit. -/
def unitOwner (c : Cfg) (u : Nat) : Option PartCfg :=
  c.parts.find? fun q => decide (q.pr.hbmFirst ≤ u) && decide (u < q.pr.hbmFirst + q.pr.hbmCount)
/-- The partition a core is assigned to (R50). -/
def coreOwner (c : Cfg) (k : Nat) : Option PartCfg := c.parts.find? fun q => q.cores.contains k
/-- Partition `p` replaced, or put in at its place. -/
def setPart (c : Cfg) (x : PartCfg) : Cfg := { c with parts := c.parts.map fun q => if q.num = x.num then x else q }
/-- Every network with its partition. -/
def nets (c : Cfg) : List (PartCfg × Net) := c.parts.flatMap fun q => q.nets.map fun n => (q, n)
/-- The windows of the frames that define mechanisms are those of the master (R81). -/
def hasMechs (c : Cfg) : List PartCfg := c.parts.filter fun q => !q.mechs.isEmpty
/-- A mechanism's safety record: the active safety content covers it through its own partition's subsection (R48). -/
def covers (c : Cfg) (q : PartCfg) (m : Nat) : Option MechSafe :=
  c.safety.bind fun s => (s.subs.find? (·.part == q.num)).bind fun u => u.mechs.find? (·.mech == m)

end Cfg

/-- The two banks of each occupancy ring: the address of bank `q` of die `d` (R69). -/
def ringBank (l : FieldLayout) (d q : Nat) : Nat := (if d = 0 then l.ring0 else l.ring1) + q * bankSize l.occCap

/-- The DONE word of a ring bank (R69). -/
def ringDone (l : FieldLayout) (d q : Nat) : Nat := ringBank l d q + 8

/-- The die whose HBM stack holds an address (R30). -/
def stackOf (a : Nat) : Nat := if a < 384 * 2 ^ 26 then 0 else 1

/-- The tables of the loader: what the checks need of the device beside the Blend. -/
structure LEnv where
  fuses   : Fuses
  active  : Option Cfg
  mem     : Tab Byte
  psn     : Tab Bool
  avail   : Nat → Bool          -- cores that R50 may assign (R426)
  enabled : Nat → Bool          -- cores enabled in GLB_CORE_EN and not retired
  units   : Nat → List Nat      -- self-tested units of a die, enabled and not retired (R356)
  arrReady   : Nat → Bool
  stackReady : Nat → Bool

/-- A line of the range is poisoned. -/
def anyPoison (psn : Tab Bool) (a n : Nat) : Bool := psn.any fun e => decide (e.1 * 64 < a + n) && decide (a < e.1 * 64 + 64)

/-- The sections of a type. -/
def ofType (ss : List Sect) (t : Nat) : List Sect := ss.filter (·.typ == t)

/-- The section of a type and partition. -/
def sect? (ss : List Sect) (t p : Nat) : Option Sect := ss.find? fun s => s.typ == t && s.part == p

/-- The first rejection over sections in order. -/
def overSects (l : List Sect) (f : Sect → Option Bad) : Option Reject := firstRej (l.map fun s => (f s).map (·.toReject s))

/-! ### PARSE: own checks, presence, readiness and cores -/

/-- The own checks of one section (R508 step 3). SYNC runs here with what it needs of other sections left open. -/
def ownCheck (e : LEnv) (s : Sect) : Option Bad :=
  let b := s.payload
  match s.typ with
  | 1 => ownPartitions b
  | 2 => ownPipelines b
  | 3 => match ownTime b with
    | some x => some x
    | none => firstOver [0, 1] fun d => needF (rotationFits (decTime b) (e.units d)) 0x0F06 1
  | 4 => ownFrame b
  | 5 => ownMechs b
  | 6 => ownCaddyRefs b
  | 7 => ownFieldLayout b
  | 8 => ownNetworks b
  | 9 => ownSched b
  | 10 => ownSync b none (if (decSync b).full then 256 else 0) false (fun _ => true)
  | 11 => ownInts (if s.part = 0xFF then none else some s.part) b
  | 12 => ownPower b
  | 13 => ownClaims b
  | 14 => ownFaults b
  | 15 => ownSolver b
  | 16 => if s.part = 0xFF then ownIfGlob b else ownIfPart b
  | _ => none

/-- The scope rule of a section (R42, R43): where it may stand. -/
def scopeOk (partial_ : Bool) (target : Nat) (defined : List Nat) (s : Sect) : Bool :=
  let g := s.part == 0xFF
  if partial_ then
    if s.typ = 0x80 then g else [2, 4, 5, 6, 8, 9, 10, 11, 13, 15, 16].contains s.typ && s.part == target
  else if [1, 3, 7, 12, 14, 0x80].contains s.typ then g
  else if [11, 13, 16].contains s.typ then g || defined.contains s.part
  else defined.contains s.part

/-- The sections the rules require: TYPE and partition, 0xFF for a global section (R42, R43, R157, R259, R469). -/
def required (partial_ : Bool) (target : Nat) (defined : List Nat) (ss : List Sect) (t : Nat) : List Nat :=
  let ps := if partial_ then [target] else defined
  let pipes (p : Nat) : List Pipe := match sect? ss 2 p with | some s => decPipelines s.payload | none => []
  if [2, 4, 13].contains t then ps
  else if t = 9 then ps.filter fun p => (pipes p).any (·.chain == 1)
  else if t = 15 then ps.filter fun p => (pipes p).any fun r => r.chain == 2 && r.priv != 0
  else if t = 16 then ps.filter fun p => match sect? ss 5 p with | some s => !(decMechs s.payload).isEmpty | none => false
  else if !partial_ && [1, 3, 7, 11, 12].contains t then [0xFF] else []

/-- R508 step 4 for one TYPE and one partition number: absent where it is required, else its first misplaced or duplicated entry. -/
def missingAt (partial_ : Bool) (target : Nat) (defined : List Nat) (ss : List Sect) (t p : Nat) : Option Reject :=
  let l := (ofType ss t).filter (·.part == p)
  if l.isEmpty then
    (if (required partial_ target defined ss t).contains p then some { code := cMISSING, d0 := t * 65536 + 0xFFFF, d2 := p } else none)
  else firstRej (l.map fun s =>
    if scopeOk partial_ target defined s && !(l.any fun r => decide (r.entry < s.entry)) then none
    else some { code := cMISSING, d0 := t * 65536 + s.entry, d1 := 0x80 + 16 * s.entry })

/-- R508 step 4 for one TYPE: ascending partition number, the global scope 0xFF last. -/
def missingOf (partial_ : Bool) (target : Nat) (defined : List Nat) (ss : List Sect) (t : Nat) : Option Reject :=
  firstRej ((List.range 8 ++ [0xFF]).map (missingAt partial_ target defined ss t))

/-- R508 step 4. -/
def missing (partial_ : Bool) (target : Nat) (defined : List Nat) (ss : List Sect) : Option Reject :=
  firstRej (knownTypes.map (missingOf partial_ target defined ss))

/-- The cores of cluster `i` given to the partitions in ascending number (R50): none where they do not suffice, with the
partition that falls short. -/
def assignCluster (i : Nat) : List Nat → List PartRec → Except Nat (List (Nat × List Nat))
  | _, [] => .ok []
  | free, r :: rs =>
    let n := r.cores.getD i 0
    if free.length < n then .error r.num
    else match assignCluster i (free.drop n) rs with
      | .ok l => .ok ((r.num, free.take n) :: l)
      | .error p => .error p

/-- R50 over every cluster: the assignment, or the partition and cluster that fall short. -/
def assignCores (avail : Nat → Bool) (rs : List PartRec) : List Nat → Except (Nat × Nat) (List (Nat × List Nat))
  | [] => .ok []
  | i :: is =>
    match assignCluster i (((List.range 8).map (8 * i + ·)).filter avail) rs with
    | .error p => .error (p, i)
    | .ok l => match assignCores avail rs is with
      | .ok r => .ok (l ++ r)
      | .error x => .error x

/-- The cores of partition `p` in an assignment, ascending. -/
def coresOf (l : List (Nat × List Nat)) (p : Nat) : List Nat := (l.filter (·.1 == p)).flatMap (·.2)

/-- Records in ascending partition number. -/
def byNum (l : List PartRec) : List PartRec := (List.range 8).filterMap fun p => l.find? (·.num == p)

/-- The configuration of one partition read from the sections of a Blend, with its record and cores. -/
def decPart (ss : List Sect) (serial : Nat) (r : PartRec) (cores : List Nat) : PartCfg :=
  let get {α : Type} (t : Nat) (d : α) (f : List Byte → α) : α := match sect? ss t r.num with | some s => f s.payload | none => d
  let sync := get 10 {} decSync
  { pr := r, serial, cores, frame := get 4 {} decFrame, pipes := get 2 [] decPipelines, mechs := get 5 [] decMechs,
    caddy := get 6 [] decCaddyRefs, nets := get 8 [] decNetworks, sched := get 9 none fun b => some (decSched b), sync,
    xlate := if sync.full then [] else (compactTable sync fun d => cores.filter (· / 64 == d)).getD [],
    ints := get 11 {} decInts, claims := get 13 [] decClaims, solver := get 15 {} decSolver, ifp := get 16 {} decIfPart }

/-- The STEP of a DONE word: the SIGNAL descriptors of the master's networks that address it (R275). -/
def doneStep (mem : Tab Byte) (c : Cfg) (a : Nat) : Nat :=
  match c.master with
  | none => 0
  | some q => (q.nets.map fun n =>
      let img := peek mem n.img n.imgLen
      ((List.range n.count).map fun i =>
        let d := n.descAt img i
        if d.kind = kSIGNAL then
          (List.range 2).countP fun die => n.onDie die && (List.range (if d.parity then 2 else 1)).any fun f =>
            (d.extAt f : Int) + (if n.twin && die == 1 then n.delta else 0) == a
        else 0).sum).sum

/-- The configuration that would stand in force after the Blend: a full Blend replaces all of it, a partition Blend the
sections of its TARGET (R67). Safety content is put in by the SAFETY phase. -/
def decCfg (e : LEnv) (partial_ : Bool) (target serial : Nat) (ss : List Sect) (cores : List (Nat × List Nat)) : Cfg :=
  let g {α : Type} (t : Nat) (d : α) (f : List Byte → α) : α := match sect? ss t 0xFF with | some s => f s.payload | none => d
  let c : Cfg :=
    if partial_ then
      match e.active with
      | none => {}
      | some a => match a.part target with
        | none => a
        | some q => a.setPart (decPart ss serial q.pr q.cores)
    else
      let recs := byNum (g 1 [] decPartitions)
      let ifg := g 16 {} decIfGlob
      { serial, parts := recs.map fun r => decPart ss serial r (coresOf cores r.num), time := g 3 {} decTime, lay := g 7 {} decFieldLayout,
        ints := g 11 {} decInts, power := g 12 {} decPower, claims := g 13 [] decClaims, faults := g 14 {} decFaults, ifg,
        imgs := ifg.ports.map fun p => if p.mode = 0 then {} else portImg p.mode (peek e.mem p.img p.imgLen) }
  { c with dones := ((List.range 2).flatMap fun d => (List.range 2).map fun q => ringDone c.lay d q).map fun a => (a, doneStep e.mem c a) }

/-! ### PARSE: cross checks (R508 step 6) -/

/-- What a cross check sees: the configuration after the Blend, its sections, and the kind of Blend. -/
structure XEnv where
  l        : LEnv
  cfg      : Cfg
  ss       : List Sect
  partial_ : Bool
  target   : Nat

/-- The partitions counted before section `s` in a sum over the package: those that stay in force, and those whose section
of the same TYPE stands earlier in the table. -/
def XEnv.prior (x : XEnv) (s : Sect) : List PartCfg :=
  x.cfg.parts.filter fun q => q.num != s.part && (match sect? x.ss s.typ q.num with | some r => decide (r.entry < s.entry) | none => true)

/-- The privileged contexts of a die. -/
def privOn (d : Nat) (l : List Nat) : Nat := (l.filter (· / 8192 == d)).length

/-- PIPELINES: R52 against the PARTITIONS record, R188's cores, and 0x0302 in a partition Blend (R95). -/
def xPipelines (x : XEnv) (s : Sect) (q : PartCfg) : Option Bad :=
  let before := (x.prior s).flatMap (·.privCtxs)
  let mech := !q.mechs.isEmpty
  firstBad [
    firstOverI q.pipes fun i r => let o := 4 + 8 * i
      let all := before ++ ((q.pipes.take (i + 1)).flatMap fun r => (List.range r.priv).map (· + r.first))
      firstBad [
        need (r.chain != 5 || q.pr.arrays != 0) cPIPELINE o,
        need (q.ownsCtx r.first && q.ownsCtx (r.first + r.count - 1)) cPIPELINE (o + 2),
        need (decide (privOn 0 all ≤ 4) && decide (privOn 1 all ≤ 4)) cPIPELINE (o + 6)],
    need (!mech || (q.hasChain 3 && q.hasChain 4 && (q.hasChain 1 || q.hasChain 2))) cPIPELINE 0,
    need (!mech || (decide (3 ≤ q.wanted) && q.pr.onDie 0 && q.pr.onDie 1)) cPIPELINE 0,
    needF (!(x.partial_ && x.cfg.lay.master == q.num) || q.hasChain 5) 0x0302 0]

/-- TIME_PARTITIONS: R354 against the master's offsets and the partitions' units. -/
def xTime (x : XEnv) (s : Sect) : Option Bad :=
  let t := x.cfg.time
  firstBad [
    match x.cfg.master with | some m => timeMaster t m.frame | none => none,
    firstOverI t.sRanges fun i (u, n) => needF (n == 0 || (match x.cfg.unitOwner u with
      | some q => q.permits clsS && decide (u + n ≤ q.pr.hbmFirst + q.pr.hbmCount)
      | none => false)) 0x0F05 (32 + 8 * leAt s.payload 0 1 + 4 * i)]

/-- FRAME: the first three conditions of R188, and 0x0303 and 0x0307 in a partition Blend (R95). DESIGN CHOICE (log entry 190): where a
partition Blend brings the master new offsets and no NETWORKS section, the class S sum of R235 is checked here. -/
def xFrame (x : XEnv) (q : PartCfg) : Option Bad :=
  let f := q.frame
  let mech := !q.mechs.isEmpty
  let others := x.cfg.hasMechs.filter (·.num != q.num)
  let unlike (a b : FrameCfg) : Option Bad := firstBad [needF (a.P == b.P) 0x0303 0, needF (a.publish == b.publish) 0x0303 6]
  firstBad [
    need (!mech || decide (f.publish + f.P + 36 ≤ f.selectEnd)) cFRAME 8,
    need (!mech || others.all (·.frame.selectEnd == f.selectEnd)) cFRAME 8,
    need (!mech || decide (f.selectEnd + 45 ≤ f.commitEnd)) cFRAME 10,
    need (!mech || others.all (·.frame.commitEnd == f.commitEnd)) cFRAME 10,
    need (!mech || others.all (·.frame.out == f.out)) cFRAME 12,
    if !x.partial_ then none else if x.cfg.lay.master = q.num then
      firstBad [firstOver others fun r => unlike r.frame f, needF (decide (f.buildStart + 40 ≤ f.publish)) 0x0307 4,
        needF (!q.nets.isEmpty || [0, 1].all fun d => sumSOk (x.cfg.parts.flatMap (·.nets)) d (f.buildStart - f.netStart)) 0x0904 4]
    else match x.cfg.master with
      | some m => if mech then unlike f m.frame else none
      | none => none]

/-- Two ranges of contexts overlap. -/
def ctxMeet (a b : Mech) : Bool := overlap a.ctxFirst a.ctxCount b.ctxFirst b.ctxCount

/-- MECHANISMS: R97, R101 and R199 over the package. -/
def xMechs (x : XEnv) (s : Sect) (q : PartCfg) : Option Bad :=
  let before := (x.prior s).flatMap (·.mechs)
  firstOverI q.mechs fun i m =>
    let prev := before ++ q.mechs.take i
    let axes := ((prev ++ [m]).map (·.axes)).sum
    let ctxs := (List.range m.ctxCount).map (· + m.ctxFirst)
    firstBad [
      needF (!(prev.any (·.num == m.num))) 0x0401 m.off,
      needF (decide (axes ≤ 128)) 0x0402 (m.off + 2),
      needF (m.caddy == 0xFFFF || decide (m.caddy < q.caddy.length)) 0x0412 (m.off + 0x10),
      needF (decide (3 * q.frame.P ≤ m.durUs)) 0x0406 (m.off + 0x1A),
      needF (q.ownsCtx m.ctxFirst && q.ownsCtx (m.ctxFirst + m.ctxCount - 1) && !(prev.any (ctxMeet m))
        && ctxs.all fun c => (q.inChain 1 c != q.inChain 2 c) && (m.caddy != 0xFFFF || !(q.inChain 1 c))) 0x0405 (m.off + 0x1C),
      needF (decide (3 * q.frame.P + tHalfOf m ≤ m.durUs)) 0x0702 (m.off + 0x1A)]

/-- A referenced image: inside its partition's units, not poisoned, matching its digest (R59, R297). -/
def imgCheck (x : XEnv) (q : PartCfg) (r : ImgRef) (eo : Nat) : Option Bad :=
  Bad.orElse (firstBad [need (q.inUnits r.addr r.len) cIMAGE eo, need (!(anyPoison x.l.psn r.addr r.len)) cFETCH eo]) fun _ =>
    need (sha384 (peek x.l.mem r.addr r.len) == r.digest) cIMAGE eo

/-- CADDY_REFS: each image in its place, its digest and its contents (R106, R108, R196). -/
def xCaddy (x : XEnv) (q : PartCfg) : Option Bad :=
  firstOverI q.caddy fun k r => let eo := 16 + 64 * k
    Bad.orElse (imgCheck x q r eo) fun _ =>
      let img := peek x.l.mem r.addr r.len
      Bad.orElse (caddyImageCheck img k eo q.mechs) fun _ => firstOver (List.range (leAt img 6 2)) (classBoxCheck img eo)

/-- FIELD_LAYOUT against the partitions (R81, R95). DESIGN CHOICE (log entry 190): a master without a NETWORKS section whose ARRAYS are not
0x3 (R235) is reported here, with R236's sub-code. -/
def xLayout (x : XEnv) : Option Bad :=
  let l := x.cfg.lay
  match x.cfg.master with
  | none => needF false 0x0302 0xF
  | some m =>
    firstBad [
      needF (m.hasChain 5) 0x0302 0xF,
      needF (!m.nets.isEmpty || m.pr.arrays == 3) 0x0902 0xF,
      needF (x.cfg.hasMechs.all fun q => q.frame.P == m.frame.P && q.frame.publish == m.frame.publish) 0x0303 0xF,
      needF (decide (m.frame.buildStart + 40 ≤ m.frame.publish)) 0x0307 0xF,
      needF (m.inUnits l.ring0 (2 * bankSize l.occCap)) 0x0305 0x20, needF (m.inUnits l.ring1 (2 * bankSize l.occCap)) 0x0305 0x28]

/-- A network writes an occupancy ring (R235). -/
def writesRing (l : FieldLayout) (n : Net) (img : List Byte) : Bool :=
  let sz := 2 * bankSize l.occCap
  (List.range n.count).any fun i => let d := n.descAt img i
    d.kind == kSTORE && (List.range (if d.parity then 2 else 1)).any fun f => (List.range 2).any fun die => n.onDie die &&
      (let a := if n.twin && die == 1 then deltaAddr (d.extAt f) n.delta else d.extAt f
       overlap a d.M l.ring0 sz || overlap a d.M l.ring1 sz)

/-- NETWORKS: R224, R234 and R235 over the package. -/
def xNetworks (x : XEnv) (s : Sect) (q : PartCfg) : Option Bad :=
  let before := (x.prior s).flatMap fun r => r.nets.map fun n => (r, n)
  let bs := match x.cfg.master with | some m => m.frame.buildStart - m.frame.netStart | none => 0
  firstOverI q.nets fun i n => let eo := 16 + 128 * i
    let all := before ++ (q.nets.take (i + 1)).map fun n => (q, n)
    Bad.orElse (firstBad [
      needF (x.cfg.lay.master != q.num || q.pr.arrays == 3) 0x0902 eo,
      needF (q.permits n.cls && (n.arrays ||| q.pr.arrays) == q.pr.arrays) 0x0902 eo,
      imgCheck x q { addr := n.img, len := n.imgLen, digest := n.digest } eo,
      needF (!n.tally || q.inUnits n.trig 8) 0x0905 eo]) fun _ =>
    let img := peek x.l.mem n.img n.imgLen
    firstBad [
      needF (n.descsOk img q.inUnits) 0x0903 eo,
      needF (n.deltaOk img q.inUnits) 0x0905 eo,
      needF (n.cls == 0 || !(writesRing x.cfg.lay n img)) 0x0902 eo,
      firstOver [0, 1] fun d => firstBad [
        needF (decide ((all.filter fun e => e.2.onDie d).length ≤ 32)) 0x0901 eo,
        needF (sumSOk (all.map (·.2)) d bs && sumFrameOk (all.map fun e => (e.2, e.1.frame.P)) d) 0x0904 eo]]

/-- The core positions of a die that the partition holds, as an AFFINITY set (R259). -/
def affOf (q : PartCfg) (d : Nat) : Nat := ((q.coresOn d).map fun k => 2 ^ (k % 64)).sum

/-- SCHEDULER: R259, R260 over the package. -/
def xSched (x : XEnv) (s : Sect) (q : PartCfg) : Option Bad :=
  let sc := q.sched.getD {}
  let others := x.prior s
  let groups (d : Nat) : List GroupRec := others.flatMap fun r => (r.sched.getD {}).groups.filter (·.die == d)
  let tasks (d : Nat) : Nat := (others.map fun r => (r.tasks.filter (·.die == d)).length).sum
  let to_ (i : Nat) : Nat := 32 + 16 * sc.groups.length + 64 * i
  firstBad [
    needF (sc.trAddr == 0 || q.inUnits sc.trAddr (2 * sc.trLen)) 0x0A06 8,
    firstOverI sc.groups fun i g => let o := 32 + 16 * i
      firstBad [
        needF (q.permits g.cls) 0x0A02 (o + 2),
        needF (decide (((groups g.die ++ (sc.groups.take (i + 1)).filter (·.die == g.die)).map (·.qmin)).sum ≤ 8192)) 0x0A07 (o + 8)],
    firstOverI sc.tasks fun i t =>
      firstBad [
        needF (decide (tasks t.die + ((sc.tasks.take (i + 1)).filter (·.die == t.die)).length ≤ 4096)) 0x0A07 (to_ i),
        needF ((t.aff ||| affOf q t.die) == affOf q t.die) 0x0A05 (to_ i + 0x10),
        needF (t.kind != tkLATTICE || (q.inChain 1 (t.arg 2) && t.die == t.arg 2 / 8192)) 0x0A05 (to_ i + 0x20)],
    needF ((q.pipes.filter (·.chain == 1)).all fun r => (List.range r.count).all fun k =>
      (sc.tasks.countP fun t => t.kind == tkLATTICE && t.arg 2 == r.first + k) == 1) 0x0A05 0]

/-- The die of the home of a tally word, for the count of standing monitors (R275). -/
def monDie (q : PartCfg) (w : Nat) : Nat :=
  match decTref q.sync.full w with
  | some (.addr a) => match ctrAt a with | some (k, _) => k / 64 | none => stackOf a
  | some (.full k _) => q.cores.getD k 0 / 64
  | some (.virt c _) => c / 8192
  | none => 0

/-- A reference names a declared counter of the partition, or a word inside its units (R280, R400). -/
def trefOk (q : PartCfg) (w : Nat) : Bool :=
  q.sync.counters.any (·.tref == q.sync.declName q.cores w)
  || (match decTref q.sync.full w with | some (.addr a) => a % 8 == 0 && q.inUnits a 8 | _ => false)

/-- The standing monitors that one partition's SYNC and NETWORKS sections put on a die (R275). -/
def monsOn (d : Nat) (q : PartCfg) : Nat :=
  (q.sync.monitors.filter fun m => monDie q m.tref == d).length + (q.nets.filter fun n => n.tally && stackOf n.trig == d).length

/-- The standing monitors of a die that stand whatever SYNC and INTERRUPTS declare: the DONE words of the occupancy rings. -/
def doneMons (c : Cfg) (d : Nat) : Nat := (c.dones.filter fun e => stackOf e.1 == d).length

/-- SYNC: R279 to R281 against the partition's record. -/
def xSync (x : XEnv) (s : Sect) (q : PartCfg) : Option Bad :=
  let om := 32 + 16 * q.sync.counters.length
  let others (d : Nat) : Nat := ((x.prior s).map (monsOn d)).sum + doneMons x.cfg d + (q.nets.filter fun n => n.tally && stackOf n.trig == d).length
  firstBad [
    ownSync s.payload (some q.cores) q.wanted (q.permits clsS) q.ownsCtx,
    firstOverI q.sync.monitors fun i m => let o := om + 16 * i
      firstBad [
        needF (trefOk q m.tref) 0x0B05 o, needF ((q.task m.task).isSome) 0x0B05 (o + 12),
        needF ([0, 1].all fun d => decide (others d + ((q.sync.monitors.take (i + 1)).filter fun m => monDie q m.tref == d).length ≤ 256)) 0x0B05 o],
    needF (q.sync.full || (compactTable q.sync q.coresOn).isSome) 0x0B06 0]

/-- The claims of CLASS 0x0D that cover a vector, with their owner (R390). -/
def vecOwner (c : Cfg) (v : Nat) : Option (Option Nat) :=
  let has (l : List Claim) : Bool := l.any fun k => k.cls == 0xD && decide (k.first ≤ v) && decide (v < k.first + k.count)
  if has c.claims then some none else (c.parts.find? fun q => has q.claims).map fun q => some q.num

/-- INTERRUPTS: the vectors of a set belong to the section's function (R390), and the tally records to the partition (R400).
A vector that nobody claims is left to the CLAIMS phase. -/
def xInts (x : XEnv) (s : Sect) : Option Bad :=
  let me := if s.part = 0xFF then none else some s.part
  let si := decInts s.payload
  let ot := 16 + 8 * leAt s.payload 0 2
  firstBad [
    firstOverI si.routes fun i r => needF ((List.range r.count).all fun k =>
      decide (r.first + k < 2048) && (match vecOwner x.cfg (r.first + k) with | some w => w == me | none => true)) 0x1103 (16 + 8 * i + 4),
    match me.bind x.cfg.part with
    | none => none
    | some q => firstOverI si.tallies fun i t =>
        let on (d : Nat) : Nat := (x.cfg.parts.map (monsOn d)).sum + doneMons x.cfg d
          + (((x.prior s).map fun r => (r.ints.tallies.filter fun t => monDie r t.tref == d).length)).sum
          + ((si.tallies.take (i + 1)).filter fun t => monDie q t.tref == d).length
        needF (trefOk q t.tref && [0, 1].all fun d => decide (on d ≤ 256)) 0x1104 (ot + 16 * i)]

/-- POWER: domains not OFF that are in use, and the floor power (R413, R417). -/
def xPower (x : XEnv) : Option Bad :=
  let c := x.cfg
  let p := c.power
  let banks (n : Nat) : Bool := (c.claims ++ c.parts.flatMap (·.claims)).any fun k => k.cls == 0xB && decide (k.first ≤ n) && decide (n < k.first + k.count)
  let per := match c.master with | some m => m.frame.P | none => 1000
  firstBad [
    powerOffBad p (fun n => (c.coreOwner n).isSome) (fun d => c.parts.any fun q => bit q.pr.arrays d) banks,
    needF (floorOk p (fun n => !(bit p.off n) && (decide (128 ≤ n) || x.l.enabled n)) per fun d =>
      let l := (c.nets.map (·.2)).filter (·.onDie d)
      { named := !l.isEmpty, sum := ((l.filter fun n => n.cls == 0 && !n.tally).map (·.cycles)).sum, tallyS := l.any fun n => n.cls == 0 && n.tally }) 0x1204 0]

/-- FAULTS: the log ring lies in no partition's units and not in the staging region (R386). -/
def xFaults (x : XEnv) : Option Bad :=
  let f := x.cfg.faults
  needF (f.logLen == 0 || (decide (f.log + f.logLen ≤ 768 * 2 ^ 26) && !(overlap f.log f.logLen (382 * 2 ^ 26) (2 ^ 27))
    && x.cfg.parts.all fun q => !(overlap f.log f.logLen (q.pr.hbmFirst * 2 ^ 26) (q.pr.hbmCount * 2 ^ 26)))) 0x1004 8

/-- The images a partition's sections name, as ranges (R60). -/
def PartCfg.images (q : PartCfg) : List (Nat × Nat) :=
  (q.caddy ++ q.solver.imgs).map (fun r => (r.addr, r.len)) ++ q.nets.map fun n => (n.img, n.imgLen)

/-- The images that the ports of the field side name (R453, R469). -/
def Cfg.portImages (c : Cfg) : List (Nat × Nat) := (c.ifg.ports.filter (·.mode != 0)).map fun p => (p.img, p.imgLen)

/-- The ranges of the images that a configuration references (R60). -/
def Cfg.imageRanges (c : Cfg) : List (Nat × Nat) := c.parts.flatMap PartCfg.images ++ c.portImages

/-- JMAX × h² ÷ 8 ≥ VMAX on some axis (R157), in binary64 with h of R165. -/
def jerkTooFast (m : Mech) (kseg : Nat) : Bool :=
  let h := segLen m.durUs kseg
  (List.range m.axes).any fun i => !(fLt (((((d32 (m.jmax.getD i 0)).mul h).mul h).div (dV (fOfNat 8)))).v (d32 (m.vmax.getD i 0)).v)

/-- SOLVER: R151, R154, R156, R157. -/
def xSolver (x : XEnv) (s : Sect) (q : PartCfg) : Option Bad :=
  let sv := q.solver
  let ni := sv.imgs.length
  let eng := (x.prior s).flatMap fun r => r.solver.ctxs.map (·.engine)
  let mechFor (k : Nat) : Option Mech := (sv.ctxs.find? (·.image == k)).bind fun c => q.mechOf c.ctx
  let areas (i : Nat) : List (Nat × Nat) :=
    ((sv.ctxs.take i).flatMap fun d => (d.workAddr, 0x800000) :: (if d.seedAddr = 0 then [] else [(d.seedAddr, 0x20000)])) ++ q.images ++ x.cfg.portImages
  firstBad [
    firstOverI sv.imgs fun k r => let eo := 16 + 64 * k
      Bad.orElse (imgCheck x q r eo) fun _ =>
        let img := peek x.l.mem r.addr r.len
        match mechFor k with
        | some m => probImgCheck img eo m
        | none => probImgCheck img eo { axes := leAt img 7 1, tag := leAt img 8 8 },
    firstOverI sv.ctxs fun i c => let o := 16 + 64 * ni + 64 * i
      let cl := c.engine % 16 / 2
      let pim := decProbImg (match sv.imgs[c.image]? with | some r => peek x.l.mem r.addr r.len | none => [])
      let meets (a n : Nat) : Bool := (areas i).any fun r => overlap a n r.1 r.2
      firstBad [
        needF (q.privCtxs.contains c.ctx) 0x0602 o,
        needF (c.engine / 16 == c.ctx / 8192 && q.pr.cores.getD (8 * (c.engine / 16) + cl) 0 != 0 && !(eng.contains c.engine)) 0x0603 (o + 2),
        needF (match q.mechOf c.ctx with | some m => pim.axes == m.axes && pim.tag == m.tag | none => false) 0x0604 (o + 3),
        needF (decide (q.frame.publish + 1 ≤ q.solveEnd c) && decide (q.solveEnd c + 30 ≤ q.frame.publish + q.frame.P)) 0x0606 (o + 8),
        needF (q.inUnits c.workAddr 0x800000 && !(meets c.workAddr 0x800000)) 0x0607 (o + 0x10),
        needF (c.seedAddr == 0 || (q.inUnits c.seedAddr 0x20000 && !(meets c.seedAddr 0x20000)
          && !(overlap c.seedAddr 0x20000 c.workAddr 0x800000))) 0x0607 (o + 0x18),
        needF (match q.mechOf c.ctx with | some m => !(jerkTooFast m pim.kseg) | none => true) 0x0608 o],
    needF (q.privCtxs.all fun c => sv.ctxs.any (·.ctx == c)) 0x0602 0]

/-- The offsets of an axis record name what its port image declares (R512). -/
def axisPlaced (p : PortRec) (i : PortImg) (a : AxisRec) : Bool :=
  if p.mode = 1 then a.offs.all fun o => decide (o + 2 ≤ i.size)
  else match i.drives[a.offs.getD 0 0]? with | some d => decide (a.offs.getD 1 0 < d.2) | none => false

/-- A partition's INTERFACES section: R448, R469, R512. -/
def xIfPart (x : XEnv) (s : Sect) (q : PartCfg) : Option Bad :=
  let c := x.cfg
  let f := q.ifp
  let oc := 16 + 32 * f.axes.length + 32 * f.tsus.length
  let chans := (x.prior s).flatMap fun r => r.ifp.chans.map (·.chan)
  let tsuOn (u : Nat) : Bool := (c.ifg.tsus ++ c.parts.flatMap (·.ifp.tsus)).any (·.unit == u)
  firstBad [
    firstOverI f.axes fun i a => let o := 16 + 32 * i
      let p := c.ifg.ports.getD a.port {}
      match q.mechs.find? (·.num == a.mech) with
      | none => needF false 0x1305 o
      | some m => firstBad [
          needF (decide (a.axis ≤ m.axes)) 0x1305 (o + 1), needF (p.mode != 0) 0x1305 (o + 2),
          needF (axisPlaced p (c.imgs.getD a.port {}) a) 0x1305 (o + 4),
          needF (limitsMap a (m.qmin.getD (a.axis - 1) 0) (m.qmax.getD (a.axis - 1) 0)) 0x1305 (o + 0xC)],
    needF (q.mechs.all fun m => (List.range m.axes).all fun i => (f.axes.countP fun a => a.mech == m.num && a.axis == i + 1) == 1) 0x1305 0,
    firstOverI f.chans fun i h => let o := oc + 64 * i
      firstBad [
        needF (!(chans.contains h.chan)) 0x1306 o,
        needF (if h.kind = 0 then (c.ifg.csi.getD h.src (0, 0)).1 != 0 else (c.ifg.eth.getD h.src {}).mode != 0) 0x1306 (o + 2),
        needF (h.stamp == 0 || h.kind == 1 || tsuOn (h.stamp - 1)) 0x1306 (o + 5),
        needF (q.inUnits h.ring (h.nbuf * h.bufLen)) 0x1306 (o + 32), needF (q.inUnits h.view 128) 0x1306 (o + 40),
        needF (h.task == 0xFFFF || (match q.task h.task with | some t => t.kind == tkINGEST | none => false)) 0x1306 (o + 56)]]

/-- The global INTERFACES section: port images in HBM outside the staging region, their digests and limits (R469, R512). -/
def xIfGlob (x : XEnv) : Option Bad :=
  firstOverI x.cfg.ifg.ports fun n p => let o := 64 + 128 * n
    if p.mode = 0 then none else
    Bad.orElse (firstBad [
      need (decide (p.img + p.imgLen ≤ 768 * 2 ^ 26) && !(overlap p.img p.imgLen (382 * 2 ^ 26) (2 ^ 27))) cIMAGE o,
      need (!(anyPoison x.l.psn p.img p.imgLen)) cFETCH o]) fun _ => firstBad [
      need (sha384 (peek x.l.mem p.img p.imgLen) == p.digest) cIMAGE o,
      needF ((x.cfg.imgs.getD n {}).ok p.mode) 0x1302 o]

/-- The cross checks of one section. -/
def crossCheck (x : XEnv) (s : Sect) : Option Bad :=
  match x.cfg.part s.part with
  | none =>
    match s.typ with
    | 3 => xTime x s
    | 7 => xLayout x
    | 11 => xInts x s
    | 12 => xPower x
    | 14 => xFaults x
    | 16 => xIfGlob x
    | _ => none
  | some q =>
    match s.typ with
    | 2 => xPipelines x s q
    | 4 => xFrame x q
    | 5 => xMechs x s q
    | 6 => xCaddy x q
    | 8 => xNetworks x s q
    | 9 => xSched x s q
    | 10 => xSync x s q
    | 11 => xInts x s
    | 15 => xSolver x s q
    | 16 => xIfPart x s q
    | _ => none

/-- R508 step 6: sections in ascending TYPE, in table order within a TYPE. -/
def crossChecks (x : XEnv) : Option Reject := firstRej (knownTypes.map fun t => overSects (ofType x.ss t) (crossCheck x))

/-- The partitions of a full Blend name an array or an HBM stack that is not ready (R426). -/
def unready (e : LEnv) (rs : List PartRec) : Bool :=
  rs.any fun r =>
    (bit r.arrays 0 && !(e.arrReady 0)) || (bit r.arrays 1 && !(e.arrReady 1))
    || (r.hbmCount != 0 && ((decide (r.hbmFirst < 384) && !(e.stackReady 0)) || (decide (384 < r.hbmFirst + r.hbmCount) && !(e.stackReady 1))))

/-- The PARSE phase (R508 steps 3 to 6): the configuration, or the rejection. -/
def parsePhase (e : LEnv) (partial_ : Bool) (target : Nat) (b : List Byte) : Except Reject Cfg :=
  match firstRej [tabCheck b, crcCheck b] with
  | some r => .error r
  | none =>
    let ss := sections b
    match overSects ss (ownCheck e) with
    | some r => .error r
    | none =>
      let recs := match sect? ss 1 0xFF with | some s => byNum (decPartitions s.payload) | none => []
      let mine := if partial_ then (match e.active.bind (·.part target) with | some q => [q.pr] | none => []) else recs
      match missing partial_ target (recs.map (·.num)) ss with
      | some r => .error r
      | none =>
        if unready e mine then .error { code := cPART_STATE } else
        let asg := if partial_ then .ok [] else assignCores e.avail recs (List.range 16)
        match asg, sect? ss 1 0xFF with
        | .error (p, i), some s =>
          .error { code := cCORE_SHORT, d0 := s.typ * 65536 + s.entry,
                   d1 := s.off + 4 + 64 * ((decPartitions s.payload).findIdx (·.num == p)) + 4 + i }
        | .error _, none => .error { code := cCORE_SHORT }
        | .ok cores, _ =>
          let c := decCfg e partial_ target (leAt b 0x14 4) ss cores
          match crossChecks { l := e, cfg := c, ss, partial_, target } with
          | some r => .error r
          | none => .ok c

/-! ### AUTH -/

/-- The AUTH phase (R40, R45, R508): header, then the main signature. -/
def authPhase (e : LEnv) (h : HdrEnv) (b : List Byte) : Option Reject :=
  match hdrCheck h b with
  | some r => some r
  | none =>
    let n := b.length - 256
    match (if e.fuses.lc = .blank then SigRes.ok else sigCheck e.fuses.owner (b.drop n) (sha384 (b.take n))) with
    | .ok => if e.fuses.lc = .blank then some { code := cLIFECYCLE } else none
    | .badKey => some { code := cSIG_KEY, d0 := 0xFFFF, d1 := n }
    | _ => some { code := cSIG, d0 := 0xFFFF, d1 := n }

/-! ### SAFETY -/

/-- The part carries the -S suffix: GLB_DEVICE_ID.SFLOW (R4). -/
def Fuses.sflow (f : Fuses) : Bool := bit f.deviceId 11

/-- The life-cycle rule of R47. -/
def lifeCycleRej (f : Fuses) (safe : Bool) : Option Nat :=
  match f.lc with
  | .blank => some cLIFECYCLE
  | .develop => none
  | .field => if safe && !f.sflow then some cSAFETY_STD else none
  | .ret => if safe then some cLIFECYCLE else none

/-- The offset of the first safety header field that breaks R46. -/
def safeHeaderBad (b : List Byte) : Nat :=
  if leAt b 0 4 ≠ 0x44424C53 then 0 else if leAt b 4 2 ≠ 1 then 4 else if !(zerosAt b 6 2) then 6
  else if leAt b 8 4 ≠ b.length then 8 else if !(zerosAt b 0xD 3) then 0xD else if leAt b 0x10 4 = 0 then 0x10 else 0x14

/-- The safety content that stands in force with new content steeped: a full Blend's own, or TARGET's subsection replaced. -/
def mergeSafety (partial_ : Bool) (target : Nat) (old : Option SafeSec) (new : SafeSec) : SafeSec :=
  if partial_ then
    match old with
    | none => { subs := new.subs, mask := new.mask, serial := new.serial }
    | some o =>
      let l := o.subs.filter (·.part != target) ++ new.subs.filter (·.part == target)
      { o with subs := (List.range 8).filterMap fun p => l.find? (·.part == p), mask := o.mask ||| new.mask, serial := new.serial }
  else new

/-- A Safety over EtherCAT connection stands on an ETHERCAT port whose image places it (R469, R512). -/
def soePlaced (c : Cfg) (r : SoeRec) : Bool := (c.ifg.ports.getD r.port {}).mode == 1 && (c.imgs.getD r.port {}).placed r

/-- The first uncovered mechanism, where R48 asks for cover. -/
def uncoveredMech (f : Fuses) (c : Cfg) : Option (PartCfg × Mech) :=
  if f.sflow && f.lc == .field then
    (List.range 16).findSome? fun m => match c.mech m with
      | some (q, x) => if (c.covers q m).isSome then none else some (q, x)
      | none => none
  else none

/-- The SAFETY phase (R45 to R48, R345, R508 step 7): the configuration with the safety content that stands in force. -/
def safetyPhase (e : LEnv) (partial_ : Bool) (target : Nat) (b : List Byte) (c : Cfg) : Except Reject Cfg :=
  let ss := sections b
  let sec := (ofType ss 0x80).head?
  match lifeCycleRej e.fuses sec.isSome with
  | some code => .error { code }
  | none =>
    let done : Except Reject Cfg :=
      match sec with
      | none => .ok { c with safety := if partial_ then c.safety else none }
      | some s =>
        let p := s.payload
        let n := p.length - 256
        let rej (code off : Nat) : Reject := { code, d0 := 0x800000 + s.entry, d1 := s.off + off }
        if !(safeHeaderOk p) then .error (rej cSAFETY_SIG (safeHeaderBad p)) else
        match sigCheck e.fuses.safety (p.drop n) (sha384 (p.take n)) with
        | .badKey => .error (rej cSAFETY_KEY n)
        | .malformed | .badSig => .error (rej cSAFETY_SIG n)
        | .ok =>
          let env : SafeEnv :=
            { mechs := c.mechs.map fun (q, m) => (m.num, q.num), parts := c.parts.map (·.num),
              P := (match c.master with | some m => m.frame.P | none => 1000), target := if partial_ then some target else none }
          match safetyCheck env (soePlaced c) p with
          | some bad => .error (bad.toReject s)
          | none => .ok { c with safety := some (mergeSafety partial_ target c.safety (decSafety p)) }
    match done with
    | .error r => .error r
    | .ok c' => match uncoveredMech e.fuses c' with
      | none => .ok c'
      | some (q, m) =>
        match sect? ss 5 q.num, sec with
        | some s, _ => .error { code := cSAFETY_COVER, d0 := s.typ * 65536 + s.entry, d1 := s.off + m.off, d2 := m.num }
        | none, some s =>
          let o := match (decSafety s.payload).subs.find? (·.part == q.num) with | some u => u.off | none => 0
          .error { code := cSAFETY_COVER, d0 := s.typ * 65536 + s.entry, d1 := s.off + o, d2 := m.num }
        | none, none => .error { code := cSAFETY_COVER, d2 := m.num }

/-! ### CLAIMS (R53 to R56, R506) -/

/-- The ball index of a ball by row and column. -/
def ball (row col : Nat) : Nat := row * 256 + col

/-- The balls that a claim of a class and index also covers (R53, R466). -/
def ballsOf (cls i : Nat) : List Nat :=
  match cls with
  | 0x2 => [ball (47 + i) 61]
  | 0x6 => [ball (38 + i) 61, ball (38 + i) 63, ball (38 + i) 65, ball (38 + i) 66]
  | 0x7 => [ball (24 + i) 61, ball (24 + i) 63]
  | 0x8 => [ball (28 + i) 61, ball (28 + i) 63]
  | 0x9 => [ball 36 61, ball 36 63]
  | _ => []

/-- The multiplexed balls (R506). -/
def muxBalls : List Nat :=
  (List.range 8).flatMap (ballsOf 2) ++ (List.range 8).flatMap (ballsOf 6) ++ (List.range 4).flatMap (ballsOf 7)
  ++ (List.range 8).flatMap (ballsOf 8) ++ ballsOf 9 0

/-- A claim in the order of R56: its owner (none for the package), whether it stands in safety content, and where it
stands in the Blend (none for a claim that stays in force). -/
structure ClaimIn where
  c     : Claim
  owner : Option Nat
  safe  : Bool
  at_   : Option (Sect × Nat)

/-- The claims of a list whose records stand at an offset of a section. -/
def claimsAt (s : Sect) (o : Nat) (owner : Option Nat) (safe : Bool) (l : List Claim) : List ClaimIn :=
  l.zipIdx.map fun (c, i) => { c, owner, safe, at_ := some (s, o + 16 * i) }

/-- Claims that stay in force. -/
def claimsKept (owner : Option Nat) (safe : Bool) (l : List Claim) : List ClaimIn := l.map fun c => { c, owner, safe, at_ := none }

/-- Every claim in the order of R56. -/
def claimOrder (partial_ : Bool) (target : Nat) (ss : List Sect) (c : Cfg) : List ClaimIn :=
  let safeNew : List ClaimIn := match (ofType ss 0x80).head? with
    | none => []
    | some s => let x := decSafety s.payload
      (if partial_ then [] else claimsAt s (safeClaimsO s.payload) none true x.claims)
      ++ x.subs.flatMap fun u => claimsAt s u.clOff (some u.part) true u.claims
  let secClaims (p : Nat) (owner : Option Nat) : List ClaimIn := match sect? ss 13 p with
    | some s => claimsAt s 4 owner false (decClaims s.payload)
    | none => []
  if partial_ then
    let sf := c.safety.getD {}
    let sub (p : Nat) : List ClaimIn := match sf.subs.find? (·.part == p) with | some u => claimsKept (some p) true u.claims | none => []
    claimsKept none false c.claims ++ claimsKept none true sf.claims
      ++ ((c.parts.filter (·.num != target)).flatMap fun q => claimsKept (some q.num) false q.claims ++ sub q.num)
      ++ (if (ofType ss 0x80).isEmpty then sub target else [])
      ++ safeNew ++ secClaims target (some target)
  else safeNew ++ secClaims 0xFF none ++ c.parts.flatMap fun q => secClaims q.num (some q.num)

/-- Where a class may be claimed (R53). -/
def classOk (k : ClaimIn) : Bool :=
  let x := k.c.cls
  if x = 1 ∨ x = 2 then true
  else if [3, 4, 5, 0xB, 0xD].contains x then !k.safe
  else if decide (6 ≤ x) && decide (x ≤ 0xA) then k.safe
  else if x = 0xC ∨ x = 0xE then !k.safe && k.owner.isSome
  else false

/-- The number of indices of a class for an owner (R53). -/
def classSize (c : Cfg) (owner : Option Nat) (cls : Nat) : Nat :=
  match cls with
  | 2 => 8 | 3 => 4 | 4 => 4 | 5 => 8 | 6 => 8 | 7 => 4 | 8 => 8 | 9 => 1 | 0xA => 4 | 0xB => 32 | 0xD => 2048 | 0xE => 128
  | 0xC => match owner.bind c.part with | some q => 48 * q.wanted | none => 0
  | _ => 0

/-- The lowest index of a claim outside its class range. -/
def rangeBad (c : Cfg) (k : ClaimIn) : Option Nat :=
  let x := k.c
  if x.cls = 1 then ((List.range (min x.count 64)).map (· + x.first)).find? fun i => !(muxBalls.contains i)
  else
    let n := classSize c k.owner x.cls
    if x.first + x.count ≤ n then none else some (max x.first n)

/-- The indices of a range-checked claim of a small class. -/
def claimIdx (x : Claim) : List Nat := (List.range x.count).map (· + x.first)

/-- A claim covers an index of its class. -/
def Claim.has (x : Claim) (i : Nat) : Bool := decide (x.first ≤ i) && decide (i < x.first + x.count)

/-- The lowest index of claim `a` that claim `b` also covers, balls included (R53, R55). -/
def claimMeet (a b : Claim) : Option Nat :=
  if a.cls = b.cls then
    if overlap a.first a.count b.first b.count then some (max a.first b.first) else none
  else if a.cls = 1 then (claimIdx a).find? fun i => (claimIdx b).any fun j => (ballsOf b.cls j).contains i
  else if b.cls = 1 then (claimIdx a).find? fun i => (ballsOf a.cls i).any b.has
  else none

/-- A rejection of a claim record (R56). -/
def claimRej (code : Nat) (k : ClaimIn) (earlier idx : Nat) : Reject :=
  match k.at_ with
  | none => { code }
  | some (s, o) => { code, d0 := s.typ * 65536 + s.entry, d1 := s.off + o, d2 := earlier * 65536 + k.c.feature,
                     d3 := k.c.cls * 2 ^ 24 + idx % 2 ^ 24 }

/-- CLASS, range and conflict of one record against those before it. Claims that stay in force are not checked again. -/
def claimCheck (c : Cfg) (prev : List ClaimIn) (k : ClaimIn) : Option Reject :=
  if k.at_.isNone then none
  else if !(classOk k) then some (claimRej cCLAIM_CLASS k 0 k.c.first)
  else match rangeBad c k with
    | some i => some (claimRej cCLAIM_RANGE k 0 i)
    | none =>
      let hits := prev.filterMap fun p => (claimMeet k.c p.c).map fun i => (i, p.c.feature)
      match hits with
      | [] => none
      | (i, f) :: r => some (claimRej cCLAIM_CONFLICT k f (r.foldl (fun m e => min m e.1) i))

/-- Every record in order (R56). -/
def claimsCheck (c : Cfg) : List ClaimIn → List ClaimIn → Option Reject
  | _, [] => none
  | prev, k :: r => match claimCheck c prev k with
    | some x => some x
    | none => claimsCheck c (prev ++ [k]) r

/-- The uses one section makes (R54). -/
def usesOf (s : Sect) : List Use :=
  let b := s.payload
  let owner := if s.part = 0xFF then none else some s.part
  let use (cls index off : Nat) (owner : Option Nat := owner) : Use := { cls, index, owner, sect := s, off }
  let tsu (o : Nat) (l : List TsuRec) : List Use := l.zipIdx.map fun (t, i) => use 2 t.unit (o + 32 * i)
  match s.typ with
  | 8 => (decNetworks b).zipIdx.flatMap fun (n, i) => (List.range 32).filterMap fun k =>
      if n.onDie (k / 16) && bit n.banks (k % 16) then some (use 0xB k (16 + 128 * i)) else none
  | 9 => (decSched b).groups.zipIdx.map fun (g, i) => use 0xE (64 * g.die + g.grp) (32 + 16 * i)
  | 10 => (decSync b).counters.zipIdx.filterMap fun (k, i) => match decTref (decSync b).full k.tref with
      | some (.full n m) => some (use 0xC (48 * n + m) (32 + 16 * i))
      | _ => none
  | 11 => (decInts b).routes.zipIdx.flatMap fun (r, i) => (List.range r.count).map fun k => use 0xD (r.first + k) (16 + 8 * i)
  | 16 => if s.part = 0xFF then
        let g := decIfGlob b
        (g.ports.zipIdx.filterMap fun (p, i) => if p.mode = 0 then none else some (use 3 i (64 + 128 * i)))
        ++ (g.eth.zipIdx.filterMap fun (p, i) => if p.mode = 0 then none else some (use 4 i (576 + 16 * i)))
        ++ (g.csi.zipIdx.filterMap fun (p, i) => if p.1 = 0 then none else some (use 5 i (640 + 8 * i)))
        ++ tsu 704 g.tsus
      else
        let f := decIfPart b
        let ot := 16 + 32 * f.axes.length
        tsu ot f.tsus ++ f.chans.zipIdx.filterMap fun (h, i) =>
          if h.kind = 0 ∧ h.stamp ≠ 0 then some (use 2 (h.stamp - 1) (ot + 32 * f.tsus.length + 64 * i)) else none
  | 0x80 =>
      let x := decSafety b
      let zo := safeO + 128
      let so := zo + 48 * leAt b (safeO + 0xC) 1
      (x.glob.estop.zipIdx.filterMap fun (m, i) => if m.1 = 0 then none else some (use 7 i (safeO + 0x40 + 4 * i)))
      ++ (if x.glob.enable.1 = 0 then [] else [use 9 0 (safeO + 0x50)])
      ++ (x.zones.zipIdx.filterMap fun (z, i) => if z.ossd = 0xFF then none else some (use 8 z.ossd (zo + 48 * i)))
      ++ (x.soe.zipIdx.map fun (r, i) => use 0xA r.port (so + 16 * i))
      ++ x.subs.flatMap fun u => u.mechs.zipIdx.flatMap fun (m, j) =>
          (maskBits 8 m.outs).map fun n => use 6 n (u.off + 16 + 32 * j) (some u.part)
  | _ => []

/-- The CLAIMS phase (R54 to R56). In a partition Blend with SAFETY the global part of the content is not taken into force
and makes no uses. -/
def claimsPhase (partial_ : Bool) (target : Nat) (b : List Byte) (c : Cfg) : Option Reject :=
  let ss := sections b
  let l := claimOrder partial_ target ss c
  match claimsCheck c [] l with
  | some r => some r
  | none =>
    let uses := (ss.flatMap usesOf).filter fun u => !(partial_ && u.sect.typ == 0x80 && u.owner.isNone)
    (uses.find? fun u => !(l.any fun k => k.c.cls == u.cls && k.owner == u.owner && k.c.has u.index)).map fun u =>
      { code := cUNCLAIMED, d0 := u.sect.typ * 65536 + u.sect.entry, d1 := u.sect.off + u.off, d3 := u.cls * 2 ^ 24 + u.index }

end Sys2Proof.Machine
end

