-- ==== Sys2Proof/Machine/Regs.lean ====
section
/-! DEFINITION. The register map (R489): the BAR0 offset of every register of the register index, written from the
three parts R489 adds (scope base, block base, offset) with the stride of each instance index; the reset values of R490;
and, per offset, which bits a write sets, clears or raises (the access types of R6). -/

namespace Sys2Proof.Machine.Reg

/-- The base of core `k` (R489): die base + 0x4_0000 x cluster + 0x4000 x core. -/
def coreBase (k : Nat) : Nat := 0x200000 + 0x400000 * (k / 64) + 0x40000 * (k / 8 % 8) + 0x4000 * (k % 8)

/-- GLB_DEVICE_ID (R489, register index). -/
def glbDeviceId : Nat := 0x0
/-- GLB_CORE_EN[n] (R489, register index). -/
def glbCoreEn (n : Nat) : Nat := 0x10 + 0x4 * n
/-- GLB_PKG_ID (R489, register index). -/
def glbPkgId : Nat := 0x20
/-- GLB_D2D_STATUS (R489, register index). -/
def glbD2dStatus : Nat := 0x24
/-- GLB_D2D_RETRY[n] (R489, register index). -/
def glbD2dRetry (n : Nat) : Nat := 0x28 + 0x4 * n
/-- GLB_FRAME_HEAD[p] (R489, register index). -/
def glbFrameHead (p : Nat) : Nat := 0x40 + 0x4 * p
/-- GLB_FRAME_COMMIT[p] (R489, register index). -/
def glbFrameCommit (p : Nat) : Nat := 0x60 + 0x4 * p
/-- GLB_TDC_LO (R489, register index). -/
def glbTdcLo : Nat := 0x80
/-- GLB_TDC_HI (R489, register index). -/
def glbTdcHi : Nat := 0x84
/-- GLB_TDC_CAUSE[n] (R489, register index). -/
def glbTdcCause (n : Nat) : Nat := 0x88 + 0x4 * n
/-- GLB_TDC_LAST (R489, register index). -/
def glbTdcLast : Nat := 0xA8
/-- GLB_TDC_FIRST (R489, register index). -/
def glbTdcFirst : Nat := 0xAC
/-- GLB_COMMIT_CRC[p] (R489, register index). -/
def glbCommitCrc (p : Nat) : Nat := 0xC0 + 0x4 * p
/-- GLB_RUN_EPOCH[p] (R489, register index). -/
def glbRunEpoch (p : Nat) : Nat := 0xE0 + 0x4 * p
/-- GLB_TP_STATUS (R489, register index). -/
def glbTpStatus : Nat := 0x100
/-- GLB_FW_LAST (R489, register index). -/
def glbFwLast : Nat := 0x110
/-- GLB_FW_ADDR_LO (R489, register index). -/
def glbFwAddrLo : Nat := 0x114
/-- GLB_FW_ADDR_HI (R489, register index). -/
def glbFwAddrHi : Nat := 0x118
/-- GLB_ST_STATUS[d] (R489, register index). -/
def glbStStatus (d : Nat) : Nat := 0x120 + 0x4 * d
/-- GLB_ST_UNITS[d] (R489, register index). -/
def glbStUnits (d : Nat) : Nat := 0x128 + 0x4 * d
/-- GLB_ST_PENDING[n] (R489, register index). -/
def glbStPending (n : Nat) : Nat := 0x130 + 0x4 * n
/-- GLB_ST_LATE[n] (R489, register index). -/
def glbStLate (n : Nat) : Nat := 0x140 + 0x4 * n
/-- GLB_ST_PASS_LO (R489, register index). -/
def glbStPassLo : Nat := 0x150
/-- GLB_ST_PASS_HI (R489, register index). -/
def glbStPassHi : Nat := 0x154
/-- GLB_ST_INCOMPLETE (R489, register index). -/
def glbStIncomplete : Nat := 0x158
/-- GLB_ST_FORCED (R489, register index). -/
def glbStForced : Nat := 0x15C
/-- GLB_ST_FAIL (R489, register index). -/
def glbStFail : Nat := 0x160
/-- GLB_ST_MISSED (R489, register index). -/
def glbStMissed : Nat := 0x164
/-- GLB_FW_REFUSED (R489, register index). -/
def glbFwRefused : Nat := 0x168
/-- GLB_READY[n] (R489, register index). -/
def glbReady (n : Nat) : Nat := 0x200 + 0x4 * n
/-- GLB_READY_FAIL[n] (R489, register index). -/
def glbReadyFail (n : Nat) : Nat := 0x208 + 0x4 * n
/-- GLB_RESET_CMD (R489, register index). -/
def glbResetCmd : Nat := 0x210
/-- GLB_RESET_CAUSE (R489, register index). -/
def glbResetCause : Nat := 0x214
/-- GLB_LC_STATE (R489, register index). -/
def glbLcState : Nat := 0x220
/-- GLB_LC_CMD (R489, register index). -/
def glbLcCmd : Nat := 0x224
/-- GLB_LC_SRC_LO (R489, register index). -/
def glbLcSrcLo : Nat := 0x228
/-- GLB_LC_SRC_HI (R489, register index). -/
def glbLcSrcHi : Nat := 0x22C
/-- GLB_LC_NONCE_LO (R489, register index). -/
def glbLcNonceLo : Nat := 0x230
/-- GLB_LC_NONCE_HI (R489, register index). -/
def glbLcNonceHi : Nat := 0x234
/-- GLB_LC_STATUS (R489, register index). -/
def glbLcStatus : Nat := 0x238
/-- GLB_KEY_SLOTS (R489, register index). -/
def glbKeySlots : Nat := 0x23C
/-- GLB_UID_LO (R489, register index). -/
def glbUidLo : Nat := 0x240
/-- GLB_UID_HI (R489, register index). -/
def glbUidHi : Nat := 0x244
/-- WDN_STATUS (R489, register index). -/
def wdnStatus : Nat := 0x100000
/-- WDN_CMD (R489, register index). -/
def wdnCmd : Nat := 0x100004
/-- WDN_TRIG_LAST (R489, register index). -/
def wdnTrigLast : Nat := 0x100008
/-- WDN_TRIG_TIME_LO (R489, register index). -/
def wdnTrigTimeLo : Nat := 0x10000C
/-- WDN_TRIG_TIME_HI (R489, register index). -/
def wdnTrigTimeHi : Nat := 0x100010
/-- WDN_INPUTS (R489, register index). -/
def wdnInputs : Nat := 0x100014
/-- WDN_IN_FAULT (R489, register index). -/
def wdnInFault : Nat := 0x100018
/-- WDN_OUTPUTS (R489, register index). -/
def wdnOutputs : Nat := 0x10001C
/-- WDN_FW_VERSION (R489, register index). -/
def wdnFwVersion : Nat := 0x100020
/-- WDN_MECH[m] (R489, register index). -/
def wdnMech (m : Nat) : Nat := 0x100040 + 0x4 * m
/-- WDN_WD_WIN[w] (R489, register index). -/
def wdnWdWin (w : Nat) : Nat := 0x100080 + 0x8 * w
/-- WDN_WD_STATUS[w] (R489, register index). -/
def wdnWdStatus (w : Nat) : Nat := 0x100084 + 0x8 * w
/-- WDN_WD_VIOL (R489, register index). -/
def wdnWdViol : Nat := 0x1000E0
/-- WDN_SAUCERS (R489, register index). -/
def wdnSaucers : Nat := 0x1000E4
/-- WDN_SSM_STOPS (R489, register index). -/
def wdnSsmStops : Nat := 0x1000E8
/-- WDN_SSM_REFUSED (R489, register index). -/
def wdnSsmRefused : Nat := 0x1000EC
/-- WDN_RESTARTS (R489, register index). -/
def wdnRestarts : Nat := 0x1000F0
/-- WDN_DISC (R489, register index). -/
def wdnDisc : Nat := 0x1000F4
/-- WDN_SOE_ERR (R489, register index). -/
def wdnSoeErr : Nat := 0x1000F8
/-- WDN_SOE_STATUS[c] (R489, register index). -/
def wdnSoeStatus (c : Nat) : Nat := 0x100100 + 0x4 * c
/-- BLD_CMD (R489, register index). -/
def bldCmd : Nat := 0x104000
/-- BLD_SRC_LO (R489, register index). -/
def bldSrcLo : Nat := 0x104004
/-- BLD_SRC_HI (R489, register index). -/
def bldSrcHi : Nat := 0x104008
/-- BLD_LEN (R489, register index). -/
def bldLen : Nat := 0x10400C
/-- BLD_STATUS (R489, register index). -/
def bldStatus : Nat := 0x104010
/-- BLD_REJ_DETAIL[n] (R489, register index). -/
def bldRejDetail (n : Nat) : Nat := 0x104014 + 0x4 * n
/-- BLD_ACTIVE_SERIAL (R489, register index). -/
def bldActiveSerial : Nat := 0x104024
/-- BLD_PART_SERIAL[p] (R489, register index). -/
def bldPartSerial (p : Nat) : Nat := 0x104028 + 0x4 * p
/-- BLD_PART_STATE[p] (R489, register index). -/
def bldPartState (p : Nat) : Nat := 0x104048 + 0x4 * p
/-- BLD_T0_LO (R489, register index). -/
def bldT0Lo : Nat := 0x104068
/-- BLD_T0_HI (R489, register index). -/
def bldT0Hi : Nat := 0x10406C
/-- BLD_CORE_OWNER[n] (R489, register index). -/
def bldCoreOwner (n : Nat) : Nat := 0x104070 + 0x4 * n
/-- SEL_GOAL_BASE_LO[p] (R489, register index). -/
def selGoalBaseLo (p : Nat) : Nat := 0x105000 + 0x8 * p
/-- SEL_GOAL_BASE_HI[p] (R489, register index). -/
def selGoalBaseHi (p : Nat) : Nat := 0x105004 + 0x8 * p
/-- SEL_ROUND_STATUS (R489, register index). -/
def selRoundStatus : Nat := 0x105040
/-- SEL_MECH_STATE[m] (R489, register index). -/
def selMechState (m : Nat) : Nat := 0x105080 + 0x4 * m
/-- SEL_HORIZON_LO[m] (R489, register index). -/
def selHorizonLo (m : Nat) : Nat := 0x1050C0 + 0x8 * m
/-- SEL_HORIZON_HI[m] (R489, register index). -/
def selHorizonHi (m : Nat) : Nat := 0x1050C4 + 0x8 * m
/-- SEL_THALF[m] (R489, register index). -/
def selThalf (m : Nat) : Nat := 0x105140 + 0x4 * m
/-- SEL_COMMITS_LO (R489, register index). -/
def selCommitsLo : Nat := 0x105180
/-- SEL_COMMITS_HI (R489, register index). -/
def selCommitsHi : Nat := 0x105184
/-- SEL_FALLBACK (R489, register index). -/
def selFallback : Nat := 0x105188
/-- SEL_DISAGREE (R489, register index). -/
def selDisagree : Nat := 0x10518C
/-- SEL_PAIR_DROP (R489, register index). -/
def selPairDrop : Nat := 0x105190
/-- SEL_CARRIED (R489, register index). -/
def selCarried : Nat := 0x105194
/-- SEL_SAUCER_SUB (R489, register index). -/
def selSaucerSub : Nat := 0x105198
/-- SEL_NOCLASS (R489, register index). -/
def selNoclass : Nat := 0x10519C
/-- SEL_LATE (R489, register index). -/
def selLate : Nat := 0x1051A0
/-- SEL_REFUSED (R489, register index). -/
def selRefused : Nat := 0x1051A4
/-- MEM_SECURE_STATUS (R489, register index). -/
def memSecureStatus : Nat := 0x106000
/-- MEM_TAMPER (R489, register index). -/
def memTamper : Nat := 0x106004
/-- ERR_STATUS (R489, register index). -/
def errStatus : Nat := 0x107000
/-- ERR_SEQ (R489, register index). -/
def errSeq : Nat := 0x107004
/-- ERR_READ (R489, register index). -/
def errRead : Nat := 0x107008
/-- ERR_CMD (R489, register index). -/
def errCmd : Nat := 0x10700C
/-- ERR_RETIRED_CORE[n] (R489, register index). -/
def errRetiredCore (n : Nat) : Nat := 0x107010 + 0x4 * n
/-- ERR_RETIRED_UNIT[d] (R489, register index). -/
def errRetiredUnit (d : Nat) : Nat := 0x107020 + 0x4 * d
/-- ERR_RETIRED_STORE (R489, register index). -/
def errRetiredStore : Nat := 0x107028
/-- ERR_LANE_RET[n] (R489, register index). -/
def errLaneRet (n : Nat) : Nat := 0x107040 + 0x4 * n
/-- ERR_UNIT_SEL (R489, register index). -/
def errUnitSel : Nat := 0x1070C0
/-- ERR_UNIT_STATE (R489, register index). -/
def errUnitState : Nat := 0x1070C4
/-- ERR_RING[j] (R489, register index). -/
def errRing (j : Nat) : Nat := 0x110000 + 0x4 * j
/-- ERR_TRANSIENT (R489, register index). -/
def errTransient : Nat := 0x107100
/-- ERR_LASTING (R489, register index). -/
def errLasting : Nat := 0x107104
/-- ERR_CONFIRM (R489, register index). -/
def errConfirm : Nat := 0x107108
/-- ERR_UNRESOLVED (R489, register index). -/
def errUnresolved : Nat := 0x10710C
/-- ERR_UNATTRIB (R489, register index). -/
def errUnattrib : Nat := 0x107110
/-- ERR_COALESCED (R489, register index). -/
def errCoalesced : Nat := 0x107114
/-- ERR_LOST (R489, register index). -/
def errLost : Nat := 0x107118
/-- ERR_RETIRE_COUNT (R489, register index). -/
def errRetireCount : Nat := 0x10711C
/-- INT_STATUS (R489, register index). -/
def intStatus : Nat := 0x108000
/-- INT_MSGS_LO (R489, register index). -/
def intMsgsLo : Nat := 0x108004
/-- INT_MSGS_HI (R489, register index). -/
def intMsgsHi : Nat := 0x108008
/-- INT_COALESCED (R489, register index). -/
def intCoalesced : Nat := 0x10800C
/-- INT_UNROUTED (R489, register index). -/
def intUnrouted : Nat := 0x108010
/-- INT_SW_SET_G (R489, register index). -/
def intSwSetG : Nat := 0x108014
/-- INT_SW_SET_P[p] (R489, register index). -/
def intSwSetP (p : Nat) : Nat := 0x108020 + 0x4 * p
/-- INT_SRC_STATE[i] (R489, register index). -/
def intSrcState (i : Nat) : Nat := 0x108400 + 0x4 * i
/-- INT_VEC[v] (R489, register index). -/
def intVec (v : Nat) : Nat := 0x114000 + 0x4 * v
/-- KTL_STATUS (R489, register index). -/
def ktlStatus : Nat := 0x109000
/-- KTL_CAP (R489, register index). -/
def ktlCap : Nat := 0x109004
/-- KTL_POWER (R489, register index). -/
def ktlPower : Nat := 0x109008
/-- KTL_LENT (R489, register index). -/
def ktlLent : Nat := 0x10900C
/-- KTL_ENERGY_LO (R489, register index). -/
def ktlEnergyLo : Nat := 0x109010
/-- KTL_ENERGY_HI (R489, register index). -/
def ktlEnergyHi : Nat := 0x109014
/-- KTL_TEMP[n] (R489, register index). -/
def ktlTemp (n : Nat) : Nat := 0x109018 + 0x4 * n
/-- KTL_PLL_LOCK (R489, register index). -/
def ktlPllLock : Nat := 0x109024
/-- KTL_THROTTLE (R489, register index). -/
def ktlThrottle : Nat := 0x109030
/-- KTL_CAP_EXCEED (R489, register index). -/
def ktlCapExceed : Nat := 0x109034
/-- KTL_COSY_ENTRY (R489, register index). -/
def ktlCosyEntry : Nat := 0x109038
/-- KTL_THERM (R489, register index). -/
def ktlTherm : Nat := 0x10903C
/-- KTL_PLL_LOSS (R489, register index). -/
def ktlPllLoss : Nat := 0x109040
/-- KTL_CLK[i] (R489, register index). -/
def ktlClk (i : Nat) : Nat := 0x109080 + 0x4 * i
/-- KTL_DOMAIN[n] (R489, register index). -/
def ktlDomain (n : Nat) : Nat := 0x109400 + 0x4 * n
/-- HIF_SQ_BASE_LO[f][q] (R489, register index). -/
def hifSqBaseLo (f : Nat) (q : Nat) : Nat := 0x10A000 + 0x400 * f + 0x40 * q
/-- HIF_SQ_BASE_HI[f][q] (R489, register index). -/
def hifSqBaseHi (f : Nat) (q : Nat) : Nat := 0x10A004 + 0x400 * f + 0x40 * q
/-- HIF_CQ_BASE_LO[f][q] (R489, register index). -/
def hifCqBaseLo (f : Nat) (q : Nat) : Nat := 0x10A008 + 0x400 * f + 0x40 * q
/-- HIF_CQ_BASE_HI[f][q] (R489, register index). -/
def hifCqBaseHi (f : Nat) (q : Nat) : Nat := 0x10A00C + 0x400 * f + 0x40 * q
/-- HIF_Q_CTRL[f][q] (R489, register index). -/
def hifQCtrl (f : Nat) (q : Nat) : Nat := 0x10A010 + 0x400 * f + 0x40 * q
/-- HIF_SQ_TAIL[f][q] (R489, register index). -/
def hifSqTail (f : Nat) (q : Nat) : Nat := 0x10A014 + 0x400 * f + 0x40 * q
/-- HIF_CQ_HEAD[f][q] (R489, register index). -/
def hifCqHead (f : Nat) (q : Nat) : Nat := 0x10A018 + 0x400 * f + 0x40 * q
/-- HIF_SQ_HEAD[f][q] (R489, register index). -/
def hifSqHead (f : Nat) (q : Nat) : Nat := 0x10A01C + 0x400 * f + 0x40 * q
/-- HIF_SQ_CREDIT[f][q] (R489, register index). -/
def hifSqCredit (f : Nat) (q : Nat) : Nat := 0x10A020 + 0x400 * f + 0x40 * q
/-- HIF_Q_STATUS[f][q] (R489, register index). -/
def hifQStatus (f : Nat) (q : Nat) : Nat := 0x10A024 + 0x400 * f + 0x40 * q
/-- HIF_VT_BASE_LO[p] (R489, register index). -/
def hifVtBaseLo (p : Nat) : Nat := 0x10A600 + 0x400 * p
/-- HIF_VT_BASE_HI[p] (R489, register index). -/
def hifVtBaseHi (p : Nat) : Nat := 0x10A604 + 0x400 * p
/-- HIF_VT_CTRL[p] (R489, register index). -/
def hifVtCtrl (p : Nat) : Nat := 0x10A608 + 0x400 * p
/-- HIF_VT_HEAD[p] (R489, register index). -/
def hifVtHead (p : Nat) : Nat := 0x10A60C + 0x400 * p
/-- HIF_VT_DROP[p] (R489, register index). -/
def hifVtDrop (p : Nat) : Nat := 0x10A610 + 0x400 * p
/-- HIF_LINK (R489, register index). -/
def hifLink : Nat := 0x10C400
/-- HIF_TIME_LO (R489, register index). -/
def hifTimeLo : Nat := 0x10C404
/-- HIF_TIME_HI (R489, register index). -/
def hifTimeHi : Nat := 0x10C408
/-- HIF_REFUSED (R489, register index). -/
def hifRefused : Nat := 0x10C40C
/-- HIF_CQ_FULL (R489, register index). -/
def hifCqFull : Nat := 0x10C410
/-- HIF_DB_IGNORED (R489, register index). -/
def hifDbIgnored : Nat := 0x10C414
/-- FBS_PORT_STATUS[n] (R489, register index). -/
def fbsPortStatus (n : Nat) : Nat := 0x10D000 + 0x40 * n
/-- FBS_PORT_ERR[n] (R489, register index). -/
def fbsPortErr (n : Nat) : Nat := 0x10D004 + 0x40 * n
/-- FBS_CYCLES_LO[n] (R489, register index). -/
def fbsCyclesLo (n : Nat) : Nat := 0x10D008 + 0x40 * n
/-- FBS_CYCLES_HI[n] (R489, register index). -/
def fbsCyclesHi (n : Nat) : Nat := 0x10D00C + 0x40 * n
/-- FBS_MISSED[n] (R489, register index). -/
def fbsMissed (n : Nat) : Nat := 0x10D010 + 0x40 * n
/-- FBS_WKC_ERR[n] (R489, register index). -/
def fbsWkcErr (n : Nat) : Nat := 0x10D014 + 0x40 * n
/-- FBS_RX_ERR[n] (R489, register index). -/
def fbsRxErr (n : Nat) : Nat := 0x10D018 + 0x40 * n
/-- FBS_DC_DEV[n] (R489, register index). -/
def fbsDcDev (n : Nat) : Nat := 0x10D01C + 0x40 * n
/-- FBS_PTP_STATUS (R489, register index). -/
def fbsPtpStatus : Nat := 0x10D100
/-- FBS_PTP_OFFSET (R489, register index). -/
def fbsPtpOffset : Nat := 0x10D104
/-- FBS_PTP_SLEW (R489, register index). -/
def fbsPtpSlew : Nat := 0x10D108
/-- FBS_PTP_GM_LO (R489, register index). -/
def fbsPtpGmLo : Nat := 0x10D10C
/-- FBS_PTP_GM_HI (R489, register index). -/
def fbsPtpGmHi : Nat := 0x10D110
/-- FBS_AXIS[a] (R489, register index). -/
def fbsAxis (a : Nat) : Nat := 0x10D400 + 0x4 * a
/-- FBS_AXIS_POS[a] (R489, register index). -/
def fbsAxisPos (a : Nat) : Nat := 0x10D600 + 0x4 * a
/-- SNS_RX_STATUS[r] (R489, register index). -/
def snsRxStatus (r : Nat) : Nat := 0x10E000 + 0x4 * r
/-- SNS_ETH_STATUS[n] (R489, register index). -/
def snsEthStatus (n : Nat) : Nat := 0x10E020 + 0x4 * n
/-- SNS_TSU_STATUS[u] (R489, register index). -/
def snsTsuStatus (u : Nat) : Nat := 0x10E040 + 0x4 * u
/-- SNS_TSU_CAP_LO[u] (R489, register index). -/
def snsTsuCapLo (u : Nat) : Nat := 0x10E060 + 0x8 * u
/-- SNS_TSU_CAP_HI[u] (R489, register index). -/
def snsTsuCapHi (u : Nat) : Nat := 0x10E064 + 0x8 * u
/-- SNS_CSI_ERR[r] (R489, register index). -/
def snsCsiErr (r : Nat) : Nat := 0x10E0A0 + 0x4 * r
/-- SNS_CHAN_STATUS[c] (R489, register index). -/
def snsChanStatus (c : Nat) : Nat := 0x10E100 + 0x4 * c
/-- SNS_LATE[c] (R489, register index). -/
def snsLate (c : Nat) : Nat := 0x10E200 + 0x4 * c
/-- SNS_DROP[c] (R489, register index). -/
def snsDrop (c : Nat) : Nat := 0x10E280 + 0x4 * c
/-- SNS_ERR[c] (R489, register index). -/
def snsErr (c : Nat) : Nat := 0x10E300 + 0x4 * c
/-- CDL_PORT_STATUS[n] (R489, register index). -/
def cdlPortStatus (n : Nat) : Nat := 0x10F000 + 0x100 * n
/-- CDL_PEER_UID_LO[n] (R489, register index). -/
def cdlPeerUidLo (n : Nat) : Nat := 0x10F004 + 0x100 * n
/-- CDL_PEER_UID_HI[n] (R489, register index). -/
def cdlPeerUidHi (n : Nat) : Nat := 0x10F008 + 0x100 * n
/-- CDL_CTRL[n] (R489, register index). -/
def cdlCtrl (n : Nat) : Nat := 0x10F00C + 0x100 * n
/-- CDL_RETRY[n] (R489, register index). -/
def cdlRetry (n : Nat) : Nat := 0x10F010 + 0x100 * n
/-- CDL_CORRECTED[n] (R489, register index). -/
def cdlCorrected (n : Nat) : Nat := 0x10F014 + 0x100 * n
/-- CDL_DOWN_COUNT[n] (R489, register index). -/
def cdlDownCount (n : Nat) : Nat := 0x10F018 + 0x100 * n
/-- CDL_TX_FLITS_LO[n] (R489, register index). -/
def cdlTxFlitsLo (n : Nat) : Nat := 0x10F020 + 0x100 * n
/-- CDL_TX_FLITS_HI[n] (R489, register index). -/
def cdlTxFlitsHi (n : Nat) : Nat := 0x10F024 + 0x100 * n
/-- CDL_RX_FLITS_LO[n] (R489, register index). -/
def cdlRxFlitsLo (n : Nat) : Nat := 0x10F028 + 0x100 * n
/-- CDL_RX_FLITS_HI[n] (R489, register index). -/
def cdlRxFlitsHi (n : Nat) : Nat := 0x10F02C + 0x100 * n
/-- CDL_ROUTE[r] (R489, register index). -/
def cdlRoute (r : Nat) : Nat := 0x10F800 + 0x4 * r
/-- CDL_OPEN[p] (R489, register index). -/
def cdlOpen (p : Nat) : Nat := 0x10F820 + 0x4 * p
/-- CDL_REMOTE_ERR (R489, register index). -/
def cdlRemoteErr : Nat := 0x10F840
/-- FLD_EPOCH[d] (R489, register index). -/
def fldEpoch (d : Nat) : Nat := 0x200000 + 0x400000 * d + 0x201000
/-- FLD_PUB_TIME_LO[d] (R489, register index). -/
def fldPubTimeLo (d : Nat) : Nat := 0x200000 + 0x400000 * d + 0x201004
/-- FLD_PUB_TIME_HI[d] (R489, register index). -/
def fldPubTimeHi (d : Nat) : Nat := 0x200000 + 0x400000 * d + 0x201008
/-- FLD_BUILD_STATUS[d] (R489, register index). -/
def fldBuildStatus (d : Nat) : Nat := 0x200000 + 0x400000 * d + 0x20100C
/-- FLD_SLOTS[d] (R489, register index). -/
def fldSlots (d : Nat) : Nat := 0x200000 + 0x400000 * d + 0x201010
/-- FLD_BUDGET[d] (R489, register index). -/
def fldBudget (d : Nat) : Nat := 0x200000 + 0x400000 * d + 0x201014
/-- FLD_COARSENED[d] (R489, register index). -/
def fldCoarsened (d : Nat) : Nat := 0x200000 + 0x400000 * d + 0x201018
/-- FLD_DIRTY[d] (R489, register index). -/
def fldDirty (d : Nat) : Nat := 0x200000 + 0x400000 * d + 0x20101C
/-- FLD_HUMANS[d] (R489, register index). -/
def fldHumans (d : Nat) : Nat := 0x200000 + 0x400000 * d + 0x201020
/-- FLD_LATE_COUNT[d] (R489, register index). -/
def fldLateCount (d : Nat) : Nat := 0x200000 + 0x400000 * d + 0x201024
/-- FLD_COARSEN_TOTAL[d] (R489, register index). -/
def fldCoarsenTotal (d : Nat) : Nat := 0x200000 + 0x400000 * d + 0x201028
/-- FLD_COARSEN_FINE[d] (R489, register index). -/
def fldCoarsenFine (d : Nat) : Nat := 0x200000 + 0x400000 * d + 0x20102C
/-- FLD_DIRTY_FINE[d] (R489, register index). -/
def fldDirtyFine (d : Nat) : Nat := 0x200000 + 0x400000 * d + 0x201030
/-- FLD_OCC_ERR[d] (R489, register index). -/
def fldOccErr (d : Nat) : Nat := 0x200000 + 0x400000 * d + 0x201034
/-- SWP_MECH[d][m] (R489, register index). -/
def swpMech (d : Nat) (m : Nat) : Nat := 0x200000 + 0x400000 * d + 0x202000 + 0x4 * m
/-- SWP_CAND_LO[d] (R489, register index). -/
def swpCandLo (d : Nat) : Nat := 0x200000 + 0x400000 * d + 0x202040
/-- SWP_CAND_HI[d] (R489, register index). -/
def swpCandHi (d : Nat) : Nat := 0x200000 + 0x400000 * d + 0x202044
/-- SWP_LIMIT_COUNT[d] (R489, register index). -/
def swpLimitCount (d : Nat) : Nat := 0x200000 + 0x400000 * d + 0x202048
/-- SWP_POISON_COUNT[d] (R489, register index). -/
def swpPoisonCount (d : Nat) : Nat := 0x200000 + 0x400000 * d + 0x20204C
/-- SWP_UNBOUND_COUNT[d] (R489, register index). -/
def swpUnboundCount (d : Nat) : Nat := 0x200000 + 0x400000 * d + 0x202050
/-- SWP_STALE_HANDOFF[d] (R489, register index). -/
def swpStaleHandoff (d : Nat) : Nat := 0x200000 + 0x400000 * d + 0x202054
/-- SWP_BIND_LAST[d][p] (R489, register index). -/
def swpBindLast (d : Nat) (p : Nat) : Nat := 0x200000 + 0x400000 * d + 0x202060 + 0x4 * p
/-- STN_SPHERES_LO[d] (R489, register index). -/
def stnSpheresLo (d : Nat) : Nat := 0x200000 + 0x400000 * d + 0x203000
/-- STN_SPHERES_HI[d] (R489, register index). -/
def stnSpheresHi (d : Nat) : Nat := 0x200000 + 0x400000 * d + 0x203004
/-- STN_ACCEPT_C_LO[d] (R489, register index). -/
def stnAcceptCLo (d : Nat) : Nat := 0x200000 + 0x400000 * d + 0x203008
/-- STN_ACCEPT_C_HI[d] (R489, register index). -/
def stnAcceptCHi (d : Nat) : Nat := 0x200000 + 0x400000 * d + 0x20300C
/-- STN_ACCEPT_M_LO[d] (R489, register index). -/
def stnAcceptMLo (d : Nat) : Nat := 0x200000 + 0x400000 * d + 0x203010
/-- STN_ACCEPT_M_HI[d] (R489, register index). -/
def stnAcceptMHi (d : Nat) : Nat := 0x200000 + 0x400000 * d + 0x203014
/-- STN_FORWARD_LO[d] (R489, register index). -/
def stnForwardLo (d : Nat) : Nat := 0x200000 + 0x400000 * d + 0x203018
/-- STN_FORWARD_HI[d] (R489, register index). -/
def stnForwardHi (d : Nat) : Nat := 0x200000 + 0x400000 * d + 0x20301C
/-- PRB_FINE_LO[d] (R489, register index). -/
def prbFineLo (d : Nat) : Nat := 0x200000 + 0x400000 * d + 0x204000
/-- PRB_FINE_HI[d] (R489, register index). -/
def prbFineHi (d : Nat) : Nat := 0x200000 + 0x400000 * d + 0x204004
/-- PRB_ANALYTIC_LO[d] (R489, register index). -/
def prbAnalyticLo (d : Nat) : Nat := 0x200000 + 0x400000 * d + 0x204008
/-- PRB_ANALYTIC_HI[d] (R489, register index). -/
def prbAnalyticHi (d : Nat) : Nat := 0x200000 + 0x400000 * d + 0x20400C
/-- PRB_XLAT_MISS_LO[d] (R489, register index). -/
def prbXlatMissLo (d : Nat) : Nat := 0x200000 + 0x400000 * d + 0x204010
/-- PRB_XLAT_MISS_HI[d] (R489, register index). -/
def prbXlatMissHi (d : Nat) : Nat := 0x200000 + 0x400000 * d + 0x204014
/-- PRB_VERDICT_LO[d] (R489, register index). -/
def prbVerdictLo (d : Nat) : Nat := 0x200000 + 0x400000 * d + 0x204018
/-- PRB_VERDICT_HI[d] (R489, register index). -/
def prbVerdictHi (d : Nat) : Nat := 0x200000 + 0x400000 * d + 0x20401C
/-- PRB_COLLIDED_COUNT[d] (R489, register index). -/
def prbCollidedCount (d : Nat) : Nat := 0x200000 + 0x400000 * d + 0x204020
/-- PRB_TRUNC_COUNT[d] (R489, register index). -/
def prbTruncCount (d : Nat) : Nat := 0x200000 + 0x400000 * d + 0x204024
/-- PRB_CAP_COUNT[d] (R489, register index). -/
def prbCapCount (d : Nat) : Nat := 0x200000 + 0x400000 * d + 0x204028
/-- PRB_PLAN_STALE[d] (R489, register index). -/
def prbPlanStale (d : Nat) : Nat := 0x200000 + 0x400000 * d + 0x20402C
/-- PRB_POISON_COUNT[d] (R489, register index). -/
def prbPoisonCount (d : Nat) : Nat := 0x200000 + 0x400000 * d + 0x204030
/-- PRB_NEAR_COUNT[d] (R489, register index). -/
def prbNearCount (d : Nat) : Nat := 0x200000 + 0x400000 * d + 0x204034
/-- SLV_RESULTS_LO[d] (R489, register index). -/
def slvResultsLo (d : Nat) : Nat := 0x200000 + 0x400000 * d + 0x205000
/-- SLV_RESULTS_HI[d] (R489, register index). -/
def slvResultsHi (d : Nat) : Nat := 0x200000 + 0x400000 * d + 0x205004
/-- SLV_ITERS_LO[d] (R489, register index). -/
def slvItersLo (d : Nat) : Nat := 0x200000 + 0x400000 * d + 0x205008
/-- SLV_ITERS_HI[d] (R489, register index). -/
def slvItersHi (d : Nat) : Nat := 0x200000 + 0x400000 * d + 0x20500C
/-- SLV_DEADLINE_COUNT[d] (R489, register index). -/
def slvDeadlineCount (d : Nat) : Nat := 0x200000 + 0x400000 * d + 0x205010
/-- SLV_DEGRADED_COUNT[d] (R489, register index). -/
def slvDegradedCount (d : Nat) : Nat := 0x200000 + 0x400000 * d + 0x205014
/-- SLV_REG_PIVOT[d] (R489, register index). -/
def slvRegPivot (d : Nat) : Nat := 0x200000 + 0x400000 * d + 0x205018
/-- SLV_SHAPED_COUNT[d] (R489, register index). -/
def slvShapedCount (d : Nat) : Nat := 0x200000 + 0x400000 * d + 0x20501C
/-- SLV_SMOOTH_FAIL[d] (R489, register index). -/
def slvSmoothFail (d : Nat) : Nat := 0x200000 + 0x400000 * d + 0x205020
/-- SLV_SEED_MISS[d] (R489, register index). -/
def slvSeedMiss (d : Nat) : Nat := 0x200000 + 0x400000 * d + 0x205024
/-- SLV_LATE_HANDOFF[d] (R489, register index). -/
def slvLateHandoff (d : Nat) : Nat := 0x200000 + 0x400000 * d + 0x205028
/-- SLV_CTX[d][i] (R489, register index). -/
def slvCtx (d : Nat) (i : Nat) : Nat := 0x200000 + 0x400000 * d + 0x205040 + 0x4 * i
/-- CST_SCORED_LO[d] (R489, register index). -/
def cstScoredLo (d : Nat) : Nat := 0x200000 + 0x400000 * d + 0x206000
/-- CST_SCORED_HI[d] (R489, register index). -/
def cstScoredHi (d : Nat) : Nat := 0x200000 + 0x400000 * d + 0x206004
/-- CST_GOAL_MISS[d] (R489, register index). -/
def cstGoalMiss (d : Nat) : Nat := 0x200000 + 0x400000 * d + 0x206008
/-- CST_SAT_COUNT[d] (R489, register index). -/
def cstSatCount (d : Nat) : Nat := 0x200000 + 0x400000 * d + 0x20600C
/-- SEL_REDUCE_LO[d] (R489, register index). -/
def selReduceLo (d : Nat) : Nat := 0x200000 + 0x400000 * d + 0x207000
/-- SEL_REDUCE_HI[d] (R489, register index). -/
def selReduceHi (d : Nat) : Nat := 0x200000 + 0x400000 * d + 0x207004
/-- SEL_DUP_COUNT[d] (R489, register index). -/
def selDupCount (d : Nat) : Nat := 0x200000 + 0x400000 * d + 0x207008
/-- SEL_SUSPECT_COUNT[d] (R489, register index). -/
def selSuspectCount (d : Nat) : Nat := 0x200000 + 0x400000 * d + 0x20700C
/-- SEL_TIE_COUNT[d] (R489, register index). -/
def selTieCount (d : Nat) : Nat := 0x200000 + 0x400000 * d + 0x207010
/-- SEL_PAD_COUNT[d] (R489, register index). -/
def selPadCount (d : Nat) : Nat := 0x200000 + 0x400000 * d + 0x207014
/-- SEL_LIST_LATE[d] (R489, register index). -/
def selListLate (d : Nat) : Nat := 0x200000 + 0x400000 * d + 0x207018
/-- GAR_STATUS[d] (R489, register index). -/
def garStatus (d : Nat) : Nat := 0x200000 + 0x400000 * d + 0x208000
/-- GAR_DESC[d] (R489, register index). -/
def garDesc (d : Nat) : Nat := 0x200000 + 0x400000 * d + 0x208004
/-- GAR_OPS_LO[d] (R489, register index). -/
def garOpsLo (d : Nat) : Nat := 0x200000 + 0x400000 * d + 0x208008
/-- GAR_OPS_HI[d] (R489, register index). -/
def garOpsHi (d : Nat) : Nat := 0x200000 + 0x400000 * d + 0x20800C
/-- GAR_BUSY_LO[d] (R489, register index). -/
def garBusyLo (d : Nat) : Nat := 0x200000 + 0x400000 * d + 0x208010
/-- GAR_BUSY_HI[d] (R489, register index). -/
def garBusyHi (d : Nat) : Nat := 0x200000 + 0x400000 * d + 0x208014
/-- GAR_LAST_FLAGS[d] (R489, register index). -/
def garLastFlags (d : Nat) : Nat := 0x200000 + 0x400000 * d + 0x208018
/-- GAR_LAST_COUNT[d][n] (R489, register index). -/
def garLastCount (d : Nat) (n : Nat) : Nat := 0x200000 + 0x400000 * d + 0x208020 + 0x4 * n
/-- GAR_CHK_FAIL[d] (R489, register index). -/
def garChkFail (d : Nat) : Nat := 0x200000 + 0x400000 * d + 0x208030
/-- GAR_RECOMPUTE[d] (R489, register index). -/
def garRecompute (d : Nat) : Nat := 0x200000 + 0x400000 * d + 0x208034
/-- GAR_CHK_SKIP[d] (R489, register index). -/
def garChkSkip (d : Nat) : Nat := 0x200000 + 0x400000 * d + 0x208038
/-- GAR_CMP_FAIL[d] (R489, register index). -/
def garCmpFail (d : Nat) : Nat := 0x200000 + 0x400000 * d + 0x20803C
/-- GAR_LATE_RUN[d] (R489, register index). -/
def garLateRun (d : Nat) : Nat := 0x200000 + 0x400000 * d + 0x208040
/-- GAR_DESC_ERR[d] (R489, register index). -/
def garDescErr (d : Nat) : Nat := 0x200000 + 0x400000 * d + 0x208044
/-- GAR_GATHER_RANGE[d] (R489, register index). -/
def garGatherRange (d : Nat) : Nat := 0x200000 + 0x400000 * d + 0x208048
/-- GAR_POISON[d] (R489, register index). -/
def garPoison (d : Nat) : Nat := 0x200000 + 0x400000 * d + 0x20804C
/-- GAR_NET_STATUS[d][j] (R489, register index). -/
def garNetStatus (d : Nat) (j : Nat) : Nat := 0x200000 + 0x400000 * d + 0x208080 + 0x4 * j
/-- GAR_NET_TIME[d][j] (R489, register index). -/
def garNetTime (d : Nat) (j : Nat) : Nat := 0x200000 + 0x400000 * d + 0x208100 + 0x4 * j
/-- SCH_STATUS[d] (R489, register index). -/
def schStatus (d : Nat) : Nat := 0x200000 + 0x400000 * d + 0x209000
/-- SCH_DISPATCH_LO[d] (R489, register index). -/
def schDispatchLo (d : Nat) : Nat := 0x200000 + 0x400000 * d + 0x209004
/-- SCH_DISPATCH_HI[d] (R489, register index). -/
def schDispatchHi (d : Nat) : Nat := 0x200000 + 0x400000 * d + 0x209008
/-- SCH_DELAYED[d] (R489, register index). -/
def schDelayed (d : Nat) : Nat := 0x200000 + 0x400000 * d + 0x20900C
/-- SCH_HOLD_COUNT[d] (R489, register index). -/
def schHoldCount (d : Nat) : Nat := 0x200000 + 0x400000 * d + 0x209010
/-- SCH_DISCARD[d] (R489, register index). -/
def schDiscard (d : Nat) : Nat := 0x200000 + 0x400000 * d + 0x209014
/-- SCH_NO_CORE[d] (R489, register index). -/
def schNoCore (d : Nat) : Nat := 0x200000 + 0x400000 * d + 0x209018
/-- SCH_TRACE_DROP[d] (R489, register index). -/
def schTraceDrop (d : Nat) : Nat := 0x200000 + 0x400000 * d + 0x20901C
/-- SCH_DISPLACE[d] (R489, register index). -/
def schDisplace (d : Nat) : Nat := 0x200000 + 0x400000 * d + 0x209020
/-- SCH_FLAG_REJECT[d] (R489, register index). -/
def schFlagReject (d : Nat) : Nat := 0x200000 + 0x400000 * d + 0x209024
/-- SCH_SKIP[d] (R489, register index). -/
def schSkip (d : Nat) : Nat := 0x200000 + 0x400000 * d + 0x209028
/-- SCH_FLAG_SET[d] (R489, register index). -/
def schFlagSet (d : Nat) : Nat := 0x200000 + 0x400000 * d + 0x209030
/-- SCH_TASK_SEL[d] (R489, register index). -/
def schTaskSel (d : Nat) : Nat := 0x200000 + 0x400000 * d + 0x209034
/-- SCH_TASK_FLAGS[d] (R489, register index). -/
def schTaskFlags (d : Nat) : Nat := 0x200000 + 0x400000 * d + 0x209038
/-- SCH_TASK_STATE[d] (R489, register index). -/
def schTaskState (d : Nat) : Nat := 0x200000 + 0x400000 * d + 0x20903C
/-- SCH_TRACE_HEAD[d][p] (R489, register index). -/
def schTraceHead (d : Nat) (p : Nat) : Nat := 0x200000 + 0x400000 * d + 0x209040 + 0x4 * p
/-- SCH_GROUP[d][g] (R489, register index). -/
def schGroup (d : Nat) (g : Nat) : Nat := 0x200000 + 0x400000 * d + 0x209100 + 0x4 * g
/-- SCH_DEFICIT[d][g] (R489, register index). -/
def schDeficit (d : Nat) (g : Nat) : Nat := 0x200000 + 0x400000 * d + 0x209200 + 0x4 * g
/-- SYN_OPS_LO[d] (R489, register index). -/
def synOpsLo (d : Nat) : Nat := 0x200000 + 0x400000 * d + 0x20A000
/-- SYN_OPS_HI[d] (R489, register index). -/
def synOpsHi (d : Nat) : Nat := 0x200000 + 0x400000 * d + 0x20A004
/-- SYN_UNDERFLOW[d] (R489, register index). -/
def synUnderflow (d : Nat) : Nat := 0x200000 + 0x400000 * d + 0x20A008
/-- SYN_BOUND_ERR[d] (R489, register index). -/
def synBoundErr (d : Nat) : Nat := 0x200000 + 0x400000 * d + 0x20A00C
/-- SYN_OVERFLOW[d] (R489, register index). -/
def synOverflow (d : Nat) : Nat := 0x200000 + 0x400000 * d + 0x20A010
/-- SYN_UNMAPPED[d] (R489, register index). -/
def synUnmapped (d : Nat) : Nat := 0x200000 + 0x400000 * d + 0x20A014
/-- SYN_TIMEOUT[d] (R489, register index). -/
def synTimeout (d : Nat) : Nat := 0x200000 + 0x400000 * d + 0x20A018
/-- SYN_COALESCE[d] (R489, register index). -/
def synCoalesce (d : Nat) : Nat := 0x200000 + 0x400000 * d + 0x20A01C
/-- SYN_LEND_COUNT[d] (R489, register index). -/
def synLendCount (d : Nat) : Nat := 0x200000 + 0x400000 * d + 0x20A020
/-- SYN_MODE[d] (R489, register index). -/
def synMode (d : Nat) : Nat := 0x200000 + 0x400000 * d + 0x20A024
/-- SYN_STANDING[d] (R489, register index). -/
def synStanding (d : Nat) : Nat := 0x200000 + 0x400000 * d + 0x20A028
/-- SYN_XLATE_SEL[d] (R489, register index). -/
def synXlateSel (d : Nat) : Nat := 0x200000 + 0x400000 * d + 0x20A030
/-- SYN_XLATE[d] (R489, register index). -/
def synXlate (d : Nat) : Nat := 0x200000 + 0x400000 * d + 0x20A034
/-- SYN_HOST_REF_LO[d][p] (R489, register index). -/
def synHostRefLo (d : Nat) (p : Nat) : Nat := 0x200000 + 0x400000 * d + 0x20A040 + 0x10 * p
/-- SYN_HOST_REF_HI[d][p] (R489, register index). -/
def synHostRefHi (d : Nat) (p : Nat) : Nat := 0x200000 + 0x400000 * d + 0x20A044 + 0x10 * p
/-- SYN_HOST_ADD[d][p] (R489, register index). -/
def synHostAdd (d : Nat) (p : Nat) : Nat := 0x200000 + 0x400000 * d + 0x20A048 + 0x10 * p
/-- MEM_CE[d][t] (R489, register index). -/
def memCe (d : Nat) (t : Nat) : Nat := 0x200000 + 0x400000 * d + 0x20B000 + 0x4 * t
/-- MEM_UE[d][t] (R489, register index). -/
def memUe (d : Nat) (t : Nat) : Nat := 0x200000 + 0x400000 * d + 0x20B020 + 0x4 * t
/-- MEM_CRC_RETRY[d] (R489, register index). -/
def memCrcRetry (d : Nat) : Nat := 0x200000 + 0x400000 * d + 0x20B040
/-- MEM_CRC_ERR[d] (R489, register index). -/
def memCrcErr (d : Nat) : Nat := 0x200000 + 0x400000 * d + 0x20B044
/-- MEM_POISON_WRITTEN[d] (R489, register index). -/
def memPoisonWritten (d : Nat) : Nat := 0x200000 + 0x400000 * d + 0x20B048
/-- MEM_POISON_CONSUMED[d] (R489, register index). -/
def memPoisonConsumed (d : Nat) : Nat := 0x200000 + 0x400000 * d + 0x20B04C
/-- MEM_WAKE_ON_ACCESS[d] (R489, register index). -/
def memWakeOnAccess (d : Nat) : Nat := 0x200000 + 0x400000 * d + 0x20B050
/-- MEM_UE_ADDR_LO[d] (R489, register index). -/
def memUeAddrLo (d : Nat) : Nat := 0x200000 + 0x400000 * d + 0x20B054
/-- MEM_UE_ADDR_HI[d] (R489, register index). -/
def memUeAddrHi (d : Nat) : Nat := 0x200000 + 0x400000 * d + 0x20B058
/-- MEM_SCRUB[d] (R489, register index). -/
def memScrub (d : Nat) : Nat := 0x200000 + 0x400000 * d + 0x20B05C
/-- MEM_HBM_STATUS[d] (R489, register index). -/
def memHbmStatus (d : Nat) : Nat := 0x200000 + 0x400000 * d + 0x20B060
/-- MEM_REPAIR[d] (R489, register index). -/
def memRepair (d : Nat) : Nat := 0x200000 + 0x400000 * d + 0x20B064
/-- FLD_STORE_STATUS[d][c] (R489, register index). -/
def fldStoreStatus (d : Nat) (c : Nat) : Nat := 0x200000 + 0x400000 * d + 0x40000 * c + 0x21000
/-- FLD_BUILDER_STATUS[d][c] (R489, register index). -/
def fldBuilderStatus (d : Nat) (c : Nat) : Nat := 0x200000 + 0x400000 * d + 0x40000 * c + 0x21004
/-- FLD_STALE_COUNT[d][c] (R489, register index). -/
def fldStaleCount (d : Nat) (c : Nat) : Nat := 0x200000 + 0x400000 * d + 0x40000 * c + 0x21008
/-- FLD_REPLICA_ERR[d][c] (R489, register index). -/
def fldReplicaErr (d : Nat) (c : Nat) : Nat := 0x200000 + 0x400000 * d + 0x40000 * c + 0x2100C
/-- SLV_STATUS[d][c][e] (R489, register index). -/
def slvStatus (d : Nat) (c : Nat) (e : Nat) : Nat := 0x200000 + 0x400000 * d + 0x40000 * c + 0x22000 + 0x100 * e
/-- SLV_FLAGS[d][c][e] (R489, register index). -/
def slvFlags (d : Nat) (c : Nat) (e : Nat) : Nat := 0x200000 + 0x400000 * d + 0x40000 * c + 0x22004 + 0x100 * e
/-- SLV_RESIDUAL_LO[d][c][e] (R489, register index). -/
def slvResidualLo (d : Nat) (c : Nat) (e : Nat) : Nat := 0x200000 + 0x400000 * d + 0x40000 * c + 0x22008 + 0x100 * e
/-- SLV_RESIDUAL_HI[d][c][e] (R489, register index). -/
def slvResidualHi (d : Nat) (c : Nat) (e : Nat) : Nat := 0x200000 + 0x400000 * d + 0x40000 * c + 0x2200C + 0x100 * e
/-- SLV_MERIT_LO[d][c][e] (R489, register index). -/
def slvMeritLo (d : Nat) (c : Nat) (e : Nat) : Nat := 0x200000 + 0x400000 * d + 0x40000 * c + 0x22010 + 0x100 * e
/-- SLV_MERIT_HI[d][c][e] (R489, register index). -/
def slvMeritHi (d : Nat) (c : Nat) (e : Nat) : Nat := 0x200000 + 0x400000 * d + 0x40000 * c + 0x22014 + 0x100 * e
/-- SLV_RESULT_FRAME[d][c][e] (R489, register index). -/
def slvResultFrame (d : Nat) (c : Nat) (e : Nat) : Nat := 0x200000 + 0x400000 * d + 0x40000 * c + 0x22018 + 0x100 * e
/-- SLV_RESULT_INFO[d][c][e] (R489, register index). -/
def slvResultInfo (d : Nat) (c : Nat) (e : Nat) : Nat := 0x200000 + 0x400000 * d + 0x40000 * c + 0x2201C + 0x100 * e
/-- SLV_PIVOT[d][c][e] (R489, register index). -/
def slvPivot (d : Nat) (c : Nat) (e : Nat) : Nat := 0x200000 + 0x400000 * d + 0x40000 * c + 0x22020 + 0x100 * e
/-- SWP_CORE_STATUS[k] (R489, register index). -/
def swpCoreStatus (k : Nat) : Nat := coreBase k + 0x100
/-- SWP_CORE_CAND_LO[k] (R489, register index). -/
def swpCoreCandLo (k : Nat) : Nat := coreBase k + 0x104
/-- SWP_CORE_CAND_HI[k] (R489, register index). -/
def swpCoreCandHi (k : Nat) : Nat := coreBase k + 0x108
/-- SWP_CORE_ISSUE_LO[k] (R489, register index). -/
def swpCoreIssueLo (k : Nat) : Nat := coreBase k + 0x10C
/-- SWP_CORE_ISSUE_HI[k] (R489, register index). -/
def swpCoreIssueHi (k : Nat) : Nat := coreBase k + 0x110
/-- STN_CORE_STATUS[k] (R489, register index). -/
def stnCoreStatus (k : Nat) : Nat := coreBase k + 0x200
/-- PRB_CORE_STATUS[k] (R489, register index). -/
def prbCoreStatus (k : Nat) : Nat := coreBase k + 0x300
/-- PRB_SLOTS[k] (R489, register index). -/
def prbSlots (k : Nat) : Nat := coreBase k + 0x304
/-- PRB_CREDITS[k] (R489, register index). -/
def prbCredits (k : Nat) : Nat := coreBase k + 0x308
/-- PRB_CORE_FINE_LO[k] (R489, register index). -/
def prbCoreFineLo (k : Nat) : Nat := coreBase k + 0x30C
/-- PRB_CORE_FINE_HI[k] (R489, register index). -/
def prbCoreFineHi (k : Nat) : Nat := coreBase k + 0x310
/-- PRB_CORE_MISS[k] (R489, register index). -/
def prbCoreMiss (k : Nat) : Nat := coreBase k + 0x314
/-- SEL_CORE_STATUS[k] (R489, register index). -/
def selCoreStatus (k : Nat) : Nat := coreBase k + 0x500
/-- SCH_CORE_STATUS[k] (R489, register index). -/
def schCoreStatus (k : Nat) : Nat := coreBase k + 0x600
/-- SYN_CORE_STATUS[k] (R489, register index). -/
def synCoreStatus (k : Nat) : Nat := coreBase k + 0x700
/-- SYN_WAIT_REF_LO[k] (R489, register index). -/
def synWaitRefLo (k : Nat) : Nat := coreBase k + 0x704
/-- SYN_WAIT_REF_HI[k] (R489, register index). -/
def synWaitRefHi (k : Nat) : Nat := coreBase k + 0x708
/-- SYN_WAIT_TIME[k] (R489, register index). -/
def synWaitTime (k : Nat) : Nat := coreBase k + 0x70C
/-- SYN_COUNT[k][n] (R489, register index). -/
def synCount (k : Nat) (n : Nat) : Nat := coreBase k + 0x800 + 0x4 * n
/-- SYN_COUNT_TOP[k][n] (R489, register index). -/
def synCountTop (k : Nat) (n : Nat) : Nat := coreBase k + 0x900 + 0x4 * n
/-- MEM_CORE_STATUS[k] (R489, register index). -/
def memCoreStatus (k : Nat) : Nat := coreBase k + 0x800
/-- MEM_DMA_DESC_LO[k] (R489, register index). -/
def memDmaDescLo (k : Nat) : Nat := coreBase k + 0x804
/-- MEM_DMA_DESC_HI[k] (R489, register index). -/
def memDmaDescHi (k : Nat) : Nat := coreBase k + 0x808
/-- MEM_DMA_BYTES_LO[k] (R489, register index). -/
def memDmaBytesLo (k : Nat) : Nat := coreBase k + 0x80C
/-- MEM_DMA_BYTES_HI[k] (R489, register index). -/
def memDmaBytesHi (k : Nat) : Nat := coreBase k + 0x810
/-- MEM_CORE_ECC[k] (R489, register index). -/
def memCoreEcc (k : Nat) : Nat := coreBase k + 0x814

/-- The offset is one of `n` entries `st` apart from `base` on. -/
def among (off base n st : Nat) : Bool := decide (base ≤ off) && (off - base) % st == 0 && decide ((off - base) / st < n)

/-- The offset is a die-wide register at `o` (the offset for die 0), or one of `n` such `st` apart, on either die. -/
def amongDie (off o n st : Nat) : Bool := among off o n st || among off (o + 0x400000) n st

/-- The offset within a core's block, or none where it is not in one (R489). -/
def inCore (off : Nat) : Option (Nat × Nat) :=
  if off < 0x200000 then none else
  let r := off - 0x200000
  if r / 0x400000 < 2 ∧ r % 0x400000 < 0x200000 ∧ r % 0x40000 < 0x20000 then
    some (64 * (r / 0x400000) + 8 * (r % 0x400000 / 0x40000) + r % 0x40000 / 0x4000, r % 0x4000)
  else none

/-- The offset within a cluster's block (die × 8 + cluster, offset), or none (R489). -/
def inCluster (off : Nat) : Option (Nat × Nat) :=
  if off < 0x200000 then none else
  let r := off - 0x200000
  if r / 0x400000 < 2 ∧ r % 0x400000 < 0x200000 then
    some (8 * (r / 0x400000) + r % 0x400000 / 0x40000, r % 0x40000)
  else none

/-- The offset is the _LO register of a 64-bit pair that functions write (R8). -/
def isRwLo (off : Nat) : Bool :=
  off == glbLcSrcLo || off == bldSrcLo || off == bldT0Lo || among off (selGoalBaseLo 0) 8 8 || among off (hifVtBaseLo 0) 8 0x400
  || (List.range 9).any (fun f => among off (hifSqBaseLo f 0) 8 0x40 || among off (hifCqBaseLo f 0) 8 0x40)
  || amongDie off (synHostRefLo 0 0) 8 0x10

/-- The offset is the _LO register of a 64-bit pair (R8). -/
def isLo (off : Nat) : Bool :=
  isRwLo off || [glbTdcLo, glbFwAddrLo, glbStPassLo, glbLcNonceLo, glbUidLo, wdnTrigTimeLo, selCommitsLo, intMsgsLo, ktlEnergyLo,
    hifTimeLo, fbsPtpGmLo].contains off
  || among off (selHorizonLo 0) 16 8 || among off (fbsCyclesLo 0) 4 0x40 || among off (snsTsuCapLo 0) 8 8
  || among off (cdlPeerUidLo 0) 4 0x100 || among off (cdlTxFlitsLo 0) 4 0x100 || among off (cdlRxFlitsLo 0) 4 0x100
  || [fldPubTimeLo, swpCandLo, stnSpheresLo, stnAcceptCLo, stnAcceptMLo, stnForwardLo, prbFineLo, prbAnalyticLo, prbXlatMissLo,
      prbVerdictLo, slvResultsLo, slvItersLo, cstScoredLo, selReduceLo, garOpsLo, garBusyLo, schDispatchLo, synOpsLo,
      memUeAddrLo].any (fun r => off == r 0 || off == r 1)
  || (match inCore off with
      | some (_, o) => [0x104, 0x10C, 0x30C, 0x704, 0x804, 0x80C].contains o
      | none => match inCluster off with
        | some (_, o) => [0x22008, 0x22010, 0x22108, 0x22110].contains o
        | none => false)

/-- The reset value of the register at an offset (R490): zero but for the table of R490. Fields marked fuse, strap,
cause, firmware or list are written when cold reset is released, not here. -/
def resetOf (off : Nat) : Word :=
  if off = glbTpStatus then 0x7#32
  else if among off (bldCoreOwner 0) 16 4 then 0xFFFFFFFF#32
  else if off = ktlCap then 0x96#32
  else if among off (ktlClk 0) 18 4 then 0x00040000#32
  else if among off (intVec 0) 2048 4 then 0x0FF00000#32
  else if (List.range 9).any (fun f => among off (hifQStatus f 0) 8 0x40) then 1#32
  else if among off (cdlCtrl 0) 4 0x100 then 1#32
  else if (inCore off).map (·.2) = some 0x304 then 0x02000000#32
  else 0#32

/-- What a read or a write does to the bits of a register (the access types of R6); bits in no mask are RO or
reserved. -/
structure Access where
  rw  : Word := 0#32
  w1c : Word := 0#32
  w1s : Word := 0#32
  rc  : Word := 0#32
  deriving DecidableEq, Repr

/-- The offsets whose whole register is an event counter, read and cleared (RC). -/
def isCounter (off : Nat) : Bool :=
  among off (glbD2dRetry 0) 3 4 || among off (glbTdcCause 0) 8 4 || among off glbStIncomplete 5 4
  || among off wdnWdViol 7 4 || among off selFallback 8 4 || among off errTransient 8 4 || among off intCoalesced 2 4
  || among off ktlThrottle 5 4 || among off hifRefused 3 4 || among off (hifVtDrop 0) 8 0x400
  || (List.range 4).any (fun n => among off (fbsMissed n) 3 4 || among off (cdlRetry n) 3 4)
  || among off (snsCsiErr 0) 8 4 || among off (snsLate 0) 96 4 || off == cdlRemoteErr
  || amongDie off (fldLateCount 0) 2 4 || off == fldOccErr 0 || off == fldOccErr 1
  || amongDie off (swpLimitCount 0) 4 4 || amongDie off (prbCollidedCount 0) 6 4 || amongDie off (slvDeadlineCount 0) 7 4
  || amongDie off (cstGoalMiss 0) 2 4 || amongDie off (selDupCount 0) 5 4 || amongDie off (garChkFail 0) 8 4
  || amongDie off (schHoldCount 0) 7 4 || amongDie off (synUnderflow 0) 7 4 || amongDie off (memCe 0 0) 5 4
  || amongDie off (memUe 0 0) 5 4 || amongDie off (memCrcRetry 0) 5 4
  || (match inCore off with | some (_, o) => o == 0x314 | none => false)
  || (match inCluster off with | some (_, o) => o == 0x21008 || o == 0x2100C | none => false)

/-- Where the value of a register is held: a package-wide FLD counter that PD1's block shows is PD0's (R96). -/
def homeOf (off : Nat) : Nat :=
  if off = fldLateCount 1 then fldLateCount 0
  else if off = fldCoarsenTotal 1 then fldCoarsenTotal 0
  else if off = fldOccErr 1 then fldOccErr 0 else off

/-- The access masks of the register at an offset (R6, the bit tables of every block). -/
def accessOf (off : Nat) : Access :=
  if isCounter off then { rc := 0xFFFFFFFF#32 }
  else if off = bldCmd then { rw := 0xFF#32 }
  else if off = bldSrcLo ∨ off = bldSrcHi ∨ off = bldLen ∨ off = bldT0Lo ∨ off = bldT0Hi then { rw := 0xFFFFFFFF#32 }
  else if off = wdnCmd then { rw := 0xFF#32 }
  else if among off (selGoalBaseLo 0) 16 4 then { rw := 0xFFFFFFFF#32 }
  else if off = memTamper then { w1c := 0xF#32 }
  else if off = errRead then { rw := 0xFFFFFFFF#32 }
  else if off = errCmd then { rw := 0xF#32 }
  else if off = errUnitSel then { rw := 0xF7FF#32 }
  else if off = intSwSetG ∨ among off (intSwSetP 0) 8 4 then { w1s := 0xFF#32 }
  else if among off (intSrcState 0) 288 4 then { rw := 0x40004000#32, w1s := 0x20002000#32 }
  else if among off (intVec 0) 2048 4 then { rw := 0x0F000000#32, w1c := 0x40000000#32 }
  else if off = glbResetCmd then { rw := 0x7F#32 }
  else if off = glbLcCmd then { w1s := 1#32 }
  else if off = glbLcSrcLo ∨ off = glbLcSrcHi then { rw := 0xFFFFFFFF#32 }
  else if (List.range 9).any (fun f => (List.range 8).any fun q => among off (hifSqBaseLo f q) 4 4) then { rw := 0xFFFFFFFF#32 }
  else if (List.range 9).any (fun f => among off (hifQCtrl f 0) 8 0x40) then { rw := 0x0FF00003#32 }
  else if (List.range 9).any (fun f => among off (hifSqTail f 0) 8 0x40 || among off (hifCqHead f 0) 8 0x40) then { rw := 0xFFF#32 }
  else if (List.range 8).any (fun p => among off (hifVtBaseLo p) 2 4) then { rw := 0xFFFFFFFF#32 }
  else if among off (hifVtCtrl 0) 8 0x400 then { rw := 0xFFFFFFF1#32 }
  else if among off (snsTsuStatus 0) 8 4 then { rc := 0xFFFF0000#32 }
  else if among off (cdlCtrl 0) 4 0x100 then { rw := 1#32 }
  else if among off (cdlOpen 0) 8 4 then { rw := 0xFF#32 }
  else if amongDie off (schFlagSet 0) 1 4 then { rw := 0x73FF001F#32 }
  else if amongDie off (schTaskSel 0) 1 4 then { rw := 0x700003FF#32 }
  else if amongDie off (synXlateSel 0) 1 4 then { rw := 0x03FFFFFF#32 }
  else if amongDie off (synHostRefLo 0 0) 8 0x10 || amongDie off (synHostRefHi 0 0) 8 0x10
      || amongDie off (synHostAdd 0 0) 8 0x10 then { rw := 0xFFFFFFFF#32 }
  else match inCore off with
    | some (_, 0x814) => { rc := 0xFFFFFFFF#32 }
    | _ => {}

/-- What a write leaves in a register (R6): RW bits take the written value, a 1 clears a W1C bit and sets a W1S bit,
every other bit stands. -/
def written (a : Access) (old v : Word) : Word :=
  (((old &&& ~~~a.rw) ||| (v &&& a.rw)) &&& ~~~(v &&& a.w1c)) ||| (v &&& a.w1s)

end Sys2Proof.Machine.Reg
end

