-- ==== Sys2Proof/Machine/Runtime.lean ====
section
/-! DEFINITION. The structured run-time state of the package that no chapter's own file holds: resets and readiness, the
loader, the partitions, the field build, the cores, the solver engines, the commit round and the array runs. -/

namespace Sys2Proof.Machine

/-! ### Resets, readiness, life cycle (19_reset_and_bringup.md, 12_memory.md) -/

/-- Power and reset of the package. `up` is false while POR_N or a COLD command holds it in cold reset (R419); `ready` and
`failed` are the bits of GLB_READY and GLB_READY_FAIL, register 1 at bit 32 and above (R425). `warm` is the instant the warm
reset in force was asserted, `hold` says that it is not released (R302, R331, R427). -/
structure Dev where
  up       : Bool := false
  coldCmd  : Bool := false           -- the cold reset is held by a COLD command (R430)
  heldTo   : Nat := 0                -- how long a COLD command holds the reset
  pkgSel   : Nat := 0                -- PKG_SEL latched (R37)
  ready    : Nat := 0
  failed   : Nat := 0
  trained  : List Bool := [false, false]   -- HBM stack trained, its zero fill still running (R511)
  warm     : Option Nat := none
  hold     : Bool := false
  released : Bool := true            -- no release is followed by an unfinished restart
  warmAt   : Nat := 0                -- the trigger of the restart in progress (R330, R422)
  restart  : Bool := false           -- the warm reset came from a fall-back decision (R329)
  warmCount : Nat := 0
  warmCause : Nat := 0
  coldCause : Nat := 0
  cmdResult : Nat := 0
  lcNext   : Option LcState := none  -- a transition that awaits cold reset (R427)
  nonce    : Nat := 0
  lcStatus : Nat := 0
  locked   : Bool := false           -- a tamper event locked the device (R302)
  hbmLost  : List Bool := [true, true]     -- a stack's rails have left tolerance since it was last written with zeros (R511)
  scrubAt  : List (Option Nat) := [none, none]   -- since when a patrol scrub pass runs (R284)
  fwVersion : Nat := 0
  noCore   : Bool := false
  fall     : Option Nat := none      -- a fall-back decision taken in this command, its stamp (R329)
  bufGen   : Nat := 0                -- warm resets since cold reset: what array buffers hold undefined (R241)
  bufDef   : List (Nat × Nat) := []  -- array-buffer ranges written since the last warm reset (address, bytes)
  deriving DecidableEq, Repr

/-! ### Loader (02_blend.md) -/

/-- The steeping in progress: the phase, the kind, the fetched bytes, what PARSE and SAFETY have made of them, and the
image ranges that are locked (R60). -/
structure Steep where
  phase    : Nat := 1
  partial_ : Bool := false
  target   : Nat := 0
  blob     : List Byte := []
  src      : Nat := 0
  len      : Nat := 0
  cfg      : Option Cfg := none
  locked   : List (Nat × Nat) := []
  abort    : Bool := false
  saved    : List Nat := []          -- partition states before the command (R62)
  deriving DecidableEq, Repr

/-- The loader: the Blend in force (none before the first), the steeping in progress, the code, phase and detail of the last
one, and the slot that holds the active Blend (R57). -/
structure Loader where
  active : Option Cfg := none
  run    : Option Steep := none
  code   : Nat := 0
  last   : Nat := 0
  detail : List Nat := [0, 0, 0, 0]
  slotB  : Bool := false
  deriving DecidableEq, Repr

/-! ### Partitions and frames (01_architecture.md, 02_blend.md) -/

/-- The partition states of BLD_PART_STATE. -/
inductive PSt | unconfigured | stopped | running | steeping
  deriving DecidableEq, Repr

/-- The register value of a state. -/
def PSt.code : PSt → Nat
  | .unconfigured => 0 | .stopped => 1 | .running => 2 | .steeping => 3

/-- A state from its value. -/
def PSt.ofCode : Nat → PSt
  | 1 => .stopped | 2 => .running | 3 => .steeping | _ => .unconfigured

/-- One partition at run time. `opened` counts the frame windows opened since START, so the head frame is `opened − 1`;
`lastFrame` is set by STOP to the last frame that commits (R65); `resetting` says that a partition reset runs to its
Saucers' standstill (R421); `restart` that the fall-back restart is to START it (R329). -/
structure PRun where
  st        : PSt := .unconfigured
  t0        : Nat := 0
  opened    : Nat := 0
  lastFrame : Option Nat := none
  issued    : Bool := false          -- the Saucers of a STOP have been issued
  resetting : Bool := false
  restart   : Bool := false
  commit    : Option Nat := none     -- the last committed frame
  nNet      : Nat := 0               -- frames whose NET_START has come, and so on for each phase point of R245
  nBuild    : Nat := 0
  nAdm      : Nat := 0               -- frames whose admission has ended (R23)
  nSel      : Nat := 0
  nEnd      : Nat := 0
  nOut      : Nat := 0
  goalBase  : Nat := 0               -- SEL_GOAL_BASE as sampled at START (R179)
  crc       : Word := 0#32           -- commit digest (R312)
  runEpoch  : Option Nat := none     -- EPOCH of the first publish after START (R307)
  goals     : List (Nat × Nat × Goal) := []    -- frame, mechanism and goal block, of the last two check windows opened (R178)
  epochs    : List (Nat × Nat) := [] -- frame and EPOCH of the last two check windows opened
  started   : Bool := false          -- a commit has stood since START (the stop-request outputs of R65)
  plan      : Bool := false          -- a commit has written its plan tables since the last warm reset (R150)
  deriving DecidableEq, Repr

/-! ### Clearance field (03_clearance_field.md) -/

/-- The build in progress: the master frame whose bank it reads, the boundary B it is to be published at, the EPOCH it is to
carry, why it is not to be published (0 while it is, else RESULT of R86), whether the lead builder has sealed it, its digest,
and what the FLD registers show of it once published. -/
structure FldBuild where
  frame  : Nat := 0
  b      : Nat := 0
  epoch  : Nat := 0
  result : Nat := 0
  sealed : Bool := false
  judged : Bool := false       -- the stores have been judged (R91)
  total  : Nat := 0
  new    : Nat := 0
  cMid   : Nat := 0
  cFine  : Nat := 0
  dMid   : Nat := 0
  dFine  : Nat := 0
  humans : Nat := 0
  occErr : Nat := 0
  deriving DecidableEq, Repr

/-- One field store: READY for the next epoch, EXCLUDED from the current one, receiving a full copy (R91), and whether that
copy has completed with a matching digest. -/
structure StoreSt where
  ready    : Bool := false
  excluded : Bool := false
  copying  : Bool := false
  copied   : Bool := false
  deriving DecidableEq, Repr

/-- The field: the last published EPOCH, which the warden holds across warm resets (R82), the counts of the epoch in force, the
last build's result, the slot budget, and the window that EPOCH opened. -/
structure FldSt where
  epoch  : Nat := 0
  valid  : Bool := false
  closed : Bool := false
  pubB   : Nat := 0
  frame  : Nat := 0            -- master frame whose bank built the epoch in force
  total  : Nat := 0
  new    : Nat := 0
  cMid   : Nat := 0
  cFine  : Nat := 0
  dMid   : Nat := 0
  dFine  : Nat := 0
  humans : Nat := 0
  result : Nat := 0
  resEpoch : Nat := 0
  budget : Nat := 0
  nPub   : Nat := 0            -- master frames whose publish time has passed
  build  : Option FldBuild := none
  stores : List StoreSt := List.replicate 16 {}
  fmtErr : Nat := 0            -- field-format errors raised (R74); the spec gives them no register and no record
  deriving DecidableEq, Repr

/-! ### Cores (04_candidate_generation.md, 05_collision_checking.md, 12_memory.md) -/

/-- The states of an in-flight slot other than FREE (R143). -/
inductive SlotPh | fetch | bind | check | done
  deriving DecidableEq, Repr

/-- An in-flight candidate slot that is not FREE (R143): the work it belongs to, what it was admitted for, the primitive's
address and lines or the hand-off record, and the verdict once it is DONE. `kind` is the item kind of R243. -/
structure CSlot where
  n      : Nat
  ph     : SlotPh := .fetch
  item   : Item := {}
  mech   : Nat := 0
  frame  : Nat := 0
  epoch  : Nat := 0
  ctx    : Nat := 0
  candId : Nat := 0
  cls    : Nat := 0
  addr   : Nat := 0
  lines  : Nat := 0
  hand   : Option HandRec := none
  poison : Bool := false
  at_    : Nat := 0            -- entry to the sweep engine
  seed   : Nat := 0            -- COST_SEED
  poses  : List (List FV) := []   -- joint values of poses 0 to 8, once in CHECK
  verdict : Verdict := {}
  deriving DecidableEq, Repr

/-- A DMA engine: the item whose chain it runs, the current descriptor's address, the descriptors passed, the descriptor after
the last applied tally command, destination blocks of the current COPY to be sent again, whether the chain waits in a tally
wait, and whether it fails (R291 to R295, R383). -/
structure DmaSt where
  item  : Option Item := none
  desc  : Nat := 0
  passed : Nat := 0
  from_ : Nat := 0
  retry : List Nat := []
  fail  : Bool := false
  wait  : Bool := false
  far   : Bool := false               -- a request of the descriptor to another package is outstanding (R483)
  got   : List Byte := []             -- bytes read from another package whose blocks await their repeat
  gotBad : List Nat := []             -- the poisoned lines among them
  wrote : List (Option Nat) := []     -- where the chain has written since its last tally command: a package, none for this one
  ahead : Option Nat := none          -- the request of an ADD sent directly behind the descriptor's write (R271)
  deriving DecidableEq, Repr

/-- A DMA engine that runs no chain: MEM_DMA_DESC still shows the descriptor it ran last (R303). -/
def DmaSt.free (m : DmaSt) : DmaSt := { desc := m.desc }

/-- An entry of a core's translation cache (R147): its tag, EPOCH and mid brick, that brick's directory half, and its fine map. -/
structure XEntry where
  epoch : Nat
  mb    : Nat
  half  : Nat := 0
  fmap  : List Byte := []
  deriving DecidableEq, Repr

/-- An entry of a Strainer's cache (R147): its tag, EPOCH and line of the store, and that line. -/
structure SEntry where
  epoch : Nat
  line  : Nat
  data  : List Byte := []
  deriving DecidableEq, Repr

/-- One core: its slots, the fill of the two verdict-buffer halves, the translation cache of 128 entries and its Strainer's of 64
(R147), the EPOCH of its person boxes (R132), the lane operations of the sweep engine that fill part of a cycle (R119), the hand-off
records waiting for admission, and its DMA engine. -/
structure CoreSt where
  slots : List CSlot := []
  fill  : List Nat := [0, 0]
  halfOf : List Nat := [0, 0]   -- the frame whose verdicts each half holds
  cache : List XEntry := []
  strain : List SEntry := []
  boxes : Option Nat := none
  ops   : Nat := 0
  handQ : List Nat := []
  owes  : Bool := false        -- a merge of its partial lists is owed (R185, R404)
  dma   : DmaSt := {}
  deriving DecidableEq, Repr

/-! ### Solver engines (06_trajectory_solver.md) -/

/-- A step of the sequence of R165. -/
inductive SStep | idle | init | eval | assemble | factor | solve | trial | accept
  deriving DecidableEq, Repr

/-- The STEP field of SLV_STATUS. -/
def SStep.code : SStep → Nat
  | .idle => 0 | .init => 1 | .eval => 2 | .assemble => 3 | .factor => 4 | .solve => 5 | .trial => 6 | .accept => 7

/-- An iterate with what the program gives for it: objective, merit and residual. -/
structure Eval where
  x : Iter := {}
  f : D := {}
  phi : D := {}
  r : D := {}
  deriving DecidableEq, Repr

/-- What a solver engine counts for one frame of a context: its host core, the trajectories handed off and the results returned (R153,
R173, R175). -/
structure STally where
  ctx      : Nat
  frame    : Nat
  host     : Nat
  seq      : Nat := 0
  returned : Nat := 0
  deriving DecidableEq, Repr

/-- A result returned to the smoothing stage (R165, R166), with the start state that its seed began from (R169). -/
structure SResult where
  ctx    : Nat
  frame  : Nat
  ev     : Eval
  flags  : Nat
  iters  : Nat
  pivots : Nat
  degraded : Bool
  k0     : List Knot := []
  deriving DecidableEq, Repr

/-- A trajectory record written, its hand-off still to come (R172). -/
structure STraj where
  ctx   : Nat
  frame : Nat
  rec_  : HandRec
  merit : Nat
  at_   : Nat := 0        -- where its record stands
  len   : Nat := 0
  deriving DecidableEq, Repr

/-- A solver engine and its smoothing stage: the frame being solved with its EPOCH and start state, the host core in force (R175), the
seed and step in progress, the iterates, the matrix and its factor, the sticky flags of the seed, the counts of the last frames, and
the results in return order. -/
structure EngSt where
  busy   : Bool := false
  wait   : Bool := false             -- waiting for the start state (R158)
  part   : Nat := 0
  ctx    : Nat := 0
  frame  : Nat := 0
  seed   : Nat := 0
  step   : SStep := .idle
  iter   : Nat := 0
  trial  : Nat := 0
  cur    : Eval := {}
  try_   : Eval := {}
  best   : Eval := {}
  bestIt : Nat := 0
  lam    : List Nat := []
  mat    : Band := []
  rhs    : List D := []
  fac    : Factor := {}
  dir    : List D := []
  flags  : Nat := 0
  degIt  : Bool := false             -- the iteration in progress is degraded
  deg    : Bool := false             -- an iteration of the seed was degraded
  pivots : Nat := 0
  pivot  : Option Nat := none        -- first regularised pivot of the last completed factorisation
  epoch  : Nat := 0                  -- EPOCH that the program's field reads carry (R155)
  host   : Option Nat := none
  k0     : List Knot := []           -- knot 0 of the seed in progress
  tallies : List STally := []        -- newest first
  results : List SResult := []
  trajs  : List STraj := []
  ended  : Option (Nat × Nat) := none -- context and frame whose solving has ended
  lastRes : Nat := 0                 -- residual, merit, frame, information and flags of the last result
  lastMerit : Nat := 0
  lastFrame : Nat := 0
  lastIters : Nat := 0
  lastPivots : Nat := 0
  lastSeq : Nat := 0
  lastFlags : Nat := 0
  deriving DecidableEq, Repr

/-! ### The commit round (07_selection_and_commit.md) -/

/-- The states of SEL_MECH_STATE. -/
inductive CSt | idle | pick | check | pair | write | committed | carried | held
  deriving DecidableEq, Repr

/-- The STATE field of SEL_MECH_STATE. -/
def CSt.code : CSt → Nat
  | .idle => 0 | .pick => 1 | .check => 2 | .pair => 3 | .write => 4 | .committed => 5 | .carried => 6 | .held => 7

/-- One mechanism in the commit round: its state, the frame in its partition's numbering, its retained list, the position being
tried, the cores of the two checks and their verdicts, and the placed spheres that the REPLAY core returned. -/
structure MRound where
  st      : CSt := .idle
  part    : Nat := 0
  frame   : Nat := 0
  list    : SelList := {}
  pos     : Nat := 0
  next    : Nat := 0
  tries   : Nat := 0
  outcome : Nat := 0
  replay  : Option Nat := none
  recheck : Option Nat := none
  vReplay : Option Verdict := none
  vRecheck : Option Verdict := none
  placed  : List (List HSphere) := []
  rec_    : Option CommitRec := none -- the record presented to the warden
  acc     : Option Bool := none      -- its answer
  wasHeld : Bool := false            -- held before that record was accepted
  deriving DecidableEq, Repr

/-- The commit unit: whether a round runs, the master frame of the last round, its LATE and NOEPOCH bits, the write group in
progress (0 none), and the 16 mechanisms. -/
structure Round where
  busy    : Bool := false
  frame   : Nat := 0
  late    : Bool := false
  noEpoch : Bool := false
  group   : Nat := 0
  b       : Nat := 0            -- b_N of the round
  abandoned : Bool := false
  next    : Nat := 0            -- the master frame whose round is the next to start
  parts   : List (Nat × Nat) := []  -- partitions of the round, each with its frame
  stands  : List (Nat × Nat) := []  -- mechanism and frame of the retained lists that stand (R186, R187)
  mechs   : List MRound := List.replicate 16 {}
  deriving DecidableEq, Repr

/-! ### Array runs (09_array_operations.md) -/

/-- A run of a network on one array (R220): its trigger instant and frame, the next descriptor of the compute queue and of the
load unit, whether it has begun, and since when it waits for its twin. -/
structure ARun where
  part   : Nat
  net    : Nat
  cls    : Nat
  frame  : Nat := 0
  trig   : Nat := 0
  load   : Nat := 0
  comp   : Nat := 0
  begun  : Bool := false             -- a descriptor has been taken
  wait   : Option Nat := none        -- since when a COMPARE STORE waits for its twin (R239)
  deriving DecidableEq, Repr

/-- A Great Array: the runs in progress and the status and time of each network slot's last run. -/
structure ArrSt where
  runs  : List ARun := []
  last  : List (Nat × Nat × Nat × Nat) := []    -- partition, network, status word, time
  deriving DecidableEq, Repr

/-! ### Traces and writes to the host -/

/-- A trace record that has not been written yet (R261, R443): the die of a scheduling trace, none for the verdict trace. -/
structure TraceRec where
  die  : Option Nat
  part : Nat
  data : List Byte
  t    : Nat
  deriving DecidableEq, Repr

/-- The completion of a register or BAR2 access: an unsupported request, or the data with its poison mark (R7, R434, R507). -/
structure Compl where
  ur     : Bool := false
  data   : List Byte := []
  poison : Bool := false
  deriving DecidableEq, Repr

/-- A posted write to host memory. -/
structure HostWrite where
  addr : Nat
  data : List Byte
  deriving DecidableEq, Repr

end Sys2Proof.Machine
end

