-- ==== Sys2Proof/Machine/State.lean ====
section
/-! DEFINITION. The state of the package as plain data, the two ways a command could stop, and the state after reset. -/

namespace Sys2Proof.Machine

/-- A stop that the spec gives an instruction instead of an effect. The spec gives every command of this block an effect, so
there is none and no meaning of this model faults. -/
inductive Fault
  deriving DecidableEq, Repr

/-- A command that the model gives no meaning. -/
inductive Refusal
  /-- Raised by an arm of `exec` whose command has no meaning yet. Safe: the machine stops where the hardware goes on. -/
  | notModelled (mnemonic : String)
  deriving DecidableEq, Repr

/-- The package. `regs` holds the registers that no structured field below holds, keyed by BAR0 offset, an unlisted register
standing at its reset value (R490); the other registers are views of the structured fields (Machine/View.lean). `mem` is the
device memory of R30 and R31, byte by byte, an unlisted byte reading as zero (R511), and `psn` marks the poisoned 64-byte lines
(R296). `fresh` counts the free values taken (the model's own field); `pending` holds the commands that wait. -/
structure State where
  time    : Nat := 0
  fuses   : Fuses := {}
  dev     : Dev := {}
  regs    : Tab Word := []
  hi      : Tab (Option Word) := []           -- latched _HI values, key 16 × _HI offset + function (R8)
  lo      : Tab (Option Word) := []           -- _LO halves written that wait for their _HI (R8)
  compl   : Option Compl := none              -- completion of the last register or BAR2 access
  loader  : Loader := {}
  parts   : List PRun := List.replicate 8 {}
  fld     : FldSt := {}
  cores   : List CoreSt := List.replicate 128 {}
  sched   : List SchedDie := List.replicate 2 {}
  sync    : SyncSt := {}
  warden  : Warden := {}
  errs    : ErrColl := {}
  rots    : List Rotation := List.replicate 2 {}
  ints    : IntSt := {}
  ktl     : Kettle := {}
  hqs     : List HQueue := List.replicate 72 {}   -- 8 × function + queue; function 0 is the physical one
  fif     : FieldIf := {}
  links   : Links := {}
  arrs    : List ArrSt := List.replicate 2 {}
  engs    : List EngSt := List.replicate 32 {}
  round   : Round := {}
  tdcSeen : List (Nat × Nat × Nat) := []      -- partition, frame, cause already counted (R308)
  traceQ  : List TraceRec := []               -- trace records not written yet
  mem     : Tab Byte := []
  psn     : Tab Bool := []
  hostW   : List HostWrite := []              -- posted writes to host memory, newest first
  fresh   : Nat := 0
  pending : List Instr := []
  deriving DecidableEq, Repr

/-- The package as cold reset leaves it, POR_N low and nothing released (R419, R423): every register at its reset value,
device time 0, memory zero, no configuration, every planner function not ready, the warden's channels not started. -/
def State.reset : State := { dev := { up := false } }

end Sys2Proof.Machine
end

