-- ==== Sys2Proof/Machine/Ops.lean ====
section
/-! DEFINITION. The named operations that meanings share: registers and counters, time, memory, partitions and frames,
interrupts, error records, the timing-dependent choice counter, Saucers and outputs, resets, and error events. -/

namespace Sys2Proof.Machine

/-! ### Registers and counters (R6 to R8) -/

/-- A register held in `regs`. -/
def State.rd (s : State) (off : Nat) : Word := s.regs.get (Reg.resetOf off) off

/-- A register of `regs` set. -/
def State.wr (s : State) (off : Nat) (v : Word) : State := { s with regs := s.regs.set (Reg.resetOf off) off v }

/-- A counter that stops at 0xFFFF_FFFF advanced by `n`. -/
def State.inc (s : State) (off : Nat) (n : Nat := 1) : State := if n = 0 then s else s.wr off (satAdd (s.rd off) n)

/-- The 64-bit value of a register pair. -/
def State.rd64 (s : State) (lo : Nat) : Nat := (s.rd lo).toNat + 2 ^ 32 * (s.rd (lo + 4)).toNat

/-- A register pair set. -/
def State.wr64 (s : State) (lo v : Nat) : State := (s.wr lo (BitVec.ofNat 32 v)).wr (lo + 4) (BitVec.ofNat 32 (v / 2 ^ 32))

/-- A 64-bit counter advanced. -/
def State.add64 (s : State) (lo n : Nat) : State := if n = 0 then s else s.wr64 lo ((s.rd64 lo + n) % 2 ^ 64)

/-- One field of a register set: bits `hi` to `lo`. -/
def setBits (w : Word) (hi lo v : Nat) : Word :=
  BitVec.ofNat 32 (w.toNat - bits w.toNat hi lo * 2 ^ lo + v % 2 ^ (hi + 1 - lo) * 2 ^ lo)

/-- A field of a register held in `regs` set. -/
def State.wrBits (s : State) (off hi lo v : Nat) : State := s.wr off (setBits (s.rd off) hi lo v)

/-! ### Free values -/

/-- A free value's number, and the state after taking it. -/
def State.free (s : State) : Nat × State := (s.fresh, { s with fresh := s.fresh + 1 })

/-! ### Memory (R30, R31, R296) -/

/-- `n` bytes of device memory. -/
def State.peek (s : State) (a n : Nat) : List Byte := Machine.peek s.mem a n

/-- `n` bytes of device memory as a number. -/
def State.peekN (s : State) (a n : Nat) : Nat := Machine.peekN s.mem a n

/-- Bytes stored. -/
def State.poke (s : State) (a : Nat) (b : List Byte) : State := { s with mem := Machine.poke s.mem a b }

/-- The 64-byte lines that a range of bytes touches. -/
def linesOf (a n : Nat) : List Nat := if n = 0 then [] else (List.range ((a + n - 1) / 64 + 1 - a / 64)).map (· + a / 64)

/-- A line of the range is poisoned. -/
def State.poisoned (s : State) (a n : Nat) : Bool := (linesOf a n).any (s.psn.get false ·)

/-- The poison marks of a range's lines set or cleared. -/
def State.mark (s : State) (a n : Nat) (bad : Bool) : State :=
  { s with psn := (linesOf a n).foldl (fun t l => t.set false l bad) s.psn }

/-- The marks of the lines that a range covers whole cleared: new data stands there (R296). -/
def State.heal (s : State) (a n : Nat) : State :=
  { s with psn := (linesOf a n).foldl (fun t l => if a ≤ 64 * l ∧ 64 * l + 64 ≤ a + n then t.set false l false else t) s.psn }

/-- The planner die whose MEM registers count an address; the mailbox and unmapped addresses count on PD0. -/
def memDie (a : Nat) : Nat := if a < 0x000C00000000 then stackOf a else a / 0x100000000 % 2

/-- The poisoned lines that a write covers only in part. -/
def State.partials (s : State) (a n : Nat) : List Nat :=
  (linesOf a n).filter fun l => s.psn.get false l && !(decide (a ≤ 64 * l) && decide (64 * l + 64 ≤ a + n))

/-- Good data stored (R296): the bytes, with the poison of whole lines cleared; each poisoned line written in part stays poisoned and is
counted. -/
def State.store (s : State) (a : Nat) (b : List Byte) : State :=
  ((s.poke a b).heal a b.length).inc (Reg.memPoisonWritten (memDie a)) (s.partials a b.length).length

/-- A range of memory set to zero. -/
def State.zero (s : State) (a n : Nat) : State :=
  { s with mem := s.mem.clear a (a + n), psn := s.psn.clear (cdiv a 64) ((a + n) / 64) }

/-- A posted write to host memory. -/
def State.toHost (s : State) (a : Nat) (b : List Byte) : State := { s with hostW := { addr := a, data := b } :: s.hostW }

/-! ### The map of the planner dies (R30, R31) -/

/-- The on-chip window of planner die d. -/
def dieBase (d : Nat) : Nat := 0x010000000000 + d * 0x100000000
/-- The scratchpad of core k of the package. -/
def padBase (k : Nat) : Nat := dieBase (k / 64) + k % 64 * 0x100000
/-- The field store of cluster g of the package, g = 8 × die + cluster. -/
def storeBase (g : Nat) : Nat := dieBase (g / 8) + 0x10000000 + g % 8 * 0x2000000
/-- The array buffer of die d. -/
def bufBase (d : Nat) : Nat := dieBase d + 0x20000000
/-- The context-table entry of context x. -/
def ctxBase (x : Nat) : Nat := dieBase (x / 8192) + 0x28000000 + 512 * (x % 8192)
/-- The commit mailbox. -/
def mailBase : Nat := 0x011000000000
/-- The retained list of mechanism m for frame n (R186). -/
def listBase (m n : Nat) : Nat := mailBase + 0x80000 + 0x400 * m + 0x200 * (n % 2)
/-- The commit record of mechanism m for frame n (R201). -/
def recBase (m n : Nat) : Nat := mailBase + 0x8000 * m + 0x4000 * (n % 2)

/-- The unit that owns the memory at a device address (R368, R369): scratchpad, field store, array buffer, context table or
HBM stack. -/
def ownerUnit (a : Nat) : Nat :=
  if a < 0x010000000000 then stackOf a * 512 + 105
  else
    let d := a / 0x100000000 % 2; let o := a % 0x100000000
    if mailBase ≤ a then noUnit
    else if o < 0x04000000 then d * 512 + o / 0x100000
    else if o < 0x20000000 then d * 512 + 96 + (o - 0x10000000) / 0x2000000
    else if o < 0x28000000 then d * 512 + 88 else d * 512 + 104

/-! ### Configuration and stamps (R9 to R12) -/

/-- The configuration in force: empty before the first Blend. -/
def State.cfg (s : State) : Cfg := s.loader.active.getD {}

/-- The configuration of partition p. -/
def State.pcfg (s : State) (p : Nat) : PartCfg := (s.cfg.part p).getD {}

/-- A stamp that the device produces: the last tick of 8 ns at or before an instant (R9, R29). -/
def tick (t : Nat) : Nat := t - t % 8

/-! ### Partitions and frames (R13, R20) -/

/-- The partition p is defined. -/
def State.defined (s : State) (p : Nat) : Bool := (s.cfg.part p).isSome

/-- Partition p at run time. -/
def State.prun (s : State) (p : Nat) : PRun := s.parts.getD p {}

/-- Partition p replaced. -/
def State.setPRun (s : State) (p : Nat) (x : PRun) : State := { s with parts := listSet s.parts p x }

/-- Partition p is RUNNING and runs frames: one that awaits its fall-back restart, or whose reset runs to standstill (R421),
keeps its state and runs none. -/
def State.running (s : State) (p : Nat) : Bool :=
  decide ((s.prun p).st = .running) && !(s.prun p).restart && !(s.prun p).resetting

/-- Some partition is RUNNING. -/
def State.anyRunning (s : State) : Bool := (List.range 8).any s.running

/-- P of partition p, ns. -/
def State.period (s : State) (p : Nat) : Nat := (s.pcfg p).frame.P * 1000

/-- The window start of frame n of p (R13). -/
def State.winStart (s : State) (p n : Nat) : Nat := (s.prun p).t0 + n * s.period p

/-- The frame of p whose window holds the instant t (R12, R13). -/
def State.frameAt (s : State) (p t : Nat) : Nat := if s.period p = 0 then 0 else (t - (s.prun p).t0) / s.period p

/-- The field master. -/
def State.master (s : State) : Option Nat := s.cfg.master.map (·.num)

/-- The master frame that holds an instant; none while the master is not RUNNING. -/
def State.masterFrame (s : State) (t : Nat) : Option Nat :=
  s.master.bind fun p => if s.running p && decide ((s.prun p).t0 ≤ t) then some (s.frameAt p t) else none

/-- The partitions that define mechanisms and are RUNNING. -/
def State.mechParts (s : State) : List Nat := (s.cfg.hasMechs.map (·.num)).filter s.running

/-! ### Interrupts (R388 to R398) -/

/-- One slot of a source raised (R392); a slot without a route is counted and keeps the event. -/
def State.raiseSlot (s : State) (src k : Nat) : State :=
  let x := s.ints.slot src k
  let s := if x.routed then s else s.inc Reg.intUnrouted
  match x.st with
  | .idle => { s with ints := s.ints.setSlot src k { x with st := .pending } }
  | .pending => s.inc Reg.intCoalesced
  | .service =>
    if x.second then s.inc Reg.intCoalesced else { s with ints := s.ints.setSlot src k { x with second := true } }

/-- A source raised: both of its slots, and the safety channels where it is marked W (R398). -/
def State.raise (s : State) (src : Nat) : State :=
  let s := if isrcWarden.contains src then { s with ints := { s.ints with warden := src :: s.ints.warden } } else s
  let s := s.raiseSlot src 0
  if hasSlot1 src then s.raiseSlot src 1 else s

/-- A partition's source raised. -/
def State.raiseP (s : State) (p i : Nat) : State := s.raise (isrcPart p i)

/-! ### Fault states and retirement (R368, R372, R379, R381) -/

/-- The fault state of a key. -/
def State.faultSt (s : State) (k : FKey) : FaultSt := (s.errs.states.find? (·.key == k)).getD { key := k }

/-- A fault state replaced. -/
def State.setFault (s : State) (x : FaultSt) : State :=
  { s with errs := { s.errs with states := x :: s.errs.states.filter (·.key != x.key) } }

/-- The retired units and lanes: the warden's list and those of this power cycle. -/
def State.retired (s : State) : List (Nat × Nat) := s.errs.list ++ s.errs.extra

/-- A unit or lane is retired. -/
def State.isRetired (s : State) (u : Nat) (sub : Nat := 0) : Bool := s.retired.contains (u, sub)

/-- The phase of a unit. -/
def State.phase (s : State) (u : Nat) (sub : Nat := 0) : FPhase :=
  if s.isRetired u sub then .retired else (s.faultSt (.unit u sub)).phase

/-- A unit that takes ordinary work: HEALTHY or in WATCH. -/
def State.healthy (s : State) (u : Nat) : Bool := match s.phase u with | .healthy | .watch => true | _ => false

/-- Core k is enabled in GLB_CORE_EN (R2, R26). -/
def State.coreEn (s : State) (k : Nat) : Bool := bit (s.fuses.coreEn.getD (k / 32) 0) (k % 32)

/-- Core k does ordinary work: enabled, not retired, HEALTHY or in WATCH. -/
def State.coreOk (s : State) (k : Nat) : Bool := s.coreEn k && s.healthy (coreUnit k)

/-- Retired lanes of an engine of core k: Strainer lanes for `first` = 1, probe lanes for 5. -/
def State.lanesOut (s : State) (k first : Nat) : List Nat := (List.range 4).filter fun l => s.isRetired (coreUnit k) (first + l)

/-! ### Error records (R384) -/

/-- The die of a unit identifier, 2 for the warden and for events without a unit. -/
def dieOfUnit (u : Nat) : Nat := if u = noUnit then 2 else min 2 (u / 512)

/-- The clock that feeds a unit of a planner die: 0 to 15 the cluster clocks, 16 and 17 the arrays. -/
def clkOfUnit (u : Nat) : Nat :=
  let d := u / 512; let p := u % 512
  if p < 64 then d * 8 + p / 8 else if p < 80 then d * 8 + (p - 64) / 2 else if p < 88 then d * 8 + (p - 80)
  else if p = 88 then 16 + d else if p < 104 then d * 8 + (p - 96) else 16 + d

/-- The core supply of the detecting unit, mV: the voltage of its clock's step, and on the warden die a value that no rule
states. -/
def State.volt (s : State) (u : Nat) : Nat :=
  if dieOfUnit u = 2 then Config.wardenMv s.fresh % 65536 else stepMv (s.ktl.clks.getD (clkOfUnit u) {}).step

/-- An error record written: into the ring, and into the log ring of the FAULTS section (R384). It answers its SEQ. -/
def State.record (s : State) (r : ErrRec) : Nat × State :=
  let r := { r with time := tick r.time }
  let seq := s.errs.seq + 1
  let b := r.bytes seq ((s.ktl.tj.getD (dieOfUnit r.unit) 0) % 65536).toNat (s.volt r.unit) ((s.masterFrame r.time).getD 0)
  let lost := decide ((s.rd Reg.errRead).toNat + 256 < seq)
  let f := s.cfg.faults
  let s := { s with fresh := s.fresh + 1,
                    errs := { s.errs with seq, ring := Machine.poke s.errs.ring (64 * (seq % 256)) b } }
  let s := if f.log = 0 then s else
    { s.store (f.log + 64 * s.errs.logHead % f.logLen) b with errs := { s.errs with logHead := s.errs.logHead + 1 } }
  let s := s.raise isrcERR_RECORD
  (seq, if lost then (s.inc Reg.errLost).raise isrcERR_LOST else s)

/-- An error record written for its effect alone. -/
def State.log (s : State) (r : ErrRec) : State := (s.record r).2

/-! ### The timing-dependent choice counter (R308) -/

/-- The GLB_TDC_LAST word of an increment. -/
def tdcWord (p frame cause : Nat) : Word := BitVec.ofNat 32 (2 ^ 31 + cause % 8 * 2 ^ 28 + p % 8 * 2 ^ 24 + frame % 65536)

/-- One increment for a cause. -/
def State.tdcCount (s : State) (p frame cause : Nat) : State :=
  let s := (s.add64 Reg.glbTdcLo 1).inc (Reg.glbTdcCause cause)
  let s := s.wr Reg.glbTdcLast (tdcWord p frame cause)
  let s := if (s.rd Reg.glbTdcFirst).toNat / 2 ^ 31 = 0 then s.wr Reg.glbTdcFirst (tdcWord p frame cause) else s
  s.raise isrcTDC

/-- An event of a cause in a frame: counted once per frame, but for Saucer substitutions (cause 5). -/
def State.tdc (s : State) (p frame cause : Nat) : State :=
  if cause = 5 then s.tdcCount p frame cause
  else if s.tdcSeen.contains (p, frame, cause) then s
  else { s with tdcSeen := (p, frame, cause) :: s.tdcSeen }.tdcCount p frame cause

/-! ### Mechanisms, Saucers and stop-request outputs (14_safety_concept.md) -/

/-- Mechanism m of the configuration in force, with its partition. -/
def State.mech? (s : State) (m : Nat) : Option (PartCfg × Mech) := s.cfg.mech m

/-- The safety record of mechanism m, or the default row of R315. -/
def State.msafe (s : State) (m : Nat) : MechSafe := (s.cfg.safety.bind (·.cover m)).getD { mech := m }

/-- The global safety block in force, or the defaults. -/
def State.sglob (s : State) : SafeGlob := match s.cfg.safety with | some x => x.glob | none => {}

/-- T_HALF of mechanism m, µs (R199). -/
def State.tHalf (s : State) (m : Nat) : Nat := match s.mech? m with | some (_, x) => tHalfOf x | none => 0

/-- The warden's view of mechanism m. -/
def State.wm (s : State) (m : Nat) : WMech := s.warden.mechs.getD m {}

/-- A mechanism of the warden replaced. -/
def State.setWm (s : State) (m : Nat) (x : WMech) : State :=
  { s with warden := { s.warden with mechs := listSet s.warden.mechs m x } }

/-- A mask of mechanism or pair numbers as a list. -/
def maskOf (l : List Nat) : Nat := (l.eraseDups.map (2 ^ ·)).sum

/-- Every mechanism of the configuration in force, ascending. -/
def State.mechNums (s : State) : List Nat := (List.range 16).filter fun m => (s.mech? m).isSome

/-- An emergency-stop input counts as energised in effect (R335, R336). -/
def State.estopOk (s : State) (n : Nat) : Bool := !(s.warden.estopLat.getD n true)

/-- A latch of R336 covers mechanism m: an emergency-stop input it is mapped to, or the enabling device. -/
def State.latched (s : State) (m : Nat) : Bool :=
  ((List.range 4).any fun n => bit (s.sglob.estop.getD n (0, 0)).1 m && !s.estopOk n)
  || (((s.msafe m).enableReq || bit s.sglob.enable.1 m) && !s.warden.enMid)

/-- Mechanism m is held: under R202 or a latch of R336. -/
def State.held (s : State) (m : Nat) : Bool := (s.wm m).held || s.latched m

/-- The mechanisms that name output pair n. -/
def State.namers (s : State) (n : Nat) : List Nat := s.mechNums.filter fun m => bit (s.msafe m).outs n

/-- The warden state keeps every pair off (R338): HELD, LOCKED or CHANNEL_FAIL; so does cold reset (R341). -/
def State.allOff (s : State) : Bool :=
  !s.dev.up || (match s.warden.state with | .held | .locked | .channelFail => true | _ => false)
  || !s.warden.chA || !s.warden.chB

/-- Pair n must be off whatever it was (R338): no mechanism names it, a latch of R336 covers one that does, its output fault is
latched, or the warden state keeps every pair off. -/
def State.pairOff (s : State) (n : Nat) : Bool :=
  s.allOff || (s.namers n).isEmpty || (s.namers n).any s.latched || (s.warden.outs.getD n {}).fault

/-- A channel may energise pair n (R338). -/
def State.pairOn (s : State) (n : Nat) : Bool :=
  !s.pairOff n && decide (s.warden.state = .normal) && (s.namers n).all fun m => !s.held m && bit (s.wm m).accepted n

/-- Both wires of a pair driven to a level; the read-back follows, but for a wire whose output fault is latched (R340). -/
def OutPair.drive (x : OutPair) (on : Bool) : OutPair :=
  { x with drvA := on, drvB := on, fbA := if x.fault then x.fbA else on, fbB := if x.fault then x.fbB else on, pulseA := false, pulseB := false }

/-- Pair n de-energised: each mechanism that names it needs a record accepted later (R338). -/
def State.deEnergise (s : State) (n : Nat) : State :=
  let w := s.warden
  { s with warden := { w with
      outs := listSet w.outs n ((w.outs.getD n {}).drive false),
      mechs := w.mechs.map fun x => { x with accepted := x.accepted - (if bit x.accepted n then 2 ^ n else 0) } } }

/-- The pairs of mechanism m de-energised. -/
def State.dropOuts (s : State) (m : Nat) : State := (maskBits 8 (s.msafe m).outs).foldl State.deEnergise s

/-- Pair n brought to what R338 asks. -/
def State.settlePair (s : State) (n : Nat) : State :=
  let x := s.warden.outs.getD n {}
  if s.pairOff n then (if x.drvA || x.drvB then s.deEnergise n else s)
  else if !(x.drvA && x.drvB) && s.pairOn n then
    { s with warden := { s.warden with outs := listSet s.warden.outs n (x.drive true) } }
  else s

/-- Every output pair brought to what R338 asks, the end of every command. -/
def State.settle (s : State) : State := (List.range 8).foldl State.settlePair s

/-- The record of mechanism m in force at an instant (R12, R201). -/
def State.inForce (s : State) (m t : Nat) : Option CommitRec :=
  match (s.wm m).next with
  | some r => if r.b ≤ t then some r else (s.wm m).cur
  | none => (s.wm m).cur

/-- The frame charged with a Saucer substitution: the one of m's partition whose window holds the stamp. -/
def State.chargeSub (s : State) (m t : Nat) : State :=
  match s.mech? m with
  | some (q, _) => s.tdc q.num (s.frameAt q.num t) 5
  | none => s

/-- The Saucer of mechanism m issued, or its hold (R202) or a latch (R336) added to (R202, R320, R322 to R324): `cat` is the trigger's
category. Where a hold has ended and the next record is not in force yet, the earlier Saucer's motion goes on; the new issue runs to
standstill at its own stamp plus T_s all the same (R65). -/
def State.issue (s : State) (m cause cat stamp : Nat) : State :=
  let w := s.wm m
  if s.held m then
    let cat' := if w.issued then min w.cat cat else cat
    let s := s.setWm m { w with held := true, causes := w.causes ||| 2 ^ cause, cat := cat',
                                s1At := if cat' = 1 ∧ !w.atRest then some (w.iss + 2000 * s.tHalf m) else none }
    if cat' < w.cat ∨ !w.issued then
      (if cat' = 0 ∨ (cat' = 1 ∧ w.atRest) then s.dropOuts m else s)
    else s
  else
    let same := w.issued && (match w.next with | some r => decide (stamp < r.b) | none => true)
    let t0 := if same then w.t0 else stamp
    let s := s.setWm m { w with cur := s.inForce m stamp, next := none, held := true, issued := true, t0, iss := stamp, cat, cause,
                                drives := if same then w.drives else none,
                                causes := 2 ^ cause, atRest := false, commanded := cause == 13,
                                s1At := if cat = 1 then some (stamp + 2000 * s.tHalf m) else none }
    let s := s.inc Reg.wdnSaucers
    let s := if cause = 13 then s else (s.inc Reg.selSaucerSub).chargeSub m stamp
    if cat = 0 then s.dropOuts m else s

/-- A trigger of R320 for a list of mechanisms: WDN_TRIG_LAST and its time, the TRIGGER record, the SAUCER interrupt and each
Saucer. `cat` none takes each mechanism's STOP_CAT. -/
def State.trigger (s : State) (cause stamp : Nat) (ms : List Nat) (cat : Option Nat := none) : State :=
  let stamp := tick stamp
  let ms := ms.filter fun m => (s.mech? m).isSome
  let s := { s with warden := { s.warden with trigCause := cause, trigMechs := maskOf ms, trigTime := stamp } }
  let s := (s.log { kind := ekTRIGGER, time := stamp }).raise isrcSAUCER
  ms.foldl (fun s m => s.issue m cause (cat.getD (s.msafe m).cat) stamp) s

/-- WDN_STATUS.STATE changed (R388); only a cold reset ends LOCKED and CHANNEL_FAIL (R302, R337). -/
def State.setWState (s : State) (x : WState) : State :=
  match s.warden.state with
  | .locked => s
  | .channelFail => s
  | y => if y = x then s else { s with warden := { s.warden with state := x } }.raise isrcWDN_STATE

/-! ### Wake on access (R299) -/

/-- The power domain of a device address on a planner die. -/
def domOf (a : Nat) : Option Nat :=
  if a < dieBase 0 ∨ mailBase ≤ a then none
  else
    let d := a / 0x100000000 % 2; let o := a % 0x100000000
    if o < 0x04000000 then some (d * 64 + o / 0x100000)
    else if 0x10000000 ≤ o ∧ o < 0x20000000 then some (domStore (d * 8 + (o - 0x10000000) / 0x2000000))
    else if 0x20000000 ≤ o ∧ o < 0x24000000 then some (domSeg d ((o - 0x20000000) / 0x800000))
    else none

/-- The planner die of a power domain. -/
def dieOfDom (n : Nat) : Nat := if n < 128 then n / 64 else if n < 160 then (n - 128) % 16 / 8 else (n - 160) / 8

/-- Domain n. -/
def State.dom (s : State) (n : Nat) : Dom := s.ktl.doms.getD n {}

/-- Domain n replaced. -/
def State.setDom (s : State) (n : Nat) (x : Dom) : State := { s with ktl := { s.ktl with doms := listSet s.ktl.doms n x } }

/-- CLOSED set in the control word of cluster g's field store. -/
def State.shut (s : State) (g : Nat) : State :=
  s.store (storeBase g + stControl) (toLE 8 (s.peekN (storeBase g + stControl) 8 ||| 2 ^ 17))

/-- A domain that leaves Cosy because a request waits for it. A field store reads as CLOSED from then on (R300): what is read once it is
awake shows that. -/
def State.wakeDom (s : State) (n : Nat) : State :=
  if (s.dom n).st = .cosy then
    let s := s.setDom n { s.dom n with st := .waking, wakes := (s.dom n).wakes + 1 }
    if 144 ≤ n ∧ n < 160 then s.shut (n - 144) else s
  else s

/-- A domain that a request reaches: in Cosy it starts to wake, which is counted. -/
def State.touchDom (s : State) (n : Nat) : State :=
  if (s.dom n).st = .cosy then (s.wakeDom n).inc (Reg.memWakeOnAccess (dieOfDom n)) else s

/-- The power domains that hold the memory of a range, none shorter than 8 MB but a scratchpad, which no range leaves. -/
def domsOf (a n : Nat) : List Nat :=
  ((List.range ((a + n - 1) / 0x800000 - a / 0x800000 + 1)).filterMap fun i => domOf (max a ((a / 0x800000 + i) * 0x800000))).eraseDups

/-- A request that reaches a range of memory: each domain in Cosy that holds part of it starts to wake (R299). -/
def State.touch (s : State) (a : Nat) (n : Nat := 1) : State := (domsOf a n).foldl State.touchDom s

/-! ### Readiness (R425, R426) -/

/-- Readiness bit b, numbered as `Dev.ready`: GLB_READY[0] below 32, GLB_READY[1] above. -/
def State.readyBit (s : State) (b : Nat) : Bool := s.dev.up && bit s.dev.ready b

/-- The bits of GLB_READY. -/
def rbCLUSTER := 0
/-- ARRAY. -/
def rbARRAY := 16
/-- HBM. -/
def rbHBM := 18
/-- DIE. -/
def rbDIE := 20
/-- FBS. -/
def rbFBS := 32
/-- CSI. -/
def rbCSI := 40
/-- ETH25. -/
def rbETH := 48
/-- LINK. -/
def rbLINK := 52
/-- PCIE. -/
def rbPCIE := 56
/-- WARDEN. -/
def rbWARDEN := 57
/-- SAFETY_IO. -/
def rbSAFETYIO := 58

/-! ### Clocks and resets of the planner dies (R409, R420) -/

/-- Planner die d works: out of cold and warm reset, its fabric clock running. -/
def State.pdUp (s : State) (d : Nat) : Bool := s.dev.up && s.dev.warm.isNone && bit s.ktl.lock (18 + d)

/-- The engines of core k work: the die, and the clock of its cluster. -/
def State.coreUp (s : State) (k : Nat) : Bool := s.pdUp (k / 64) && bit s.ktl.lock (k / 8)

/-- A self-test slice runs on the unit at a position of die d. -/
def State.slicing (s : State) (d pos : Nat) : Bool := (s.rots.getD d {}).run.any (·.unit == pos)

/-- A unit's domains powered off at its retirement (R402). -/
def State.powerOff (s : State) (u : Nat) : State :=
  let d := u / 512; let pos := u % 512
  let off (s : State) (n : Nat) : State := s.setDom n { s.dom n with st := .off, planOff := true }
  if pos < 64 then off s (d * 64 + pos)
  else if pos = 88 then (List.range 8).foldl (fun s g => off s (domSeg d g)) s
  else if 96 ≤ pos ∧ pos < 104 then off s (domStore (d * 8 + (pos - 96))) else s

/-! ### Targets and refusals (R33, R60, R349) -/

/-- The targets of GLB_FW_LAST.TARGET. -/
def fwTarget (a : Nat) : Nat :=
  if 0x0005F8000000 ≤ a ∧ a < 0x000600000000 then 6
  else if a < 0x000C00000000 then 0
  else if a < dieBase 0 then 7
  else if a < dieBase 2 then
    let o := a % 0x100000000
    if o < 0x04000000 then 1
    else if 0x10000000 ≤ o ∧ o < 0x20000000 ∧ (o - 0x10000000) % 0x2000000 < 0x1800000 then 2
    else if 0x20000000 ≤ o ∧ o < 0x24000000 then 4
    else if 0x28000000 ≤ o ∧ o < 0x28400000 then 3 else 7
  else if mailBase ≤ a ∧ a < mailBase + 0x100000 then 5 else 7

/-- A range meets a referenced image. -/
def State.inImage (s : State) (a n : Nat) : Bool :=
  (s.cfg.imageRanges ++ (match s.loader.run with | some r => r.locked | none => [])).any fun r => overlap a n r.1 r.2

/-- The memory at an address is ready (R426): until then it is handled as unmapped. -/
def State.memReady (s : State) (a : Nat) : Bool :=
  match fwTarget a with
  | 0 => s.readyBit (rbHBM + stackOf a)
  | 1 => s.readyBit (rbCLUSTER + (a / 0x100000000 % 2 * 8 + a % 0x100000000 / 0x800000))
  | 2 => s.readyBit (rbCLUSTER + (a / 0x100000000 % 2 * 8 + (a % 0x100000000 - 0x10000000) / 0x2000000))
  | 3 => s.readyBit (rbDIE + a / 0x100000000 % 2)
  | 4 => s.readyBit (rbARRAY + a / 0x100000000 % 2)
  | _ => true

/-- A request refused: counted, its tag, target and address latched, recorded (R33, R349); memory that is not ready
counts as unmapped (R426). -/
def State.refuse (s : State) (tag a : Nat) (write : Bool) : State :=
  let s := (s.inc Reg.glbFwRefused).wr Reg.glbFwLast (BitVec.ofNat 32 (tag * 65536 + (if s.memReady a then fwTarget a else 7) * 16 + b2n write))
  let s := (s.wr64 Reg.glbFwAddrLo a).raise isrcFW_REFUSED
  s.log { kind := ekFW_REFUSED, tag, time := s.time, addr := a }

/-! ### Trace records (R261, R443) -/

/-- The origin tag of a trace record's write, class N (R261, R443): the scheduler of its die, or the partition's first core for a
verdict. -/
def State.traceTag (s : State) (r : TraceRec) : Nat :=
  match r.die with
  | some d => originTag clsN 0 r.part d 0x83
  | none => let k := ((s.pcfg r.part).cores.head?).getD 0; originTag clsN 0 r.part (k / 64) (k % 64)

/-- The register that counts the records of a ring, and the address of its slot `ahead` records after the next. -/
def State.traceSlot (s : State) (r : TraceRec) (ahead : Nat) : Option (Nat × Nat) :=
  match r.die with
  | some d =>
    let h := Reg.schTraceHead d r.part
    (s.pcfg r.part).sched.map fun c => (h, c.trAddr + d * c.trLen + 16 * (((s.rd h).toNat + ahead) % (c.trLen / 16)))
  | none =>
    let h := Reg.hifVtHead r.part
    some (h, s.rd64 (Reg.hifVtBaseLo r.part) + 16 * (((s.rd h).toNat + ahead) % 2 ^ bits (s.rd (Reg.hifVtCtrl r.part)).toNat 15 11))

/-- A trace record made: it waits to be written; one whose place lies in a referenced image is refused (R60). -/
def State.makeTrace (s : State) (r : TraceRec) : State :=
  match s.traceSlot r (s.traceQ.filter fun x => x.die == r.die && x.part == r.part).length with
  | none => s
  | some (_, a) => if s.inImage a 16 then s.refuse (s.traceTag r) a true else { s with traceQ := s.traceQ ++ [r] }

end Sys2Proof.Machine
end

