-- ==== Sys2Proof/Machine/Events.lean ====
section
/-! DEFINITION. The error collector (16_fault_handling.md): events counted against fault states, isolation, retirement and what
becomes of the work in flight, and the stop of partitions that can no longer work. -/

namespace Sys2Proof.Machine

/-- The item kinds of commit tries, confirmations and hand-off work, beside the task kinds of R242 (R189, R243, R375, R379). -/
def ikREPLAY := 6
/-- RECHECK. -/
def ikRECHECK := 7
/-- CONFIRM. -/
def ikCONFIRM := 8
/-- REPEAT. -/
def ikREPEAT := 9
/-- A hand-off record; `arg` is its address. -/
def ikHANDOFF := 10

/-- A core replaced. -/
def State.setCore (s : State) (k : Nat) (c : CoreSt) : State := { s with cores := listSet s.cores k c }
/-- Core k. -/
def State.core (s : State) (k : Nat) : CoreSt := s.cores.getD k {}
/-- The scheduler of die d. -/
def State.sch (s : State) (d : Nat) : SchedDie := s.sched.getD d {}
/-- A scheduler replaced. -/
def State.setSch (s : State) (d : Nat) (x : SchedDie) : State := { s with sched := listSet s.sched d x }
/-- Solver engine i. -/
def State.eng (s : State) (i : Nat) : EngSt := s.engs.getD i {}
/-- A solver engine replaced. -/
def State.setEng (s : State) (i : Nat) (x : EngSt) : State := { s with engs := listSet s.engs i x }
/-- The array of die d. -/
def State.arr (s : State) (d : Nat) : ArrSt := s.arrs.getD d {}
/-- An array replaced. -/
def State.setArr (s : State) (d : Nat) (x : ArrSt) : State := { s with arrs := listSet s.arrs d x }

/-- The unit identifier of solver engine i (R368). -/
def engUnit (i : Nat) : Nat := unitId (i / 16) (64 + i % 16)

/-! ### Array runs ended (R240, R241) -/

/-- The result codes of GAR_NET_STATUS. -/
def rrOK := 0
/-- LATE. -/
def rrLATE := 1
/-- CHK_FAIL. -/
def rrCHK := 2
/-- CMP_FAIL. -/
def rrCMP := 3
/-- POISON. -/
def rrPOISON := 4
/-- DESC_ERR. -/
def rrDESC := 5
/-- ABORTED. -/
def rrABORT := 6

/-- The status of a network's last run on a die and its times in µs. -/
def ArrSt.stat (a : ArrSt) (p n : Nat) : Option (Nat × Nat) :=
  (a.last.find? fun e => e.1 == p && e.2.1 == n).map fun e => e.2.2

/-- What the end of a run counts (R221, R224, R239, R240) and whether it is a timing-dependent choice (R308). -/
def State.countRun (s : State) (d : Nat) (r : ARun) (result : Nat) : State :=
  if result = rrLATE then (s.inc (Reg.garLateRun d)).tdc r.part r.frame 6
  else if result = rrCHK then s.tdc r.part r.frame 7
  else if result = rrCMP then (s.inc (Reg.garCmpFail d)).tdc r.part r.frame 7
  else if result = rrPOISON then (s.inc (Reg.garPoison d)).tdc r.part r.frame 7
  else if result = rrDESC then s.inc (Reg.garDescErr d)
  else s

/-- A run of a network on die d ended with a result at t (R240): the status, the times, the counts, and the interrupt where
it is other than OK. -/
def State.endRun (s : State) (d : Nat) (r : ARun) (result t : Nat) : State :=
  let a := s.arr d
  let us := min 65535 ((t - r.trig) / 1000)
  let mx := max us (match a.stat r.part r.net with | some (_, w) => w / 65536 | none => 0)
  let st := result * 65536 + r.frame % 65536
  let s := s.setArr d { a with runs := a.runs.filter fun x => !(x.part == r.part && x.net == r.net),
                               last := (r.part, r.net, st, mx * 65536 + us) :: a.last.filter fun e => !(e.1 == r.part && e.2.1 == r.net) }
  if result = rrOK then s else (s.countRun d r result).raiseP r.part 4

/-- Every run of a die that satisfies a test ended. -/
def State.endRuns (s : State) (d : Nat) (p : ARun → Bool) (result t : Nat) : State :=
  ((s.arr d).runs.filter p).foldl (fun s r => s.endRun d r result t) s

/-- The array of die d can run: its unit in service and its planner die out of reset. -/
def State.arrUp (s : State) (d : Nat) : Bool := s.dev.warm.isNone && s.healthy (unitId d 88)

/-- A network's run started on one die (R221): an earlier run of it that has not completed ends LATE; the array's segments in
Cosy wake (R403). -/
def State.startRunOn (s : State) (p : Nat) (n : Net) (frame t d : Nat) : State :=
  if n.onDie d && s.arrUp d then
    let s := match (s.arr d).runs.find? fun r => r.part == p && r.net == n.net with
      | some r => s.endRun d r rrLATE t
      | none => s
    let s := (List.range 8).foldl (fun s g => s.wakeDom (domSeg d g)) s
    let a := s.arr d
    s.setArr d { a with runs := a.runs ++ [{ part := p, net := n.net, cls := n.cls, frame, trig := t }] }
  else s

/-- A network's trigger: a run on every die it names. -/
def State.startRun (s : State) (p : Nat) (n : Net) (frame t : Nat) : State :=
  (s.startRunOn p n frame t 0).startRunOn p n frame t 1

/-! ### Solving ended (R166, R174, R175) -/

/-- The solving in progress on engine i ends with no result: NO_RESULT, and the frame counted under SOLVER. -/
def State.noResult (s : State) (i : Nat) : State :=
  let e := s.eng i
  if e.busy then
    (s.setEng i { e with busy := false, wait := false, step := .idle, ended := some (e.ctx, e.frame), lastFlags := 2 ^ 4 }).tdc e.part e.frame 2
  else s

/-- The privileged contexts in force with their partition and solver record. -/
def State.privs (s : State) : List (PartCfg × SolverCtx) := s.cfg.parts.flatMap fun q => q.solver.ctxs.map fun c => (q, c)

/-- The cluster of engine i, in package numbering. -/
def engCluster (i : Nat) : Nat := i / 16 * 8 + i % 16 / 2

/-- The engine that serves a privileged context (R174): its own, or the other of the cluster where its own is retired, the
other is not and serves none. -/
def State.engineOf (s : State) (c : SolverCtx) : Option Nat :=
  if !s.isRetired (engUnit c.engine) then some c.engine
  else
    let o := if c.engine % 2 = 0 then c.engine + 1 else c.engine - 1
    if s.isRetired (engUnit o) || s.privs.any (fun e => e.2.engine == o) then none else some o

/-- The host core that a frame's solving takes (R151, R175): the lowest-indexed core of the partition in the engine's cluster that is
HEALTHY or in WATCH, or in CONFIRM while it has the role. DESIGN CHOICE (log entry 185): a lower core that has returned to service takes the
role again. -/
def State.nextHost (s : State) (q : PartCfg) (engine : Nat) : Option Nat :=
  let own := q.cores.filter fun k => k / 8 == engCluster engine
  own.find? fun k =>
    match s.phase (coreUnit k) with
    | .healthy => true
    | .watch => true
    | .confirm => (s.eng engine).host == some k || ((s.eng engine).host.isNone && own.head? == some k)
    | _ => false

/-- What engine i counts for a frame of a context. -/
def EngSt.tallyOf (e : EngSt) (ctx frame : Nat) : Option STally := e.tallies.find? fun (y : STally) => y.ctx == ctx && y.frame == frame

/-- That count replaced. -/
def EngSt.setTally (e : EngSt) (y : STally) : EngSt :=
  { e with tallies := e.tallies.map fun (z : STally) => if z.ctx = y.ctx ∧ z.frame = y.frame then y else z }

/-! ### Partitions stopped (R65, R380) -/

/-- Partition p ends after the frame whose window contains t (R65). -/
def State.stopPart (s : State) (p t : Nat) : State :=
  let x := s.prun p
  if s.running p && x.lastFrame.isNone then s.setPRun p { x with lastFrame := some (s.frameAt p t) } else s

/-- Cores of a partition in service on a die. -/
def State.coresUp (s : State) (q : PartCfg) (d : Nat) : Nat := ((q.coresOn d).filter s.coreOk).length

/-- The partition can work (R380). -/
def State.canWork (s : State) (q : PartCfg) : Bool :=
  (q.mechs.isEmpty || (decide (3 ≤ s.coresUp q 0 + s.coresUp q 1) && decide (1 ≤ s.coresUp q 0) && decide (1 ≤ s.coresUp q 1)))
  && !(q.solver.ctxs.any fun c => q.pr.ctxCount == 1 && (s.engineOf c).isNone)
  && !(q.nets.any fun n => [0, 1].any fun d => n.onDie d && s.isRetired (unitId d 88))

/-- Every RUNNING partition that a retirement has left unable to work is stopped; with the field master, every partition that
defines mechanisms (R380). The stop is recorded with kind RETIRED. -/
def State.stopUnable (s : State) (ref t : Nat) : State :=
  let bad := s.cfg.parts.filter fun q => s.running q.num && (s.prun q.num).lastFrame.isNone && !s.canWork q
  let ps := bad.map (·.num)
  let ps := if s.master.any ps.contains then (ps ++ s.mechParts).eraseDups else ps
  ps.foldl (fun s p => (s.stopPart p t).log { kind := ekRETIRED, act := 9, time := t, ref }) s

/-- The ACTION of an event before any counting (R369, R384). -/
def actOf (kind : Nat) : Nat :=
  [0, 1, 3, 2, 3, 3, 4, 3, 2, 3, 4, 0, 0, 0, 8, 3, 3, 3, 3, 3, 3, 7, 0, 0, 0, 3].getD kind 0

/-! ### Trace records (R261) -/

/-- A scheduling decision of a partition with a trace ring makes a record, which waits to be written (R261). -/
def State.trace (s : State) (d ev core : Nat) (i : Item) (arg : Nat) : State :=
  match (s.pcfg i.part).sched with
  | some c =>
    if c.trAddr = 0 then s else
    let b := traceBytes (s.time % 2 ^ 35) ev core i.grp (i.cls + 4 * d + 8 * i.part) i.task i.flow arg
    s.makeTrace { die := some d, part := i.part, data := b, t := s.time }
  | none => s

/-! ### Completions of host queues (R438, R440) -/

/-- Queue q of function fn. -/
def State.hq (s : State) (fn q : Nat) : HQueue := s.hqs.getD (8 * fn + q) {}
/-- A queue replaced. -/
def State.setHq (s : State) (fn q : Nat) (x : HQueue) : State := { s with hqs := listSet s.hqs (8 * fn + q) x }

/-- A ready completion written to the CQ, while it has room, and the HOSTQ source raised (R389, R438, R440). -/
def State.postOne (s : State) (fn q : Nat) : State :=
  let x := s.hq fn q
  match x.ready with
  | [] => s
  | c :: r =>
    if x.cqFull then s else
    let s := s.toHost (s.rd64 (Reg.hifCqBaseLo fn q) + 16 * x.cqTail) (c.bytes x.phase)
    let t := (x.cqTail + 1) % 2 ^ x.cqSize
    let s := s.setHq fn q { x with ready := r, cqTail := t, phase := if t = 0 then !x.phase else x.phase }
    if x.irq && fn != 0 then s.raiseP (fn - 1) (8 + q) else s

/-- Every ready completion of a queue that has room written. -/
def State.postReady (s : State) (fn q : Nat) : State :=
  (List.range (s.hq fn q).ready.length).foldl (fun s _ => s.postOne fn q) s

/-- A command of a queue completed: a completion for every failure, and for a success that asks for one (R438). -/
def State.complete (s : State) (fn q cid status result : Nat) (notify : Bool) : State :=
  if status = hsOK ∧ !notify then s else
  let x := s.hq fn q
  (s.setHq fn q { x with ready := x.ready ++ [{ cid, status, head := x.head, result }] }).postReady fn q

/-- The COPY in progress on queue q of function fn ends (R437, R438, R442): its completion is posted, unless the function has been
reset since. -/
def State.copyDone (s : State) (fn q status result : Nat) : State :=
  let x := s.hq fn q
  match x.copy with
  | none => s
  | some b =>
    let s := s.setHq fn q { x with copy := none, mute := false }
    let h := decHCmd b
    if x.mute then s else s.complete fn q h.cid status result h.notify

/-- The COPYs in progress of a function end ABORTED (R442). -/
def State.abortCopies (s : State) (fn : Nat) : State := (List.range 8).foldl (fun s q => s.copyDone fn q hsABORTED 0) s

/-! ### Items that no core can take (R243, R257) -/

/-- No healthy core of its partition is in a released item's affinity set (R257). -/
def State.noCoreFor (s : State) (d : Nat) (i : Item) : Bool :=
  !(((s.pcfg i.part).coresOn d).any fun k => s.coreOk k && bit i.aff (k % 64))

/-- A released item without an eligible core fails (R257): counted, traced and recorded; the command of a HOST item ends ABORTED
(DEDUCED, log entry 180). -/
def State.failItem (s : State) (d : Nat) (i : Item) : State :=
  let s := ((s.inc (Reg.schNoCore d)).trace d 0x0A 0xFF i 0).log { kind := ekNO_CORE, act := actOf ekNO_CORE, cls := i.cls, time := s.time, op := i.seq }
  if i.kind = tkHOST then s.copyDone (i.part + 1) i.arg hsABORTED 0 else s

/-- Items taken out of a die's queues, dispatch slots and holds. A group left empty leaves the round-robin list with deficit 0, a task
left without backlog is held no more. -/
def SchedDie.without (d : SchedDie) (gone : Item → Bool) : SchedDie :=
  let stays (i : Item) : Bool := !gone i
  let gs := d.groups.map fun (g : GroupSt) =>
    let l := g.items.filter stays
    { g with items := l, deficit := if l.isEmpty then 0 else g.deficit }
  { d with
    commitQ := d.commitQ.filter stays
    groups := gs
    order := d.order.filter fun e => e == sliceRef || gs.any fun g => g.part == e.1 && g.grp == e.2 && !g.items.isEmpty
    slots := d.slots.map (·.filter stays)
    tasks := d.tasks.map fun (t : TaskSt) =>
      let l := t.backlog.filter stays
      { t with backlog := l, held := t.held && (t.backlog.isEmpty || !l.isEmpty) } }

/-- Queued and held items of a die that no healthy core can take any more fail, once a core has left service (R257). -/
def State.failUnserved (s : State) (d : Nat) : State :=
  let x := s.sch d
  let bad := ((x.groups.flatMap (·.items)) ++ x.tasks.flatMap (·.backlog)).filter (s.noCoreFor d)
  if bad.isEmpty then s
  else bad.foldl (fun s i => s.failItem d i) (s.setSch d { x.without (fun i => i.grp != 0xFF && bad.contains i) with slots := x.slots })

/-! ### Work in flight of a unit that leaves service (R175, R257, R379) -/

/-- A core gives up the role of host (R175): the solving that it hosts ends with no result, and hand-off records that it has not yet
admitted are discarded and counted. -/
def State.unhost (s : State) (k : Nat) : State :=
  let s := (List.range 32).foldl (fun s i =>
    if (s.eng i).host = some k then let s := s.noResult i; s.setEng i { s.eng i with host := none } else s) s
  let c := s.core k
  let s := s.inc (Reg.slvLateHandoff (k / 64)) c.handQ.length
  s.setCore k { c with handQ := [] }

/-- The dispatch-slot entries of a core returned to the heads of their group queues in slot order, each traced (R257, R261). -/
def State.returnSlots (s : State) (k : Nat) : State :=
  let d := k / 64
  let l := (s.sch d).slots.getD (k % 64) []
  let x := l.reverse.foldl (fun x i => if i.grp = 0xFF then { x with commitQ := i :: x.commitQ } else x.giveBack i) (s.sch d)
  l.foldl (fun s i => s.trace d 0x04 k i i.seq) (s.setSch d { x with slots := listSet x.slots (k % 64) [], idle := [] })

/-- The core positions of die d that may take a commit try's item again (R189, R243): never the entry's source core. -/
def State.tryAff (s : State) (x : CSlot) (d : Nat) : Nat :=
  let r := s.round.mechs.getD x.mech {}
  match r.list.entries[r.pos]? with
  | some e => if e.source / 64 = d then 2 ^ 64 - 1 - 2 ^ (e.source % 64) else 2 ^ 64 - 1
  | none => 2 ^ 64 - 1

/-- The item that admits a candidate of a slot of core k again on die d, as class S work of another core (R379). A REPLAY or RECHECK
item keeps the affinity that its pick gave it while it stays on its die. -/
def State.again (s : State) (c : CSlot) (k d : Nat) : Item :=
  { c.item with cls := clsS, grp := 0xFF, first := c.candId, n := 1, cost := 1,
                kind := if c.item.kind = tkLATTICE ∧ c.hand.isSome then ikHANDOFF else c.item.kind,
                arg := c.addr,
                aff := if decide (ikREPLAY ≤ c.item.kind) && decide (c.item.kind ≤ ikREPEAT) then
                         (if k / 64 = d then c.item.aff else s.tryAff c d)
                       else 2 ^ 64 - 1 }

/-- The fault of core k lies in its scratchpad or its selection engine (R379). -/
def State.selFault (s : State) (k : Nat) : Bool := (s.faultSt (.unit (coreUnit k) 0)).sel

/-- The candidates of a retired core's slots that have no verdict, and with a fault in the scratchpad or the selection engine every
candidate of a slot, go to the commit queue of the same die, or of the other where the partition has no other core in service on it. -/
def State.readmit (s : State) (k : Nat) : State :=
  let c := s.core k
  let again (x : CSlot) : Bool := decide (x.ph ≠ .done) || s.selFault k
  let open_ := c.slots.filter again
  let s := open_.foldl (fun s x =>
    let q := s.pcfg x.item.part
    let d := if (q.coresOn (k / 64)).any fun j => j != k && s.coreOk j then k / 64 else 1 - k / 64
    s.setSch d ((s.sch d).pushCommit (s.again x k d))) s
  s.setCore k { s.core k with slots := c.slots.filter fun x => !again x }

/-- The verdict buffer and the partial lists of a retired core discarded (R379): the verdicts count as truncated. -/
def State.discardBuf (s : State) (k : Nat) : State :=
  let c := s.core k
  let p := ((s.cfg.coreOwner k).map (·.num)).getD 0
  let s := [0, 1].foldl (fun (s : State) h =>
    let f := c.fill.getD h 0
    if f = 0 then s else (s.inc (Reg.prbTruncCount (k / 64)) f).tdc p (c.halfOf.getD h 0) 0) s
  (s.zero (padBase k) 0x64000).setCore k { s.core k with fill := [0, 0], owes := false }

/-- A lane of core k fails during a candidate's tests (R149): its CHECK state ends, and it is tested again on the remaining lanes. -/
def State.replayLane (s : State) (k : Nat) : State :=
  let c := s.core k
  s.setCore k { c with slots := c.slots.map fun x => if x.ph = .check then { x with ph := .bind, poses := [] } else x }

/-- Core k has reductions or merges to complete. -/
def CoreSt.owing (c : CoreSt) : Bool := c.owes || c.fill.any (0 < ·) || c.slots.any fun x => decide (x.ph = .done)

/-! ### Loans (R278, R414) -/

/-- A clock lowered by one step, not past its floor (R411, R414). -/
def Kettle.lower (k : Kettle) (i : Nat) : Kettle :=
  let floor := if i < 16 then k.sec.eng.getD i 4 else k.sec.arr.getD (i - 16) 4
  let c := k.clks.getD i {}
  if c.target < c.step then { k with clks := listSet k.clks i { c with target := c.step, capped := true } }
  else if c.step < floor then { k with clks := listSet k.clks i { step := c.step + 1, target := c.step + 1, capped := true } } else k

/-- Clocks raised on loan lowered, newest first, until the loans that stand cover the rest (R414). -/
def Kettle.repay : Nat → Kettle → Kettle
  | 0, k => k
  | n + 1, k =>
    match k.raises with
    | [] => k
    | (i, _) :: r =>
      if (k.raises.map (·.2)).sum ≤ (k.lent.map (·.2)).sum then k else Kettle.repay n ({ k with raises := r }.lower i)

/-- The loan of a core ends (R278, R414). -/
def State.endLoan (s : State) (k : Nat) : State :=
  if s.ktl.lent.any (·.1 == k) then
    let t := { s.ktl with lent := s.ktl.lent.filter (·.1 != k) }
    { s with ktl := t.repay t.raises.length }
  else s

/-! ### Work in service -/

/-- The items in service on a core that leaves service for good go back to the heads of their groups, to be issued again on
another core; a DMA chain runs on from the descriptor after its last applied tally command (R257, R383). A SELFTEST item ends.
Candidates of LATTICE items are admitted again one by one. -/
def State.reissue (s : State) (k : Nat) : State :=
  let x := s.sch (k / 64)
  let dma := (s.core k).dma
  let mine := (x.busy.filter fun e => e.1 == k && e.2.kind != tkLATTICE).reverse
  let x := { x with busy := x.busy.filter fun e => !mine.contains e }
  let x := mine.foldl (fun x e =>
    if e.2.kind = tkSELFTEST then x
    else x.giveBack { e.2 with arg := if e.2.kind = tkDMA ∧ dma.item = some e.2 then dma.from_ else e.2.arg }) x
  let s := { s with sync := { s.sync with waits := s.sync.waits.filter fun w => !(w.issuer == Issuer.dma k) } }
  ((s.endLoan k).setSch (k / 64) x).setCore k { s.core k with dma := (s.core k).dma.free }

/-! ### Retirement (R379, R381) -/

/-- A unit or lane entered in the retirement list: the warden's own list up to 64, then this power cycle's alone (R381). -/
def State.listRetired (s : State) (u sub : Nat) : State :=
  let e := s.errs
  if e.list.length < 64 then { s with errs := { e with list := e.list ++ [(u, sub)] } }
  else { s with errs := { e with extra := e.extra ++ [(u, sub)], full := true } }

/-- The self-test slices of a unit leave its die's rotation (R361); one that runs ends. -/
def State.dropSlices (s : State) (u : Nat) : State :=
  let r := s.rots.getD (u / 512) {}
  let keep (e : Nat × Nat) : Bool := e.1 != u % 512
  { s with rots := listSet s.rots (u / 512) { r with
      pend := r.pend.filter keep, first := r.first.filter keep, asked := r.asked.filter keep, late := r.late.filter (· != u % 512),
      run := if r.run.any (·.unit == u % 512) then none else r.run } }

/-- One unit retired, without the units that follow it: the list, the record, the count, the interrupt, the work in flight and
the fault state. A core that owes reductions or merges is powered off once it has completed them (R379, R402). -/
def State.retireOne (s : State) (u sub ref t : Nat) : State :=
  if s.isRetired u sub then s else
  let s := (s.listRetired u sub).log { kind := ekRETIRED, act := 7, unit := u + sub * 4096, time := t, ref }
  let s := (s.inc Reg.errRetireCount).raise isrcRETIRED
  let s := if sub = 0 then s.dropSlices u else s
  let pos := u % 512; let d := u / 512
  if sub ≠ 0 then
    (s.replayLane (d * 64 + pos)).setFault { s.faultSt (.unit u 0) with phase := .watch, slices := [], lanes := [], other := false, sel := false }
  else if pos < 64 then
    let k := d * 64 + pos
    let s := ((((s.unhost k).returnSlots k).readmit k).reissue k).failUnserved d
    let s := if s.selFault k then s.discardBuf k else s
    if (s.core k).owing then s else s.powerOff u
  else if pos < 80 then (s.noResult (d * 16 + (pos - 64))).powerOff u
  else if pos = 88 then (s.endRuns d (fun _ => true) rrABORT t).powerOff u
  else s.powerOff u

/-- A unit or lane retired with what follows from it: the fourth lane of an engine retires the core, a field store every core
of its cluster (R379). Then the partitions that cannot work are stopped (R380). -/
def State.retire (s : State) (u sub ref t : Nat) : State :=
  let s := s.retireOne u sub ref t
  let pos := u % 512; let d := u / 512
  let k := d * 64 + pos
  let s := if sub ≠ 0 ∧ (s.lanesOut k (if sub ≤ 4 then 1 else 5)).length = 4 then s.retireOne u 0 ref t else s
  let s := if 96 ≤ pos ∧ pos < 104 then
      let g := d * 8 + (pos - 96)
      let s := { s with fld := { s.fld with stores := listSet s.fld.stores g { s.fld.stores.getD g {} with ready := false, excluded := true, copying := false, copied := false } } }
      (List.range 8).foldl (fun s i => s.retireOne (unitId d ((pos - 96) * 8 + i)) 0 ref t) s
    else s
  s.stopUnable ref t

/-- A lasting fault (R372, R373): the unit goes to ISOLATE with every slice of its kinds to run; a field store, which has no
slices, is retired at once; a link, a context table and an HBM stack are not retired (R379). -/
def State.isolate (s : State) (u ref t : Nat) : State :=
  let f := s.faultSt (.unit u 0)
  let s := s.inc Reg.errLasting
  if u % 512 ≤ 88 then
    let s := s.setFault { f with stSig := none, phase := .isolate, slices := sliceKinds (u % 512), since := t, ref, lanes := [], other := false }
    let s := { s with rots := listSet s.rots (u / 512 % 2) { s.rots.getD (u / 512 % 2) {} with
      first := (sliceKinds (u % 512)).map (fun k => (u % 512, k)) ++ (s.rots.getD (u / 512 % 2) {}).first } }
    if u % 512 < 64 then ((s.unhost (u / 512 * 64 + u % 512)).returnSlots (u / 512 * 64 + u % 512)).failUnserved (u / 512) else s
  else if u % 512 < 104 then s.retire u 0 ref t
  else s

/-! ### Counting (R369 to R372) -/

/-- What an event's kind is counted against (R369): a word, a unit or lane, the package-wide state, or nothing. The fabric of
a die, which has no unit identifier, is kept as `noUnit` with the die as its sub-unit. -/
def countKey (e : EventIn) : Option FKey :=
  if e.kind = ekECC_CE then some (.word (e.addr / 8))
  else if [ekECC_UE, ekCRC_RETRY, ekCRC_ERR, ekDUP_DISAGREE, ekCHK_RECOMPUTE, ekCHK_FAIL, ekREPLICA].contains e.kind then
    (if e.unit != noUnit then some (.unit e.unit e.sub)
     else if e.kind = ekCRC_RETRY ∨ e.kind = ekCRC_ERR then some (.unit noUnit e.sub) else none)
  else if e.kind = ekUNATTRIB then some .unattrib
  else none

/-- One event counted against a fault state (R370, R371): the new state, how many events its window holds, and whether it was
counted at all (one in each master frame). -/
def State.count (s : State) (k : FKey) (kind t : Nat) : FaultSt × Nat × Bool :=
  let f := s.faultSt k
  let fr := s.masterFrame t
  let open_ := inWindow f.evs kind (fun k => (s.cfg.faults.limits (if k = ekUNATTRIB then 0 else k)).2) t
  if fr.isSome ∧ f.frame = fr then (f, open_.length, false)
  else
    let evs := (t, kind) :: open_
    ({ f with evs := evs ++ f.evs.filter fun e => !sameCount e.2 kind, frame := fr,
              phase := if f.phase = .healthy then .watch else f.phase }, evs.length, true)

/-- The fault state belongs to a retired unit: nothing is counted any more. -/
def FKey.gone (k : FKey) (s : State) : Bool := match k with | .unit u b => s.isRetired u b | _ => false

/-- A class S fault that names a planner die goes to the warden: a FAULT trigger and a fall-back decision (R320, R329, R382). -/
def State.dieFault (s : State) (t : Nat) : State :=
  { s.trigger 12 t s.mechNums with dev := { s.dev with fall := some (tick t) } }

/-- What a lasting fault of a key does (R372, R377, R379, R382). -/
def State.lasting (s : State) (k : FKey) (ref t : Nat) : State :=
  match k with
  | .unit u _ => s.isolate u ref t
  | .unattrib => (s.inc Reg.errLasting).dieFault t
  | .word w =>
    let u := ownerUnit (8 * w)
    let pos := u % 512
    if u = noUnit ∨ pos = 105 then s.inc Reg.errLasting
    else if pos = 104 then (s.inc Reg.errLasting).dieFault t
    else if pos < 64 then (s.setFault { s.faultSt (.unit u 0) with sel := true }).isolate u ref t
    else s.isolate u ref t

/-- An event reported to the error collector: its record, its count, and what a lasting fault or a planner-die fault does
(R369 to R372, R382). -/
def State.event (s : State) (e : EventIn) (ref : Nat := 0) : State :=
  let e := { e with t := tick e.t }
  let rec_ (act count : Nat) : ErrRec :=
    { kind := e.kind, act, tag := e.tag, unit := if e.unit = noUnit then noUnit else e.unit + e.sub * 4096, cls := e.cls, count,
      time := e.t, aux := e.aux, op := e.op, addr := e.addr, synd := e.synd, ref }
  let s := if e.kind = ekUNATTRIB then s.inc Reg.errUnattrib else s
  let s := match countKey e with
    | none => s.log (rec_ (actOf e.kind) 0)
    | some k =>
      if k.gone s then s.log (rec_ (actOf e.kind) 0)
      else
        let (f, n, counted) := s.count k e.kind e.t
        let lasts := counted && (e.kind == ekCHK_FAIL || decide ((s.cfg.faults.limits (if e.kind = ekUNATTRIB then 0 else e.kind)).1 ≤ n))
          && decide (f.phase ≠ .isolate)
        let s := if counted then s.setFault f else s.inc Reg.errCoalesced
        let (ref, s) := s.record (rec_ (if lasts then 6 else actOf e.kind) n)
        if lasts then s.lasting k ref e.t else if counted then s.inc Reg.errTransient else s
  if e.kind = ekLINK_DOWN ∨ (e.kind = ekECC_UE ∧ e.unit ≠ noUnit ∧ e.unit % 512 = 104) then s.dieFault e.t else s

end Sys2Proof.Machine
end

