-- ==== Sys2Proof/Machine/SchedOps.lean ====
section
/-! DEFINITION. The scheduler's shared operations (10_task_scheduling.md): trace records, event flags, release of tasks, holds,
lattice expansion; and the completions of host queues that a release or a tally wait leads to. -/

namespace Sys2Proof.Machine

/-! ### Lattice expansion (R110) -/

/-- The frame whose check window is in force at t, for partition p (R22). -/
def State.checkFrame (s : State) (p t : Nat) : Option Nat :=
  let q := s.pcfg p
  let x := s.prun p
  if s.running p && decide (x.t0 + q.frame.publish * 1000 ≤ t) && q.frame.P != 0
  then some ((t - x.t0 - q.frame.publish * 1000) / (q.frame.P * 1000)) else none

/-- The start block of a context. -/
def State.startBlk (s : State) (x : Nat) : StartBlock := decStart (s.peek (ctxBase x) 128)

/-- A mechanism's lattice and the address of its body. -/
def State.lattice (s : State) (q : PartCfg) (m : Mech) : Nat × Lattice :=
  let img := (q.caddy.getD m.caddy {}).addr
  let l := latticeAt (s.peek img 1088) m.lattice
  (img + l.off, l)

/-- The primitives of a lattice context in its frame, in the order of R110: the valid ones of the class range, capped by
MAX_CAND, that fall to the context's lane. -/
def State.expand (s : State) (q : PartCfg) (m : Mech) (x : Nat) : List Nat :=
  let b := s.startBlk x
  let (body, l) := s.lattice q m
  if l.classes ≤ b.cls then [] else
  let first := s.peekN (body + 64 + 8 * b.cls) 4
  let count := s.peekN (body + 64 + 8 * b.cls + 4) 4
  let kept := (List.range count).filter fun p => bit (s.peekN (body + primOff l.classes l.stride (first + p) + 2) 2) 0
  let kept := if m.maxCand = 0 then kept else kept.take m.maxCand
  (kept.filter fun p => p % b.lanes == b.lane).map (· + first)

/-- The start state of a context is the one of frame n (R104). -/
def State.bound (s : State) (x n : Nat) : Bool := (s.startBlk x).frame == n % 2 ^ 32 && (s.startBlk x).lanes != 0 || (s.startBlk x).frame == n % 2 ^ 32 && (s.startBlk x).role == 2

/-- The LATTICE items of a context for a frame, 32 candidates each (R242). -/
def State.latticeItems (s : State) (q : PartCfg) (t : TaskRec) (cls seq frame epoch : Nat) : List Item :=
  let x := t.arg 2
  match q.mechOf x with
  | none => []
  | some m =>
    let n := (s.expand q m x).length
    (List.range (cdiv n 32)).map fun i =>
      { part := q.num, task := t.task, grp := t.grp, cls, flow := 0, cost := min 32 (n - 32 * i), aff := t.aff, seq := seq + i,
        kind := tkLATTICE, frame, epoch, ctx := x, first := 32 * i, n := min 32 (n - 32 * i) }

/-! ### Release and holds (R244, R248, R256) -/

/-- A task at run time. -/
def State.task? (s : State) (d p t : Nat) : Option TaskSt := (s.sch d).tasks.find? fun x => x.part == p && x.task == t

/-- A task replaced. -/
def State.setTask (s : State) (d : Nat) (x : TaskSt) : State := s.setSch d ((s.sch d).setTask x)

/-- An item of a task by itself: its class is its group's. -/
def taskItem (p : Nat) (t : TaskRec) (cls seq : Nat) : Item :=
  { part := p, task := t.task, grp := t.grp, cls, flow := t.flow, cost := t.cost, aff := t.aff, seq, kind := t.kind }

/-- An item put into its group's queue while the group has room; the rest are answered (R256). -/
def enqueueAll (d : SchedDie) : List Item → SchedDie × List Item
  | [] => (d, [])
  | i :: r =>
    match d.group i.part i.grp with
    | none => (d, [])
    | some g => if d.room g then enqueueAll (d.enqueue i) r else (d, i :: r)

/-- The package's release order (R249, R254, R256): the number of the next item released. -/
def State.relClock (s : State) : Nat := (s.sched.map (·.clock)).foldl max 0

/-- A hold counted and traced, and source HOLD raised (R256). -/
def State.countHold (s : State) (d : Nat) (i : Item) : State :=
  let n := match (s.sch d).group i.part i.grp with | some g => g.items.length | none => 0
  ((s.inc (Reg.schHoldCount d)).trace d 0x06 0xFF i n).raiseP i.part 5

/-- Items released for a task, numbered in release order: into its group's queue, or held in their source with what does not fit, behind
those that are held already (R256). An item without an eligible core fails (R257). -/
def State.place (s : State) (d : Nat) (t : TaskSt) (is : List Item) : State :=
  let c := s.relClock
  let is := is.zipIdx.map fun (e : Item × Nat) => { e.1 with at_ := c + e.2 }
  let t := { t with seq := t.seq + is.length }
  let good := is.filter fun i => !s.noCoreFor d i
  let bad := is.filter (s.noCoreFor d)
  let (x, rest) := if t.held then (s.sch d, good) else enqueueAll (s.sch d) good
  let s := s.setSch d ({ x with clock := c + is.length }.setTask { t with held := t.held || !rest.isEmpty, backlog := t.backlog ++ rest })
  let s := bad.foldl (fun s i => s.failItem d i) s
  if t.held then s else match rest with
    | [] => s
    | i :: _ => s.countHold d i

/-- The re-arming of a released task (R248): its previous due time plus DELAY_US, moved past the next tick boundary; the
periods skipped are counted. -/
def State.rearm (s : State) (d : Nat) (t : TaskSt) (delayUs : Nat) : State × TaskSt :=
  if delayUs = 0 then (s, t) else
  let step := delayUs * 1000
  let next := s.time / 1000 * 1000 + 1000
  let at_ := t.prev + step
  let k := if at_ < next then cdiv (next - at_) step else 0
  (s.inc (Reg.schSkip d) k, { t with due := some (at_ + k * step), prev := at_ + k * step })

/-- What a release puts into the queues: a LATTICE task the candidates of its context, or, while the start state of the frame is not
written yet, those of the start block as it stands, which then wait in BIND (R104, R246); a DMA or SELFTEST task one item. HOST and
INGEST items come from their sources. A LATTICE release that comes once the frame's admission has ended, in its last microsecond, is
discarded like the items still queued then (R246; DEDUCED, log entry 194). -/
def State.releaseItems (s : State) (d : Nat) (q : PartCfg) (r : TaskRec) (t : TaskSt) : State :=
  let cls := match (s.sch d).group q.num r.grp with | some g => g.cls | none => clsN
  if r.kind = tkLATTICE then
    match s.checkFrame q.num s.time with
    | none => s
    | some n =>
      let x := r.arg 2
      let is := s.latticeItems q r cls t.seq n s.fld.epoch
      if n < (s.prun q.num).nAdm then (if is.isEmpty then s else (s.inc (Reg.schDiscard d) is.length).tdc q.num n 0)
      else s.place d { t with await := if s.bound x n then none else some (n, s.fld.epoch, (s.startBlk x).cls) } is
  else if r.kind = tkDMA ∨ r.kind = tkSELFTEST then s.place d t [{ taskItem q.num r cls t.seq with frame := s.frameAt q.num s.time, epoch := s.fld.epoch, arg := r.arg (if r.kind = tkDMA then 8 else 1) }]
  else s

/-- A task that is ready and not held is released, its masked flags cleared, and re-armed (R244, R248, R256). -/
def State.tryRelease (s : State) (d : Nat) (q : PartCfg) (r : TaskRec) : State :=
  match s.task? d q.num r.task with
  | none => s
  | some t =>
    let hit := t.flags &&& r.mask
    let ready := if r.any then hit != 0 else hit == r.mask
    if ready && !t.held then
      let s := s.trace d 0x01 0xFF (taskItem q.num r (match (s.sch d).group q.num r.grp with | some g => g.cls | none => 0) t.seq) hit
      let (s, t) := s.rearm d { t with flags := t.flags - hit } r.delay
      (s.setTask d t).releaseItems d q r t
    else s

/-- An event flag of a task set, with the release that follows (R244). -/
def State.setFlag (s : State) (p task flag : Nat) : State :=
  let q := s.pcfg p
  match q.task task with
  | none => s
  | some r =>
    match s.task? r.die p task with
    | none => s
    | some t => (s.setTask r.die { t with flags := t.flags ||| 2 ^ flag }).tryRelease r.die q r

/-- A phase flag of R245 set for every task of a partition, on both dies. -/
def State.phaseFlag (s : State) (p flag : Nat) : State :=
  ((s.pcfg p).tasks.map (·.task)).foldl (fun s t => s.setFlag p t flag) s

/-- A held item goes into its group's queue where the group has room and no item of its task stays before it. -/
def refill (a : SchedDie × List Item) (i : Item) : SchedDie × List Item :=
  if a.2.any fun j => j.part == i.part && j.task == i.task then (a.1, a.2 ++ [i])
  else match a.1.group i.part i.grp with
    | none => a
    | some g => if a.1.room g then (a.1.enqueue i, a.2) else (a.1, a.2 ++ [i])

/-- One held task after items have been taken from a die's queues: its hold is lifted where its queue is below the limit, with what
its flags ask for by now (R244); where items stay behind it is held again. -/
def State.resumeTask (s : State) (d : Nat) (left : List Item) (t : TaskSt) : State :=
  let q := s.pcfg t.part
  match q.task t.task with
  | none => s
  | some r =>
    let rest := left.filter fun j => j.part == t.part && j.task == t.task
    let room := (s.sch d).group t.part r.grp |>.any (s.sch d).room
    if (if t.backlog.isEmpty then !room else rest.length == t.backlog.length) then s
    else
      let i := taskItem t.part r (match (s.sch d).group t.part r.grp with | some g => g.cls | none => 0) t.seq
      let s := (s.setTask d { t with held := !rest.isEmpty, backlog := rest }).trace d 0x07 0xFF i 0
      if rest.isEmpty then s.tryRelease d q r else s.countHold d i

/-- Held items of a die enter their queues in the order of their release, while their groups have room (R256). -/
def State.resume (s : State) (d : Nat) : State :=
  let x := s.sch d
  let was := x.tasks.filter (·.held)
  if was.isEmpty then s else
  let all := (was.flatMap (·.backlog)).mergeSort fun a b => decide (a.at_ ≤ b.at_)
  let y := all.foldl refill (x, [])
  was.foldl (fun s t => s.resumeTask d y.2 t) (s.setSch d y.1)

/-- LATTICE work of a task for a frame that has not entered the sweep engine, withdrawn: queued items, and slots in FETCH or BIND. -/
def State.withdraw (s : State) (d p task n : Nat) : State :=
  let gone (i : Item) : Bool := i.part == p && i.task == task && i.frame == n && i.kind == tkLATTICE
  let x := (s.sch d).without gone
  let s := s.setSch d { x with busy := x.busy.filter fun e => !gone e.2, idle := [] }
  { s with cores := s.cores.map fun (c : CoreSt) =>
      { c with slots := c.slots.filter fun y => !(gone y.item && (decide (y.ph = .fetch) || decide (y.ph = .bind))) } }

/-- A context's start state has been written for frame n. A LATTICE release made before it stands where its START_CLASS was the one
written; else its candidates, of another class range, give way to those of the class written (R104, R110, R246; DESIGN CHOICE, log
entry 181). -/
def State.startWritten (s : State) (p x n : Nat) : State :=
  let q := s.pcfg p
  match q.tasks.find? fun r => r.kind == tkLATTICE && r.arg 2 == x with
  | none => s
  | some r =>
    match s.task? r.die p r.task with
    | some t =>
      match t.await with
      | some (m, e, c) =>
        if m ≠ n then s
        else if (s.startBlk x).cls = c then s.setTask r.die { t with await := none }
        else
          let cls := match (s.sch r.die).group p r.grp with | some g => g.cls | none => 0
          let s := s.withdraw r.die p r.task n
          match s.task? r.die p r.task with
          | some t => s.place r.die { t with await := none } (s.latticeItems q r cls t.seq n e)
          | none => s
      | none => s
    | none => s

/-- The delay-list entries of a partition's tasks disarmed (R258). -/
def SchedDie.disarm (d : SchedDie) (p : Nat) : SchedDie :=
  { d with tasks := d.tasks.map fun t => if t.part = p then { t with due := none } else t }

/-- The tasks of a partition cleared, and its items removed from queues, dispatch slots, the delay list and the commit queue
(R258). -/
def SchedDie.clearPart (d : SchedDie) (p : Nat) : SchedDie :=
  { d with tasks := d.tasks.map fun t => if t.part = p then { t with flags := 0, due := none, held := false, backlog := [], await := none } else t,
           groups := d.groups.map fun g => if g.part = p then { g with items := [], deficit := 0, fresh := true } else g,
           order := d.order.filter fun e => e.1 != p,
           slots := d.slots.map fun l => l.filter fun i => i.part != p,
           busy := d.busy.filter fun e => e.2.part != p,
           commitQ := d.commitQ.filter fun i => i.part != p }

/-- The whole die cleared (R258). -/
def SchedDie.clearAll (d : SchedDie) : SchedDie :=
  { (List.range 8).foldl SchedDie.clearPart d with slots := List.replicate 64 [], busy := [], commitQ := [], order := [] }

end Sys2Proof.Machine
end

