-- ==== Sys2Proof/Machine/MemOps.lean ====
section
/-! DEFINITION. Requests on memory: the wake of a domain in Cosy (R299), the firewall of R349 with the rules of particular
writers, what a refusal does (R33), and writes that respect poison (R296). -/

namespace Sys2Proof.Machine

/-! ### The firewalls (R349) -/

/-- Who issues a request: work of a partition on a die with its class, the physical function, a virtual function, the loader. -/
inductive Who
  | part (p cls die : Nat)
  | pf
  | vf (p : Nat)
  deriving DecidableEq, Repr

/-- A range lies in an S region (R350). -/
def State.inS (s : State) (a n : Nat) : Bool := s.cfg.time.sUnit (a / 2 ^ 26) || s.cfg.time.sUnit ((a + n - 1) / 2 ^ 26)

/-- A claim of an array-buffer bank by a partition (CLASS 0x0B). -/
def PartCfg.claimsBank (q : PartCfg) (d b : Nat) : Bool := q.claims.any fun c => c.cls == 0x0B && c.has (d * 16 + b)

/-- A core exists for the fabric: enabled in the fuses. -/
def State.padThere (s : State) (a : Nat) : Bool := s.coreEn (a / 0x100000000 % 2 * 64 + a % 0x100000000 / 0x100000)

/-- A request for HBM (R349, R57, R60). -/
def State.fwHbm (s : State) (w : Who) (write : Bool) (a n : Nat) : Bool :=
  !(write && s.inImage a n) &&
  (match w with
   | .pf => decide (a + n ≤ 0x000C00000000) && !overlap a n 0x0005F8000000 0x8000000 && !(write && s.inS a n)
   | .vf p => (s.pcfg p).inUnits a n && s.defined p && !(write && s.inS a n)
   | .part p cls _ => (s.pcfg p).inUnits a n && s.defined p && (!(write && s.inS a n) || cls == clsS))

/-- A request for a scratchpad: its partition's tags and reads of the physical function (R349); a DMA engine writes the general
region alone and does not read the counter window (R288). -/
def State.fwPad (s : State) (w : Who) (write : Bool) (a n : Nat) : Bool :=
  let k := a / 0x100000000 % 2 * 64 + a % 0x100000000 / 0x100000
  let o := a % 0x100000
  s.coreEn k && decide (o + n ≤ 0x100000) &&
  (match w with
   | .pf => !write
   | .vf _ => false
   | .part p _ _ => (s.pcfg p).cores.contains k && s.defined p &&
       (if write then decide (0x64000 ≤ o) && decide (o + n ≤ 0xD0000) else !overlap o n 0xD4000 0x4000))

/-- A request is admitted (R349, R57, R60, R80, R288, R290). -/
def State.fwOk (s : State) (w : Who) (write : Bool) (a n : Nat) : Bool :=
  decide (fwTarget a = fwTarget (a + n - 1)) &&
  match fwTarget a with
  | 0 => s.fwHbm w write a n
  | 1 => s.fwPad w write a n
  | 2 => !write && a / 0x2000000 == (a + n - 1) / 0x2000000 && (match w with | .vf _ => false | _ => true)
  | 3 => !write && (match w with | .part _ _ d => d == a / 0x100000000 % 2 | _ => false)
  | 4 => (match w with
          | .pf => !write
          | .vf _ => false
          | .part p _ _ => (s.pcfg p).claimsBank (a / 0x100000000 % 2) ((a % 0x100000000 - 0x20000000) / 0x400000)
              && (s.pcfg p).claimsBank (a / 0x100000000 % 2) ((a % 0x100000000 - 0x20000000 + n - 1) / 0x400000))
  | 5 => !write && w == .pf
  | _ => false

/-! ### Writes and poison (R296) -/

/-- The origin tag of an ingest channel (R348); its writes are for its partition at class S. -/
def chanTag (c : Ingest) : Nat := originTag clsS 1 0 2 (0x10 + c.cfg.chan)

/-- Bytes that a channel writes; memory that is not ready (R426) and a referenced image (R60) take none. -/
def State.ingWrite (s : State) (c : Ingest) (a : Nat) (b : List Byte) : State :=
  if s.memReady a && !s.inImage a b.length then s.store a b else s.refuse (chanTag c) a true

/-! ### Time and trace records (R9 to R12, R261, R443) -/

/-- One trace record written to its ring in the partition's HBM units (R261: the die's ring; R443: the verdict trace), unless the
range of a referenced image has come to lie there (R60). -/
def State.writeTrace (s : State) (r : TraceRec) : State :=
  match s.traceSlot r 0 with
  | none => s
  | some (head, a) => if s.inImage a 16 then s else (s.store a r.data).wr head (BitVec.ofNat 32 ((s.rd head).toNat + 1))

/-- Trace records that no drop has taken within 1 µs: they are written, oldest first, once device time has passed it. -/
def State.flushTrace (s : State) (t : Nat) : State :=
  (s.traceQ.filter fun r => decide (r.t + 1000 < t)).foldl State.writeTrace
    { s with traceQ := s.traceQ.filter fun r => decide (t ≤ r.t + 1000) }

/-- Device time moves on to `t`, in ticks of 8 ns, and never back (R9, R11); the trace records due by then are written. -/
def State.at (s : State) (t : Nat) : State :=
  ({ s with time := max s.time (t - t % 8) } : State).flushTrace (max s.time (t - t % 8))

/-! ### Array buffers after a warm reset (R241) -/

/-- A byte of an array buffer holds what was written since the last warm reset, or no warm reset has come. -/
def State.known (s : State) (a : Nat) : Bool :=
  fwTarget a != 4 || s.dev.bufGen == 0 || s.dev.bufDef.any fun r => decide (r.1 ≤ a) && decide (a < r.1 + r.2)

/-- The undefined bytes of a range take their free values, which then stand. -/
def State.settleBuf (s : State) (a n : Nat) : State :=
  if s.dev.bufGen = 0 ∨ !(fwTarget a = 4 ∨ fwTarget (a + n - 1) = 4) then s
  else
    let u := ((List.range n).map (· + a)).filter fun i => !s.known i
    let s := u.foldl (fun s i => s.poke i [Config.bufByte s.dev.bufGen i]) s
    { s with dev := { s.dev with bufDef := (a, n) :: s.dev.bufDef } }

/-- A range of an array buffer written: defined from now on. -/
def State.defBuf (s : State) (a n : Nat) : State :=
  if s.dev.bufGen ≠ 0 ∧ fwTarget a = 4 then { s with dev := { s.dev with bufDef := (a, n) :: s.dev.bufDef } } else s

/-! ### Transfers (R294, R296, R297) -/

/-- The blocks of a transfer: cut at the 4 KiB boundaries of the destination; offset and length of each. -/
def blocksOf (dst len : Nat) : List (Nat × Nat) :=
  if len = 0 then [] else
  (List.range ((dst + len - 1) / 4096 - dst / 4096 + 1)).map fun i =>
    let lo := if i = 0 then dst else (dst / 4096 + i) * 4096
    let hi := min (dst + len) ((dst / 4096 + i + 1) * 4096)
    (lo - dst, hi - lo)

/-- Whole lines moved: the data, and the poison of each line. -/
def State.move (s : State) (src dst n : Nat) : State :=
  let s := (s.settleBuf src n).defBuf dst n
  let bad := (List.range (n / 64)).map fun i => s.psn.get false (src / 64 + i)
  let s := s.poke dst (s.peek src n)
  { s with psn := bad.zipIdx.foldl (fun t e => t.set false (dst / 64 + e.2) e.1) s.psn }

/-- Every line of a block poisoned at its destination. -/
def State.spoil (s : State) (dst n : Nat) : State := (s.defBuf dst n).mark dst n true

/-- The start of the remote windows (R30). -/
def farBase : Nat := 2 ^ 47

/-- The fault state that a CRC event of a transfer is counted against: the PD0–PD1 link where it crosses it, else the fabric of
the destination's die. -/
def crcUnit (src dst : Nat) : Nat × Nat :=
  if src < farBase ∧ memDie src ≠ memDie dst then (unitId 0 113, 0) else (noUnit, memDie dst)

/-! ### Other packages (R30, R32, R477, R483) -/

/-- The package whose window an address lies in, and its local address there. -/
def window? (a : Nat) : Option (Nat × Nat) :=
  if farBase ≤ a ∧ a < farBase + 8 * 2 ^ 43 then some ((a - farBase) / 2 ^ 43, a % 2 ^ 43) else none

/-- The local address that an address of the package's own window reaches; any other address as it is. -/
def State.near (s : State) (a : Nat) : Nat :=
  match window? a with
  | some (p, x) => if p = s.dev.pkgSel then x else a
  | none => a

/-- The other package that an address lies in. -/
def State.farPkg (s : State) (a : Nat) : Option Nat :=
  match window? a with
  | some (p, _) => if p = s.dev.pkgSel then none else some p
  | none => none

/-- Package d can be reached (R477): it has a route with a port that carries traffic. -/
def State.reaches (s : State) (d : Nat) : Bool :=
  match s.links.routes.getD d none with | some r => r.ports != 0 | none => false

/-- The port that requests to package d of a unit take (R477). -/
def State.portTo (s : State) (d dieUnit : Nat) : Option Nat := (s.links.routes.getD d none).bind fun r => r.port dieUnit

/-- Bytes sent from a port: its count of non-idle flits advanced. -/
def State.txFlits (s : State) (port n : Nat) : State :=
  ({ s with fresh := s.fresh + 1 } : State).add64 (Reg.cdlTxFlitsLo port) (1 + Config.cdlFlits n s.fresh)

/-- A request to another package that fails (R483). -/
def State.farLost (s : State) : State := s.inc Reg.cdlRemoteErr

/-! ### Virtual channels, credits and transit (R474 to R480) -/

/-- Crindadon port n. -/
def State.cport (s : State) (n : Nat) : CPort := s.links.ports.getD n {}

/-- A port replaced, its state as it was. -/
def State.putCport (s : State) (n : Nat) (x : CPort) : State := { s with links := { s.links with ports := listSet s.links.ports n x } }

/-- The port and pool by which a transaction can go on now: its link is up and carries, and the pool there has a credit. A new request
to a package whose route is to change waits (R479). -/
def State.msgVia (s : State) (m : CMsg) : Option (Nat × CPool) :=
  if m.req.isSome && s.links.turning.any (·.1 == m.dest) then none
  else (s.portTo m.dest m.unit).bind fun n =>
    let x := s.cport n
    if x.live && x.carries then ((m.pools x.peerPkg).find? fun l => x.credit l != 0).map fun l => (n, l) else none

/-- A transaction leaves by port n against a credit of pool l; the buffer it was held in is free again, and a request's 100 µs begin. -/
def State.msgSend (s : State) (m : CMsg) (n : Nat) (l : CPool) : State :=
  let x := s.cport n
  let s := (s.putCport n (x.setCredit l (x.credit l - 1))).txFlits n m.bytes
  let s := match m.at_ with
    | some (a, b) => s.putCport a { s.cport a with inUse := (s.cport a).inUse.erase b }
    | none => s
  match m.req with
  | some id => { s with links := { s.links with reqs := s.links.reqs.map fun (r : CReq) => if r.id = id ∧ r.pkg = m.dest then { r with t := some s.time } else r } }
  | none => s

/-- A transaction held here for a package that is no longer reachable is lost (R476). -/
def State.msgLose (s : State) (m : CMsg) : State :=
  match m.at_ with
  | some (a, b) => s.putCport a { s.cport a with inUse := (s.cport a).inUse.erase b }
  | none => s

/-- Every waiting transaction that has a credit goes on, in order, none ahead of one it keeps its place behind; routes that waited for
answers change (R475, R478 to R480). -/
def State.relay (s : State) : State :=
  if s.links.msgs.isEmpty && s.links.turning.isEmpty then s
  else
  let turned := s.links.turning.filter fun (e : Nat × Option CRoute) => !s.links.sentTo e.1
  let s := { s with links := { s.links with
    routes := s.links.routes.zipIdx.map fun (e : Option CRoute × Nat) => ((turned.find? fun (x : Nat × Option CRoute) => x.1 == e.2).map Prod.snd).getD e.1
    turning := s.links.turning.filter fun (e : Nat × Option CRoute) => !turned.contains e } }
  let r := s.links.msgs.foldl (fun (a : State × List CMsg) (m : CMsg) =>
    if !a.1.reaches m.dest then (a.1.msgLose m, a.2)
    else if a.2.any m.behind then (a.1, a.2 ++ [m])
    else
      match a.1.msgVia m with
      | some (n, l) => (a.1.msgSend m n l, a.2)
      | none => (a.1, a.2 ++ [m])) (s, [])
  { r.1 with links := { r.1.links with msgs := r.2 } }

/-- A transaction joins those that wait, and goes on at once where it can. -/
def State.post (s : State) (m : CMsg) : State := ({ s with links := { s.links with msgs := s.links.msgs ++ [m] } } : State).relay

/-- Requests to other packages given up, with what of them still waits at the source. -/
def State.reqDrop (s : State) (gone : CReq → Bool) : State :=
  let ids := (s.links.reqs.filter gone).map CReq.id
  { s with links := { s.links with
      reqs := s.links.reqs.filter fun (r : CReq) => !gone r
      msgs := s.links.msgs.filter fun (m : CMsg) => match m.req with | some i => !ids.contains i | none => true } }

/-- The outstanding requests of core k's descriptor given up; an ADD sent behind it stays. -/
def State.farDrop (s : State) (k : Nat) : State :=
  let keep := (s.cores.getD k {}).dma.ahead
  (s.reqDrop fun r => r.core == some k && keep != some r.id).relay

/-- A request of this package to package d made: it leaves at once where it has a credit, else it waits at its source (R480). -/
def State.request (s : State) (d unit part cls bytes : Nat) (write : Bool) (core : Option Nat) (sig : Option (Nat × Nat × Nat)) : State :=
  let id := s.links.nextId
  let r : CReq := { id, pkg := d, write, part, core, sig }
  ({ s with links := { s.links with reqs := r :: s.links.reqs, nextId := id + 1 } } : State).post
    { req := some id, dest := d, src := s.dev.pkgSel, unit, part, cls, bytes }

/-! ### Idle domains (R404) -/

/-- A core's engines hold no work: no dispatch entry, no slot in use, no DMA chain that runs. -/
def State.coreQuiet (s : State) (k : Nat) : Bool :=
  let c := s.core k
  c.slots.isEmpty && ((s.sch (k / 64)).slots.getD (k % 64) []).isEmpty && (c.dma.item.isNone || c.dma.wait)

/-- A core is idle (R404): its engines hold no work, its DMA engine runs no chain, no wait of it and no monitor entry on its
counters is in use, and it owes no reduction and no merge. -/
def State.coreIdle (s : State) (k : Nat) : Bool :=
  let c := s.core k
  let here (w : TWord) : Bool := match w with | .ctr j _ => j == k | .mem _ => false
  s.coreQuiet k && c.dma.item.isNone && c.fill.all (· == 0) && !c.owes &&
  !(s.sync.waits.any fun w => w.issuer == Issuer.dma k || here w.word) && !(s.sync.mons.any fun m => here m.word)

/-- A domain is idle (R404). -/
def State.domIdle (s : State) (n : Nat) : Bool :=
  let ran (p : Nat) : Bool := s.running p
  if n < 128 then s.coreIdle n
  else if n < 144 then
    !(s.master.any ran) && !(s.privs.any fun e => ran e.1.num && (s.engineOf e.2).any fun i => engCluster i == n - 128)
  else if n < 160 then !(s.cfg.parts.any fun q => ran q.num && q.cores.any fun k => k / 8 == n - 144)
  else (s.arr ((n - 160) / 8)).runs.isEmpty

/-- The domains that the section in force lets into Cosy. -/
def State.cosyDoms (s : State) : List Nat := maskBits 176 s.ktl.sec.cosy

/-- A domain's idle time: it starts anew when the idle condition comes to hold. -/
def State.lookIdle (s : State) (n : Nat) : State :=
  let x := s.dom n
  if x.st ≠ .on then s
  else if !s.domIdle n then (if x.busy then s else s.setDom n { x with busy := true })
  else if x.busy then s.setDom n { x with busy := false, idleAt := s.time } else s

/-- The cores that count as waiting (R278): the head of the DMA queue waits, and the other engines hold no work. -/
def State.waitingCores (s : State) : List Nat :=
  (s.sync.waits.filterMap fun w => match w.issuer with
    | .dma k => if (s.core k).slots.isEmpty then some k else none
    | _ => none).eraseDups

/-- Since when cores count as waiting. -/
def State.lookWaits (s : State) : State :=
  let l := s.waitingCores
  if l.isEmpty && s.ktl.waitAt.isEmpty then s
  else
    let old := s.ktl.waitAt.filter fun e => l.contains e.1
    { s with ktl := { s.ktl with waitAt := old ++ (l.filter fun k => !old.any (·.1 == k)).map (·, s.time) } }

/-- The times since which domains are idle and cores wait, looked at when every command ends. -/
def State.touchIdle (s : State) : State := (s.cosyDoms.foldl State.lookIdle s).lookWaits

end Sys2Proof.Machine
end

