-- ==== Sys2Proof/Machine/SyncOps.lean ====
section
/-! DEFINITION. Tally operations at their homes (11_synchronisation.md): references resolved, words read and written, the
operations with their errors, waits and standing monitors, and the initialisation of declared counters. -/

namespace Sys2Proof.Machine

/-! ### References and words (R263, R264, R279) -/

/-- The die of a tally word's home. -/
def TWord.die : TWord → Nat
  | .ctr k _ => k / 64
  | .mem a => stackOf a

/-- The device address of a tally word. -/
def TWord.addr : TWord → Nat
  | .ctr k n => padBase k + 0xD4000 + 8 * n
  | .mem a => a


/-- The counter (core, n) as a declared counter of partition p; the physical function (p = 8) reaches every one. -/
def State.declared (s : State) (p k n : Nat) : Option TWord :=
  match s.sync.ctr k n with
  | some c => if (c.part = p ∨ p = 8) ∧ k < 128 ∧ n < 48 then some (.ctr k n) else none
  | none => none

/-- The tally word that a TREF names for partition p; none where R268 answers SYN_UNMAPPED. -/
def State.resolve (s : State) (p tref : Nat) : Option TWord :=
  let q := s.pcfg p
  match decTref q.sync.full tref with
  | none => none
  | some (.addr w) =>
    let a := s.near w
    match ctrAt a with
    | some (k, n) => s.declared p k n
    | none => if a % 8 = 0 ∧ fwTarget a = 0 ∧ ((q.inUnits a 8 ∧ p < 8) ∨ p = 8) then some (.mem a) else none
  | some (.full k n) => match q.cores[k]? with
    | some c => s.declared p c n
    | none => none
  | some (.virt _ _) => match s.sync.xlate.find? fun e => e.1 == p && e.2.1 == tref with
    | some e => s.declared p e.2.2.1 e.2.2.2
    | none => none

/-- The device address of a reference that names no counter. -/
def State.memRef (s : State) (p tref : Nat) : Option Nat :=
  match decTref (s.pcfg p).sync.full tref with
  | some (.addr w) => if (ctrAt (s.near w)).isSome then none else some (s.near w)
  | _ => none

/-- VALUE, GEN and ERR of a word; a poisoned memory word acts as if ERR were set (R297). -/
structure TVal where
  value : Nat := 0
  gen   : Nat := 0
  err   : Bool := false
  deriving DecidableEq, Repr

/-- A word is a memory word that is poisoned; a sync unit serves its counters itself, and they are never poisoned. -/
def State.wordBad (s : State) : TWord → Bool
  | .ctr _ _ => false
  | .mem a => s.poisoned a 8

/-- A word read. -/
def State.tword (s : State) (w : TWord) : TVal :=
  let x := s.peekN w.addr 8
  { value := x % 2 ^ 56, gen := x / 2 ^ 56 % 128, err := x.testBit 63 || s.wordBad w }

/-- A word written. -/
def State.setTword (s : State) (w : TWord) (v : TVal) : State := s.poke w.addr (toLE 8 (tallyBits v.err v.gen v.value))

/-- The declared counter of a word. -/
def State.ctrOf (s : State) : TWord → Option Ctr
  | .ctr k n => s.sync.ctr k n
  | .mem _ => none

/-- The operations of R265. -/
def opREAD := 1
/-- R265. -/
def opADD := 2
/-- R265. -/
def opSUB := 3
/-- R265. -/
def opTAKE := 4
/-- R265. -/
def opWAITGE := 5
/-- R265. -/
def opWAITEQ := 6
/-- R265. -/
def opARRIVE := 7

/-- An operation is permitted for its word (R265, R267), with the OPERAND of an ADD or SUB in its range. -/
def State.permitted (s : State) (w : TWord) (op operand : Nat) : Bool :=
  (match s.ctrOf w with
   | none => [opREAD, opADD, opWAITGE].contains op
   | some c =>
     if c.kind = ckMONO then [opREAD, opADD, opWAITGE, opWAITEQ].contains op
     else if c.kind = ckSEM then [opREAD, opADD, opSUB, opTAKE, opWAITGE, opWAITEQ].contains op
     else [opREAD, opADD, opWAITGE, opWAITEQ, opARRIVE].contains op)
  && ((op != opADD && op != opSUB) || (decide (1 ≤ operand) && decide (operand < 2 ^ 32)))

/-! ### Issuers (R268, R269, R278) -/

/-- The origin tag of an issuer's operation for partition p at a class (R348). -/
def Issuer.tag (i : Issuer) (p cls : Nat) : Nat :=
  match i with
  | .dma k => originTag cls 0 p (k / 64) (k % 64)
  | .hostq fn _ => originTag cls 0 (fn - 1) 3 fn
  | .array d => originTag cls 0 p d 0x81
  | .hostReg p => if cls = clsN then originTag clsN 0 0 3 0 else originTag cls 0 p 3 (1 + p)
  | .ingest n => originTag cls 1 0 2 (0x10 + n)
  | .remote d => originTag cls 0 p 3 (0x80 + d)

/-- The die on which an issuer's refused operation is counted. -/
def Issuer.die : Issuer → Nat
  | .dma k => k / 64
  | .array d => d
  | _ => 0

/-- The item of a core's DMA engine. -/
def State.dmaItem (s : State) (k : Nat) : Item := ((s.core k).dma.item).getD {}

/-- The item of a core's DMA engine ends without completing: it leaves service, and the engine is free (R292). -/
def State.dmaDrop (s : State) (k : Nat) : State :=
  let x := s.sch (k / 64)
  let i := (s.core k).dma.item
  let s := s.setSch (k / 64) { x with busy := x.busy.filter fun e => !(e.1 == k && some e.2 == i) }
  ({ s with sched := s.sched.map fun (y : SchedDie) => { y with idle := [] } } : State).setCore k { s.core k with dma := (s.core k).dma.free }

/-- The DMA engine of a core goes on to the next descriptor. -/
def DmaSt.next (d : DmaSt) (a : Nat) : DmaSt :=
  { d with desc := a, passed := d.passed + 1, retry := [], fail := false, wait := false, far := d.ahead.isSome, ahead := none,
           got := [], gotBad := [] }

/-- The DMA engine of a core no longer waits: it goes on behind its tally command, or its item fails. -/
def State.dmaResume (s : State) (k : Nat) (bad : Bool) : State :=
  if bad then s.dmaDrop k
  else
    let c := s.core k
    s.setCore k { c with dma := { c.dma.next (c.dma.desc + 32) with from_ := c.dma.desc + 32, wrote := [] } }

/-- The command at which a host queue stands completes with a status. -/
def State.hqEnd (s : State) (fn q status result : Nat) : State :=
  match (s.hq fn q).wait with
  | none => s
  | some b =>
    let h := decHCmd b
    (s.setHq fn q { s.hq fn q with wait := none }).complete fn q h.cid status result h.notify

/-- An issuer fails (R268): its item or command ends, an error record is written. -/
def State.tallyFail (s : State) (i : Issuer) (p cls addr : Nat) : State :=
  let op := match i with | .dma k => (s.dmaItem k).seq | _ => 0
  let s := s.log { kind := ekTALLY_ERR, cls, time := s.time, op, addr }
  match i with
  | .dma k => (s.dmaResume k true).tdc p (s.frameAt p s.time) 7
  | .hostq fn q => s.hqEnd fn q hsTALLY_ERR 0
  | _ => s

/-- A refused operation (R268): SYN_UNMAPPED, the interrupt, the issuer's failure. -/
def State.tallyRefuse (s : State) (i : Issuer) (p cls die addr : Nat) : State :=
  let s := s.inc (Reg.synUnmapped die)
  let s := if p < 8 then s.raiseP p 6 else s
  s.tallyFail i p cls addr

/-! ### Waits (R266, R269, R273, R276) -/

/-- The condition of a wait holds on a word. -/
def Wait.holds (w : Wait) (v : TVal) : Bool :=
  if w.op = opTAKE ∨ w.op = opWAITGE then decide (w.operand ≤ v.value)
  else if w.op = opWAITEQ then v.value == w.operand
  else w.gen != v.gen

/-- A wait ends: its condition holds, or its word shows ERR. -/
def State.endWait (s : State) (w : Wait) (bad : Bool) : State :=
  let s := { s with sync := { s.sync with waits := s.sync.waits.filter (· != w) } }
  let s := match w.issuer with | .dma k => s.endLoan k | _ => s
  if bad then s.tallyFail w.issuer w.part w.cls w.word.addr
  else match w.issuer with
    | .dma k => s.dmaResume k false
    | .hostq fn q => s.hqEnd fn q hsOK 0
    | _ => s

/-- A polled wait looked at: ended where its word shows ERR or its condition holds; a TAKE then subtracts. -/
def State.tryWait (s : State) (w : Wait) : Option State :=
  let v := s.tword w.word
  if v.err then some (s.endWait w true)
  else if w.holds v then
    let s := if w.op = opTAKE then s.setTword w.word { v with value := v.value - w.operand } else s
    some (s.endWait w false)
  else none

/-- Every registered wait of a word, those that poll left out, looked at with the value that the word has now, in the order in
which they registered (R266, R268). Of the TAKEs whose condition holds the first ends and subtracts; it answers whether one did. -/
def State.evalRound (s : State) (w : TWord) : State × Bool :=
  let v := s.tword w
  (s.sync.waits.filter fun x => x.word == w && !x.polled).foldl (fun (a : State × Bool) x =>
    if v.err then (a.1.endWait x true, a.2)
    else if !x.holds v then a
    else if x.op ≠ opTAKE then (a.1.endWait x false, a.2)
    else if a.2 then a
    else ((a.1.setTword w { v with value := v.value - x.operand }).endWait x false, true)) (s, false)

/-- The registered waits of a word evaluated at each value that it takes, a released TAKE giving it the next one (R266). -/
def State.evalWaits : Nat → State → TWord → State
  | 0, s, _ => s
  | n + 1, s, w =>
    match s.evalRound w with
    | (u, true) => State.evalWaits n u w
    | (u, false) => u

/-! ### Standing monitors (R275) -/

/-- What a standing monitor does when it fires: an event flag, a network run, an interrupt, or the DONE mark. -/
def State.monFire (s : State) (u : MonUse) : State :=
  match u with
  | .flag p task flag => s.setFlag p task flag
  | .run p net =>
    match (s.pcfg p).nets.find? (·.net == net) with
    | some n => if s.running p then s.startRun p n (s.frameAt p s.time) s.time else s
    | none => s
  | .done _ _ => s
  | .int p k => s.raiseP p (16 + k)

/-- One standing monitor looked at. -/
def State.monLook (s : State) (m : Mon) : State :=
  let v := (s.tword m.word).value
  if m.e ≤ v ∧ m.step ≠ 0 then
    let (m', k) := m.advance v
    let s := { s with sync := { s.sync with mons := s.sync.mons.map fun x => if x = m then m' else x } }
    (s.inc (Reg.synCoalesce m.die) k).monFire m.use
  else s

/-- The standing monitors of a word. -/
def State.evalMons (s : State) (w : TWord) : State := (s.sync.mons.filter (·.word == w)).foldl State.monLook s

/-- What follows an operation applied to a word: SYN_OPS, its waits, its monitors. -/
def State.applied (s : State) (w : TWord) : State :=
  let s := match w with | .ctr k _ => s.add64 (Reg.synOpsLo (k / 64)) 1 | .mem _ => s
  (State.evalWaits (s.sync.waits.length + 1) s w).evalMons w

/-! ### The operations (R265, R268, R270, R276) -/

/-- ERR set on a word by an error of R268, counted in `reg`; the interrupt of the partition follows. -/
def State.tallyErr (s : State) (w : TWord) (p reg : Nat) : State :=
  let s := (s.setTword w { s.tword w with err := true }).inc reg
  if p < 8 then s.raiseP p 6 else s

/-- A memory word that the firewall refuses (R268): handled as R33 states. -/
def State.wordRefused (s : State) (i : Issuer) (p cls op a : Nat) : State :=
  s.refuse (i.tag p cls) a (op != opREAD && op != opWAITGE)

/-- The channels that an ADD to a word breaks (R270). -/
def State.broken (s : State) (w : TWord) : List Chan :=
  s.sync.chans.filter fun h =>
    (h.p == w && decide ((s.tword h.c).value + h.bound < (s.tword h.p).value)) ||
    (h.c == w && decide ((s.tword h.p).value < (s.tword h.c).value))

/-- ADD: VALUE + OPERAND, or ERR where it would overflow; ERR on both words of a channel that it breaks. -/
def State.tallyAdd (s : State) (w : TWord) (p operand : Nat) : State :=
  let v := s.tword w
  if 2 ^ 56 ≤ v.value + operand then (s.tallyErr w p (Reg.synOverflow w.die)).applied w
  else
    let s := s.setTword w { v with value := v.value + operand }
    match s.broken w with
    | [] => s.applied w
    | h :: r =>
      let mark (s : State) (h : Chan) : State := (s.setTword h.p { s.tword h.p with err := true }).setTword h.c { s.tword h.c with err := true }
      let s := ((h :: r).foldl mark s).inc (Reg.synBoundErr w.die)
      let s := if p < 8 then s.raiseP p 6 else s
      (((h :: r).flatMap fun h => [h.p, h.c]).eraseDups.filter (· != w)).foldl
        (fun s x => State.evalWaits (s.sync.waits.length + 1) s x) (s.applied w)

/-- SUB: VALUE − OPERAND, or ERR where it would underflow. -/
def State.tallySub (s : State) (w : TWord) (p operand : Nat) : State :=
  let v := s.tword w
  if v.value < operand then (s.tallyErr w p (Reg.synUnderflow w.die)).applied w
  else (s.setTword w { v with value := v.value - operand }).applied w

/-- An issuer whose operation is done goes on: a host command completes with a result. -/
def State.tallyDone (s : State) (i : Issuer) (result : Nat) : State :=
  match i with
  | .hostq fn q => s.hqEnd fn q hsOK result
  | _ => s

/-- A wait registered: its queue stalls (R269). An ARRIVE has been applied, and a chain that is issued again resumes behind it (R267). A wait on a sync counter takes one of the home's 64 monitor entries, or polls;
a barrier needs none (R273, R276). -/
def State.register (s : State) (w : Wait) : State :=
  let used := (s.sync.waits.filter fun x => !x.polled && x.op != opARRIVE && (match x.word, w.word with | .ctr a _, .ctr b _ => a == b | _, _ => false)).length
  let polled := match w.word with | .mem _ => true | .ctr _ _ => w.op != opARRIVE && decide (64 ≤ used)
  let s := { s with sync := { s.sync with waits := s.sync.waits ++ [{ w with polled }] } }
  match w.issuer with
  | .dma k =>
    let m := (s.core k).dma
    s.setCore k { s.core k with dma := { m with wait := true, from_ := if w.op = opARRIVE then m.desc + 32 else m.from_ } }
  | _ => s

/-- A wait, TAKE or ARRIVE applied to its word: it ends at once, or registers. -/
def State.tallyWait (s : State) (w : Wait) : State :=
  let v := s.tword w.word
  if w.op = opARRIVE then
    let parties := match s.ctrOf w.word with | some c => c.parties | none => 1
    let w := { w with gen := v.gen }
    if v.value + 1 = parties then
      ((s.setTword w.word { v with value := 0, gen := (v.gen + 1) % 128 }).applied w.word).tallyDone w.issuer 0
    else (s.setTword w.word { v with value := (v.value + 1) % 2 ^ 56 }).register w |>.applied w.word
  else if w.op = opTAKE ∧ w.operand ≤ v.value then
    ((s.setTword w.word { v with value := v.value - w.operand }).applied w.word).tallyDone w.issuer 0
  else if v.err then (s.applied w.word).tallyFail w.issuer w.part w.cls w.word.addr
  else if w.holds v then (s.applied w.word).tallyDone w.issuer 0
  else (s.register w).applied w.word

/-- An issuer may wait (R269, R274): a DMA engine or a host queue of this package. -/
def Issuer.waits : Issuer → Bool
  | .dma _ => true
  | .hostq _ _ => true
  | _ => false

/-- An issuer's queue stands in a wait already. -/
def State.stalled (s : State) (i : Issuer) : Bool := i.waits && s.sync.waits.any (·.issuer == i)

/-- The firewall's view of a write to a memory word (R349, R350): an S region takes class S tags alone. -/
def State.tallyAllowed (s : State) (p cls : Nat) (w : TWord) (op : Nat) : Bool :=
  match w with
  | .mem a => op == opREAD || op == opWAITGE || !(s.inS a 8) || (decide (p < 8) && cls == clsS)
  | .ctr _ _ => decide (p < 8) || op == opREAD || op == opWAITGE || op == opWAITEQ

/-- A tally operation applied at the home of its word (R265 to R276). -/
def State.tally (s : State) (op : Nat) (r : TallyIn) : State :=
  match s.resolve r.part r.tref with
  | none =>
    let s := match s.memRef r.part r.tref with | some a => s.wordRefused r.issuer r.part r.cls op a | none => s
    s.tallyRefuse r.issuer r.part r.cls r.issuer.die 0
  | some w =>
    let s := s.touch w.addr
    if !s.permitted w op r.operand || (decide (opTAKE ≤ op) && !r.issuer.waits) then
      s.tallyRefuse r.issuer r.part r.cls w.die w.addr
    else if !s.tallyAllowed r.part r.cls w op then
      (match w with | .mem a => s.wordRefused r.issuer r.part r.cls op a | .ctr _ _ => s).tallyRefuse r.issuer r.part r.cls w.die w.addr
    else if s.wordBad w then
      ((s.inc (Reg.memPoisonConsumed w.die)).applied w).tallyFail r.issuer r.part r.cls w.addr
    else if op = opREAD then
      let v := s.tword w
      let s := (s.applied w).tallyDone r.issuer (tallyBits v.err v.gen v.value)
      { s with compl := some { data := toLE 8 (tallyBits v.err v.gen v.value) } }
    else if op = opADD then (s.tallyAdd w r.part r.operand).tallyDone r.issuer 0
    else if op = opSUB then (s.tallySub w r.part r.operand).tallyDone r.issuer 0
    else s.tallyWait { issuer := r.issuer, part := r.part, tref := r.tref, word := w, op, operand := r.operand, since := s.time, cls := r.cls }

/-! ### Initialisation (R275, R279) -/

/-- Waits that end without their condition: their queues no longer stalled, host commands ABORTED (R442). -/
def State.dropWaits (s : State) (keep : Wait → Bool) : State :=
  (s.sync.waits.filter fun w => !keep w).foldl (fun s w =>
    let s := { s with sync := { s.sync with waits := s.sync.waits.filter (· != w) } }
    match w.issuer with
    | .dma k => (s.endLoan k).dmaResume k false
    | .hostq fn q => s.hqEnd fn q hsABORTED 0
    | _ => s) s

/-- The partition of a standing monitor. -/
def MonUse.part : MonUse → Nat
  | .flag q _ _ => q
  | .run q _ => q
  | .done q _ => q
  | .int q _ => q

/-- A standing monitor armed from its word's value (R275, R279). -/
def State.armMon (s : State) (m : Mon) : Mon := { m with e := (s.tword m.word).value + m.step, fired := false }

/-- The standing monitors of a partition armed. -/
def State.armMons (s : State) (p : Nat) : State :=
  { s with sync := { s.sync with mons := s.sync.mons.map fun m => if m.use.part = p then s.armMon m else m } }


/-- The declared counters of a partition written with their INIT values, their waits and monitors cleared (R279). -/
def State.initCounters (s : State) (p : Nat) : State :=
  let s := s.dropWaits fun w => match s.ctrOf w.word with | some c => c.part != p | none => true
  ((s.sync.ctrs.filter (·.part == p)).foldl (fun s c => s.setTword (.ctr c.core c.n) { value := c.init }) s).armMons p

end Sys2Proof.Machine
end

