-- ==== Sys2Proof/Machine/Reset.lean ====
section
/-! DEFINITION. Warm reset (R420, R422 and what each chapter clears), partition reset (R421), fall-back decisions (R329, R331),
the end of a steeping, and what closes every command: a fall-back decision taken in it, then the stop-request outputs. -/

namespace Sys2Proof.Machine

/-! ### States of partitions and of the loader (R62) -/

/-- A partition's state changed, with its interrupt (R388). -/
def State.setPSt (s : State) (p : Nat) (x : PSt) : State :=
  if (s.prun p).st = x then s else (s.setPRun p { s.prun p with st := x }).raiseP p 2

/-- The steeping in progress ends with a code that changes nothing in force (R58, R62). -/
def State.endSteep (s : State) (r : Reject) : State :=
  match s.loader.run with
  | none => s
  | some x =>
    let s := { s with loader := { s.loader with run := none, code := r.code, last := x.phase, detail := [r.d0, r.d1, r.d2, r.d3] } }
    let s := (List.range 8).foldl (fun s p =>
      if (s.prun p).st = .steeping then s.setPSt p (PSt.ofCode (x.saved.getD p 0)) else s) s
    s.raise isrcLOADER

/-! ### What DISTRIBUTE writes into the context tables (R102, R197) -/

/-- The lattice contexts of a mechanism, ascending. -/
def PartCfg.latticeCtxs (q : PartCfg) (m : Mech) : List Nat :=
  ((List.range m.ctxCount).map (· + m.ctxFirst)).filter (q.inChain 1 ·)

/-- The steeping fields of a context's start block. -/
def PartCfg.startFields (q : PartCfg) (m : Mech) (x : Nat) : List Byte :=
  let l := q.latticeCtxs m
  if q.inChain 1 x then toLE 1 m.num ++ toLE 1 1 ++ toLE 2 (l.idxOf x) ++ toLE 2 l.length
  else toLE 1 m.num ++ toLE 1 2 ++ toLE 4 0

/-- The start blocks of every context of a partition's mechanisms, their steeping fields written. -/
def State.writeContexts (s : State) (q : PartCfg) : State :=
  q.mechs.foldl (fun s m =>
    ((List.range m.ctxCount).map (· + m.ctxFirst)).foldl (fun s x => s.store (ctxBase x) (q.startFields m x)) s) s

/-! ### Memory that a warm reset clears (R121, R150, R176, R197, R203, R96) -/

/-- A byte that a warm reset clears: in a scratchpad the verdict buffer, the partial lists and the plan table; in a context
table all but A0; in a field store the control word; in the mailbox the retained lists. -/
def warmClears (a : Nat) : Bool :=
  match fwTarget a with
  | 1 => decide (a % 0x100000 < 0x64000) || decide (0xD8000 ≤ a % 0x100000)
  | 2 => decide (stControl ≤ (a - 0x10000000) % 0x2000000) && decide ((a - 0x10000000) % 0x2000000 < stControl + 64)
  | 3 => decide (a % 512 < 0x98) || decide (0xC8 ≤ a % 512)
  | 5 => decide (mailBase + 0x80000 ≤ a) && decide (a < mailBase + 0x84000)
  | _ => false

/-- Every byte of a set of addresses cleared, and the poison of the lines that begin in it. -/
def State.wipe (s : State) (p : Nat → Bool) : State :=
  { s with mem := s.mem.filter fun e => !(p e.1), psn := s.psn.filter fun e => !(p (64 * e.1)) }

/-! ### Fault states left (R375, R387) -/

/-- One event counted against a core (R370, R371): how many its window holds, and whether they make the fault lasting. -/
def State.countOf (s : State) (k kind t : Nat) : State × Nat × Bool :=
  let key := FKey.unit (coreUnit k) 0
  if key.gone s then (s, 0, false) else
  let (f, n, counted) := s.count key kind t
  if counted then
    let lasts := decide ((s.cfg.faults.limits kind).1 ≤ n) && decide (f.phase ≠ .isolate)
    let s := s.setFault f
    (if lasts then s else s.inc Reg.errTransient, n, lasts)
  else (s.inc Reg.errCoalesced, n, false)

/-- The record of what a confirmation finds of one of its cores (R375, R384). -/
def Confirm.rec_ (c : Confirm) (k act count t : Nat) : ErrRec :=
  { kind := ekREPLAY_DISAGREE, act, unit := coreUnit k, cls := clsS, count, time := t, aux := c.epoch % 65536 + coreUnit c.recheck * 65536,
    op := c.candId * 16384 + c.ctx, synd := coreUnit c.source, ref := c.ref }

/-- A core that leaves CONFIRM with one event (R375): recorded as transient, or as lasting where its window holds too many. -/
def State.countCore (s : State) (c : Confirm) (k t : Nat) : State :=
  let key := FKey.unit (coreUnit k) 0
  if key.gone s then s else
  let f := s.faultSt key
  let s := if f.phase = .confirm then s.setFault { f with phase := .watch } else s
  let (s, n, lasts) := s.countOf k ekREPLAY_DISAGREE t
  let (ref, s) := s.record (c.rec_ k (if lasts then 6 else 5) n t)
  if lasts then s.lasting key ref t else s

/-- A core leaves CONFIRM without an event. -/
def State.clearSuspect (s : State) (k : Nat) : State :=
  let f := s.faultSt (.unit (coreUnit k) 0)
  if f.phase = .confirm then s.setFault { f with phase := if f.evs.isEmpty then .healthy else .watch } else s

/-- A confirmation that does not resolve: UNRESOLVED, and each core that disagreed counts one event (R375). -/
def State.unresolved (s : State) (c : Confirm) (t : Nat) : State :=
  let s := (s.inc Reg.errUnresolved).clearSuspect c.source
  (s.countCore c c.replay t).countCore c c.recheck t

/-- Every confirmation in progress ends UNRESOLVED. -/
def State.allUnresolved (s : State) (t : Nat) : State :=
  let cs := s.errs.confs
  cs.foldl (fun s c => s.unresolved c t) { s with errs := { s.errs with confs := [] } }

/-! ### Self-test (R359, R363) -/

/-- The units of a die that are self-tested, enabled and in service (R356). -/
def State.testUnits (s : State) (d : Nat) : List Nat :=
  dieUnits.filter fun p => (decide (64 ≤ p) || s.coreEn (d * 64 + p)) && s.healthy (unitId d p)

/-- Every slice of every healthy unit of a die. -/
def State.allSlices (s : State) (d : Nat) : List (Nat × Nat) := (s.testUnits d).flatMap fun u => (sliceKinds u).map fun k => (u, k)

/-- A slice in progress abandoned: incomplete, and offered again from its beginning. -/
def State.abandonSlice (s : State) (d : Nat) : State :=
  let r := s.rots.getD d {}
  match r.run with
  | none => s
  | some x =>
    let e := (x.unit % 512, x.kind)
    let again := if r.first.contains e ∨ r.pend.contains e ∨ r.asked.contains e then r else { r with pend := e :: r.pend }
    ({ s with rots := listSet s.rots d { again with run := none } } : State).inc Reg.glbStIncomplete

/-- A new interval with every healthy unit pending; LATE stays, as does a slice that runs. -/
def State.newInterval (s : State) (d t : Nat) : State :=
  let r := s.rots.getD d {}
  { s with rots := listSet s.rots d { r with pend := s.allSlices d, start := t } }

/-! ### Engines, cores, field, round -/

/-- An engine stopped with no result and no count; its result registers stay (R176). -/
def EngSt.stop (e : EngSt) : EngSt :=
  { lastRes := e.lastRes, lastMerit := e.lastMerit, lastFrame := e.lastFrame, lastIters := e.lastIters,
    lastPivots := e.lastPivots, lastSeq := e.lastSeq, lastFlags := e.lastFlags, pivot := e.pivot }

/-- The field after a warm reset: EPOCH, the last build's result and the publish time stay (R82, R96). -/
def FldSt.warm (f : FldSt) : FldSt :=
  { epoch := f.epoch, closed := f.closed, pubB := f.pubB, frame := f.frame, result := f.result, resEpoch := f.resEpoch, budget := f.budget,
    fmtErr := f.fmtErr }

/-- A round in progress ends with every mechanism of it CARRIED (R203). -/
def State.carryRound (s : State) : State :=
  if s.round.busy then
    let open_ (m : MRound) : Bool := match m.st with | .pick | .check | .pair | .write => true | _ => false
    let n := (s.round.mechs.filter open_).length
    let ps := ((s.round.mechs.filter open_).map (·.part)).eraseDups
    let r := { s.round with
      busy := false, group := 0,
      mechs := s.round.mechs.map fun (m : MRound) => if open_ m then { m with st := .carried, outcome := 1 } else m }
    ps.foldl (fun s p => s.raiseP p 3) (({ s with round := r } : State).inc Reg.selCarried n)
  else s

/-- Interrupt slot 1 of a partition's sources back to IDLE, with the vector it holds (R400). -/
def State.clearSlot1 (s : State) (p : Nat) : State :=
  (List.range 32).foldl (fun s i =>
    let src := isrcPart p i
    let x := s.ints.slot src 1
    let vs := s.ints.vecs.map fun e => if e.2.svc ∧ e.2.src = src ∧ e.2.slot = 1 then (e.1, { e.2 with svc := false }) else e
    { s with ints := { s.ints with vecs := vs }.setSlot src 1 { x with st := .idle, second := false } }) s

/-! ### Warm reset (R419, R420, R422) -/

/-- The partitions at the assertion of a warm reset: a fall-back decision or its hold leaves those that run to be restarted,
any other source leaves them STOPPED (R420, R421, R422). -/
def State.warmParts (s : State) (cause : Nat) : State :=
  (List.range 8).foldl (fun s p =>
    let x := s.prun p
    let x' := { x with crc := 0#32, runEpoch := none, goals := [], resetting := false, commit := x.commit }
    match x.st with
    | .running =>
      if cause = 2 ∨ cause = 4 then s.setPRun p { x' with restart := true, lastFrame := none, issued := false }
      else (s.setPRun p { x' with restart := false, lastFrame := none, issued := false }).setPSt p .stopped
    | _ =>
      let s := s.setPRun p { x' with restart := false }
      if x.resetting then s.setPSt p .stopped else s) s

/-- What the planner dies hold, cleared (R96, R121, R150, R176, R203, R241, R258, R279). -/
def State.warmClear (s : State) (t : Nat) : State :=
  let s := (s.endRuns 0 (fun _ => true) rrABORT t).endRuns 1 (fun _ => true) rrABORT t
  let s := (List.range 8).foldl State.initCounters s
  let s := (List.range 8).foldl (fun s p => s.abortCopies (1 + p)) s
  let s := s.dropWaits fun w => match w.issuer, w.word with | .hostq 0 _, .mem _ => true | _, _ => false
  let s := { s with cores := s.cores.map fun (c : CoreSt) => { dma := c.dma.free }, engs := s.engs.map EngSt.stop, sched := s.sched.map SchedDie.clearAll,
                    fld := s.fld.warm, dev := { s.dev with bufGen := s.dev.bufGen + 1, bufDef := [] } }
  let s := { s with parts := s.parts.map fun (x : PRun) => { x with plan := false } }
  let s := (List.range 128).foldl (fun s k => (s.wr64 (Reg.swpCoreCandLo k) 0).wr64 (Reg.swpCoreIssueLo k) 0) s
  ({ s with hi := s.hi.clear 0x2000000 0xA000000, lo := s.lo.clear 0x200000 0xA00000 } : State).wipe warmClears

/-- The die-to-die links go down while the planner dies are in reset, which retrains them (R18, R382). -/
def State.linksDown (s : State) : State :=
  if bits (s.rd Reg.glbD2dStatus).toNat 2 0 = 0 then s else (s.wrBits Reg.glbD2dStatus 2 0 0).raise isrcD2D

/-- A warm reset asserted (R420). While one is asserted a further source changes nothing but the hold (R422). -/
def State.warmReset (s : State) (cause t : Nat) (hold : Bool) : State :=
  if s.dev.warm.isSome then { s with dev := { s.dev with hold := s.dev.hold || hold } }
  else
    let s := s.endSteep { code := cABORTED }
    let s := s.carryRound
    let s := s.allUnresolved t
    let s := (s.warmParts cause).warmClear t
    let s := { s with ktl := { s.ktl with doms := s.ktl.doms.map fun (d : Dom) => match d.st with
      | .off | .on => d | .cosy => { d with st := .on, wakes := d.wakes + 1 } | _ => { d with st := .on } } }
    let s := { s with dev := { s.dev with
        warm := some t, warmAt := t, hold, released := false, restart := decide (cause = 2) || s.dev.restart,
        warmCount := min 65535 (s.dev.warmCount + 1), warmCause := cause, trained := [false, false],
        ready := s.dev.ready / 2 ^ 32 * 2 ^ 32, failed := s.dev.failed / 2 ^ 32 * 2 ^ 32 } }
    let s := ((s.abandonSlice 0).abandonSlice 1).linksDown
    let s := (s.newInterval 0 t).newInterval 1 t
    s.trigger 6 t s.mechNums

/-! ### Partition reset (R421) -/

/-- The work of one partition reset: its slots, scheduling state, counters, array runs, interrupt slots and GLB registers. -/
def State.clearPart (s : State) (p t : Nat) : State :=
  let mine (k : Nat) : Bool := (s.pcfg p).cores.contains k
  let twin (d : Nat) (r : ARun) : Bool := r.part == p && d < 2
  let s := (s.endRuns 0 (twin 0) rrABORT t).endRuns 1 (twin 1) rrABORT t
  let s := s.dropWaits fun w => w.part != p
  let s := (s.initCounters p).abortCopies (1 + p)
  let s := { s with cores := s.cores.zipIdx.map fun (e : CoreSt × Nat) => if mine e.2 then { cache := e.1.cache, strain := e.1.strain, boxes := e.1.boxes, ops := e.1.ops, dma := e.1.dma.free } else e.1,
                    engs := s.engs.map fun (e : EngSt) => if e.busy ∧ e.part = p then e.stop else e,
                    sched := s.sched.map fun (d : SchedDie) => d.clearPart p }
  let s := s.clearSlot1 p
  let s := { s with round := { s.round with mechs := s.round.mechs.map fun (x : MRound) =>
    if s.round.busy && x.part == p && (decide (x.st = CSt.pick) || decide (x.st = CSt.check) || decide (x.st = CSt.pair))
    then { x with st := .carried, outcome := 1, rec_ := none } else x } }
  s.setPRun p { s.prun p with crc := 0#32, runEpoch := none, resetting := true }

/-! ### Fall-back decisions (R329, R331) -/

/-- How many decisions fall in one counting window that the last of them closes (R14). -/
def fallCount (l : List Nat) (w t : Nat) : Nat := (l.filter fun x => decide (t < x + w)).length

/-- A fall-back decision with its stamp: the dies are held where AUTO is clear or the count reaches RESTART_MAX, else they
restart (R331). The warm reset is asserted 1 µs after the trigger (R329). -/
def State.fallBack (s : State) (t : Nat) : State :=
  let g := s.sglob
  let falls := t :: s.warden.falls.filter fun x => decide (t < x + g.rWin * 1000000000)
  let hold := !g.auto || decide (g.rMax ≤ fallCount falls (g.rWin * 1000000000) t)
  let s := { s with warden := { s.warden with falls } }
  let s := match s.warden.state with
    | .locked | .channelFail | .held => s
    | _ => s.setWState (if hold then .held else .fallback)
  s.warmReset (if hold then 4 else 2) (t + 1000) hold

/-! ### Routes to other packages (R477, R479) -/

/-- Some partition reads RUNNING. -/
def State.somePart (s : State) : Bool := s.parts.any fun (x : PRun) => decide (x.st = .running)

/-- The routes of the package rebuilt from the links that carry traffic and the links known beyond them (R477). A changed route waits
while a request sent there is unanswered; one to a package no longer reachable goes at once (R479, R483). -/
def Links.reroute (l : Links) (me : Nat) : Links :=
  let mine := (l.ports.filter fun (p : CPort) => p.live && p.carries).map fun (p : CPort) => (me, p.peerPkg)
  let new := routesOf (mine ++ l.edges) me l.ports
  let wait (e : Option CRoute × Nat) : Bool := e.1.isSome && e.1 != l.routes.getD e.2 none && l.sentTo e.2
  { l with routes := new.zipIdx.map fun (e : Option CRoute × Nat) => if wait e then l.routes.getD e.2 none else e.1
           turning := (new.zipIdx.filter wait).map fun (e : Option CRoute × Nat) => (e.2, e.1) }

/-- Links that came up while a partition was RUNNING carry traffic once none is (R479). -/
def State.relink (s : State) : State :=
  if (s.links.ports.any fun (p : CPort) => p.live && !p.carries) && !s.somePart then
    { s with links := { s.links with ports := s.links.ports.map fun (p : CPort) => { p with carries := p.live } }.reroute s.dev.pkgSel }
  else s

/-- What closes every command: a fall-back decision that it has taken, the idle times of domains that may sleep (R404), links that
may now carry traffic (R479), then the stop-request outputs (R338). -/
def State.finish (s : State) : State :=
  (match s.dev.fall with
   | some t => { s with dev := { s.dev with fall := none } }.fallBack t
   | none => s).touchIdle.relink.settle

/-- A command's answer: its state, finished. -/
def State.done (s : State) : Host.Outcome State Fault Refusal := .next s.finish

end Sys2Proof.Machine
end

