-- ==== Sys2Proof/Machine/Access.lean ====
section
/-! DEFINITION. Which PCIe function reaches which register (R507 and what each block states), readiness (R426), and the
completion of an access. -/

namespace Sys2Proof.Machine

/-! ### Readiness of a register -/

/-- The readiness bit of the function that a register belongs to; none for the global block. -/
def readyOf (off : Nat) : Option Nat :=
  if off < 0x100000 then none
  else if off < 0x200000 then
    if 0x10A000 ≤ off ∧ off < 0x10D000 then some rbPCIE
    else if 0x10F000 ≤ off ∧ off < 0x10F400 then some (rbLINK + (off - 0x10F000) / 0x100)
    else some rbWARDEN
  else
    let d := (off - 0x200000) / 0x400000 % 2
    let r := (off - 0x200000) % 0x400000
    if r < 0x200000 then some (d * 8 + r / 0x40000)
    else if 0x208000 ≤ r ∧ r < 0x209000 then some (rbARRAY + d) else some (rbDIE + d)

/-- A register's function is ready, and its core or cluster is enabled (R426, R491). -/
def State.regThere (s : State) (off : Nat) : Bool :=
  (match readyOf off with | none => true | some b => s.readyBit b) &&
  (match Reg.inCore off with | some (k, _) => s.coreEn k | none => true) &&
  (match Reg.inCluster off with | some (g, _) => (List.range 8).any fun i => s.coreEn (8 * g + i) | none => true)

/-! ### Reach (R507) -/

/-- The offset lies in [lo, hi). -/
def within (off lo hi : Nat) : Bool := decide (lo ≤ off) && decide (off < hi)

/-- The vector's owner: the partition that claims it, none for the physical function (R390). -/
def State.vecFn (s : State) (v : Nat) : Option Nat := if (s.ints.vec v).bound then some (s.ints.vec v).func else none

/-- Virtual function p reads the register at an offset (R396, R433, and each block's statement; a block that states nothing is
read by every function). -/
def State.vfReads (s : State) (p off : Nat) : Bool :=
  if off < 0x100000 then
    !(within off 0x80 0x100) || off == Reg.glbCommitCrc p || off == Reg.glbRunEpoch p
  else if off < 0x200000 then
    if within off 0x100000 0x104000 then off != Reg.wdnCmd
    else if within off 0x104000 0x105000 then false
    else if within off 0x105000 0x105040 then decide ((off - 0x105000) / 8 = p)
    else if within off 0x107000 0x108000 then off != Reg.errCmd && off != Reg.errUnitSel
    else if within off 0x108000 0x109000 then
      off == Reg.intSwSetP p || within off (Reg.intSrcState (32 + 32 * p)) (Reg.intSrcState (64 + 32 * p))
    else if within off 0x10A000 0x10D000 then within off (0x10A000 + 0x400 * (p + 1)) (0x10A400 + 0x400 * (p + 1))
    else if within off 0x10E060 0x10E0A0 then false
    else if within off 0x114000 0x116000 then s.vecFn ((off - 0x114000) / 4) == some (p + 1)
    else true
  else
    let r := (off - 0x200000) % 0x400000
    if within r 0x209000 0x20A000 then r == 0x209030 || r == 0x209034 || r == 0x209040 + 4 * p
    else if within r 0x20A040 0x20A0C0 then decide ((r - 0x20A040) / 0x10 = p)
    else true

/-- Virtual function p writes the register at an offset. -/
def State.vfWrites (s : State) (p off : Nat) : Bool :=
  s.vfReads p off &&
  (if off < 0x100000 then off == Reg.glbResetCmd
   else if off < 0x200000 then
     within off 0x105000 0x105040 || within off 0x108000 0x109000 || within off 0x10A000 0x10D000 || within off 0x114000 0x116000
   else
     let r := (off - 0x200000) % 0x400000
     r == 0x209030 || r == 0x209034 || within r 0x20A040 0x20A0C0)

/-- An access that ends with an unsupported-request status (R7, R507): not 32 bits wide, not aligned, or not reached. DESIGN CHOICE (log
entry 193): BAR4 past the MSI-X table and the PBA, from offset 0x8100 on, is no register and is not reached. -/
def State.unsupported (s : State) (a : RegAcc) (write : Bool) : Bool :=
  a.width != 4 || a.off % 4 != 0 || decide (9 ≤ a.fn) ||
  (match a.bar with
   | .bar0 => a.fn != 0 && !(if write then s.vfWrites (a.fn - 1) a.off else s.vfReads (a.fn - 1) a.off)
   | .bar4 => decide (0x8100 ≤ a.off))

/-! ### Completion -/

/-- The access completes with an unsupported-request status and changes nothing. -/
def State.urEnd (s : State) : State := { s with compl := some { ur := true } }

/-- A write that completes normally. -/
def State.writeEnd (s : State) : State := { s with compl := some {} }

/-- A read that completes with a value. -/
def State.readEnd (s : State) (v : Word) : State := { s with compl := some { data := toLE 4 v.toNat } }

/-- The endpoint takes accesses: out of cold reset, its readiness bit set (R426). -/
def State.pcieUp (s : State) : Bool := s.readyBit rbPCIE

/-- What a register write with a step of its own does around that step: nothing before the endpoint is ready, an
unsupported-request status where the function does not write the register, nothing where its block is not ready, and else the
step itself. -/
def State.onWrite (s : State) (a : RegAcc) (t : Nat) (f : State → State) : State :=
  let s := s.at t
  if !s.pcieUp then s
  else if s.unsupported a true then s.urEnd
  else if !s.regThere a.off then s.writeEnd
  else (f s).writeEnd

end Sys2Proof.Machine
end

