-- ==== Sys2Proof/Machine/SchedFam.lean ====
section
/-! DEFINITION. The scheduler's commands (10_task_scheduling.md): the flag register, the delay list, the dispatch decision, the
completion of items, and a trace record dropped. -/

namespace Sys2Proof.Machine

/-! ### The time partition in force (R352) -/

/-- The window of the master frame in force, with its index; none while the master is not RUNNING. -/
def State.window (s : State) : Option (Nat × TWin) :=
  s.master.bind fun p =>
    if s.running p && decide ((s.prun p).t0 ≤ s.time) && s.period p != 0
    then s.cfg.time.window ((s.time - (s.prun p).t0) % s.period p / 1000) else none

/-- The time partition in force admits a class: S always, every class while the master is not RUNNING. -/
def State.admits (s : State) (cls : Nat) : Bool :=
  cls == clsS || (match s.window with | none => true | some (_, w) => bit w.admits cls)

/-! ### Event flags (R244, R262) -/

/-- The SCH_FLAG_SET fields that are read back. -/
def flagSetMask : Word := 0x73FF001F#32

/-- SCH_FLAG_SET of a die written (R244, R262): a task's event flag set, or the write rejected and counted. A value of 24 or above
changes nothing. -/
def State.flagWrite (s : State) (a : RegAcc) (v : Nat) : State :=
  let d := (a.off - 0x200000) / 0x400000 % 2
  let p := bits v 30 28
  let task := bits v 25 16
  let flag := bits v 4 0
  if (a.fn ≠ 0 ∧ a.fn ≠ p + 1) ∨ (s.task? d p task).isNone then s.inc (Reg.schFlagReject d)
  else
    let s := s.wr a.off (BitVec.ofNat 32 v &&& flagSetMask)
    if flag < 24 then s.setFlag p task flag else s

/-- SCH_FLAG_SET (R244, R262): a write of the register by a function. -/
def execSchFlagSet (a : RegAcc) (v t : Nat) (s : State) : Host.Outcome State Fault Refusal :=
  (if a.bar = Bar.bar0 ∧ Reg.amongDie a.off (Reg.schFlagSet 0) 1 4 then s.onWrite a t fun s => s.flagWrite a v else s).done

/-! ### The delay list (R247) -/

/-- The order of the delay list: due time, partition, task number. -/
def dueBefore (a b : TaskSt) : Bool :=
  match a.due, b.due with
  | some x, some y => decide (x < y) || (x == y && (decide (a.part < b.part) || (a.part == b.part && decide (a.task < b.task))))
  | _, _ => false

/-- DUE (R247): the first entry of a die's delay list falls due: its DUE flag is set. -/
def execDue (die p task : Nat) (s : State) : Host.Outcome State Fault Refusal :=
  (match s.task? die p task with
   | none => s
   | some x =>
     match x.due with
     | none => s
     | some at_ =>
       if (s.sch die).tasks.any (dueBefore · x) then s
       else
         let s := s.at at_
         let i := match (s.pcfg p).task task with
           | some r => taskItem p r (match (s.sch die).group p r.grp with | some g => g.cls | none => 0) x.seq
           | none => { part := p, task }
         let s := s.trace die 0x05 0xFF i 0
         (s.setTask die { x with due := none }).setFlag p task 31).done

/-! ### Dispatch (R249 to R254) -/

/-- Core k withholds its dispatch slot: no FREE in-flight slot (R250). -/
def CoreSt.withheld (c : CoreSt) : Bool := decide (512 ≤ c.slots.length)

/-- Core k takes work of an item's kind: ordinary work in service; in CONFIRM the work of commit tries and hand-off work; the
suspect the REPEAT (R242, R243, R372, R375). -/
def State.takesKind (s : State) (k kind : Nat) : Bool :=
  s.coreOk k || (s.coreEn k && decide (s.phase (coreUnit k) = .confirm) && (kind == ikREPLAY || kind == ikRECHECK || kind == ikHANDOFF))
  || (kind == ikREPEAT && s.coreEn k && !s.isRetired (coreUnit k))

/-- Core k may take an item of the commit queue. -/
def State.takes (s : State) (k : Nat) (i : Item) : Bool := bit i.aff (k % 64) && s.takesKind k i.kind

/-- The commit-queue item that core k of partition p takes first. -/
def State.commitFor (s : State) (d p k : Nat) : Option Item := (s.sch d).commitQ.find? fun i => i.part == p && s.takes k i

/-- Core k of a partition can accept an item (R250, R252). -/
def State.accepts (s : State) (d p k : Nat) : Bool :=
  !(s.core k).withheld && !(s.sch d).idle.contains k &&
  ((s.coreOk k && decide (((s.sch d).slots.getD (k % 64) []).length < 2)) || (s.commitFor d p k).isSome)

/-- Partition p has work on a die: a queued item of a group or of the commit queue. -/
def State.hasWork (s : State) (d p : Nat) : Bool :=
  ((s.sch d).groups.any fun g => g.part == p && !g.items.isEmpty) || (s.sch d).commitQ.any (·.part == p)

/-- The partition whose turn it is and the core the decision is made for (R252). -/
def State.nextCore (s : State) (d : Nat) : Option (Nat × Nat) :=
  ((List.range 8).map fun i => ((s.sch d).rr + 1 + i) % 8).findSome? fun p =>
    if s.hasWork d p then
      (minOn (fun k => ((s.sch d).slots.getD (k % 64) []).length) (((s.pcfg p).coresOn d).filter (s.accepts d p))).map fun k => (p, k)
    else none

/-- Core k's dispatch slot set with a new item in it; a core in Cosy starts to wake (R404). -/
def State.putSlot (s : State) (d k : Nat) (l : List Item) : State :=
  let s := s.touch (padBase k)
  s.setSch d { s.sch d with slots := listSet (s.sch d).slots (k % 64) l }

/-- A commit-queue item taken by core k: at the head of its slot, a third entry displaced (R252). -/
def State.dispatchCommit (s : State) (d k : Nat) (i : Item) : State :=
  let x := s.sch d
  let s := s.setSch d { x with commitQ := x.commitQ.erase i }
  let l := i :: x.slots.getD (k % 64) []
  let s := (s.putSlot d k (l.take 2)).trace d 0x09 k i i.seq
  match l.drop 2 with
  | [] => s
  | y :: _ =>
    let z := s.sch d
    let s := s.setSch d (if y.grp = 0xFF then { z with commitQ := y :: z.commitQ } else z.giveBack y)
    (s.inc (Reg.schDisplace d)).trace d 0x03 k y y.seq

/-- A flow of a partition is in service on either die (R249). -/
def State.flowBusy (s : State) (p f : Nat) : Bool := s.sched.any fun d => d.flowBusy p f

/-- An item of the flow released before waits in a queue or is held: items of one flow are dispatched in release order (R249). -/
def State.flowWaits (s : State) (i : Item) : Bool :=
  let before (j : Item) : Bool := j.part == i.part && j.flow == i.flow && decide (j.at_ < i.at_)
  i.flow != 0 && s.sched.any fun d => (d.groups.any fun g => g.items.any before) || d.tasks.any fun t => t.backlog.any before

/-- Core k may take a group's item: its affinity set and its flow allow it (R249, R253). -/
def State.eligible (s : State) (k : Nat) (i : Item) : Bool := bit i.aff (k % 64) && !s.flowBusy i.part i.flow && !s.flowWaits i

/-- The decision for core k among the groups of partition p: the classes in turn, as the time partition admits them (R252); a LATE
core takes class S alone (R361). -/
def State.choose (s : State) (d p k : Nat) : Option Item × SchedDie :=
  let legacy := match (s.pcfg p).sched with | some c => c.legacy | none => false
  let step (r : Option Item × SchedDie) (c : Nat) : Option Item × SchedDie :=
    match r.1 with
    | some _ => r
    | none =>
      if s.admits c && (c == clsS || !(s.rots.getD d {}).late.contains (k % 64)) then decideClass legacy (s.eligible k) p c r.2 else r
  [clsS, clsQ, clsN].foldl step (none, s.sch d)

/-- One decision of a die's scheduler (R252). -/
def State.dispatchOne (s : State) (d p k : Nat) : State :=
  match s.commitFor d p k with
  | some i =>
    let s := (s.dispatchCommit d k i).add64 (Reg.schDispatchLo d) 1
    s.setSch d { s.sch d with rr := p }
  | none =>
    let (r, x) := s.choose d p k
    match r with
    | some i =>
      let s := (s.setSch d { x with rr := p }).putSlot d k (x.slots.getD (k % 64) [] ++ [i])
      ((s.add64 (Reg.schDispatchLo d) 1).trace d 0x02 k i i.seq).resume d
    | none => s.setSch d { x with rr := p, idle := k :: x.idle }

/-- DISPATCH (R252 to R254): the decision for the core whose turn it is. -/
def execDispatch (die core t : Nat) (s : State) : Host.Outcome State Fault Refusal :=
  let s := s.at t
  (if s.pdUp die ∧ (s.nextCore die).any (·.2 == core) then
     match s.nextCore die with
     | some (p, k) => s.dispatchOne die p k
     | none => s
   else s).done

/-! ### Completion (R245, R249) -/

/-- The work of an item in service on core k is complete. -/
def State.itemDone (s : State) (k : Nat) (i : Item) : Bool :=
  if i.kind = tkDMA ∨ i.kind = tkHOST then !((s.core k).dma.item == some i)
  else if i.kind = tkSELFTEST then !((s.rots.getD (k / 64) {}).asked.contains (k % 64, i.arg))
  else if i.kind = tkLATTICE then
    let same (j : Item) : Bool := j.part == i.part && j.task == i.task && j.seq == i.seq
    !((s.cores.any fun c => c.slots.any fun x => same x.item && decide (x.ph ≠ .done))
      || (s.sched.any fun x => x.commitQ.any same || x.slots.any (·.any same)))
  else true

/-- The buffer of an INGEST item leaves service (R465). -/
def State.ingestDone (s : State) (i : Item) : State :=
  if i.kind = tkINGEST then
    { s with fif := { s.fif with chans := s.fif.chans.map fun c =>
        if c.part = i.part ∧ c.cfg.task = i.task then { c with service := c.service.erase i.arg } else c } }
  else s

/-- ITEM_COMPLETE (R245, R249): the first item in service on the core whose work is complete leaves service, which frees its
flow and sets its task's completion target. -/
def execItemComplete (die core t : Nat) (s : State) : Host.Outcome State Fault Refusal :=
  let s := s.at t
  let x := s.sch die
  (match x.busy.find? fun (e : Nat × Item) => e.1 == core && s.itemDone core e.2 with
   | none => s
   | some e =>
     let s := { s.setSch die { x with busy := x.busy.erase e } with sched := (listSet s.sched die { x with busy := x.busy.erase e }).map fun (y : SchedDie) => { y with idle := [] } }.ingestDone e.2
     match (s.pcfg e.2.part).task e.2.task with
     | none => s
     | some r =>
       match r.target with
       | some (u, f) => if f < 24 ∧ u ≠ e.2.task then s.setFlag e.2.part u f else s
       | none => s).done

/-! ### Trace (R261) -/

/-- TRACE_DROP (R261): the record of a partition on a die that has waited 1 µs is dropped and counted. -/
def execTraceDrop (die p t : Nat) (s : State) : Host.Outcome State Fault Refusal :=
  let s := s.at t
  let due (r : TraceRec) : Bool := r.die == some die && r.part == p && decide (r.t + 1000 ≤ s.time)
  (match s.traceQ.find? due with
   | none => s
   | some r => ({ s with traceQ := s.traceQ.erase r } : State).inc (Reg.schTraceDrop die)).done

end Sys2Proof.Machine
end

