-- ==== Sys2Proof/Machine/DmaFam.lean ====
section
/-! DEFINITION. The DMA engines (12_memory.md): descriptor chains, block repeats, and the failure of an item. -/

namespace Sys2Proof.Machine

/-- The DMA operations of R291. -/
def dmEND := 0
/-- COPY. -/
def dmCOPY := 1
/-- FILL. -/
def dmFILL := 2
/-- TALLY. -/
def dmTALLY := 3
/-- LINK. -/
def dmLINK := 4

/-- A descriptor. -/
structure DmaDesc where
  op     : Nat
  check  : Bool
  len    : Nat
  src    : Nat
  dst    : Nat
  expect : Nat
  bytes  : List Byte
  deriving DecidableEq, Repr

/-- 32 bytes as a descriptor. -/
def decDma (b : List Byte) : DmaDesc :=
  { op := leAt b 0 1, check := bit (leAt b 1 1) 0, len := leAt b 4 4, src := leAt b 8 8, dst := leAt b 0x10 8,
    expect := leAt b 0x18 4, bytes := b }

/-- The TREF, OPERAND and OP of a tally command (R265). -/
def tallyCmd (b : List Byte) : Nat × Nat × Nat := (leAt b 0 8, leAt b 8 7, leAt b 15 1)

/-- Every field of a descriptor is well formed (R291). -/
def DmaDesc.ok (d : DmaDesc) : Bool :=
  decide (d.op ≤ 4) &&
  (if d.op = dmTALLY then zerosAt d.bytes 1 15 && decide (1 ≤ (tallyCmd (d.bytes.drop 16)).2.2) && decide ((tallyCmd (d.bytes.drop 16)).2.2 ≤ 7)
   else zerosAt d.bytes 2 2 && zerosAt d.bytes 0x1C 4 && decide ((d.bytes.getD 1 0#8).toNat ≤ 1)) &&
  (if d.op = dmCOPY ∨ d.op = dmFILL then
     d.len % 64 == 0 && decide (64 ≤ d.len) && decide (d.len ≤ 0x40000000) && d.dst % 64 == 0 && (d.op == dmFILL || d.src % 64 == 0)
   else d.op != dmLINK || d.src % 32 == 0)

/-- The origin tag of core k working for partition p (R348). -/
def coreTag (p cls k : Nat) : Nat := originTag cls 0 p (k / 64) (k % 64)

/-- Who a DMA engine's requests are for. -/
def dmaWho (k : Nat) (i : Item) : Who := .part i.part i.cls (k / 64)

/-- The item of core k's engine fails: an error record, the choice counter where poison, a CRC error or a tally error is the
cause, and the item leaves service (R292, R295, R297, R308). -/
def State.dmaFail (s : State) (k : Nat) (counts : Bool) : State :=
  let i := s.dmaItem k
  let s := s.log { kind := ekDMA_FAIL, act := actOf ekDMA_FAIL, tag := coreTag i.part i.cls k, unit := coreUnit k, cls := i.cls,
                   time := s.time, op := i.seq, addr := (s.core k).dma.desc }
  let s := if counts then s.tdc i.part (s.frameAt i.part s.time) 7 else s
  s.dmaDrop k

/-- A chain may lie at an address: the general region of the core's own scratchpad, or the partition's HBM units. -/
def State.chainAt (s : State) (k p a : Nat) : Bool :=
  a % 32 == 0 && ((decide (padBase k + 0x64000 ≤ a) && decide (a + 32 ≤ padBase k + 0xD0000)) || (s.pcfg p).inUnits a 32)

/-- What core k's engine meets at its descriptor. -/
inductive DmaMeet
  | none                  -- no chain, or the engine waits
  | bad (poison refused : Bool)
  | desc (d : DmaDesc)
  deriving DecidableEq, Repr

/-- The descriptor that core k's engine meets; a chain that passes 65,536 descriptors, a descriptor that is poisoned, refused or
malformed fails the item. -/
def State.dmaMeet (s : State) (k : Nat) : DmaMeet :=
  let m := (s.core k).dma
  match m.item with
  | none => .none
  | some i =>
    if m.wait || !m.retry.isEmpty || i.kind == tkHOST then .none
    else if 65536 ≤ m.passed ∨ !s.chainAt k i.part m.desc then .bad false (!s.fwOk (dmaWho k i) false m.desc 32)
    else if s.poisoned m.desc 32 then .bad true false
    else
      let d := decDma (s.peek m.desc 32)
      if d.ok then .desc d else .bad false false

/-- One descriptor of kind `op` run by `f`; another kind of descriptor at the engine's head leaves the state unchanged. -/
def State.dmaRun (s : State) (k op : Nat) (f : State → DmaDesc → State) : State :=
  if !s.coreUp k then s else
  match s.dmaMeet k with
  | .none => s
  | .bad poison refused =>
    let i := s.dmaItem k
    let s := if poison then s.inc (Reg.memPoisonConsumed (k / 64)) else s
    let s := if refused then s.refuse (coreTag i.part i.cls k) (s.core k).dma.desc false else s
    s.dmaFail k poison
  | .desc d => if d.op = op then f (s.touch (s.core k).dma.desc 32) d else s

/-- Core k's engine goes on to the next descriptor in order, having written in a package or in this one. -/
def State.dmaNext (s : State) (k : Nat) (wrote : List (Option Nat) := []) : State :=
  let c := s.core k
  s.setCore k { c with dma := { c.dma.next (c.dma.desc + 32) with wrote := wrote ++ c.dma.wrote } }

/-- END (R292): the chain ends and the engine is free; the item's work is complete. -/
def execEnd (core t : Nat) (s : State) : Host.Outcome State Fault Refusal :=
  let s := s.at t
  (s.dmaRun core dmEND fun s _ => s.setCore core { s.core core with dma := (s.core core).dma.free }).done

/-- A COPY to an address whose blocks have all been settled ends: the item fails or the chain goes on. -/
def State.copyEnd (s : State) (k dst : Nat) : State :=
  let m := (s.core k).dma
  if !m.retry.isEmpty then s else if m.fail then s.dmaFail k true else s.dmaNext k [s.farPkg dst]

/-! ### Reads of a field store (R80, R85) -/

/-- The store of cluster g can take part: its unit in service, its domain ON. -/
def State.storeUp (s : State) (g : Nat) : Bool :=
  s.pdUp (g / 8) && s.healthy (unitId (g / 8) (96 + g % 8)) && decide ((s.dom (domStore g)).st = .on)

/-- The run state of a store. -/
def State.fstore (s : State) (g : Nat) : StoreSt := s.fld.stores.getD g {}

/-- The field store of cluster g serves the epoch in force. -/
def State.storeOpen (s : State) (g : Nat) : Bool := s.fld.valid && !s.fld.closed && s.storeUp g && !(s.fstore g).excluded

/-- Core k's field store serves the epoch in force. -/
def State.storeServes (s : State) (k : Nat) : Bool := s.storeOpen (k / 8)

/-- The field store that an address lies in. -/
def storeAt (a : Nat) : Option Nat :=
  if fwTarget a = 2 then some (a / 0x100000000 % 2 * 8 + (a % 0x100000000 - 0x10000000) / 0x2000000) else none

/-- A read of a field store for an item returns STALE (R85): the item's EPOCH is not the control word's, or the store does not serve. -/
def State.storeStale (s : State) (i : Item) (a : Nat) : Option Nat :=
  (storeAt a).filter fun g => i.epoch != s.fld.epoch || !s.storeOpen g

/-! ### Ends in another package (R32, R271, R483) -/

/-- The other packages that a descriptor's ends lie in. -/
def State.farOf (s : State) (as : List Nat) : List Nat := (as.filterMap s.farPkg).eraseDups

/-- The requests of core k's engine to other packages made (R474, R480). -/
def State.farSend (s : State) (k n : Nat) (write : Bool) (pkgs : List Nat) : State :=
  let i := s.dmaItem k
  let s := pkgs.foldl (fun (s : State) d => s.request d (k / 64 + k % 64) i.part i.cls n write (some k) none) (s.farDrop k)
  let c := s.core k
  s.setCore k { c with dma := { c.dma with far := true } }

/-- Core k's outstanding requests have left their source, and an answer comes within 100 µs. -/
def State.farInTime (s : State) (k : Nat) : Bool := s.links.reqs.all fun (r : CReq) => r.core != some k || r.inTime s.time

/-- The item of core k fails at a request to another package (R483): a tally command under R268, a COPY or FILL under R292. -/
def State.farEnd (s : State) (k : Nat) : State :=
  let i := s.dmaItem k
  let d := decDma (s.peek (s.core k).dma.desc 32)
  if d.op = dmTALLY then s.tallyFail (.dma k) i.part i.cls (tallyCmd (d.bytes.drop 16)).1 else s.dmaFail k false

/-- A descriptor with ends in other packages at what has come back: unreachable, it fails at once; with no answer its request is
sent and outstanding; a refusal or a failure ends the item, `bad` first marking what a failed read returns; `good` goes on with
the bytes read. -/
def State.dmaFar (s : State) (k n : Nat) (write : Bool) (pkgs : List Nat) (far : FarIn) (bad : State → State)
    (good : State → List Byte → List Nat → State) : State :=
  let sent := (s.core k).dma.far
  if !pkgs.all s.reaches then (bad s.farLost).farEnd k
  else
    let s := if sent then s else s.farSend k n write pkgs
    if !s.farInTime k then s
    else
      match far with
      | .waiting => s
      | .refused =>
        let i := s.dmaItem k
        ((bad (s.farDrop k)).log { kind := ekFW_REFUSED, tag := coreTag i.part i.cls k, time := s.time }).farEnd k
      | .failed => (bad (s.farDrop k)).dmaFail k true
      | .answer data lines => good (s.farDrop k) data lines

/-- Bytes read from another package written here, their poisoned lines with them. -/
def State.moveFar (s : State) (dst : Nat) (data : List Byte) (bad : List Nat) : State :=
  let s := (s.defBuf dst data.length).poke dst data
  { s with psn := (List.range (data.length / 64)).foldl (fun t i => t.set false (dst / 64 + i) (bad.contains i)) s.psn }

/-- One block of a COPY settled at its destination: offset and length. -/
def State.copyBlock (s : State) (k src dst o n : Nat) : State :=
  if (s.farPkg dst).isSome then s
  else if (s.farPkg src).isSome then
    let m := (s.core k).dma
    s.moveFar (dst + o) (slice m.got o n) ((m.gotBad.filter fun l => decide (o / 64 ≤ l)).map (· - o / 64))
  else s.move (src + o) (dst + o) n

/-- The blocks of a COPY settled but for those that await their repeat, with CHECK's comparison of the bytes read. -/
def State.copyRun (s : State) (k : Nat) (d : DmaDesc) (src dst : Nat) (data : List Byte) (poison : Bool) (bad : List Nat) : State :=
  let wrong := d.check && (poison || (crc32c data).toNat != d.expect)
  let bs := blocksOf dst d.len
  let retry := if (s.farPkg dst).isSome then [] else bad.filter (decide <| · < bs.length)
  let s := bs.zipIdx.foldl (fun s e => if retry.contains e.2 then s else s.copyBlock k src dst e.1.1 e.1.2) s
  let s := s.add64 (Reg.memDmaBytesLo k) d.len
  let s := if d.check && poison then s.inc (Reg.memPoisonConsumed (if farBase ≤ src then k / 64 else memDie src)) else s
  let c := s.core k
  (s.setCore k { c with dma := { c.dma with retry := retry.eraseDups, fail := wrong } }).copyEnd k dst

/-- COPY (R288, R291 to R297): the blocks that match at their destination stand; those in `bad` await their repeat. With CHECK
the bytes read are compared with EXPECT. A COPY whose read of a field store returns STALE has no data and fails its item, counted once
(R85; DESIGN CHOICE, log entry 188). -/
def State.dmaCopy (s : State) (k : Nat) (d : DmaDesc) (bad : List Nat) (far : FarIn) : State :=
  let i := s.dmaItem k
  let w := dmaWho k i
  let src := s.near d.src
  let dst := s.near d.dst
  let farS := (s.farPkg src).isSome
  let farD := (s.farPkg dst).isSome
  if !farS && !s.fwOk w false src d.len then (s.refuse (coreTag i.part i.cls k) src false).dmaFail k false
  else if !farD && !s.fwOk w true dst d.len then (s.refuse (coreTag i.part i.cls k) dst true).dmaFail k false
  else if overlap src d.len dst d.len then s.dmaFail k false
  else if let some g := (if farS then none else s.storeStale i src) then (s.inc (Reg.fldStaleCount (g / 8) (g % 8))).dmaFail k false
  else
    let s := if farS then s else (s.touch src d.len).settleBuf src d.len
    let s := if farD then s else s.touch dst d.len
    if farS || farD then
      s.dmaFar k d.len farD (s.farOf [src, dst]) far (fun s => if farD then s else s.spoil dst d.len) fun s data lines =>
        let data := if farS then data else s.peek src d.len
        if data.length = d.len then
          let c := s.core k
          let s := s.setCore k { c with dma := { c.dma with got := data, gotBad := lines, far := false } }
          s.copyRun k d src dst data (if farS then !lines.isEmpty else s.poisoned src d.len) bad
        else s
    else s.copyRun k d src dst (s.peek src d.len) (s.poisoned src d.len) bad

/-- COPY. -/
def execCopy (core : Nat) (bad : List Nat) (far : FarIn) (t : Nat) (s : State) : Host.Outcome State Fault Refusal :=
  let s := s.at t
  (s.dmaRun core dmCOPY fun s d => s.dmaCopy core d bad far).done

/-- FILL of core k (R291): the pattern over LEN bytes. -/
def State.dmaFill (s : State) (k : Nat) (d : DmaDesc) (far : FarIn) : State :=
  let i := s.dmaItem k
  let dst := s.near d.dst
  let sum (s : State) : State := (s.add64 (Reg.memDmaBytesLo k) d.len).dmaNext k [s.farPkg dst]
  if (s.farPkg dst).isSome then s.dmaFar k d.len true (s.farOf [dst]) far id fun s _ _ =>
    let c := s.core k
    sum (s.setCore k { c with dma := { c.dma with far := false } })
  else if !s.fwOk (dmaWho k i) true dst d.len then (s.refuse (coreTag i.part i.cls k) dst true).dmaFail k false
  else sum (((s.touch dst d.len).defBuf dst d.len).store dst (List.replicate (d.len / 8) (toLE 8 d.src)).flatten)

/-- FILL. -/
def execFill (core : Nat) (far : FarIn) (t : Nat) (s : State) : Host.Outcome State Fault Refusal :=
  let s := s.at t
  (s.dmaRun core dmFILL fun s d => s.dmaFill core d far).done

/-- The tally command of core k's descriptor issued (R265, R271, R274); a wait stalls the engine. In another package a word takes
ADD and READ alone. -/
def State.dmaTally (s : State) (k : Nat) (d : DmaDesc) (far : FarIn) : State :=
  let (tref, operand, op) := tallyCmd (d.bytes.drop 16)
  let i := s.dmaItem k
  let pkgs := if tref < farBase * 2 then s.farOf [tref] else []
  if !pkgs.isEmpty ∧ (op = opREAD ∨ (op = opADD ∧ 1 ≤ operand ∧ operand < 2 ^ 32)) then
    let s := if op = opADD ∧ !(s.core k).dma.far ∧ pkgs.all s.reaches then s.setCore k { s.core k with dma := { (s.core k).dma with from_ := (s.core k).dma.desc + 32 } } else s
    s.dmaFar k 16 (op == opADD) pkgs far id fun s _ _ => if op = opADD then s.dmaResume k false else s.dmaNext k
  else
    let m := (s.core k).dma
    let u := s.tally op { issuer := .dma k, part := i.part, tref, operand, cls := i.cls, t := s.time }
    let n := (u.core k).dma
    let u := if n.item == m.item && n.desc == m.desc && !n.wait then u.dmaResume k false else u
    { u with compl := s.compl }

/-- The package that an ADD behind the write of core k's descriptor may go to at once (R271): the write is outstanding, and it, every
write of the chain since its last tally command and the ADD's word lie in that one package. -/
def State.aheadTo (s : State) (k : Nat) : Option Nat :=
  let m := (s.core k).dma
  let d := decDma (s.peek m.desc 32)
  let e := decDma (s.peek (m.desc + 32) 32)
  let (tref, operand, op) := tallyCmd (e.bytes.drop 16)
  let p := s.farPkg (s.near d.dst)
  match m.item with
  | none => none
  | some i =>
    if m.far && m.ahead.isNone && !m.wait && (d.op == dmFILL || (d.op == dmCOPY && (s.farPkg (s.near d.src)).isNone))
      && s.chainAt k i.part (m.desc + 32) && !s.poisoned (m.desc + 32) 32 && e.ok && e.op == dmTALLY && op == opADD
      && decide (1 ≤ operand) && decide (operand < 2 ^ 32) && p.isSome && decide (tref < farBase * 2) && s.farPkg tref == p
      && m.wrote.all (· == p) then p else none

/-- The ADD behind an outstanding write sent without waiting for its acknowledgement (R271). -/
def State.sendAhead (s : State) (k d : Nat) : State :=
  let m := (s.core k).dma
  let i := s.dmaItem k
  let id := s.links.nextId
  let s := s.request d (k / 64 + k % 64) i.part i.cls 16 true (some k) none
  s.setCore k { s.core k with dma := { m with ahead := some id, from_ := m.desc + 64 } }

/-- TALLY (R265, R271): the tally command is issued once the descriptors before it have settled; an ADD to another package may follow
the write before it directly. -/
def execTally (core : Nat) (far : FarIn) (t : Nat) (s : State) : Host.Outcome State Fault Refusal :=
  let s := s.at t
  (match (if s.coreUp core then s.aheadTo core else none) with
   | some d => s.sendAhead core d
   | none => s.dmaRun core dmTALLY fun s d => s.dmaTally core d far).done

/-- LINK (R291): the chain goes on at the next descriptor address. -/
def execLink (core t : Nat) (s : State) : Host.Outcome State Fault Refusal :=
  let s := s.at t
  (s.dmaRun core dmLINK fun s d => s.setCore core { s.core core with dma := (s.core core).dma.next (s.near d.src) }).done

/-- BLOCK_REPEAT (R294): the first block that awaits its repeat is sent again: it stands and is counted, or its lines are
poisoned at the destination and the item fails. -/
def execBlockRepeat (core : Nat) (ok : Bool) (t : Nat) (s : State) : Host.Outcome State Fault Refusal :=
  let s := s.at t
  let m := (s.core core).dma
  (match m.item, m.retry with
   | some i, b :: r =>
     let d := decDma (s.peek m.desc 32)
     let src := s.near d.src
     let dst := s.near d.dst
     let (o, n) := (blocksOf dst d.len).getD b (0, 0)
     let u := crcUnit src dst
     let ev : EventIn := { kind := if ok then ekCRC_RETRY else ekCRC_ERR, unit := u.1, sub := u.2, cls := i.cls,
                           tag := coreTag i.part i.cls core, addr := dst + o, t := s.time }
     let s := if ok then (s.copyBlock core src dst o n).inc (Reg.memCrcRetry (memDie dst))
              else (s.spoil (dst + o) n).inc (Reg.memCrcErr (memDie dst))
     let s := s.event ev
     if (s.core core).dma.item = some i then
       let c := s.core core
       (s.setCore core { c with dma := { c.dma with retry := r, fail := c.dma.fail || !ok } }).copyEnd core dst
     else s
   | _, _ => s).done

end Sys2Proof.Machine
end

