-- ==== Sys2Proof/Machine/KettleFam.lean ====
section
/-! DEFINITION. The Kettle (18_power_and_clocks.md): Cosy and wake, the control period with its cap, loans and temperatures,
clock steps, and PLL locks. -/

namespace Sys2Proof.Machine

/-! ### Cosy (R298 to R300, R404) -/

/-- A self-test slice runs on the unit of a domain. -/
def State.sliceOn (s : State) (n : Nat) : Bool :=
  [0, 1].any fun d => match (s.rots.getD d {}).run with
    | some r =>
      let pos := r.unit % 512
      if n < 128 then pos < 64 && d * 64 + pos == n
      else if n < 144 then (64 ≤ pos && pos < 80 && d * 8 + (pos - 64) / 2 == n - 128) || (80 ≤ pos && pos < 88 && d * 8 + (pos - 80) == n - 128)
      else if n < 160 then false
      else pos == 88 && (n - 160) / 8 == d
    | none => false

/-- What a domain in Cosy does not keep is lost (R298): a core's translation caches, person boxes and DMA engine state, and of a
cluster-common domain the solver windows and the field-builder state. -/
def State.cosyLoss (s : State) (n : Nat) : State :=
  if n < 128 then s.setCore n { s.core n with cache := [], strain := [], boxes := none, dma := (s.core n).dma.free }
  else if n < 144 then
    let e := 2 * (n - 128)
    let s := (s.setEng e (s.eng e).stop).setEng (e + 1) (s.eng (e + 1)).stop
    { s with fld := { s.fld with build := none } }
  else s

/-- COSY_ENTRY (R404): a domain whose bit is set, ON, and idle for IDLE_US without a break, with no slice on its unit, goes to
Cosy; `idleAt` then holds the instant of its entry, and for 1 µs it reads as ENTERING. -/
def execCosyEntry (dom t : Nat) (s : State) : Host.Outcome State Fault Refusal :=
  let s := s.at t
  let x := s.dom dom
  (if dom < 176 ∧ s.dev.up ∧ bit s.ktl.sec.cosy dom ∧ x.st = .on ∧ s.domIdle dom ∧ x.idleAt + s.ktl.sec.idleUs * 1000 ≤ s.time
      ∧ !s.sliceOn dom then
     ((s.setDom dom { x with st := .cosy, idleAt := s.time }).cosyLoss dom).inc Reg.ktlCosyEntry
   else s).done

/-- A field store that wakes reads as CLOSED and receives a full copy of the current epoch (R300). -/
def State.storeWoken (s : State) (n : Nat) : State :=
  if 144 ≤ n ∧ n < 160 then
    let g := n - 144
    let s := s.shut g
    { s with fld := { s.fld with stores := listSet s.fld.stores g { ready := false, excluded := true, copying := true, copied := false } } }
  else s

/-- WAKE (R299): a domain that is waking becomes ON. -/
def execWake (dom t : Nat) (s : State) : Host.Outcome State Fault Refusal :=
  let s := s.at t
  let x := s.dom dom
  (if dom < 176 ∧ x.st = .waking then (s.setDom dom { x with st := .on, idleAt := s.time }).storeWoken dom else s).done

/-! ### Power predicted (R406, R410) -/

/-- A domain holds work. -/
def State.domWorks (s : State) (n : Nat) : Bool :=
  let cores (c : Nat) : Bool := (List.range 8).any fun i => !s.coreQuiet (8 * c + i)
  if n < 128 then !s.coreQuiet n
  else if n < 144 then (s.eng (2 * (n - 128))).busy || (s.eng (2 * (n - 128) + 1)).busy || s.fld.build.isSome
  else if n < 160 then cores (n - 144) || s.fld.build.isSome
  else !(s.arr ((n - 160) / 8)).runs.isEmpty

/-- The clock of a domain. -/
def domClk (n : Nat) : Nat := if n < 160 then domCluster n else 16 + (n - 160) / 8

/-- The draw of a domain at a step, 10 µW: its full load times f, or the idle fraction while it holds no work. -/
def State.domDraw (s : State) (n step : Nat) : Nat :=
  match (s.dom n).st with
  | .off => 0
  | .cosy => fullLoad n * 3 / 100
  | _ => fullLoad n * (if s.domWorks n then stepF step else stepIdle step) / 100

/-- The step a clock is on its way to. -/
def Kettle.aim (k : Kettle) (i : Nat) : Nat := (k.clks.getD i {}).target

/-- The predicted draw at the steps aimed at. -/
def State.predict (s : State) : Nat := alwaysOn + ((List.range 176).map fun n => s.domDraw n (s.ktl.aim (domClk n))).sum

/-- What a step of clock i up costs. -/
def State.upCost (s : State) (i : Nat) : Nat :=
  let c := s.ktl.aim i
  ((List.range 176).map fun n => if domClk n = i then s.domDraw n (c - 1) - s.domDraw n c else 0).sum

/-- 0.98 × CAP_W. -/
def State.guard (s : State) : Nat := 98000 * s.ktl.sec.cap

/-- A clock's floor. -/
def Kettle.floor (k : Kettle) (i : Nat) : Nat := if i < 16 then k.sec.eng.getD i 4 else k.sec.arr.getD (i - 16) 4

/-- The Kettle holds the ARR clock of a die at nominal (R222, R412): a class S network with the TALLY trigger is in force on
it, a class S run is queued or running, or the master's frame stands between s + NET_START − 25 µs and s + NET_START on a
die with class S FRAME networks. -/
def State.arrHold (s : State) (d : Nat) : Bool :=
  let ns := (s.cfg.nets.map (·.2)).filter fun n => n.cls == clsS && n.onDie d
  ns.any (·.tally) || (s.arr d).runs.any (·.cls == clsS) ||
  (ns.any (fun n => !n.tally) && (match s.master with
    | none => false
    | some p =>
      let x := s.prun p; let per := s.period p; let o := (s.pcfg p).frame.netStart * 1000
      s.running p && per != 0 &&
      (if x.t0 ≤ s.time then
         let v := (s.time - x.t0) % per
         (decide (o ≤ v + 25000) && decide (v < o)) || decide (per + o ≤ v + 25000)
       else decide (x.t0 + o ≤ s.time + 25000))))

/-- Clock i is held. -/
def State.clkHeld (s : State) (i : Nat) : Bool := decide (16 ≤ i) && s.arrHold (i - 16)

/-- Cluster c holds a core of a partition whose CLASSES include S. -/
def State.clusterS (s : State) (c : Nat) : Bool := s.cfg.parts.any fun q => q.permits clsS && q.cores.any (· / 8 == c)

/-- The measures of R411 in order: the arrays, the clusters without class S, the others, from the cluster after the one last
lowered, downwards. -/
def State.measures (s : State) : List (List Nat) :=
  let down := (List.range 16).map fun j => (s.ktl.rr + 31 - j) % 16
  [[16, 17], down.filter (!s.clusterS ·), down.filter (s.clusterS ·)]

/-- A clock kept below nominal by the cap (KTL_STATUS.CAP_LIMIT). -/
def State.capClk (s : State) (i : Nat) : State :=
  { s with ktl := { s.ktl with clks := listSet s.ktl.clks i { s.ktl.clks.getD i {} with capped := true } } }

/-- A clock lowered by one step; a step up that had not taken effect is withdrawn first. -/
def State.lowerClk (s : State) (i : Nat) : State :=
  let c := s.ktl.clks.getD i {}
  let c' := if c.target < c.step then { c with target := c.step } else { c with step := min 4 (c.step + 1), target := min 4 (c.step + 1) }
  { s with ktl := { s.ktl with clks := listSet s.ktl.clks i c', rr := if i < 16 then i else s.ktl.rr } }

/-- The next clock to lower for the cap: in the first measure with a clock above its floor, one not lowered in this period. -/
def State.toLower (s : State) (done : List Nat) : Option Nat :=
  let open_ (i : Nat) : Bool := !s.clkHeld i && decide (s.ktl.aim i < s.ktl.floor i)
  match s.measures.find? fun g => g.any open_ with
  | none => none
  | some g => g.find? fun i => open_ i && !done.contains i

/-- Lowering for the cap (R411). -/
def State.lowerCap : Nat → List Nat → State → List Nat × State
  | 0, done, s => (done, s)
  | n + 1, done, s =>
    if s.predict ≤ s.guard then (done, s)
    else match s.toLower done with
      | none => (done, s)
      | some i => State.lowerCap n (i :: done) ((s.lowerClk i).capClk i)

/-! ### Rising again (R411, R414, R415) -/

/-- The die of a clock. -/
def dieOfClk (i : Nat) : Nat := if i < 16 then i / 8 else i - 16

/-- T_max in eighths of a degree (R415). -/
def Fuses.tMax (f : Fuses) : Int := if bits f.deviceId 15 12 = 2 then 105 * 8 else 95 * 8

/-- Thermal lowering keeps a die's clocks down: not below T_max − 8 °C for 1 ms. -/
def State.hot (s : State) (d : Nat) : Bool := s.ktl.thermal.getD d false && decide (s.time < s.ktl.hotAt.getD d 0 + 1000000)

/-- The next clock to raise: the measures in reverse. -/
def State.toRaise (s : State) (done : List Nat) : Option Nat :=
  (s.measures.reverse.flatMap List.reverse).find? fun i => decide (0 < s.ktl.aim i) && !s.hot (dieOfClk i) && !done.contains i

/-- A clock's target raised by one step: the round robin of R411 goes back past it, so that clocks rise in the order opposite to that in
which they were lowered. -/
def State.raiseClk (s : State) (i : Nat) : State :=
  let c := s.ktl.clks.getD i {}
  { s with ktl := { s.ktl with clks := listSet s.ktl.clks i { c with target := c.target - 1 },
                               rr := if i < 16 then (i + 1) % 16 else s.ktl.rr } }

/-- Clocks raised while the prediction leaves room; a raise that only the loans make room for is remembered (R414). The first that finds
no room stays below nominal for the cap. -/
def State.raiseCap : Nat → List Nat → State → State
  | 0, _, s => s
  | n + 1, done, s =>
    match s.toRaise done with
    | none => s
    | some i =>
      let cost := s.upCost i
      if s.predict + cost ≤ s.guard then
        let loan := (s.ktl.lent.map (·.2)).sum
        let s' := s.raiseClk i
        State.raiseCap n (i :: done)
          (if s.guard < s.predict + cost + loan then { s' with ktl := { s'.ktl with raises := (i, cost) :: s'.ktl.raises } } else s')
      else s.capClk i

/-! ### Temperature (R415) -/

/-- Clock i set to 0.5 GHz. -/
def State.lowest (s : State) (i : Nat) : State :=
  { s with ktl := { s.ktl with clks := listSet s.ktl.clks i { s.ktl.clks.getD i {} with step := 4, target := 4 } } }

/-- The clocks of a die, in the order of R411. -/
def State.dieMeasures (s : State) (d : Nat) : List (List Nat) := s.measures.map fun g => g.filter fun i => dieOfClk i == d

/-- The thermal action on a planner die that has just been measured. -/
def State.thermal (s : State) (d : Nat) (old now : Int) : State :=
  let m := s.fuses.tMax
  let s := if m - 64 ≤ now then { s with ktl := { s.ktl with hotAt := listSet s.ktl.hotAt d s.time } } else s
  let s := if m + 80 ≤ now ∧ old < m + 80 then ({ s with ktl := { s.ktl with trip := true } } : State).dieFault s.time else s
  if now < m - 40 then s
  else
    let s := if s.ktl.thermal.getD d false then s else { s with ktl := { s.ktl with thermal := listSet s.ktl.thermal d true } }.raise isrcKETTLE
    if m ≤ now then
      let free := ((List.range 18).filter fun i => dieOfClk i == d && !s.clkHeld i && decide ((s.ktl.clks.getD i {}).step < 4))
      let s := free.foldl State.lowest s
      if free.isEmpty then s else (s.inc Reg.ktlTherm).raise isrcKETTLE
    else if s.time < s.ktl.stepAt.getD d 0 + 100000 then s
    else
      let open_ (i : Nat) : Bool := !s.clkHeld i && decide (s.ktl.aim i < s.ktl.floor i)
      match (s.dieMeasures d).find? fun g => g.any open_ with
      | none => s
      | some g =>
        let l := g.filter open_
        let s := l.foldl State.lowerClk { s with ktl := { s.ktl with stepAt := listSet s.ktl.stepAt d s.time } }
        (s.inc Reg.ktlThrottle l.length).raise isrcKETTLE

/-- Thermal lowering ends on a die that has been below T_max − 8 °C for 1 ms. -/
def State.coolDown (s : State) : State := { s with ktl := { s.ktl with thermal := [s.hot 0, s.hot 1] } }

/-! ### The control period (R410 to R415) -/

/-- The measured power taken in: energy, and the mean of each complete window of 1 ms with what an excess does (R410, R413). -/
def State.measure (s : State) (power : Nat) : State :=
  let k := s.ktl
  let k := { k with energy := k.energy + power, samples := k.samples ++ [power] }
  if k.samples.length < 100 then { s with ktl := k }
  else
    let mean := k.samples.sum / 100
    let over_ := decide (10 * k.sec.cap < mean)
    let s := { s with ktl := { k with samples := [], mean, meanMax := max k.meanMax mean, exceed := over_ } }
    if over_ then
      let s := ((List.range 18).filter (!s.clkHeld ·)).foldl (fun s i => (s.lowest i).capClk i) s
      if k.exceed then s else (s.inc Reg.ktlCapExceed).raise isrcKETTLE
    else s

/-- Held array clocks on their way to nominal (R412). -/
def State.holdArr (s : State) (d : Nat) : State :=
  let c := s.ktl.clks.getD (16 + d) {}
  if s.arrHold d ∧ c.target ≠ 0 then
    { s with ktl := { s.ktl with clks := listSet s.ktl.clks (16 + d) { c with target := 0 } } }
  else s

/-- CONTROL_PERIOD (R410 to R415): temperatures and power are read, held array clocks go to nominal, then clocks are lowered for
temperature and the cap, or raised. -/
def execControlPeriod (o : SenseIn) (s : State) : Host.Outcome State Fault Refusal :=
  let s := s.at o.t
  (if !s.dev.up then s else
   let old := s.ktl.tj
   let tj := (List.range 3).map fun d => o.tj.getD d 0
   let mx := (List.range 3).map fun d => max (tj.getD d 0) (s.ktl.tjMax.getD d 0)
   let s := { s with ktl := { s.ktl with tj, tjMax := mx } }.measure o.power
   let s := (s.holdArr 0).holdArr 1
   let s := ((s.thermal 0 (old.getD 0 0) (tj.getD 0 0)).thermal 1 (old.getD 1 0) (tj.getD 1 0)).coolDown
   let (low, s) := State.lowerCap 18 [] s
   if low.isEmpty then (if s.ktl.exceed then s else State.raiseCap 18 [] s) else s.raise isrcKETTLE).done

/-- STEP_UP (R406): a clock whose voltage has risen takes the step it was raised to. -/
def execStepUp (clk t : Nat) (s : State) : Host.Outcome State Fault Refusal :=
  let s := s.at t
  let c := s.ktl.clks.getD clk {}
  (if clk < 18 ∧ c.target < c.step then { s with ktl := { s.ktl with clks := listSet s.ktl.clks clk { c with step := c.target, capped := c.capped && decide (0 < c.target) } } }
   else s).done

/-! ### PLLs (R409) -/

/-- PLL_LOCK_LOSS (R409). -/
def execPllLockLoss (pll t : Nat) (s : State) : Host.Outcome State Fault Refusal :=
  let s := s.at t
  (if pll < 28 ∧ bit s.ktl.lock pll then
     (({ s with ktl := { s.ktl with lock := s.ktl.lock - 2 ^ pll } } : State).inc Reg.ktlPllLoss).raise isrcKETTLE
   else s).done

/-- PLL_RELOCK (R409). -/
def execPllRelock (pll t : Nat) (s : State) : Host.Outcome State Fault Refusal :=
  let s := s.at t
  (if pll < 28 ∧ s.dev.up ∧ !bit s.ktl.lock pll then { s with ktl := { s.ktl with lock := s.ktl.lock + 2 ^ pll } } else s).done

end Sys2Proof.Machine
end

