-- ==== Sys2Proof/Machine/MemFam.lean ====
section
/-! DEFINITION. What memories and die-to-die links meet (12_memory.md, 01_architecture.md): scrubs and ECC errors, tamper events,
lane repairs and links that go down. -/

namespace Sys2Proof.Machine

/-! ### ECC (R284, R285, R289) -/

/-- The memory kind of an address in MEM_CE and MEM_UE: core scratchpads, field stores, array buffer, context table, HBM. -/
def memKind (a : Nat) : Nat := match fwTarget a with | 1 => 0 | 2 => 1 | 4 => 2 | 3 => 3 | _ => 4

/-- MEM_CORE_ECC of the core that owns a scratchpad word: each half stops at 0xFFFF. -/
def State.coreEcc (s : State) (a : Nat) (ue : Bool) : State :=
  if fwTarget a = 1 then
    let r := Reg.memCoreEcc (a / 0x100000000 % 2 * 64 + a % 0x100000000 / 0x100000)
    let w := (s.rd r).toNat
    if ue then s.wrBits r 31 16 (min 0xFFFF (bits w 31 16 + 1)) else s.wrBits r 15 0 (min 0xFFFF (bits w 15 0 + 1))
  else s

/-- A word of the line at `a` corrected and counted, or found uncorrectable: the line poisoned, counted and latched (R285). -/
def State.eccMet (s : State) (a : Nat) (double : Bool) : State :=
  let d := memDie a
  if double then
    (((s.mark (a / 64 * 64) 64 true).inc (Reg.memUe d (memKind a))).coreEcc a true).wr64 (Reg.memUeAddrLo d) (a / 64 * 64)
  else (s.inc (Reg.memCe d (memKind a))).coreEcc a false

/-- A read of the line at `a` finds a bit in error or an uncorrectable word (R285), with its event. The uncorrectable word is taken as the
line's first. -/
def State.eccRead (s : State) (a : Nat) (e : EccIn) : State :=
  match e with
  | .clean => s
  | .single b =>
    (s.eccMet a false).event
      { kind := ekECC_CE, unit := ownerUnit a, addr := a / 64 * 64 + b % 512 / 64 * 8, synd := Config.eccSynd b, t := s.time }
  | .double => (s.eccMet a true).event { kind := ekECC_UE, unit := ownerUnit a, addr := a / 64 * 64, t := s.time }

/-- Lines of an HBM stack. -/
def hbmLines : Nat := 402653184

/-- PATROL_SCRUB (R284, R285): the scrub of a stack reads one line; line 0 begins a pass and the last line ends it. -/
def execPatrolScrub (die line : Nat) (e : EccIn) (t : Nat) (s : State) : Host.Outcome State Fault Refusal :=
  let s := s.at t
  (if die < 2 ∧ line < hbmLines ∧ s.readyBit (rbHBM + die) then
     let r := Reg.memScrub die
     let s := if line = 0 then
         ({ s with dev := { s.dev with scrubAt := listSet s.dev.scrubAt die (some s.time) } } : State).wrBits r 16 16 1
       else s
     let s := s.eccRead (die * 0x600000000 + 64 * line) e
     if line + 1 = hbmLines then
       match s.dev.scrubAt.getD die none with
       | some u => (({ s with dev := { s.dev with scrubAt := listSet s.dev.scrubAt die none } } : State).wrBits r 16 16 0).wrBits r 15 0
           (min 0xFFFF ((s.time - u) / 60000000000))
       | none => s
     else s
   else s).done

/-- SCRATCHPAD_SCRUB (R285, R289): the scrubber of a core that is ON reads one 64-bit word. -/
def execScratchpadScrub (core word : Nat) (e : EccIn) (t : Nat) (s : State) : Host.Outcome State Fault Refusal :=
  let s := s.at t
  (if core < 128 ∧ word < 131072 ∧ s.coreEn core ∧ s.coreUp core ∧ (s.dom core).st = .on then
     s.eccRead (padBase core + 8 * word) (match e with | .single b => .single (word % 8 * 64 + b % 64) | x => x)
   else s).done

/-! ### Tamper (R301, R302) -/

/-- The secure region wiped (R301): its cause latched, and the wipe counted. -/
def State.wipeSecure (s : State) (cause : Nat) : State :=
  let w := (s.rd Reg.memSecureStatus).toNat
  (s.wrBits Reg.memSecureStatus 31 24 (min 0xFF (bits w 31 24 + 1))).wrBits Reg.memSecureStatus 11 8 cause

/-- TAMPER (R301, R302): cause 0 the ball, 1 a supply, 2 the clock, 3 the temperature. The secure region is wiped, every Saucer
is issued, every stop-request output goes off and the planner dies are held. -/
def State.tampered (s : State) (cause : Nat) : State :=
  let s := (s.wipeSecure (cause + 2)).wrBits Reg.memTamper cause cause 1
  let s := s.wrBits Reg.memSecureStatus 2 2 1
  let s := (s.log { kind := ekTAMPER, time := s.time }).raise isrcTAMPER
  let s := s.trigger 10 s.time s.mechNums (some 0)
  let s := { s with dev := { s.dev with locked := true } }.setWState .locked
  s.warmReset 3 s.time true

/-- TAMPER. -/
def execTamper (cause t : Nat) (s : State) : Host.Outcome State Fault Refusal :=
  let s := s.at t
  (if s.dev.up ∧ cause < 4 then s.tampered cause else s).done

/-! ### Die-to-die links (R18, R382) -/

/-- The unit of a die-to-die link: 0 PD0–WD, 1 PD1–WD, 2 PD0–PD1. -/
def d2dUnit (link : Nat) : Nat := if link = 2 then unitId 0 113 else unitId link 112

/-- LANE_REPAIR (R18): the link runs with a repaired lane. -/
def execLaneRepair (link t : Nat) (s : State) : Host.Outcome State Fault Refusal :=
  let s := s.at t
  (if link < 3 ∧ bit (s.rd Reg.glbD2dStatus).toNat link then
     let s := if bit (s.rd Reg.glbD2dStatus).toNat (3 + link) then s
              else (s.wrBits Reg.glbD2dStatus (3 + link) (3 + link) 1).raise isrcD2D
     s.event { kind := ekLINK_DEGR, unit := d2dUnit link, t := s.time }
   else s).done

/-- LINK_DOWN (R18, R382): the link clears its UP bit; the class S fault is a FAULT trigger and a fall-back decision. -/
def execLinkDown (link t : Nat) (s : State) : Host.Outcome State Fault Refusal :=
  let s := s.at t
  (if link < 3 ∧ s.dev.up then
     let s := if bit (s.rd Reg.glbD2dStatus).toNat link then (s.wrBits Reg.glbD2dStatus link link 0).raise isrcD2D else s
     s.event { kind := ekLINK_DOWN, unit := d2dUnit link, t := s.time }
   else s).done

end Sys2Proof.Machine
end

