-- ==== Sys2Proof/Machine/ArrFam.lean ====
section
/-! DEFINITION. The Great Arrays (09_array_operations.md): the order of runs and descriptors, compute descriptors, the load unit,
the twin compare, and what ends a run. -/

namespace Sys2Proof.Machine

/-! ### Runs and descriptors in order (R219, R220) -/

/-- The network of a run. -/
def State.netOf (s : State) (r : ARun) : Option Net := (s.pcfg r.part).nets.find? (·.net == r.net)

/-- The run of a network on a die. -/
def State.runOf (s : State) (d p n : Nat) : Option ARun := (s.arr d).runs.find? fun r => r.part == p && r.net == n

/-- A run replaced. -/
def State.setRun (s : State) (d : Nat) (r : ARun) : State :=
  s.setArr d { s.arr d with runs := (s.arr d).runs.map fun x => if x.part = r.part ∧ x.net = r.net then r else x }

/-- Where descriptor i of a network stands in memory. -/
def Net.descAddr (n : Net) (i : Nat) : Nat := n.img + n.desc0 + 128 * i

/-- Descriptor i of a network as die d runs it: on PD1 the EXT of STORE and SIGNAL of a twin is moved by OUT_DELTA (R234). -/
def State.desc (s : State) (n : Net) (d i : Nat) : Desc :=
  let x := decDesc (s.peek (n.descAddr i) 128)
  if n.twin ∧ d = 1 ∧ (x.kind = kSTORE ∨ x.kind = kSIGNAL) then { x with ext := deltaAddr x.ext n.delta } else x

/-- The first descriptor from index i on that the array (`compute`) or the load unit takes. -/
def State.nextDesc (s : State) (n : Net) (compute : Bool) (i : Nat) : Option Nat :=
  ((List.range (n.count - i)).map (· + i)).find? fun j => (decDesc (s.peek (n.descAddr j) 128)).compute == compute

/-- The order of R220: class, trigger time, partition, network. -/
def ARun.before (a b : ARun) : Bool :=
  decide (a.cls < b.cls) || (a.cls == b.cls && (decide (a.trig < b.trig) || (a.trig == b.trig &&
    (decide (a.part < b.part) || (a.part == b.part && decide (a.net < b.net))))))

/-- A run may go on: it has begun, or the time partition in force admits its class (R352). -/
def State.mayRun (s : State) (r : ARun) : Bool := r.begun || s.admits r.cls

/-- A run has a descriptor left for the array or the load unit. -/
def State.runLeft (s : State) (compute : Bool) (r : ARun) : Bool :=
  match s.netOf r with
  | some n => (s.nextDesc n compute (if compute then r.comp else r.load)).isSome
  | none => false

/-- It is a run's turn on the array or the load unit of its die (R220). -/
def State.runTurn (s : State) (d : Nat) (compute : Bool) (r : ARun) : Bool :=
  s.mayRun r && !((s.arr d).runs.any fun x => x.before r && s.mayRun x && s.runLeft compute x)

/-- The array of die d works: its die, its clock, its unit in service, and all 8 segments ON (R403). -/
def State.arrWorks (s : State) (d : Nat) : Bool :=
  decide (d < 2) && s.pdUp d && bit s.ktl.lock (16 + d) && s.healthy (unitId d 88) && !s.slicing d 88 &&
  (List.range 8).all fun g => decide ((s.dom (domSeg d g)).st = .on)

/-- A run that has taken every descriptor ends OK. -/
def State.runEndOk (s : State) (d : Nat) (r : ARun) : State :=
  if s.runLeft true r || s.runLeft false r then s else s.endRun d r rrOK s.time

/-- What a descriptor's turn finds: the network, the run, the descriptor's index and the descriptor. -/
def State.descTurn (s : State) (compute : Bool) (a : ArrIn) : Option (Net × ARun × Nat × Desc) :=
  if !s.arrWorks a.die then none else
  match s.runOf a.die a.part a.net with
  | none => none
  | some r =>
    if !s.runTurn a.die compute r then none else
    match s.netOf r with
    | none => none
    | some n =>
      match s.nextDesc n compute (if compute then r.comp else r.load) with
      | none => none
      | some i => some (n, r, i, s.desc n a.die i)

/-- KIND is listed (R223). A descriptor of another kind comes to the load unit, where its run ends with DESC_ERR (R224; DESIGN CHOICE, log
entry 191). -/
def Desc.listed (d : Desc) : Bool := d.compute || d.kind == kLOAD || d.kind == kSTORE || d.kind == kSIGNAL

/-- The descriptor checks of R224 repeated at issue. -/
def State.issueOk (s : State) (r : ARun) (n : Net) (d : Desc) : Bool := d.ok n.banks (s.pcfg r.part).inUnits

/-! ### Compute descriptors (R208 to R218, R227 to R233, R237, R238) -/

/-- The array-buffer ranges that a compute descriptor reads. -/
def Desc.reads (d : Desc) : List (Nat × Nat) :=
  (d.ranges.filter fun r => (r.1 != d.cAddr || (d.kind == kGATHER && d.init == 1)) && (d.kind != kATTN || r.1 != d.par 0x18 4)) ++
  (if d.kind = kGATHER then [(d.par 0 4, 8 * d.par 4 4)] else []) ++
  (if d.kind = kATTN ∧ d.par 0xC 4 ≠ 0xFFFFFFFF then [(d.par 0xC 4, cdiv (d.par 0 2 * d.par 2 2) 8)] else []) ++
  (if d.two && fmtMX d.fa then [(d.saAddr, d.M * cdiv d.kTotal 32), (d.sbAddr, cdiv d.kTotal 32 * d.N)] else []) ++
  (if d.kind = kATTN ∧ fmtMX (d.par 7 1) then [(Config.mxScaleAddr 1 (d.par 0x10 4) % 0x4000000, cdiv (d.par 2 2) 32 * d.par 4 2)] else []) ++
  (if d.posts.contains 1 && d.scAddr != 0xFFFFFFFF then [(d.scAddr, 4 * d.cols)] else []) ++
  (if d.posts.contains 2 && d.biAddr != 0xFFFFFFFF then [(d.biAddr, 4 * d.cols)] else [])

/-- The LOADs before descriptor i of a run are complete (R219). -/
def State.loadsDone (s : State) (n : Net) (r : ARun) (i : Nat) : Bool :=
  !(((List.range (i - r.load)).map (· + r.load)).any fun j => (decDesc (s.peek (n.descAddr j) 128)).kind == kLOAD)

/-- The compute descriptors before descriptor i of a run are complete (R219). -/
def State.compsDone (s : State) (n : Net) (r : ARun) (i : Nat) : Bool :=
  !(((List.range (i - r.comp)).map (· + r.comp)).any fun j => (decDesc (s.peek (n.descAddr j) 128)).compute)

/-- The origin tag of the array of die d: the Great Array, or with `load` its load unit (R348). -/
def arrTag (r : ARun) (d : Nat) (load : Bool) : Nat := originTag r.cls 0 r.part d (0x80 + if load then 0 else 1)

/-- GAR_LAST_FLAGS and GAR_LAST_COUNT after a descriptor (R216). -/
def State.lastFlags (s : State) (d i : Nat) (fl : List ElFlags) : State :=
  let c := [fl.countP (·.inv), fl.countP (·.ovf), fl.countP (·.und), fl.countP (·.ovr)]
  let any_ := ((c.zipIdx.filter fun e => e.1 != 0).map fun e => 2 ^ e.2).sum
  let s := s.wr (Reg.garLastFlags d) (BitVec.ofNat 32 (i * 65536 + any_))
  c.zipIdx.foldl (fun s e => s.wr (Reg.garLastCount d e.2) (BitVec.ofNat 32 e.1)) s

/-- The tiles whose comparison failed once and passed, and those that failed twice (R238). -/
def State.tileChecks (s : State) (d : Nat) (r : ARun) (i : Nat) (x : Desc) (retry fail : List Nat) : State :=
  let op := r.net * 65536 + i
  let ev (kind : Nat) : EventIn := { kind, unit := unitId d 88, cls := r.cls, tag := arrTag r d false, op, t := s.time }
  let s := retry.foldl (fun s _ => (s.inc (Reg.garRecompute d)).event (ev ekCHK_RECOMPUTE)) s
  fail.foldl (fun s t =>
    let s := (x.tileLines (bufBase d) t).foldl (fun s l => s.spoil l.1 l.2) s
    (s.inc (Reg.garChkFail d)).event (ev ekCHK_FAIL)) s

/-- A compute descriptor executed. -/
def State.compute (s : State) (a : ArrIn) (r : ARun) (i : Nat) (x : Desc) : State :=
  let d := a.die
  let base := bufBase d
  let s := x.reads.foldl (fun s g => s.settleBuf (base + g.1) g.2) s
  let poison := x.reads.any fun g => s.poisoned (base + g.1) g.2
  let o := x.run s.mem base a.upset
  let s := o.writes.foldl (fun s w => (s.defBuf w.1 w.2.length).store w.1 w.2) s
  let s := if poison then o.writes.foldl (fun s w => s.mark w.1 w.2.length true) s else s
  let s := ((s.inc (Reg.garChkSkip d) o.skip).inc (Reg.garGatherRange d) o.ranges_).lastFlags d i o.flags
  let s := (s.add64 (Reg.garOpsLo d) 1).add64 (Reg.garBusyLo d) (x.time + (o.retry.length + o.fail.length) * x.tileCycles)
  let s := s.wr (Reg.garDesc d) (BitVec.ofNat 32 i)
  let r := { r with comp := i + 1, begun := true }
  let s := s.setRun d r
  let s := s.tileChecks d r i x o.retry o.fail
  match s.runOf d r.part r.net with
  | none => s
  | some r =>
    if poison then s.endRun d r rrPOISON s.time
    else if !o.fail.isEmpty then s.endRun d r rrCHK s.time
    else s.runEndOk d r

/-- A compute command of a kind: the descriptor whose turn it is on the array. -/
def State.arrCompute (s : State) (kind : Nat) (a : ArrIn) : State :=
  let s := s.at a.t
  match s.descTurn true a with
  | none => s
  | some (n, r, i, x) =>
    if x.kind ≠ kind ∨ !s.loadsDone n r i then s
    else if s.poisoned (n.descAddr i) 128 then s.endRun a.die r rrPOISON s.time
    else if !s.issueOk r n x then s.endRun a.die r rrDESC s.time
    else s.compute a r i x

/-- GEMM (R227). -/
def execGemm (r : ArrIn) (s : State) : Host.Outcome State Fault Refusal := (s.arrCompute kGEMM r).done

/-- CONV (R228). -/
def execConv (r : ArrIn) (s : State) : Host.Outcome State Fault Refusal := (s.arrCompute kCONV r).done

/-- ATTN (R230). -/
def execAttn (r : ArrIn) (s : State) : Host.Outcome State Fault Refusal := (s.arrCompute kATTN r).done

/-- GATHER (R231). -/
def execGather (r : ArrIn) (s : State) : Host.Outcome State Fault Refusal := (s.arrCompute kGATHER r).done

/-- VECTOR (R231). -/
def execVector (r : ArrIn) (s : State) : Host.Outcome State Fault Refusal := (s.arrCompute kVECTOR r).done

/-- POOL (R229). -/
def execPool (r : ArrIn) (s : State) : Host.Outcome State Fault Refusal := (s.arrCompute kPOOL r).done

/-! ### The load unit (R219, R226, R239) -/

/-- A load-unit descriptor of a run done; the run ends OK when it was the last. -/
def State.loadNext (s : State) (d : Nat) (r : ARun) (i : Nat) : State :=
  let r := { r with load := i + 1, wait := none, begun := true }
  (s.setRun d r).runEndOk d r

/-- The blocks of a transfer checked (R294): those sent again that match, and those that fail twice. -/
def State.blockChecks (s : State) (tag cls src dst len : Nat) (retry fail : List Nat) : State :=
  let bs := blocksOf dst len
  let u := crcUnit src dst
  let ev (kind b : Nat) : EventIn := { kind, unit := u.1, sub := u.2, cls, tag, addr := dst + (bs.getD b (0, 0)).1, t := s.time }
  let s := (retry.filter fun b => decide (b < bs.length) && !fail.contains b).foldl (fun s b =>
    (s.inc (Reg.memCrcRetry (memDie dst))).event (ev ekCRC_RETRY b)) s
  (fail.filter (decide <| · < bs.length)).foldl (fun s b =>
    ((s.spoil (dst + (bs.getD b (0, 0)).1) (bs.getD b (0, 0)).2).inc (Reg.memCrcErr (memDie dst))).event (ev ekCRC_ERR b)) s

/-- A block of the transfer failed twice. -/
def blockFailed (dst len : Nat) (fail : List Nat) : Bool := fail.any (decide <| · < (blocksOf dst len).length)

/-- LOAD executed: HBM to the array buffer. -/
def State.doLoad (s : State) (a : ArrIn) (r : ARun) (i : Nat) (x : Desc) : State :=
  let d := a.die
  let src := x.extAt r.frame
  let dst := bufBase d + x.aAddr
  let w := Who.part r.part r.cls d
  let s := if s.fwOk w false src x.M then s.move src dst x.M else (s.refuse (arrTag r d true) src false).spoil dst x.M
  let s := s.blockChecks (arrTag r d true) r.cls src dst x.M a.retry a.fail
  match s.runOf d r.part r.net with
  | none => s
  | some r => if blockFailed dst x.M a.fail then s.endRun d r rrPOISON s.time else s.loadNext d r i

/-- LOAD (R219): not while its destination overlaps a range of an earlier compute descriptor of the run that has not
completed. -/
def execLoad (r : ArrIn) (s : State) : Host.Outcome State Fault Refusal :=
  let s := s.at r.t
  (match s.descTurn false r with
   | none => s
   | some (n, u, i, x) =>
     if x.kind ≠ kLOAD ∧ x.listed then s
     else if s.poisoned (n.descAddr i) 128 then s.endRun r.die u rrPOISON s.time
     else if !s.issueOk u n x then s.endRun r.die u rrDESC s.time
     else
       let open_ := ((List.range (i - u.comp)).map (· + u.comp)).filter fun j => (decDesc (s.peek (n.descAddr j) 128)).compute
       if open_.any (fun j => (decDesc (s.peek (n.descAddr j) 128)).ranges.any (rangesMeet (x.aAddr, x.M))) then s
       else s.doLoad r u i x).done

/-- One STORE's lines written: array buffer to HBM. -/
def State.doStore (s : State) (d : Nat) (r : ARun) (x : Desc) : State :=
  let src := bufBase d + x.aAddr
  let dst := x.extAt r.frame
  if s.fwOk (Who.part r.part r.cls d) true dst x.M then s.move src dst x.M else s.refuse (arrTag r d true) dst true

/-- The lines in which the twins' buffers differ. -/
def State.twinDiff (s : State) (x : Desc) : List Nat :=
  (List.range (x.M / 64)).filter fun l => s.peek (bufBase 0 + x.aAddr + 64 * l) 64 != s.peek (bufBase 1 + x.aAddr + 64 * l) 64

/-- Both arrays' slices become pending and are offered first (R376). -/
def State.suspectArrays (s : State) : State :=
  let again (r : Rotation) : Rotation :=
    { r with first := (88, 7) :: r.first.filter (· != (88, 7)), cmp := 1,
             pend := if r.pend.contains (88, 7) then r.pend else r.pend ++ [(88, 7)] }
  { s with rots := s.rots.map again }

/-- Both twins of a network end CMP_FAIL: a record, and the suspicion against both arrays. -/
def State.cmpFail (s : State) (p net i : Nat) (cls : Nat) : State :=
  let s := s.log { kind := ekCMP_FAIL, act := actOf ekCMP_FAIL, cls, time := s.time, op := net * 65536 + i }
  let stop (s : State) (d : Nat) : State := match s.runOf d p net with | some r => s.endRun d r rrCMP s.time | none => s
  (stop (stop s 0) 1).suspectArrays

/-- STORE without COMPARE, or the second of two twins to reach a COMPARE STORE (R239). -/
def execStore (r : ArrIn) (s : State) : Host.Outcome State Fault Refusal :=
  let s := s.at r.t
  (match s.descTurn false r with
   | none => s
   | some (n, u, i, x) =>
     if (x.kind ≠ kSTORE ∧ x.listed) ∨ !s.compsDone n u i then s
     else if s.poisoned (n.descAddr i) 128 then s.endRun r.die u rrPOISON s.time
     else if !s.issueOk u n x then s.endRun r.die u rrDESC s.time
     else if !x.compare then
       let dst := x.extAt u.frame
       let s := (s.doStore r.die u x).blockChecks (arrTag u r.die true) u.cls (bufBase r.die + x.aAddr) dst x.M r.retry r.fail
       match s.runOf r.die u.part u.net with
       | none => s
       | some u => if blockFailed dst x.M r.fail then s.endRun r.die u rrPOISON s.time else s.loadNext r.die u i
     else
       let o := 1 - r.die
       let y := s.desc n o i
       match s.runOf o u.part u.net with
       | some v =>
         if v.wait.any fun w => decide (w + 20000 < s.time) then s.cmpFail u.part u.net i u.cls
         else if v.wait.isSome ∧ s.nextDesc n false v.load = some i then
           let s := (s.settleBuf (bufBase 0 + x.aAddr) x.M).settleBuf (bufBase 1 + x.aAddr) x.M
           let bad := s.twinDiff x
           let s := (s.doStore r.die u x).doStore o v y
           if bad.isEmpty then (s.loadNext r.die u i).loadNext o v i
           else
             let s := bad.foldl (fun (s : State) (l : Nat) => (s.spoil (x.extAt u.frame + 64 * l) 64).spoil (y.extAt v.frame + 64 * l) 64) s
             s.cmpFail u.part u.net i u.cls
         else if u.wait.isSome then s else s.setRun r.die { u with wait := some s.time, begun := true }
       | none => if u.wait.isSome then s else s.setRun r.die { u with wait := some s.time, begun := true }).done

/-- SIGNAL (R219, R274): the run's tally word, here or in another package, receives a producer increment of 1. It waits for the compute
descriptors before it, since a run that one of them ends signals nothing after it (R240; DEDUCED, log entry 195). -/
def execSignal (r : ArrIn) (s : State) : Host.Outcome State Fault Refusal :=
  let s := s.at r.t
  (match s.descTurn false r with
   | none => s
   | some (n, u, i, x) =>
     if (x.kind ≠ kSIGNAL ∧ x.listed) ∨ !s.compsDone n u i then s
     else if s.poisoned (n.descAddr i) 128 then s.endRun r.die u rrPOISON s.time
     else if !s.issueOk u n x then s.endRun r.die u rrDESC s.time
     else
       let c := s.compl
       let s := s.loadNext r.die u i
       let a := x.extAt u.frame
       match s.farPkg a with
       | some p =>
         if s.reaches p then s.request p (r.die + 0x81) u.part u.cls 16 true none (some (r.die, u.cls, a))
         else s.farLost.tallyFail (.array r.die) u.part u.cls a
       | none =>
         let s := s.tally opADD { issuer := .array r.die, part := u.part, tref := a, operand := 1, cls := u.cls, t := r.t }
         { s with compl := c }).done

/-- TWIN_TIMEOUT (R239): a twin has waited 20 µs at a COMPARE STORE: both twins end CMP_FAIL. -/
def execTwinTimeout (p net : Nat) (s : State) : Host.Outcome State Fault Refusal :=
  let waiting := [0, 1].filterMap fun d => (s.runOf d p net).bind fun r => r.wait.map fun w => (w, r)
  (match waiting with
   | [] => s
   | e :: _ =>
     let s := s.at (e.1 + 20000)
     s.cmpFail p net e.2.load e.2.cls).done

end Sys2Proof.Machine
end

