-- ==== Sys2Proof/Machine/FrameFam.lean ====
section
/-! DEFINITION. The phase points of frames (01_architecture.md R13, R20 to R23; 10_task_scheduling.md R245) with what each brings:
the services of the stage watchdogs (R332 to R334), the networks and views of NET_START, and the field build, its publish and
the copies of stores (03_clearance_field.md). -/

namespace Sys2Proof.Machine

/-! ### Phase points (R20, R65) -/

/-- The head of frame n of partition p runs: p runs frames, and n lies at most one past the last frame (R65). -/
def State.runsHead (s : State) (p n : Nat) : Bool :=
  s.running p && (match (s.prun p).lastFrame with | none => true | some l => decide (n ≤ l + 1))

/-- The check window and tail of frame n of partition p run. -/
def State.runsTail (s : State) (p n : Nat) : Bool :=
  s.running p && (match (s.prun p).lastFrame with | none => true | some l => decide (n ≤ l))

/-- The instant of a phase point of frame n of p, its offset in µs from the window start. -/
def State.phaseAt (s : State) (p n off : Nat) : Nat := s.winStart p n + off * 1000

/-! ### Stage watchdogs (R315, R332 to R334) -/

/-- OPEN and CLOSE of watchdog w: those of the safety content in force, else those of the master's offsets. -/
def State.wdWin (s : State) (w : Nat) : Nat × Nat :=
  match s.cfg.safety with
  | some x => x.glob.wd.getD w (0, 0)
  | none => (defaultWindows (match s.cfg.master with | some q => q.frame | none => {})).getD w (0, 0)

/-- Watchdog w. -/
def State.wd (s : State) (w : Nat) : Watchdog := s.warden.wds.getD w {}

/-- A watchdog replaced. -/
def State.setWd (s : State) (w : Nat) (x : Watchdog) : State := { s with warden := { s.warden with wds := listSet s.warden.wds w x } }

/-- The mechanisms whose drives are on an SGMII port. -/
def State.portMechs (s : State) (n : Nat) : List Nat :=
  s.mechNums.filter fun m => match s.mech? m with | some (q, _) => q.ifp.axes.any fun a => a.mech == m && a.port == n | none => false

/-- The warden's mechanisms of a list held until their partition is stopped and started again (R334). -/
def State.portHolds (s : State) (ms : List Nat) : State := ms.foldl (fun s m => s.setWm m { s.wm m with portHold := true }) s

/-- A violation of watchdog w (R334): counted, recorded, a WATCHDOG trigger, and for a stage of the frame a fall-back decision. -/
def State.wdViolate (s : State) (w code stamp : Nat) : State :=
  let stamp := tick stamp
  let s := s.setWd w { s.wd w with fault := code }
  let s := (s.inc Reg.wdnWdViol).raise isrcWATCHDOG
  if w < 8 then { s.trigger 2 stamp s.mechNums with dev := { s.dev with fall := some stamp } }
  else (s.trigger 2 stamp (s.portMechs (w - 8)) (some 0)).portHolds (s.portMechs (w - 8))

/-- Frame watchdog w expects a service for frame n of the master (R332). -/
def State.wdExpects (s : State) (w : Nat) : Bool :=
  (s.wd w).armed && s.master.any fun p => if w < 6 then s.runsHead p (s.wd w).expect else s.runsTail p (s.wd w).expect

/-- The window of frame watchdog w for the frame it expects. -/
def State.wdOpen (s : State) (w : Nat) : Nat × Nat :=
  let p := s.master.getD 0
  (s.phaseAt p (s.wd w).expect (s.wdWin w).1, s.phaseAt p (s.wd w).expect (s.wdWin w).2)

/-- A service of frame watchdog w for frame n, stamped `t` (R332, R333). -/
def State.wdServe (s : State) (w n t : Nat) : State :=
  let x := s.wd w
  let was := s.wdExpects w
  let win := s.wdOpen w
  let s := s.setWd w { x with frame := n % 65536, expect := if x.expect = n then n + 1 else x.expect }
  if !was then s
  else if x.expect ≠ n then s.wdViolate w 3 t
  else if win.1 ≤ t ∧ t < win.2 then s
  else s.wdViolate w 2 t

/-! ### Windows and network starts (R13, R221, R245, R464) -/

/-- A restart after a fall-back decision is complete once frame 0 of every restarted partition has opened (R329): WDN_STATUS leaves
FALLBACK. -/
def State.restartDone (s : State) : State :=
  if s.warden.state = .fallback ∧ s.dev.warm.isNone ∧ !s.dev.restart
      ∧ (List.range 8).all fun p => !s.running p || decide (1 ≤ (s.prun p).opened) then
    ({ s with dev := { s.dev with released := true } } : State).setWState .normal
  else s

/-- FRAME_WINDOW (R13, R245): the window of partition p's next frame opens. -/
def execFrameWindow (p late : Nat) (s : State) : Host.Outcome State Fault Refusal :=
  let n := (s.prun p).opened
  (if s.runsHead p n then
     let s := s.at (s.winStart p n + late)
     let s := (((s.setPRun p { s.prun p with opened := n + 1 }).raiseP p 1).phaseFlag p 24).restartDone
     if s.master = some p then
       [0, 1].foldl (fun s d => if s.pdUp d then s.wdServe (4 + d) n (s.winStart p n + late) else s) s
     else s
   else s).done

/-- The view of frame n that an ingest channel writes (R464). -/
def State.frameView (s : State) (n : Nat) (c : Ingest) : State :=
  let w : Int := s.winStart c.part n
  let mine := c.done.filter fun b => b.done.isSome && !b.late && decide (w - s.period c.part ≤ b.stamp) && decide (b.stamp < w)
  let slot (b : IngBuf) : Nat := b.seq % c.cfg.nbuf
  let first := match mine.head? with | some b => slot b | none => 0xFFFF
  let last := match mine.getLast? with | some b => (slot b, b.stamp) | none => (c.last, c.lastStamp)
  let b := toLE 4 n ++ toLE 2 first ++ toLE 2 mine.length ++ toLE 2 last.1 ++ toLE 2 (min 65535 c.lateNow) ++ zeros 4 ++ intLE 8 last.2 ++ zeros 40
  let c' := { c with views := (n, mine.map slot) :: c.views.take 1, last := last.1, lastStamp := last.2, lateNow := 0 }
  let s := { s with fif := { s.fif with chans := s.fif.chans.map fun (x : Ingest) => if x.part = c.part ∧ x.cfg.chan = c.cfg.chan then c' else x } }
  s.ingWrite c (c.cfg.view + 64 * (n % 2)) b
/-- NET_START (R221, R464): the FRAME networks of partition p start, its ingest channels write their views, and the master's first
class S run on each array serves its watchdog. -/
def execNetStart (p late : Nat) (s : State) : Host.Outcome State Fault Refusal :=
  let n := (s.prun p).nNet
  let q := s.pcfg p
  let t := s.phaseAt p n q.frame.netStart + late
  (if s.runsHead p n && decide (n < (s.prun p).opened) then
     let s := s.at t
     let s := s.setPRun p { s.prun p with nNet := n + 1 }
     let nets := q.nets.filter fun x => !x.tally
     let s := nets.foldl (fun s x => s.startRun p x n t) s
     let s := (s.fif.chans.filter (·.part == p)).foldl (fun s c => s.frameView n c) s
     let s := s.phaseFlag p 25
     if s.master = some p then
       [0, 1].foldl (fun s d => if s.arrUp d && nets.any (fun x => x.cls == clsS && x.onDie d) then s.wdServe d n t else s) s
     else s
   else s).done

/-- OUT (R245): the setpoints of partition p's frame begin to leave. -/
def execOut (p : Nat) (s : State) : Host.Outcome State Fault Refusal :=
  let n := (s.prun p).nOut
  (if s.runsTail p n && decide (n < (s.prun p).opened) then
     let s := s.at (s.phaseAt p n (s.pcfg p).frame.out)
     (s.setPRun p { s.prun p with nOut := n + 1 }).phaseFlag p 30
   else s).done

/-! ### The field build (R69 to R91) -/

/-- The builder of index g is in service (R90). -/
def State.builderUp (s : State) (g : Nat) : Bool := s.pdUp (g / 8) && s.healthy (unitId (g / 8) (80 + g % 8))

/-- The builder that builds the bricks of index g: the next in service from g on (R90). -/
def State.builderOf (s : State) (g : Nat) : Option Nat := ((List.range 16).map fun i => (g + i) % 16).find? s.builderUp

/-- A store's run state replaced. -/
def State.setStore (s : State) (g : Nat) (x : StoreSt) : State := { s with fld := { s.fld with stores := listSet s.fld.stores g x } }

/-- The store of cluster g as a reader of a parity sees it. -/
def State.fview (s : State) (g par : Nat) : FieldView :=
  { mem := s.mem, base := storeBase g, par, nx := s.cfg.lay.nx, ny := s.cfg.lay.ny, nz := s.cfg.lay.nz, margin := s.cfg.lay.margin,
    psn := s.psn }

/-- The lowest store that holds the epoch in force. -/
def State.refStore (s : State) : Option Nat :=
  (List.range 16).find? fun g => s.storeUp g && !(s.fstore g).excluded && s.fld.valid

/-- The DONE word of bank q of a die's ring is signalled: its monitor has fired since the bank was last checked (R275). -/
def State.doneFired (s : State) (d q : Nat) : Bool :=
  s.sync.mons.any fun m => m.fired && (match m.use with | .done _ _ => true | _ => false) && m.word == TWord.mem (ringDone s.cfg.lay d q)

/-- The DONE marks of bank q cleared: the bank has been checked. -/
def State.clearDone (s : State) (q : Nat) : State :=
  let here (m : Mon) : Bool := m.word == TWord.mem (ringDone s.cfg.lay 0 q) || m.word == TWord.mem (ringDone s.cfg.lay 1 q)
  { s with sync := { s.sync with mons := s.sync.mons.map fun (m : Mon) => if here m then { m with fired := false } else m } }

/-- What the builders of die d read of bank q is poisoned (R86, R90): the header and the records, and the person table and spheres on the
die of the lead builder alone. -/
def State.bankPoison (s : State) (d q : Nat) : Bool :=
  let a := ringBank s.cfg.lay d q
  s.poisoned a 0x100 || s.poisoned (a + 0x10300) (144 * min (s.peekN (a + 4) 4) s.cfg.lay.occCap)
    || (((s.builderOf 0).getD 0) / 8 == d && s.poisoned (a + 0x100) 0x10200)

/-- A bank that a builder finds invalid (R86): COUNT above OCC_CAP, or poison in what it reads. -/
def State.bankBad (s : State) (d q : Nat) : Bool :=
  decide (s.cfg.lay.occCap < s.peekN (ringBank s.cfg.lay d q + 4) 4) || s.bankPoison d q

/-- Poison that the builders read in bank q, counted (R297). -/
def State.countBank (s : State) (q : Nat) : State :=
  [0, 1].foldl (fun s d => if s.bankPoison d q then s.inc (Reg.memPoisonConsumed (memDie (ringBank s.cfg.lay d q))) else s) s

/-- BUILD_START (R81, R86, R245): flag 26 of partition p; for the master the DONE words of the bank are checked and the build of
the next epoch starts, which serves the BUILD watchdog. -/
def execBuildStart (p late : Nat) (s : State) : Host.Outcome State Fault Refusal :=
  let n := (s.prun p).nBuild
  let c := (s.pcfg p).frame
  let t := s.phaseAt p n c.buildStart + late
  (if s.runsHead p n && decide (n < (s.prun p).opened) then
     let s := s.at t
     let s := (s.setPRun p { s.prun p with nBuild := n + 1 }).phaseFlag p 26
     if s.master = some p ∧ (s.builderOf 0).isSome then
       let q := n % 2
       let result := if !(s.doneFired 0 q && s.doneFired 1 q) then 1 else if s.bankBad 0 q || s.bankBad 1 q then 4 else 0
       let s := (if result = 4 then s.countBank q else s).clearDone q
       let f := { s.fld with stores := s.fld.stores.map fun (x : StoreSt) => { x with ready := false },
                             build := some { frame := n, b := s.phaseAt p n c.publish, epoch := (s.fld.epoch + 1) % 65536, result } }
       ({ s with fld := f } : State).wdServe 2 n t
     else s
   else s).done

/-- The records of bank q of a die's ring that a build uses: of the bank's frame, inside the declared volume (R70). -/
def State.bankRecs (s : State) (d q : Nat) : List OccRec × List OccRec :=
  let a := ringBank s.cfg.lay d q
  let f := s.peekN a 4
  let l := (List.range (min s.cfg.lay.occCap (s.peekN (a + 4) 4))).map fun i => occRecAt (s.peek (a + 0x10300 + 144 * i) 144) 0
  l.partition fun r => r.frameId == f && fbInVolume s.cfg.lay r.fb

/-- What the builders derive the epoch of bank q from (R71, R90). -/
def State.fieldIn (s : State) (q : Nat) : FieldIn :=
  { lay := s.cfg.lay, bank0 := (s.bankRecs 0 q).1, bank1 := (s.bankRecs 1 q).1,
    dieOf := (List.range 16).map fun g => (s.builderOf g).getD 0 / 8 }

/-- Records ignored and codes 3 of the bricks that the builders of a die build (R70). -/
def State.occErrs (s : State) (f : FieldIn) (d q : Nat) : Nat :=
  let mine (r : OccRec) : Bool := f.dieOf.getD (mbOfFb r.fb % 16) 0 == d
  let b := s.bankRecs d q
  (b.2.filter mine).length + ((b.1.filter mine).map fun r => ((List.range 512).filter fun n => r.code n == 3).length).sum

/-- The writes of a build and what it reports (R83, R87 to R92). -/
structure Sealed where
  items  : List (Nat × List Byte)
  build  : FldBuild
  deriving DecidableEq, Repr

/-- The build of the bank that the master frame of `b` reads, computed whole: the placement against the last published epoch, the
masks, the person table and the spheres of the lead builder's ring. -/
def State.sealBuild (s : State) (b : FldBuild) : Sealed :=
  let q := b.frame % 2
  let f := s.fieldIn q
  let par := b.epoch % 2
  let g := s.refStore
  let old := g.map fun g => s.fview g (s.fld.epoch % 2)
  let pl := placeAll f old par s.fld.budget
  let g0 := g.getD (((List.range 16).find? s.storeUp).getD 0)
  let new := { s.fview g0 par with mem := applyItems s.mem (storeBase g0) pl.items.reverse }
  let ms := match old with | some v => diffMasks f.lay v new | none => firstMasks f.lay new
  let lead := (s.builderOf 0).getD 0
  let bank := ringBank f.lay (lead / 8) q
  let persons := s.peek (bank + 0x100) 512
  { items := pl.items.reverse ++ ms.items ++ [(stPersons par, persons), (stSpheres par, s.peek (bank + 0x300) 65536)],
    build := { b with
      sealed := true, total := pl.total, new := pl.new, cMid := pl.coarsenedMid, cFine := pl.coarsenedFine, dMid := ms.mid,
      dFine := ms.fine, humans := (validPersons persons).length,
      occErr := s.occErrs f 0 q + s.occErrs f 1 q + badPersons persons } }

/-- The items of a build written to a store (R80, R83). -/
def State.writeItems (s : State) (items : List (Nat × List Byte)) (g : Nat) : State :=
  items.foldl (fun s e => s.store (storeBase g + e.1) e.2) s

/-- BUILD_SEAL (R90, R91): the lead builder seals the build by B − 2 µs; every store that takes part has received it, and those not
in `bad` have a sum that matches its digest. A store without the epoch before it is not READY. -/
def execBuildSeal (bad : List Nat) (t : Nat) (s : State) : Host.Outcome State Fault Refusal :=
  let s := s.at t
  (match s.fld.build with
   | none => s
   | some b =>
     if b.sealed || b.result != 0 || decide (b.b < s.time + 2000) then s
     else if s.bankBad 0 (b.frame % 2) || s.bankBad 1 (b.frame % 2) then
       ({ s with fld := { s.fld with build := some { b with result := 4 } } } : State).countBank (b.frame % 2)
     else
       let x := s.sealBuild b
       let up := (List.range 16).filter s.storeUp
       let s := up.foldl (State.writeItems · x.items) { s with fld := { s.fld with build := some x.build } }
       up.foldl (fun s g =>
         let y := s.fstore g
         s.setStore g { y with ready := !bad.contains g && (!y.excluded || y.copied) }) s).done

/-- SEAL_DEADLINE (R86): at B − 2 µs a build not sealed is not to be published. -/
def execSealDeadline (s : State) : Host.Outcome State Fault Refusal :=
  (match s.fld.build with
   | none => s
   | some b =>
     let s := s.at (b.b - 2000)
     if b.sealed || b.result != 0 then s else { s with fld := { s.fld with build := some { b with result := 2 } } }).done

/-- The stores judged (R91): one that takes part, holds the epoch before and is not READY is excluded, counted and recorded; with
none READY the build counts as unpublished. -/
def State.judgeStores (s : State) (b : FldBuild) (t : Nat) : State :=
  let out := (List.range 16).filter fun g => s.storeUp g && !(s.fstore g).ready && !((s.fstore g).excluded && !(s.fstore g).copied)
  let s := out.foldl (fun s g =>
    (s.inc (Reg.fldReplicaErr (g / 8) (g % 8))).event { kind := ekREPLICA, unit := unitId (g / 8) (96 + g % 8), t }) s
  let any := (List.range 16).any fun g => s.storeUp g && (s.fstore g).ready
  { s with fld := { s.fld with build := some { b with judged := true, result := if any then b.result else 3 } } }

/-- READY_DEADLINE (R91): at B − 1 µs the stores are judged. -/
def execReadyDeadline (s : State) : Host.Outcome State Fault Refusal :=
  (match s.fld.build with
   | none => s
   | some b =>
     let s := s.at (b.b - 1000)
     if b.sealed && b.result == 0 && !b.judged then s.judgeStores b (b.b - 1000) else s).done

/-! ### Check windows closed and opened (R22, R23, R145, R178, R179) -/

/-- The frames of p at a boundary: the one whose check window opens. -/
def State.openingFrame (s : State) (p b : Nat) : Option Nat := s.checkFrame p b

/-- A slot truncated at the close of its window (R145). -/
def CSlot.truncate (x : CSlot) : CSlot :=
  { x with ph := .done, verdict := forcedVerdict vfTRUNCATED x.candId x.ctx x.epoch [(vfDEGRADED, x.hand.any (·.degraded))] }

/-- A slot that holds a candidate of a row: lattice or hand-off work. -/
def CSlot.inRow (x : CSlot) : Bool := x.item.kind == tkLATTICE || x.item.kind == ikHANDOFF

/-- A verdict written to a slot of core k, counted by its flags (registers of 05_collision_checking.md). -/
def State.countVerdict (s : State) (k : Nat) (v : Verdict) : State :=
  let d := k / 64
  [(vfCOLLIDED, Reg.prbCollidedCount d), (vfTRUNCATED, Reg.prbTruncCount d), (vfCAP, Reg.prbCapCount d),
   (vfPLAN_STALE, Reg.prbPlanStale d), (vfPOISON, Reg.prbPoisonCount d), (vfHUMAN_NEAR, Reg.prbNearCount d)].foldl
    (fun s e => if v.has e.1 then s.inc e.2 else s) (s.add64 (Reg.prbVerdictLo d) 1)

/-- The check window of an epoch closes on core k (R145): every slot without a verdict is truncated. Those of commit and confirmation work
whose round has ended are taken at once by the commit stage, which waits for them no longer. -/
def State.closeCore (s : State) (k : Nat) : State :=
  let c := s.core k
  let cut := c.slots.filter fun x => decide (x.ph ≠ .done)
  let s := cut.foldl (fun s x => s.countVerdict k x.truncate.verdict) s
  let s := s.setCore k { c with
    slots := (c.slots.filter (·.inRow)).map fun x => if x.ph = .done then x else x.truncate
    cache := [], strain := [], boxes := none }
  cut.foldl (fun s x => s.tdc x.item.part x.frame 0) s

/-- The goal block of mechanism m of partition p for frame n (R178, R179): the block in force, or the default, which is counted on
each die that holds cores of p. -/
def State.readGoal (s : State) (p n m : Nat) : State × Goal :=
  let q := s.pcfg p
  let base := (s.prun p).goalBase
  let a := base + 0x800 * (n % 2) + 0x80 * m
  let miss (s : State) : State := [0, 1].foldl (fun s d => if (q.coresOn d).isEmpty then s else s.inc (Reg.cstGoalMiss d)) s
  if base % 4096 ≠ 0 ∨ !(q.inUnits base 4096) then (miss s, {})
  else if s.poisoned a 128 then (miss (s.inc (Reg.memPoisonConsumed (memDie a))), {})
  else match decGoal (s.peek a 128) (n % 2 ^ 32) m with
    | some g => (s, g)
    | none => (miss s, {})

/-- The goal blocks of partition p read at the opening of frame n's check window; those of the frame before stay for its verdicts. -/
def State.readGoals (s : State) (p n : Nat) : State :=
  let r := ((s.pcfg p).mechs.map (·.num)).foldl (fun (acc : State × List (Nat × Nat × Goal)) m =>
    let (s, g) := acc.1.readGoal p n m
    (s, acc.2 ++ [(n, m, g)])) (s, [])
  let x := r.1.prun p
  r.1.setPRun p { x with
    goals := r.2 ++ (x.goals.filter fun e => e.1 + 1 == n)
    epochs := (n, s.fld.epoch) :: x.epochs.take 1 }

/-! ### Publish (R82 to R86, R91, R132, R307) -/

/-- The epoch control word of R84. -/
def controlWord (epoch : Nat) : Nat := epoch + epoch % 2 * 2 ^ 16 + 2 ^ 18

/-- A store's control word written with CLOSED set and the rest as it stands (R86, R91). -/
def State.closeStore (s : State) (g : Nat) : State :=
  s.shut g

/-- The control word of one store at a publish (R84, R91): a READY store takes the epoch, any other that is awake is excluded and
receives a full copy, a sleeping one keeps its word (R300). -/
def State.publishStore (s : State) (epoch g : Nat) : State :=
  if !s.storeUp g then s.setStore g ({ excluded := true } : StoreSt)
  else if (s.fstore g).ready then (s.store (storeBase g + stControl) (toLE 8 (controlWord epoch))).setStore g ({} : StoreSt)
  else (s.closeStore g).setStore g ({ excluded := true, copying := true } : StoreSt)

/-- The build of `b` published at B (R82, R84, R96, R307). -/
def State.publishBuild (s : State) (b : FldBuild) : State :=
  let s := (List.range 16).foldl (fun s g => s.publishStore b.epoch g) s
  let s := { s with fld := { s.fld with
      epoch := b.epoch, valid := true, closed := false, pubB := b.b, frame := b.frame, total := b.total, new := b.new, cMid := b.cMid,
      cFine := b.cFine, dMid := b.dMid, dFine := b.dFine, humans := b.humans, result := 0, resEpoch := b.epoch, build := none } }
  let s := (s.inc (Reg.fldCoarsenTotal 0) b.cFine).inc (Reg.fldOccErr 0) b.occErr
  { s with parts := s.parts.map fun (x : PRun) =>
      if x.st = .running ∧ !x.restart ∧ !x.resetting ∧ x.runEpoch.isNone then { x with runEpoch := some b.epoch } else x }

/-- The boundary B closes without publish (R86): CLOSED in every store that is awake, the counts, the record, and each frame that
loses its admission or its commit charged once. -/
def State.skipBuild (s : State) (b : FldBuild) (t : Nat) : State :=
  let s := ((List.range 16).filter s.storeUp).foldl State.closeStore s
  let s := { s with fld := { s.fld with closed := true, result := b.result, resEpoch := b.epoch, build := none,
                                        stores := s.fld.stores.map fun (x : StoreSt) => { x with ready := false } } }
  let s := (((s.inc (Reg.fldLateCount 0)).inc (Reg.fldOccErr 0) b.occErr).event { kind := ekBUILD_LATE, t }).raise isrcBUILD_LATE
  s.mechParts.foldl (fun s p =>
    match s.openingFrame p b.b with
    | none => s
    | some n =>
      let s := if s.runsTail p n then s.tdc p n 1 else s
      if 0 < n ∧ s.runsTail p (n - 1) then s.tdc p (n - 1) 1 else s) s

/-- An item of a commit try or a confirmation. -/
def Item.ofTry (i : Item) : Bool := decide (ikREPLAY ≤ i.kind) && decide (i.kind ≤ ikREPEAT)

/-- Items of tries and confirmations that no core has drawn, dropped with their epoch. -/
def SchedDie.dropTries (d : SchedDie) : SchedDie :=
  { d with commitQ := d.commitQ.filter (!·.ofTry), slots := d.slots.map fun l => l.filter (!·.ofTry) }

/-- What the close of one check window and the opening of the next bring, published or not. -/
def State.turnWindows (s : State) (t : Nat) : State :=
  let s := (List.range 128).foldl State.closeCore s
  { s with sched := s.sched.map SchedDie.dropTries }.allUnresolved t

/-- A RUNNING partition has its phase point PUBLISH at an instant (R245): that of one that defines mechanisms is the master's (R81). -/
def State.publishesAt (s : State) (p b : Nat) : Bool :=
  let x := s.phaseAt p 0 (s.pcfg p).frame.publish
  s.running p && s.period p != 0 && decide (x ≤ b) && (b - x) % s.period p == 0

/-- PUBLISH (R22, R84, R86, R245): the boundary of the master's next frame. -/
def execPublish (late : Nat) (s : State) : Host.Outcome State Fault Refusal :=
  (match s.master with
   | none => s
   | some p =>
     let n := s.fld.nPub
     if s.runsHead p n && decide (n < (s.prun p).opened) then
       let bAt := s.phaseAt p n (s.pcfg p).frame.publish
       let s := s.at (bAt + late)
       let s := { s with fld := { s.fld with nPub := n + 1 } }
       let b0 : FldBuild := { frame := n, b := bAt, epoch := (s.fld.epoch + 1) % 65536, result := 2 }
       let b := match s.fld.build with | some b => if b.frame = n then b else b0 | none => b0
       let b := if b.result = 0 ∧ !b.sealed then { b with result := 2 } else b
       let s := if b.result = 0 ∧ !b.judged then s.judgeStores b (bAt - 1000) else { s with fld := { s.fld with build := some b } }
       let b := s.fld.build.getD b
       let s := s.turnWindows bAt
       let s := s.wdServe 3 n (bAt - 8 + late)
       if b.result = 0 then
         let s := s.publishBuild b
         let s := s.mechParts.foldl (fun (s : State) (p : Nat) =>
           match s.openingFrame p bAt with
           | some m => (if s.runsTail p m then s.readGoals p m else s)
           | none => s) s
         ((List.range 8).filter fun p => s.publishesAt p bAt).foldl (fun s p => s.phaseFlag p 27) s
       else s.skipBuild b bAt
     else s).done

/-! ### Person boxes and store copies (R91, R132, R300) -/

/-- PERSON_BOX_BUILD (R132): a core's boxes stand for the epoch; in a cluster whose store is excluded the reads return STALE
(R85). -/
def execPersonBoxBuild (core t : Nat) (s : State) : Host.Outcome State Fault Refusal :=
  let s := s.at t
  (if core < 128 ∧ s.coreEn core ∧ s.pdUp (core / 64) ∧ s.fld.valid then
     if s.storeServes core then s.setCore core { s.core core with boxes := some s.fld.epoch }
     else s.inc (Reg.fldStaleCount (core / 64) (core / 8 % 8))
   else s).done

/-- A store's bytes and poison copied whole from another, the control word apart (R91). -/
def State.copyStore (s : State) (src dst : Nat) : State :=
  let a := storeBase src; let b := storeBase dst; let n := 0x1800000
  let w := s.peek (b + stControl) 8
  let from_ := s.mem.filter fun e => decide (a ≤ e.1) && decide (e.1 < a + n)
  let bad := s.psn.filter fun e => decide (a ≤ 64 * e.1) && decide (64 * e.1 < a + n)
  let m := from_.foldl (fun (m : Tab Byte) (e : Nat × Byte) => m.set 0#8 (e.1 - a + b) e.2) (s.mem.clear b (b + n))
  let p := bad.foldl (fun (m : Tab Bool) (e : Nat × Bool) => m.set false (e.1 - a / 64 + b / 64) e.2) (s.psn.clear (b / 64) ((b + n) / 64))
  ({ s with mem := m, psn := p } : State).poke (b + stControl) w

/-- STORE_COPY (R91, R300): a store that receives a full copy of the epoch in force has it, and its digest matches or not. Where the next
epoch's build is sealed, the copy holds its items too, and the store is READY for that publish. -/
def execStoreCopy (store : Nat) (ok : Bool) (t : Nat) (s : State) : Host.Outcome State Fault Refusal :=
  let s := s.at t
  (if (s.fstore store).copying && s.storeUp store then
     match s.refStore with
     | some g =>
       let s := s.copyStore g store
       if ok then s.setStore store { s.fstore store with copying := false, copied := true, ready := s.fld.build.any (·.sealed) } else s
     | none => s
   else s).done

/-! ### Last admission (R23, R105, R246) -/

/-- Candidate work of partition p, of frames up to n: LATTICE items, and slots of a retired core admitted again (R379). -/
def Item.ofRow (i : Item) (p n : Nat) : Bool := i.part == p && (i.kind == tkLATTICE || i.kind == ikHANDOFF) && decide (i.frame ≤ n)

/-- That work which a die's queues still hold. -/
def SchedDie.latticeLeft (d : SchedDie) (p n : Nat) : List Item :=
  let mine (i : Item) : Bool := i.ofRow p n
  d.commitQ.filter mine ++ (d.groups.flatMap fun g => g.items.filter mine) ++ (d.slots.flatMap fun l => l.filter mine) ++ (d.tasks.flatMap fun t => t.backlog.filter mine)

/-- That work dropped. -/
def SchedDie.dropLattice (d : SchedDie) (p n : Nat) : SchedDie :=
  let x := d.without fun i => i.ofRow p n
  { x with tasks := x.tasks.map fun t =>
      { t with await := if t.part = p ∧ t.await.any (fun a => decide (a.1 ≤ n)) then none else t.await } }

/-- Items still queued at the end of admission discarded (R246), with one trace record for each task that loses items (R261). -/
def State.discardLattice (s : State) (p n : Nat) : State :=
  [0, 1].foldl (fun s d =>
    let l := (s.sch d).latticeLeft p n
    let s := s.setSch d ((s.sch d).dropLattice p n)
    let s := s.inc (Reg.schDiscard d) l.length
    let tasks := (l.map (·.task)).eraseDups
    let s := tasks.foldl (fun s u =>
      let mine := l.filter (·.task == u)
      s.trace d 0x08 0xFF (mine.headD {}) mine.length) s
    (if l.isEmpty then s else s.tdc p n 0).resume d) s

/-- Contexts without the frame's start state at the end of admission (R105). -/
def State.countUnbound (s : State) (p n : Nat) : State :=
  let q := s.pcfg p
  ((q.mechs.flatMap fun m => (List.range m.ctxCount).map (· + m.ctxFirst)).filter fun x => !s.bound x n).foldl
    (fun s x => (s.inc (Reg.swpUnboundCount (x / 8192))).tdc p n 0) s

/-- LAST_ADMISSION (R23, R105, R246): 1 µs before the check window of p's next frame closes. -/
def execLastAdmission (p : Nat) (s : State) : Host.Outcome State Fault Refusal :=
  let n := (s.prun p).nAdm
  let c := (s.pcfg p).frame
  (if s.runsTail p n && decide (n < (s.prun p).opened) then
     let s := s.at (s.phaseAt p n (c.publish + c.P) - 1000)
     let s := s.setPRun p { s.prun p with nAdm := n + 1 }
     (s.discardLattice p n).countUnbound p n
   else s).done

end Sys2Proof.Machine
end

