-- ==== Sys2Proof/Machine/CandFam.lean ====
section
/-! DEFINITION. The candidates' way through the cores: admission, fetch, binding, check and verdict
(04_candidate_generation.md, 05_collision_checking.md), scoring, reduction and the merge of the partial lists
(07_selection_and_commit.md). -/

namespace Sys2Proof.Machine

/-! ### Admission (R23, R143, R144, R250, R251) -/

/-- The slot numbers in use are fewer than 512: the least free one. -/
def CoreSt.freeNo (c : CoreSt) : Nat := ((List.range 512).find? fun n => !(c.slots.any (·.n == n))).getD 0

/-- HBM fetch lines outstanding. -/
def CoreSt.lines (c : CoreSt) : Nat := ((c.slots.filter fun (y : CSlot) => decide (y.ph = SlotPh.fetch)).map (·.lines)).sum

/-- A free slot for a class (R251): the last four are for class S. -/
def CoreSt.roomFor (c : CoreSt) (cls : Nat) : Bool := decide (c.slots.length < if cls = clsS then 512 else 508)

/-- Core k's engines run and its domain is on. -/
def State.coreRuns (s : State) (k : Nat) : Bool := decide (k < 128) && s.coreUp k && decide ((s.dom k).st = .on)

/-- The check window of the epoch in force is frame n's for partition p, which checks it (R65), and core k's store serves it (R22,
R91). -/
def State.inWindow (s : State) (k p n : Nat) : Bool := s.storeServes k && s.checkFrame p s.time == some n && s.runsTail p n

/-- The lines of a primitive of mechanism m (R144). -/
def State.primLines (s : State) (q : PartCfg) (m : Mech) : Nat := (s.lattice q m).2.stride / 64

/-- The device address of a primitive of mechanism m. -/
def State.primAt (s : State) (q : PartCfg) (m : Mech) (p : Nat) : Nat :=
  let (body, l) := s.lattice q m
  body + primOff l.classes l.stride p

/-- The hand-off record at an address. -/
def State.handAt (s : State) (a : Nat) : HandRec := decHandRec (s.peek a 512)

/-- The slot of one candidate of an item (R143): `id` its candidate ID. One at or above 2³¹ is a hand-off record, which takes no
HBM lines. -/
def State.slotFor (s : State) (k : Nat) (i : Item) (q : PartCfg) (m : Mech) (id addr : Nat) : CSlot :=
  let hand := if 2 ^ 31 ≤ id then some (s.handAt addr) else none
  { n := (s.core k).freeNo, item := i, mech := m.num, frame := i.frame, epoch := s.fld.epoch, ctx := i.ctx, candId := id, cls := i.cls,
    addr, lines := if hand.isSome then 0 else s.primLines q m, hand, at_ := s.time }

/-- A slot taken, while a free one and the fetch credits of its lines stand; nothing otherwise. -/
def State.admitSlot (s : State) (k : Nat) (x : CSlot) : Option State :=
  let c := s.core k
  if c.roomFor x.cls && decide (c.lines + x.lines ≤ 256) then some (s.setCore k { c with slots := c.slots ++ [x] }) else none

/-- The dispatch slot of core k with its head entry replaced or gone. -/
def State.setHead (s : State) (k : Nat) (h : Option Item) : State :=
  let d := k / 64
  let x := s.sch d
  let l := (x.slots.getD (k % 64) []).drop 1
  s.setSch d { x with slots := listSet x.slots (k % 64) (match h with | some i => i :: l | none => l), idle := [] }

/-- The head entry of core k's slot in service. -/
def State.serveHead (s : State) (k : Nat) (i : Item) : State :=
  let s := s.setHead k none
  s.setSch (k / 64) { s.sch (k / 64) with busy := (s.sch (k / 64)).busy ++ [(k, i)] }

/-- The next candidate of a LATTICE item: of the context's expansion (R110), or the one an item admits again (R379). -/
def State.nextCand (s : State) (i : Item) (q : PartCfg) (m : Mech) : Option (Nat × Nat) :=
  if i.grp = 0xFF then some (i.first, i.arg)
  else ((s.expand q m i.ctx)[i.first]?).map fun p => (p, s.primAt q m p)

/-- One candidate drawn from a LATTICE entry at the head of core k's slot. -/
def State.drawLattice (s : State) (k : Nat) (i : Item) : State :=
  let q := s.pcfg i.part
  match q.mechOf i.ctx with
  | none => s
  | some m =>
    if decide (i.epoch = s.fld.epoch) && s.inWindow k i.part i.frame && decide ((s.prun i.part).nAdm ≤ i.frame) then
      match s.nextCand i q m with
      | none => s.serveHead k i
      | some (id, addr) =>
        match s.admitSlot k (s.slotFor k i q m id addr) with
        | none => s
        | some s' =>
          if 1 < i.n then s'.setHead k (some { i with first := i.first + 1, n := i.n - 1, cost := i.cost - 1 })
          else if i.grp = 0xFF then s'.setHead k none
          else s'.serveHead k { i with first := i.first + 1, n := 0 }
    else s

/-- A candidate of a commit try, a confirmation, or a hand-off admitted again: one slot. -/
def State.drawTry (s : State) (k : Nat) (i : Item) : State :=
  let q := s.pcfg i.part
  match q.mechOf i.ctx with
  | none => s
  | some m =>
    if !s.storeServes k then s else
    match s.admitSlot k (s.slotFor k i q m i.first i.arg) with
    | none => s
    | some s' => s'.setHead k none

/-- A whole item of another kind drawn (R242, R250, R292, R437, R465): a DMA chain or a host COPY takes the core's idle DMA engine, an
ingest buffer enters service, a self-test slice is asked for. -/
def State.drawWhole (s : State) (k : Nat) (i : Item) : State :=
  if i.kind = tkDMA ∨ i.kind = tkHOST then
    let c := s.core k
    if c.dma.item.isSome then s
    else (s.setCore k { c with dma := { item := some i, desc := i.arg, from_ := i.arg } }).serveHead k i
  else if i.kind = tkINGEST then
    ({ s with fif := { s.fif with chans := s.fif.chans.map fun (c : Ingest) =>
        if c.part = i.part ∧ c.cfg.task = i.task then { c with service := c.service ++ [i.arg] } else c } } : State).serveHead k i
  else if i.kind = tkSELFTEST then
    let r := s.rots.getD (k / 64) {}
    ({ s with rots := listSet s.rots (k / 64) { r with asked := r.asked ++ [(k % 64, i.arg)] } } : State).serveHead k i
  else s.serveHead k i

/-- The first hand-off record that waits at core k, as a class S or Q candidate of its partition (R111, R152). A record of another
frame takes its slot too: the sweep engine discards it. -/
def State.drawHand (s : State) (k a : Nat) : Option State :=
  let h := s.handAt a
  match s.cfg.ctxPart h.ctx with
  | none => none
  | some q =>
    match q.mechOf h.ctx, s.checkFrame q.num s.time with
    | some m, some n =>
      let i : Item := { part := q.num, cls := sOrQ q.pr.classes, kind := ikHANDOFF, frame := n, ctx := h.ctx, first := 2 ^ 31 + h.seq,
                        n := 1, arg := a }
      if s.inWindow k q.num n && decide ((s.prun q.num).nAdm ≤ n) && s.takesKind k ikHANDOFF then
        (s.admitSlot k (s.slotFor k i q m i.first a)).map fun s =>
          s.setCore k { s.core k with handQ := (s.core k).handQ.drop 1 }
      else none
    | _, _ => none

/-- What admission draws next on core k: a waiting hand-off record, else the head entry of its dispatch slot. -/
def State.drawNext (s : State) (k : Nat) : State :=
  match (s.core k).handQ.head?.bind (s.drawHand k) with
  | some s' => s'
  | none =>
    match ((s.sch (k / 64)).slots.getD (k % 64) []).head? with
    | none => s
    | some i =>
      if !(s.admits i.cls && s.takesKind k i.kind) then s
      else if i.kind = tkLATTICE then s.drawLattice k i
      else if i.ofTry || i.kind == ikHANDOFF then s.drawTry k i
      else s.drawWhole k i

/-- ADMISSION (R143, R250): core k draws one candidate, or one whole item. -/
def execAdmission (core t : Nat) (s : State) : Host.Outcome State Fault Refusal :=
  let s := s.at t
  (if s.coreRuns core then s.drawNext core else s).done

/-! ### Fetch and binding (R104, R111 to R118, R142, R251) -/

/-- A slot of core k. -/
def CoreSt.slot (c : CoreSt) (n : Nat) : Option CSlot := c.slots.find? (·.n == n)

/-- A slot replaced, in its place. -/
def State.setSlot (s : State) (k : Nat) (x : CSlot) : State :=
  let c := s.core k
  s.setCore k { c with slots := c.slots.map fun y => if y.n = x.n then x else y }

/-- A slot freed: its verdict has been taken (R143). -/
def State.freeSlot (s : State) (k n : Nat) : State :=
  let c := s.core k
  s.setCore k { c with slots := c.slots.filter (·.n != n) }

/-- The flags that a candidate's kind adds to its verdict (R138). -/
def CSlot.extra (x : CSlot) : List (Nat × Bool) :=
  [(vfDEGRADED, x.hand.any (·.degraded)), (vfREPLAYED, x.item.kind == ikREPLAY), (vfRECHECK, x.item.kind == ikRECHECK)]

/-- A verdict written to a slot: DONE, and counted. -/
def State.writeVerdict (s : State) (k : Nat) (x : CSlot) (v : Verdict) : State :=
  (s.setSlot k { x with ph := .done, verdict := v }).countVerdict k v

/-- A verdict that no test made: LIMIT, POISON or TRUNCATED (R118, R140, R145). -/
def State.forceVerdict (s : State) (k : Nat) (x : CSlot) (flag : Nat) : State :=
  s.writeVerdict k x (forcedVerdict flag x.candId x.ctx x.epoch x.extra)

/-- Poison consumed by core k (R297): counted, with a record of a kind. -/
def State.consume (s : State) (k kind addr cls : Nat) (op : Nat := 0) : State :=
  (s.inc (Reg.memPoisonConsumed (k / 64))).event { kind, unit := coreUnit k, addr, cls, op, t := s.time }

/-- The lines of a slot have arrived (R118, R143): a poisoned one gives the verdict, a charge under cause 7 and a record. -/
def State.fetched (s : State) (k : Nat) (x : CSlot) : State :=
  if x.hand.isNone && s.poisoned x.addr (64 * x.lines) then
    (((s.inc (Reg.swpPoisonCount (k / 64))).consume k ekSWP_POISON x.addr x.cls (x.candId * 16384 + x.ctx)).tdc x.item.part x.frame 7).forceVerdict k
      { x with poison := true } vfPOISON
  else s.setSlot k { x with ph := .bind }

/-- An earlier candidate of the core awaits its lines from the same stack, which answers a core in arrival order (R144). -/
def CoreSt.fetchesBefore (c : CoreSt) (x : CSlot) : Bool :=
  (c.slots.takeWhile fun (y : CSlot) => y.n != x.n).any fun y =>
    decide (y.ph = SlotPh.fetch) && y.hand.isNone && x.hand.isNone && memDie y.addr == memDie x.addr

/-- PRIMITIVE_FETCH (R118, R143, R144): the primitive lines of a slot have arrived, in arrival order per core and stack. -/
def execPrimitiveFetch (core slot t : Nat) (s : State) : Host.Outcome State Fault Refusal :=
  let s := s.at t
  (match (s.core core).slot slot with
   | none => s
   | some x => if s.coreRuns core ∧ x.ph = SlotPh.fetch ∧ !(s.core core).fetchesBefore x then s.fetched core x else s).done

/-- The joint values of a slot's poses 0 to 8 (R113): pose 0 is the start state. -/
def State.posesOf (s : State) (m : Mech) (x : CSlot) : List (List FV) :=
  let b := s.startBlk x.ctx
  let q0 := (b.q0.take m.axes).map (fOfBits f32)
  match x.hand with
  | some h => q0 :: (List.range 8).map fun k => h.pose m.axes (k + 1)
  | none =>
    let inc := words (s.peek (s.lattice (s.pcfg x.item.part) m).1 48) 0 12
    let p := decPrim (s.peek x.addr (64 * x.lines)) m.axes
    q0 :: (List.range 8).map fun k => latticeQ m p inc b.q0 (k + 1)

/-- SWEEP_PAD and COST_SEED of a slot's candidate (R109, R111). -/
def State.padSeed (s : State) (m : Mech) (x : CSlot) : Nat × Nat :=
  match x.hand with
  | some h => (h.sweepPad, h.costSeed)
  | none => let p := decPrim (s.peek x.addr (64 * x.lines)) m.axes; (p.sweepPad, p.costSeed)

/-- The item is a confirmation of a try, whose joint values are those of the try: the start block may hold the next frame's
state by now (R193, R375). -/
def CSlot.confirms (x : CSlot) : Bool := x.item.kind == ikCONFIRM || x.item.kind == ikREPEAT

/-- The joint values of a confirmation's candidate. -/
def State.confPoses (s : State) (x : CSlot) : List (List FV) :=
  match s.errs.confs.find? fun c => c.mech == x.mech && c.candId == x.candId && c.ctx == x.ctx with | some c => c.poses | none => []

/-- The issue cycles that n lane operations add (R119): those of consecutive candidates share the cycle that the last one leaves partly
filled. It answers the operations of the last cycle. -/
def issueCycles (o n : Nat) : Nat × Nat := (cdiv (o + n) 64 - cdiv o 64, (o + n) % 64)

/-- A candidate's issue in core k's sweep engine counted (R119). -/
def State.countIssue (s : State) (k : Nat) (m : Mech) : State :=
  let c := s.core k
  let r := issueCycles c.ops (8 * laneOps m)
  (((s.setCore k { c with ops := r.2 }).add64 (Reg.swpCandLo (k / 64)) 1).add64 (Reg.swpCoreCandLo k) 1).add64 (Reg.swpCoreIssueLo k) r.1

/-- The placed spheres of a slot's poses 1 to 8, none on a limit failure (R113, R118). -/
def State.placeOf (s : State) (x : CSlot) (m : Mech) : Option (List (List PSph)) :=
  sweep m s.cfg.lay (s.padSeed m x).1 (x.poses.drop 1)

/-- A candidate placed: a limit failure passes straight to the verdict (R118). -/
def State.toCheck (s : State) (k : Nat) (x : CSlot) (m : Mech) : State :=
  let x := { x with ph := SlotPh.check, at_ := s.time }
  if (s.placeOf x m).isNone then (s.inc (Reg.swpLimitCount (k / 64))).forceVerdict k x vfLIMIT else s.setSlot k x

/-- A candidate in the sweep engine (R113, R118, R119): counted; a poisoned start block, like a limit failure, gives the verdict. -/
def State.swept (s : State) (k : Nat) (x : CSlot) (m : Mech) : State :=
  let s := s.countIssue k m
  if x.confirms then s.toCheck k { x with poses := s.confPoses x } m
  else if s.poisoned (ctxBase x.ctx) 128 then
    ((s.consume k ekPOISON (ctxBase x.ctx) x.cls).tdc x.item.part x.frame 7).forceVerdict k x vfPOISON
  else s.toCheck k { x with poses := s.posesOf m x, seed := (s.padSeed m x).2 } m

/-- A hand-off record whose frame is not the check window's (R111). -/
def CSlot.staleHand (x : CSlot) : Bool := x.item.kind == ikHANDOFF && x.hand.any fun h => h.frameId != x.frame % 2 ^ 32

/-- SWEEP_ENTRY (R104, R111, R142, R150, R251, R357): a bound candidate of a partition whose plan table stands enters the sweep engine,
whose gate a self-test slice of the core holds closed. -/
def execSweepEntry (core slot t : Nat) (s : State) : Host.Outcome State Fault Refusal :=
  let s := s.at t
  let c := s.core core
  (match c.slot slot, (c.slot slot).bind fun x => (s.pcfg x.item.part).mechOf x.ctx with
   | some x, some m =>
     if !(s.coreRuns core) || decide (x.ph ≠ SlotPh.bind) || s.slicing (core / 64) (core % 64) then s
     else if x.staleHand then (s.inc (Reg.swpStaleHandoff (core / 64))).freeSlot core slot
     else if (x.confirms || s.bound x.ctx x.frame) && (s.prun x.item.part).plan && decide ((c.slots.filter fun (y : CSlot) => decide (y.ph = SlotPh.check)).length ≤ 1)
         && (x.cls == clsS || !(c.slots.any fun y => decide (y.ph = SlotPh.bind) && y.cls == clsS && (y.confirms || s.bound y.ctx y.frame))) then
       s.swept core x m
     else s
   | _, _ => s).done

/-! ### The verdict (R85, R117, R124 to R141, R147) -/

/-- The start of the plan of frame n of partition p, b_n (R20). -/
def State.bOf (s : State) (p n : Nat) : Nat := s.phaseAt p n (s.pcfg p).frame.out

/-- The window start of the master frame that built the epoch in force. -/
def State.epochStart (s : State) : Nat := s.fld.pubB - (s.cfg.master.map fun q => q.frame.publish * 1000).getD 0

/-- The bytes of a plan block (R134). -/
def planAddr (k frame m j : Nat) : Nat := padBase k + 0xD8000 + frame % 2 * 0x14000 + 320 * (16 * m + j)

/-- The spheres or the table entry of person p that a test in slice k reads are poisoned (R132, R140); slice 8 reads the table alone.
DESIGN CHOICE (log entry 184): a poisoned person's entry counts for every candidate that comes to its tests, whether or not it is VALID. -/
def State.personBad (s : State) (g par p k : Nat) : Bool :=
  let tab := storeBase g + stPersons par + 32 * p
  let n := min 32 (s.peekN (tab + 5) 1)
  s.poisoned tab 32 || (decide (k < 8) && n != 0 && s.poisoned (storeBase g + stSpheres par + 16 * (256 * p + 32 * k)) (16 * n))

/-- What the tests of a candidate of partition p's frame n on core k read (R85, R131, R134). DESIGN CHOICE (log entry 183): a test of a plan
block reads all 320 bytes of it, so that poison anywhere in them ends the tests (R140). -/
def State.chkEnv (s : State) (k p n : Nat) : ChkEnv :=
  let g := k / 8
  let par := s.fld.epoch % 2
  { view := s.fview g par, frame := n % 2 ^ 32, persons := s.peek (storeBase g + stPersons par) 512,
    spheres := s.peek (storeBase g + stSpheres par) 65536, hbad := s.personBad g par, se := s.epochStart,
    cN := s.phaseAt p n ((s.pcfg p).frame.publish + (s.pcfg p).frame.P),
    blocks := fun m j => decPlanBlock m (s.peek (planAddr k n m j) 320) (s.poisoned (planAddr k n m j) 320) }

/-- What the translation cache holds of a mid brick: its directory half and its fine map. -/
def State.xentry (s : State) (k mb : Nat) : XEntry :=
  let v := s.fview (k / 8) (s.fld.epoch % 2)
  { epoch := s.fld.epoch, mb, half := v.rd (stMidHalf mb v.par) 4,
    fmap := if v.midSlot mb < 0xFFFE ∧ v.fmapSlot mb ≠ 0xFFFF then Sys2Proof.Machine.peek v.mem (v.base + stSlot (v.fmapSlot mb)) 128 else [] }

/-- One look-up of the Strainer's cache (R147): a miss takes an entry, which of a full cache's is not stated. -/
def State.slook (s : State) (k line : Nat) : State :=
  let c := s.core k
  if c.strain.any fun e => e.epoch == s.fld.epoch && e.line == line then s
  else
    let e : SEntry := { epoch := s.fld.epoch, line, data := s.peek (storeBase (k / 8) + 64 * line) 64 }
    if c.strain.length < 64 then s.setCore k { c with strain := e :: c.strain }
    else { s with fresh := s.fresh + 1 }.setCore k { c with strain := e :: c.strain.eraseIdx (Config.xlatVictim s.fresh % 64) }

/-- One look-up of the translation cache (R147): a miss takes an entry, which of a full cache's is not stated. -/
def State.xlat (s : State) (k mb : Nat) : State :=
  let c := s.core k
  let e := s.xentry k mb
  if c.cache.any fun x => x.epoch == s.fld.epoch && x.mb == mb then s
  else
    let s := (s.add64 (Reg.prbXlatMissLo (k / 64)) 1).inc (Reg.prbCoreMiss k)
    if c.cache.length < 128 then s.setCore k { c with cache := e :: c.cache }
    else { s with fresh := s.fresh + 1 }.setCore k { c with cache := e :: c.cache.eraseIdx (Config.xlatVictim s.fresh % 128) }

/-- What the tests of a candidate count. -/
def State.countTests (s : State) (k : Nat) (a : Acc) : State :=
  let d := k / 64
  let s := ((s.add64 (Reg.stnSpheresLo d) a.spheres).add64 (Reg.stnAcceptCLo d) a.acceptC).add64 (Reg.stnAcceptMLo d) a.acceptM
  let s := ((s.add64 (Reg.stnForwardLo d) a.forward).add64 (Reg.prbFineLo d) a.fine).add64 (Reg.prbAnalyticLo d) a.analytic
  let s := if a.negative then { s with fld := { s.fld with fmtErr := s.fld.fmtErr + 1 } } else s
  let s := a.mids.reverse.foldl (fun s b => s.xlat k b) (s.add64 (Reg.prbCoreFineLo k) a.fine)
  a.lines.reverse.foldl (fun s l => s.slook k l) s

/-- The sampled poses of a candidate with their times (R117). -/
def State.timed (s : State) (p n durUs : Nat) (l : List (List PSph)) : List (Int × List PSph) :=
  l.zipIdx.map fun e => (((s.bOf p n + (e.2 + 1) * durUs * 125 : Nat) : Int), e.1)

/-- A candidate's verdict (R118, R139, R140): limit failure, or the tests in order. -/
def State.judge (s : State) (k : Nat) (x : CSlot) (m : Mech) : State :=
  match s.placeOf x m with
  | none => (s.inc (Reg.swpLimitCount (k / 64))).forceVerdict k x vfLIMIT
  | some l =>
    let a := runTests (s.chkEnv k x.item.part x.frame) m (s.timed x.item.part x.frame m.durUs l)
    let s := s.countTests k a
    let s := if a.poison then (s.consume k ekPOISON 0 x.cls).tdc x.item.part x.frame 7 else s
    s.writeVerdict k x (a.verdict x.candId x.ctx s.fld.epoch x.extra)

/-- VERDICT (R85, R132, R139, R140): the tests of a candidate in CHECK end. Its reads return STALE where the core's store does not
serve its epoch; it waits for the person boxes of the epoch. -/
def execVerdict (core slot t : Nat) (s : State) : Host.Outcome State Fault Refusal :=
  let s := s.at t
  let c := s.core core
  (match c.slot slot, (c.slot slot).bind fun x => (s.pcfg x.item.part).mechOf x.ctx with
   | some x, some m =>
     if !(s.coreRuns core) || decide (x.ph ≠ SlotPh.check) then s
     else if !(s.storeServes core) || decide (x.epoch ≠ s.fld.epoch) then
       ((s.inc (Reg.fldStaleCount (core / 64) (core / 8 % 8))).tdc x.item.part x.frame 0).forceVerdict core x vfTRUNCATED
     else if c.boxes = some s.fld.epoch then s.judge core x m
     else s
   | _, _ => s).done

/-! ### Scoring (R177, R184, R443) -/

/-- The goal block of mechanism m for frame n of partition p. -/
def State.goalOf (s : State) (p n m : Nat) : Goal :=
  match (s.prun p).goals.find? fun e => e.1 == n && e.2.1 == m with | some e => e.2.2 | none => {}

/-- The start of a verdict-buffer half of core k (R184). -/
def halfBase (k half : Nat) : Nat := padBase k + 0x30000 * half

/-- Partition p traces verdicts of a source (R443): enabled, the source's bit set, the ring in its own HBM units. -/
def State.vtOn (s : State) (p src : Nat) : Bool :=
  let c := (s.rd (Reg.hifVtCtrl p)).toNat
  let a := s.rd64 (Reg.hifVtBaseLo p)
  bit c 0 && bit (bits c 10 8) src && decide (8 ≤ bits c 15 11) && decide (bits c 15 11 ≤ 24) && a % 4096 == 0
  && (s.pcfg p).inUnits a (16 * 2 ^ bits c 15 11)

/-- A verdict of mechanism m traced for partition p (R443). -/
def State.traceVerdict (s : State) (p src m : Nat) (v : Verdict) : State :=
  let c := (s.rd (Reg.hifVtCtrl p)).toNat
  if s.vtOn p src && bit (bits c 31 16) m && v.candId % 2 ^ bits c 7 4 == 0 then
    s.makeTrace { die := none, part := p, data := v.bytes, t := s.time }
  else s

/-- The half that takes a verdict of frame n: one of the frame with room, or an empty one. -/
def CoreSt.takesScore (c : CoreSt) (n : Nat) : Bool :=
  c.fill.getD (n % 2) 0 == 0 || (c.halfOf.getD (n % 2) 0 == n && decide (c.fill.getD (n % 2) 0 < 12288))

/-- A scored verdict appended to the half of its frame, its slot freed. -/
def State.appendScore (s : State) (k : Nat) (x : CSlot) (v : Verdict) : State :=
  let h := x.frame % 2
  let c := s.core k
  let f := c.fill.getD h 0
  let s := s.setCore k { c with slots := c.slots.filter (·.n != x.n), fill := listSet c.fill h (f + 1), halfOf := listSet c.halfOf h x.frame }
  s.store (halfBase k h + 16 * f) v.bytes

/-- COST_SCORE (R177, R184): the cost engine takes the verdict of a DONE slot. -/
def execCostScore (core slot t : Nat) (s : State) : Host.Outcome State Fault Refusal :=
  let s := s.at t
  (match (s.core core).slot slot, ((s.core core).slot slot).bind fun x => (s.pcfg x.item.part).mechOf x.ctx with
   | some x, some m =>
     if s.coreRuns core && decide (x.ph = SlotPh.done) && x.inRow && (s.core core).takesScore x.frame then
       let cost := costOf (s.goalOf x.item.part x.frame x.mech) x.verdict x.seed m.axes (x.poses.getD 8 [])
       let v := { x.verdict with cost }
       let s := s.add64 (Reg.cstScoredLo (core / 64)) 1
       let s := if cost = 0xFFFFFFFE then s.inc (Reg.cstSatCount (core / 64)) else s
       (s.appendScore core x v).traceVerdict x.item.part 0 x.mech v
     else s
   | _, _ => s).done

/-! ### Reduction and merge (R180 to R187) -/

/-- The address of core k's partial list of mechanism m for frame n (R184). -/
def partBase (k n m : Nat) : Nat := padBase k + 0x60000 + 0x2000 * (n % 2) + 0x200 * m

/-- Core k's partial list of mechanism m for frame n; none while it holds no list of that frame. -/
def State.partList (s : State) (k n m : Nat) : Option SelList :=
  let b := s.peek (partBase k n m) 512
  if leAt b 0 4 = n % 2 ^ 32 ∧ leAt b 4 1 = m ∧ leAt b 6 1 ≠ 0 then some (decList b) else none

/-- EPOCH of the check window of frame n of partition p. -/
def State.epochOf (s : State) (p n : Nat) : Nat :=
  match (s.prun p).epochs.find? (·.1 == n) with | some e => e.2 | none => s.fld.epoch

/-- Two copies of a candidate that disagree (R183, R376): one record, which names the cores of the copy kept and of the one discarded,
and one event counted against each. -/
def State.dupPair (s : State) (epoch : Nat) (e : SelEntry × SelEntry) : State :=
  let (s, n, a) := s.countOf e.1.source ekDUP_DISAGREE s.time
  let (s, b) := if e.2.source = e.1.source then (s, false) else let r := s.countOf e.2.source ekDUP_DISAGREE s.time; (r.1, r.2.2)
  let (ref, s) := s.record { kind := ekDUP_DISAGREE, act := if a || b then 6 else actOf ekDUP_DISAGREE, unit := coreUnit e.1.source, count := n,
                             time := s.time, aux := epoch % 65536 + coreUnit e.2.source * 65536, op := inputIndex e.1.v }
  let s := if a then s.lasting (.unit (coreUnit e.1.source) 0) ref s.time else s
  if b then s.lasting (.unit (coreUnit e.2.source) 0) ref s.time else s

/-- Duplicates of a merge counted on a die (R183, R376). -/
def State.countDups (s : State) (d p n : Nat) (c : DupCount) : State :=
  let s := (s.inc (Reg.selDupCount d) c.agree).inc (Reg.selSuspectCount d) c.disagree
  let s := c.pairs.foldl (State.dupPair · (s.epochOf p n)) s
  if c.pairs.isEmpty then s else s.tdc p n 7

/-- The piece of core k's half reduced for mechanism m. -/
def State.reduceMech (s : State) (k p n : Nat) (es : List SelEntry) (m : Mech) : State :=
  let mine := es.filter fun e => decide (m.ctxFirst ≤ e.v.ctx) && decide (e.v.ctx < m.ctxFirst + m.ctxCount)
  if mine.isEmpty then s else
  let g := s.goalOf p n m.num
  let ls := pieceLists mine ++ (s.partList k n m.num).toList
  let r := mergeLists g ls
  (s.store (partBase k n m.num) (listBytes (n % 2 ^ 32) m.num (s.epochOf p n) g false r.1)).countDups (k / 64) p n r.2

/-- The window of frame n of partition p has closed: that of a later frame is in force, or none is any more. -/
def State.closedWindow (s : State) (p n : Nat) : Bool :=
  match s.checkFrame p s.time with | some c => decide (n < c) | none => true

/-- REDUCTION (R184): a half of core k's verdict buffer that is full, or whose window has closed, is reduced into the partial
lists. -/
def execReduction (core half t : Nat) (s : State) : Host.Outcome State Fault Refusal :=
  let s := s.at t
  let c := s.core core
  let f := c.fill.getD half 0
  let n := c.halfOf.getD half 0
  (match s.cfg.coreOwner core with
   | none => s
   | some q =>
     if s.coreRuns core && decide (half < 2) && decide (0 < f) && (f == 12288 || s.closedWindow q.num n) then
       let es := (List.range f).map fun i => { v := decVerdict (s.peek (halfBase core half + 16 * i) 16), source := core : SelEntry }
       let s := q.mechs.foldl (fun (s : State) (m : Mech) => s.reduceMech core q.num n es m) s
       let c := s.core core
       (s.setCore core { c with fill := listSet c.fill half 0, owes := true }).add64 (Reg.selReduceLo (core / 64)) 1
     else s).done

/-- Nothing of frame n is left to reduce on core k. -/
def CoreSt.reduced (c : CoreSt) (n : Nat) : Bool :=
  !(c.slots.any fun x => x.inRow && decide (x.frame ≤ n)) && (c.fill.getD (n % 2) 0 == 0 || c.halfOf.getD (n % 2) 0 != n)

/-- The cores of a partition in a cluster of the package whose scratchpads stand. -/
def State.mergeCores (s : State) (q : PartCfg) (g : Nat) : List Nat :=
  q.cores.filter fun k => k / 8 == g && decide ((s.dom k).st ≠ .off)

/-- The three levels of the merge of mechanism m for frame n (R185): what each die's level and the commit unit answer. -/
def State.mergeRow (s : State) (q : PartCfg) (n m : Nat) : State × SelList :=
  let g := s.goalOf q.num n m
  let die (s : State) (d : Nat) : State × SelList :=
    let cl := (List.range 8).foldl (fun (acc : State × List SelList) c =>
      let ls := (acc.1.mergeCores q (d * 8 + c)).filterMap fun k => acc.1.partList k n m
      if ls.isEmpty then acc else
      let r := mergeLists g ls
      (acc.1.countDups d q.num n r.2, acc.2 ++ [r.1])) (s, [])
    let r := mergeLists g cl.2
    (cl.1.countDups d q.num n r.2, r.1)
  let a := die s 0
  let b := die a.1 1
  let ls := [a.2, b.2]
  let r := mergeLists g ls
  (b.1.countDups 0 q.num n r.2, r.1)

/-- The retained list of mechanism m for frame n written and counted (R186). -/
def State.retain (s : State) (q : PartCfg) (n m : Nat) : State :=
  let r := s.mergeRow q n m
  let g := s.goalOf q.num n m
  let s := r.1.store (listBase m n) (listBytes (n % 2 ^ 32) m (s.epochOf q.num n) g false r.2)
  let s := if r.2.ties = 0 then s else s.inc (Reg.selTieCount 0)
  let s := if r.2.entries.length < g.k then s.inc (Reg.selPadCount 0) else s
  { s with round := { s.round with stands := (m, n) :: s.round.stands.filter fun e => e.1 != m || e.2 + 1 == n } }

/-- MERGE (R185, R186): the partial lists of the frame of partition p whose check window closed last are merged, once nothing of
it is left to reduce; a list that stood too late has been carried already (R187). -/
def execMerge (p t : Nat) (s : State) : Host.Outcome State Fault Refusal :=
  let s := s.at t
  let q := s.pcfg p
  (match s.checkFrame p s.time with
   | none => s
   | some c =>
     if 0 < c ∧ (s.prun p).nSel ≤ c - 1 ∧ s.runsTail p (c - 1) ∧ !(q.mechs.isEmpty) ∧ (q.cores.all fun k => (s.core k).reduced (c - 1)) then
       let s := q.mechs.foldl (fun (s : State) (m : Mech) => s.retain q (c - 1) m.num) s
       q.cores.foldl (fun (s : State) k =>
         let s := s.setCore k { s.core k with owes := false }
         if s.isRetired (coreUnit k) ∧ !(s.core k).owing then s.powerOff (coreUnit k) else s) s
     else s).done

end Sys2Proof.Machine
end

