-- ==== Sys2Proof/Machine/SolvFam.lean ====
section
/-! DEFINITION. The solver engines and their smoothing stages (06_trajectory_solver.md): the start of a frame's solving, the
steps of a seed with the deadline tests, smoothing and time-scaling, and the hand-off to the host core. -/

namespace Sys2Proof.Machine

/-! ### What an engine solves (R151, R158, R174) -/

/-- The partition and the privileged context that engine i serves. -/
def State.privOf (s : State) (i : Nat) : Option (PartCfg × SolverCtx) := s.privs.find? fun e => s.engineOf e.2 == some i

/-- The partition, context record, mechanism and problem image of the context that engine i solves. -/
structure Solving where
  q   : PartCfg
  c   : SolverCtx
  m   : Mech
  img : ProbImg

/-- The context x of engine i's frame with what it solves by. -/
def State.solving (s : State) (x : Nat) : Option Solving :=
  (s.privs.find? fun e => e.2.ctx == x).bind fun e =>
    (e.1.mechOf x).map fun m =>
      let r := e.1.solver.imgs.getD e.2.image {}
      { q := e.1, c := e.2, m, img := decProbImg (s.peek r.addr r.len) }

/-- h of R165. -/
def Solving.h (v : Solving) : D := segLen v.m.durUs v.img.kseg

/-- The deadline D of frame n (R158). -/
def State.solveBy (s : State) (v : Solving) (n : Nat) : Nat := s.phaseAt v.q.num n (v.q.solveEnd v.c)

/-- Knot 0: the start state and A0, exactly (R153, R159). -/
def State.knot0 (s : State) (v : Solving) : List Knot :=
  let b := s.startBlk v.c.ctx
  let a0 := words (s.peek (ctxBase v.c.ctx + 0x98) 48) 0 12
  (List.range v.m.axes).map fun i => { p := d32 (b.q0.getD i 0), v := d32 (b.qd0.getD i 0), a := d32 (a0.getD i 0) }

/-- The address of the trajectory record of a SEQ of frame n (R172). -/
def Solving.trajAt (v : Solving) (n seq : Nat) : Nat := v.c.workAddr + 0x700000 + 0x2000 * (8 * (n % 2) + seq)

/-- The start state that knot 0 is read from is poisoned. -/
def State.knot0Bad (s : State) (v : Solving) : Bool := s.poisoned (ctxBase v.c.ctx) 256

/-- The jerks of a trajectory record, axis by axis of each segment. -/
def State.recJerks (s : State) (v : Solving) (a : Nat) : List D :=
  (List.range v.img.kseg).flatMap fun m => (List.range v.m.axes).map fun i => dOf (s.peekN (a + 0x160 + 8 * (12 * m + i)) 8)

/-- The seed of a kind for frame n (R159, R160), and whether its first step is degraded; a HOST seed that does not match is
counted. DESIGN CHOICE (log entry 186): CTX of a HOST seed is compared over 4 bytes, and a poisoned trajectory record, start state or seed
degrades the first step. -/
def State.seed (s : State) (v : Solving) (kind n : Nat) : State × Iter × Bool :=
  let k0 := s.knot0 v
  let stop := stopSeed v.m.axes v.img.kseg k0
  let x := ctxBase v.c.ctx
  if kind = 1 then
    let best := s.peekN (x + 0x85) 1
    if 0 < n ∧ s.peekN (x + 0x80) 4 = (n - 1) % 2 ^ 32 ∧ best ≠ 0xFF then
      (s, warmSeed v.m.axes v.img.kseg v.h ((dN v.q.frame.P).div (dN 1000000)) k0 (s.recJerks v (v.trajAt (n - 1) best)),
        s.poisoned (v.trajAt (n - 1) best) 8192)
    else (s, stop, false)
  else if kind = 3 then
    let a := v.c.seedAddr + 0x10000 * (n % 2)
    let b := s.peek a 0x10000
    if leAt b 0 4 = n % 2 ^ 32 ∧ leAt b 4 4 = v.c.ctx then
      let r := hostSeed v.m.axes v.img.kseg k0 b
      (s, r.1, r.2 || s.poisoned a 0x10000)
    else (s.inc (Reg.slvSeedMiss (v.c.ctx / 8192)), stop, false)
  else (s, stop, false)

/-! ### The evaluation program (R155, R162) -/

/-- The store of engine i's cluster serves the EPOCH of the frame being solved (R85, R155). -/
def State.slvServes (s : State) (i : Nat) : Bool := s.storeServes (8 * engCluster i) && s.fld.epoch == (s.eng i).epoch

/-- The yields that engine i's program reads (R76, R155): none where the read returns STALE. -/
def State.slvField (s : State) (i : Nat) (mid : Bool) (a b c : Int) : Option Int :=
  if s.slvServes i then
    let v := s.fview (engCluster i) (s.fld.epoch % 2)
    some (if mid then (v.mid a b c).val else v.coarse a b c)
  else none

/-- The field reads of a use of the program at x (R85, R155, R297): each STALE one is counted, poison is counted, and a negative value is
a field-format error. It answers whether the iteration is degraded. -/
def State.slvReads (s : State) (v : Solving) (i use : Nat) (x : List Nat) : State × Bool :=
  let rs := Config.progReads use v.img.prog x
  let g := engCluster i
  if rs.isEmpty then (s, false)
  else if !s.slvServes i then (s.inc (Reg.fldStaleCount (g / 8) (g % 8)) rs.length, true)
  else
    let w := s.fview g (s.fld.epoch % 2)
    let s := if rs.any fun r => if r.1 then w.midNeg r.2.1 r.2.2.1 r.2.2.2 else w.coarseNeg r.2.1 r.2.2.1 r.2.2.2
      then { s with fld := { s.fld with fmtErr := s.fld.fmtErr + 1 } } else s
    if rs.any fun r => if r.1 then w.midBad r.2.1 r.2.2.1 r.2.2.2 else w.coarseBad r.2.1 r.2.2.1 r.2.2.2
      then (s.inc (Reg.memPoisonConsumed (i / 16)), true) else (s, false)

/-- f, φ and r at an iterate (R155), with whether the computation degrades the iteration and the flags it sets. -/
def State.evalAt (s : State) (v : Solving) (i : Nat) (x : Iter) (lam : List Nat) : State × Eval × Bool × Nat :=
  let bits := x.elems.map D.bits
  let f := s.slvField i
  let val (n : Nat) : D := dOf (Config.progValue n v.img.prog bits lam f)
  let phi := D.fma (dOf v.img.mu) (val 1) (val 0)
  let bad (d : D) : Nat := b2n d.ovf + 2 * b2n d.inv
  let fl := (Config.progFlags 0 v.img.prog bits lam f % 4) ||| bad phi ||| x.elems.foldl (fun a d => a ||| bad d) 0
  let r := s.slvReads v i 0 bits
  (r.1, { x, f := val 0, phi := dOf phi.bits, r := val 2 }, r.2 || fl != 0, fl)

/-- The flags OVERFLOW and INVALID at their places in SLV_FLAGS. -/
def feFlags (fl : Nat) : Nat := fl % 4 * 2 ^ 6

/-- Flags and degradation of a part of an iteration added to an engine (R162, R165). -/
def EngSt.mark (e : EngSt) (bad : Bool) (fl : Nat) : EngSt :=
  { e with flags := e.flags ||| feFlags fl, degIt := e.degIt || bad, deg := e.deg || bad }

/-! ### Seeds, returns and the end of a frame (R158, R165 to R168) -/

/-- Engine i begins the seed at a position of the list at t: the deadline test before INIT, then the seed is read. Past the list
the solving of the frame ends. -/
def State.beginSeed (s : State) (v : Solving) (i k t : Nat) : State :=
  let e := s.eng i
  match v.c.seeds[k]? with
  | none => s.setEng i { e with busy := false, step := .idle, ended := some (e.ctx, e.frame) }
  | some kind =>
    if s.solveBy v e.frame ≤ t then (s.inc (Reg.slvDeadlineCount (i / 16))).noResult i
    else
      let r := s.seed v kind e.frame
      let deg := r.2.2 || s.knot0Bad v
      let s := if deg && (s.knot0Bad v || kind = 1) then r.1.inc (Reg.memPoisonConsumed (i / 16)) else r.1
      s.setEng i { e with
        wait := false, seed := k, step := .init, iter := 0, trial := 0, cur := { x := r.2.1 }, try_ := {}, best := {}, bestIt := 0,
        lam := List.replicate v.img.n 0, mat := [], rhs := [], fac := {}, dir := [], flags := 0, degIt := deg, deg, pivots := 0,
        k0 := s.knot0 v }

/-- The solver block of a context when a result of frame n is returned (R153): the frame, the results so far, and with the first one no
best result yet. -/
def State.solverReturn (s : State) (x n returned : Nat) : State :=
  let a := ctxBase x + 0x80
  let s := if returned = 1 then (s.store (a + 5) (toLE 1 0xFF)).store (a + 8) (zeros 8) else s
  s.store a (toLE 4 n ++ toLE 1 returned)

/-- A result returned to the smoothing stage (R165, R166): its flags and counts; then the next seed, or after a deadline none. -/
def State.slvReturn (s : State) (v : Solving) (i : Nat) (ev : Eval) (iters flag t : Nat) : State :=
  let e := s.eng i
  let d := i / 16
  let fl := e.flags ||| 2 ^ flag ||| (if e.deg then 2 ^ 5 else 0)
  let res : SResult := { ctx := e.ctx, frame := e.frame, ev, flags := fl, iters, pivots := min 65535 e.pivots, degraded := e.deg, k0 := e.k0 }
  let y := (e.tallyOf e.ctx e.frame).getD { ctx := e.ctx, frame := e.frame, host := e.host.getD 0 }
  let s := s.solverReturn e.ctx e.frame (y.returned + 1)
  let s := s.setEng i { e.setTally { y with returned := y.returned + 1 } with
    results := e.results ++ [res], lastRes := ev.r.bits, lastMerit := ev.phi.bits, lastFrame := e.frame % 2 ^ 32,
    lastIters := iters % 256, lastPivots := min 65535 e.pivots, lastFlags := fl }
  let s := s.add64 (Reg.slvResultsLo d) 1
  let s := if e.deg then s.inc (Reg.slvDegradedCount d) else s
  if flag = 2 ∨ flag = 3 then
    let s := (s.inc (Reg.slvDeadlineCount d)).tdc e.part e.frame 2
    s.setEng i { s.eng i with busy := false, step := .idle, ended := some (e.ctx, e.frame) }
  else s.beginSeed v i (e.seed + 1) t

/-- A step boundary at t with INIT complete: the deadline test, else the next step (R166). -/
def State.slvBoundary (s : State) (v : Solving) (i : Nat) (next : EngSt → EngSt) (t : Nat) : State :=
  let e := s.eng i
  if s.solveBy v e.frame ≤ t then s.slvReturn v i e.best e.bestIt 2 t else s.setEng i (next e)

/-- The head of the loop of R165: the convergence test, then the boundary before EVAL. -/
def State.slvLoop (s : State) (v : Solving) (i t : Nat) : State :=
  let e := s.eng i
  if !((dOf v.img.tol).lt e.cur.r) then s.slvReturn v i e.cur e.iter 0 t
  else s.slvBoundary v i (fun e => { e with step := .eval, iter := e.iter + 1 }) t

/-! ### The steps (R163 to R166) -/

/-- INIT: f, C1, r and φ at the seed; best = x. -/
def State.slvInit (s : State) (v : Solving) (i t : Nat) : State :=
  let e := s.eng i
  let r := s.evalAt v i e.cur.x e.lam
  let e : EngSt := { e with cur := r.2.1, best := r.2.1, bestIt := 0 }
  (r.1.setEng i (e.mark r.2.2.1 r.2.2.2)).slvLoop v i t

/-- A use of the program that gives no objective: its field reads and its flags may degrade the iteration (R155, R162). -/
def State.progUse (s : State) (v : Solving) (i use : Nat) : State :=
  let e := s.eng i
  let bits := e.cur.x.elems.map D.bits
  let fl := Config.progFlags use v.img.prog bits e.lam (s.slvField i) % 4
  let r := s.slvReads v i use bits
  r.1.setEng i (e.mark (r.2 || fl != 0) fl)

/-- EVAL: the derivatives at x. The iteration begins. -/
def State.slvEval (s : State) (v : Solving) (i t : Nat) : State :=
  (s.progUse v i 1).slvBoundary v i (fun e => { e with step := .assemble }) t

/-- The part of the work area below the trajectory records written by ASSEMBLE or FACTOR: the spec gives the matrix, the right-hand side
and the factor no layout there, so its bytes are free (R165). -/
def State.workWrite (s : State) (v : Solving) : State :=
  ({ s with fresh := s.fresh + 1 } : State).store v.c.workAddr ((List.range 0x700000).map (Config.workByte s.fresh))

/-- ASSEMBLE: the band of A, row by row from column i − W, and b. -/
def State.slvAssemble (s : State) (v : Solving) (i t : Nat) : State :=
  let n := v.img.n; let w := v.img.w
  let s := (s.progUse v i 2).workWrite v
  let e := s.eng i
  let bits := e.cur.x.elems.map D.bits
  let at_ (r c : Nat) : D := dOf (Config.progMatrix v.img.prog bits e.lam (s.slvField i) (r, c))
  let mat : Band := (List.range n).map fun r => (List.range (w + 1)).map fun o => if w ≤ r + o then at_ r (r + o - w) else {}
  let rhs := (List.range n).map fun r => at_ r n
  (s.setEng i { e with mat, rhs }).slvBoundary v i (fun e => { e with step := .factor }) t

/-- Overflow and invalid flags of a list of values. -/
def feOf (l : List D) : Nat := b2n (l.any (·.ovf)) + 2 * b2n (l.any (·.inv))

/-- The first `cols` columns of FACTOR (R163): the factor so far, its regularised pivots counted and flagged. -/
def State.factorTo (s : State) (v : Solving) (i cols : Nat) : State × Factor :=
  let e := s.eng i
  let f := (List.range cols).foldl (factorRow (v.img.method == 1) (if v.c.tauExp = 0 then 20 else v.c.tauExp) v.img.w v.img.n e.mat) {}
  let fe := feOf (f.piv ++ f.rcp ++ f.l.flatten)
  let fl := b2n f.flags.tiny * 2 ^ 8 + b2n f.flags.zero * 2 ^ 9 + b2n f.flags.negp * 2 ^ 10
  let e := { e with pivots := e.pivots + f.flags.count, flags := e.flags ||| fl }
  ((s.setEng i (e.mark (fe != 0) fe)).inc (Reg.slvRegPivot (i / 16)) f.flags.count, f)

/-- FACTOR complete: the factor, written back to the work area. -/
def State.slvFactor (s : State) (v : Solving) (i t : Nat) : State :=
  let r := s.factorTo v i v.img.n
  let s := r.1.workWrite v
  (s.setEng i { s.eng i with fac := r.2, pivot := r.2.flags.first }).slvBoundary v i (fun e => { e with step := .solve }) t

/-- SOLVE complete: the step d of each element of x, and the new multipliers. -/
def State.slvSolve (s : State) (v : Solving) (i t : Nat) : State :=
  let e := s.eng i
  let y := solveBand (v.img.method == 1) v.img.w v.img.n e.fac e.rhs
  let fe := feOf y
  let clean := y.map fun d => dOf d.bits
  let dir := (List.range e.cur.x.elems.length).map fun j => clean.getD (Config.progStep v.img.prog j) {}
  let e := { e with dir, lam := y.map D.bits, trial := 0 }
  (s.setEng i (e.mark (fe != 0) fe)).slvBoundary v i (fun e => { e with step := .trial }) t

/-- One trial of SEARCH: y at the step length; taken where φ falls, or as the last one with NONMONO. -/
def State.slvTrial (s : State) (v : Solving) (i t : Nat) : State :=
  let e := s.eng i
  let y := e.cur.x.step (dV (.fin false 1 (-(e.trial : Int)))) e.dir
  let r := s.evalAt v i y e.lam
  let s := r.1
  let take := r.2.1.phi.lt e.cur.phi
  let e := ({ e with try_ := r.2.1 } : EngSt).mark r.2.2.1 r.2.2.2
  if take then (s.setEng i e).slvBoundary v i (fun e => { e with step := .accept }) t
  else if e.trial = 3 then (s.setEng i { e with flags := e.flags ||| 2 ^ 11 }).slvBoundary v i (fun e => { e with step := .accept }) t
  else (s.setEng i e).slvBoundary v i (fun e => { e with trial := e.trial + 1 }) t

/-- ACCEPT: x = y, r(x), the best kept; a degraded iteration ends the seed, as does the last one. -/
def State.slvAccept (s : State) (v : Solving) (i t : Nat) : State :=
  let e := s.eng i
  let better := e.try_.phi.lt e.best.phi
  let e' := { e with cur := e.try_, best := if better then e.try_ else e.best, bestIt := if better then e.iter else e.bestIt, degIt := false }
  let s := (s.setEng i e').add64 (Reg.slvItersLo (i / 16)) 1
  if e.degIt then s.slvReturn v i e'.best e'.bestIt 5 t
  else if v.c.maxIter ≤ e.iter then s.slvReturn v i e'.best e'.bestIt 1 t
  else s.slvLoop v i t

/-- A test of the deadline is due after `cols` columns of FACTOR or SOLVE (R166): every 16 of FACTOR and of each pass of SOLVE. -/
def testDue (n cols : Nat) : Bool := cols != 0 && (if cols ≤ n then cols % 16 == 0 else (cols - n) % 16 == 0)

/-- The part of a step that `cols` columns make up (R166): FACTOR of N, SOLVE of 2 N, the others whole. Inside FACTOR and SOLVE
the deadline is tested after every 16 columns; a FACTOR that it ends has counted the pivots of the columns done. -/
def State.slvStep (s : State) (v : Solving) (i cols t : Nat) : State :=
  let e := s.eng i
  let late := decide (s.solveBy v e.frame ≤ t)
  match e.step with
  | .idle => s
  | .init => s.slvInit v i t
  | .eval => s.slvEval v i t
  | .assemble => s.slvAssemble v i t
  | .factor =>
    if v.img.n ≤ cols then s.slvFactor v i t
    else if late && testDue v.img.n cols then (s.factorTo v i cols).1.slvReturn v i e.cur (e.iter - 1) 3 t else s
  | .solve =>
    if 2 * v.img.n ≤ cols then s.slvSolve v i t
    else if late && testDue v.img.n cols then s.slvReturn v i e.best e.bestIt 2 t else s
  | .trial => s.slvTrial v i t
  | .accept => s.slvAccept v i t

/-- Engine i and its host core run. -/
def State.engRuns (s : State) (i : Nat) : Bool := decide (i < 32) && s.coreUp (engCluster i * 8) && s.healthy (engUnit i) &&
  !s.slicing (i / 16) (64 + i % 16)

/-- The smoothing stage beside engine i runs: it is a unit of its own, which a retired engine's results still pass (R158, R174). -/
def State.stageRuns (s : State) (i : Nat) : Bool := decide (i < 32) && s.coreUp (engCluster i * 8)

/-- The solving of frame n of context x has ended, on whichever engine served it (R174). -/
def State.solved (s : State) (x n : Nat) : Bool := s.engs.any fun (e : EngSt) => e.ended == some (x, n)

/-- SOLVE_START (R158, R174 to R176): the solving of the frame whose check window is open starts on an engine, once its start state is
written; before that the engine waits. A frame that admits no candidates is not solved. -/
def execSolveStart (engine t : Nat) (s : State) : Host.Outcome State Fault Refusal :=
  let s := s.at t
  (match s.privOf engine with
   | none => s
   | some (q, c) =>
     match s.checkFrame q.num s.time, s.solving c.ctx with
     | some n, some v =>
       let e := s.eng engine
       match s.nextHost q engine with
       | none => s
       | some k =>
         if !(s.engRuns engine) || !(s.runsTail q.num n) || (e.busy && !e.wait) || s.solved c.ctx n then s
         else
           let y : STally := { ctx := c.ctx, frame := n, host := k }
           let e := { e with busy := true, wait := true, part := q.num, ctx := c.ctx, frame := n, epoch := s.epochOf q.num n, host := some k,
                             tallies := if (e.tallyOf c.ctx n).isSome then e.tallies else y :: e.tallies.take 2 }
           if s.bound c.ctx n then (s.setEng engine e).beginSeed v engine 0 s.time else s.setEng engine e
     | _, _ => s).done

/-- SOLVER_STEP (R163 to R167): the step in progress on an engine completes, or reaches `cols` columns. An engine that still waits
for its start state at the deadline ends with no result. -/
def execSolverStep (engine cols t : Nat) (s : State) : Host.Outcome State Fault Refusal :=
  let s := s.at t
  let e := s.eng engine
  (match s.solving e.ctx with
   | none => s
   | some v =>
     if !(s.engRuns engine) || !e.busy then s
     else if e.wait then (if s.solveBy v e.frame ≤ s.time then (s.inc (Reg.slvDeadlineCount (engine / 16))).noResult engine else s)
     else s.slvStep v engine cols s.time).done

/-! ### Smoothing and hand-off (R111, R168 to R173) -/

/-- The limits of a mechanism's axes. -/
def axLims (m : Mech) : List AxLim :=
  (List.range m.axes).map fun i => { vmax := d32 (m.vmax.getD i 0), amax := d32 (m.amax.getD i 0), jmax := d32 (m.jmax.getD i 0) }

/-- The eight poses of a smoothed trajectory, twelve joints each (R171). -/
def handPoses (axes kseg : Nat) (knots : List Knot) : List Nat :=
  (List.range 8).flatMap fun k => (List.range 12).map fun i =>
    if i < axes then toF32 (knots.getD (axes * ((k + 1) * kseg / 8) + i) {}).p else 0

/-- A trajectory discarded (R170, R171). -/
def State.dropTraj (s : State) (i : Nat) : State :=
  (s.setEng i { s.eng i with lastFlags := (s.eng i).lastFlags ||| 2 ^ 13 }).inc (Reg.slvSmoothFail (i / 16))

/-- One result through the smoothing stage (R169 to R172). -/
def State.smooth (s : State) (v : Solving) (i : Nat) (r : SResult) : State :=
  let h := v.h
  let lims := axLims v.m
  let k0 := r.k0
  let f := smoothFrom lims h k0 (bySegment v.m.axes v.img.kseg r.ev.x.jerks)
  let pad := smoothPad v.m.axes v.img.kseg h lims v.img.lever f.knots
  let s := if f.shaped then (s.setEng i { s.eng i with lastFlags := (s.eng i).lastFlags ||| 2 ^ 12 }).inc (Reg.slvShapedCount (i / 16)) else s
  if f.failed ∨ 65535 < pad then s.dropTraj i
  else
    let e := s.eng i
    let seq := ((e.tallyOf r.ctx r.frame).map (·.seq)).getD 0 + (e.trajs.filter fun (j : STraj) => j.ctx == r.ctx && j.frame == r.frame).length
    let rec_ : HandRec :=
      { ctx := r.ctx, degraded := r.degraded, seq, frameId := r.frame % 2 ^ 32, costSeed := costSeedOf r.ev.f (dOf v.img.costScale),
        sweepPad := pad.toNat, q := handPoses v.m.axes v.img.kseg f.knots }
    let b := trajBytes (r.frame % 2 ^ 32) r.ctx r.degraded f.shaped seq v.img.kseg r.ev.r.bits r.ev.phi.bits h.bits v.m.axes k0 f.jerks
    (s.store (v.trajAt r.frame seq) b).setEng i { e with trajs := e.trajs ++ [{ ctx := r.ctx, frame := r.frame, rec_, merit := r.ev.phi.bits, at_ := v.trajAt r.frame seq, len := b.length }] }

/-- SMOOTHING (R169 to R173): the stage beside an engine takes the first result that waits. -/
def execSmoothing (engine t : Nat) (s : State) : Host.Outcome State Fault Refusal :=
  let s := s.at t
  let e := s.eng engine
  (match e.results with
   | [] => s
   | r :: rest =>
     match s.solving r.ctx with
     | none => s
     | some v => if s.stageRuns engine then (s.setEng engine { e with results := rest }).smooth v engine r else s).done

/-- The solver block of a context after a hand-off of frame n (R153, R173). -/
def State.solverBlock (s : State) (x n seq returned merit : Nat) : State :=
  let a := ctxBase x + 0x80
  let fresh := s.peekN a 4 != n % 2 ^ 32 || s.peekN (a + 5) 1 == 0xFF || seq == 0
  let better := fresh || (dOf merit).lt (dOf (s.peekN (a + 8) 8))
  let s := s.store a (toLE 4 n ++ toLE 1 returned)
  if better then (s.store (a + 5) (toLE 1 seq)).store (a + 8) (toLE 8 merit) else s

/-- The address of the hand-off record of SEQ for frame n from engine i at core k (R152). -/
def handAddr (k i n seq : Nat) : Nat := padBase k + 0xD0000 + 0x200 * (16 * (i % 2) + 8 * (n % 2) + seq)

/-- One trajectory handed off: the record in the host core's scratchpad and the solver block. It waits there for admission, or,
after the last admission of its frame, or where its host core has given up the role, is discarded and counted (R168, R175). -/
def State.handOff (s : State) (v : Solving) (i : Nat) (j : STraj) : State :=
  let e := s.eng i
  let y := (e.tallyOf j.ctx j.frame).getD { ctx := j.ctx, frame := j.frame, host := e.host.getD 0 }
  let s := s.setEng i { e.setTally { y with seq := y.seq + 1 } with lastSeq := j.rec_.seq }
  let s := s.solverBlock j.ctx j.frame j.rec_.seq y.returned j.merit
  match e.host with
  | none => s.inc (Reg.slvLateHandoff (i / 16))
  | some k =>
    let a := handAddr k i j.frame j.rec_.seq
    let s := (s.touch a).store a j.rec_.bytes
    if j.frame < (s.prun v.q.num).nAdm then s.inc (Reg.slvLateHandoff (i / 16))
    else s.setCore k { s.core k with handQ := (s.core k).handQ ++ [a] }

/-- HANDOFF (R111, R152, R168, R172, R173): the first trajectory record of an engine's stage has been acknowledged, and its hand-off
record is written. -/
def execHandoff (engine t : Nat) (s : State) : Host.Outcome State Fault Refusal :=
  let s := s.at t
  let e := s.eng engine
  (match e.trajs with
   | [] => s
   | j :: rest =>
     match s.solving j.ctx with
     | none => s
     | some v => if s.stageRuns engine then (s.setEng engine { e with trajs := rest }).handOff v engine j else s).done

end Sys2Proof.Machine
end

