-- ==== Sys2Proof/Machine/SafeOps.lean ====
section
/-! DEFINITION. The warden's shared operations on plans (07_selection_and_commit.md, 14_safety_concept.md): the motion that a
mechanism's drives are commanded, occupied zones and the separation monitor, and the stop of a partition. -/

namespace Sys2Proof.Machine

/-! ### The motion in force (R195, R200, R202, R324) -/

/-- The Saucer of the record in force governs at t: it has been issued, and no later record has taken force after the hold. -/
def WMech.saucerAt (w : WMech) (t : Nat) : Bool :=
  w.issued && (w.held || (match w.next with | some r => decide (t < r.b) | none => true))

/-- The position, velocity and acceleration of each axis of mechanism m at t (R195, R200); none before its first record. -/
def State.motionAt (s : State) (m t : Nat) : Option (List AxState) :=
  let w := s.wm m
  match s.mech? m with
  | none => none
  | some (_, x) =>
    if w.saucerAt t then w.cur.map fun r => saucerState r x.axes (tHalfOf x) w.t0 t
    else (s.inForce m t).map fun r => planState r x.axes t

/-- The stop pose of a record whose Saucer was issued at t₀: velocity and acceleration zero (R200, R202). -/
def stopState (r : CommitRec) (axes tHalf t0 : Nat) : List AxState := saucerState r axes tHalf t0 (t0 + 2000 * tHalf)

/-- The state at t that a start block or a record is given and compared with (R196, R201): the plan in force, or under a Saucer
the stop pose; after a fall-back restart, until a commit is accepted, the drives at rest where START found them (R121, R330). -/
def State.branchState (s : State) (m t : Nat) : Option (List AxState) :=
  let w := s.wm m
  match s.mech? m with
  | none => none
  | some (_, x) =>
    if w.drives.isSome && s.held m then w.drives.map fun q => q.map fun v => ({ p := d32 v } : AxState)
    else if w.saucerAt t then w.cur.map fun r => stopState r x.axes (tHalfOf x) w.t0
    else if s.held m then (s.inForce m t).map fun r => (planState r x.axes t).map fun k => { p := k.p }
    else (s.inForce m t).map fun r => planState r x.axes t

/-- Records that have taken force moved on: the next one becomes the one in force from its B, unless the hold goes on. -/
def State.roll (s : State) (m t : Nat) : State :=
  let w := s.wm m
  match w.next with
  | some r => if r.b ≤ t ∧ !w.held then s.setWm m { w with cur := some r, next := none, issued := false, drives := none } else s
  | none => s

/-- The last record accepted for mechanism m: H of it is the horizon in force (R199, R320). -/
def State.lastRec (s : State) (m : Nat) : Option CommitRec := match (s.wm m).next with | some r => some r | none => (s.wm m).cur

/-- Twelve FP32 encodings of a component of a state, zero past the last axis. -/
def f32Of (l : List AxState) (f : AxState → D) : List Nat := (List.range 12).map fun i => toF32 (f (l.getD i {}))

/-! ### Dual-channel inputs and separation (R326 to R328, R335) -/

/-- A dual-channel input with equivalent wires counts as energised. -/
def DualIn.on (x : DualIn) : Bool := x.filA && x.filB && !x.disc

/-- A zone is occupied: its OSSD pair de-energised as read at the start of the monitoring period, or a static zone. -/
def State.occupied (s : State) (z : Zone) : Bool := z.ossd == 0xFF || !s.warden.ossdRead.getD z.ossd false

/-- The placed spheres that the monitor tests of a record (R326). -/
def CommitRec.spheres (r : CommitRec) : List HSphere := if r.kind = 3 then r.placed.headD [] else r.placed.flatten

/-- The separation of a record of mechanism m falls below S_p in an occupied zone that names it (R326). -/
def State.ssmAgainst (s : State) (m : Nat) (r : CommitRec) : Bool :=
  match s.cfg.safety with
  | none => false
  | some x => (s.msafe m).ssm && x.zones.any fun z =>
      bit z.mechs m && s.occupied z &&
        r.spheres.any fun h => decide (clBox { x := h.x, y := h.y, z := h.z, r := h.r } { lo := z.lo, hi := z.hi }
          < (sepDist x.glob z (s.msafe m).vr (s.tHalf m) : Int))

/-! ### Readiness of drives (R450) -/

/-- The axis records of mechanism m. -/
def State.axesOf (s : State) (m : Nat) : List AxisRec :=
  match s.mech? m with | some (q, _) => q.ifp.axes.filter (·.mech == m) | none => []

/-- The drive of an axis in the last complete input image of its port. -/
def State.axisIn (s : State) (a : AxisRec) : Option AxisIn :=
  let p := s.fif.ports.getD a.port {}
  if p.imgAt.isSome then p.axes.find? fun x => x.mech == a.mech && x.axis == a.axis else none

/-- Every drive of mechanism m reports operation enabled. -/
def State.mechReady (s : State) (m : Nat) : Bool :=
  (s.axesOf m).all fun a => match s.axisIn a with | some x => driveState x.status == 4 | none => false

/-! ### Fieldbus ports (R388) -/

/-- SGMII port n. -/
def State.port (s : State) (n : Nat) : FPort := s.fif.ports.getD n {}

/-- What FBS_PORT_STATUS and FBS_PORT_ERR show of a port. -/
def FPort.shown (x : FPort) : Nat × Bool × Nat × Bool × Nat := (x.cfgRec.mode, x.link, x.bus, x.dcLock, x.err)

/-- A port replaced; a change of its status raises its source. -/
def State.setPort (s : State) (n : Nat) (x : FPort) : State :=
  let old := (s.port n).shown
  let s := { s with fif := { s.fif with ports := listSet s.fif.ports n x } }
  if x.shown = old then s else s.raise (isrcFIELDBUS + n)

/-! ### Stopped (R65, R258) -/

/-- Partition p becomes STOPPED: its tasks disarmed, its pairs de-energised until its first commit after the next START; with the
master a new self-test interval begins (R363). -/
def State.stopped (s : State) (p : Nat) : State :=
  let s := { s with sched := s.sched.map fun (d : SchedDie) => d.disarm p }
  let s := ((s.pcfg p).mechs.map (·.num)).foldl State.dropOuts s
  let x := s.prun p
  (s.setPRun p { x with lastFrame := none, issued := false, resetting := false, opened := 0, commit := none, started := false }).setPSt p .stopped
  |> fun s => if s.master = some p then (s.newInterval 0 s.time).newInterval 1 s.time else s

/-- Every mechanism of p stands still. -/
def State.atRest (s : State) (p : Nat) : Bool := (s.pcfg p).mechs.all fun m => (s.wm m.num).held && (s.wm m.num).atRest

/-- A partition that stops, or whose reset runs out, is STOPPED once all its Saucers have run to standstill (R65, R421). -/
def State.stopCheck (s : State) (p : Nat) : State :=
  let x := s.prun p
  if x.st = .running ∧ (x.issued ∨ x.resetting) ∧ s.atRest p then s.stopped p else s

/-- The commanded Saucers of a partition whose last commit has resolved (R65). -/
def State.commandStop (s : State) (p t : Nat) : State :=
  let x := s.prun p
  if x.issued then s else
  let s := s.setPRun p { x with issued := true }
  let ms := (s.pcfg p).mechs.map (·.num)
  let s := if ms.isEmpty then s else s.trigger 13 t ms
  s.stopCheck p

end Sys2Proof.Machine
end

