-- ==== Sys2Proof/Machine/CommitFam.lean ====
section
/-! DEFINITION. The commit round (07_selection_and_commit.md R187 to R203), the confirmation of tries that disagree
(16_fault_handling.md R375), and the deadline and standstill of Saucers (14_safety_concept.md). -/

namespace Sys2Proof.Machine

/-! ### The frames of a round (R81, R188) -/

/-- The close of the check window of frame n of p. -/
def State.closeOf (s : State) (p n : Nat) : Nat := s.phaseAt p n ((s.pcfg p).frame.publish + (s.pcfg p).frame.P)

/-- The frame of partition p, in its own numbering, whose check window closes at an instant. -/
def State.frameAtClose (s : State) (p c : Nat) : Option Nat :=
  if s.running p ∧ s.closeOf p 0 ≤ c ∧ s.period p ≠ 0 then some ((c - s.closeOf p 0) / s.period p) else none

/-- That frame, where the partition checks it (R65). -/
def State.frameClosing (s : State) (p c : Nat) : Option Nat := (s.frameAtClose p c).filter (s.runsTail p)

/-- A mechanism in the round. -/
def State.mr (s : State) (m : Nat) : MRound := s.round.mechs.getD m {}
/-- A mechanism of the round replaced. -/
def State.setMr (s : State) (m : Nat) (x : MRound) : State := { s with round := { s.round with mechs := listSet s.round.mechs m x } }

/-- Mechanism m takes part in the round: its partition has a frame in it. -/
def State.inRound (s : State) (m : Nat) : Bool := (s.mech? m).any fun e => s.round.parts.any (·.1 == e.1.num)

/-- The frame, in p's numbering, whose check window closes at an instant, whether or not p runs it: a partition that is not RUNNING
goes on counting from its last T0, and 0 stands before its first frame. No rule numbers those frames (DESIGN CHOICE, log entry 179). -/
def State.countedAt (s : State) (p c : Nat) : Nat := if s.period p = 0 then 0 else (c - s.closeOf p 0) / s.period p

/-- The frame under which the round writes the mechanisms of partition p (R193): that of the round, or for a carried partition that
runs no frame in it the one it counts; none for a RUNNING partition before its first frame, whose START has written frame 0. -/
def State.roundFrame (s : State) (p : Nat) : Option Nat :=
  match s.round.parts.find? (·.1 == p) with
  | some e => some e.2
  | none =>
    let c := s.closeOf (s.master.getD 0) s.round.frame
    if s.running p then s.frameAtClose p c else some (s.countedAt p c)

/-- Every mechanism that the round writes, with its partition and frame (R193). -/
def State.roundMechs (s : State) : List (PartCfg × Mech × Nat) :=
  s.cfg.mechs.filterMap fun e => (s.roundFrame e.1.num).map fun n => (e.1, e.2, n)

/-- COMMIT_END of the round in progress. -/
def State.roundEnd (s : State) : Nat :=
  let p := ((s.round.parts.head?).map (·.1)).getD (s.master.getD 0)
  s.round.b - (s.pcfg p).frame.out * 1000 + (s.pcfg p).frame.commitEnd * 1000

/-! ### Records written by a round (R199, R201, R202) -/

/-- The placed root and mid spheres of a pose. -/
def State.placedOf (s : State) (m : Mech) (pad : Nat) (q : List FV) : List HSphere :=
  match placePose m s.cfg.lay pad q with
  | some l => (l.take (1 + m.mid)).map fun p => { x := p.x, y := p.y, z := p.z, r := p.r }
  | none => []

/-- A standstill record of mechanism m at a pose (KIND 3), for frame n with branch time b. -/
def State.standRec (s : State) (m : Mech) (n b : Nat) (q0 : List Nat) : CommitRec :=
  let pl := s.placedOf m 0 ((q0.take m.axes).map (fOfBits f32))
  { frame := n % 2 ^ 32, mech := m.num, kind := 3, entry := 0xFF, durUs := m.durUs, tHalf := tHalfOf m, b,
    h := b + m.durUs * 1000 - tHalfOf m * 1000, q0, qd0 := List.replicate 12 0, placed := List.replicate 9 pl }

/-- The record of a mechanism that the round carries (R192, R202, R450): at standstill or held, a standstill record from b_n; else
the plan in force as it stands, presented under the frame's number. -/
def State.carriedRec (s : State) (m : Mech) (n : Nat) : Option CommitRec :=
  let b := s.round.b
  match s.branchState m.num b, s.inForce m.num b with
  | some st, some r =>
    if s.held m.num || (s.wm m.num).saucerAt b || r.kind == 3 then some (s.standRec m n b (f32Of st (·.p)))
    else some { r with frame := n % 2 ^ 32, entry := 0xFF }
  | _, _ => none

/-- The record that commits an entry that passed its try (R199, R201): from the poses of the REPLAY slot. -/
def State.entryRec (s : State) (m : Mech) (n pos : Nat) (x : CSlot) : CommitRec :=
  let b := s.startBlk x.ctx
  let enc (q : List FV) : List Nat := (List.range 12).map fun i => match q[i]? with | some v => fToBits f32 v | none => 0
  let opt := x.hand.isSome
  let traj := match s.solving x.ctx, x.hand with
    | some v, some h => s.peek (v.trajAt n h.seq) 0x1960
    | _, _ => []
  { frame := n % 2 ^ 32, mech := m.num, kind := if opt then 2 else 1, entry := pos, candId := x.candId, ctx := x.ctx, durUs := m.durUs,
    tHalf := tHalfOf m, b := s.round.b, h := s.round.b + m.durUs * 1000 - tHalfOf m * 1000, q0 := b.q0, qd0 := b.qd0,
    poses := if opt then [] else (x.poses.drop 1).flatMap enc, placed := x.poses.map (s.placedOf m (s.padSeed m x).1), traj }

/-- A record presented to the warden's mailbox (R193 group 1). -/
def State.present (s : State) (m : Nat) (r : CommitRec) : State :=
  (s.setMr m { s.mr m with rec_ := some r, acc := none }).store (recBase m (s.mr m).frame) r.bytes

/-! ### Envelopes (R191, R198) -/

/-- The samples of the plan before that an envelope adds (R198): between COMMIT_END and b_n + T_HALF, or under a Saucer between its
issue and the stop. -/
def State.prevSpan (s : State) (m : Nat) : List (List HSphere) :=
  let w := s.wm m
  let b := s.round.b
  if w.saucerAt b then
    match w.cur with
    | some r => coveredBetween w.t0 (w.t0 + r.tHalf * 1000) (samplesOf r)
    | none => []
  else
    match s.inForce m s.roundEnd with
    | some r => coveredBetween s.roundEnd (b + r.tHalf * 1000) (samplesOf r)
    | none => []

/-- The envelope of a record for bin j anchored at an instant, with the samples of the plan before (R198). -/
def binEnvelope (mid anchor j : Nat) (r : CommitRec) (prev : List (List HSphere)) : List HSphere :=
  envelope mid (coveredTo ((anchor + 5000000 * (j + 1) : Nat) : Int) (samplesOf r) ++ prev)

/-- Two entries that passed come within a margin of each other in some bin (R191). -/
def State.meet (s : State) (a b : Mech) (ra rb : CommitRec) : Bool :=
  let mg := max a.check.mMech b.check.mMech
  let pa := s.prevSpan a.num; let pb := s.prevSpan b.num
  (List.range 16).any fun j => envelopesMeet mg (binEnvelope a.mid s.round.b j ra pa) (binEnvelope b.mid s.round.b j rb pb)

/-- The pair test (R191), mechanisms ascending: one that meets a kept lower one is dropped. -/
def State.pairTest (s : State) : State :=
  let step (acc : State × List (Mech × CommitRec)) (m : Nat) : State × List (Mech × CommitRec) :=
    let x := acc.1.mr m
    match acc.1.mech? m, x.rec_ with
    | some (_, mc), some r =>
      if x.st = CSt.pair then
        if acc.2.any fun e => acc.1.meet e.1 mc e.2 r then
          ((acc.1.setMr m { x with st := .carried, outcome := 3, rec_ := none }).inc Reg.selPairDrop, acc.2)
        else (acc.1, acc.2 ++ [(mc, r)])
      else acc
    | _, _ => acc
  ((List.range 16).foldl step (s, [])).1

/-! ### Confirmation (R372, R375) -/

/-- A suspicion against a core: CONFIRM, unless it has left service. -/
def State.suspect (s : State) (k : Nat) : State :=
  let f := s.faultSt (.unit (coreUnit k) 0)
  match s.phase (coreUnit k) with
  | .healthy => s.setFault { f with phase := .confirm }
  | .watch => s.setFault { f with phase := .confirm }
  | _ => s

/-- The mask of core positions. -/
def affMask (ks : List Nat) : Nat := (ks.map fun k => 2 ^ (k % 64)).sum

/-- Cores of partition q on a die that may take a try's work, some excepted (R91, R243, R372). -/
def State.tryCores (s : State) (q : PartCfg) (d kind : Nat) (but : List Nat) : List Nat :=
  (q.coresOn d).filter fun k => !but.contains k && s.takesKind k kind && s.storeServes k

/-- An item of the commit queue for a candidate. -/
def tryItem (kind part frame epoch ctx candId addr aff : Nat) : Item :=
  { part, cls := clsS, kind, frame, epoch, ctx, first := candId, n := 1, arg := addr, aff }

/-- An item put into a die's commit queue. -/
def State.pushTry (s : State) (d : Nat) (i : Item) : State :=
  s.setSch d { (s.sch d).pushCommit i with idle := [] }

/-- The CONFIRM item of one disagreement: on a healthy core of the die that holds fewer of the three. -/
def State.issueConfirm (s : State) (c : Confirm) : State :=
  let q := s.pcfg c.part
  let three := [c.source, c.replay, c.recheck]
  let d := if (three.filter (· < 64)).length < 2 then 0 else 1
  let ks := (s.tryCores q d ikCONFIRM three).filter s.coreOk
  if ks.isEmpty then s else (s.inc Reg.errConfirm).pushTry d (tryItem ikCONFIRM c.part c.frame c.epoch c.ctx c.candId c.addr (affMask ks))

/-- Confirmation of the round's disagreements starts once its decisions are complete. -/
def State.issueConfirms (s : State) : State :=
  (s.errs.confs.filter fun c => c.suspect.isNone && (s.mr c.mech).frame == c.frame).foldl State.issueConfirm s

/-! ### The writes of a round (R193) -/

/-- A mechanism of the round enters WRITE: its record goes to the warden, that of its entry or the carried one. -/
def State.enterWrite (s : State) (m : Nat) : State :=
  let x := s.mr m
  match s.mech? m with
  | none => s
  | some (q, mc) =>
    if (s.roundFrame q.num).isNone then s
    else if x.st = CSt.pair then
      match x.rec_ with
      | some r => (s.setMr m { x with st := .write, outcome := 0 }).present m r
      | none => s
    else
      let s := s.setMr m { x with st := .write, rec_ := none, acc := none }
      match s.carriedRec mc x.frame with
      | some r => s.present m r
      | none => s

/-- A mechanism decided without an entry. -/
def State.carry (s : State) (m outcome : Nat) : State := s.setMr m { s.mr m with st := .carried, outcome, rec_ := none }

/-- The Saucer's stop time has passed by b_n, and nothing else keeps mechanism m from a commit (R202, R334, R336). -/
def State.mayCommit (s : State) (m b : Nat) : Bool :=
  let w := s.wm m
  !s.latched m && !w.portHold && (!w.held || (w.issued && decide (w.iss + 2000 * s.tHalf m ≤ b)))

/-- A hold that began after the try bars the entry that passed it (R192, R202). -/
def State.barHeld (s : State) (m : Nat) : State :=
  if (s.mr m).st = CSt.pair ∧ !s.mayCommit m s.round.b then s.carry m 6 else s

/-- A record accepted for an entry whose mechanism has been held since (R202, R324): the entry is not committed, and in group 1 the
standstill record follows it. -/
def State.barWritten (s : State) (m : Nat) : State :=
  let x := s.mr m
  if x.st = CSt.write ∧ x.outcome = 0 ∧ x.acc = some true ∧ !s.mayCommit m s.round.b then
    if s.round.group = 1 then
      let s := s.setMr m { x with outcome := 6, rec_ := none, acc := none }
      match s.mech? m with
      | some (_, mc) => (match s.carriedRec mc x.frame with | some r => s.present m r | none => s)
      | none => s
    else s.setMr m { x with outcome := 6 }
  else s

/-- The decisions are complete: the pair test, the confirmations, and write group 1. -/
def State.beginWrites (s : State) : State :=
  let s := ((List.range 16).foldl State.barHeld s).pairTest.issueConfirms
  (List.range 16).foldl State.enterWrite { s with round := { s.round with group := 1 } }

/-- Some mechanism of the round is still in PICK or CHECK. -/
def State.deciding (s : State) : Bool := s.round.mechs.any fun x => decide (x.st = CSt.pick) || decide (x.st = CSt.check)

/-- The writes begin as soon as the last mechanism has left CHECK. -/
def State.decide? (s : State) : State := if s.round.busy && s.round.group == 0 && !s.deciding then s.beginWrites else s

/-! ### Tries (R189, R190, R192, R243) -/

/-- The dies and cores of a try of an entry from a source core (R243): REPLAY on the source's die where it can, RECHECK on the die
that does not hold the source. Where both fall on one die REPLAY is given the core that the scheduler's rule picks. -/
def State.tryPlaces (s : State) (q : PartCfg) (src : Nat) : Option (Nat × List Nat × Nat × List Nat) :=
  let own := s.tryCores q (src / 64) ikREPLAY [src]
  let far := s.tryCores q (1 - src / 64) ikRECHECK [src]
  if !own.isEmpty then (if far.isEmpty then none else some (src / 64, own, 1 - src / 64, far))
  else
    match minOn (fun k => ((s.sch (1 - src / 64)).slots.getD (k % 64) []).length) far with
    | some k => let rest := far.filter (· != k); if rest.isEmpty then none else some (1 - src / 64, [k], 1 - src / 64, rest)
    | none => none

/-- The address that a candidate's items carry: its primitive, or its hand-off record (R110, R152). -/
def State.candAddr (s : State) (q : PartCfg) (m : Mech) (ctx candId frame : Nat) : Nat :=
  if candId < 2 ^ 31 then s.primAt q m candId
  else
    match q.solver.ctxs.find? (·.ctx == ctx) with
    | some c =>
      let at_ (i : Nat) : Option Nat := ((s.eng i).tallyOf ctx frame).map fun y => handAddr y.host i frame (candId - 2 ^ 31)
      ((at_ c.engine).orElse fun _ => at_ (c.engine / 2 * 2 + (1 - c.engine % 2))).getD 0
    | none => 0

/-- A try of mechanism m fails for want of an eligible core on a die (R243): counted, traced and recorded, with no verdict and no
suspicion. -/
def State.tryFails (s : State) (m d : Nat) : State :=
  let x := s.mr m
  let s := (s.inc (Reg.schNoCore d)).trace d 0x0A 0xFF { part := x.part, task := 0xFFFF, cls := clsS } 0
  (s.log { kind := ekNO_CORE, act := actOf ekNO_CORE, cls := clsS, time := s.time }).tdc x.part x.frame 7

/-- The next entry of mechanism m picked, over the entries that are left (R189, R190, R192): a SUSPECT entry is skipped, a try without
eligible cores fails at once. -/
def State.pick (n m : Nat) : List SelEntry → State → State
  | [], s => s.carry m 1
  | e :: r, s =>
    let x := s.mr m
    let s := s.setMr m { x with next := x.next + 1 }
    if e.suspect then State.pick n m r (s.tdc x.part x.frame 7)
    else if x.tries = 4 then s.carry m 2
    else
      let s := if x.tries = 0 then s else s.inc Reg.selFallback
      let s := s.setMr m { s.mr m with pos := x.next, tries := x.tries + 1, st := .check }
      let q := s.pcfg x.part
      match q.mechOf e.v.ctx, s.tryPlaces q e.source with
      | some mc, some (d1, k1, d2, k2) =>
        let a := s.candAddr q mc e.v.ctx e.v.candId x.frame
        let it (kind aff : Nat) : Item := tryItem kind x.part x.frame s.fld.epoch e.v.ctx e.v.candId a aff
        (s.pushTry d1 (it ikREPLAY (affMask k1))).pushTry d2 (it ikRECHECK (affMask k2))
      | _, _ =>
        State.pick n m r (s.tryFails m (1 - e.source / 64 % 2))

/-- The next pick of mechanism m. -/
def State.pickNext (s : State) (m : Nat) : State := State.pick 0 m ((s.mr m).list.entries.drop (s.mr m).next) s

/-! ### SELECT_END (R187, R188, R192, R194) -/

/-- A list that does not stand by SELECT_END is written with LATE (R186, R187). -/
def State.lateList (s : State) (p n m : Nat) : State :=
  s.store (listBase m n) (listBytes (n % 2 ^ 32) m (s.epochOf p n) (s.goalOf p n m) true {})

/-- The lists of one partition's frame at SELECT_END: the late ones marked and counted, the others traced (R187, R443). -/
def State.sealLists (s : State) (e : Nat × Nat) : State :=
  let ms := (s.pcfg e.1).mechs.map (·.num)
  let late := ms.filter fun m => !s.round.stands.contains (m, e.2)
  let s := late.foldl (fun s m => s.lateList e.1 e.2 m) s
  let s := if late.isEmpty then s else (s.inc (Reg.selListLate 0)).tdc e.1 e.2 3
  (ms.filter (!late.contains ·)).foldl (fun s m =>
    (decList (s.peek (listBase m e.2) 512)).entries.foldl (fun s x => s.traceVerdict e.1 2 m x.v) s) s

/-- Mechanism m at the start of the round. -/
def State.enterRound (s : State) (m : Nat) : State :=
  match s.mech? m with
  | none => s.setMr m {}
  | some (q, _) =>
    match s.round.parts.find? (·.1 == q.num) with
    | none => s.setMr m { st := .carried, part := q.num, frame := (s.roundFrame q.num).getD 0, outcome := if s.held m then 6 else 1 }
    | some (p, n) =>
      let s := s.setMr m { st := .carried, part := p, frame := n }
      if s.round.noEpoch then s.carry m 5
      else if !s.round.stands.contains (m, n) then s.carry m 4
      else if !s.mayCommit m s.round.b then s.carry m 6
      else s.setMr m { s.mr m with st := .pick, list := decList (s.peek (listBase m n) 512) }

/-- The commit round of the master frame N whose check window closed at `c` starts (R188). -/
def State.startRound (s : State) (frame c t : Nat) : State :=
  let ps := s.mechParts.filterMap fun p => (s.frameClosing p c).map fun n => (p, n)
  let b := match ps with
    | (p, n) :: _ => s.bOf p n
    | [] => s.bOf (s.master.getD 0) frame
  let s := { s with round := { s.round with
    busy := true, frame, late := false, noEpoch := s.fld.closed || !s.fld.valid, group := 0, b, abandoned := false, next := frame + 1,
    parts := ps } }
  let s := ps.foldl State.sealLists s
  let s := (List.range 16).foldl State.enterRound s
  let s := s.wdServe 6 frame t
  ((List.range 16).foldl (fun s m => if (s.mr m).st = CSt.pick then s.pickNext m else s) s).decide?

/-- SELECT_END (R187, R188, R245): flag 28 of partition p; the first partition of a round starts it. -/
def execSelectEnd (p late : Nat) (s : State) : Host.Outcome State Fault Refusal :=
  let n := (s.prun p).nSel
  (if s.runsTail p n && decide (n < (s.prun p).opened) then
     let t := s.phaseAt p n (s.pcfg p).frame.selectEnd + late
     let s := s.at t
     let s := (s.setPRun p { s.prun p with nSel := n + 1 }).phaseFlag p 28
     let c := s.closeOf p n
     match s.master with
     | none => s
     | some q =>
       match s.frameClosing q c with
       | some f => if (s.mechParts.contains p || p == q) && s.round.next ≤ f && !s.round.busy then s.startRound f c t else s
       | none => s
   else s).done

/-! ### TRY_RESULT (R141, R189, R190) -/

/-- A verdict's bytes as R189 compares them: without COST and the REPLAYED and RECHECK bits. -/
def Verdict.common (v : Verdict) : List Byte :=
  ({ v with cost := 0, flags := v.flags - (if v.has vfREPLAYED then 2 ^ 18 else 0) - (if v.has vfRECHECK then 2 ^ 27 else 0) } : Verdict).bytes

/-- The DONE slot of an item kind for a candidate, with its core. -/
def State.doneSlot (s : State) (kind m candId ctx : Nat) : Option (Nat × CSlot) :=
  s.cores.zipIdx.findSome? fun e =>
    (e.1.slots.find? fun (x : CSlot) => x.item.kind == kind && x.mech == m && x.candId == candId && x.ctx == ctx
      && decide (x.ph = SlotPh.done)).map fun x => (e.2, x)

/-- A try that ends in a disagreement (R190, R375): counted, the three cores suspected, its confirmation to come. -/
def State.disagree (s : State) (m : Nat) (e : SelEntry) (a b : Nat × CSlot) : State :=
  let x := s.mr m
  let s := (s.inc Reg.selDisagree).tdc x.part x.frame 7
  let r := s.record { kind := ekREPLAY_DISAGREE, act := actOf ekREPLAY_DISAGREE, unit := coreUnit a.1, cls := clsS, time := s.time,
                      aux := s.fld.epoch % 65536 + coreUnit b.1 * 65536, op := inputIndex e.v, synd := coreUnit e.source }
  let s := [e.source, a.1, b.1].foldl State.suspect r.2
  let c : Confirm :=
    { mech := m, part := x.part, frame := x.frame, epoch := s.fld.epoch, source := e.source, replay := a.1, recheck := b.1,
      vReplay := a.2.verdict.common, vRecheck := b.2.verdict.common, candId := e.v.candId, ctx := e.v.ctx, poses := a.2.poses,
      addr := a.2.addr, ref := r.1 }
  { s with errs := { s.errs with confs := s.errs.confs ++ [c] } }

/-- The verdicts of a try taken and judged. -/
def State.judgeTry (s : State) (m : Nat) (mc : Mech) (e : SelEntry) (a b : Nat × CSlot) : State :=
  let x := s.mr m
  let s := ((s.freeSlot a.1 a.2.n).freeSlot b.1 b.2.n).traceVerdict x.part 1 m a.2.verdict
  let s := s.traceVerdict x.part 1 m b.2.verdict
  if a.2.verdict.common ≠ b.2.verdict.common then (s.disagree m e a b).pickNext m
  else if a.2.verdict.has vfCOLLIDED then s.pickNext m
  else s.setMr m { x with st := .pair, rec_ := some (s.entryRec mc x.frame x.pos a.2), acc := none }

/-- An item of the try of mechanism m's entry e. -/
def State.tryOf (s : State) (m : Nat) (e : SelEntry) (i : Item) : Bool :=
  i.part == (s.mr m).part && (i.kind == ikREPLAY || i.kind == ikRECHECK) && i.ctx == e.v.ctx && i.first == e.v.candId

/-- The die on which an item of the try waits with no eligible core left (R243). -/
def State.tryStuck (s : State) (m : Nat) (e : SelEntry) : Option Nat :=
  [0, 1].find? fun d => (s.sch d).commitQ.any fun i => s.tryOf m e i && !(((s.pcfg i.part).coresOn d).any fun k => s.takes k i)

/-- The try of entry e given up: its items and slots go, and the next entry is picked (R243). -/
def State.dropTry (s : State) (m d : Nat) (e : SelEntry) : State :=
  let mine := s.tryOf m e
  let s := { s with
    sched := s.sched.map fun (x : SchedDie) => { x with commitQ := x.commitQ.filter (!mine ·), slots := x.slots.map fun (l : List Item) => l.filter (!mine ·), idle := [] }
    cores := s.cores.map fun (c : CoreSt) => { c with slots := c.slots.filter fun y => !mine y.item } }
  (s.tryFails m d).pickNext m

/-- TRY_RESULT (R189, R190, R243): both verdicts of mechanism m's try have returned, or no core is left that may give one. -/
def execTryResult (m t : Nat) (s : State) : Host.Outcome State Fault Refusal :=
  let s := s.at t
  let x := s.mr m
  (match s.mech? m, x.list.entries[x.pos]? with
   | some (_, mc), some e =>
     if s.round.busy ∧ s.round.group = 0 ∧ x.st = CSt.check then
       match s.doneSlot ikREPLAY m e.v.candId e.v.ctx, s.doneSlot ikRECHECK m e.v.candId e.v.ctx with
       | some a, some b => (s.judgeTry m mc e a b).decide?
       | _, _ => match s.tryStuck m e with | some d => (s.dropTry m d e).decide? | none => s
     else s
   | _, _ => s).done

/-! ### ROUND_LATE (R194) -/

/-- ROUND_LATE (R194): at COMMIT_END − 12 µs decisions that are not complete are abandoned, and every mechanism is written as
CARRIED. -/
def execRoundLate (s : State) : Host.Outcome State Fault Refusal :=
  (if s.round.busy ∧ s.round.group = 0 then
     let s := s.at (s.roundEnd - 12000)
     let s := s.round.parts.foldl (fun s e => s.tdc e.1 e.2 4) (s.inc Reg.selLate)
     let s := { s with round := { s.round with late := true, abandoned := true }, sched := s.sched.map SchedDie.dropTries }
     let s := (List.range 16).foldl (fun s m =>
       match (s.mr m).st with
       | .pick => s.carry m 1
       | .check => s.carry m 1
       | .pair => s.carry m 1
       | _ => s) s
     s.beginWrites
   else s).done

/-! ### COMMIT_RECORD (R201, R328, R336, R450) -/

/-- The state at B that a record holds is the one in force, to the bit after rounding to FP32. -/
def State.recState (_s : State) (r : CommitRec) (axes : Nat) (st : List AxState) : Bool :=
  (List.range axes).all fun i => let k := st.getD i {}
    r.q0.getD i 0 == toF32 k.p && r.qd0.getD i 0 == toF32 k.v
    && (r.kind != 2 ||
      (leAt r.traj (0x40 + 8 * i) 8 == (d32 (r.q0.getD i 0)).bits && leAt r.traj (0xA0 + 8 * i) 8 == (d32 (r.qd0.getD i 0)).bits
        && leAt r.traj (0x100 + 8 * i) 8 == (d32 (toF32 k.a)).bits))

/-- The conditions of R201 on the record in a mailbox. -/
def State.recOk (s : State) (m : Nat) (mc : Mech) (b : List Byte) (r : CommitRec) : Bool :=
  crcOk b && r.mech == m && r.tHalf == tHalfOf mc && r.h + r.tHalf * 1000 == r.b + r.durUs * 1000
  && (match s.branchState m r.b with | some st => s.recState r mc.axes st | none => false)
  && (r.kind != 3 || r.qd0.all (· == 0))

/-- A moving record refused under a latch, for a drive that is not ready, or by the separation monitor (R328, R336, R450). -/
def State.motionBarred (s : State) (m : Nat) (r : CommitRec) : Bool := r.kind != 3 && (s.latched m || !s.mechReady m)

/-- A record accepted (R201, R202, R338): the plan and Saucer from B; a hold whose Saucer stands still by B ends. A record already in
force, presented again, changes no plan. That of a mechanism whose partition has no frame in the round ends no hold and energises no
pair: R65 keeps both until p's first commit after its next START. -/
def State.accept (s : State) (m : Nat) (r : CommitRec) : State :=
  let w := s.wm m
  let mine := s.inRound m
  let ends := mine && w.held && !s.latched m && !w.portHold && decide (w.iss + 2000 * s.tHalf m ≤ r.b)
  let s := s.setMr m { s.mr m with acc := some true, wasHeld := w.held }
  let again := decide (r.b ≤ s.time) && !w.held
  s.setWm m { w with next := if again then w.next else some r, held := w.held && !ends, accepted := if mine then 255 else w.accepted,
                     causes := if ends then 0 else w.causes, s1At := if ends ∧ w.atRest then none else w.s1At }

/-- A record refused (R192, R201): counted; one that committed an entry turns its mechanism CARRIED, whose carried record follows. -/
def State.refuseRec (s : State) (m : Nat) (mc : Mech) : State :=
  let x := s.mr m
  let s := (s.inc Reg.selRefused).tdc x.part x.frame 7
  if x.outcome = 0 then
    let s := s.setMr m { x with outcome := 7, rec_ := none, acc := none }
    match s.carriedRec mc x.frame with
    | some r => s.present m r
    | none => s
  else s.setMr m { x with acc := some false }

/-- COMMIT_RECORD (R201, R297, R328): the warden's answer to the record in mechanism m's mailbox. -/
def execCommitRecord (m t : Nat) (s : State) : Host.Outcome State Fault Refusal :=
  let s := (s.at t).roll m t
  let x := s.mr m
  (match s.mech? m with
   | none => s
   | some (_, mc) =>
     if s.round.busy ∧ s.round.group = 1 ∧ x.rec_.isSome ∧ x.acc = none then
       let a := recBase m x.frame
       let b := s.peek a 0x4000
       let r := decCommit b
       if s.poisoned a 0x4000 then (s.inc (Reg.memPoisonConsumed 0)).refuseRec m mc
       else if !s.recOk m mc b r || s.motionBarred m r || (decide (x.outcome = 0) && !s.mayCommit m r.b) then s.refuseRec m mc
       else if r.kind ≠ 3 ∧ s.ssmAgainst m r then (s.inc Reg.wdnSsmRefused).refuseRec m mc
       else s.accept m r
     else s).done

/-! ### WRITE_GROUP (R193, R196 to R198, R312) -/

/-- The record in force from b_n on for mechanism m. -/
def State.planFrom (s : State) (m : Nat) : Option CommitRec :=
  let w := s.wm m
  match w.next with
  | some r => if r.b ≤ s.round.b then some r else w.cur
  | none => w.cur

/-- The plan block of mechanism m for bin j of the copy anchored at C_{N+1} (R134, R198). Every defined mechanism has VALID 1; for one
that has no record in force, its partition never started, the spec states no envelope: its box and spheres are free. -/
def State.planBlock (s : State) (m : Mech) (frame anchor j : Nat) : List Byte :=
  match s.planFrom m.num with
  | none =>
    (encPlanBlock (frame % 2 ^ 32) true { lo := [], hi := [] } (List.replicate (max 1 m.mid) { x := 0, y := 0, z := 0, r := 0 })).take 8
      ++ (List.range 312).map (fun i => Config.planByte s.fresh (m.num * 16 + j) i)
  | some r =>
    let prev := if r.b = s.round.b ∧ (r.kind ≠ 3 ∨ (s.wm m.num).issued) then s.prevSpan m.num else []
    let e := binEnvelope m.mid anchor j r prev
    encPlanBlock (frame % 2 ^ 32) true ((boxOf e).getD { lo := [], hi := [] }) e

/-- The plan table copy of one core for frame n (R134). -/
def State.writeCore (s : State) (n k : Nat) (blocks : List (Nat × Nat × List Byte)) : State :=
  blocks.foldl (fun s e => s.store (planAddr k n e.1 e.2.1) e.2.2) (s.touch (padBase k))

/-- Group 2: the copy of the frame whose check window closes at C_{N+1}, in its partition's numbering, in every assigned core (R198). -/
def State.writePlans (s : State) : State :=
  let master := s.master.getD 0
  let c := s.closeOf master s.round.frame + s.period master
  let s := if s.cfg.mechs.any fun e => (s.planFrom e.2.num).isNone then { s with fresh := s.fresh + 1 } else s
  s.cfg.parts.foldl (fun s q =>
    let n := s.countedAt q.num c
    let bl := s.cfg.mechs.flatMap fun e => (List.range 16).map fun j => (e.2.num, j, s.planBlock e.2 n c j)
    (q.cores.foldl (fun s k => s.writeCore n k bl) s).setPRun q.num { s.prun q.num with plan := true }) s

/-- START_CLASS of a start velocity (R196); a mechanism without a lattice has class 0. -/
def State.classOf (s : State) (q : PartCfg) (m : Mech) (qd0 : List Nat) : Nat :=
  match q.caddy[m.caddy]? with
  | none => 0
  | some r => let img := s.peek r.addr r.len; startClass img (latticeAt img m.lattice) (qd0.map (fOfBits f32))

/-- The start state of frame n written to one context (R102, R153, R196, R197). -/
def State.writeStart (s : State) (q : PartCfg) (n cls : Nat) (q0 qd0 a0 : List Nat) (block : List Byte) (x : Nat) : State :=
  let a := ctxBase x
  let s := (startWrites cls (n % 2 ^ 32) q0 qd0).foldl (fun s e => s.store (a + e.1) e.2) s
  let s := if block.isEmpty then s else s.store (a + 0x100) block
  let s := if q.privCtxs.contains x then s.store (a + 0x98) (a0.flatMap (toLE 4)) else s
  s.startWritten q.num x n

/-- Group 3 for mechanism m. -/
def State.writeStates (s : State) (q : PartCfg) (m : Mech) (n : Nat) : State :=
  let x := s.mr m.num
  let b := s.round.b + s.period q.num
  match s.branchState m.num b, s.planFrom m.num with
  | some st, some r =>
    let qd0 := f32Of st (·.v)
    let cls := s.classOf q m qd0
    let s := if cls = 0xFFFF then s.inc Reg.selNoclass else s
    let won := decide (x.outcome = 0)
    ((List.range m.ctxCount).map (· + m.ctxFirst)).foldl (fun s c =>
      let blk := commitBlock (n % 2 ^ 32) x.outcome (if won then x.pos else 0xFF) r.kind
        (if won && r.ctx == c then r.candId else 0xFFFFFFFF) r.tHalf r.b r.h
      s.writeStart q (n + 1) cls (f32Of st (·.p)) qd0 (f32Of st (·.a)) blk c) s
  | _, _ => s

/-- SWP_BIND_LAST of a partition on each die whose context table it uses (R105). -/
def State.bindLast (s : State) (p n : Nat) : State :=
  let us := min 65535 ((s.time - s.winStart p n) / 1000)
  [0, 1].foldl (fun s d =>
    if (s.pcfg p).mechs.any fun m => (List.range m.ctxCount).any fun i => (m.ctxFirst + i) / 8192 == d
    then s.wr (Reg.swpBindLast d p) (BitVec.ofNat 32 (n % 65536 * 65536 + us)) else s) s

/-- Group 3: start blocks and commit blocks of every mechanism that the round writes, those carried with a partition that has no
frame in it among them (R193). -/
def State.writeGroup3 (s : State) : State :=
  let s := s.roundMechs.foldl (fun s e => s.writeStates e.1 e.2.1 e.2.2) s
  s.round.parts.foldl (fun s e => s.bindLast e.1 (e.2 + 1)) s

/-- Group 4: GLB_FRAME_COMMIT of each partition of the round (R38). -/
def State.writeGroup4 (s : State) : State :=
  s.round.parts.foldl (fun s e => s.setPRun e.1 { s.prun e.1 with commit := some (e.2 % 2 ^ 32), started := true }) s

/-- The digest of a partition after a record accepted (R312). -/
def digestOf (crc : Word) (r : CommitRec) : Word :=
  crc32c (toLE 4 crc.toNat ++ ({ r with frame := 0, b := 0, h := 0 } : CommitRec).bytesWith 0)

/-- Mechanism m at the end of the round: its state, its counters and its partition's digest, which a partition reset in the round has
ended (R313). -/
def State.endMech (s : State) (m : Nat) : State :=
  let x := s.mr m
  if !s.inRound m then
    (if (s.mech? m).isSome then (s.setMr m { x with st := if x.outcome = 6 then .held else .carried }).inc Reg.selCarried else s) else
  let s := match x.rec_ with
    | some r => if x.acc = some true ∧ !(s.prun x.part).resetting then s.setPRun x.part { s.prun x.part with crc := digestOf (s.prun x.part).crc r } else s
    | none => s
  let won := decide (x.outcome = 0) && x.acc == some true
  let s := s.setMr m { x with st := if won then .committed else if x.outcome = 6 then .held else .carried }
  if won then s.add64 Reg.selCommitsLo 1 else (s.inc Reg.selCarried).raiseP x.part 3

/-- The round ends (R65, R193, R332): every mechanism, the interrupts, the COMMIT service, and the Saucers of stopping partitions. -/
def State.endRound (s : State) (t : Nat) : State :=
  let s := (List.range 16).foldl State.endMech s
  let ps := s.round.parts
  let s := { s with round := { s.round with busy := false, group := 0 } }
  let s := ps.foldl (fun s e => s.raiseP e.1 0) s
  let s := s.wdServe 7 s.round.frame t
  ps.foldl (fun s e => if (s.prun e.1).lastFrame = some e.2 then s.commandStop e.1 t else s) s

/-- WRITE_GROUP (R193): every write of the group in progress is acknowledged. A round that does not take effect ends after group 3. -/
def execWriteGroup (t : Nat) (s : State) : Host.Outcome State Fault Refusal :=
  let s := s.at t
  let s := if s.round.busy then (List.range 16).foldl State.barWritten s else s
  let next (s : State) (g : Nat) : State := { s with round := { s.round with group := g } }
  (if !s.round.busy then s
   else match s.round.group with
     | 1 => if s.round.mechs.any fun x => x.rec_.isSome && x.acc == none && decide (x.st = CSt.write) then s else next s 2
     | 2 => next s.writePlans 3
     | 3 => if s.round.abandoned || s.round.noEpoch then s.writeGroup3.endRound s.time else next s.writeGroup3 4
     | 4 => s.writeGroup4.endRound s.time
     | _ => s).done

/-! ### COMMIT_END (R25, R245) -/

/-- A record of a round that did not complete does not take effect: the plan before goes on, and a hold that it ended with it. -/
def State.undoRec (s : State) (m : Nat) : State :=
  let x := s.mr m
  let w := s.wm m
  if x.acc = some true ∧ w.next.any (fun r => decide (r.b = s.round.b)) then
    s.setWm m { w with next := none, held := w.held || x.wasHeld }
  else s

/-- The round in progress is not complete at COMMIT_END: every mechanism CARRIED, GLB_FRAME_COMMIT as it was; the start states of the
next frame are those of the plans in force once the commit has failed (R103). -/
def State.failRound (s : State) (t : Nat) : State :=
  let s := { s with sched := s.sched.map SchedDie.dropTries }
  let s := (List.range 16).foldl (fun (s : State) m =>
    let s := s.undoRec m
    if s.inRound m then s.setMr m { s.mr m with outcome := if (s.mr m).outcome = 0 then 1 else (s.mr m).outcome, acc := none } else s) s
  let s := s.writeGroup3
  let s := (List.range 16).foldl State.endMech s
  let ps := s.round.parts
  let s := { s with round := { s.round with busy := false, group := 0 } }
  let s := ps.foldl (fun s e => s.raiseP e.1 0) s
  ps.foldl (fun s e => if (s.prun e.1).lastFrame = some e.2 then s.commandStop e.1 t else s) s

/-- COMMIT_END (R25, R65, R245): flag 29 of partition p; a round that serves it and is not complete does not take effect; a partition
without mechanisms that stops is STOPPED. -/
def execCommitEnd (p : Nat) (s : State) : Host.Outcome State Fault Refusal :=
  let n := (s.prun p).nEnd
  (if s.runsTail p n && decide (n < (s.prun p).opened) then
     let t := s.phaseAt p n (s.pcfg p).frame.commitEnd
     let s := s.at t
     let s := (s.setPRun p { s.prun p with nEnd := n + 1 }).phaseFlag p 29
     let s := if s.round.busy ∧ s.round.parts.contains (p, n) then s.failRound t else s
     if (s.prun p).lastFrame = some n then s.commandStop p t else s
   else s).done

/-! ### Confirmation items (R375 to R377) -/

/-- The confirmation that a slot's item belongs to. -/
def State.confOf (s : State) (x : CSlot) : Option Confirm :=
  s.errs.confs.find? fun c => c.mech == x.mech && c.candId == x.candId && c.ctx == x.ctx

/-- A confirmation removed. -/
def State.dropConf (s : State) (c : Confirm) : State := { s with errs := { s.errs with confs := s.errs.confs.erase c } }

/-- A CONFIRM verdict judged: the suspect repeats the check alone, or the event is UNATTRIB. -/
def State.judgeConfirm (s : State) (c : Confirm) (core : Nat) (v : List Byte) : State :=
  let s := s.clearSuspect c.source
  let alone (s : State) (other k : Nat) : State :=
    let c' := { c with core, vConf := v, suspect := some k }
    let s := (s.dropConf c).clearSuspect other
    ({ s with errs := { s.errs with confs := s.errs.confs ++ [c'] } } : State).pushTry (k / 64)
      (tryItem ikREPEAT c.part c.frame c.epoch c.ctx c.candId c.addr (affMask [k]))
  if v = c.vReplay then alone s c.replay c.recheck
  else if v = c.vRecheck then alone s c.recheck c.replay
  else (((s.dropConf c).clearSuspect c.replay).clearSuspect c.recheck).event { kind := ekUNATTRIB, t := s.time } c.ref

/-- CONFIRM (R375, R377): the verdict of a CONFIRM item on a core. -/
def execConfirm (core slot t : Nat) (s : State) : Host.Outcome State Fault Refusal :=
  let s := s.at t
  (match (s.core core).slot slot with
   | none => s
   | some x =>
     if x.item.kind = ikCONFIRM ∧ x.ph = SlotPh.done then
       let s := s.freeSlot core slot
       match s.confOf x with
       | some c => if c.suspect.isNone then s.judgeConfirm c core x.verdict.common else s
       | none => s
     else s).done

/-- A REPEAT verdict judged (R375): equal to the CONFIRM verdict the fault is transient and counts one event, else it is lasting. -/
def State.judgeRepeat (s : State) (c : Confirm) (k : Nat) (v : List Byte) : State :=
  let s := s.dropConf c
  if v = c.vConf then s.countCore c k s.time
  else
    let key := FKey.unit (coreUnit k) 0
    let (ref, s) := (s.clearSuspect k).record (c.rec_ k 6 (s.count key ekREPLAY_DISAGREE s.time).2.1 s.time)
    s.lasting key ref s.time

/-- REPEAT (R375): the verdict of a REPEAT item on the suspect core. -/
def execRepeat (core slot t : Nat) (s : State) : Host.Outcome State Fault Refusal :=
  let s := s.at t
  (match (s.core core).slot slot with
   | none => s
   | some x =>
     if x.item.kind = ikREPEAT ∧ x.ph = SlotPh.done then
       let s := s.freeSlot core slot
       match s.confOf x with
       | some c => if c.suspect = some core then s.judgeRepeat c core x.verdict.common else s
       | none => s
     else s).done

/-! ### Deadline and standstill (R25, R65, R199, R320, R322) -/

/-- DEADLINE (R320): at H − 1 µs no later commit of mechanism m stands. -/
def execDeadline (m : Nat) (s : State) : Host.Outcome State Fault Refusal :=
  (match s.lastRec m with
   | none => s
   | some r =>
     let t := r.h - 1000
     if (s.mech? m).isSome ∧ s.time ≤ t ∧ !(s.wm m).held then ((s.at t).roll m t).trigger 1 t [m] else s).done

/-- STANDSTILL (R322): T_s after its issue the Saucer of mechanism m has run to standstill. -/
def execStandstill (m : Nat) (s : State) : Host.Outcome State Fault Refusal :=
  let w := s.wm m
  (match s.mech? m with
   | none => s
   | some (q, _) =>
     if w.issued ∧ !w.atRest then
       let s := s.at (w.iss + 2000 * s.tHalf m)
       let s := s.setWm m { w with atRest := true, s1At := none }
       let s := if w.s1At.isSome then s.dropOuts m else s
       s.stopCheck q.num
     else s).done

end Sys2Proof.Machine
end

