-- ==== Sys2Proof/Machine/SafetyFam.lean ====
section
/-! DEFINITION. The safety commands (14_safety_concept.md): monitoring periods, channel failures, watchdog windows, safety inputs,
warden commands, stop-request outputs and Safety over EtherCAT connections. -/

namespace Sys2Proof.Machine

/-! ### Channels and monitoring (R316, R326, R337) -/

/-- A channel failure (R337): the failed channels, the state, and CHANNEL Saucers of category 0 for every mechanism. -/
def State.channelFail (s : State) (a b : Bool) (t : Nat) : State :=
  let first := s.warden.chA && s.warden.chB
  let s := { s with warden := { s.warden with chA := s.warden.chA && !a, chB := s.warden.chB && !b } }
  if !first then s else
  (s.setWState .channelFail).trigger 9 t s.mechNums (some 0)

/-- The channel of a mechanism's monitoring decides against it (R326): the SSM trigger, counted. -/
def State.ssmStop (s : State) (m t : Nat) : State :=
  match s.inForce m t with
  | some r => if s.ssmAgainst m r then (s.inc Reg.wdnSsmStops).trigger 3 t [m] else s
  | none => s

/-- MONITORING_PERIOD (R316, R326): a period of 100 µs starts. The filtered OSSD states are read; a disagreement of the channels
that lasts two periods is a channel failure; every covered mechanism with SSM is judged. -/
def execMonitoringPeriod (disagree : Bool) (t : Nat) (s : State) : Host.Outcome State Fault Refusal :=
  let w := s.warden
  (if s.dev.up ∧ t % 100000 = 0 ∧ (w.chA || w.chB) then
     let s := s.at t
     let s := { s with warden := { w with ossdRead := w.ossd.map DualIn.on, disagree := if disagree then w.disagree + 1 else 0 } }
     let s := if s.warden.disagree = 2 then s.channelFail true true t else s
     s.mechNums.foldl (fun s m => s.ssmStop m t) s
   else s).done

/-- CHANNEL (R316, R337): a lockstep mismatch in channel A, or B. -/
def execChannel (b : Bool) (t : Nat) (s : State) : Host.Outcome State Fault Refusal :=
  let w := s.warden
  (if s.dev.up && (if b then w.chB else w.chA) then (s.at t).channelFail (!b) b t else s).done

/-! ### Watchdog windows that close (R332 to R334) -/

/-- The window of output watchdog w for the cycle its port is to send next, ns. -/
def State.outOpen (s : State) (w : Nat) : Nat × Nat :=
  let p := s.fif.ports.getD (w - 8) {}
  (p.cfgRec.start p.k + 10 * (s.wdWin w).1, p.cfgRec.start p.k + 10 * (s.wdWin w).2)

/-- Output watchdog w expects a service in each cycle of its port (R315, R332). -/
def State.outExpects (s : State) (w : Nat) : Bool :=
  (s.fif.ports.getD (w - 8) {}).cycling && !(s.portMechs (w - 8)).isEmpty

/-- WATCHDOG (R333, R334): the window that watchdog w has open closes with no service by t; the violation is stamped at the
close. -/
def execWatchdog (w t : Nat) (s : State) : Host.Outcome State Fault Refusal :=
  (if !s.dev.up then s
   else if w < 8 then
     let c := (s.wdOpen w).2
     if s.wdExpects w ∧ c ≤ t then
       let s := s.at c
       (s.setWd w { s.wd w with expect := (s.wd w).expect + 1 }).wdViolate w 1 c
     else s
   else if w < 12 then
     let c := (s.outOpen w).2
     if s.outExpects w ∧ c ≤ t then
       let s := s.at c
       let p := s.fif.ports.getD (w - 8) {}
       let s := { s with fif := { s.fif with ports := listSet s.fif.ports (w - 8) { p with k := p.k + 1 } } }
       (s.add64 (Reg.fbsCyclesLo (w - 8)) 1).wdViolate w 1 c
     else s
   else s).done

/-! ### Safety inputs (R335, R336) -/

/-- The filtered wires of an input contradict each other; `enab` for the enabling device, whose wires are not equivalent. -/
def DualIn.bad (x : DualIn) (enab : Bool) : Bool := if enab then !x.filA && x.filB else x.filA != x.filB

/-- The input after a change of its filtered wires at t: since when they contradict each other, and a latched discrepancy ended. -/
def DualIn.look (x : DualIn) (enab : Bool) (t : Nat) : DualIn :=
  let x := { x with disagr := if !x.bad enab || x.disc then none else some (x.disagr.getD t) }
  let off := !x.filA && !x.filB
  if !x.disc then x
  else if enab then { x with disc := !off }
  else if off then { x with bothOff := true }
  else if x.filA && x.filB && x.bothOff then { x with disc := false, bothOff := false } else x

/-- One wire's filtered state changed. -/
def DualIn.wire (x : DualIn) (b level : Bool) (since : Nat) : DualIn :=
  if b then { x with lvlB := level, sinceB := since, filB := level } else { x with lvlA := level, sinceA := since, filA := level }

/-- The input numbered as in `WireIn`. -/
def Warden.input (w : Warden) (n : Nat) : DualIn :=
  if n < 4 then w.estop.getD n {} else if n < 12 then w.ossd.getD (n - 4) {} else w.enab

/-- An input replaced. -/
def Warden.setInput (w : Warden) (n : Nat) (x : DualIn) : Warden :=
  if n < 4 then { w with estop := listSet w.estop n x }
  else if n < 12 then { w with ossd := listSet w.ossd (n - 4) x } else { w with enab := x }

/-- The mechanisms that the ENABLE trigger names: those with ENABLE_REQUIRED (R320). -/
def State.enableMechs (s : State) : List Nat := s.mechNums.filter fun m => (s.msafe m).enableReq

/-- The enabling device after a change (R336): leaving the middle position is the ENABLE trigger; the middle position takes effect
again only after released. -/
def State.enableLook (s : State) (t : Nat) : State :=
  let w := s.warden
  let x := w.enab
  let mid := !x.disc && x.filA && !x.filB
  let left := w.enMid && !mid
  let rel := (w.enRel && !left) || (!x.disc && !x.filA && !x.filB)
  let s := if left then s.trigger 5 t s.enableMechs (some s.sglob.enable.2) else s
  { s with warden := { s.warden with enRel := rel, enMid := mid && (rel || w.enMid) } }

/-- Emergency-stop input n after a change from `was` (R320, R336): de-energised, it is latched, with the ESTOP trigger. -/
def State.estopLook (s : State) (n t : Nat) (was : Bool) : State :=
  if (s.warden.estop.getD n {}).on then s else
  let (ms, cat) := s.sglob.estop.getD n (0, 0)
  let s := if was then s.trigger 4 t (maskBits 16 ms) (some cat) else s
  { s with warden := { s.warden with estopLat := listSet s.warden.estopLat n true } }

/-- What follows from a change of an input. -/
def State.inputLook (s : State) (n t : Nat) (was : Bool) : State :=
  if n < 4 then s.estopLook n t was else if n < 12 then s else s.enableLook t

/-- INPUT_FILTER (R335): a wire of a safety input has held its new level for FILTER_US at t. -/
def execInputFilter (i : WireIn) (t : Nat) (s : State) : Host.Outcome State Fault Refusal :=
  let x := s.warden.input i.input
  (if s.dev.up ∧ i.input < 13 ∧ (if i.b then x.filB else x.filA) ≠ i.level then
     let s := s.at t
     let y := (x.wire i.b i.level (t - 1000 * s.sglob.filterUs)).look (i.input == 12) t
     ({ s with warden := s.warden.setInput i.input y } : State).inputLook i.input t x.on
   else s).done

/-- DISCREPANCY (R335): the filtered wires of an input have contradicted each other for longer than DISC_MS at t. -/
def execDiscrepancy (input t : Nat) (s : State) : Host.Outcome State Fault Refusal :=
  let x := s.warden.input input
  (match x.disagr with
   | none => s
   | some t0 =>
     if s.dev.up ∧ input < 13 ∧ t0 + 1000000 * s.sglob.discMs < t then
       let s := s.at t
       let y := { x with disc := true, disagr := none, bothOff := false }
       (({ s with warden := s.warden.setInput input y } : State).inc Reg.wdnDisc).inputLook input t x.on
     else s).done

/-! ### Warden commands (R331, R336) -/

/-- RESTART (R331): HELD ends and the planner dies restart, unless a life-cycle transition awaits cold reset (R427). -/
def State.wdnRestart (s : State) (t : Nat) : State :=
  if s.warden.state = .held then
    ({ s with dev := { s.dev with hold := s.dev.lcNext.isSome, restart := true, warmAt := t } } : State).setWState .fallback
  else s

/-- ESTOP_RESET (R336): the latch of an emergency-stop input ends where both wires are energised. -/
def State.estopReset (s : State) (n : Nat) : State :=
  if n < 4 && (s.warden.estop.getD n {}).on then { s with warden := { s.warden with estopLat := listSet s.warden.estopLat n false } }
  else s

/-- A write of WDN_CMD, which starts a command. -/
def State.wdnCommand (s : State) (v t : Nat) : State :=
  let s := s.wr Reg.wdnCmd (BitVec.ofNat 32 (v % 256))
  if v % 16 = 1 then s.wdnRestart t else if v % 16 = 2 then s.estopReset (v / 16 % 16) else s

/-- ESTOP_RESET (R336): function fn writes WDN_CMD with OP ESTOP_RESET and ARG n. -/
def execEstopReset (fn n t : Nat) (s : State) : Host.Outcome State Fault Refusal :=
  (s.onWrite { fn, off := Reg.wdnCmd } t fun s => s.wdnCommand (n % 16 * 16 + 2) t).done

/-- RESTART (R331): function fn writes WDN_CMD with OP RESTART. -/
def execRestart (fn t : Nat) (s : State) : Host.Outcome State Fault Refusal :=
  (s.onWrite { fn, off := Reg.wdnCmd } t fun s => s.wdnCommand 1 t).done

/-! ### Stop-request outputs (R339, R340) -/

/-- A test pulse begins on a channel's wire of an energised pair, or ends. -/
def OutPair.pulse (x : OutPair) (b on : Bool) : OutPair :=
  if b then (if on then (if x.drvB then { x with pulseB := true, fbB := false } else x)
             else if x.pulseB then { x with pulseB := false, fbB := x.drvB } else x)
  else (if on then (if x.drvA then { x with pulseA := true, fbA := false } else x)
        else if x.pulseA then { x with pulseA := false, fbA := x.drvA } else x)

/-- TEST_PULSE (R339): where TP_US is not zero, channel A's pulse begins at a whole second of device time, channel B's half a second
later, and it ends TP_US after that. -/
def execTestPulse (b : Bool) (t : Nat) (s : State) : Host.Outcome State Fault Refusal :=
  let tp := 1000 * s.sglob.tpUs
  let r := (t + if b then 500000000 else 0) % 1000000000
  (if s.dev.up ∧ tp ≠ 0 ∧ (r = 0 ∨ r = tp) then
     let s := s.at t
     { s with warden := { s.warden with outs := s.warden.outs.map fun (x : OutPair) => x.pulse b (decide (r = 0)) } }
   else s).done

/-- OUTPUT_FAULT (R340): the read-back of a wire has differed from the commanded level for longer than 1 ms. -/
def execOutputFault (pair : Nat) (b level : Bool) (t : Nat) (s : State) : Host.Outcome State Fault Refusal :=
  let x := s.warden.outs.getD pair {}
  (if s.dev.up ∧ pair < 8 ∧ !x.fault ∧ (if b then x.drvB else x.drvA) ≠ level then
     let s := (s.at t).deEnergise pair
     let y := s.warden.outs.getD pair {}
     let y := if b then { y with fault := true, fbB := level } else { y with fault := true, fbA := level }
     let s := { s with warden := { s.warden with outs := listSet s.warden.outs pair y } }
     s.trigger 11 t (s.namers pair) (some 0)
   else s).done

/-! ### Safety over EtherCAT (R343) -/

/-- Connection c of the safety content in force. -/
def State.soeRec (s : State) (c : Nat) : Option SoeRec := s.cfg.safety.bind (·.soe[c]?)

/-- A connection fails (R343): the SOE trigger, counted, and its session restarted. -/
def State.soeFail (s : State) (c : Nat) (r : SoeRec) (t : Nat) : State :=
  let s := { s with warden := { s.warden with soe := listSet s.warden.soe c { rxAt := t } } }
  (s.inc Reg.wdnSoeErr).trigger 8 t [r.mech] (some 0)

/-- SOE (R343): connection `conn` enters the fail-safe state, or its watchdog has expired by t. -/
def execSoe (conn : Nat) (watchdog : Bool) (t : Nat) (s : State) : Host.Outcome State Fault Refusal :=
  (match s.soeRec conn with
   | none => s
   | some r =>
     let x := s.warden.soe.getD conn {}
     if s.dev.up ∧ x.state ≠ 0 ∧ (!watchdog ∨ x.rxAt + 1000000 * r.wdMs ≤ t) then (s.at t).soeFail conn r t else s).done

end Sys2Proof.Machine
end

