-- ==== Sys2Proof/Machine/SliceFam.lean ====
section
/-! DEFINITION. Self-test slices and fault states (15_safety_evidence.md, 16_fault_handling.md): time windows, slices, intervals,
error events, the ends of fault states and of isolations, and the collector's commands. -/

namespace Sys2Proof.Machine

/-! ### Windows and intervals (R352, R356 to R363) -/

/-- The rotation of die d. -/
def State.rot (s : State) (d : Nat) : Rotation := s.rots.getD d {}
/-- A rotation replaced. -/
def State.setRot (s : State) (d : Nat) (r : Rotation) : State := { s with rots := listSet s.rots d r }

/-- The time section in force. -/
def State.timeSec (s : State) : TimeSec := s.cfg.time

/-- A window in which slices run: it admits N and is not SAFETY. -/
def TWin.slices (w : TWin) : Bool := !w.safety && bit w.admits 2

/-- The first window of the frame, from window i on and wrapping once, that is SAFETY or does not admit N: when it starts after the
start of the frame, µs. -/
def barWindow (c : TimeSec) (i P : Nat) : Option Nat :=
  let l := (c.wins.zipIdx.drop (i + 1)).map (fun e : TWin × Nat => (e.1, e.1.start)) ++ c.wins.map fun w => (w, w.start + P)
  (l.find? fun e : TWin × Nat => !e.1.slices).map (·.2)

/-- The instant by which a slice that starts at t must end, none where nothing bounds it; false where none may start (R357). -/
def State.sliceLimit (s : State) (t : Nat) : Bool × Option Nat :=
  match s.master.bind fun p => (s.masterFrame t).map fun n => (p, n) with
  | none => (true, none)
  | some (p, n) =>
    let st := s.winStart p n
    match s.timeSec.window ((t - st) / 1000) with
    | none => (true, none)
    | some (i, w) => (w.slices, (barWindow s.timeSec i (s.pcfg p).frame.P).map fun us => st + 1000 * us)

/-- The length of an interval in ns: DTI_FRAMES master frames, of 1 ms each while the master is not RUNNING (R356, R363). -/
def State.dtiLen (s : State) : Nat :=
  s.timeSec.dti * (match s.master with | some p => if s.running p then s.period p else 1000000 | none => 1000000)

/-- The end of the interval in progress on die d. -/
def State.dtiEnd (s : State) (d : Nat) : Nat := (s.rot d).start + s.dtiLen

/-- Microseconds left for slices from t to the end of the interval, counted as A is counted in R356. -/
def State.sliceLeft (s : State) (d t : Nat) : Nat :=
  let e := s.dtiEnd d
  match s.master.bind fun p => (s.masterFrame t).map fun n => (p, n) with
  | none => (e - t) / 1000 - 20
  | some (p, n) =>
    let now := (t - s.winStart p n) / 1000
    let rest := (e - s.winStart p (n + 1)) / (max 1 (s.period p))
    ((s.timeSec.wins.filter TWin.slices).map fun w => w.stop - max w.start now - 20).sum + rest * sliceRoom s.timeSec

/-- The rotation of die d is forced at t (R358). -/
def State.rotForced (s : State) (d t : Nat) : Bool :=
  decide (s.sliceLeft d t < 2 * ((s.rot d).pend.map fun e => sliceLen e.2).sum)

/-! ### Slices (R355 to R360, R362, R373, R376) -/

/-- The slices of the units of die d in ISOLATE that are still to run, in unit and kind order (R373). -/
def State.isoSlices (s : State) (d : Nat) : List (Nat × Nat) :=
  dieUnits.flatMap fun u =>
    let f := s.faultSt (.unit (unitId d u) 0)
    if f.phase = FPhase.isolate ∧ !s.isRetired (unitId d u) then f.slices.map fun k => (u, k) else []

/-- The slices of die d in the order they are offered: isolations, repeats, those of LATE units, then the rotation. -/
def State.offered (s : State) (d : Nat) : List (Nat × Nat) :=
  let r := s.rot d
  s.isoSlices d ++ r.first ++ r.pend.filter (fun e => r.late.contains e.1) ++ r.pend.filter fun e => !r.late.contains e.1

/-- The clock that feeds a unit of die d at a position, its divider. -/
def State.unitDiv (s : State) (d u : Nat) : Nat := stepDiv (s.ktl.clks.getD (clkOfUnit (unitId d u)) {}).step

/-- The domain of a self-tested unit: the core's own, the cluster's common one, or segment 0 of the array. -/
def domOfUnit (d u : Nat) : Nat :=
  if u < 64 then d * 64 + u else if u < 80 then domCommon (d * 8 + (u - 64) / 2) else if u < 88 then domCommon (d * 8 + (u - 80)) else domSeg d 0

/-- The planned end of a slice of unit u that starts at t. -/
def State.sliceStop (s : State) (d u kind t : Nat) : Nat :=
  let cosy := if u = 88 then (List.range 8).any fun g => decide ((s.dom (domSeg d g)).st = .cosy) else decide ((s.dom (domOfUnit d u)).st = .cosy)
  t + sliceLen kind * 250 * s.unitDiv d u + (if cosy then 2000 else 0)

/-- The unit's own start condition (R357): no candidate of the core in CHECK, no build in progress, no class S or Q run queued. -/
def State.unitFree (s : State) (d u t : Nat) : Bool :=
  if u < 64 then !((s.core (d * 64 + u)).slots.any fun x => decide (x.ph = .check))
  else if u < 80 then true
  else if u < 88 then
    (match s.master.bind fun p => (s.masterFrame t).map fun n => (p, n) with
     | none => true
     | some (p, n) =>
       let f := (s.pcfg p).frame
       decide (t < s.winStart p n + 1000 * f.buildStart) || decide (s.winStart p n + 1000 * f.publish ≤ t))
  else !((s.arr d).runs.any fun r => r.cls != clsN)

/-- Slice (u, kind) may start on die d at t (R357). -/
def State.sliceFits (s : State) (d u kind t : Nat) : Bool :=
  let (ok, lim) := s.sliceLimit t
  ok && s.pdUp d && (s.rot d).run.isNone && s.unitFree d u t &&
  (match lim with | none => true | some e => decide (s.sliceStop d u kind t ≤ e))

/-- A slice is forced (R358, R361): its rotation is, or its unit is LATE. -/
def State.sliceForced (s : State) (d u t : Nat) : Bool := s.rotForced d t || (s.rot d).late.contains u

/-- The deficit with which a group, or the rotation, is next visited (R253). -/
def visitDeficit (fresh : Bool) (deficit wt : Nat) : Nat := if fresh then min (deficit + wt * 32) (wt * 32 + 255) else deficit

/-- A class N group of native mode would be served at its next visit: some core that accepts work finds an item there within the deficit
(R253). -/
def State.nServed (s : State) (d : Nat) (e : Nat × Nat) : Bool :=
  match (s.sch d).group e.1 e.2 with
  | none => false
  | some g =>
    g.cls == clsN && !g.legacy && ((s.pcfg e.1).coresOn d).any fun k =>
      s.accepts d e.1 k &&
        (match first8 (s.eligible k) g.items with | some x => decide (x.cost ≤ visitDeficit g.fresh g.deficit g.wt) | none => false)

/-- What the deficit round robin of R358 answers for a slice of cost `c`. -/
inductive SliceTurn
  | waits                      -- a class N group that stands before it is served first
  | passes (deficit : Nat)     -- its deficit does not reach: the rotation goes to the tail of the list
  | starts (deficit : Nat)     -- it is served, and keeps this deficit
  deriving DecidableEq, Repr

/-- The turn of the offered slice of cost `c` among the class N groups of its die (R253, R358), with WEIGHT ST_WEIGHT. Where no group behind
it would be served either, its second visit follows at once. -/
def State.sliceTurn (s : State) (d c : Nat) : SliceTurn :=
  let r := s.rot d
  let l := (s.sch d).order
  let q := if l.contains sliceRef then visitDeficit r.fresh r.deficit s.timeSec.weight else visitDeficit true 0 s.timeSec.weight
  if (l.takeWhile (· ≠ sliceRef)).any (s.nServed d) then .waits
  else if c ≤ q then .starts (q - c)
  else if (l.dropWhile (· ≠ sliceRef)).any (s.nServed d) then .passes q
  else .starts (visitDeficit true q s.timeSec.weight - c)

/-- The rotation's place in the die's list: at the tail, or where it stands; one that stood nowhere joins the tail with deficit 0. -/
def State.placeRot (s : State) (d : Nat) (tail : Bool) : State :=
  let x := s.sch d
  if !tail && x.order.contains sliceRef then s
  else (s.setSch d { x with order := x.order.filter (· ≠ sliceRef) ++ [sliceRef] }).setRot d { s.rot d with deficit := 0, fresh := true }

/-- What a slice that takes its turn leaves of its rotation: its deficit, and its place (R253). With nothing more to offer it leaves the
list with deficit 0. -/
def State.takeTurn (s : State) (d deficit : Nat) : State :=
  if (s.offered d).length ≤ 1 then
    (s.setSch d { s.sch d with order := (s.sch d).order.filter (· ≠ sliceRef) }).setRot d { s.rot d with deficit := 0, fresh := true }
  else (s.placeRot d false).setRot d { s.rot d with deficit, fresh := false }

/-- The last class N entry of a full dispatch slot, at which a forced slice of its core comes (R252, R358): it goes back to the head of its
group with its cost refunded, and is counted. Class S and class Q entries stay. -/
def State.displaceN (s : State) (d k : Nat) : State :=
  let l := (s.sch d).slots.getD (k % 64) []
  match (if 2 ≤ l.length then l.reverse.find? fun y => y.cls == clsN && y.grp != 0xFF else none) with
  | none => s
  | some y =>
    let x := s.sch d
    let s := s.setSch d ({ x with slots := listSet x.slots (k % 64) (l.reverse.erase y).reverse }.giveBack y)
    (s.inc (Reg.schDisplace d)).trace d 0x03 k y y.seq

/-- A slice starts: the domains of its unit wake, all 8 segments of an array (R403), and a forced one is counted. -/
def State.beginSlice (s : State) (d u kind t : Nat) (extra : Bool) : State :=
  let stop := s.sliceStop d u kind t
  let s := if s.sliceForced d u t && !extra then s.inc Reg.glbStForced else s
  let s := if u = 88 then (List.range 8).foldl (fun s g => s.wakeDom (domSeg d g)) s else s.wakeDom (domOfUnit d u)
  s.setRot d { s.rot d with run := some { unit := u, kind, t, stop, extra }, unit := u, kind }

/-- A slice that does not compete with class N groups: of a unit in ISOLATE, which runs ahead of every other item (R373). -/
def State.sliceAhead (s : State) (d u kind : Nat) : Bool := (s.isoSlices d).contains (u, kind)

/-- SLICE_START (R357, R358, R362): the slice that die `die` offers, or one that a SELFTEST item in service asks for, starts, in ordinary
service when its turn among the class N groups has come; a forced one ahead of them. -/
def execSliceStart (die unit kind t : Nat) (s : State) : Host.Outcome State Fault Refusal :=
  let s := s.at t
  let extra := (s.rot die).asked.contains (unit, kind)
  (if die < 2 ∧ ((s.offered die).head? = some (unit, kind) ∨ extra) ∧ s.sliceFits die unit kind s.time then
     if extra || s.sliceAhead die unit kind then s.beginSlice die unit kind s.time extra
     else if s.sliceForced die unit s.time then
       (if unit < 64 then s.displaceN die (die * 64 + unit) else s).beginSlice die unit kind s.time false
     else
       match s.sliceTurn die (sliceLen kind) with
       | .waits => s.placeRot die false
       | .passes q => (s.placeRot die true).setRot die { s.rot die with deficit := q, fresh := true }
       | .starts q => (s.takeTurn die q).beginSlice die unit kind s.time false
   else s).done

/-- TIME_WINDOW (R352, R359): a window of the master's frame begins. A slice that still runs on a die is abandoned where the window is
SAFETY or does not admit N, and cores that no class of the window before could feed look for work again. -/
def execTimeWindow (t : Nat) (s : State) : Host.Outcome State Fault Refusal :=
  let s := s.at t
  let s := { s with sched := s.sched.map fun (d : SchedDie) => { d with idle := [] } }
  (if (s.sliceLimit s.time).1 then s else (s.abandonSlice 0).abandonSlice 1).done

/-- The lane a failed slice names (R368): one Strainer lane for STRAIN, one probe lane for PROBE, else the unit. -/
def laneOf (kind : Nat) (lanes : List Nat) : Nat :=
  match lanes with | [l] => if kind = 1 then 1 + l % 4 else if kind = 2 then 5 + l % 4 else 0 | _ => 0

/-- The sub-units of the lanes a failed slice names. -/
def lanesOfSlice (kind : Nat) (lanes : List Nat) : List Nat :=
  if kind = 1 then lanes.map fun l => 1 + l % 4 else if kind = 2 then lanes.map fun l => 5 + l % 4 else []

/-- The error record of a failed slice (R384). -/
def State.sliceRec (s : State) (u kind : Nat) (o : SliceIn) (act count : Nat) : ErrRec :=
  { kind := ekST_FAIL, act, unit := u + laneOf kind o.lanes * 4096, cls := clsN, count, time := s.time, aux := kind, synd := o.sig }

/-- Isolation ends (R373, R379): the lanes alone that failed STRAIN and PROBE slices named, else the whole unit. -/
def State.endIsolation (s : State) (u t : Nat) : State :=
  let f := s.faultSt (.unit u 0)
  let d := u / 512
  let r := s.rot d
  let s := s.setRot d { r with first := r.first.filter fun e => e.1 != u % 512 }
  if f.lanes.isEmpty || f.other then s.retire u 0 f.ref t
  else f.lanes.foldl (fun s l => if s.isRetired u then s else s.retire u l f.ref t) s

/-- A slice of a unit in ISOLATE has finished (R373). -/
def State.isoSlice (s : State) (u kind : Nat) (o : SliceIn) : State :=
  let s := if o.pass then s else s.log (s.sliceRec u kind o 0 0)
  let f := s.faultSt (.unit u 0)
  let ls := if o.pass then [] else lanesOfSlice kind o.lanes
  let f := { f with slices := f.slices.erase kind, lanes := (f.lanes ++ ls).eraseDups,
                    other := f.other || (!o.pass && ls.isEmpty), sel := f.sel || (!o.pass && kind == 3) }
  let s := s.setFault f
  if f.slices.isEmpty then s.endIsolation u s.time else s

/-- Both arrays have passed the slice that a CMP_FAIL asked for: the event is UNATTRIB (R376). -/
def State.cmpPassed (s : State) : State :=
  if (s.rot 0).cmp = 2 ∧ (s.rot 1).cmp = 2 then
    ((s.setRot 0 { s.rot 0 with cmp := 0 }).setRot 1 { s.rot 1 with cmp := 0 }).event { kind := ekUNATTRIB, t := s.time }
  else s

/-- A slice passes (R355, R361, R376): counted; it leaves the rotation's pending slices, and a visit that is complete ends LATE. A
fault that its repeat does not confirm was transient. -/
def State.slicePass (s : State) (d u kind : Nat) : State :=
  let r := s.rot d
  let pend := r.pend.filter (· != (u, kind))
  let late := if pend.any (·.1 == u) then r.late else r.late.filter (· != u)
  let cmp := if u = 88 ∧ r.cmp = 1 then 2 else if u = 88 ∧ r.cmp = 3 then 0 else r.cmp
  let s := (s.setRot d { r with pend, late, cmp, first := r.first.erase (u, kind) }).add64 Reg.glbStPassLo 1
  let f := s.faultSt (.unit (unitId d u) 0)
  let s := match f.stSig with
    | some (k, _) => if k = kind then (s.setFault { f with stSig := none }).inc Reg.errTransient else s
    | none => s
  if u = 88 then s.cmpPassed else s

/-- A slice fails (R360, R376): reported and counted. The slice is offered again as the next of its die; a repeat that fails with the
same signature, or again after a CMP_FAIL, proves the fault lasting, as does the count limit. -/
def State.sliceFail (s : State) (d u kind : Nat) (o : SliceIn) : State :=
  let s := s.inc Reg.glbStFail
  let un := unitId d u
  let key := FKey.unit un (laneOf kind o.lanes)
  let r := s.rot d
  let old := (s.faultSt (.unit un 0)).stSig
  let again := (match old with | some (k, g) => k == kind && g == o.sig | none => false) || (u == 88 && r.cmp == 3)
  let (f, n, counted) := s.count key ekST_FAIL s.time
  let lasts := again || (counted && decide ((s.cfg.faults.limits ekST_FAIL).1 ≤ n))
  let s := if counted then s.setFault f else s.inc Reg.errCoalesced
  let (ref, s) := s.record (s.sliceRec un kind o (if lasts then 6 else 4) n)
  let s := match old with
    | some (k, _) => if k = kind ∧ !again then s.inc Reg.errTransient else s
    | none => s
  let first := r.first.filter (· != (u, kind))
  if lasts then (s.setRot d { s.rot d with first, cmp := if u = 88 then 0 else r.cmp }).lasting key ref s.time
  else
    let s := s.setFault { s.faultSt (.unit un 0) with stSig := some (kind, o.sig) }
    s.setRot d { s.rot d with first := (u, kind) :: first, cmp := if u = 88 ∧ r.cmp = 1 then 3 else r.cmp }

/-- SLICE_END (R355, R360, R373, R376): the slice that runs on die `die` finishes. -/
def execSliceEnd (die : Nat) (o : SliceIn) (t : Nat) (s : State) : Host.Outcome State Fault Refusal :=
  let s := s.at t
  (match (s.rot die).run with
   | none => s
   | some x =>
     let r := s.rot die
     let s := s.setRot die { r with run := none, asked := if x.extra then r.asked.erase (x.unit, x.kind) else r.asked }
     let u := unitId die x.unit
     if (s.faultSt (.unit u 0)).phase = FPhase.isolate then
       (if o.pass then s.add64 Reg.glbStPassLo 1 else s.inc Reg.glbStFail).isoSlice u x.kind o
     else if o.pass then s.slicePass die x.unit x.kind else s.sliceFail die x.unit x.kind o).done

/-- INTERVAL_END (R356, R361): the diagnostic test interval of a die has ended by t. Units still pending become LATE, each with its
record, and every enabled unit that is not retired becomes pending again. -/
def execIntervalEnd (die t : Nat) (s : State) : Host.Outcome State Fault Refusal :=
  (if die < 2 ∧ s.pdUp die ∧ s.dtiEnd die ≤ t then
     let e := s.dtiEnd die
     let s := s.at e
     let r := s.rot die
     let units := dieUnits.filter fun u => r.pend.any (·.1 == u)
     let s := units.foldl (fun s u =>
       ((s.inc Reg.glbStMissed).event { kind := ekST_MISSED, unit := unitId die u, cls := clsN, t := e }).raise isrcST_MISSED) s
     let all := dieUnits.filter fun u => (decide (64 ≤ u) || s.coreEn (die * 64 + u)) && !s.isRetired (unitId die u)
     s.setRot die { s.rot die with pend := all.flatMap fun u => (sliceKinds u).map fun k => (u, k), start := e,
                                   late := (r.late ++ units).eraseDups }
   else s).done

/-! ### Events and fault states (R369 to R374) -/

/-- The event names memory and the unit that owns it. -/
def memEvent (e : EventIn) : Bool := decide (fwTarget e.addr < 5 ∨ fwTarget e.addr = 6) && e.unit == ownerUnit e.addr

/-- The bytes of the block that a CRC event names: to the end of its 4 KiB, or `len` where fewer. -/
def eventBlock (e : EventIn) : Nat := let n := 4096 - e.addr % 4096; if e.len = 0 then n else min e.len n

/-- A block that mismatched twice fails its job (R294): of a build, the store it was for does not get READY; of the smoothing stage, the
trajectory is given up. A poisoned commit record is refused when the warden reads it (R297). -/
def State.blockLost (s : State) (a n : Nat) : State :=
  match storeAt a with
  | some g => if s.fld.build.isSome then s.setStore g { s.fstore g with ready := false } else s
  | none =>
    { s with engs := s.engs.map fun (e : EngSt) => { e with trajs := e.trajs.filter fun (j : STraj) => !overlap j.at_ j.len a n } }

/-- What the memory side of a reported event is (R285, R294): a read anywhere that meets an ECC error, or a block of a transfer that no
command of its own checks. The report comes just ahead of what the reader does with the line (DESIGN CHOICE, log entry 192). -/
def State.memMeets (s : State) (e : EventIn) : State :=
  if e.kind = ekECC_CE ∧ memEvent e then s.eccMet e.addr false
  else if e.kind = ekECC_UE ∧ memEvent e then s.eccMet e.addr true
  else if fwTarget e.addr = 7 then s
  else if e.kind = ekCRC_RETRY then s.inc (Reg.memCrcRetry (memDie e.addr))
  else if e.kind = ekCRC_ERR then ((s.spoil e.addr (eventBlock e)).inc (Reg.memCrcErr (memDie e.addr))).blockLost e.addr (eventBlock e)
  else s

/-- A report of an event of the PD0–PD1 link by DIE 1, as the one of DIE 0 that it stands for (R368). -/
def oneLink (e : EventIn) : EventIn := { e with unit := if e.unit = unitId 1 113 then unitId 0 113 else e.unit }

/-- DIE 1 reports an event of the PD0–PD1 link that DIE 0 has reported: the ring holds a record of its kind and stamp (R371). -/
def State.reported (s : State) (e : EventIn) : Bool :=
  e.unit == unitId 1 113 && (List.range 256).any fun i =>
    let at_ (o n : Nat) : Nat := Machine.peekN s.errs.ring (64 * i + o) n
    at_ 0 4 != 0 && at_ 4 1 == e.kind && at_ 8 2 % 2048 == unitId 0 113 && at_ 16 8 == tick e.t

/-- ERROR_EVENT (R369, R371): an event reported to the error collector; the second report of one event is dropped. -/
def execErrorEvent (e : EventIn) (s : State) : Host.Outcome State Fault Refusal :=
  let s := s.at e.t
  (if s.dev.up ∧ !s.reported e then (s.memMeets (oneLink e)).event (oneLink e) else s).done

/-- FAULT_WINDOW_EXPIRY (R372): W has passed since the last counted event of a unit or lane in WATCH; it is HEALTHY again. -/
def execFaultWindowExpiry (unit sub t : Nat) (s : State) : Host.Outcome State Fault Refusal :=
  let s := s.at t
  let f := s.faultSt (.unit unit sub)
  (if f.phase = FPhase.watch ∧ !s.isRetired unit sub ∧
      f.evs.all (fun e => decide (e.1 + (s.cfg.faults.limits e.2).2 ≤ s.time)) then
     s.setFault { f with phase := .healthy, evs := [] }
   else s).done

/-- ISOLATION_TIMEOUT (R374): an isolation that has not ended through slices within 2 ms of its lasting event ends through
retirement. -/
def execIsolationTimeout (unit t : Nat) (s : State) : Host.Outcome State Fault Refusal :=
  let s := s.at t
  let f := s.faultSt (.unit unit 0)
  (if f.phase = FPhase.isolate ∧ !s.isRetired unit ∧ f.since + 2000000 ≤ s.time then
     (s.setFault { f with slices := [] }).retire unit 0 f.ref s.time
   else s).done

/-! ### The collector's commands (R381, R384) -/

/-- A write of ERR_CMD: CLEAR_RETIRED is accepted in DEVELOP and RETURN while no partition is RUNNING. -/
def State.errCommand (s : State) (v : Nat) : State :=
  let s := s.wr Reg.errCmd (BitVec.ofNat 32 (v % 16))
  let run := s.parts.any fun x => decide (x.st = .running)
  if v % 16 = 1 ∧ (s.fuses.lc = .develop ∨ s.fuses.lc = .ret) ∧ !run then { s with errs := { s.errs with clear := true } } else s

/-- CLEAR_RETIRED (R381): function fn writes ERR_CMD with OP CLEAR_RETIRED. -/
def execClearRetired (fn t : Nat) (s : State) : Host.Outcome State Fault Refusal :=
  (s.onWrite { fn, off := Reg.errCmd } t fun s => s.errCommand 1).done

/-- ERR_READ (R384): function fn writes the SEQ of the last record the host has read. -/
def execErrRead (fn v t : Nat) (s : State) : Host.Outcome State Fault Refusal :=
  (s.onWrite { fn, off := Reg.errRead } t fun s => s.wr Reg.errRead (BitVec.ofNat 32 v)).done

end Sys2Proof.Machine
end

