-- ==== Sys2Proof/Machine/IntFam.lean ====
section
/-! DEFINITION. The interrupt controller's commands (17_interrupts.md): delivery, end of interrupt, and the writes that raise sources. -/

namespace Sys2Proof.Machine

/-! ### Delivery (R393) -/

/-- The vector whose PBA bit a pending slot sets: every vector of its set is bound but masked, and this one the highest RP would
choose if masks were ignored (R393). -/
def IntSt.blocked (x : IntSt) (fn : Nat) (sl : ISlot) : Option Nat :=
  let masked (v : Nat) : Bool := (x.vec v).bound && ((x.entry fn v).mask || x.fnMask.get false fn)
  if sl.st = .pending ∧ sl.routed ∧ !sl.masked ∧ sl.set_.all masked then x.bestVec sl.set_ else none

/-- The PBA as a decision leaves it. -/
def IntSt.pbaNow (x : IntSt) : Tab Bool :=
  x.slots.foldl (fun (t : Tab Bool) e =>
    let fn := slotFn (e.1 / 2) (e.1 % 2)
    match x.blocked fn e.2 with
    | some v => t.set false (2048 * fn + v) true
    | none => t) []

/-- The message of a slot sent to a vector (R393): both IN_SERVICE, and a posted write to host memory. -/
def State.sendMsg (s : State) (src k v : Nat) : State :=
  let sl := s.ints.slot src k
  let fn := slotFn src k
  let e := s.ints.entry fn v
  let x := (s.ints.setSlot src k { sl with st := .service }).setVec v { s.ints.vec v with svc := true, src, slot := k, prio := sl.prio }
  ({ s with ints := { x with msgs := { fn, vec := v, addr := e.addr, data := e.data, t := s.time } :: x.msgs } } : State).toHost e.addr (toLE 4 e.data)

/-- INT_DELIVERY (R393): one delivery decision. -/
def execIntDelivery (t : Nat) (s : State) : Host.Outcome State Fault Refusal :=
  let s := s.at t
  (if !s.pcieUp then s else
   let s := match s.ints.winner with
     | none => s
     | some (src, k) =>
       let fn := slotFn src k
       match s.ints.bestVec ((s.ints.slot src k).set_.filter (s.ints.eligible fn)) with
       | some v => s.sendMsg src k v
       | none => s
   { s with ints := { s.ints with pba := s.ints.pbaNow } }).done

/-! ### End of interrupt (R394) -/

/-- A write to INT_VEC[v]: RP, and with the IN_SERVICE bit the EOI of the vector and its slot. -/
def State.vecWrite (s : State) (v val : Nat) : State :=
  let x := { s.ints.vec v with rp := bits val 27 24 }
  if bit val 30 && x.svc then
    let sl := s.ints.slot x.src x.slot
    let i := (s.ints.setVec v { x with svc := false }).setSlot x.src x.slot
      { sl with st := if sl.second then .pending else .idle, second := false }
    { s with ints := i }
  else { s with ints := s.ints.setVec v x }

/-- EOI (R394): function fn writes 1 to the IN_SERVICE bit of a vector, and RP as it stands. -/
def execEoi (fn vec t : Nat) (s : State) : Host.Outcome State Fault Refusal :=
  (if vec < 2048 then
     s.onWrite { fn, off := Reg.intVec vec } t fun s => s.vecWrite vec (2 ^ 30 + (s.ints.vec vec).rp * 2 ^ 24)
   else s).done

/-! ### Sources raised by writes (R395, R396) -/

/-- The sources from `base` on that the bits of a value name, raised. -/
def State.raiseMany (s : State) (base v : Nat) : State := (maskBits 8 v).foldl (fun s k => s.raise (base + k)) s

/-- INT_SW_SET_G (R395): a write raises the global SW sources. -/
def execIntSwSetG (a : RegAcc) (v t : Nat) (s : State) : Host.Outcome State Fault Refusal :=
  (if a.off = Reg.intSwSetG ∧ a.bar = Bar.bar0 then s.onWrite a t fun s => s.raiseMany 24 v else s).done

/-- The partition of an INT_SW_SET_P register. -/
def swSetP (off : Nat) : Nat := (off - Reg.intSwSetP 0) / 4

/-- INT_SW_SET_P (R395): a write raises a partition's SW sources. -/
def execIntSwSetP (a : RegAcc) (v t : Nat) (s : State) : Host.Outcome State Fault Refusal :=
  (if a.bar = Bar.bar0 ∧ Reg.among a.off (Reg.intSwSetP 0) 8 4 then s.onWrite a t fun s => s.raiseMany (isrcPart (swSetP a.off) 24) v
   else s).done

/-- One slot's fields of INT_SRC_STATE written: its mask, and a raise of the slot alone. -/
def State.slotWrite (s : State) (src k : Nat) (mask pend : Bool) : State :=
  let s := { s with ints := s.ints.setSlot src k { s.ints.slot src k with masked := mask } }
  if pend then s.raiseSlot src k else s

/-- A write of INT_SRC_STATE[src] by a function: a virtual function reaches slot 1 alone (R396). -/
def State.srcWrite (s : State) (fn src v : Nat) : State :=
  let s := if fn = 0 then s.slotWrite src 0 (bit v 14) (bit v 13) else s
  if hasSlot1 src then s.slotWrite src 1 (bit v 30) (bit v 29) else s

/-- The MASK bits of INT_SRC_STATE[src] as they stand. -/
def State.srcMasks (s : State) (src : Nat) : Nat :=
  b2n (s.ints.slot src 0).masked * 2 ^ 14 + (if hasSlot1 src then b2n (s.ints.slot src 1).masked * 2 ^ 30 else 0)

/-- PEND_SET (R395): function fn writes 1 to a PEND bit of INT_SRC_STATE[src]. -/
def execPendSet (fn src slot t : Nat) (s : State) : Host.Outcome State Fault Refusal :=
  (if src < 288 ∧ slot < 2 then
     s.onWrite { fn, off := Reg.intSrcState src } t fun s => s.srcWrite fn src (s.srcMasks src + (if slot = 0 then 2 ^ 13 else 2 ^ 29))
   else s).done

end Sys2Proof.Machine
end

