-- ==== Sys2Proof/Machine/LoaderFam.lean ====
section
/-! DEFINITION. The loader's commands and the phases of steeping (02_blend.md R57 to R67, R508, R509), with what a steeping puts
in force at DONE, and START and STOP of partitions. -/

namespace Sys2Proof.Machine

/-! ### Answers (R64, R509) -/

/-- A command answered at once: its code, with every detail word zero for a rejection (R509), and the loader interrupt. -/
def State.bldAnswer (s : State) (code : Nat) : State :=
  ({ s with loader := { s.loader with code, detail := if code = cOK then s.loader.detail else [0, 0, 0, 0] } } : State).raise isrcLOADER

/-- A rejected steeping command that leaves BLD_STATUS.PHASE 0 (R426, R508). -/
def State.bldNoPhase (s : State) (code : Nat) : State := ({ s with loader := { s.loader with last := 0 } } : State).bldAnswer code

/-- The first multiple of P at least 100 µs after t (R66). -/
def firstT0 (t P : Nat) : Nat := alignUp (t + 100000) P

/-! ### START (R66, R81, R103, R319, R380, R426, R452) -/

/-- The ports that carry the drives of partition p's mechanisms. -/
def State.portsOf (s : State) (p : Nat) : List Nat := (List.range 4).filter fun n => (s.pcfg p).ifp.axes.any (·.port == n)

/-- A port may give the first process image of a START (R452): in OP, with a complete image in its last 3 cycles. -/
def FPort.imaged (x : FPort) : Bool := x.bus == 4 && x.imgAt.isSome && decide (x.k ≤ x.imgK + 3)

/-- START of partition p with a T0 meets its preconditions; else the code of the first that fails. -/
def State.startCheck (s : State) (p t0 : Nat) : Nat :=
  let q := s.pcfg p
  let m := s.cfg.master
  if s.dev.locked then cPART_STATE
  else if [0, 1].any fun d => !(q.coresOn d).isEmpty && !s.readyBit (rbDIE + d) then cPART_STATE
  else if !s.canWork q then cCORE_SHORT
  else if !q.mechs.isEmpty && m.any (fun r => r.num != p && (!s.running r.num || ((t0 : Int) - (s.prun r.num).t0) % (s.period r.num : Int) != 0))
  then cPART_STATE
  else if !(s.portsOf p).all fun n => (s.fif.ports.getD n {}).imaged then cPART_STATE
  else cOK

/-- The positions of mechanism m's axes in the newest complete input images, as FP32 encodings (R103, R448, R452). -/
def State.imagePos (s : State) (m : Mech) : List Nat :=
  let as := s.axesOf m.num
  (List.range 12).map fun i =>
    match as.find? fun a => a.axis == i + 1 with
    | some a => (match s.axisIn a with | some x => toF32 (actualOf a x.pos) | none => 0)
    | none => 0

/-- The standstill record in force from START (R319) and the start states of frame 0 (R103), from the actual positions; where `keep`,
a mechanism that a trigger holds since START keeps its plan and its Saucer. -/
def State.startMech (s : State) (q : PartCfg) (m : Mech) (keep : Bool := false) : State :=
  let q0 := s.imagePos m
  let z := List.replicate 12 0
  let r := s.standRec m 0 (s.winStart q.num 0 + q.frame.out * 1000) q0
  let s := if keep && (s.wm m.num).held then s else s.setWm m.num { cur := some r, held := false }
  ((List.range m.ctxCount).map (· + m.ctxFirst)).foldl (fun s x => s.writeStart q 0 0 q0 z z [] x) s

/-- What START of the field master begins: a run of epochs (R82), B_new (R87), the frame watchdogs (R332), the rounds, and a
self-test interval on each die (R363). -/
def State.startMaster (s : State) (q : PartCfg) (t0 : Nat) : State :=
  let s := { s with fld := { s.fld with valid := false, budget := bNew q.frame, nPub := 0, build := none,
                                        stores := s.fld.stores.zipIdx.map fun (e : StoreSt × Nat) =>
                                          { excluded := e.1.excluded && s.isRetired (unitId (e.2 / 8) (96 + e.2 % 8)) } } }
  let s := (List.range 16).foldl (fun s g => s.zero (storeBase g + stControl) 64) s
  let s := (List.range 8).foldl (fun s w => s.setWd w { s.wd w with armed := true, expect := 0, served := false }) s
  ({ s with round := { s.round with next := 0 } } : State).newInterval 0 t0 |>.newInterval 1 t0

/-- The delay-list entries of a partition's tasks armed (R248). -/
def State.armDelays (s : State) (q : PartCfg) (t0 : Nat) : State :=
  let arm (x : TaskSt) : TaskSt :=
    match q.task x.task with
    | some r => if x.part = q.num ∧ r.delay ≠ 0 then { x with due := some (t0 + r.delay * 1000), prev := t0 + r.delay * 1000 } else x
    | none => x
  { s with sched := s.sched.map fun (d : SchedDie) => { d with tasks := d.tasks.map arm } }

/-- What the cores of a partition hold of an earlier run, cleared: slots, verdict halves and partial lists. -/
def State.freshCores (s : State) (q : PartCfg) : State :=
  q.cores.foldl (fun s k =>
    (s.zero (padBase k + 0x60000) 0x4000).setCore k { s.core k with slots := [], fill := [0, 0], halfOf := [0, 0], handQ := [], owes := false }) s

/-- Partition p started with frame 0 at T0 (R66): its run state, counters (R279), records and start states. -/
def State.startPart (s : State) (p t0 : Nat) : State :=
  let q := s.pcfg p
  let ms := q.mechs.map (·.num)
  let s := (s.setPRun p { st := (s.prun p).st, t0, goalBase := s.rd64 (Reg.selGoalBaseLo p), plan := (s.prun p).plan }).setPSt p .running
  let s := { s with tdcSeen := s.tdcSeen.filter fun e => e.1 != p,
                    round := { s.round with stands := s.round.stands.filter fun e => !ms.contains e.1 } }
  let s := ((s.initCounters p).freshCores q).armDelays q t0
  let s := (q.mechs.foldl (fun (s : State) m => s.startMech q m) s).bindLast p 0
  if s.master = some p then s.startMaster q t0 else s

/-- START p (R63, R66): T0 from BLD_T0, or the first multiple of P. -/
def State.bldStart (s : State) (p t : Nat) : State :=
  let w := s.rd64 Reg.bldT0Lo
  let t0 := if w = 0 then firstT0 t (s.period p) else w
  if t0 % 1000 ≠ 0 ∨ t0 < t + 100000 then s.bldAnswer cT0_PAST
  else
    let c := s.startCheck p t0
    if c = cOK then (s.startPart p t0).bldAnswer cOK else s.bldAnswer c

/-! ### STOP (R65, R81) -/

/-- STOP p (R65): the frame whose window holds the write is the last; before T0, and where p awaits its restart after a fall-back
decision and so runs no frame, no frame commits and the Saucers are issued at once. -/
def State.bldStop (s : State) (p t : Nat) : State :=
  let others := (s.cfg.hasMechs.map (·.num)).any fun x => x != p && (s.prun x).st == .running
  if s.master = some p ∧ others then s.bldAnswer cPART_STATE
  else
    let x := s.prun p
    let s :=
      if x.lastFrame.isSome ∨ x.issued ∨ x.resetting then s
      else if t < x.t0 ∨ x.restart then (s.setPRun p { x with restart := false, resetting := true }).commandStop p t
      else s.stopPart p t
    s.bldAnswer cOK

/-! ### Steeping begins (R58, R64, R426, R508) -/

/-- A steeping begun: the partitions concerned read STEEPING until it ends, and FETCH runs. -/
def State.beginSteep (s : State) (part_ : Bool) (p : Nat) : State :=
  let len := (s.rd Reg.bldLen).toNat
  if !lenOk len then s.bldNoPhase cLENGTH
  else
    let x : Steep := { phase := 1, partial_ := part_, target := p, src := s.rd64 Reg.bldSrcLo, len, saved := s.parts.map (·.st.code) }
    let s := { s with loader := { s.loader with run := some x, code := cOK } }
    if part_ then s.setPSt p .steeping else (List.range 8).foldl (fun s p => s.setPSt p .steeping) s

/-- STEEP_FULL or STEEP_PART. -/
def State.bldSteep (s : State) (part_ : Bool) (p : Nat) : State :=
  if s.dev.locked then s.bldAnswer cPART_STATE
  else if (if part_ then (s.prun p).st != .stopped else s.parts.any (·.st == .running)) then s.bldAnswer cPART_STATE
  else if !s.readyBit rbHBM then s.bldNoPhase cPART_STATE
  else s.beginSteep part_ p

/-- ABORT. -/
def State.bldAbort (s : State) : State :=
  match s.loader.run with
  | none => s.bldAnswer cPART_STATE
  | some x => ({ s with loader := { s.loader with run := some { x with abort := true } } } : State).bldAnswer cOK

/-- A BLD_CMD write with value v at t (R63, R64): OP, then BUSY, then the preconditions. -/
def State.bldCommand (s : State) (v t : Nat) : State :=
  let s := s.wr Reg.bldCmd (BitVec.ofNat 32 (v % 256))
  let op := v % 16
  let p := v / 16 % 16
  let steeping := p < 8 ∧ (s.prun p).st = PSt.steeping
  if op = 0 ∨ 5 < op then s.bldAnswer cFORMAT
  else if s.loader.run.isSome ∧ !(op == 3 || op == 5 || (op == 4 && !decide steeping)) then s.bldAnswer cBUSY
  else if op = 1 then s.bldSteep false 0
  else if op = 3 then s.bldAbort
  else if 8 ≤ p then s.bldAnswer cPART_STATE
  else if op = 2 then s.bldSteep true p
  else if op = 4 then (if (s.prun p).st = .stopped then s.bldStart p t else s.bldAnswer cPART_STATE)
  else if (s.prun p).st = .running then s.bldStop p t
  else s.bldAnswer cPART_STATE

/-- STEEP_FULL (R63): a BLD_CMD write. -/
def execSteepFull (fn t : Nat) (s : State) : Host.Outcome State Fault Refusal :=
  (s.onWrite { fn, off := Reg.bldCmd } t fun s => s.bldCommand 1 t).done

/-- STEEP_PART (R63, R67): a BLD_CMD write with TARGET p. -/
def execSteepPart (fn p t : Nat) (s : State) : Host.Outcome State Fault Refusal :=
  (s.onWrite { fn, off := Reg.bldCmd } t fun s => s.bldCommand (p % 16 * 16 + 2) t).done

/-- ABORT (R63, R64): a BLD_CMD write. -/
def execAbort (fn t : Nat) (s : State) : Host.Outcome State Fault Refusal :=
  (s.onWrite { fn, off := Reg.bldCmd } t fun s => s.bldCommand 3 t).done

/-- START (R66): a BLD_CMD write with TARGET p. -/
def execStart (fn p t : Nat) (s : State) : Host.Outcome State Fault Refusal :=
  (s.onWrite { fn, off := Reg.bldCmd } t fun s => s.bldCommand (p % 16 * 16 + 4) t).done

/-- STOP (R65): a BLD_CMD write with TARGET p. -/
def execStop (fn p t : Nat) (s : State) : Host.Outcome State Fault Refusal :=
  (s.onWrite { fn, off := Reg.bldCmd } t fun s => s.bldCommand (p % 16 * 16 + 5) t).done

/-! ### What the phases see -/

/-- What the checks need of the device (R50, R426). -/
def State.lenv (s : State) : LEnv :=
  let on (k : Nat) : Bool := s.coreEn k && !s.isRetired (coreUnit k)
  { fuses := s.fuses, active := s.loader.active, mem := s.mem, psn := s.psn,
    avail := fun k => on k && s.readyBit (rbCLUSTER + k / 8), enabled := on,
    units := fun d => dieUnits.filter fun u => (decide (64 ≤ u) || s.coreEn (d * 64 + u)) && !s.isRetired (unitId d u),
    arrReady := fun d => s.readyBit (rbARRAY + d), stackReady := fun i => s.readyBit (rbHBM + i) }

/-- What the header checks need (R40). -/
def State.hdrEnv (s : State) (x : Steep) : HdrEnv :=
  { len := x.len, partial_ := x.partial_, target := x.target, partNum := s.fuses.deviceId / 65536, step := s.fuses.deviceId % 256,
    sflow := s.fuses.sflow, activeSerial := s.cfg.serial, defined := s.cfg.parts.map (·.num) }

/-- The boundary at the end of a phase (R58): a pending ABORT ends the steeping with ABORTED, else the phase's work is judged. -/
def State.boundary (s : State) (phase t : Nat) (f : Steep → State → State) : State :=
  match s.loader.run with
  | none => s
  | some x =>
    if x.phase = phase then
      let s := s.at t
      if x.abort then s.endSteep { code := cABORTED } else f x s
    else s

/-- The steeping goes on. -/
def State.setSteep (s : State) (x : Steep) : State := { s with loader := { s.loader with run := some x } }

/-- The next Blend goes to slot A: the first after a cold reset, and each while slot B holds the active one (R57, R426's example). -/
def Loader.nextA (l : Loader) : Bool := l.active.isNone || l.slotB

/-- The 64 MB slot that receives the next Blend (R57). -/
def Loader.freeSlot (l : Loader) : Nat := if l.nextA then 0x0005F8000000 else 0x0005FC000000

/-- The image ranges that a Blend references (R60), none where its section table is broken. -/
def State.imagesOf (s : State) (x : Steep) : List (Nat × Nat) :=
  if (tabCheck x.blob).isNone then (decCfg s.lenv x.partial_ x.target 0 (sections x.blob) []).imageRanges else []

/-! ### FETCH to CLAIMS (R58, R508) -/

/-- FETCH (R58, R509): the Blend's bytes arrived from the host; `ok` false where a completion error or poison ended it after them. -/
def execFetch (blob : List Byte) (ok : Bool) (t : Nat) (s : State) : Host.Outcome State Fault Refusal :=
  (s.boundary 1 t fun x s =>
    if x.src % 256 ≠ 0 then s.endSteep { code := cFETCH }
    else if !ok ∨ blob.length < x.len then s.endSteep { code := cFETCH, d1 := min blob.length x.len / 64 * 64 }
    else
      let b := blob.take x.len
      (s.store s.loader.freeSlot b).setSteep { x with phase := 2, blob := b }).done

/-- AUTH (R40, R44, R45, R47): the header and the main signature; the image ranges are locked as PARSE begins (R60). -/
def execAuth (t : Nat) (s : State) : Host.Outcome State Fault Refusal :=
  (s.boundary 2 t fun x s =>
    match authPhase s.lenv (s.hdrEnv x) x.blob with
    | some r => s.endSteep r
    | none => s.setSteep { x with phase := 3, locked := s.imagesOf x }).done

/-- PARSE (R41 to R43, R49 to R52, R67, R426, R508). -/
def execParse (t : Nat) (s : State) : Host.Outcome State Fault Refusal :=
  (s.boundary 3 t fun x s =>
    match parsePhase s.lenv x.partial_ x.target x.blob with
    | .error r => s.endSteep r
    | .ok c => s.setSteep { x with phase := 4, cfg := some c }).done

/-- SAFETY (R45 to R48, R345). -/
def execSafety (t : Nat) (s : State) : Host.Outcome State Fault Refusal :=
  (s.boundary 4 t fun x s =>
    match safetyPhase s.lenv x.partial_ x.target x.blob (x.cfg.getD {}) with
    | .error r => s.endSteep r
    | .ok c => s.setSteep { x with phase := 5, cfg := some c }).done

/-- CLAIMS (R53 to R56). -/
def execClaims (t : Nat) (s : State) : Host.Outcome State Fault Refusal :=
  (s.boundary 5 t fun x s =>
    match claimsPhase x.partial_ x.target x.blob (x.cfg.getD {}) with
    | some r => s.endSteep r
    | none => s.setSteep { x with phase := 6 }).done

/-! ### DONE: sync units (R275, R279) -/

/-- The counter that a declared TREF of a partition names. -/
def PartCfg.ctrOf (q : PartCfg) (tref : Nat) : Option (Nat × Nat) :=
  match decTref q.sync.full tref with
  | some (.full k n) => q.cores[k]?.map fun c => (c, n)
  | some (.virt _ _) => (q.xlate.find? (·.1 == tref)).map (·.2)
  | some (.addr a) => ctrAt a
  | none => none

/-- The declared counters of a partition. -/
def PartCfg.ctrs (q : PartCfg) : List Ctr :=
  q.sync.counters.filterMap fun r => (q.ctrOf r.tref).map fun e =>
    { core := e.1, n := e.2, part := q.num, kind := r.kind, parties := r.parties, init := r.init }

/-- The channels of a partition. -/
def PartCfg.chanWords (q : PartCfg) : List Chan :=
  q.sync.channels.filterMap fun h =>
    match q.ctrOf h.p, q.ctrOf h.c with
    | some a, some b => some { p := .ctr a.1 a.2, c := .ctr b.1 b.2, bound := h.bound }
    | _, _ => none

/-- The standing monitors of a partition: those of SYNC, of its TALLY networks and of INTERRUPTS, and the DONE words where it is
the field master. -/
def State.monsOf (s : State) (q : PartCfg) : List Mon :=
  let mk (tref step : Nat) (u : MonUse) : Option Mon :=
    (s.resolve q.num tref).map fun w => s.armMon { die := monDie q tref, word := w, step, e := 0, use := u }
  (q.sync.monitors.filterMap fun m => mk m.tref m.step (.flag q.num m.task m.flag))
  ++ ((q.nets.filter (·.tally)).filterMap fun n => mk n.trig 1 (.run q.num n.net))
  ++ (q.ints.tallies.filterMap fun i => mk i.tref i.step (.int q.num i.k))
  ++ (if s.master = some q.num then
        s.cfg.dones.zipIdx.map fun e => s.armMon { die := stackOf e.1.1, word := .mem e.1.1, step := e.1.2, e := 0, use := .done q.num (e.2 % 2) }
      else [])

/-- The sync units with the sections of the partitions in `ps` (every partition for a full Blend) put in force. -/
def State.putSync (s : State) (ps : List Nat) : State :=
  let y : SyncSt := s.sync
  let qs := s.cfg.parts.filter fun (q : PartCfg) => ps.contains q.num
  let gone (w : TWord) : Bool := match w with
    | .ctr k n => (match y.ctr k n with | some c => ps.contains c.part | none => true)
    | .mem _ => false
  let s := { s with sync := { y with
    ctrs := (y.ctrs.filter fun (c : Ctr) => !ps.contains c.part) ++ qs.flatMap PartCfg.ctrs,
    chans := (y.chans.filter fun (h : Chan) => !gone h.p) ++ qs.flatMap PartCfg.chanWords,
    xlate := (y.xlate.filter fun (e : Nat × Nat × Nat × Nat) => !ps.contains e.1) ++ qs.flatMap fun (q : PartCfg) => q.xlate.map fun (e : Nat × Nat × Nat) => (q.num, e.1, e.2.1, e.2.2),
    mons := y.mons.filter fun (m : Mon) => !ps.contains m.use.part } }
  let ms := qs.flatMap s.monsOf
  { s with sync := { s.sync with mons := s.sync.mons ++ ms } }

/-! ### DONE: schedulers, interrupts, power (R244, R259, R390, R400, R402, R416) -/

/-- The tasks and groups of the partitions in `ps` put in force on both dies. -/
def State.putSched (s : State) (ps : List Nat) : State :=
  let qs := s.cfg.parts.filter fun q => ps.contains q.num
  let put (e : SchedDie × Nat) : SchedDie :=
    let d := ps.foldl SchedDie.clearPart e.1
    { d with
      tasks := (d.tasks.filter fun t => !ps.contains t.part) ++ qs.flatMap (fun q => (q.tasks.filter (·.die == e.2)).map fun r => { part := q.num, task := r.task }),
      groups := (d.groups.filter fun g => !ps.contains g.part) ++ qs.flatMap (fun q =>
        match q.sched with
        | none => []
        | some c => (c.groups.filter (·.die == e.2)).map fun g =>
            { part := q.num, grp := g.grp, cls := g.cls, wt := g.wt, prio := g.prio, qmin := g.qmin, qmax := g.qmax, legacy := c.legacy }) }
  { s with sched := s.sched.zipIdx.map put }

/-- A slot of a source as the routes of a section give it (R391, R400): IDLE, with its vectors free. -/
def State.putRoute (s : State) (rs : List RouteRec) (k src : Nat) : State :=
  let x : ISlot := match rs.find? (·.src == src) with
    | some r => { routed := true, prio := r.prio, first := r.first, count := r.count, masked := bit r.flags 0 }
    | none => {}
  let free (e : Nat × IVec) : Nat × IVec := if e.2.svc ∧ e.2.src = src ∧ e.2.slot = k then (e.1, { e.2 with svc := false }) else e
  { s with ints := { s.ints with vecs := s.ints.vecs.map free }.setSlot src k x }

/-- The vectors of a function bound by its claims of class 0x0D (R390); what it bound before is free again. -/
def State.putVecs (s : State) (fn : Nat) (l : List Claim) : State :=
  let s := { s with ints := { s.ints with vecs := s.ints.vecs.filter fun e => e.2.func != fn } }
  ((l.filter (·.cls == 0x0D)).flatMap claimIdx).foldl (fun s v => { s with ints := s.ints.setVec v { bound := true, func := fn } }) s

/-- Routes and vectors of the partitions in `ps`, and for a full Blend those of the physical function. -/
def State.putInts (s : State) (full : Bool) (ps : List Nat) : State :=
  let s := if full then (List.range 288).foldl (fun s src => s.putRoute s.cfg.ints.routes 0 src) (s.putVecs 0 s.cfg.claims) else s
  ps.foldl (fun s p =>
    let q := s.pcfg p
    (List.range 32).foldl (fun s i => s.putRoute q.ints.routes 1 (isrcPart p i)) (s.putVecs (1 + p) q.claims)) s

/-- The unit of a power domain is disabled or retired (R402). -/
def State.domGone (s : State) (n : Nat) : Bool :=
  if n < 128 then !s.coreEn n || s.isRetired (coreUnit n)
  else if n < 144 then false
  else if n < 160 then s.isRetired (unitId ((n - 144) / 8) (96 + (n - 144) % 8))
  else s.isRetired (unitId ((n - 160) / 8) 88)

/-- The POWER section in effect (R402, R416): domains that its plan switches. -/
def State.putPower (s : State) : State :=
  let sec := s.cfg.power
  let one (e : Dom × Nat) : Dom :=
    let off := bit sec.off e.2 || s.domGone e.2
    if off then { e.1 with st := .off, planOff := true }
    else if e.1.st = .off ∨ (bit sec.cosy e.2 ∧ !bit s.ktl.sec.cosy e.2) then
      { e.1 with st := if e.1.st = .off then .on else e.1.st, planOff := false, idleAt := s.time, busy := false }
    else { e.1 with planOff := false }
  { s with ktl := { s.ktl with sec, inForce := true, doms := s.ktl.doms.zipIdx.map one } }

/-! ### DONE: field interfaces (R454, R466, R470) -/

/-- The first cycle of a port that starts at or after t. -/
def PortRec.nextCycle (r : PortRec) (t : Nat) : Nat := if r.len = 0 then 0 else cdiv (t - r.phase) r.len

/-- A port with its record (R454): unchanged it keeps cycling; else it starts anew, an ETHERCAT bus at INIT, a TSN port cycling. -/
def FPort.put (x : FPort) (r : PortRec) (i : PortImg) (t : Nat) : FPort :=
  if x.cfgRec = r ∧ x.img = i then x
  else if r.mode = 0 then { link := x.link, cfgRec := r }
  else
    { link := x.link, cfgRec := r, img := i, k := r.nextCycle t, cycling := r.mode == 2 && x.link, err := if x.link then 0 else 1,
      bus := if !x.link then 0 else if r.mode = 2 then 4 else 1 }

/-- Every port with the record that the Blend gives it; one that starts anew counts its cycles from zero. -/
def State.putPorts (s : State) : State :=
  (List.range 4).foldl (fun s n =>
    let x := s.port n
    let y := x.put (s.cfg.ifg.ports.getD n {}) (s.cfg.imgs.getD n {}) s.time
    if y = x then s
    else
      (s.wr64 (Reg.fbsCyclesLo n) 0).setPort n y) s

/-- Every unit record in force: the global section's and the partitions'. -/
def Cfg.tsus (c : Cfg) : List TsuRec := c.ifg.tsus ++ c.parts.flatMap fun q => q.ifp.tsus

/-- The edge number of a pulse unit at or after an instant (R466). -/
def TsuRec.edgeAt (r : TsuRec) (t : Nat) : Nat := if r.period = 0 then 0 else cdiv (t - r.start) r.period

/-- The timestamp and trigger units with their records; a unit whose record is unchanged goes on. -/
def State.putTsus (s : State) : State :=
  let one (e : TsuSt × Nat) : TsuSt :=
    let r := s.cfg.tsus.find? (·.unit == e.2)
    if e.1.rec_ = r then e.1 else { rec_ := r, k := match r with | some x => x.edgeAt s.time | none => 0 }
  { s with fif := { s.fif with tsus := s.fif.tsus.zipIdx.map one } }

/-- The ingest channels of the partitions in `ps`, with SEQ 0 and empty rings (R470). -/
def State.putChans (s : State) (ps : List Nat) : State :=
  { s with fif := { s.fif with
      chans := (s.fif.chans.filter fun c => !ps.contains c.part)
        ++ (s.cfg.parts.filter fun q => ps.contains q.num).flatMap fun q => q.ifp.chans.map fun c => { cfg := c, part := q.num } } }

/-! ### DONE (R58, R61, R62) -/

/-- What the warden holds of the mechanisms of partitions that were steeped: no record, held until START. -/
def State.putMechs (s : State) (full : Bool) (ps : List Nat) : State :=
  let mine (m : Nat) : Bool := full || (match s.mech? m with | some (q, _) => ps.contains q.num | none => true)
  let w := s.warden
  { s with warden := { w with mechs := w.mechs.zipIdx.map fun (e : WMech × Nat) => if mine e.2 then {} else e.1,
                              soe := if full then List.replicate 32 {} else w.soe } }

/-- DISTRIBUTE completes and the steeping is DONE: the new configuration is in force, the serials with it, and the partitions that
it configures are STOPPED. -/
def State.steepDone (s : State) (x : Steep) : State :=
  let c := x.cfg.getD {}
  let full := !x.partial_
  let ps := if full then List.range 8 else [x.target]
  let s := { s with loader := { s.loader with active := some c, run := none, code := cOK, last := 7, slotB := !s.loader.nextA } }
  let s := (c.parts.filter fun q => ps.contains q.num).foldl State.writeContexts s
  let s := (((s.putSync ps).putSched ps).putInts full ps).putMechs full ps
  let s := if full then s.putPower.putPorts else s
  let s := (s.putTsus).putChans ps
  let s := { s with arrs := s.arrs.map fun (a : ArrSt) => { a with last := a.last.filter fun e => !ps.contains e.1 } }
  let s := ps.foldl (fun s p =>
    (s.setPRun p { s.prun p with lastFrame := none, issued := false, resetting := false, opened := 0, commit := none }).setPSt p
      (if s.defined p then .stopped else .unconfigured)) s
  s.raise isrcLOADER

/-- DISTRIBUTE failed (R61): the affected partitions are restored from the active slot and left STOPPED, with ABORTED. -/
def State.steepFailed (s : State) (x : Steep) : State :=
  let ps := if x.partial_ then [x.target] else List.range 8
  let s := s.endSteep { code := cABORTED }
  (s.cfg.parts.filter fun q => ps.contains q.num).foldl State.writeContexts s

/-- DISTRIBUTE (R58, R61): the configuration is written; `ok` false where an uncorrectable memory error or a failed die-to-die link
ends it. -/
def execDistribute (ok : Bool) (t : Nat) (s : State) : Host.Outcome State Fault Refusal :=
  (s.boundary 6 t fun x s => if ok then s.steepDone x else s.steepFailed x).done

end Sys2Proof.Machine
end

