-- ==== Sys2Proof/Machine/ResetFam.lean ====
section
/-! DEFINITION. Life-cycle requests (19_reset_and_bringup.md R427 to R429), the three resets, bring-up and readiness (R419 to R426,
R511), and the restart after a fall-back decision (14_safety_concept.md R329, R330). -/

namespace Sys2Proof.Machine

/-! ### Life-cycle requests (R427 to R429) -/

/-- A new nonce (R428). -/
def State.drawNonce (s : State) : State :=
  { s with dev := { s.dev with nonce := Config.lcNonce s.fresh % 2 ^ 64 }, fresh := s.fresh + 1 }

/-- A request ends with a code: GO reads 0 again, source LOADER is raised, and a new nonce stands (R428, R429). -/
def State.lcEnd (s : State) (code : Nat) : State :=
  (({ s with dev := { s.dev with lcStatus := code } } : State).wrBits Reg.glbLcCmd 0 0 0).drawNonce.raise isrcLOADER

/-- The later of two states on the one way that R427 allows. -/
def LcState.later (a b : LcState) : LcState := if a.code ≤ b.code then b else a

/-- An accepted transition (R427): the secure region wiped, both planner dies held in warm reset, the state pending. -/
def State.lcAdvance (s : State) (n : LcState) : State :=
  let s := s.wipeSecure 1
  let s := { s with dev := { s.dev with lcNext := some (match s.dev.lcNext with | some m => m.later n | none => n) } }
  s.warmReset 1 s.time true

/-- A request processed (R428): the checks in order, then the fuses. `ok` false where it could not be read, `burn` where a burn does
not read back. -/
def State.lcRun (s : State) (r : LcIn) : State :=
  if s.anyRunning ∨ s.parts.any (·.st == .running) ∨ s.loader.run.isSome then s.lcEnd lcBUSY
  else if !r.ok ∨ r.bytes.length < 512 then s.lcEnd lcFETCH
  else
    let c := lcCheck s.fuses s.dev.nonce r.bytes
    if c ≠ lcOK then s.lcEnd c
    else if !r.burn then s.lcEnd lcFUSE
    else
      let (f, n) := lcApply s.fuses r.bytes
      let s := { s with fuses := f }
      (match n with | some x => s.lcAdvance x | none => s).lcEnd lcOK

/-- A life-cycle request of an operation: the write of GLB_LC_CMD.GO, or the one in progress, with the request's bytes. A request
whose OP names another operation is not this command. -/
def State.lcRequest (s : State) (op : Nat) (r : LcIn) : State :=
  let o := leAt r.bytes 4 1
  if r.ok && decide (512 ≤ r.bytes.length) && o != op && decide (1 ≤ o) && decide (o ≤ 7) then s
  else if bit (s.rd Reg.glbLcCmd).toNat 0 then (s.at r.t).lcRun r
  else s.onWrite { fn := r.fn, off := Reg.glbLcCmd } r.t fun s => s.lcRun r

/-- PROVISION (R428). -/
def execProvision (r : LcIn) (s : State) : Host.Outcome State Fault Refusal := (s.lcRequest 1 r).done
/-- KEY_OWNER (R428, R429). -/
def execKeyOwner (r : LcIn) (s : State) : Host.Outcome State Fault Refusal := (s.lcRequest 2 r).done
/-- KEY_SAFETY (R428, R429). -/
def execKeySafety (r : LcIn) (s : State) : Host.Outcome State Fault Refusal := (s.lcRequest 3 r).done
/-- REVOKE_OWNER (R428, R429). -/
def execRevokeOwner (r : LcIn) (s : State) : Host.Outcome State Fault Refusal := (s.lcRequest 4 r).done
/-- REVOKE_SAFETY (R428, R429). -/
def execRevokeSafety (r : LcIn) (s : State) : Host.Outcome State Fault Refusal := (s.lcRequest 5 r).done
/-- ADVANCE_FIELD (R427, R428). -/
def execAdvanceField (r : LcIn) (s : State) : Host.Outcome State Fault Refusal := (s.lcRequest 6 r).done
/-- ADVANCE_RETURN (R427, R428). -/
def execAdvanceReturn (r : LcIn) (s : State) : Host.Outcome State Fault Refusal := (s.lcRequest 7 r).done

/-! ### Cold reset (R419, R422, R423, R431) -/

/-- What a cold reset leaves: the fuses, with a pending life-cycle state in effect (R427), the retirement list, and the contents of
the HBM stacks, except the staging slots (R63), while their rails stay in tolerance (R511). -/
def State.coldReset (s : State) (cmd : Bool) (heldTo : Nat) : State :=
  let hbm (a : Nat) : Bool := decide (a < 0x0005F8000000) || (decide (0x000600000000 ≤ a) && decide (a < 0x000C00000000))
  { time := s.time, fuses := match s.dev.lcNext with | some x => { s.fuses with lc := x } | none => s.fuses,
    dev := { up := false, coldCmd := cmd, heldTo, coldCause := b2n cmd, hbmLost := s.dev.hbmLost, fwVersion := s.dev.fwVersion },
    errs := { list := if s.errs.clear then [] else s.errs.list },
    mem := s.mem.filter fun e => hbm e.1, psn := s.psn.filter fun e => hbm (64 * e.1),
    hostW := s.hostW, fresh := s.fresh, pending := s.pending }

/-- COLD_RESET (R419): POR_N driven low. -/
def execColdReset (t : Nat) (s : State) : Host.Outcome State Fault Refusal := ((s.at t).coldReset false 0).done

/-- A GLB_RESET_CMD write by a function that R430 lets act: its TARGET and OP fields stand as written. -/
def State.resetWrite (s : State) (fn v t : Nat) (f : State → State) : State :=
  s.onWrite { fn, off := Reg.glbResetCmd } t fun s =>
    if fn = 0 ∨ (v % 16 = 2 ∧ v / 16 % 8 = fn - 1) then f (s.wr Reg.glbResetCmd (BitVec.ofNat 32 (v % 128))) else s

/-- The result of a reset command. -/
def State.cmdResult (s : State) (n : Nat) : State := { s with dev := { s.dev with cmdResult := n } }

/-- COLD (R430): the cold reset of a GLB_RESET_CMD write, its pin states held for 1 ms. -/
def execCold (fn t : Nat) (s : State) : Host.Outcome State Fault Refusal :=
  (s.resetWrite fn 3 t fun s => s.coldReset true (s.time + 1000000)).done

/-- A domain after cold reset (R402, R405): ON where its unit is enabled and in service. -/
def State.domAtCold (s : State) (n : Nat) : Dom :=
  let off := s.domGone n || (decide (128 ≤ n) && decide (n < 144) && !((List.range 8).any fun i => s.coreEn (8 * (n - 128) + i)))
    || (decide (144 ≤ n) && decide (n < 160) && !((List.range 8).any fun i => s.coreEn (8 * (n - 144) + i)))
  { st := if off then .off else .on }

/-- POR_N_RELEASE (R10, R37, R301, R363, R405, R424): device time starts at 0, fuses and PKG_SEL are latched, the secure region is
wiped, both channels start, the retirement list is applied, domains are ON and PLLs locked. -/
def execPorNRelease (o : PorIn) (s : State) : Host.Outcome State Fault Refusal :=
  (if s.dev.up ∨ (s.dev.coldCmd ∧ o.t < s.dev.heldTo) then s
   else
     let s := { s with time := 0, dev := { s.dev with up := true, pkgSel := o.pkgSel % 8 } }
     let s := (s.wrBits Reg.memSecureStatus 11 8 0).wrBits Reg.memSecureStatus 0 0 1
     let s := { s with warden := { s.warden with chA := o.chA, chB := o.chB, state := if o.chA && o.chB then .normal else .channelFail } }
     let s := { s with ktl := { s.ktl with lock := 2 ^ 28 - 1, doms := (List.range 176).map s.domAtCold } }
     ((s.newInterval 0 0).newInterval 1 0).drawNonce).done

/-! ### Bring-up (R425, R426, R511) -/

/-- A readiness bit that GLB_READY holds. -/
def readyKnown (b : Nat) : Bool :=
  decide (b < 22) || (decide (32 ≤ b) && decide (b < 36)) || (decide (40 ≤ b) && decide (b < 59))

/-- The PCIe link up at the speed and width that it negotiates (HIF_LINK). -/
def State.linkTrain (s : State) : State :=
  let v := Config.pcieLink s.fresh
  ({ s with fresh := s.fresh + 1 } : State).wr Reg.hifLink (BitVec.ofNat 32 (2 ^ (v / 5 % 5) * 16 + (1 + v % 5) * 2 + 1))

/-- A readiness bit set, with the links it tells of (GLB_D2D_STATUS) and, for the endpoint, the negotiated link. -/
def State.setReady (s : State) (b : Nat) : State :=
  let s := { s with dev := { s.dev with ready := s.dev.ready ||| 2 ^ b } }
  if b = rbDIE ∨ b = rbDIE + 1 then
    let d := b - rbDIE
    let s := (s.wrBits Reg.glbD2dStatus d d 1).wrBits Reg.glbD2dStatus (3 + d) (3 + d) 0
    let s := if bit s.dev.ready rbDIE && bit s.dev.ready (rbDIE + 1) then (s.wrBits Reg.glbD2dStatus 2 2 1).wrBits Reg.glbD2dStatus 5 5 0 else s
    s.raise isrcD2D
  else if b = rbPCIE then
    s.linkTrain
  else s

/-- A unit of a cluster or an array belongs to the function of a readiness bit. -/
def unitOfBit (b u : Nat) : Bool :=
  let d := u / 512; let p := u % 512
  if b < 16 then d == b / 8 && (if p < 64 then p / 8 == b % 8 else if p < 80 then (p - 64) / 2 == b % 8 else if p < 88 then p - 80 == b % 8
    else decide (96 ≤ p) && decide (p < 104) && p - 96 == b % 8)
  else b == 16 + d && p == 88

/-- A unit is tested at bring-up: enabled, and not retired (R424). -/
def State.tested (s : State) (u : Nat) : Bool := (decide (64 ≤ u % 512) || s.coreEn (u / 512 * 64 + u % 512)) && !s.isRetired u

/-- A unit whose bring-up test failed twice (R360, R425): a failed slice, its record, its retirement. -/
def State.testFailed (s : State) (u : Nat) : State :=
  let (ref, s) := (s.inc Reg.glbStFail).record { kind := ekST_FAIL, act := 6, unit := u, time := s.time }
  s.retire u 0 ref s.time

/-- A function that fails sets its GLB_READY_FAIL bit, with an error record (R425). A link that fails training again during a restart
leaves the dies held (R382). -/
def State.readyFail (s : State) (b : Nat) : State :=
  let unit := if b = rbHBM ∨ b = rbHBM + 1 then unitId (b - rbHBM) 105 else if b = rbDIE ∨ b = rbDIE + 1 then unitId (b - rbDIE) 112 else noUnit
  let s := ({ s with dev := { s.dev with failed := s.dev.failed ||| 2 ^ b } } : State).log { kind := ekST_FAIL, unit, time := s.time }
  if s.dev.restart ∧ (b = rbDIE ∨ b = rbDIE + 1) then (s.warmReset 4 s.time true).setWState .held else s

/-- READY (R425, R511): a function ends its bring-up test. A cluster or an array always becomes ready; an HBM stack that must be
written first becomes ready at HBM_INIT. -/
def execReady (bit_ : Nat) (o : ReadyIn) (t : Nat) (s : State) : Host.Outcome State Fault Refusal :=
  let s := s.at t
  (if s.dev.up ∧ readyKnown bit_ ∧ !bit s.dev.ready bit_ ∧ !bit s.dev.failed bit_ ∧ (32 ≤ bit_ ∨ s.dev.warm.isNone) then
     match o with
     | .pass us =>
       if bit_ = rbHBM ∨ bit_ = rbHBM + 1 then
         let i := bit_ - rbHBM
         let s := { s with dev := { s.dev with trained := listSet s.dev.trained i true } }
         if s.dev.hbmLost.getD i false then s else s.setReady bit_
       else ((us.filter fun u => unitOfBit bit_ u && s.tested u).foldl State.testFailed s).setReady bit_
     | .fail => if bit_ < 18 then s.setReady bit_ else s.readyFail bit_
   else s).done

/-- HBM_INIT (R511): a controller has written its whole stack with zero data; the stack is ready. -/
def execHbmInit (stack t : Nat) (s : State) : Host.Outcome State Fault Refusal :=
  let s := s.at t
  (if stack < 2 ∧ s.dev.up ∧ s.dev.warm.isNone ∧ s.dev.trained.getD stack false ∧ s.dev.hbmLost.getD stack false then
     let mine (a : Nat) : Bool := decide (a < 0x000C00000000) && stackOf a == stack
     let s := s.wipe mine
     ({ s with dev := { s.dev with hbmLost := listSet s.dev.hbmLost stack false } } : State).setReady (rbHBM + stack)
   else s).done

/-! ### Warm reset (R420) -/

/-- WARM (R420): a warm reset by command; the configured partitions are left STOPPED. -/
def execWarm (fn t : Nat) (s : State) : Host.Outcome State Fault Refusal :=
  (s.resetWrite fn 1 t fun s => (s.warmReset 1 s.time false).cmdResult 0).done

/-- The PLLs of the planner dies: ENG, ARR, FAB and HBM clocks. -/
def planPlls : Nat := (2 ^ 20 - 1) + 2 ^ 21 + 2 ^ 22

/-- DISTRIBUTE repeated from the active slot (R63): the start blocks of every partition's contexts. -/
def State.redistribute (s : State) : State := s.cfg.parts.foldl State.writeContexts s

/-- WARM_RESET_RELEASE (R420): 99 µs after the first source, while nothing holds the dies, the warm reset is released; every planner PLL
relocks (R409) and the configuration is distributed again (R63). -/
def execWarmResetRelease (t : Nat) (s : State) : Host.Outcome State Fault Refusal :=
  (match s.dev.warm with
   | none => s
   | some w =>
     if s.dev.hold then s
     else
       let s := s.at (max t (w + 99000))
       let s := { s with dev := { s.dev with warm := none, released := !s.dev.restart }, ktl := { s.ktl with lock := s.ktl.lock ||| planPlls } }
       s.redistribute).done

/-! ### Partition reset (R421, R422) -/

/-- A partition reset of p accepted: its work cleared, its PART_RESET Saucers issued. -/
def State.partReset (s : State) (p t : Nat) : State :=
  let was := (s.prun p).st
  let s := s.clearPart p t
  let s := (s.trigger 7 t ((s.pcfg p).mechs.map (·.num))).decide?
  if was = .running then (s.setPRun p { s.prun p with restart := false }).stopCheck p else s.setPRun p { s.prun p with resetting := false }

/-- PART (R421, R422): accepted while p is RUNNING or STOPPED, but for the field master beside another running partition that defines
mechanisms; without effect during a warm reset. -/
def State.partCommand (s : State) (p t : Nat) : State :=
  let st := (s.prun p).st
  let others := (s.cfg.hasMechs.map (·.num)).any fun x => x != p && (s.prun x).st == .running
  if !(st == .running || st == .stopped) || (decide (s.master = some p) && others) then s.cmdResult 1
  else if s.dev.warm.isSome then s.cmdResult 0
  else (s.partReset p t).cmdResult 0

/-- PART. -/
def execPart (fn p t : Nat) (s : State) : Host.Outcome State Fault Refusal :=
  (s.resetWrite fn (p % 8 * 16 + 2) t fun s => s.partCommand (p % 8) s.time).done

/-- A GLB_RESET_CMD write of value v: its OP, or nothing for another value. -/
def State.resetCommand (s : State) (fn v t : Nat) : State :=
  s.resetWrite fn v t fun s =>
    if v % 16 = 1 then (s.warmReset 1 s.time false).cmdResult 0
    else if v % 16 = 2 then s.partCommand (v / 16 % 8) s.time
    else if v % 16 = 3 then s.coldReset true (s.time + 1000000)
    else s

/-! ### Restart after a fall-back decision (R329, R330) -/

/-- The planner functions that the restart waits for are ready (R329): clusters, arrays, HBM stacks and dies. -/
def State.plannerReady (s : State) : Bool := (List.range 22).all fun b => s.readyBit b

/-- One partition restarted with BLD_T0 zero; one whose START fails is left STOPPED. A mechanism held since its Saucer stays held,
with the plan and the Saucer in force, until a commit is accepted, which starts from the drives' positions at START (R121, R330). -/
def State.restartPart (s : State) (t p : Nat) : State :=
  let s := s.setPRun p { s.prun p with restart := false }
  let t0 := firstT0 t (s.period p)
  if s.startCheck p t0 = cOK then
    (s.pcfg p).mechs.foldl (fun s' m =>
        if (s.wm m.num).held && (s.wm m.num).cur.isSome then s'.setWm m.num { s.wm m.num with drives := some (s.imagePos m) } else s')
      (s.startPart p t0)
  else s.setPSt p .stopped

/-- PLANNER_RESTART (R329, R330): with the planner functions ready the warden repeats DISTRIBUTE and starts the field master, then
every other partition that was RUNNING. -/
def execPlannerRestart (t : Nat) (s : State) : Host.Outcome State Fault Refusal :=
  (if s.dev.up ∧ s.dev.warm.isNone ∧ s.dev.restart ∧ s.plannerReady then
     let s := (s.at t).redistribute
     let ps := (List.range 8).filter fun p => (s.prun p).restart
     let m := ps.filter fun p => s.master == some p
     let s := (m ++ ps.filter fun p => s.master != some p).foldl (fun s p => s.restartPart t p) s
     (({ s with dev := { s.dev with restart := false } } : State).inc Reg.wdnRestarts).restartDone
   else s).done

end Sys2Proof.Machine
end

