-- ==== Sys2Proof/Machine/HostFam.lean ====
section
/-! DEFINITION. The host interface (20_host_interface.md): doorbells, queue control, host commands, PCIe resets and power states,
BAR2 accesses, and verdict-trace records dropped. -/

namespace Sys2Proof.Machine

/-! ### Queues (R435, R439 to R441) -/

/-- The HOST task that serves queue q of virtual function p. -/
def State.hostTask (s : State) (p q : Nat) : Option TaskRec := (s.pcfg p).tasks.find? fun t => t.kind == tkHOST && t.arg 1 == q

/-- The partition of a virtual function is in partition or warm reset (R442). -/
def State.vfReset (s : State) (fn : Nat) : Bool := fn != 0 && (s.dev.warm.isSome || (s.prun (fn - 1)).resetting)

/-- How many items a group can take now (R256), at most 4,096. -/
def SchedDie.credit (d : SchedDie) (g : GroupSt) : Nat :=
  let n := g.items.length
  min 4096 ((g.qmin - n) + min (g.qmax - max n g.qmin) (8192 - (d.groups.map fun h => max h.qmin h.items.length).sum))

/-- HIF_SQ_CREDIT (R439): the commands that the queue's group can take, 0 while its task is held or its partition in reset. The
warden's host mover takes any number of the physical function's. -/
def State.credit (s : State) (fn q : Nat) : Nat :=
  if fn = 0 then 4096
  else if s.vfReset fn then 0
  else
    match s.hostTask (fn - 1) q with
    | none => 0
    | some r =>
      match (s.sch r.die).group (fn - 1) r.grp, s.task? r.die (fn - 1) r.task with
      | some g, some t => if t.held then 0 else (s.sch r.die).credit g
      | _, _ => 0

/-- HIF_Q_STATUS.HELD: credit is withheld. -/
def State.hqHeld (s : State) (fn q : Nat) : Bool := fn != 0 && (s.vfReset fn || (s.hostTask (fn - 1) q).isSome && s.credit fn q == 0)

/-- HIF_Q_STATUS.IDLE: no command in progress, no completion left to post. -/
def HQueue.idle (x : HQueue) : Bool := x.wait.isNone && x.copy.isNone && x.ready.isEmpty

/-- The function and queue of a queue register, with its offset in the queue's page (R433). -/
def hifAt (off : Nat) : Nat × Nat × Nat := ((off - 0x10A000) / 0x400, (off - 0x10A000) % 0x400 / 0x40, (off - 0x10A000) % 0x40)

/-- The register at an offset is a queue register. -/
def isHif (off : Nat) : Bool := decide (0x10A000 ≤ off) && decide (off < 0x10C400) && decide ((off - 0x10A000) % 0x400 < 0x200)

/-- A doorbell ignored because its queue is disabled. -/
def State.ignored (s : State) : State := s.inc Reg.hifDbIgnored

/-- HIF_SQ_TAIL written with an index (R439, R441). -/
def State.sqDoorbell (s : State) (fn q i : Nat) : State :=
  let x := s.hq fn q
  if !x.en then s.ignored
  else if 2 ^ x.sqSize ≤ i then s.setHq fn q { x with err := qeTAIL }
  else s.setHq fn q { x with tail := i }

/-- HIF_CQ_HEAD written with an index (R440): entries freed, and completions that are ready posted. -/
def State.cqDoorbell (s : State) (fn q i : Nat) : State :=
  let x := s.hq fn q
  if !x.en then s.ignored
  else (s.setHq fn q { x with cqHead := i % 2 ^ x.cqSize }).postReady fn q

/-- Why a queue cannot be enabled with the sizes of a value (R441): 0 where it can. -/
def State.enableErr (s : State) (fn q v : Nat) : Nat :=
  let sz (n : Nat) : Bool := decide (4 ≤ n) && decide (n ≤ 12)
  if s.rd64 (Reg.hifSqBaseLo fn q) % 4096 ≠ 0 ∨ s.rd64 (Reg.hifCqBaseLo fn q) % 4096 ≠ 0 ∨ !sz (bits v 23 20) ∨ !sz (bits v 27 24) then qeBASE
  else if fn ≠ 0 ∧ (s.hostTask (fn - 1) q).isNone then qeNO_TASK else 0

/-- HIF_Q_CTRL written (R441). -/
def State.hqCtrl (s : State) (fn q v : Nat) : State :=
  let x := { s.hq fn q with irq := bit v 1 }
  let sized := { x with sqSize := bits v 23 20, cqSize := bits v 27 24 }
  if !bit v 0 then s.setHq fn q { sized with en := false }
  else if x.en then s.setHq fn q x
  else
    let e := s.enableErr fn q v
    if e ≠ 0 then s.setHq fn q { sized with err := e }
    else if !x.idle then s.setHq fn q sized
    else s.setHq fn q { sized with en := true, head := 0, tail := 0, cqHead := 0, cqTail := 0, phase := true, err := 0, counted := false }

/-- A write of a queue register with a step of its own: its offset in the queue's page, and the step. -/
def State.onQueue (s : State) (a : RegAcc) (t o : Nat) (ok : Bool) (f : State → Nat → Nat → State) : State :=
  let (fn, q, r) := hifAt a.off
  if a.bar = .bar0 ∧ isHif a.off ∧ r = o ∧ ok then s.onWrite a t fun s => f s fn q else s

/-- SQ_TAIL (R439): a write of HIF_SQ_TAIL. -/
def execSqTail (a : RegAcc) (v t : Nat) (s : State) : Host.Outcome State Fault Refusal :=
  (s.onQueue a t 0x14 true fun s fn q => s.sqDoorbell fn q (v % 4096)).done

/-- CQ_HEAD (R440): a write of HIF_CQ_HEAD. -/
def execCqHead (a : RegAcc) (v t : Nat) (s : State) : Host.Outcome State Fault Refusal :=
  (s.onQueue a t 0x18 true fun s fn q => s.cqDoorbell fn q (v % 4096)).done

/-- QUEUE_ENABLE (R441): a write of HIF_Q_CTRL with EN set. -/
def execQueueEnable (a : RegAcc) (v t : Nat) (s : State) : Host.Outcome State Fault Refusal :=
  (s.onQueue a t 0x10 (bit v 0) fun s fn q => s.hqCtrl fn q v).done

/-- QUEUE_DISABLE (R441): a write of HIF_Q_CTRL with EN clear. -/
def execQueueDisable (a : RegAcc) (v t : Nat) (s : State) : Host.Outcome State Fault Refusal :=
  (s.onQueue a t 0x10 (!bit v 0) fun s fn q => s.hqCtrl fn q v).done

/-! ### Taking a command (R437, R439, R440) -/

/-- The origin tag of a PCIe function (R348). -/
def hostTag (fn : Nat) : Nat := originTag (if fn = 0 then clsN else clsQ) 0 (fn - 1) 3 fn

/-- A queue may take a command: enabled, not stopped, commands in the ring, none in progress, its function awake and its partition
out of reset. -/
def State.hqTakes (s : State) (fn q : Nat) : Bool :=
  let x := s.hq fn q
  s.pcieUp && decide (fn ≤ 8) && decide (q < 8) && x.en && x.err == 0 && x.head != x.tail && !x.asleep && x.wait.isNone && x.copy.isNone
    && !s.stalled (.hostq fn q) && !s.vfReset fn

/-- The next command of a queue taken (R439): a full CQ holds it, a fetch that failed stops the queue, a malformed one completes with
FORMAT; one of kind `op` that `may` run is run by `f`, another one waits for its own row. -/
def State.hostTake (s : State) (c : HostIn) (op : Nat) (may : HCmd → Bool) (f : State → HCmd → State) : State :=
  let s := s.at c.t
  let x := s.hq c.fn c.q
  if !s.hqTakes c.fn c.q then s
  else if x.cqFull then (if x.counted then s else (s.setHq c.fn c.q { x with counted := true }).inc Reg.hifCqFull)
  else if c.bytes.length < 64 then s.setHq c.fn c.q { x with err := qeFETCH }
  else
    let h := decHCmd (c.bytes.take 64)
    let s' := s.setHq c.fn c.q { x with head := (x.head + 1) % 2 ^ x.sqSize, counted := false }
    if 1 ≤ h.op ∧ h.op ≤ 5 ∧ h.op ≠ op then s
    else if !h.ok then s'.complete c.fn c.q h.cid hsFORMAT 0 h.notify
    else if may h then f s' h else s

/-! ### COPY (R437, R438) -/

/-- What moves a COPY: who it is for and its tag, and for a virtual function the item of its HOST task with the core whose DMA engine
runs it. -/
structure Mover where
  who  : Who
  tag  : Nat
  item : Option (Item × Nat) := none
  deriving DecidableEq, Repr

/-- The core whose DMA engine holds the item of the COPY in progress on queue q of a virtual function. -/
def State.copyCore (s : State) (fn q : Nat) : Option (Item × Nat) :=
  s.cores.zipIdx.findSome? fun (e : CoreSt × Nat) =>
    match e.1.dma.item with
    | some i => if i.kind = tkHOST ∧ i.part + 1 = fn ∧ i.arg = q then some (i, e.2) else none
    | none => none

/-- The mover that runs the COPY in progress of a virtual function's queue, none until a core has drawn its item. -/
def State.copyMover (s : State) (fn q : Nat) : Option Mover :=
  (s.copyCore fn q).bind fun e =>
    if s.coreUp e.2 then some { who := .part e.1.part e.1.cls (e.2 / 64), tag := coreTag e.1.part e.1.cls e.2, item := some e } else none

/-- A COPY of a virtual function's queue taken while the queue has credit: released as one item of its HOST task (R437, R439). -/
def State.releaseCopy (s : State) (c : HostIn) : State :=
  let p := c.fn - 1
  match s.hostTask p c.q with
  | none => s
  | some r =>
    match (s.sch r.die).group p r.grp, s.task? r.die p r.task with
    | some g, some t =>
      let i := { taskItem p r g.cls t.seq with frame := s.frameAt p s.time, epoch := s.fld.epoch, arg := c.q }
      let s := s.setHq c.fn c.q { s.hq c.fn c.q with copy := some (c.bytes.take 64), mute := false }
      (s.trace r.die 0x01 0xFF i 0).place r.die t [i]
    | _, _ => s

/-- The HOST task of a queue held for want of room in its group, counted once (R256). -/
def State.holdHost (s : State) (fn q : Nat) : State :=
  let p := fn - 1
  match s.hostTask p q with
  | none => s
  | some r =>
    match (s.sch r.die).group p r.grp, s.task? r.die p r.task with
    | some g, some t => if t.held then s else (s.setTask r.die { t with held := true }).countHold r.die (taskItem p r g.cls t.seq)
    | _, _ => s

/-- The item of a COPY ends (R292, R308): a success leaves it to complete; a failure writes an error record, takes it out of service, and
counts as a timing-dependent choice where poison or a CRC error is its cause. -/
def State.hostItemEnd (s : State) (m : Mover) (status n : Nat) : State :=
  match m.item with
  | some (i, k) =>
    let s := s.add64 (Reg.memDmaBytesLo k) n
    if status = hsOK then s.setCore k { s.core k with dma := (s.core k).dma.free }
    else
      let s := s.log { kind := ekDMA_FAIL, act := actOf ekDMA_FAIL, tag := m.tag, unit := coreUnit k, cls := i.cls, time := s.time, op := i.seq }
      (if status = hsPOISON ∨ status = hsCRC then s.tdc i.part (s.frameAt i.part s.time) 7 else s).dmaDrop k
  | none => s

/-- A block whose check failed at its destination (R294): sent again once and counted, or failed. -/
def State.hostBlock (s : State) (m : Mover) (a : Nat) (ok : Bool) : State :=
  let s := s.inc (if ok then Reg.memCrcRetry (memDie a) else Reg.memCrcErr (memDie a))
  s.event { kind := if ok then ekCRC_RETRY else ekCRC_ERR, sub := memDie a, tag := m.tag, addr := a, t := s.time }

/-- COPY_IN: the bytes that host memory gave are written; blocks in `fail` are poisoned. It answers the status. -/
def State.copyIn (s : State) (m : Mover) (c : HostIn) (h : HCmd) : State × Nat :=
  let dst := s.near h.dev
  if !s.fwOk m.who true dst h.len then (s.refuse m.tag dst true, hsREFUSED)
  else
    let n := if c.pcie then h.len else min h.len (c.data.length / 64 * 64)
    let s := s.touch dst n
    let s := (blocksOf dst n).zipIdx.foldl (fun s e =>
      let a := dst + e.1.1
      if c.fail.contains e.2 then (s.spoil a e.1.2).hostBlock m a false
      else
        let s := (s.defBuf a e.1.2).store a (slice c.data e.1.1 e.1.2)
        if c.retry.contains e.2 then s.hostBlock m a true else s) s
    let crcBad := c.fail.any (decide <| · < (blocksOf dst n).length)
    (s, if crcBad then hsCRC else if !c.pcie then hsPCIE
        else if h.check ∧ (crc32c (c.data.take h.len)).toNat ≠ h.expect then hsCRC else hsOK)

/-- COPY_OUT: the bytes read are posted to host memory but for poisoned lines and blocks in `fail`. It answers the status: REFUSED
where a virtual function's read of a field store returns STALE (R85; DESIGN CHOICE, log entry 188). -/
def State.copyOut (s : State) (m : Mover) (c : HostIn) (h : HCmd) : State × Nat :=
  let src := s.near h.dev
  if !s.fwOk m.who false src h.len then (s.refuse m.tag src false, hsREFUSED)
  else if let some g := m.item.bind fun e => s.storeStale e.1 src then (s.inc (Reg.fldStaleCount (g / 8) (g % 8)), hsREFUSED)
  else
    let s := (s.touch src h.len).settleBuf src h.len
    let poison := s.poisoned src h.len
    let s := (blocksOf h.host h.len).zipIdx.foldl (fun s e =>
      let a := src + e.1.1
      if c.fail.contains e.2 then s.hostBlock m a false
      else
        let s := if s.poisoned a e.1.2 then
            (linesOf a e.1.2).foldl (fun s l => if s.psn.get false l then s else s.toHost (h.host + (64 * l - src)) (s.peek (64 * l) 64)) s
          else s.toHost (h.host + e.1.1) (s.peek a e.1.2)
        if c.retry.contains e.2 then s.hostBlock m a true else s) s
    let s := if h.check ∧ poison then s.inc (Reg.memPoisonConsumed (memDie src)) else s
    let crcBad := c.fail.any (decide <| · < (blocksOf h.host h.len).length)
    (s, if crcBad then hsCRC else if poison then hsPOISON
        else if h.check ∧ (crc32c (s.peek src h.len)).toNat ≠ h.expect then hsCRC else hsOK)

/-- COPY_IN to another package (R32): the answer has come, and the bytes stand there. It answers the status. -/
def farInStatus (c : HostIn) (h : HCmd) : Nat :=
  if !c.pcie then hsPCIE else if h.check ∧ (crc32c (c.data.take h.len)).toNat ≠ h.expect then hsCRC else hsOK

/-- COPY_OUT from another package (R32): the bytes read there are posted to host memory but for poisoned lines. It answers the status. -/
def State.farOut (s : State) (h : HCmd) (data : List Byte) (bad : List Nat) : State × Nat :=
  let s := (List.range (h.len / 64)).foldl (fun (s : State) i => if bad.contains i then s else s.toHost (h.host + 64 * i) (slice data (64 * i) 64)) s
  (s, if !bad.isEmpty then hsPOISON else if h.check ∧ (crc32c data).toNat ≠ h.expect then hsCRC else hsOK)

/-- A virtual function's COPY whose request to another package fails (R483): a failed read is poisoned data, a failed write REFUSED. -/
def State.hostFarFail (s : State) (i : Item) (k : Nat) : State :=
  let fn := i.part + 1
  match (s.hq fn i.arg).copy with
  | none => s
  | some b =>
    let st := if (decHCmd b).op = 2 then hsPOISON else hsREFUSED
    let m : Mover := { who := .part i.part i.cls (k / 64), tag := coreTag i.part i.cls k, item := some (i, k) }
    (s.hostItemEnd m (if st = hsPOISON then hsREFUSED else st) 0).copyDone fn i.arg st 0

/-- A virtual function's COPY with its device side in package d (R32, R437): unreachable, it fails at once; with no answer its request is
made and outstanding; a refusal, a failed check or the answer ends it. -/
def State.hostFar (s : State) (c : HostIn) (h : HCmd) (m : Mover) (i : Item) (k d : Nat) (input : Bool) : State :=
  let ends (s : State) (st n res : Nat) : State := (s.hostItemEnd m st n).copyDone c.fn c.q st res
  if !s.reaches d then s.farLost.hostFarFail i k
  else
    let s := if (s.core k).dma.far then s else s.farSend k (if input then h.len else 0) input [d]
    if !s.farInTime k then s
    else
      match c.far with
      | .waiting => s
      | .refused => ends (s.farDrop k) hsREFUSED 0 0
      | .failed => ends (s.farDrop k) hsCRC h.len 0
      | .answer data bad =>
        if input then
          let st := farInStatus c h
          ends (s.farDrop k) st h.len (if h.check ∧ st ≠ hsPCIE then (crc32c (c.data.take h.len)).toNat else 0)
        else if data.length = h.len then
          let r := (s.farDrop k).farOut h data bad
          ends r.1 r.2 h.len (if h.check then (crc32c data).toNat else 0)
        else s

/-- A COPY run by its mover: the bytes moved, the status and the result of its completion (R437, R438). -/
def State.hostCopy (s : State) (c : HostIn) (h : HCmd) (m : Mover) (input : Bool) : State × Nat × Nat :=
  let bytes := if input then c.data.take h.len else s.peek (s.near h.dev) h.len
  let (s, st) := if input then s.copyIn m c h else s.copyOut m c h
  let s := s.hostItemEnd m st (if st = hsREFUSED then 0 else h.len)
  (s, st, if h.check ∧ st ≠ hsREFUSED ∧ st ≠ hsPCIE then (crc32c bytes).toNat else 0)

/-- The host gives what a COPY_IN needs: all its bytes, or a completion error after some of them. -/
def hostGives (c : HostIn) (h : HCmd) (input : Bool) : Bool := !input || !c.pcie || decide (h.len ≤ c.data.length)

/-- The COPY in progress of a virtual function's queue run by the core that has drawn its item. -/
def State.runCopy (s : State) (c : HostIn) (input : Bool) : State :=
  match (s.hq c.fn c.q).copy, s.copyMover c.fn c.q with
  | some b, some m =>
    let h := decHCmd b
    if h.op = (if input then 1 else 2) ∧ hostGives c h input then
      match m.item, s.farPkg h.dev with
      | some (i, k), some d => s.hostFar c h m i k d input
      | _, _ =>
        let r := s.hostCopy c h m input
        r.1.copyDone c.fn c.q r.2.1 r.2.2
    else s
  | _, _ => s

/-- A COPY (R437, R439): the physical function's is run by the warden's host mover as it is taken; a virtual function's is first
released as an item of its HOST task, and run once a core's DMA engine has drawn that item. -/
def State.takeCopy (s : State) (c : HostIn) (input : Bool) : State :=
  let op := if input then 1 else 2
  if c.fn = 0 then
    s.hostTake c op (fun h => s.dev.warm.isNone && hostGives c h input) fun s h =>
      let r := s.hostCopy c h { who := .pf, tag := hostTag 0 } input
      r.1.complete c.fn c.q h.cid r.2.1 r.2.2 h.notify
  else if (s.hq c.fn c.q).copy.isSome then (if s.pcieUp then (s.at c.t).runCopy c input else s.at c.t)
  else if s.hqTakes c.fn c.q && s.credit c.fn c.q == 0 && !s.vfReset c.fn && (decHCmd c.bytes).op == op then (s.at c.t).holdHost c.fn c.q
  else s.hostTake c op (fun _ => s.credit c.fn c.q != 0) fun s _ => s.releaseCopy c

/-- COPY_IN (R437). -/
def execCopyIn (c : HostIn) (s : State) : Host.Outcome State Fault Refusal := (s.takeCopy c true).done

/-- COPY_OUT (R437). -/
def execCopyOut (c : HostIn) (s : State) : Host.Outcome State Fault Refusal := (s.takeCopy c false).done

/-! ### TALLY, FLAG, NOP (R437) -/

/-- TALLY_COMMAND (R437): the tally command applied by the host interface; a wait stalls its queue. -/
def execTallyCommand (c : HostIn) (s : State) : Host.Outcome State Fault Refusal :=
  (s.hostTake c 3 (fun _ => s.dev.warm.isNone) fun s h =>
    let (tref, operand, op) := tallyCmd h.arg
    if op = 0 ∨ 7 < op ∨ (c.fn = 0 ∧ bit tref 63) then s.complete c.fn c.q h.cid hsFORMAT 0 h.notify
    else
      let k := s.compl
      let s := s.setHq c.fn c.q { s.hq c.fn c.q with wait := some (c.bytes.take 64) }
      let s := s.tally op { issuer := .hostq c.fn c.q, part := if c.fn = 0 then 8 else c.fn - 1, tref, operand,
                            cls := if c.fn = 0 then clsN else clsQ, t := c.t }
      { s with compl := k }).done

/-- The task flag that function fn's FLAG command names, set as a write of SCH_FLAG_SET would (R262, R437). -/
def State.hostFlag (s : State) (fn task flag : Nat) : State :=
  let p := fn - 1
  match (s.pcfg p).task task with
  | none => s.inc (Reg.schFlagReject 0)
  | some _ => if flag < 24 then s.setFlag p task flag else s

/-- FLAG (R437). -/
def execFlag (c : HostIn) (s : State) : Host.Outcome State Fault Refusal :=
  (s.hostTake c 4 (fun _ => s.dev.warm.isNone) fun s h =>
    (s.hostFlag c.fn (leAt h.arg 0 2) (leAt h.arg 2 1)).complete c.fn c.q h.cid hsOK 0 h.notify).done

/-- NOP (R436): nothing but its completion. -/
def execNop (c : HostIn) (s : State) : Host.Outcome State Fault Refusal :=
  (s.hostTake c 5 (fun _ => true) fun s h => s.complete c.fn c.q h.cid hsOK 0 h.notify).done

/-! ### PCIe resets and power states (R390, R442, R445) -/

/-- A function's queues disabled with every queue register at its reset value, its MSI-X entries masked. Tally waits in progress
go on and complete without a completion. -/
def State.resetFn (s : State) (fn : Nat) : State :=
  { s with hqs := s.hqs.zipIdx.map fun (e : HQueue × Nat) =>
             if e.2 / 8 = fn then { copy := e.1.copy, mute := e.1.copy.isSome } else e.1,
           regs := s.regs.clear (0x10A000 + 0x400 * fn) (0x10A200 + 0x400 * fn),
           ints := { s.ints with msix := s.ints.msix.clear (2048 * fn) (2048 * fn + 2048), fnMask := s.ints.fnMask.clear fn (fn + 1) } }

/-- Every function reset. -/
def State.resetFns (s : State) : State := (List.range 9).foldl State.resetFn s

/-- PERST_N (R419, R442): a fundamental reset of the endpoint, whose link then trains again. -/
def execPerstN (t : Nat) (s : State) : Host.Outcome State Fault Refusal :=
  let s := s.at t
  (if s.pcieUp then s.resetFns.linkTrain else s).done

/-- FLR (R442): of the physical function it reaches every function. -/
def execFlr (fn t : Nat) (s : State) : Host.Outcome State Fault Refusal :=
  let s := s.at t
  (if s.pcieUp ∧ fn ≤ 8 then (if fn = 0 then s.resetFns else s.resetFn fn) else s).done

/-- The queues of a function put to sleep or woken. -/
def State.sleepFn (s : State) (fn : Nat) (asleep : Bool) : State :=
  { s with hqs := s.hqs.zipIdx.map fun (e : HQueue × Nat) => if e.2 / 8 = fn then { e.1 with asleep } else e.1 }

/-- D3HOT (R442): the function's queues take no commands; those in progress complete. -/
def execD3hot (fn t : Nat) (s : State) : Host.Outcome State Fault Refusal :=
  let s := s.at t
  (if s.pcieUp ∧ fn ≤ 8 then s.sleepFn fn true else s).done

/-- D0 (R442): the function's queues take commands again. -/
def execD0 (fn t : Nat) (s : State) : Host.Outcome State Fault Refusal :=
  let s := s.at t
  (if s.pcieUp ∧ fn ≤ 8 then s.sleepFn fn false else s).done

/-! ### BAR2 (R434) -/

/-- BAR2 offsets below which device memory lies (R434). -/
def bar2End : Nat := 0xC00000000

/-- Function fn's request on the device address of a BAR2 offset is admitted. -/
def State.bar2Ok (s : State) (fn off n : Nat) (write : Bool) : Bool :=
  decide (off + n ≤ bar2End) && s.memReady off && s.fwOk (if fn = 0 then .pf else .vf (fn - 1)) write off n

/-- BAR2_ACCESS (R434). -/
def execBar2Access (a : MemAcc) (s : State) : Host.Outcome State Fault Refusal :=
  let s := s.at a.t
  let n := if a.write then a.data.length else a.len
  (if !s.pcieUp ∨ 8 < a.fn ∨ n = 0 ∨ 2 ^ 36 < a.off + n then s
   else if a.write then
     if s.bar2Ok a.fn a.off n true then (s.store a.off a.data).writeEnd
     else ((s.refuse (hostTag a.fn) a.off true).inc Reg.hifRefused).writeEnd
   else if s.bar2Ok a.fn a.off n false then
     let bad := s.poisoned a.off n
     let s := if bad then s.inc (Reg.memPoisonConsumed (memDie a.off)) else s
     { s with compl := some { data := s.peek a.off n, poison := bad } }
   else { s.refuse (hostTag a.fn) a.off false with compl := some { poison := true } }).done

/-! ### The verdict trace (R443) -/

/-- VERDICT_TRACE_DROP (R443): the first record of partition p that has waited 1 µs is dropped and counted. -/
def execVerdictTraceDrop (p t : Nat) (s : State) : Host.Outcome State Fault Refusal :=
  let s := s.at t
  let due (r : TraceRec) : Bool := r.die.isNone && r.part == p && decide (r.t + 1000 ≤ s.time)
  (match s.traceQ.find? due with
   | none => s
   | some r => ({ s with traceQ := s.traceQ.erase r } : State).inc (Reg.hifVtDrop p)).done

end Sys2Proof.Machine
end

