-- ==== Sys2Proof/Machine/FieldFam.lean ====
section
/-! DEFINITION. The fieldbus, timing and sensor interfaces (21_field_interfaces.md): cycles and their images, links, PTP, ingest
channels, and timestamp and trigger units. -/

namespace Sys2Proof.Machine

/-! ### Ports (R446, R453, R454, R461) -/

/-- IN_BAND_STATUS (R446): the SGMII in-band status word changed. A link counts as up at 1,000 Mb/s full duplex alone. -/
def execInBandStatus (port word t : Nat) (s : State) : Host.Outcome State Fault Refusal :=
  let s := s.at t
  let x := s.port port
  let up := bit word 15 && bit word 12 && bits word 11 10 == 2
  (if !s.dev.up ∨ 4 ≤ port ∨ !s.readyBit (rbFBS + port) ∨ up = x.link then s
   else if up then
     let y := { x with link := true, err := 0 }
     s.setPort port (if x.bus = 0 ∧ x.cfgRec.mode ≠ 0 then
       { y with bus := if x.cfgRec.mode = 2 then 4 else 1, cycling := x.cfgRec.mode == 2, k := x.cfgRec.nextCycle s.time } else y)
   else s.setPort port { x with link := false, err := 1 }).done

/-- PHY_POLL (R446): every 1 ms a port reads its PHY; `up` is whether the PHY answers with its link up. -/
def execPhyPoll (port : Nat) (up : Bool) (t : Nat) (s : State) : Host.Outcome State Fault Refusal :=
  let s := s.at t
  let x := s.port port
  (if !s.dev.up ∨ 4 ≤ port ∨ !s.readyBit (rbFBS + port) ∨ up ∨ x.cfgRec.mode = 0 then s else s.setPort port { x with err := 2 }).done

/-- BUS_TRANSITION (R454): an EtherCAT bus start reaches its next state, or stops with a code. -/
def execBusTransition (port : Nat) (o : BusIn) (t : Nat) (s : State) : Host.Outcome State Fault Refusal :=
  let s := s.at t
  let x := s.port port
  (if s.dev.up ∧ port < 4 ∧ x.cfgRec.mode = 1 ∧ x.link ∧ 1 ≤ x.bus ∧ x.bus < 4 ∧ x.err = 0 then
     if o.ok then
       s.setPort port { x with bus := x.bus + 1, cycling := x.bus == 3, k := x.cfgRec.nextCycle s.time }
     else s.setPort port { x with err := if o.err = 0 ∨ 15 < o.err then 3 else o.err }
   else s).done

/-- BLOCK_LOCK (R461): a 25GBASE-R receiver gains or loses block lock. -/
def execBlockLock (port : Nat) (locked : Bool) (t : Nat) (s : State) : Host.Outcome State Fault Refusal :=
  let s := s.at t
  (if s.dev.up ∧ port < 4 ∧ s.readyBit (rbETH + port) ∧ (s.cfg.ifg.eth.getD port {}).mode = 1 then
     { s with fif := { s.fif with ethUp := listSet s.fif.ethUp port locked } }
   else s).done

/-! ### Cycles (R447 to R449, R451, R455 to R457) -/

/-- The axis records on a port, with their mechanisms' partitions running or not. -/
def State.portAxes (s : State) (n : Nat) : List AxisRec := (s.cfg.parts.flatMap fun q => q.ifp.axes).filter (·.port == n)

/-- A class S fault that names mechanisms and no planner die goes to the warden as a FAULT trigger (R451). -/
def State.mechFault (s : State) (ms : List Nat) (t : Nat) : State := if ms.isEmpty then s else s.trigger 12 t ms

/-- Both wires of every output pair that mechanism m names are energised. -/
def State.energised (s : State) (m : Nat) : Bool :=
  (maskBits 8 (s.msafe m).outs).all fun n => (s.warden.outs.getD n {}).drvA && (s.warden.outs.getD n {}).drvB

/-- The drives of mechanism m may be enabled (R449). -/
def State.mayEnable (s : State) (m : Nat) : Bool :=
  s.energised m && (match s.warden.state with | .normal | .fallback => true | _ => false)

/-- What cycle k of a port sends for an axis: its controlword and target, evaluated for the application time (R447 to R449). -/
def State.setpoint (s : State) (k apply : Nat) (a : AxisRec) : Nat × Nat × Nat × Int :=
  let w := match s.axisIn a with | some x => controlword (s.mayEnable a.mech) (k % 2 == 1) x.status | none => 0
  match s.motionAt a.mech apply with
  | some l => (a.mech, a.axis, w, targetOf a (l.getD (a.axis - 1) {}).p)
  | none => (a.mech, a.axis, 0, Config.idleTarget s.fresh a.mech a.axis % 2 ^ 32)

/-- The output SafeData of a connection (R343): STO_N and SS1_N. -/
def State.soeData (s : State) (r : SoeRec) : List Byte :=
  let w := s.wm r.mech
  toLE 1 (b2n (s.energised r.mech) + 2 * b2n (!(w.held && w.cat == 1))) ++ zeros (r.outLen - 1)

/-- The SoE connections on a port, with their numbers. -/
def State.portSoe (s : State) (n : Nat) : List (SoeRec × Nat) :=
  ((match s.cfg.safety with | some x => x.soe | none => []).zipIdx).filter fun e => e.1.port == n

/-- The cycle before is judged (R451): one whose frame or frames have not all come back is missed; MISS_MAX in a row are a class S
fault that names the port's mechanisms. -/
def State.judgeCycle (s : State) (n t : Nat) : State :=
  let x := s.port n
  if !x.sent then s
  else
    let x := { x with sent := false, misses := x.misses + 1 }
    let s := s.inc (Reg.fbsMissed n)
    if x.cfgRec.missMax = x.misses then (s.setPort n { x with err := 7 }).mechFault (s.portMechs n) t else s.setPort n x

/-- The service of a port's output watchdog at the start of a cycle, which carries the cycle's number (R332, R334, R447). -/
def State.serveOut (s : State) (n t : Nat) : State :=
  let w := 8 + n
  let s := s.setWd w { s.wd w with frame := (s.port n).k % 65536 }
  if s.outExpects w ∧ !((s.outOpen w).1 ≤ t ∧ t < (s.outOpen w).2) then s.wdViolate w 2 t else s

/-- CYCLE (R447): cycle k of a port starts. -/
def execCycle (port : Nat) (o : CycleIn) (s : State) : Host.Outcome State Fault Refusal :=
  let x := s.port port
  (if s.dev.up ∧ port < 4 ∧ x.cycling ∧ x.bus = 4 then
     let t := x.cfgRec.start x.k + o.late
     let s := s.at t
     let s := (s.judgeCycle port t).serveOut port t
     let x := s.port port
     let apply := x.cfgRec.start x.k + x.cfgRec.shift
     let y := { x with k := x.k + 1, sent := true, sentK := x.k, got := [], stage := [] }
     let s := s.add64 (Reg.fbsCyclesLo port) 1
     let out := (s.portAxes port).map (s.setpoint x.k apply)
     let soe := if o.agree && x.cfgRec.mode == 1 then (s.portSoe port).map fun e => (e.2, s.soeData e.1) else []
     let s := ({ s with fresh := s.fresh + 1 } : State).setPort port { y with out, soeOut := soe }
     if o.agree then s else s.channelFail true true t
   else s).done

/-! ### Input images (R343, R450 to R452, R454, R457) -/

/-- An axis of an input image. -/
def axisOf (axes : List (Nat × Nat × Nat × Quad)) (a : AxisRec) : AxisIn :=
  match axes.find? fun e => e.1 == a.mech && e.2.1 == a.axis with
  | some e => { mech := a.mech, axis := a.axis, status := e.2.2.1 % 65536, pos := (e.2.2.2.setWidth 32).toInt }
  | none => { mech := a.mech, axis := a.axis }

/-- A drive of a ready mechanism has left operation enabled or reports a following error (R451). -/
def AxisIn.faulty (x : AxisIn) : Bool := driveState x.status != 4 || bit x.status 13

/-- The drive faults of a port's new image: mechanisms ready before it and not held. -/
def State.driveFaults (s : State) (n : Nat) (ready : List Nat) (t : Nat) : State :=
  let bad := ready.filter fun m => !s.held m && (s.axesOf m).any fun a => a.port == n && (s.axisIn a).any AxisIn.faulty
  if bad.isEmpty then s
  else (s.setPort n { s.port n with err := 8 }).mechFault bad t

/-- Partitions that wait for their T0 take the newest images as their first (R103, R452). -/
def State.firstImages (s : State) (n t : Nat) : State :=
  (s.cfg.parts.filter fun q => s.running q.num && decide (t < (s.prun q.num).t0) && (s.portsOf q.num).contains n).foldl
    (fun s q => q.mechs.foldl (fun (s : State) m => s.startMech q m true) s) s

/-- A complete input image of a port. -/
def State.takeImage (s : State) (n : Nat) (axes : List AxisIn) (t : Nat) : State :=
  let ready := (s.portMechs n).filter s.mechReady
  let x := s.port n
  let s := s.setPort n { x with sent := false, misses := 0, imgAt := some (x.cfgRec.start x.sentK), imgK := x.sentK, axes }
  (s.driveFaults n ready t).firstImages n t

/-- An FSoE input frame (R342, R343): the session goes on to its next state; in the data state the input SafeData is read, and its
drive-healthy bit at 0 after 1 is an SOE trigger. -/
def State.soeInput (s : State) (c : Nat) (r : SoeRec) (b : List Byte) (t : Nat) : State :=
  let x := s.warden.soe.getD c {}
  let st := min 4 (x.state + 1)
  let y := if st = 4 then { x with state := st, rxAt := t, inp := b, in0 := leAt b 0 1 } else { x with state := st, rxAt := t }
  let s := { s with warden := { s.warden with soe := listSet s.warden.soe c y } }
  if bit x.in0 0 && st == 4 && !(bit y.in0 0) then s.trigger 8 t [r.mech] (some 0) else s

/-- The deviation of distributed clocks in a cycle (R454). -/
def State.dcLook (s : State) (n : Nat) (dc : Word) : State :=
  let x := s.port n
  let good := if dc.toInt.natAbs ≤ 100 then x.dcGood + 1 else 0
  (s.wr (Reg.fbsDcDev n) dc).setPort n { x with dcGood := good, dcLock := x.dcLock || decide (16 ≤ good) }

/-- INPUT_IMAGE (R451, R455): the frame of the last cycle returns before the next cycle starts. -/
def execInputImage (port : Nat) (o : ImageIn) (s : State) : Host.Outcome State Fault Refusal :=
  let x := s.port port
  (if s.dev.up ∧ port < 4 ∧ x.cfgRec.mode = 1 ∧ x.sent ∧ x.cfgRec.start x.sentK ≤ o.t ∧ o.t < x.cfgRec.start x.k then
     let s := s.at o.t
     if !o.crc then s.inc (Reg.fbsRxErr port)
     else if o.wkc < x.img.wkc then s.inc (Reg.fbsWkcErr port)
     else
       let s := (s.dcLook port o.dc).takeImage port ((s.portAxes port).map (axisOf o.axes)) o.t
       (s.portSoe port).foldl (fun s e =>
         match o.soe.find? fun (f : Nat × List Byte) => f.1 == e.2 with
         | some f => s.soeInput e.2 e.1 f.2 o.t
         | none => s) s
   else s).done

/-- FEEDBACK_FRAME (R456, R457): a drive's feedback frame of the last cycle; with the last of them the image is complete. -/
def execFeedbackFrame (port drive : Nat) (o : FeedIn) (s : State) : Host.Outcome State Fault Refusal :=
  let x := s.port port
  (if s.dev.up ∧ port < 4 ∧ x.cfgRec.mode = 2 ∧ x.sent ∧ drive < x.img.drives.length ∧ o.k = x.sentK % 2 ^ 32
      ∧ x.cfgRec.start x.sentK ≤ o.t ∧ o.t < x.cfgRec.start x.k ∧ !x.got.contains drive then
     let s := s.at o.t
     if !o.ok then s.inc (Reg.fbsRxErr port)
     else
       let mine := (s.portAxes port).filter fun a => a.offs.getD 0 0 == drive
       let y := { x with got := drive :: x.got, stage := x.stage ++ mine.map (axisOf o.axes) }
       let s := s.setPort port y
       if y.got.length = x.img.drives.length then s.takeImage port y.stage o.t else s
   else s).done

/-! ### PTP (R11, R458, R459) -/

/-- The PTP port in force; none while the device is grandmaster. -/
def State.ptpPort (s : State) : Option Nat := if s.cfg.ifg.ptpPort ≤ 7 then some s.cfg.ifg.ptpPort else none

/-- The servo replaced; a change of its status bits raises its source. -/
def State.setPtp (s : State) (p : Ptp) : State :=
  let old := s.fif.ptp
  let s := { s with fif := { s.fif with ptp := p } }
  if p.locked = old.locked ∧ p.holdover = old.holdover ∧ p.stepWait = old.stepWait then s else s.raise isrcPTP

/-- Device time stepped by a correction (R11): ports realign to their first cycle after the step and lose DC_LOCK (R447), and PULSE
units resume at their first edge after it (R466). -/
def State.stepTime (s : State) (offset : Int) : State :=
  let t := ((s.time : Int) - offset).toNat / 8 * 8
  let s := { s with time := t }
  let s := (List.range 4).foldl (fun s n =>
    let x := s.port n
    s.setPort n { x with k := x.cfgRec.nextCycle t, sent := false, dcLock := false, dcGood := 0 }) s
  { s with fif := { s.fif with tsus := s.fif.tsus.map fun (u : TsuSt) =>
      match u.rec_ with | some r => { u with k := r.edgeAt t, level := false } | none => u } }

/-- SYNC_MESSAGE (R459): a Sync gives an offset. Above 1 ms device time is stepped while no partition runs frames, and the step
waits under STEP_WAIT while one does; else the rate is corrected. -/
def execSyncMessage (o : PtpIn) (s : State) : Host.Outcome State Fault Refusal :=
  let s := s.at o.t
  (if s.dev.up ∧ s.ptpPort.isSome then
     let p := s.fif.ptp
     let off := o.offset.toInt
     let good := if off.natAbs ≤ 100 then p.good + 1 else 0
     let bad := if 1000 < off.natAbs then p.bad + 1 else 0
     let big := decide (1000000 < off.natAbs)
     let wait := big && s.anyRunning
     let rate := if wait then 200000 else min 200000 (Config.ptpRate off.natAbs s.fresh)
     let p := { p with offset := off, gm := o.gm, good, bad, last := some o.t, holdover := false, stepWait := wait,
                       locked := if 16 ≤ good then true else if 4 ≤ bad then false else p.locked,
                       slew := if big && !wait then p.slew else if 0 < off then -(rate : Int) else (rate : Int) }
     let s := ({ s with fresh := s.fresh + 1 } : State).setPtp p
     if big && !wait then s.stepTime off else s
   else s).done

/-- DEFERRED_TIME_STEP (R459): a step held back is applied once no partition runs frames. -/
def execDeferredTimeStep (t : Nat) (s : State) : Host.Outcome State Fault Refusal :=
  let s := s.at t
  let p := s.fif.ptp
  (if s.dev.up ∧ p.stepWait ∧ !s.anyRunning then (s.setPtp { p with stepWait := false }).stepTime p.offset else s).done

/-- HOLDOVER (R459): no Sync for 3 s. -/
def execHoldover (t : Nat) (s : State) : Host.Outcome State Fault Refusal :=
  let s := s.at t
  let p := s.fif.ptp
  (if s.dev.up ∧ s.ptpPort.isSome ∧ !p.holdover ∧ p.last.getD 0 + 3000000000 ≤ s.time then s.setPtp { p with holdover := true } else s).done

/-- The interval of a time transmitter, ns (R458). -/
def State.syncEvery (s : State) : Nat := 1000000000 / 2 ^ s.cfg.ifg.logSync.natAbs

/-- SYNC_TRANSMIT (R458): a time-transmitter port sends a two-step Sync, 2^LOG_SYNC s after the one before. -/
def execSyncTransmit (port t : Nat) (s : State) : Host.Outcome State Fault Refusal :=
  let s := s.at t
  let due : Bool := match s.fif.sentSync.find? fun (e : Nat × Nat × Nat) => e.1 == port with
    | some e => decide (e.2.2 + s.syncEvery ≤ s.time)
    | none => true
  (if s.dev.up ∧ port < 8 ∧ bit s.cfg.ifg.ptpTx port ∧ due then
     let n := s.fif.ptp.txSeq
     { s with fif := { s.fif with sentSync := (port, n, s.time) :: s.fif.sentSync.filter fun (e : Nat × Nat × Nat) => e.1 != port,
                                  ptp := { s.fif.ptp with txSeq := (n + 1) % 65536 } } }
   else s).done

/-- DELAY_REQ (R458): a Delay_Req at a time-transmitter port is timestamped and answered. -/
def execDelayReq (port t : Nat) (s : State) : Host.Outcome State Fault Refusal :=
  let s := s.at t
  (if s.dev.up ∧ port < 8 ∧ bit s.cfg.ifg.ptpTx port then
     { s with fif := { s.fif with delayResp := (port, s.time) :: s.fif.delayResp.filter fun (e : Nat × Nat) => e.1 != port } }
   else s).done

/-! ### Ingest channels (R460 to R465) -/

/-- The channel of a number. -/
def State.chan? (s : State) (n : Nat) : Option Ingest := s.fif.chans.find? fun (c : Ingest) => c.cfg.chan == n

/-- A channel replaced. -/
def State.setChan (s : State) (c : Ingest) : State :=
  { s with fif := { s.fif with chans := s.fif.chans.map fun (x : Ingest) => if x.cfg.chan = c.cfg.chan then c else x } }

/-- The ring slot of a buffer number, and its address. -/
def ChanCfg.slot (c : ChanCfg) (seq : Nat) : Nat := seq % c.nbuf
/-- The address of a buffer. -/
def ChanCfg.bufAt (c : ChanCfg) (seq : Nat) : Nat := c.ring + c.slot seq * c.bufLen

/-- The frame of partition p that a stamp belongs to (R464): the one before whose window start it lies, none before frame 0's. -/
def State.stampFrame (s : State) (p : Nat) (stamp : Int) : Option Nat :=
  if s.running p && s.period p != 0 then
    let n : Int := (stamp - (s.prun p).t0).fdiv (s.period p) + 1
    if n < 0 then none else some n.toNat
  else none

/-- The channel may not open its next buffer (R465): the last two views list it, its INGEST item is in service, or its task is held. -/
def State.chanHolds (s : State) (c : Ingest) : Bool :=
  let k := c.cfg.slot c.seq
  (c.views.any fun v => v.2.contains k) || (!c.views.isEmpty && c.last == k) || c.service.contains k ||
  (match (s.pcfg c.part).task c.cfg.task with
   | some r => (s.task? r.die c.part r.task).any (·.held)
   | none => false)

/-- A sensor frame or span dropped while the channel holds. -/
def State.chanDrop (s : State) (c : Ingest) (span : Option Nat) : State :=
  ((s.setChan { c with held := true, dropSpan := span }).inc (Reg.snsDrop c.cfg.chan)).raise isrcSENSOR

/-- The next buffer opened. -/
def State.openBuf (s : State) (c : Ingest) (b : IngBuf) : State :=
  let k := c.cfg.slot c.seq
  s.setChan { c with seq := c.seq + 1, held := false, dropSpan := none, open_ := c.open_ ++ [b],
                     done := c.done.filter fun x => c.cfg.slot x.seq != k }

/-- A buffer's 64-byte header (R462). -/
def IngBuf.header (b : IngBuf) (chan t crc : Nat) : List Byte :=
  toLE 4 b.seq ++ toLE 2 chan ++ toLE 2 (1 + 2 * b2n b.late + 4 * b2n b.err + 8 * b2n b.trunc) ++ intLE 8 b.stamp ++ toLE 8 t
  ++ toLE 4 b.len ++ toLE 4 (b.frame.getD 0) ++ toLE 4 crc ++ zeros 28

/-- The ADD and the INGEST item that follow a buffer's header (R465). -/
def State.bufReady (s : State) (c : Ingest) (slot t : Nat) : State :=
  let s := if c.cfg.tref = 0 then s else
    let k := s.compl
    { s.tally opADD { issuer := .ingest c.cfg.chan, part := c.part, tref := c.cfg.tref, operand := 1, cls := clsS, t } with compl := k }
  match (s.pcfg c.part).task c.cfg.task with
  | none => s
  | some r =>
    match (s.sch r.die).group c.part r.grp, s.task? r.die c.part r.task with
    | some g, some x => s.place r.die x [{ taskItem c.part r g.cls x.seq with frame := s.frameAt c.part s.time, epoch := s.fld.epoch, arg := slot }]
    | _, _ => s

/-- A buffer completes at t (R463 to R465). -/
def State.finishBuf (s : State) (c : Ingest) (b : IngBuf) (err : Bool) (t : Nat) : State :=
  let t := tick t
  let stamp : Int := if c.cfg.kind = 0 ∧ c.cfg.stamp = 0 then t else b.stamp
  let frame := s.stampFrame c.part stamp
  let late := match frame with | some n => decide (s.phaseAt c.part n (s.pcfg c.part).frame.netStart ≤ t) | none => false
  let b := { b with stamp, frame, late, err := b.err || err, done := some t }
  let k := c.cfg.slot b.seq
  let s := s.setChan { c with open_ := c.open_.filter fun x => x.seq != b.seq, done := c.done ++ [b], lastDone := k,
                              lateNow := c.lateNow + b2n late }
  let s := s.ingWrite c (c.cfg.bufAt b.seq) (b.header c.cfg.chan t (crc32c (s.peek (c.cfg.bufAt b.seq + 64) b.len)).toNat)
  let s := if b.err || b.trunc then s.inc (Reg.snsErr c.cfg.chan) else s
  let s := if late then (s.inc (Reg.snsLate c.cfg.chan)).raise isrcSENSOR else s
  s.bufReady c k t

/-- A receiver that receives (SNS_RX_STATUS): its lanes, and the lane rate that it measures. -/
def State.rxUp (s : State) (r : Nat) : State :=
  let (lanes, mx) := s.cfg.ifg.csi.getD r (0, 0)
  let x := s.fif.rx.getD r (0, 0, false)
  if x.2.2 then s
  else { s with fresh := s.fresh + 1, fif := { s.fif with rx := listSet s.fif.rx r (80 + Config.csiRate s.fresh % (mx - 79), lanes, true) } }

/-- The stamp of a CSI-2 buffer at its Frame Start (R463): of its unit's last edge; one stamped at completion has it later. -/
def State.csiStamp (s : State) (c : Ingest) : Int :=
  if c.cfg.stamp = 0 then 0
  else
    match (s.fif.tsus.getD (c.cfg.stamp - 1) {}).lastEdge with
    | some e => e + c.cfg.lat
    | none => tick (Config.noEdge s.fresh) + c.cfg.lat

/-- FRAME_START (R463): a CSI-2 Frame Start. -/
def execFrameStart (chan t : Nat) (s : State) : Host.Outcome State Fault Refusal :=
  let s := s.at t
  (match s.chan? chan with
   | none => s
   | some c =>
     if !s.dev.up ∨ c.cfg.kind ≠ 0 then s else
     let s := s.rxUp c.cfg.src
     let s := match c.open_ with | b :: _ => s.finishBuf c b true t | [] => s
     match s.chan? chan with
     | none => s
     | some c =>
       if s.chanHolds c then s.chanDrop c none
       else ({ s with fresh := s.fresh + 1 } : State).openBuf c { seq := c.seq, stamp := s.csiStamp c, opened := t }).done

/-- FRAME_END (R463): a CSI-2 Frame End. -/
def execFrameEnd (chan : Nat) (ok : Bool) (t : Nat) (s : State) : Host.Outcome State Fault Refusal :=
  let s := s.at t
  (match s.chan? chan with
   | none => s
   | some c =>
     if !s.dev.up ∨ c.cfg.kind ≠ 0 then s else
     match c.open_ with
     | b :: _ => s.finishBuf c b (!ok) t
     | [] => s).done

/-- An open buffer of a channel replaced. -/
def State.setBuf (s : State) (c : Ingest) (b : IngBuf) : State :=
  s.setChan { c with open_ := c.open_.map fun x => if x.seq = b.seq then b else x }

/-- A line of a sensor frame (R460, R462): stored at its stride, cut to it; one in error is dropped. -/
def State.csiLine (s : State) (c : Ingest) (o : PacketIn) : State :=
  let s := if o.ok then s.rxUp c.cfg.src else s.inc (Reg.snsCsiErr c.cfg.src)
  match c.open_ with
  | [] => s
  | b :: _ =>
    if !o.ok then s.setBuf c { b with err := true, lines := b.lines + 1 }
    else
      let at_ := b.lines * c.cfg.stride
      let room := min c.cfg.stride (c.cfg.bufLen - 64 - at_)
      let d := o.data.take room
      let s := if d.isEmpty then s else s.ingWrite c (c.cfg.bufAt b.seq + 64 + at_) d
      s.setBuf c { b with lines := b.lines + 1, trunc := b.trunc || decide (room < o.data.length),
                          len := if d.isEmpty then b.len else max b.len (at_ + d.length) }

/-- A frame is one that the port accepts and the channel takes (R461, R462). -/
def ChanCfg.takes (c : ChanCfg) (mac : Nat) (d : List Byte) : Bool :=
  let be (o : Nat) : Nat := leAt d (o + 1) 1 + 256 * leAt d o 1
  let ip := 14 + 4 * (leAt d 14 1 % 16)
  decide (60 ≤ d.length) && decide (d.length ≤ 9212) && (slice d 0 6 == toLE 6 mac || slice d 0 6 == toLE 6 0x000000191B01)
  && be 12 == c.etype && (c.etype != 0x0800 || (leAt d 23 1 == 17 && be (ip + 2) == c.udp))

/-- A record of a packet appended to a span's buffer (R462); one that does not fit is left out and flags TRUNC. -/
def State.ethRecord (s : State) (c : Ingest) (b : IngBuf) (stamp : Int) (d : List Byte) : State :=
  let r := intLE 8 stamp ++ toLE 2 d.length ++ zeros 6 ++ d
  let r := r ++ zeros (alignUp r.length 64 - r.length)
  if c.cfg.bufLen < 64 + b.len + r.length then s.setBuf c { b with trunc := true }
  else (s.ingWrite c (c.cfg.bufAt b.seq + 64 + b.len) r).setBuf c { b with len := b.len + r.length }

/-- A packet of span j (R463): into the open buffer of its span, into the next buffer, or dropped as late. -/
def State.ethPacket (s : State) (c : Ingest) (j : Nat) (stamp : Int) (d : List Byte) (t : Nat) : State :=
  if c.dropSpan = some j then s
  else
    match c.open_.find? fun b => b.span == j with
    | some b => s.ethRecord c b stamp d
    | none =>
      if (c.open_ ++ c.done).any fun b => decide (j ≤ b.span) then (s.inc (Reg.snsLate c.cfg.chan)).raise isrcSENSOR
      else if s.chanHolds c then s.chanDrop c (some j)
      else
        let b : IngBuf := { seq := c.seq, stamp := j * (c.cfg.span * 1000), opened := t, span := j }
        let s := s.openBuf c b
        match s.chan? c.cfg.chan with
        | some c => s.ethRecord c b stamp d
        | none => s

/-- PACKET (R460 to R463). -/
def execPacket (o : PacketIn) (s : State) : Host.Outcome State Fault Refusal :=
  let s := s.at o.t
  (match s.chan? o.chan with
   | none => s
   | some c =>
     if !s.dev.up then s
     else if c.cfg.kind = 0 then s.csiLine c o
     else if !o.ok ∨ !s.fif.ethUp.getD c.cfg.src false ∨ !c.cfg.takes (s.cfg.ifg.eth.getD c.cfg.src {}).mac o.data ∨ c.cfg.span = 0 then s
     else
       let stamp : Int := tick o.stamp - c.cfg.lat
       s.ethPacket c (stamp.fdiv (c.cfg.span * 1000)).toNat stamp o.data o.t).done

/-- SPAN_COMPLETE (R463): the oldest open buffer of an Ethernet channel completes GRACE_US after its span ends. -/
def execSpanComplete (chan t : Nat) (s : State) : Host.Outcome State Fault Refusal :=
  (match s.chan? chan with
   | none => s
   | some c =>
     match c.open_ with
     | b :: _ =>
       let e := ((b.span + 1) * c.cfg.span + c.cfg.grace) * 1000
       if s.dev.up ∧ c.cfg.kind = 1 ∧ e ≤ t then (s.at t).finishBuf c b false e else s
     | [] => s).done

/-! ### Timestamp and trigger units (R466) -/

/-- A unit replaced. -/
def State.setTsu (s : State) (u : Nat) (x : TsuSt) : State := { s with fif := { s.fif with tsus := listSet s.fif.tsus u x } }

/-- CAPTURE (R466): an edge on TSU_IO that EDGE selects is stamped into the unit's FIFO; one that finds it full is counted. -/
def execCapture (unit : Nat) (rising : Bool) (t : Nat) (s : State) : Host.Outcome State Fault Refusal :=
  let s := s.at t
  let x := s.fif.tsus.getD unit {}
  (match x.rec_ with
   | none => s
   | some r =>
     if s.dev.up ∧ r.mode = 0 ∧ bit r.edge (if rising then 0 else 1) then
       if x.fifo.length < 16 then s.setTsu unit { x with fifo := x.fifo ++ [s.time], lastEdge := some s.time }
       else (s.wrBits (Reg.snsTsuStatus unit) 31 16 (min 65535 (bits (s.rd (Reg.snsTsuStatus unit)).toNat 31 16 + 1))).setTsu unit
         { x with lastEdge := some s.time }
     else s).done

/-- PULSE (R466): the next edge of a PULSE unit: rising at START_NS + k × PERIOD_NS, falling WIDTH_NS later. -/
def execPulse (unit : Nat) (s : State) : Host.Outcome State Fault Refusal :=
  let x := s.fif.tsus.getD unit {}
  (match x.rec_ with
   | none => s
   | some r =>
     if s.dev.up ∧ r.mode = 1 then
       let e := r.start + x.k * r.period
       if x.level then (s.at (e + r.width)).setTsu unit { x with level := false, k := x.k + 1 }
       else (s.at e).setTsu unit { x with level := true, lastEdge := some (tick e) }
     else s).done

/-- PPS (R466): a rising edge at a whole second of device time. -/
def execPps (unit t : Nat) (s : State) : Host.Outcome State Fault Refusal :=
  let x := s.fif.tsus.getD unit {}
  (match x.rec_ with
   | none => s
   | some r => if s.dev.up ∧ r.mode = 2 ∧ t % 1000000000 = 0 then (s.at t).setTsu unit { x with lastEdge := some t } else s).done

/-- The _HI value that a read of a _LO register latches for the reading function (R8). -/
def State.latchHi (s : State) (fn off : Nat) (v : Word) : State := { s with hi := s.hi.set none (16 * off + fn) (some v) }

/-- A read of SNS_TSU_CAP_LO of unit u by function fn: the oldest capture, removed (R466). -/
def State.capRead (s : State) (fn u : Nat) : State :=
  let x := s.fif.tsus.getD u {}
  let v := x.fifo.headD 0
  ((s.setTsu u { x with fifo := x.fifo.drop 1 }).latchHi fn (Reg.snsTsuCapHi u) (BitVec.ofNat 32 (v / 2 ^ 32))).readEnd (BitVec.ofNat 32 v)

/-- TSU_CAP_READ (R466): function fn reads SNS_TSU_CAP_LO. -/
def execTsuCapRead (fn unit t : Nat) (s : State) : Host.Outcome State Fault Refusal :=
  let s := s.at t
  (if !s.pcieUp ∨ 8 ≤ unit then s
   else if s.unsupported { fn, off := Reg.snsTsuCapLo unit } false then s.urEnd
   else if !s.regThere (Reg.snsTsuCapLo unit) then s.readEnd 0#32
   else s.capRead fn unit).done

end Sys2Proof.Machine
end

