-- ==== Sys2Proof/Machine/LinkFam.lean ====
section
/-! DEFINITION. The Crindadon package links (22_crindadon_link.md): flits, training, loss, requests from other packages and their
time-outs, the link registers; and the rails that take ports down (R494). -/

namespace Sys2Proof.Machine

/-! ### Ports (R473, R479, R485 to R487) -/

/-- A port replaced; a change of its state raises its source (R487). -/
def State.setCport (s : State) (n : Nat) (x : CPort) : State :=
  let old := (s.cport n).st
  if x.st = old then s.putCport n x else (s.putCport n x).raise (isrcLINK + n)

/-- A port goes down (R487): counted, recorded where it carried traffic, its credits gone, and the routes rebuilt without it. -/
def State.downPort (s : State) (n : Nat) : State :=
  let x := s.cport n
  if x.st = .down ∨ x.st = .held then s
  else
    let s := (s.setCport n { x with st := .down, carries := false, replays := [], rxSeq := 0, credits := [] }).inc (Reg.cdlDownCount n)
    let s := if x.carries then s.log { kind := ekLINK_DEGR, act := actOf ekLINK_DEGR, time := s.time, aux := n } else s
    ({ s with links := s.links.reroute s.dev.pkgSel } : State).relay

/-- PORT_DOWN (R487). -/
def execPortDown (port t : Nat) (s : State) : Host.Outcome State Fault Refusal :=
  let s := s.at t
  (if s.dev.up ∧ port < 4 then s.downPort port else s).done

/-- FLIT (R472, R473): a flit received: accepted in order, corrected, or discarded with a replay request; 16 replays within 1 ms retrain
the port. Its HEADER returns credits (R480), and it brings the results of SIGNALs sent to other packages. -/
def execFlit (port : Nat) (o : FlitIn) (t : Nat) (s : State) : Host.Outcome State Fault Refusal :=
  let s := s.at t
  let x := s.cport port
  (if !s.dev.up ∨ 4 ≤ port ∨ !x.live then s
   else if !o.good then
     let s := s.inc (Reg.cdlRetry port)
     let l := s.time :: x.replays.filter fun r => decide (s.time < r + 1000000)
     if 16 ≤ l.length then s.setCport port { x with st := .training, replays := [] } else s.setCport port { x with replays := l }
   else if o.seq ≠ x.rxSeq then s
   else
     let s := if o.corrected then s.inc (Reg.cdlCorrected port) else s
     let s := if o.idle then s else s.add64 (Reg.cdlRxFlitsLo port) 1
     ((s.setCport port { x.grant o.credits with rxSeq := x.rxSeq + 1 }).reqDrop fun r =>
       r.core.isNone && o.acks.contains r.id && r.inTime s.time).relay).done

/-- A partner's number is this package's own, or that of another package in the graph (R486). -/
def State.dupPeer (s : State) (port : Nat) (o : TrainIn) : Bool :=
  o.pkg == s.dev.pkgSel || s.links.ports.zipIdx.any fun (e : CPort × Nat) => e.2 != port && e.1.live && e.1.peerPkg == o.pkg && e.1.peerUid != o.uid

/-- LINK_UP (R477, R479, R480, R485, R486): training ends. A retrained port goes on carrying, its credits as they were; a new one has the
credits of every pool of its partner, and carries once no partition is RUNNING. -/
def execLinkUp (port : Nat) (o : TrainIn) (t : Nat) (s : State) : Host.Outcome State Fault Refusal :=
  let s := s.at t
  let x := s.cport port
  (if s.dev.up ∧ port < 4 ∧ o.pkg < 8 ∧ s.readyBit (rbLINK + port) ∧ bit (s.rd (Reg.cdlCtrl port)).toNat 0 ∧ (x.st = .down ∨ x.st = .training) then
     if s.dupPeer port o then s.setCport port { x with st := .held, dup := true, carries := false }
     else
       let credits := if x.st = .training then x.credits else CPool.all.map fun l => (l, l.size o.credit)
       let s := s.setCport port { x with st := if o.full then .up else .degraded, peerPkg := o.pkg, peerPort := o.port % 4, peerUid := o.uid, credits }
       let es := o.edges.filter fun e => e.1 != s.dev.pkgSel && e.2 != s.dev.pkgSel && !s.links.edges.contains e
       ({ s with links := { s.links with edges := s.links.edges ++ es } } : State).relay
   else s).done

/-! ### Requests from other packages (R481, R483) -/

/-- The answer to a request from another package goes back to it on VC3 (R474), under the tag that the port gave the request. -/
def State.remoteEnd (s : State) (o : RemoteIn) (c : Compl) : State :=
  ({ s with compl := some c } : State).post
    { dest := o.pkg, src := s.dev.pkgSel, unit := 3 + 0x80 + o.pkg, part := o.part, cls := o.cls, resp := true, bytes := c.data.length }

/-- The origin tag that a port gives a request from package r (R348, R481). -/
def remoteTag (o : RemoteIn) : Nat := originTag o.cls 0 o.part 3 (0x80 + o.pkg)

/-- A memory request from another package is admitted (R481): HBM units and scratchpads of the partition that is opened to it. -/
def State.remoteOk (s : State) (o : RemoteIn) (write : Bool) (n : Nat) : Bool :=
  let k := fwTarget o.addr
  (k == 0 || k == 1) && decide (n ≠ 0) && s.memReady o.addr && s.fwOk (.part o.part o.cls 0) write o.addr n

/-- A request refused: the refusal returns to its issuer. -/
def State.remoteRefuse (s : State) (o : RemoteIn) (write : Bool) : State :=
  (s.refuse (remoteTag o) o.addr write).remoteEnd o { ur := true }

/-- A tally operation from another package: ADD and READ alone (R274, R481). -/
def State.remoteTally (s : State) (o : RemoteIn) : State :=
  if o.op = opREAD ∨ o.op = opADD then
    let s := { s with compl := none }.tally o.op { issuer := .remote o.pkg, part := o.part, tref := o.addr, operand := o.operand, cls := o.cls, t := o.t }
    s.remoteEnd o (s.compl.getD {})
  else (s.tallyRefuse (.remote o.pkg) o.part o.cls (memDie o.addr) o.addr).remoteEnd o { ur := true }

/-- A transaction bound for another package (R478): it takes a buffer of its transit class, or of VC3 for a response, in the port it came
on, and goes on against a credit of the next port. Its sender held a credit, so the buffer is free (R480). -/
def State.transit (s : State) (o : RemoteIn) (d : Nat) : State :=
  let x := s.cport o.port
  let l : CPool := if o.resp then .resp else .transit o.cls o.hops
  if 1 ≤ o.hops ∧ o.hops ≤ 6 ∧ x.room l ∧ s.reaches d then
    (s.putCport o.port { x with inUse := l :: x.inUse }).post
      { dest := d, src := o.pkg, unit := o.unit, part := o.part, cls := o.cls, resp := o.resp, hops := o.hops,
        bytes := if o.write || o.resp then o.data.length else 0, at_ := some (o.port, l) }
  else s

/-- REMOTE_REQUEST (R478, R481): a transaction of another package that arrives on a port, for this package or for one beyond it. -/
def execRemoteRequest (o : RemoteIn) (s : State) : Host.Outcome State Fault Refusal :=
  let s := s.at o.t
  let x := s.cport o.port
  (if !s.dev.up ∨ 4 ≤ o.port ∨ !x.live ∨ !x.carries ∨ 8 ≤ o.pkg ∨ o.pkg = s.dev.pkgSel ∨ 8 ≤ o.part ∨ 3 ≤ o.cls then s
   else if o.dest.any fun d => d != s.dev.pkgSel then s.transit o (o.dest.getD 0)
   else if o.resp then s
   else if !bit (s.rd (Reg.cdlOpen o.part)).toNat o.pkg then s.remoteRefuse o (o.write || o.op == opADD)
   else if o.op ≠ 0 then
     if (fwTarget o.addr = 0 ∨ fwTarget o.addr = 1) ∧ s.memReady o.addr then s.remoteTally o else s.remoteRefuse o (o.op == opADD)
   else if o.write then
     if s.remoteOk o true o.data.length then
       let s := (s.touch o.addr o.data.length).defBuf o.addr o.data.length
       let s := if o.bad.isEmpty ∨ o.addr % 64 ≠ 0 ∨ o.data.length % 64 ≠ 0 then s.store o.addr o.data else s.moveFar o.addr o.data o.bad
       let s := s.blockChecks (remoteTag o) o.cls farBase o.addr o.data.length o.retry o.fail
       s.remoteEnd o { poison := blockFailed o.addr o.data.length o.fail }
     else s.remoteRefuse o true
   else if s.remoteOk o false o.len then
     let s := s.touch o.addr o.len
     s.remoteEnd o { data := s.peek o.addr o.len, poison := s.poisoned o.addr o.len }
   else s.remoteRefuse o false).done

/-- The item whose request to another package fails: a failed read returns poisoned data (R483). -/
def State.farFail (s : State) (k : Nat) : State :=
  let m := (s.core k).dma
  match m.item with
  | none => s
  | some i =>
    if !m.far then s
    else if i.kind = tkHOST then s.hostFarFail i k
    else
      let d := decDma (s.peek m.desc 32)
      let dst := s.near d.dst
      let s := if d.op = dmCOPY ∧ (s.farPkg (s.near d.src)).isSome ∧ (s.farPkg dst).isNone then s.spoil dst d.len else s
      s.farEnd k

/-- REMOTE_TIMEOUT (R483): request `id` has had no response within 100 µs. -/
def execRemoteTimeout (id t : Nat) (s : State) : Host.Outcome State Fault Refusal :=
  (match s.links.reqs.find? fun (r : CReq) => r.id == id with
   | none => s
   | some r =>
     if r.t.any fun u => decide (u + 100000 ≤ t) then
       let s := s.at t
       let s := (s.reqDrop fun x => x.id == id).relay.farLost
       match r.core, r.sig with
       | some k, _ => s.farFail k
       | none, some (d, cls, a) => s.tallyFail (.array d) r.part cls a
       | none, none => s
     else s).done

/-! ### Link registers (R482, R487) -/

/-- CDL_OPEN of partition p written: only while it is not RUNNING (R482). -/
def State.openWrite (s : State) (p v : Nat) : State :=
  if (s.prun p).st = .running then s else s.wr (Reg.cdlOpen p) (BitVec.ofNat 32 (v % 256))

/-- CDL_OPEN (R482). -/
def execCdlOpen (fn p v t : Nat) (s : State) : Host.Outcome State Fault Refusal :=
  (if p < 8 then s.onWrite { fn, off := Reg.cdlOpen p } t fun s => s.openWrite p v else s).done

/-- CDL_CTRL of a port written: clearing EN takes the port down (R487). -/
def State.ctrlWrite (s : State) (n v : Nat) : State :=
  let s := s.wr (Reg.cdlCtrl n) (BitVec.ofNat 32 (v % 2))
  if bit v 0 then s else s.downPort n

/-- CDL_CTRL (R487). -/
def execCdlCtrl (fn port v t : Nat) (s : State) : Host.Outcome State Fault Refusal :=
  (if port < 4 then s.onWrite { fn, off := Reg.cdlCtrl port } t fun s => s.ctrlWrite port v else s).done

/-! ### Rails (R494) -/

/-- The PHY rails outside their window: every port goes down; the output watchdogs then miss their services. -/
def State.phyDown (s : State) : State :=
  let s := (List.range 4).foldl (fun s n => s.setPort n { s.port n with link := false, bus := 0, err := 1, dcLock := false }) s
  let s := (List.range 4).foldl State.downPort s
  ({ s with fif := { s.fif with rx := List.replicate 8 (0, 0, false), ethUp := List.replicate 4 false } } : State).wr Reg.hifLink 0#32

/-- RAIL_FAULT (R494): rail 0 VIN_PD, 1 the HBM rails, 2 VDD_SER, 3 VDD_SER_H. While POR_N is low no fault is reported, but the HBM rails
out of tolerance still lose what the stacks hold (R511). -/
def execRailFault (rail t : Nat) (s : State) : Host.Outcome State Fault Refusal :=
  let s := s.at t
  (if 4 ≤ rail then s
   else if !s.dev.up then (if rail = 1 then { s with dev := { s.dev with hbmLost := [true, true] } } else s)
   else if 2 ≤ rail then s.phyDown
   else
     let s := if rail = 1 then { s with dev := { s.dev with hbmLost := [true, true] } } else s
     s.dieFault t).done

end Sys2Proof.Machine
end

