-- ==== Sys2Proof/Machine/Tally.lean ====
section
/-! DEFINITION. The tally operations, their time-outs and polls, the host signal register and lending (11_synchronisation.md). -/

namespace Sys2Proof.Machine

/-- A tally operation comes about: its issuer, its partition and an engine that is not stalled in a wait already; the planner
dies are out of reset. -/
def State.tallyEvent (s : State) (op : Nat) (r : TallyIn) : State :=
  let s := s.at r.t
  if s.dev.up ∧ s.dev.warm.isNone ∧ !s.stalled r.issuer then s.tally op r else s

/-- READ (R265). -/
def execRead (r : TallyIn) (s : State) : Host.Outcome State Fault Refusal := (s.tallyEvent opREAD r).done

/-- ADD (R265, R270). -/
def execAdd (r : TallyIn) (s : State) : Host.Outcome State Fault Refusal := (s.tallyEvent opADD r).done

/-- SUB (R265). -/
def execSub (r : TallyIn) (s : State) : Host.Outcome State Fault Refusal := (s.tallyEvent opSUB r).done

/-- TAKE (R265). -/
def execTake (r : TallyIn) (s : State) : Host.Outcome State Fault Refusal := (s.tallyEvent opTAKE r).done

/-- WAIT_GE (R265). -/
def execWaitGe (r : TallyIn) (s : State) : Host.Outcome State Fault Refusal := (s.tallyEvent opWAITGE r).done

/-- WAIT_EQ (R265). -/
def execWaitEq (r : TallyIn) (s : State) : Host.Outcome State Fault Refusal := (s.tallyEvent opWAITEQ r).done

/-- ARRIVE (R276). -/
def execArrive (r : TallyIn) (s : State) : Host.Outcome State Fault Refusal := (s.tallyEvent opARRIVE r).done

/-- WAIT_MAX_US of a wait's partition, ns; none without a limit (R269). -/
def State.waitLimit (s : State) (w : Wait) : Option Nat :=
  let m := (s.pcfg w.part).sync.waitMax
  if m = 0 then none else some (m * 1000)

/-- WAIT_TIMEOUT (R268, R269): the n-th registered wait has lasted WAIT_MAX_US. -/
def execWaitTimeout (n t : Nat) (s : State) : Host.Outcome State Fault Refusal :=
  let s := s.at t
  (match s.sync.waits[n]? with
   | none => s
   | some w =>
     match s.waitLimit w with
     | none => s
     | some m =>
       if w.since + m ≤ s.time then
         let s := s.inc (Reg.synTimeout w.word.die)
         let s := if w.part < 8 then s.raiseP w.part 6 else s
         s.endWait w true
       else s).done

/-- POLL (R273): a polled wait reads its word. -/
def execPoll (n t : Nat) (s : State) : Host.Outcome State Fault Refusal :=
  let s := s.at t
  (match s.sync.waits[n]? with
   | none => s
   | some w =>
     if !w.polled then s else
     let s := s.touch w.word.addr
     match s.tryWait w with
     | none => s
     | some s' => if w.op = opTAKE then s'.applied w.word else s').done

/-- SYN_HOST_ADD of a partition written (R272): a non-zero write issues an ADD of AMOUNT to the host signal reference. A virtual
function's, where the reference names a word outside its partition, stores nothing and is refused (R268, R507). -/
def State.hostAdd (s : State) (a : RegAcc) (v : Nat) : State :=
  let d := (a.off - 0x200000) / 0x400000 % 2
  let p := ((a.off - 0x200000) % 0x400000 - 0x20A040) / 0x10
  let r : TallyIn := { issuer := .hostReg p, part := p, tref := s.rd64 (Reg.synHostRefLo d p), operand := v % 2 ^ 32,
                       cls := if a.fn = 0 then clsN else clsQ, t := s.time }
  let u := if a.fn ≠ 0 ∧ v % 2 ^ 32 ≠ 0 ∧ (s.resolve p r.tref).isNone then s else s.wr a.off (BitVec.ofNat 32 v)
  if v % 2 ^ 32 = 0 ∨ s.dev.warm.isSome then u
  else { u.tally opADD r with compl := s.compl }

/-- SYN_HOST_REF_HI of a partition written: a virtual function's reference to a word outside its partition changes nothing and is
refused (R268, R507). -/
def State.hostRef (s : State) (a : RegAcc) (v : Nat) (f : State → State) : State :=
  let p := ((a.off - 0x200000) % 0x400000 - 0x20A044) / 0x10
  let l := match s.lo.get none (a.off - 4) with | some l => l | none => s.rd (a.off - 4)
  let tref := l.toNat + 2 ^ 32 * (v % 2 ^ 32)
  if a.fn = 0 ∨ (s.resolve p tref).isSome then f s
  else
    let s := { s with lo := s.lo.set none (a.off - 4) none }
    let s := match s.memRef p tref with | some w => s.wordRefused (.hostReg p) p clsQ opADD w | none => s
    s.tallyRefuse (.hostReg p) p clsQ ((a.off - 0x200000) / 0x400000 % 2) 0

/-- SYN_HOST_ADD (R272): a non-zero write issues an ADD of AMOUNT to the host signal reference of the register's partition. -/
def execSynHostAdd (a : RegAcc) (v t : Nat) (s : State) : Host.Outcome State Fault Refusal :=
  (if a.bar = Bar.bar0 ∧ Reg.amongDie a.off (Reg.synHostAdd 0 0) 8 0x10 then s.onWrite a t fun s => s.hostAdd a v else s).done


/-- LEND (R278, R414): a core that has been waiting for LEND_NS is reported to the Kettle, and the difference between its draw
and its idle draw goes on loan. -/
def execLend (core t : Nat) (s : State) : Host.Outcome State Fault Refusal :=
  let s := s.at t
  (match s.sync.waits.find? fun (w : Wait) => w.issuer == Issuer.dma core, s.ktl.waitAt.find? (fun (e : Nat × Nat) => e.1 == core) with
   | none, _ => s
   | _, none => s
   | some w, some e =>
     let lend := (s.pcfg w.part).sync.lend
     if lend ≠ 0 ∧ e.2 + lend ≤ s.time ∧ w.cls ≠ clsS ∧ !w.lent ∧ !s.ktl.sec.noLend then
       let s := { s with sync := { s.sync with waits := s.sync.waits.map fun x => if x = w then { x with lent := true } else x } }
       let st := (s.ktl.clks.getD (core / 8) {}).step
       let s := { s with ktl := { s.ktl with lent := (core, fullLoad core * (stepF st - stepIdle st) / 100) :: s.ktl.lent } }
       s.inc (Reg.synLendCount (core / 64))
     else s).done

end Sys2Proof.Machine
end

