-- ==== Sys2Proof/Machine/View.lean ====
section
/-! DEFINITION. What a register reads (the register tables of every block): registers that mirror the structured state of the
package are computed here; every other register reads what `State.regs` holds. A function that is not ready, and a core or cluster
that the fuses disable, read their reset values. -/

namespace Sys2Proof.Machine

/-- A register word from its fields: most significant bit, least significant bit, value. -/
def pk (l : List (Nat × Nat × Nat)) : Word :=
  BitVec.ofNat 32 ((l.map fun e => e.2.2 % 2 ^ (e.1 + 1 - e.2.1) * 2 ^ e.2.1).sum)

/-- A 32-bit number as a register word. -/
def wd32 (n : Nat) : Word := BitVec.ofNat 32 n

/-- The upper half of a 64-bit number. -/
def hiOf (n : Nat) : Word := BitVec.ofNat 32 (n / 2 ^ 32)

/-- The index of an offset among `n` registers `st` apart from `base` on. -/
def idx (off base n st : Nat) : Option Nat := if Reg.among off base n st then some ((off - base) / st) else none

/-- The half of a 64-bit register pair at `lo` that an offset names. -/
def half (off lo n : Nat) : Word := if off = lo then wd32 n else hiOf n

/-- The bits of a list of flags, first at bit 0. -/
def flagBits (l : List Bool) : Nat := (l.zipIdx.map fun e => b2n e.1 * 2 ^ e.2).sum

/-- One register of the first set of readers that answers an offset. -/
def firstOf (l : List (Option Word)) : Option Word := l.findSome? id

/-! ### The global block (01, 13, 15 and 19) -/

/-- GLB_TP_STATUS (15_safety_evidence.md). -/
def State.viewTp (s : State) : Word :=
  match s.window with
  | none => 7#32
  | some (i, w) => pk [(31, 31, 1), (19, 16, i), (4, 4, b2n w.safety), (2, 0, w.admits)]

/-- GLB_ST_STATUS of die d. -/
def State.viewSt (s : State) (d : Nat) : Word :=
  let r := s.rot d
  let left := match s.master with
    | some p => if s.running p && s.period p != 0 then cdiv (s.dtiEnd d - s.time) (s.period p) else 0
    | none => 0
  let (u, k) := match r.run with | some x => (x.unit, x.kind) | none => (r.unit, r.kind)
  pk [(31, 31, b2n r.run.isSome), (30, 30, b2n (!r.pend.isEmpty && (s.rotForced d s.time || (s.offered d).head?.any fun e => r.late.contains e.1))), (23, 16, u), (10, 8, k), (7, 0, min 255 left)]

/-- The visit of a unit position of die d is pending. -/
def State.visit (s : State) (d u : Nat) : Bool := (s.rot d).pend.any (·.1 == u)

/-- A core-index bit set: bit b for core index 32 × n + b. -/
def coreBits (n : Nat) (p : Nat → Bool) : Word := wd32 (flagBits ((List.range 32).map fun b => p (32 * n + b)))

/-- The solver, builder and array bits of GLB_ST_UNITS and ERR_RETIRED_UNIT. -/
def unitBits (p : Nat → Bool) : Word :=
  pk [(24, 24, b2n (p 88)), (23, 16, flagBits ((List.range 8).map fun c => p (80 + c))), (15, 0, flagBits ((List.range 16).map fun i => p (64 + i)))]

/-- GLB_LC_STATE. -/
def State.viewLc (s : State) : Word :=
  pk [(11, 11, b2n s.dev.lcNext.isSome), (10, 8, (s.dev.lcNext.map LcState.code).getD 0), (2, 0, s.fuses.lc.code)]

/-- GLB_KEY_SLOTS. -/
def Fuses.slots (f : Fuses) : Word :=
  let rev (l : List KeySlot) : Nat := flagBits (l.map (·.revoked))
  let prog (l : List KeySlot) : Nat := flagBits (l.map (·.digest.isSome))
  pk [(15, 12, rev f.safety), (11, 8, prog f.safety), (7, 4, rev f.owner), (3, 0, prog f.owner)]

/-- Partition p runs frames (R38): it runs, and the window of the frame after its last one has not closed (R65). -/
def State.runsFrames (s : State) (p : Nat) : Bool :=
  s.running p && (match (s.prun p).lastFrame with | none => true | some l => decide (s.time < s.winStart p (l + 2)))

/-- GLB_FRAME_HEAD (R38): it changes in the tick of the window boundary, whenever the schedulers come to open the window. -/
def State.head (s : State) (p : Nat) : Nat :=
  let n := if s.time < (s.prun p).t0 then 0 else s.frameAt p s.time
  match (s.prun p).lastFrame with | none => n | some l => min n (l + 1)

/-- The computed registers of the global block. -/
def State.viewGlb (s : State) (off : Nat) : Option Word :=
  if off = Reg.glbDeviceId then some (wd32 s.fuses.deviceId)
  else if off = Reg.glbPkgId then some (wd32 s.dev.pkgSel)
  else if off = Reg.glbTpStatus then some s.viewTp
  else if off = Reg.glbResetCause then
    some (pk [(31, 16, s.dev.warmCount), (11, 8, s.dev.cmdResult), (7, 4, s.dev.warmCause), (3, 0, s.dev.coldCause)])
  else if off = Reg.glbLcState then some s.viewLc
  else if off = Reg.glbLcNonceLo ∨ off = Reg.glbLcNonceHi then some (half off Reg.glbLcNonceLo s.dev.nonce)
  else if off = Reg.glbLcStatus then some (wd32 s.dev.lcStatus)
  else if off = Reg.glbKeySlots then some s.fuses.slots
  else if off = Reg.glbUidLo ∨ off = Reg.glbUidHi then some (half off Reg.glbUidLo s.fuses.uid)
  else firstOf [
    (idx off (Reg.glbCoreEn 0) 4 4).map fun n => wd32 (s.fuses.coreEn.getD n 0),
    (idx off (Reg.glbFrameHead 0) 8 4).map fun p => wd32 (if s.runsFrames p then s.head p else 0),
    (idx off (Reg.glbFrameCommit 0) 8 4).map fun p => wd32 (if s.runsFrames p then (s.prun p).commit.getD 0 else 0),
    (idx off (Reg.glbCommitCrc 0) 8 4).map fun p => (s.prun p).crc,
    (idx off (Reg.glbRunEpoch 0) 8 4).map fun p => match (s.prun p).runEpoch with | some e => pk [(16, 16, 1), (15, 0, e)] | none => 0#32,
    (idx off (Reg.glbStStatus 0) 2 4).map s.viewSt,
    (idx off (Reg.glbStUnits 0) 2 4).map fun d => unitBits (s.visit d),
    (idx off (Reg.glbStPending 0) 4 4).map fun n => coreBits n fun k => s.visit (k / 64) (k % 64),
    (idx off (Reg.glbStLate 0) 4 4).map fun n => coreBits n fun k => (s.rot (k / 64)).late.contains (k % 64),
    (idx off (Reg.glbReady 0) 2 4).map fun n => wd32 (s.dev.ready / 2 ^ (32 * n)),
    (idx off (Reg.glbReadyFail 0) 2 4).map fun n => wd32 (s.dev.failed / 2 ^ (32 * n))]

/-! ### The warden: safety (14), loader (02), commit unit (07), error collector (16) -/

/-- The STATE field of WDN_STATUS. -/
def WState.code : WState → Nat
  | .normal => 0 | .fallback => 1 | .held => 2 | .locked => 3 | .channelFail => 4

/-- WDN_STATUS. -/
def State.viewWdnStatus (s : State) : Word :=
  let w := s.warden
  let ins := w.estop ++ w.ossd ++ [w.enab]
  pk [(27, 24, min 15 (fallCount w.falls (s.sglob.rWin * 1000000000) s.time)), (19, 19, b2n (w.outs.any (·.fault))),
      (18, 18, b2n (ins.any (·.disc))), (17, 17, b2n w.chB), (16, 16, b2n w.chA), (2, 0, w.state.code)]

/-- The ENABLE field of WDN_INPUTS. -/
def DualIn.enableCode (x : DualIn) : Nat := if x.disc then 3 else if x.filA then (if x.filB then 2 else 1) else 0

/-- WDN_MECH of a mechanism (R202, R336): COVERED 0 where no safety subsection covers it (R315), zero where it is not defined; before
START nothing is in force to hold. -/
def State.viewWdnMech (s : State) (m : Nat) : Word :=
  if (s.mech? m).isNone then 0#32
  else
    let c := s.msafe m
    let w := s.wm m
    pk [(31, 31, b2n (s.cfg.safety.bind (·.cover m)).isSome), (30, 30, b2n ((w.held && w.cur.isSome) || s.latched m)), (29, 29, b2n w.issued), (28, 27, if w.issued then w.cat else 0),
        (23, 20, if w.issued then w.cause else 0), (15, 8, c.outs)]

/-- WDN_SOE_STATUS of a connection. -/
def State.viewSoe (s : State) (c : Nat) : Word :=
  match s.soeRec c with
  | none => 0#32
  | some r => let x := s.warden.soe.getD c {}; pk [(31, 31, 1), (30, 28, x.state), (27, 26, r.port), (23, 16, x.in0), (15, 0, r.addr)]

/-- The computed registers of the WDN block. -/
def State.viewWdn (s : State) (off : Nat) : Option Word :=
  let w := s.warden
  if off = Reg.wdnStatus then some s.viewWdnStatus
  else if off = Reg.wdnTrigLast then some (pk [(19, 16, w.trigCause), (15, 0, w.trigMechs)])
  else if off = Reg.wdnTrigTimeLo ∨ off = Reg.wdnTrigTimeHi then some (half off Reg.wdnTrigTimeLo w.trigTime)
  else if off = Reg.wdnInputs then
    some (pk [(25, 24, w.enab.enableCode), (23, 16, flagBits (w.ossd.map (·.on))), (3, 0, flagBits ((List.range 4).map s.estopOk))])
  else if off = Reg.wdnInFault then
    some (pk [(12, 12, b2n w.enab.disc), (11, 4, flagBits (w.ossd.map (·.disc))), (3, 0, flagBits (w.estop.map (·.disc)))])
  else if off = Reg.wdnOutputs then
    some (pk [(31, 24, flagBits (w.outs.map (·.fault))), (15, 8, flagBits (w.outs.map (·.fbB))), (7, 0, flagBits (w.outs.map (·.fbA)))])
  else if off = Reg.wdnFwVersion then some (wd32 s.dev.fwVersion)
  else firstOf [
    (idx off (Reg.wdnMech 0) 16 4).map s.viewWdnMech,
    (idx off (Reg.wdnWdWin 0) 12 8).map fun n =>
      if s.cfg.safety.isSome || s.cfg.master.isSome then pk [(31, 16, (s.wdWin n).2), (15, 0, (s.wdWin n).1)] else 0#32,
    (idx off (Reg.wdnWdStatus 0) 12 8).map fun n =>
      let x := s.wd n; pk [(31, 31, b2n (if n < 8 then s.wdExpects n else s.outExpects n)), (30, 29, x.fault), (15, 0, x.frame)],
    (idx off (Reg.wdnSoeStatus 0) 32 4).map s.viewSoe]

/-- The computed registers of the BLD block. -/
def State.viewBld (s : State) (off : Nat) : Option Word :=
  let l := s.loader
  if off = Reg.bldStatus then
    some (pk [(23, 16, l.code), (11, 8, (l.run.map (·.phase)).getD l.last), (0, 0, b2n l.run.isSome)])
  else if off = Reg.bldActiveSerial then some (wd32 ((l.active.map (·.serial)).getD 0))
  else firstOf [
    (idx off (Reg.bldRejDetail 0) 4 4).map fun n => wd32 (l.detail.getD n 0),
    (idx off (Reg.bldPartSerial 0) 8 4).map fun p => wd32 (s.pcfg p).serial,
    (idx off (Reg.bldPartState 0) 8 4).map fun p => wd32 (s.prun p).st.code,
    (idx off (Reg.bldCoreOwner 0) 16 4).map fun n => wd32 ((List.range 8).map fun j =>
      (match s.cfg.coreOwner (8 * n + j) with | some q => q.num | none => 15) * 16 ^ j).sum]

/-- SEL_MECH_STATE of a mechanism. -/
def State.viewSelMech (s : State) (m : Nat) : Word :=
  if (s.mech? m).isNone then 0#32
  else let x := s.mr m; pk [(31, 31, 1), (30, 28, x.st.code), (27, 24, x.pos), (23, 20, x.tries), (19, 16, x.outcome), (15, 0, x.frame)]

/-- H of the plan in force of a mechanism. -/
def State.horizon (s : State) (m : Nat) : Nat := match s.inForce m s.time with | some r => r.h | none => 0

/-- The computed registers of the commit unit. -/
def State.viewCmt (s : State) (off : Nat) : Option Word :=
  let r := s.round
  if off = Reg.selRoundStatus then some (pk [(31, 16, r.frame), (2, 2, b2n r.noEpoch), (1, 1, b2n r.late), (0, 0, b2n r.busy)])
  else firstOf [
    (idx off (Reg.selMechState 0) 16 4).map s.viewSelMech,
    (idx off (Reg.selHorizonLo 0) 16 8).map fun m => wd32 (s.horizon m),
    (idx off (Reg.selHorizonHi 0) 16 8).map fun m => hiOf (s.horizon m),
    (idx off (Reg.selThalf 0) 16 4).map fun m => wd32 (s.tHalf m)]

/-- Records in the ring not yet read. -/
def State.unread (s : State) : Nat := min 255 ((s.errs.seq + 2 ^ 32 - (s.rd Reg.errRead).toNat) % 2 ^ 32)

/-- ERR_UNIT_STATE of the unit that ERR_UNIT_SEL names. -/
def State.viewUnit (s : State) : Word :=
  let v := (s.rd Reg.errUnitSel).toNat
  let x := s.faultSt (.unit (bits v 10 0) (bits v 15 12))
  pk [(30, 28, (s.phase (bits v 10 0) (bits v 15 12)).code), (23, 16, min 255 x.evs.length), (15, 0, x.frame.getD 0)]

/-- The retired lanes of core k: Strainer lanes in the low nibble, probe lanes above. -/
def State.laneByte (s : State) (k : Nat) : Nat :=
  flagBits ((List.range 8).map fun j => s.isRetired (coreUnit k) (1 + j))

/-- The computed registers of the error collector. -/
def State.viewErr (s : State) (off : Nat) : Option Word :=
  let e := s.errs
  if off = Reg.errStatus then
    some (pk [(31, 24, s.unread), (16, 16, b2n e.full), (15, 8, e.confs.length), (6, 0, e.list.length)])
  else if off = Reg.errSeq then some (wd32 e.seq)
  else if off = Reg.errRetiredStore then some (wd32 (flagBits ((List.range 16).map fun g => s.isRetired (unitId (g / 8) (96 + g % 8)))))
  else if off = Reg.errUnitState then some s.viewUnit
  else firstOf [
    (idx off (Reg.errRetiredCore 0) 4 4).map fun n => coreBits n fun k => s.isRetired (coreUnit k),
    (idx off (Reg.errRetiredUnit 0) 2 4).map fun d => unitBits fun u => s.isRetired (unitId d u),
    (idx off (Reg.errLaneRet 0) 32 4).map fun n => wd32 ((List.range 4).map fun j => s.laneByte (4 * n + j) * 256 ^ j).sum,
    (idx off (Reg.errRing 0) 4096 4).map fun j => wd32 ((List.range 4).map fun i => (e.ring.get 0#8 (4 * j + i)).toNat * 256 ^ i).sum]

/-! ### The warden: interrupts (17), Kettle (18), host interface (20) -/

/-- One slot's half of INT_SRC_STATE. -/
def ISlot.view (x : ISlot) : Nat :=
  b2n x.routed * 2 ^ 15 + b2n x.masked * 2 ^ 14 + b2n (x.st == .pending) * 2 ^ 13 + b2n (x.st == .service) * 2 ^ 12 + x.prio % 16 * 2 ^ 8

/-- INT_SRC_STATE of a source. -/
def IntSt.viewSrc (x : IntSt) (src : Nat) : Word :=
  wd32 ((x.slot src 0).view + (if hasSlot1 src then (x.slot src 1).view * 2 ^ 16 else 0))

/-- INT_VEC of a vector: CUR is the effective priority of R391. -/
def IVec.view (x : IVec) : Word :=
  pk [(31, 31, b2n x.bound), (30, 30, b2n x.svc), (29, 29, if x.svc then x.slot else 0), (27, 24, x.rp),
      (23, 20, if x.svc then min x.rp x.prio else x.rp), (19, 16, if x.bound then x.func else 0), (8, 0, if x.svc then x.src else 0)]

/-- The computed registers of the interrupt block. -/
def State.viewInt (s : State) (off : Nat) : Option Word :=
  let x := s.ints
  if off = Reg.intStatus then
    some (pk [(25, 16, (x.slots.filter fun e => decide (e.2.st = .pending)).length), (11, 0, (x.vecs.filter fun e => e.2.svc).length)])
  else if off = Reg.intMsgsLo ∨ off = Reg.intMsgsHi then some (half off Reg.intMsgsLo x.msgs.length)
  else if off = Reg.intSwSetG ∨ Reg.among off (Reg.intSwSetP 0) 8 4 then some 0#32
  else firstOf [
    (idx off (Reg.intSrcState 0) 288 4).map x.viewSrc,
    (idx off (Reg.intVec 0) 2048 4).map fun v => (x.vec v).view]

/-- KTL_CLK of a clock. -/
def State.viewClk (s : State) (i : Nat) : Word :=
  let c := s.ktl.clks.getD i {}
  pk [(31, 31, b2n (s.clkHeld i)), (18, 16, s.ktl.floor i), (10, 8, c.target), (2, 0, c.step)]

/-- KTL_DOMAIN of a domain: entry to Cosy takes 1 µs in ENTERING (R404). -/
def State.viewDom (s : State) (n : Nat) : Word :=
  let x := s.dom n
  let st := if x.st = .cosy ∧ s.time < x.idleAt + 1000 then DState.entering else x.st
  pk [(31, 31, b2n (bit s.ktl.sec.cosy n)), (30, 28, st.code), (27, 27, b2n x.planOff), (15, 0, min 65535 x.wakes)]

/-- The computed registers of the Kettle. -/
def State.viewKtl (s : State) (off : Nat) : Option Word :=
  let k := s.ktl
  if off = Reg.ktlStatus then
    some (pk [(4, 4, b2n (k.clks.any fun c => c.capped && decide (0 < c.step))), (3, 3, b2n (k.thermal.any id)), (2, 2, b2n k.trip), (1, 1, b2n !k.lent.isEmpty), (0, 0, b2n k.inForce)])
  else if off = Reg.ktlCap then some (wd32 (k.sec.cap % 512))
  else if off = Reg.ktlPower then some (pk [(31, 16, k.meanMax), (15, 0, k.mean)])
  else if off = Reg.ktlLent then some (pk [(31, 24, k.lent.length), (15, 0, (k.lent.map (·.2)).sum / 10000)])
  else if off = Reg.ktlEnergyLo ∨ off = Reg.ktlEnergyHi then some (half off Reg.ktlEnergyLo (k.energy / 1000))
  else if off = Reg.ktlPllLock then some (wd32 k.lock)
  else firstOf [
    (idx off (Reg.ktlTemp 0) 3 4).map fun d =>
      pk [(31, 16, ((k.tjMax.getD d 0) % 65536).toNat), (15, 0, ((k.tj.getD d 0) % 65536).toNat)],
    (idx off (Reg.ktlClk 0) 18 4).map s.viewClk,
    (idx off (Reg.ktlDomain 0) 176 4).map s.viewDom]

/-- The computed registers of a host queue. -/
def State.viewHq (s : State) (off : Nat) : Option Word :=
  let (fn, q, o) := hifAt off
  let x := s.hq fn q
  if o = 0x10 then some (pk [(27, 24, x.cqSize), (23, 20, x.sqSize), (1, 1, b2n x.irq), (0, 0, b2n x.en)])
  else if o = 0x14 then some (wd32 x.tail)
  else if o = 0x18 then some (wd32 x.cqHead)
  else if o = 0x1C then some (wd32 x.head)
  else if o = 0x20 then some (wd32 (s.credit fn q))
  else if o = 0x24 then some (pk [(10, 8, x.err), (2, 2, b2n (x.en && x.cqFull)), (1, 1, b2n (s.hqHeld fn q)), (0, 0, b2n x.idle)])
  else none

/-- The computed registers of the HIF block. -/
def State.viewHif (s : State) (off : Nat) : Option Word :=
  if isHif off then s.viewHq off
  else if off = Reg.hifTimeLo ∨ off = Reg.hifTimeHi then some (half off Reg.hifTimeLo s.time)
  else none

/-! ### The warden: field interfaces (21), Crindadon (22) -/

/-- The axis records in ascending (MECH, AXIS). -/
def State.axisRecs (s : State) : List AxisRec :=
  (List.range 192).filterMap fun i => (s.axesOf (i / 12)).find? fun a => a.mech == i / 12 && a.axis == i % 12 + 1

/-- FBS_AXIS of an entry. -/
def State.viewAxis (s : State) (i : Nat) : Word :=
  match s.axisRecs[i]? with
  | none => 0#32
  | some a =>
    let st := match s.axisIn a with | some x => driveState x.status | none => 0
    pk [(31, 31, 1), (30, 30, b2n (st == 4)), (29, 27, st), (26, 25, a.port), (19, 16, a.axis), (15, 12, a.mech)]

/-- FBS_AXIS_POS of an entry. -/
def State.viewAxisPos (s : State) (i : Nat) : Word :=
  match (s.axisRecs[i]?).bind s.axisIn with
  | some x => BitVec.ofInt 32 x.pos
  | none => 0#32

/-- The computed registers of the FBS block. -/
def State.viewFbs (s : State) (off : Nat) : Option Word :=
  let p := s.fif.ptp
  if off = Reg.fbsPtpStatus then some (pk [(2, 2, b2n p.stepWait), (1, 1, b2n p.holdover), (0, 0, b2n p.locked)])
  else if off = Reg.fbsPtpOffset then some (BitVec.ofInt 32 p.offset)
  else if off = Reg.fbsPtpSlew then some (BitVec.ofInt 32 p.slew)
  else if off = Reg.fbsPtpGmLo ∨ off = Reg.fbsPtpGmHi then some (half off Reg.fbsPtpGmLo p.gm)
  else firstOf [
    (idx off (Reg.fbsPortStatus 0) 4 0x40).map fun n =>
      let x := s.port n; pk [(7, 7, b2n x.dcLock), (6, 4, x.bus), (3, 2, x.cfgRec.mode), (0, 0, b2n x.link)],
    (idx off (Reg.fbsPortErr 0) 4 0x40).map fun n => wd32 ((s.port n).err % 16),
    (idx off (Reg.fbsAxis 0) 128 4).map s.viewAxis,
    (idx off (Reg.fbsAxisPos 0) 128 4).map s.viewAxisPos]

/-- The LANES code: 0 none, 1 one, 2 two, 3 four. -/
def laneCode (n : Nat) : Nat := if n = 4 then 3 else n

/-- The computed registers of the SNS block. -/
def State.viewSns (s : State) (off : Nat) : Option Word :=
  firstOf [
    (idx off (Reg.snsRxStatus 0) 8 4).map fun r =>
      let x := s.fif.rx.getD r (0, 0, false); pk [(31, 16, x.1), (2, 1, laneCode x.2.1), (0, 0, b2n x.2.2)],
    (idx off (Reg.snsEthStatus 0) 4 4).map fun n => if s.fif.ethUp.getD n false then pk [(31, 16, 25781), (2, 1, 1), (0, 0, 1)] else 0#32,
    (idx off (Reg.snsTsuStatus 0) 8 4).map fun u =>
      let x := s.fif.tsus.getD u {}
      s.rd off ||| pk [(7, 3, x.fifo.length), (2, 0, match x.rec_ with | some r => r.mode + 1 | none => 0)],
    (idx off (Reg.snsTsuCapLo 0) 8 8).map fun u => wd32 ((s.fif.tsus.getD u {}).fifo.headD 0),
    (idx off (Reg.snsTsuCapHi 0) 8 8).map fun u => hiOf ((s.fif.tsus.getD u {}).fifo.headD 0),
    (idx off (Reg.snsChanStatus 0) 32 4).map fun c =>
      match s.chan? c with
      | some x => pk [(31, 31, 1), (30, 30, b2n x.held), (29, 27, x.part), (9, 0, x.lastDone)]
      | none => 0#32]

/-- The computed registers of the CDL block. -/
def State.viewCdl (s : State) (off : Nat) : Option Word :=
  firstOf [
    (idx off (Reg.cdlPortStatus 0) 4 0x100).map fun n =>
      let x := s.cport n
      pk [(19, 18, x.peerPort), (17, 15, x.peerPkg), (8, 8, b2n x.dup),
          (7, 4, match x.st with | .up => 8 | .degraded => 4 | _ => 0), (2, 0, x.st.code)],
    (idx off (Reg.cdlPeerUidLo 0) 4 0x100).map fun n => wd32 (s.cport n).peerUid,
    (idx off (Reg.cdlPeerUidHi 0) 4 0x100).map fun n => hiOf (s.cport n).peerUid,
    (idx off (Reg.cdlRoute 0) 8 4).map fun r =>
      match s.links.routes.getD r none with | some x => pk [(31, 31, 1), (6, 4, x.hops), (3, 0, x.ports)] | none => 0#32]

/-- The computed registers of the warden's part of the map. -/
def State.viewWarden (s : State) (off : Nat) : Option Word :=
  if off < 0x104000 then s.viewWdn off
  else if off < 0x105000 then s.viewBld off
  else if off < 0x106000 then s.viewCmt off
  else if off < 0x107000 then none
  else if off < 0x108000 then s.viewErr off
  else if off < 0x109000 then s.viewInt off
  else if off < 0x10A000 then s.viewKtl off
  else if off < 0x10D000 then s.viewHif off
  else if off < 0x10E000 then s.viewFbs off
  else if off < 0x10F000 then s.viewSns off
  else if off < 0x110000 then s.viewCdl off
  else if off < 0x114000 then s.viewErr off
  else s.viewInt off

/-! ### The planner dies (03 to 12) -/

/-- The computed field registers of a die. -/
def State.viewFld (s : State) (d off : Nat) : Option Word :=
  let f := s.fld
  if off = Reg.fldEpoch d then some (pk [(18, 18, b2n f.valid), (17, 17, b2n f.closed), (16, 16, f.epoch), (15, 0, f.epoch)])
  else if off = Reg.fldPubTimeLo d ∨ off = Reg.fldPubTimeHi d then some (half off (Reg.fldPubTimeLo d) f.pubB)
  else if off = Reg.fldBuildStatus d then some (pk [(19, 16, f.result), (15, 0, f.resEpoch)])
  else if off = Reg.fldSlots d then some (pk [(31, 16, f.new), (15, 0, f.total)])
  else if off = Reg.fldBudget d then some (wd32 f.budget)
  else if off = Reg.fldCoarsened d then some (wd32 f.cMid)
  else if off = Reg.fldCoarsenFine d then some (wd32 f.cFine)
  else if off = Reg.fldDirty d then some (wd32 f.dMid)
  else if off = Reg.fldDirtyFine d then some (wd32 f.dFine)
  else if off = Reg.fldHumans d then some (wd32 f.humans)
  else if off = Reg.fldLateCount d then some (s.rd (Reg.fldLateCount 0))
  else if off = Reg.fldCoarsenTotal d then some (s.rd (Reg.fldCoarsenTotal 0))
  else if off = Reg.fldOccErr d then some (s.rd (Reg.fldOccErr 0))
  else none

/-- SWP_MECH of a mechanism. -/
def State.viewSwpMech (s : State) (m : Nat) : Word :=
  match s.mech? m with
  | some (q, x) => pk [(31, 31, 1), (26, 24, q.num), (19, 16, x.axes), (15, 11, x.mid), (6, 0, x.leaf)]
  | none => 0#32

/-- The privileged contexts of a die in ascending context number. -/
def State.privsOf (s : State) (d : Nat) : List SolverCtx :=
  (List.range 8192).filterMap fun x => (s.privs.find? fun e => e.2.ctx == 8192 * d + x).map (·.2)

/-- SLV_CTX of an entry of a die. -/
def State.viewSlvCtx (s : State) (d i : Nat) : Word :=
  match (s.privsOf d)[i]? with
  | some c => pk [(31, 31, 1), (28, 24, (s.engineOf c).getD c.engine), (13, 0, c.ctx)]
  | none => 0#32

/-- The networks of a die's table, in ascending partition and network. -/
def State.netsOf (s : State) (d : Nat) : List (PartCfg × Net) :=
  (List.range 128).filterMap fun i => s.cfg.nets.find? fun e => e.1.num == i / 16 && e.2.net == i % 16 && e.2.onDie d

/-- The run that an array computes: the first in the order of R220 that may go on. -/
def State.runNow (s : State) (d : Nat) : Option ARun := (s.arr d).runs.find? fun r => s.mayRun r && s.runTurn d true r && s.runLeft true r

/-- The computed registers of a Great Array. -/
def State.viewGar (s : State) (d off : Nat) : Option Word :=
  let a := s.arr d
  if off = 0x408000 + 0x400000 * d then
    let now := s.runNow d
    let c := match now with | some r => 1 + r.cls | none => 0
    some (pk [(23, 20, (now.map (·.net)).getD 0), (19, 16, (now.map (·.part)).getD 0), (15, 8, a.runs.length - b2n now.isSome),
              (5, 5, b2n (s.isRetired (unitId d 88))), (4, 4, b2n (s.arrHold d)), (3, 2, c),
              (1, 1, b2n (a.runs.any fun r => s.mayRun r && s.runLeft false r)), (0, 0, b2n now.isSome)])
  else firstOf [
    (idx off (0x408080 + 0x400000 * d) 32 4).map fun j =>
      match (s.netsOf d)[j]? with
      | some (q, n) =>
        let st := match a.stat q.num n.net with | some (x, _) => x | none => 0
        pk [(31, 31, 1), (30, 28, q.num), (27, 24, n.net), (23, 20, st / 65536), (19, 18, n.cls), (17, 17, b2n n.twin), (15, 0, st)]
      | none => 0#32,
    (idx off (0x408100 + 0x400000 * d) 32 4).map fun j =>
      match (s.netsOf d)[j]? with
      | some (q, n) => wd32 (match a.stat q.num n.net with | some (_, w) => w | none => 0)
      | none => 0#32]

/-- The task that SCH_TASK_SEL of a die names: its partition and number. -/
def State.taskSel (s : State) (d : Nat) : Nat × Nat :=
  let v := (s.rd (Reg.schTaskSel d)).toNat
  (bits v 30 28, bits v 9 0)

/-- SCH_TASK_STATE. -/
def State.viewTask (s : State) (d : Nat) : Word :=
  let (p, t) := s.taskSel d
  match s.task? d p t with
  | none => 0#32
  | some x =>
    let st := if x.held then 3 else if !x.backlog.isEmpty then 2 else if x.due.isSome then 1 else 0
    pk [(31, 31, 1), (30, 28, st), (13, 0, ((s.sch d).groups.map fun g => (g.items.filter fun i => i.part == p && i.task == t).length).sum)]

/-- SCH_GROUP of a group of a die. -/
def State.viewGroup (s : State) (d g : Nat) : Word :=
  match (s.sch d).groups.find? (·.grp == g) with
  | none => 0#32
  | some x =>
    let held := (s.pcfg x.part).tasks.any fun r => r.die == d && r.grp == g && ((s.task? d x.part r.task).map (·.held)).getD false
    pk [(31, 31, 1), (30, 28, x.part), (27, 26, x.cls), (25, 25, b2n held), (23, 16, if x.legacy then x.prio else x.wt), (13, 0, x.items.length)]

/-- The computed registers of a die's scheduler: a group is active while it holds items (R253). -/
def State.viewSch (s : State) (d off : Nat) : Option Word :=
  let x := s.sch d
  if off = Reg.schStatus d then some (pk [(29, 16, x.stored), (6, 0, (x.groups.filter fun g => !g.items.isEmpty).length)])
  else if off = Reg.schDelayed d then some (wd32 (x.tasks.filter fun t => t.due.isSome).length)
  else if off = Reg.schTaskFlags d then some (wd32 ((s.task? d (s.taskSel d).1 (s.taskSel d).2).map (·.flags) |>.getD 0))
  else if off = Reg.schTaskState d then some (s.viewTask d)
  else firstOf [
    (idx off (Reg.schGroup d 0) 64 4).map (s.viewGroup d),
    (idx off (Reg.schDeficit d 0) 64 4).map fun g =>
      wd32 (match x.groups.find? (·.grp == g) with | some y => if y.legacy then 0 else y.deficit | none => 0)]

/-- The virtual counter that SYN_XLATE_SEL of a die names, translated. -/
def State.viewXlate (s : State) (d : Nat) : Word :=
  let v := (s.rd (Reg.synXlateSel d)).toNat
  let hit := s.sync.xlate.find? fun e => decTref false e.2.1 == some (.virt (bits v 25 12) (bits v 11 0))
  match hit with
  | some (_, _, k, n) => pk [(31, 31, 1), (14, 8, k), (5, 0, n)]
  | none => 0#32

/-- The computed synchronisation registers of a die. -/
def State.viewSyn (s : State) (d off : Nat) : Option Word :=
  if off = Reg.synMode d then
    some (pk [(15, 8, flagBits ((List.range 8).map s.defined)), (7, 0, flagBits ((List.range 8).map fun p => s.defined p && (s.pcfg p).sync.full))])
  else if off = Reg.synStanding d then some (wd32 (s.sync.mons.filter (·.die == d)).length)
  else if off = Reg.synXlate d then some (s.viewXlate d)
  else none

/-- The computed memory registers of a die. The temperature is what the stack reports (a free value); the refresh rate follows it
(R500). -/
def State.viewMem (s : State) (d off : Nat) : Option Word :=
  if off = Reg.memHbmStatus d then
    if s.readyBit (rbHBM + d) then
      let x := Config.hbmTemp d s.time % 256
      some (pk [(23, 16, x), (9, 8, if 95 < x then 2 else if 85 < x then 1 else 0), (0, 0, 1)])
    else some 0#32
  else if off = Reg.memRepair d then some (wd32 (s.fuses.repair.getD d 0 % 65536))
  else none

/-- The computed die-wide registers of die d. -/
def State.viewDie (s : State) (d off : Nat) : Option Word :=
  let r := (off - 0x200000) % 0x400000
  if r < 0x202000 then s.viewFld d off
  else if r < 0x203000 then (idx off (Reg.swpMech d 0) 16 4).map s.viewSwpMech
  else if r < 0x205000 then none
  else if r < 0x206000 then (idx off (Reg.slvCtx d 0) 4 4).map (s.viewSlvCtx d)
  else if r < 0x208000 then none
  else if r < 0x209000 then s.viewGar d off
  else if r < 0x20A000 then s.viewSch d off
  else if r < 0x20B000 then s.viewSyn d off
  else s.viewMem d off

/-! ### Clusters and cores -/

/-- FLD_STORE_STATUS and FLD_BUILDER_STATUS of cluster g (die × 8 + cluster). -/
def State.viewCluster (s : State) (g o : Nat) : Option Word :=
  if o = 0x21000 then
    let x := s.fstore g
    some (pk [(31, 16, s.peekN (storeBase g + stControl) 8), (2, 2, b2n x.copying), (1, 1, b2n x.excluded), (0, 0, b2n x.ready)])
  else if o = 0x21004 then
    let mine := (List.range 16).map fun j => s.builderOf j == some g
    some (pk [(17, 2, flagBits mine), (1, 1, b2n (s.builderOf 0 == some g)), (0, 0, b2n (s.isRetired (unitId (g / 8) (80 + g % 8))))])
  else none

/-- The registers of solver engine i. -/
def State.viewEng (s : State) (i o : Nat) : Option Word :=
  let e := s.eng i
  if o = 0 then
    some (pk [(31, 24, e.iter), (18, 16, e.seed), (6, 4, if e.busy then e.step.code else 0), (3, 3, b2n e.wait), (1, 1, b2n e.busy),
              (0, 0, b2n (s.isRetired (engUnit i)))])
  else if o = 4 then some (wd32 (e.lastFlags % 2 ^ 14))
  else if o = 8 ∨ o = 0xC then some (half o 8 e.lastRes)
  else if o = 0x10 ∨ o = 0x14 then some (half o 0x10 e.lastMerit)
  else if o = 0x18 then some (wd32 e.lastFrame)
  else if o = 0x1C then some (pk [(26, 24, e.lastSeq), (23, 16, e.lastIters), (15, 0, min 65535 e.lastPivots)])
  else if o = 0x20 then some (match e.pivot with | some c => pk [(31, 31, 1), (12, 0, c)] | none => 0#32)
  else none

/-- A core merges lists for its cluster or die: the first of its partition's cores in the cluster whose scratchpads stand. -/
def State.mergesFor (s : State) (k : Nat) : Bool :=
  match s.cfg.coreOwner k with
  | some q => (s.mergeCores q (k / 8)).head? == some k
  | none => false

/-- The wait at the head of core k's DMA queue (R269). -/
def State.headWait (s : State) (k : Nat) : Option Wait := s.sync.waits.find? fun w => w.issuer == .dma k

/-- The monitor entries in use in core k's sync unit (R273): its standing monitors and the waits registered there. -/
def State.monUse (s : State) (k : Nat) : Nat :=
  let here (w : TWord) : Bool := match w with | .ctr c _ => c == k | .mem _ => false
  (s.sync.waits.filter fun w => !w.polled && here w.word).length

/-- The per-core registers of SWP, STN, PRB and SEL for core k. -/
def State.viewEngines (s : State) (k o : Nat) : Option Word :=
  let c := s.core k
  let n (p : SlotPh) : Nat := (c.slots.filter fun x => decide (x.ph = p)).length
  let ret := b2n (s.isRetired (coreUnit k))
  let lanes := s.laneByte k
  if o = 0x100 then some (pk [(2, 2, b2n (n .bind != 0)), (1, 1, b2n (n .fetch + n .bind != 0)), (0, 0, ret)])
  else if o = 0x200 then some (pk [(4, 4, b2n (n .check != 0)), (3, 0, lanes)])
  else if o = 0x300 then
    some (pk [(21, 16, c.boxes.getD 0), (6, 6, b2n (2 ≤ n .check)), (5, 5, b2n (c.boxes == some s.fld.epoch && s.fld.valid)),
              (4, 4, b2n (n .check != 0)), (3, 0, lanes / 16)])
  else if o = 0x304 then some (pk [(25, 16, 512 - c.slots.length), (9, 0, n .done)])
  else if o = 0x308 then some (wd32 c.lines)
  else if o = 0x500 then
    let h := match s.cfg.coreOwner k with | some q => s.head q.num % 2 | none => 0
    some (pk [(29, 16, c.fill.getD h 0), (3, 3, b2n (s.mergesFor k)), (1, 1, h), (0, 0, ret)])
  else none

/-- The per-core registers of SCH, SYN and MEM for core k. -/
def State.viewSystem (s : State) (k o : Nat) : Option Word :=
  let c := s.core k
  let ret := b2n (s.isRetired (coreUnit k))
  let l := (s.sch (k / 64)).slots.getD (k % 64) []
  if o = 0x600 then
    some (pk [(7, 7, b2n (508 ≤ c.slots.length)), (6, 6, b2n c.withheld), (5, 4, l.length),
              (3, 2, match l.head? with | some i => 1 + i.cls | none => 0), (0, 0, ret)])
  else if o = 0x700 then
    let w := s.headWait k
    some (pk [(22, 16, s.monUse k), (8, 8, b2n (s.ktl.lent.any (·.1 == k))), (7, 7, b2n w.isSome)])
  else if o = 0x704 ∨ o = 0x708 then some (half o 0x704 ((s.headWait k).map (·.tref) |>.getD 0))
  else if o = 0x70C then some (wd32 (match s.headWait k with | some w => min (2 ^ 32 - 1) ((s.time - w.since) / 1000) | none => 0))
  else if o = 0x800 then
    some (pk [(3, 3, b2n ((s.dom k).st == .waking)), (2, 2, b2n ((s.dom k).st == .cosy)), (1, 1, b2n c.dma.item.isSome), (0, 0, ret)])
  else if o = 0x804 ∨ o = 0x808 then some (half o 0x804 c.dma.desc)
  else if 0x818 ≤ o ∧ o < 0x8C0 then
    some (wd32 (s.tword (.ctr k ((o - 0x800) / 4))).value)
  else if 0x900 ≤ o ∧ o < 0x9C0 then
    let x := s.tword (.ctr k ((o - 0x900) / 4))
    some (pk [(31, 31, b2n x.err), (30, 24, x.gen), (23, 0, x.value / 2 ^ 32)])
  else none

/-- The computed registers of the planner dies. -/
def State.viewPlanner (s : State) (off : Nat) : Option Word :=
  match Reg.inCore off with
  | some (k, o) => (s.viewEngines k o).or (s.viewSystem k o)
  | none =>
    match Reg.inCluster off with
    | some (g, o) =>
      if o < 0x22000 then s.viewCluster g o
      else if o < 0x22200 then s.viewEng (16 * (g / 8) + 2 * (g % 8) + (o - 0x22000) / 0x100) ((o - 0x22000) % 0x100)
      else none
    | none => s.viewDie ((off - 0x200000) / 0x400000 % 2) off

/-- The register at an offset as a read finds it (R7, R426, R491). -/
def State.view (s : State) (off : Nat) : Word :=
  if !s.regThere off then Reg.resetOf off
  else
    (if off < 0x100000 then s.viewGlb off
     else if off < 0x200000 then s.viewWarden off
     else s.viewPlanner off).getD (s.rd off)

end Sys2Proof.Machine
end

