-- ==== Sys2Proof/Machine/RegFam.lean ====
section
/-! DEFINITION. Register accesses (R6 to R8, R507): REGISTER_WRITE, READ_CLEAR and LO_READ_LATCH. -/

namespace Sys2Proof.Machine

/-! ### Writes -/

/-- The MSI-X table entry of a function written (20_host_interface.md, R390): address, data or mask; the pending bits are read
only. -/
def State.msixWrite (s : State) (fn off v : Nat) : State :=
  if 0x8000 ≤ off then s
  else
    let e := s.ints.entry fn (off / 16)
    let e := match off % 16 / 4 with
      | 0 => { e with addr := e.addr / 2 ^ 32 * 2 ^ 32 + v % 2 ^ 32 }
      | 1 => { e with addr := e.addr % 2 ^ 32 + v % 2 ^ 32 * 2 ^ 32 }
      | 2 => { e with data := v % 2 ^ 32 }
      | _ => { e with mask := bit v 0 }
    { s with ints := { s.ints with msix := s.ints.msix.set {} (2048 * fn + off / 16) e } }

/-- A register with no step of its own written: its access types (R6). The _LO half of a 64-bit quantity waits for its _HI, whose
write makes both take effect (R8). -/
def State.plainWrite (s : State) (off v : Nat) : State :=
  if Reg.isRwLo off then { s with lo := s.lo.set none off (some (wd32 v)) }
  else
    let s := if 4 ≤ off ∧ Reg.isRwLo (off - 4) then
        match s.lo.get none (off - 4) with
        | some l => ({ s with lo := s.lo.set none (off - 4) none } : State).wr (off - 4) l
        | none => s
      else s
    s.wr off (Reg.written (Reg.accessOf off) (s.rd off) (wd32 v))

/-- HIF_VT_CTRL of partition p written (R443): EN is set only with a base in the partition's HBM units and a legal length. -/
def State.vtCtrl (s : State) (p v : Nat) : State :=
  let s := s.wr (Reg.hifVtCtrl p) (Reg.written (Reg.accessOf (Reg.hifVtCtrl p)) (s.rd (Reg.hifVtCtrl p)) (wd32 v))
  let n := bits v 15 11
  let a := s.rd64 (Reg.hifVtBaseLo p)
  if bit v 0 ∧ !(decide (8 ≤ n) && decide (n ≤ 24) && a % 4096 == 0 && (s.pcfg p).inUnits a (16 * 2 ^ n))
  then s.wrBits (Reg.hifVtCtrl p) 0 0 0 else s

/-- A queue register written: control and doorbells have their steps; the ring bases ignore writes while EN is set. -/
def State.queueWrite (s : State) (off v : Nat) : State :=
  let (fn, q, o) := hifAt off
  if o = 0x10 then s.hqCtrl fn q v
  else if o = 0x14 then s.sqDoorbell fn q (v % 4096)
  else if o = 0x18 then s.cqDoorbell fn q (v % 4096)
  else if o < 0x10 ∧ !(s.hq fn q).en then s.plainWrite off v
  else s


/-- A register of the warden's part of the map written by function fn. -/
def State.writeWarden (s : State) (fn off v : Nat) : State :=
  if off = Reg.wdnCmd then s.wdnCommand v s.time
  else if off = Reg.bldCmd then s.bldCommand v s.time
  else if off = Reg.errCmd then s.errCommand v
  else if off = Reg.intSwSetG then s.raiseMany 24 v
  else if isHif off then s.queueWrite off v
  else
    match idx off (Reg.intSwSetP 0) 8 4, idx off (Reg.intSrcState 0) 288 4, idx off (Reg.intVec 0) 2048 4 with
    | some p, _, _ => s.raiseMany (isrcPart p 24) v
    | _, some i, _ => s.srcWrite fn i v
    | _, _, some n => s.vecWrite n v
    | none, none, none =>
      match idx off (Reg.hifVtCtrl 0) 8 0x400, idx off (Reg.cdlOpen 0) 8 4, idx off (Reg.cdlCtrl 0) 4 0x100 with
      | some p, _, _ => s.vtCtrl p v
      | _, some p, _ => s.openWrite p v
      | _, _, some n => s.ctrlWrite n v
      | none, none, none => s.plainWrite off v

/-- GLB_LC_CMD written: GO starts the fetch of a request (R428), or answers BUSY while one is in progress. -/
def State.lcGo (s : State) (v : Nat) : State :=
  if !bit v 0 then s
  else if bit (s.rd Reg.glbLcCmd).toNat 0 then s
  else s.wr Reg.glbLcCmd 1#32

/-- A register of BAR0 written by a function that reaches it. -/
def State.writeReg (s : State) (a : RegAcc) (v : Nat) : State :=
  let d := (a.off - 0x200000) / 0x400000 % 2
  if a.off = Reg.glbResetCmd then s.resetCommand a.fn v s.time
  else if a.off = Reg.glbLcCmd then s.lcGo v
  else if a.off < 0x100000 then s.plainWrite a.off v
  else if a.off < 0x200000 then s.writeWarden a.fn a.off v
  else if a.off = Reg.schFlagSet d then s.flagWrite a v
  else if Reg.amongDie a.off (Reg.synHostAdd 0 0) 8 0x10 then s.hostAdd a v
  else if Reg.amongDie a.off (Reg.synHostRefHi 0 0) 8 0x10 then s.hostRef a v fun s => s.plainWrite a.off v
  else s.plainWrite a.off v

/-- REGISTER_WRITE (R6, R7, R507): a write of a register, or of the MSI-X table, with the effect its register states. -/
def execRegisterWrite (a : RegAcc) (v t : Nat) (s : State) : Host.Outcome State Fault Refusal :=
  (match a.bar with
   | .bar0 => s.onWrite a t fun s => s.writeReg a (v % 2 ^ 32)
   | .bar4 => s.onWrite a t fun s => s.msixWrite a.fn a.off (v % 2 ^ 32)).done

/-! ### Reads -/

/-- What a read of the MSI-X table or the pending bits gives. -/
def State.msixRead (s : State) (fn off : Nat) : Word :=
  if 0x8000 ≤ off then
    let v := (off - 0x8000) * 8
    wd32 (flagBits ((List.range 32).map fun i => s.ints.pba.get false (2048 * fn + v + i)))
  else
    let e := s.ints.entry fn (off / 16)
    match off % 16 / 4 with
    | 0 => wd32 e.addr
    | 1 => hiOf e.addr
    | 2 => wd32 e.data
    | _ => wd32 (b2n e.mask)

/-- What function fn reads at an offset of BAR0: the _HI half of a pair reads the value that its last read of _LO latched, where
there is one, and a _LO half that waits for its _HI what was written (R6, R8). A virtual function sees slot 1
of a source alone (R396). -/
def State.seen (s : State) (fn off : Nat) : Word :=
  match s.hi.get none (16 * off + fn), s.lo.get none off with
  | some h, _ => h
  | _, some l => l
  | none, none =>
    if fn ≠ 0 ∧ Reg.among off (Reg.intSrcState 0) 288 4 then s.view off &&& 0xFFFF0000#32 else s.view off

/-- The latch that a read of _LO sets (R8), and the RC bits that a read clears (R6). -/
def State.afterRead (s : State) (fn off : Nat) : State :=
  let s := if Reg.isLo off then s.latchHi fn (off + 4) (s.view (off + 4)) else s
  let rc := (Reg.accessOf off).rc
  if rc = 0#32 ∨ !s.regThere off then s else s.wr (Reg.homeOf off) (s.rd (Reg.homeOf off) &&& ~~~rc)

/-- A read of a register of BAR0 or BAR4 by a function. -/
def State.readReg (s : State) (a : RegAcc) : State :=
  if s.unsupported a false then s.urEnd
  else
    match a.bar with
    | .bar4 => s.readEnd (s.msixRead a.fn a.off)
    | .bar0 =>
      match idx a.off (Reg.snsTsuCapLo 0) 8 8 with
      | some u => if s.regThere a.off then s.capRead a.fn u else s.readEnd 0#32
      | none => (s.afterRead a.fn a.off).readEnd (s.seen a.fn a.off)

/-- READ_CLEAR (R6): a read of a register by a function; a register or field of access RC is cleared by it. -/
def execReadClear (a : RegAcc) (t : Nat) (s : State) : Host.Outcome State Fault Refusal :=
  let s := s.at t
  (if s.pcieUp then s.readReg a else s).done

/-- LO_READ_LATCH (R8): a read of the _LO register of a 64-bit pair, which latches the _HI half for the reading function. -/
def execLoReadLatch (a : RegAcc) (t : Nat) (s : State) : Host.Outcome State Fault Refusal :=
  let s := s.at t
  (if s.pcieUp ∧ a.bar = Bar.bar0 ∧ Reg.isLo a.off then s.readReg a else s).done

end Sys2Proof.Machine
end

