-- ==== Sys2Proof/Machine/Dispatch.lean ====
section
/-! DEFINITION. The dispatch: one meaning for each constructor. -/

namespace Sys2Proof.Machine

/-- The effect of a command on everything but the queue. -/
def exec (i : Instr) (s : State) : Host.Outcome State Fault Refusal :=
  match i with
  | .registerWrite a v t => Sys2Proof.Machine.execRegisterWrite a v t s
  | .readClear a t => Sys2Proof.Machine.execReadClear a t s
  | .loReadLatch a t => Sys2Proof.Machine.execLoReadLatch a t s
  | .coldReset t => Sys2Proof.Machine.execColdReset t s
  | .porNRelease o => Sys2Proof.Machine.execPorNRelease o s
  | .ready bit o t => Sys2Proof.Machine.execReady bit o t s
  | .hbmInit stack t => Sys2Proof.Machine.execHbmInit stack t s
  | .cold fn t => Sys2Proof.Machine.execCold fn t s
  | .warm fn t => Sys2Proof.Machine.execWarm fn t s
  | .warmResetRelease t => Sys2Proof.Machine.execWarmResetRelease t s
  | .part fn p t => Sys2Proof.Machine.execPart fn p t s
  | .plannerRestart t => Sys2Proof.Machine.execPlannerRestart t s
  | .deferredTimeStep t => Sys2Proof.Machine.execDeferredTimeStep t s
  | .frameWindow p late => Sys2Proof.Machine.execFrameWindow p late s
  | .netStart p late => Sys2Proof.Machine.execNetStart p late s
  | .buildStart p late => Sys2Proof.Machine.execBuildStart p late s
  | .buildSeal bad t => Sys2Proof.Machine.execBuildSeal bad t s
  | .sealDeadline => Sys2Proof.Machine.execSealDeadline s
  | .readyDeadline => Sys2Proof.Machine.execReadyDeadline s
  | .publish late => Sys2Proof.Machine.execPublish late s
  | .personBoxBuild core t => Sys2Proof.Machine.execPersonBoxBuild core t s
  | .storeCopy store ok t => Sys2Proof.Machine.execStoreCopy store ok t s
  | .lastAdmission p => Sys2Proof.Machine.execLastAdmission p s
  | .selectEnd p late => Sys2Proof.Machine.execSelectEnd p late s
  | .roundLate => Sys2Proof.Machine.execRoundLate s
  | .commitEnd p => Sys2Proof.Machine.execCommitEnd p s
  | .out p => Sys2Proof.Machine.execOut p s
  | .admission core t => Sys2Proof.Machine.execAdmission core t s
  | .primitiveFetch core slot t => Sys2Proof.Machine.execPrimitiveFetch core slot t s
  | .sweepEntry core slot t => Sys2Proof.Machine.execSweepEntry core slot t s
  | .verdict core slot t => Sys2Proof.Machine.execVerdict core slot t s
  | .costScore core slot t => Sys2Proof.Machine.execCostScore core slot t s
  | .reduction core half t => Sys2Proof.Machine.execReduction core half t s
  | .merge p t => Sys2Proof.Machine.execMerge p t s
  | .solveStart engine t => Sys2Proof.Machine.execSolveStart engine t s
  | .solverStep engine cols t => Sys2Proof.Machine.execSolverStep engine cols t s
  | .smoothing engine t => Sys2Proof.Machine.execSmoothing engine t s
  | .handoff engine t => Sys2Proof.Machine.execHandoff engine t s
  | .tryResult m t => Sys2Proof.Machine.execTryResult m t s
  | .commitRecord m t => Sys2Proof.Machine.execCommitRecord m t s
  | .writeGroup t => Sys2Proof.Machine.execWriteGroup t s
  | .confirm core slot t => Sys2Proof.Machine.execConfirm core slot t s
  | .repeat_ core slot t => Sys2Proof.Machine.execRepeat core slot t s
  | .deadline m => Sys2Proof.Machine.execDeadline m s
  | .standstill m => Sys2Proof.Machine.execStandstill m s
  | .gemm r => Sys2Proof.Machine.execGemm r s
  | .conv r => Sys2Proof.Machine.execConv r s
  | .attn r => Sys2Proof.Machine.execAttn r s
  | .gather r => Sys2Proof.Machine.execGather r s
  | .vector r => Sys2Proof.Machine.execVector r s
  | .pool r => Sys2Proof.Machine.execPool r s
  | .load r => Sys2Proof.Machine.execLoad r s
  | .store r => Sys2Proof.Machine.execStore r s
  | .signal r => Sys2Proof.Machine.execSignal r s
  | .twinTimeout p net => Sys2Proof.Machine.execTwinTimeout p net s
  | .schFlagSet a v t => Sys2Proof.Machine.execSchFlagSet a v t s
  | .due die p task => Sys2Proof.Machine.execDue die p task s
  | .dispatch die core t => Sys2Proof.Machine.execDispatch die core t s
  | .itemComplete die core t => Sys2Proof.Machine.execItemComplete die core t s
  | .traceDrop die p t => Sys2Proof.Machine.execTraceDrop die p t s
  | .read r => Sys2Proof.Machine.execRead r s
  | .add r => Sys2Proof.Machine.execAdd r s
  | .sub r => Sys2Proof.Machine.execSub r s
  | .take r => Sys2Proof.Machine.execTake r s
  | .waitGe r => Sys2Proof.Machine.execWaitGe r s
  | .waitEq r => Sys2Proof.Machine.execWaitEq r s
  | .arrive r => Sys2Proof.Machine.execArrive r s
  | .waitTimeout n t => Sys2Proof.Machine.execWaitTimeout n t s
  | .poll n t => Sys2Proof.Machine.execPoll n t s
  | .synHostAdd a v t => Sys2Proof.Machine.execSynHostAdd a v t s
  | .lend core t => Sys2Proof.Machine.execLend core t s
  | .end_ core t => Sys2Proof.Machine.execEnd core t s
  | .copy core bad far t => Sys2Proof.Machine.execCopy core bad far t s
  | .fill core far t => Sys2Proof.Machine.execFill core far t s
  | .tally core far t => Sys2Proof.Machine.execTally core far t s
  | .link core t => Sys2Proof.Machine.execLink core t s
  | .blockRepeat core ok t => Sys2Proof.Machine.execBlockRepeat core ok t s
  | .patrolScrub die line e t => Sys2Proof.Machine.execPatrolScrub die line e t s
  | .scratchpadScrub core word e t => Sys2Proof.Machine.execScratchpadScrub core word e t s
  | .cosyEntry dom t => Sys2Proof.Machine.execCosyEntry dom t s
  | .wake dom t => Sys2Proof.Machine.execWake dom t s
  | .tamper cause t => Sys2Proof.Machine.execTamper cause t s
  | .railFault rail t => Sys2Proof.Machine.execRailFault rail t s
  | .laneRepair link t => Sys2Proof.Machine.execLaneRepair link t s
  | .linkDown link t => Sys2Proof.Machine.execLinkDown link t s
  | .monitoringPeriod disagree t => Sys2Proof.Machine.execMonitoringPeriod disagree t s
  | .channel b t => Sys2Proof.Machine.execChannel b t s
  | .watchdog w t => Sys2Proof.Machine.execWatchdog w t s
  | .inputFilter w t => Sys2Proof.Machine.execInputFilter w t s
  | .discrepancy input t => Sys2Proof.Machine.execDiscrepancy input t s
  | .estopReset fn n t => Sys2Proof.Machine.execEstopReset fn n t s
  | .restart fn t => Sys2Proof.Machine.execRestart fn t s
  | .testPulse b t => Sys2Proof.Machine.execTestPulse b t s
  | .outputFault pair b level t => Sys2Proof.Machine.execOutputFault pair b level t s
  | .soe conn watchdog t => Sys2Proof.Machine.execSoe conn watchdog t s
  | .timeWindow t => Sys2Proof.Machine.execTimeWindow t s
  | .sliceStart die unit kind t => Sys2Proof.Machine.execSliceStart die unit kind t s
  | .sliceEnd die o t => Sys2Proof.Machine.execSliceEnd die o t s
  | .intervalEnd die t => Sys2Proof.Machine.execIntervalEnd die t s
  | .errorEvent e => Sys2Proof.Machine.execErrorEvent e s
  | .faultWindowExpiry unit sub t => Sys2Proof.Machine.execFaultWindowExpiry unit sub t s
  | .isolationTimeout unit t => Sys2Proof.Machine.execIsolationTimeout unit t s
  | .clearRetired fn t => Sys2Proof.Machine.execClearRetired fn t s
  | .errRead fn v t => Sys2Proof.Machine.execErrRead fn v t s
  | .intDelivery t => Sys2Proof.Machine.execIntDelivery t s
  | .eoi fn vec t => Sys2Proof.Machine.execEoi fn vec t s
  | .intSwSetG a v t => Sys2Proof.Machine.execIntSwSetG a v t s
  | .intSwSetP a v t => Sys2Proof.Machine.execIntSwSetP a v t s
  | .pendSet fn src slot t => Sys2Proof.Machine.execPendSet fn src slot t s
  | .controlPeriod o => Sys2Proof.Machine.execControlPeriod o s
  | .pllLockLoss pll t => Sys2Proof.Machine.execPllLockLoss pll t s
  | .steepFull fn t => Sys2Proof.Machine.execSteepFull fn t s
  | .steepPart fn p t => Sys2Proof.Machine.execSteepPart fn p t s
  | .abort fn t => Sys2Proof.Machine.execAbort fn t s
  | .start fn p t => Sys2Proof.Machine.execStart fn p t s
  | .stop fn p t => Sys2Proof.Machine.execStop fn p t s
  | .fetch blob ok t => Sys2Proof.Machine.execFetch blob ok t s
  | .auth t => Sys2Proof.Machine.execAuth t s
  | .parse t => Sys2Proof.Machine.execParse t s
  | .safety t => Sys2Proof.Machine.execSafety t s
  | .claims t => Sys2Proof.Machine.execClaims t s
  | .distribute ok t => Sys2Proof.Machine.execDistribute ok t s
  | .provision r => Sys2Proof.Machine.execProvision r s
  | .keyOwner r => Sys2Proof.Machine.execKeyOwner r s
  | .keySafety r => Sys2Proof.Machine.execKeySafety r s
  | .revokeOwner r => Sys2Proof.Machine.execRevokeOwner r s
  | .revokeSafety r => Sys2Proof.Machine.execRevokeSafety r s
  | .advanceField r => Sys2Proof.Machine.execAdvanceField r s
  | .advanceReturn r => Sys2Proof.Machine.execAdvanceReturn r s
  | .sqTail a v t => Sys2Proof.Machine.execSqTail a v t s
  | .cqHead a v t => Sys2Proof.Machine.execCqHead a v t s
  | .queueEnable a v t => Sys2Proof.Machine.execQueueEnable a v t s
  | .queueDisable a v t => Sys2Proof.Machine.execQueueDisable a v t s
  | .copyIn c => Sys2Proof.Machine.execCopyIn c s
  | .copyOut c => Sys2Proof.Machine.execCopyOut c s
  | .tallyCommand c => Sys2Proof.Machine.execTallyCommand c s
  | .flag c => Sys2Proof.Machine.execFlag c s
  | .nop c => Sys2Proof.Machine.execNop c s
  | .perstN t => Sys2Proof.Machine.execPerstN t s
  | .flr fn t => Sys2Proof.Machine.execFlr fn t s
  | .d3hot fn t => Sys2Proof.Machine.execD3hot fn t s
  | .bar2Access a => Sys2Proof.Machine.execBar2Access a s
  | .verdictTraceDrop p t => Sys2Proof.Machine.execVerdictTraceDrop p t s
  | .cycle port o => Sys2Proof.Machine.execCycle port o s
  | .inputImage port o => Sys2Proof.Machine.execInputImage port o s
  | .feedbackFrame port drive o => Sys2Proof.Machine.execFeedbackFrame port drive o s
  | .phyPoll port up t => Sys2Proof.Machine.execPhyPoll port up t s
  | .syncMessage o => Sys2Proof.Machine.execSyncMessage o s
  | .syncTransmit port t => Sys2Proof.Machine.execSyncTransmit port t s
  | .holdover t => Sys2Proof.Machine.execHoldover t s
  | .frameStart chan t => Sys2Proof.Machine.execFrameStart chan t s
  | .frameEnd chan ok t => Sys2Proof.Machine.execFrameEnd chan ok t s
  | .packet o => Sys2Proof.Machine.execPacket o s
  | .spanComplete chan t => Sys2Proof.Machine.execSpanComplete chan t s
  | .capture unit rising t => Sys2Proof.Machine.execCapture unit rising t s
  | .pulse unit => Sys2Proof.Machine.execPulse unit s
  | .pps unit t => Sys2Proof.Machine.execPps unit t s
  | .tsuCapRead fn unit t => Sys2Proof.Machine.execTsuCapRead fn unit t s
  | .flit port o t => Sys2Proof.Machine.execFlit port o t s
  | .linkUp port o t => Sys2Proof.Machine.execLinkUp port o t s
  | .portDown port t => Sys2Proof.Machine.execPortDown port t s
  | .remoteRequest o => Sys2Proof.Machine.execRemoteRequest o s
  | .remoteTimeout id t => Sys2Proof.Machine.execRemoteTimeout id t s
  | .cdlOpen fn p v t => Sys2Proof.Machine.execCdlOpen fn p v t s
  | .cdlCtrl fn port v t => Sys2Proof.Machine.execCdlCtrl fn port v t s
  | .inBandStatus port word t => Sys2Proof.Machine.execInBandStatus port word t s
  | .blockLock port locked t => Sys2Proof.Machine.execBlockLock port locked t s
  | .pllRelock pll t => Sys2Proof.Machine.execPllRelock pll t s
  | .stepUp clk t => Sys2Proof.Machine.execStepUp clk t s
  | .d0 fn t => Sys2Proof.Machine.execD0 fn t s
  | .delayReq port t => Sys2Proof.Machine.execDelayReq port t s
  | .busTransition port o t => Sys2Proof.Machine.execBusTransition port o t s

end Sys2Proof.Machine
end

