-- ==== Sys2Proof/Safety.lean ====
section
/-! DEFINITION. The terms that statements about the package use: safe outputs, what two states have in common, and when a
register access reaches its register. -/

namespace Sys2Proof.Machine

/-! ### Outputs -/

/-- No stop-request output pair is driven energised while R338 asks it to be off. -/
def State.outputsSafe (s : State) : Bool :=
  (List.range 8).all fun n => !(s.pairOff n) || !((s.warden.outs.getD n {}).drvA || (s.warden.outs.getD n {}).drvB)

/-! ### Frames -/

/-- The pieces of the package's state: what a frame says of each is `State.sameIn`. -/
inductive Piece
  | time | fuses | dev | regs | latches | compl | loader | parts | fld | cores | sched | sync | warden | errs | rots | ints | ktl
  | hqs | fif | links | arrs | engs | round | tdcSeen | traceQ | mem | host | fresh | queue
  deriving DecidableEq, Repr

/-- The warden without the levels of its output pairs and the pairs that records cover: R338 settles both at the end of every
command. -/
def Warden.still (w : Warden) : Warden :=
  { w with outs := w.outs.map fun o => { fault := o.fault }, mechs := w.mechs.map fun m => { m with accepted := 0 } }

/-- The Kettle without the instants since which domains are idle (R404) and cores wait (R278). -/
def Kettle.still (k : Kettle) : Kettle := { k with doms := k.doms.map fun d => { d with idleAt := 0, busy := false }, waitAt := [] }

/-- The links without what R479 settles once no partition runs: which ports carry traffic, and the routes. -/
def Links.still (l : Links) : Links := { l with ports := l.ports.map fun p => { p with carries := false }, routes := [], turning := [] }

/-- Two states have every byte outside the `n` bytes at `a`, and the poison of every line outside them, in common. -/
def State.memAs (u s : State) (a n : Nat) : Prop :=
  (∀ x, (x < a ∨ a + n ≤ x) → u.mem.get 0#8 x = s.mem.get 0#8 x)
  ∧ ∀ l, (64 * l + 64 ≤ a ∨ a + n ≤ 64 * l) → u.psn.get false l = s.psn.get false l

/-- Two states have every register held in `regs` in common, but for those listed. -/
def State.regsAs (u s : State) (l : List Nat) : Prop := ∀ o, o ∉ l → u.rd o = s.rd o

/-- Two states have a piece in common. -/
def State.sameIn (u s : State) : Piece → Prop
  | .time => u.time = s.time | .fuses => u.fuses = s.fuses | .dev => u.dev = s.dev | .regs => u.regsAs s []
  | .latches => u.hi = s.hi ∧ u.lo = s.lo | .compl => u.compl = s.compl | .loader => u.loader = s.loader
  | .parts => u.parts = s.parts | .fld => u.fld = s.fld | .cores => u.cores = s.cores | .sched => u.sched = s.sched
  | .sync => u.sync = s.sync | .warden => u.warden.still = s.warden.still | .errs => u.errs = s.errs | .rots => u.rots = s.rots
  | .ints => u.ints = s.ints | .ktl => u.ktl.still = s.ktl.still | .hqs => u.hqs = s.hqs | .fif => u.fif = s.fif
  | .links => u.links.still = s.links.still | .arrs => u.arrs = s.arrs | .engs => u.engs = s.engs | .round => u.round = s.round
  | .tdcSeen => u.tdcSeen = s.tdcSeen | .traceQ => u.traceQ = s.traceQ | .mem => u.memAs s 0 0 | .host => u.hostW = s.hostW
  | .fresh => u.fresh = s.fresh | .queue => u.pending = s.pending

/-- Two states have every piece in common but those listed. -/
def State.keeps (u s : State) (l : List Piece) : Prop := ∀ c, c ∉ l → u.sameIn s c

/-! ### Accesses -/

/-- A write that reaches its register: the endpoint ready, the access admitted, the register's function ready (R7, R426, R507). -/
abbrev State.takesWrite (s : State) (a : RegAcc) : Prop :=
  s.pcieUp = true ∧ s.unsupported a true = false ∧ s.regThere a.off = true

/-- A read that reaches its register. -/
abbrev State.takesRead (s : State) (a : RegAcc) : Prop :=
  s.pcieUp = true ∧ s.unsupported a false = false ∧ s.regThere a.off = true

/-- No fall-back decision waits: every command takes its own at its end (R329), so it holds in every state that a step leaves. -/
abbrev State.calm (s : State) : Prop := s.dev.fall = none

/-- A service of frame watchdog w for frame n at t brings no violation (R332, R334): none is awaited, or it is this one, in its
window. -/
abbrev State.wdDue (s : State) (w n t : Nat) : Prop :=
  s.wdExpects w = false ∨ ((s.wd w).expect = n ∧ (s.wdOpen w).1 ≤ t ∧ t < (s.wdOpen w).2)

/-- The record of mechanism m's entry has been accepted, and a hold or latch that has come since bars it (R192, R202). -/
def State.barred (s : State) (m : Nat) : Bool :=
  decide ((s.mr m).st = CSt.write) && decide ((s.mr m).outcome = 0) && decide ((s.mr m).acc = some true) && !s.mayCommit m s.round.b

/-- The verdicts of mechanism m in a half of core k's verdict buffer (R184). -/
def State.halfFor (s : State) (k half : Nat) (m : Mech) : List SelEntry :=
  let es := (List.range ((s.core k).fill.getD half 0)).map fun i =>
    ({ v := decVerdict (s.peek (halfBase k half + 16 * i) 16), source := k } : SelEntry)
  es.filter fun e => decide (m.ctxFirst ≤ e.v.ctx) && decide (e.v.ctx < m.ctxFirst + m.ctxCount)

/-- The partial list that a reduction of that half makes of them and the list before (R180 to R184). -/
def State.reducedList (s : State) (k half p : Nat) (m : Mech) : SelList :=
  let n := (s.core k).halfOf.getD half 0
  (mergeLists (s.goalOf p n m.num) (pieceLists (s.halfFor k half m) ++ (s.partList k n m.num).toList)).1

/-- The pieces that a trigger of R320 changes. -/
def trigPieces : List Piece := [.warden, .regs, .ints, .errs, .fresh, .mem, .tdcSeen]

/-- A slot of an interrupt source after one event (R392). -/
def ISlot.raised (x : ISlot) : ISlot :=
  match x.st with
  | .idle => { x with st := .pending }
  | .pending => x
  | .service => { x with second := true }

/-- No wait, standing monitor or channel looks at a tally word. -/
abbrev State.quiet (s : State) (w : TWord) : Prop :=
  (∀ x ∈ s.sync.waits, x.word ≠ w) ∧ (∀ m ∈ s.sync.mons, m.word ≠ w) ∧ ∀ h ∈ s.sync.chans, h.p ≠ w ∧ h.c ≠ w

/-- A tally operation that reaches its word and is not refused (R265, R268, R269, R297, R349): the dies out of reset, the issuer
not stalled, the reference resolved, the operation permitted and allowed, the word not poisoned. -/
abbrev State.tallyOk (s : State) (op : Nat) (r : TallyIn) (w : TWord) : Prop :=
  s.dev.up = true ∧ s.dev.warm = none ∧ s.stalled r.issuer = false ∧ s.resolve r.part r.tref = some w
  ∧ s.permitted w op r.operand = true ∧ (op < opTAKE ∨ r.issuer.waits = true) ∧ s.tallyAllowed r.part r.cls w op = true
  ∧ s.wordBad w = false

/-- Two states have the declared counters and every byte outside a tally word in common. -/
def State.wordAs (u s : State) (w : TWord) : Prop := u.sync.ctrs = s.sync.ctrs ∧ u.memAs s w.addr 8

/-- The pieces that a tally operation without waits and monitors changes. -/
def tallyPieces : List Piece := [.sync, .mem, .regs, .ktl, .hqs, .host, .ints]

/-- The pieces that the release of tasks changes: their queues, counts, trace records and error records. -/
def relPieces : List Piece := [.regs, .ints, .sched, .traceQ, .errs, .fresh, .mem, .tdcSeen]

/-- The next command of a queue of host commands is taken, well formed, and of a kind (R436, R439, R440). -/
abbrev State.takesHost (s : State) (c : HostIn) (op : Nat) : Prop :=
  s.hqTakes c.fn c.q = true ∧ (s.hq c.fn c.q).cqFull = false ∧ (s.hq c.fn c.q).ready = [] ∧ 64 ≤ c.bytes.length
  ∧ (decHCmd (c.bytes.take 64)).ok = true ∧ (decHCmd (c.bytes.take 64)).op = op

/-- A queue whose next command has been taken. -/
def HQueue.taken (x : HQueue) : HQueue := { x with head := (x.head + 1) % 2 ^ x.sqSize, counted := false }

/-- What a command's end leaves of its queue, no other queue changed: the command taken, and a completion with the status and result
posted where the command failed or asks for one (R438). -/
def State.answered (u s : State) (c : HostIn) (status result : Nat) : Prop :=
  let h := decHCmd (c.bytes.take 64)
  let x := s.hq c.fn c.q
  let t := (x.cqTail + 1) % 2 ^ x.cqSize
  (∀ i, i ≠ 8 * c.fn + c.q → u.hqs.getD i {} = s.hqs.getD i {})
  ∧ if status = hsOK ∧ h.notify = false then u.hq c.fn c.q = x.taken
    else u.hq c.fn c.q = { x.taken with cqTail := t, phase := if t = 0 then !x.phase else x.phase }
      ∧ u.hostW.head? = some { addr := s.rd64 (Reg.hifCqBaseLo c.fn c.q) + 16 * x.cqTail
                               data := HComp.bytes { cid := h.cid, status, head := x.taken.head, result } x.phase }

/-- The offset of a register that has no step of its own when it is written. -/
def Reg.plainOff (off : Nat) : Bool :=
  (decide (off < 0x100000) && off != Reg.glbResetCmd && off != Reg.glbLcCmd)
  || (decide (0x100000 ≤ off) && decide (off < 0x200000) && off != Reg.wdnCmd && off != Reg.bldCmd && off != Reg.errCmd
      && off != Reg.intSwSetG && !isHif off && (idx off (Reg.intSwSetP 0) 8 4).isNone && (idx off (Reg.intSrcState 0) 288 4).isNone
      && (idx off (Reg.intVec 0) 2048 4).isNone && (idx off (Reg.hifVtCtrl 0) 8 0x400).isNone
      && (idx off (Reg.cdlOpen 0) 8 4).isNone && (idx off (Reg.cdlCtrl 0) 4 0x100).isNone)
  || (decide (0x200000 ≤ off) && off != Reg.schFlagSet 0 && off != Reg.schFlagSet 1 && !Reg.amongDie off (Reg.synHostAdd 0 0) 8 0x10
      && !Reg.amongDie off (Reg.synHostRefHi 0 0) 8 0x10)

/-- Bit i of a register after a write (R6): 1 written to W1S sets it, 1 written to W1C clears it, RW takes the value, any other bit
keeps what it held. -/
def Reg.bitAfter (a : Reg.Access) (old v : Word) (i : Nat) : Bool :=
  if v.getLsbD i && a.w1s.getLsbD i then true
  else if v.getLsbD i && a.w1c.getLsbD i then false
  else if a.rw.getLsbD i then v.getLsbD i else old.getLsbD i

end Sys2Proof.Machine
end

