-- ==== Sys2Proof/Certificates/Slice0/Obligations.lean ====
section
/-! DEFINITION. The statements for the provers. A state is named s before a command and u after it; frames compare u with the
state that time's passage alone leaves (State.at). -/

open Sys2Proof Sys2Proof.Machine

/-- For every state whose queue has command c at its front and r behind it, step is exec of c on the state with queue r.
(95_what_each_step_holds.md) -/
def Obligations.StepRunsTheFrontCommand : Prop :=
  ∀ (c : Instr) (r : List Instr) (s : State), s.pending = c :: r → step s = exec c { s with pending := r }

/-- The model's choice of log entry 1: on an empty queue a step answers the same state. (95_what_each_step_holds.md) -/
def Obligations.EmptyQueueIdles : Prop :=
  ∀ s : State, s.pending = [] → step s = .next s

/-- Every command answers a next state in every state: no meaning faults or refuses (log entry 25). (95_what_each_step_holds.md) -/
def Obligations.NoCommandStops : Prop :=
  ∀ (c : Instr) (s : State), ∃ u, exec c s = .next u

/-- Whatever command runs in whatever state, no fall-back decision waits in the state it leaves: the command that takes one ends
with its warm reset. (14_safety_concept.md) -/
def Obligations.FallBacksAreTakenAtOnce : Prop :=
  ∀ (c : Instr) (s u : State), exec c s = .next u → u.calm

/-- From every state with safe outputs every step leads to a state with safe outputs: no pair is driven on either wire while it is
unnamed, a latch of R336 covers a mechanism that names it, its output fault is latched, or the warden state or cold reset
keeps every pair off. (14_safety_concept.md) -/
def Obligations.OutputsStaySafe : Prop :=
  ∀ s u : State, s.outputsSafe = true → step s = .next u → u.outputsSafe = true

/-- State.reset has safe outputs, every pair off on both wires. (14_safety_concept.md, 19_reset_and_bringup.md) -/
def Obligations.OutputsSafeAtReset : Prop :=
  State.reset.outputsSafe = true ∧ ∀ n, ((State.reset.warden.outs.getD n {}).drvA || (State.reset.warden.outs.getD n {}).drvB) = false

/-- At State.reset every register held in regs reads its reset value; the table's values stand at GLB_TP_STATUS, KTL_CAP,
BLD_CORE_OWNER and every CDL_CTRL; memory lists nothing, time is 0, no partition is configured, no Blend is active and the
package is held in reset. (23_register_index.md, 19_reset_and_bringup.md) -/
def Obligations.ResetRegisters : Prop :=
  (∀ o, State.reset.rd o = Reg.resetOf o) ∧ State.reset.rd Reg.glbTpStatus = 7#32 ∧ State.reset.rd Reg.ktlCap = 0x96#32
    ∧ (∀ n < 16, State.reset.rd (Reg.bldCoreOwner n) = 0xFFFFFFFF#32) ∧ (∀ n < 4, State.reset.rd (Reg.cdlCtrl n) = 1#32)
    ∧ State.reset.mem = [] ∧ State.reset.psn = [] ∧ State.reset.time = 0 ∧ (∀ p, (State.reset.prun p).st = .unconfigured)
    ∧ State.reset.loader.active = none ∧ State.reset.dev.up = false ∧ State.reset.pending = []

/-- A write that reaches a register without a step of its own completes normally and gives each bit what its access type says (RW
the value, W1C cleared by 1, W1S set by 1, RO and RC as before); a read that reaches a register returns what it holds, and
clears the bits of access RC as part of the same read. No other register, no byte of memory and no other piece of the state
changes. (R6) -/
def Obligations.AccessTypes : Prop :=
  (∀ (a : RegAcc) (v t : Nat) (s : State), s.calm → s.takesWrite a → a.bar = .bar0 → Reg.plainOff a.off = true →
      Reg.isRwLo a.off = false → (4 ≤ a.off → Reg.isRwLo (a.off - 4) = false) →
      ∃ u, exec (.registerWrite a v t) s = .next u
        ∧ (∀ i < 32, (u.rd a.off).getLsbD i = Reg.bitAfter (Reg.accessOf a.off) ((s.at t).rd a.off) (BitVec.ofNat 32 v) i)
        ∧ u.regsAs (s.at t) [a.off] ∧ u.compl = some {} ∧ u.keeps (s.at t) [.regs, .compl])
  ∧ (∀ (a : RegAcc) (t : Nat) (s : State), s.calm → s.takesRead a → a.bar = .bar0 → Reg.isLo a.off = false →
      ∃ u, exec (.readClear a t) s = .next u
        ∧ u.compl = some { data := toLE 4 ((s.at t).seen a.fn a.off).toNat }
        ∧ (∀ i < 32, (u.rd (Reg.homeOf a.off)).getLsbD i =
            (((s.at t).rd (Reg.homeOf a.off)).getLsbD i && !(Reg.accessOf a.off).rc.getLsbD i))
        ∧ u.regsAs (s.at t) [Reg.homeOf a.off] ∧ u.keeps (s.at t) [.regs, .compl])

/-- A read of a _LO register returns its value and latches the _HI half for the reading function alone, leaving every other latch;
a read of a _HI register with a latch of that function returns the latched value and keeps the latch; a write of a writable
_LO half changes no register and waits; the write of _HI puts both halves in force. (00_scope.md) -/
def Obligations.WideRegisters : Prop :=
  (∀ (a : RegAcc) (t : Nat) (s : State), s.calm → s.takesRead a → a.bar = .bar0 → Reg.isLo a.off = true →
      idx a.off (Reg.snsTsuCapLo 0) 8 8 = none →
      ∃ u, exec (.loReadLatch a t) s = .next u ∧ u.compl = some { data := toLE 4 ((s.at t).view a.off).toNat } ∧ u.hi.get none (16 * (a.off + 4) + a.fn) = some ((s.at t).view (a.off + 4))
        ∧ (∀ k, k ≠ 16 * (a.off + 4) + a.fn → u.hi.get none k = s.hi.get none k)
        ∧ (∀ w, ((s.at t).latchHi a.fn (a.off + 4) w).seen a.fn (a.off + 4) = w))
  ∧ (∀ (a : RegAcc) (t : Nat) (s : State) (h : Word), s.calm → s.takesRead a → a.bar = .bar0 → Reg.isLo a.off = false →
      s.hi.get none (16 * a.off + a.fn) = some h →
      ∃ u, exec (.readClear a t) s = .next u ∧ u.compl = some { data := toLE 4 h.toNat } ∧ u.hi = s.hi)
  ∧ (∀ (a : RegAcc) (v t : Nat) (s : State), s.calm → s.takesWrite a → a.bar = .bar0 → Reg.plainOff a.off = true →
      Reg.isRwLo a.off = true →
      ∃ u, exec (.registerWrite a v t) s = .next u ∧ u.lo.get none a.off = some (BitVec.ofNat 32 v)
        ∧ u.keeps (s.at t) [.latches, .compl])
  ∧ (∀ (a : RegAcc) (v t : Nat) (s : State) (l : Word), s.calm → s.takesWrite a → a.bar = .bar0 → Reg.plainOff a.off = true →
      Reg.isRwLo a.off = false → 4 ≤ a.off → Reg.isRwLo (a.off - 4) = true → s.lo.get none (a.off - 4) = some l →
      ∃ u, exec (.registerWrite a v t) s = .next u ∧ u.rd (a.off - 4) = l
        ∧ u.rd a.off = Reg.written (Reg.accessOf a.off) ((s.at t).rd a.off) (BitVec.ofNat 32 v)
        ∧ u.regsAs (s.at t) [a.off, a.off - 4] ∧ u.lo.get none (a.off - 4) = none)

/-- With the endpoint ready, an access that is not 32 bits wide, not aligned to 4 bytes, or by a function that does not reach the
register completes with an unsupported-request status, and nothing but the completion and time changes. (00_scope.md,
23_register_index.md) -/
def Obligations.UnsupportedAccesses : Prop :=
  (∀ (a : RegAcc) (v t : Nat) (s : State), s.calm → s.pcieUp = true → s.unsupported a true = true →
      ∃ u, exec (.registerWrite a v t) s = .next u ∧ u.compl = some { ur := true } ∧ u.keeps (s.at t) [.compl])
  ∧ (∀ (a : RegAcc) (t : Nat) (s : State), s.calm → s.pcieUp = true → s.unsupported a false = true →
      ∃ u, exec (.readClear a t) s = .next u ∧ u.compl = some { ur := true } ∧ u.keeps (s.at t) [.compl])
  ∧ (∀ (a : RegAcc) (s : State) (w : Bool), (a.width ≠ 4 ∨ a.off % 4 ≠ 0) → s.unsupported a w = true)

/-- POR_N driven low, or COLD written to GLB_RESET_CMD by the physical function, holds the package: no partition is configured, no
Blend is active, registers stand at their reset values, every output is off, fuses stay but for a pending life-cycle state
that takes effect, the retirement list stays unless it is to be cleared, the HBM stacks keep their bytes outside the staging
slots and every other byte reads zero. COLD holds the reset for 1 ms. (19_reset_and_bringup.md, 12_memory.md) -/
def Obligations.ColdReset : Prop :=
  let Held (v u : State) : Prop :=
    u.dev.up = false ∧ u.time = v.time ∧ (∀ o, u.rd o = Reg.resetOf o) ∧ u.loader.active = none ∧ u.loader.run = none
    ∧ (∀ p, (u.prun p).st = .unconfigured)
    ∧ u.fuses = (match v.dev.lcNext with | some x => { v.fuses with lc := x } | none => v.fuses)
    ∧ u.errs.list = (if v.errs.clear then [] else v.errs.list) ∧ u.outputsSafe = true ∧ u.dev.ready = 0
    ∧ ∀ x, u.mem.get 0#8 x =
        if x < 0x0005F8000000 ∨ (0x000600000000 ≤ x ∧ x < 0x000C00000000) then v.mem.get 0#8 x else 0#8
  (∀ (t : Nat) (s : State), ∃ u, exec (.coldReset t) s = .next u ∧ Held (s.at t) u ∧ u.dev.coldCmd = false)
  ∧ (∀ (t : Nat) (s : State), s.calm → s.pcieUp = true →
      ∃ u, exec (.cold 0 t) s = .next u ∧ Held (s.at t) u ∧ u.dev.coldCmd = true ∧ u.dev.heldTo = (s.at t).time + 1000000)

/-- POR_N_RELEASE out of a cold reset starts device time at 0, latches PKG_SEL, locks every PLL and starts the warden in NORMAL,
or CHANNEL_FAIL where a channel fails its start-up test. READY sets exactly its readiness bit when a function passes, or its
failure bit when an interface or link fails; HBM_INIT zeroes every byte of its stack and no other byte, and sets the stack's
bit. (19_reset_and_bringup.md, 12_memory.md) -/
def Obligations.PowerUp : Prop :=
  (∀ (o : PorIn) (s : State), s.calm → s.dev.up = false → (s.dev.coldCmd = true → s.dev.heldTo ≤ o.t) →
      ∃ u, exec (.porNRelease o) s = .next u ∧ u.time = 0 ∧ u.dev.up = true ∧ u.dev.pkgSel = o.pkgSel % 8
        ∧ u.warden.state = (if o.chA && o.chB then .normal else .channelFail) ∧ u.ktl.lock = 2 ^ 28 - 1
        ∧ u.keeps s [.time, .dev, .regs, .warden, .ktl, .rots, .fresh])
  ∧ (∀ (b t : Nat) (s : State), s.calm → s.dev.up = true → readyKnown b = true → b ≠ rbHBM → b ≠ rbHBM + 1 →
      bit s.dev.ready b = false → bit s.dev.failed b = false → (32 ≤ b ∨ s.dev.warm = none) →
      ∃ u, exec (.ready b (.pass []) t) s = .next u ∧ u.dev = { s.dev with ready := s.dev.ready ||| 2 ^ b }
        ∧ u.keeps (s.at t) [.dev, .regs, .ints, .fresh])
  ∧ (∀ (b t : Nat) (s : State), s.calm → s.dev.up = true → readyKnown b = true → 18 ≤ b → s.dev.restart = false →
      bit s.dev.ready b = false → bit s.dev.failed b = false → (32 ≤ b ∨ s.dev.warm = none) →
      ∃ u, exec (.ready b .fail t) s = .next u ∧ u.dev = { s.dev with failed := s.dev.failed ||| 2 ^ b }
        ∧ u.keeps (s.at t) [.dev, .regs, .ints, .fresh, .errs, .mem])
  ∧ (∀ (k t : Nat) (s : State), s.calm → k < 2 → s.dev.up = true → s.dev.warm = none → s.dev.trained.getD k false = true →
      s.dev.hbmLost.getD k false = true →
      ∃ u, exec (.hbmInit k t) s = .next u ∧ u.dev.ready = s.dev.ready ||| 2 ^ (rbHBM + k)
        ∧ u.keeps (s.at t) [.dev, .mem]
        ∧ ∀ x, u.mem.get 0#8 x = if x < 0x000C00000000 ∧ stackOf x = k then 0#8 else (s.at t).mem.get 0#8 x)

/-- WARM asserts a warm reset by command: the planner bits of GLB_READY clear, GLB_RESET_CAUSE shows cause 1 with a result of
accepted, and no partition stays RUNNING. WARM_RESET_RELEASE ends it no earlier than 99 µs after its first source and relocks
every planner PLL. PLANNER_RESTART, with every planner function ready, ends the fall-back restart. (19_reset_and_bringup.md,
14_safety_concept.md) -/
def Obligations.WarmReset : Prop :=
  (∀ (t : Nat) (s : State), s.calm → s.pcieUp = true → s.dev.warm = none →
      ∃ u, exec (.warm 0 t) s = .next u ∧ u.dev.warm = some (s.at t).time ∧ u.dev.hold = false
        ∧ u.dev.ready = s.dev.ready / 2 ^ 32 * 2 ^ 32 ∧ u.dev.warmCause = 1 ∧ u.dev.cmdResult = 0
        ∧ u.dev.warmCount = min 65535 (s.dev.warmCount + 1) ∧ ∀ p < 8, (u.prun p).st ≠ .running)
  ∧ (∀ (t w : Nat) (s : State), s.calm → s.dev.warm = some w → s.dev.hold = false →
      ∃ u, exec (.warmResetRelease t) s = .next u ∧ u.dev.warm = none ∧ u.ktl.lock = s.ktl.lock ||| planPlls
        ∧ u.time = (s.at (max t (w + 99000))).time ∧ w + 99000 ≤ u.time + 7)
  ∧ (∀ (t : Nat) (s : State), s.calm → s.dev.up = true → s.dev.warm = none → s.dev.restart = true → s.plannerReady = true →
      ∃ u, exec (.plannerRestart t) s = .next u ∧ u.dev.restart = false ∧ ∀ p < 8, (u.prun p).restart = false)

/-- PART for a partition that is RUNNING or STOPPED, and not the field master beside another running partition with mechanisms, is
accepted: CMD_RESULT 0, the partition's commit digest and first epoch are cleared, its cores hold no candidate and no DMA
item, and none of its array runs goes on. For a partition in another state, or the master then, CMD_RESULT is 1 and nothing
changes but the command register, the completion and time. (19_reset_and_bringup.md) -/
def Obligations.PartitionReset : Prop :=
  (∀ (p t : Nat) (s : State), s.calm → s.pcieUp = true → p < 8 → ((s.prun p).st = .running ∨ (s.prun p).st = .stopped) →
      (s.master = some p → ∀ x ∈ s.cfg.hasMechs.map (·.num), x = p ∨ (s.prun x).st ≠ .running) → s.dev.warm = none →
      ∃ u, exec (.part 0 p t) s = .next u ∧ u.dev.cmdResult = 0 ∧ (u.prun p).crc = 0#32 ∧ (u.prun p).runEpoch = none
        ∧ (∀ k ∈ (s.pcfg p).cores, k < s.cores.length → (u.core k).slots = [] ∧ (u.core k).dma.item = none)
        ∧ ∀ d < 2, ∀ r ∈ (u.arr d).runs, r.part ≠ p)
  ∧ (∀ (p t : Nat) (s : State), s.calm → s.pcieUp = true → p < 8 → (s.prun p).st ≠ .running → (s.prun p).st ≠ .stopped →
      ∃ u, exec (.part 0 p t) s = .next u ∧ u.dev = { s.dev with cmdResult := 1 } ∧ u.regsAs (s.at t) [Reg.glbResetCmd]
        ∧ u.keeps (s.at t) [.dev, .regs, .compl])

/-- A request of an operation in progress, with nothing running and its bytes read, ends with the code of its first failing check,
or FUSE where a burn does not verify, or OK; GO reads 0 again. With OK the fuses take the operation's effect: PROVISION and
KEY_OWNER program an owner slot, KEY_SAFETY a safety slot, REVOKE_OWNER and REVOKE_SAFETY burn a revocation fuse, and
PROVISION, ADVANCE_FIELD and ADVANCE_RETURN hold both planner dies with the new state pending. With any other code the fuses
stay. (19_reset_and_bringup.md) -/
def Obligations.LifeCycleRequests : Prop :=
  ∀ (r : LcIn) (s : State) (op : Nat) (c : Instr), s.calm →
    (op, c) ∈ [(1, Instr.provision r), (2, .keyOwner r), (3, .keySafety r), (4, .revokeOwner r), (5, .revokeSafety r),
               (6, .advanceField r), (7, .advanceReturn r)] →
    bit (s.rd Reg.glbLcCmd).toNat 0 = true → (∀ x ∈ s.parts, x.st ≠ .running) → s.loader.run = none →
    r.ok = true → 512 ≤ r.bytes.length → leAt r.bytes 4 1 = op →
    let slot := leAt r.bytes 5 1
    let code := if lcCheck s.fuses s.dev.nonce r.bytes ≠ lcOK then lcCheck s.fuses s.dev.nonce r.bytes else if r.burn then lcOK else lcFUSE
    let prog (l : List KeySlot) := l.set slot { l.getD slot {} with digest := some (sha384 (slice r.bytes 0x40 96)) }
    let rev (l : List KeySlot) := l.set slot { l.getD slot {} with revoked := true }
    ∃ u, exec c s = .next u ∧ u.dev.lcStatus = code ∧ bit (u.rd Reg.glbLcCmd).toNat 0 = false
      ∧ (code ≠ lcOK → u.fuses = s.fuses ∧ u.dev.lcNext = s.dev.lcNext)
      ∧ (code = lcOK → u.fuses = (if op = 1 ∨ op = 2 then { s.fuses with owner := prog s.fuses.owner }
            else if op = 3 then { s.fuses with safety := prog s.fuses.safety }
            else if op = 4 then { s.fuses with owner := rev s.fuses.owner }
            else if op = 5 then { s.fuses with safety := rev s.fuses.safety } else s.fuses))
      ∧ (code = lcOK → op = 1 ∨ op = 6 ∨ op = 7 → u.dev.lcNext ≠ none ∧ u.dev.warm ≠ none ∧ u.dev.hold = true)

/-- With no steeping running, no lock, HBM stack 0 ready and a legal BLD_LEN, STEEP_FULL while no partition is RUNNING, and
STEEP_PART of a STOPPED partition, start phase FETCH for the Blend at BLD_SRC: the partitions concerned read STEEPING. ABORT
of a steeping in progress marks it to end at the next phase boundary. No memory changes. (02_blend.md) -/
def Obligations.SteepingBegins : Prop :=
  (∀ (t : Nat) (s : State), s.calm → s.pcieUp = true → s.readyBit rbWARDEN = true → s.dev.locked = false → s.loader.run = none →
      (∀ x ∈ s.parts, x.st ≠ .running) → s.parts.length = 8 → s.readyBit rbHBM = true → lenOk (s.rd Reg.bldLen).toNat = true →
      ∃ u x, exec (.steepFull 0 t) s = .next u ∧ u.loader.run = some x ∧ x.phase = 1 ∧ x.partial_ = false
        ∧ x.len = (s.rd Reg.bldLen).toNat ∧ x.src = s.rd64 Reg.bldSrcLo ∧ x.abort = false ∧ u.loader.active = s.loader.active
        ∧ (∀ p < 8, (u.prun p).st = .steeping) ∧ u.memAs (s.at t) 0 0)
  ∧ (∀ (p t : Nat) (s : State), s.calm → s.pcieUp = true → s.readyBit rbWARDEN = true → s.dev.locked = false → s.loader.run = none →
      p < 8 → s.parts.length = 8 → (s.prun p).st = .stopped → s.readyBit rbHBM = true → lenOk (s.rd Reg.bldLen).toNat = true →
      ∃ u x, exec (.steepPart 0 p t) s = .next u ∧ u.loader.run = some x ∧ x.phase = 1 ∧ x.partial_ = true ∧ x.target = p
        ∧ x.len = (s.rd Reg.bldLen).toNat ∧ x.abort = false ∧ (u.prun p).st = .steeping
        ∧ (∀ q, q ≠ p → u.prun q = s.prun q) ∧ u.memAs (s.at t) 0 0)
  ∧ (∀ (t : Nat) (s : State) (x : Steep), s.calm → s.pcieUp = true → s.readyBit rbWARDEN = true → s.loader.run = some x →
      ∃ u, exec (.abort 0 t) s = .next u ∧ u.loader.run = some { x with abort := true } ∧ u.loader.code = cOK
        ∧ u.parts = s.parts ∧ u.memAs (s.at t) 0 0)

/-- At the end of a phase of a steeping that no ABORT marks: FETCH stores the Blend in the free staging slot and goes on to AUTH,
where the source is aligned and the bytes arrived; AUTH, PARSE, SAFETY and CLAIMS go on to the next phase where their checks
pass, and else end the steeping with the rejection's code; DISTRIBUTE puts the new configuration in force with code OK and
leaves every partition that it configures STOPPED. A marked steeping ends with ABORTED at any boundary, and the active
configuration stays. (02_blend.md) -/
def Obligations.SteepingPhases : Prop :=
  (∀ (b : List Byte) (t : Nat) (s : State) (x : Steep), s.calm → s.loader.run = some x → x.phase = 1 → x.abort = false →
      x.src % 256 = 0 → x.len ≤ b.length →
      ∃ u, exec (.fetch b true t) s = .next u ∧ u.loader.run = some { x with phase := 2, blob := b.take x.len }
        ∧ (∀ i < x.len, u.mem.get 0#8 (s.loader.freeSlot + i) = b.getD i 0#8) ∧ u.memAs (s.at t) s.loader.freeSlot x.len
        ∧ u.regsAs (s.at t) [Reg.memPoisonWritten 0] ∧ u.keeps (s.at t) [.loader, .mem, .regs])
  ∧ (∀ (t : Nat) (s : State) (x : Steep), s.calm → s.loader.run = some x → x.phase = 2 → x.abort = false →
      ∃ u, exec (.auth t) s = .next u
        ∧ match authPhase (s.at t).lenv ((s.at t).hdrEnv x) x.blob with
          | none => u.loader.run = some { x with phase := 3, locked := (s.at t).imagesOf x } ∧ u.keeps (s.at t) [.loader]
          | some r => u.loader.run = none ∧ u.loader.code = r.code ∧ u.loader.last = 2 ∧ u.loader.active = s.loader.active)
  ∧ (∀ (t : Nat) (s : State) (x : Steep), s.calm → s.loader.run = some x → x.phase = 3 → x.abort = false →
      ∃ u, exec (.parse t) s = .next u
        ∧ match parsePhase (s.at t).lenv x.partial_ x.target x.blob with
          | .ok c => u.loader.run = some { x with phase := 4, cfg := some c } ∧ u.keeps (s.at t) [.loader]
          | .error r => u.loader.run = none ∧ u.loader.code = r.code ∧ u.loader.last = 3 ∧ u.loader.active = s.loader.active)
  ∧ (∀ (t : Nat) (s : State) (x : Steep), s.calm → s.loader.run = some x → x.phase = 4 → x.abort = false →
      ∃ u, exec (.safety t) s = .next u
        ∧ match safetyPhase (s.at t).lenv x.partial_ x.target x.blob (x.cfg.getD {}) with
          | .ok c => u.loader.run = some { x with phase := 5, cfg := some c } ∧ u.keeps (s.at t) [.loader]
          | .error r => u.loader.run = none ∧ u.loader.code = r.code ∧ u.loader.last = 4 ∧ u.loader.active = s.loader.active)
  ∧ (∀ (t : Nat) (s : State) (x : Steep), s.calm → s.loader.run = some x → x.phase = 5 → x.abort = false →
      ∃ u, exec (.claims t) s = .next u
        ∧ match claimsPhase x.partial_ x.target x.blob (x.cfg.getD {}) with
          | none => u.loader.run = some { x with phase := 6 } ∧ u.keeps (s.at t) [.loader]
          | some r => u.loader.run = none ∧ u.loader.code = r.code ∧ u.loader.last = 5 ∧ u.loader.active = s.loader.active)
  ∧ (∀ (t : Nat) (s : State) (x : Steep), s.calm → s.loader.run = some x → x.phase = 6 → x.abort = false → s.parts.length = 8 →
      x.partial_ = false →
      ∃ u, exec (.distribute true t) s = .next u ∧ u.loader.active = some (x.cfg.getD {}) ∧ u.loader.run = none
        ∧ u.loader.code = cOK ∧ u.loader.last = 7 ∧ u.loader.slotB = !s.loader.nextA
        ∧ ∀ p < 8, (u.prun p).st = if ((x.cfg.getD {}).part p).isSome then .stopped else .unconfigured)
  ∧ (∀ (t : Nat) (s : State) (x : Steep) (c : Instr), s.calm → s.loader.run = some x → x.abort = true →
      (x.phase, c) ∈ [(2, Instr.auth t), (3, .parse t), (4, .safety t), (5, .claims t), (6, .distribute true t)] →
      ∃ u, exec c s = .next u ∧ u.loader.run = none ∧ u.loader.code = cABORTED ∧ u.loader.active = s.loader.active)

/-- START of a STOPPED partition with a legal T0 and its preconditions met answers OK, and the partition is RUNNING from frame 0
at T0, which is BLD_T0 or, where that is zero, the first multiple of P at least 100 µs later. STOP of a RUNNING partition at
or after T0, when it is not the field master beside another running partition with mechanisms, makes the frame whose window
holds the write its last; no other partition's state changes, and no byte of memory. (02_blend.md) -/
def Obligations.StartAndStop : Prop :=
  (∀ (p t : Nat) (s : State), s.calm → s.pcieUp = true → s.readyBit rbWARDEN = true → p < 8 → s.parts.length = 8 →
      s.loader.run = none → (s.prun p).st = .stopped →
      let v := (s.at t).wr Reg.bldCmd (BitVec.ofNat 32 (p * 16 + 4))
      let t0 := if s.rd64 Reg.bldT0Lo = 0 then alignUp (t + 100000) (s.period p) else s.rd64 Reg.bldT0Lo
      t0 % 1000 = 0 → t + 100000 ≤ t0 → v.startCheck p t0 = cOK →
      ∃ u, exec (.start 0 p t) s = .next u ∧ (u.prun p).st = .running ∧ (u.prun p).t0 = t0 ∧ (u.prun p).opened = 0
        ∧ (u.prun p).lastFrame = none ∧ u.loader.code = cOK)
  ∧ (∀ (p t : Nat) (s : State), s.calm → s.pcieUp = true → s.readyBit rbWARDEN = true → p < 8 → s.parts.length = 8 →
      s.loader.run = none → s.running p = true → (s.prun p).lastFrame = none → (s.prun p).issued = false →
      (s.prun p).resetting = false → (s.prun p).restart = false → (s.prun p).t0 ≤ t →
      (s.master = some p → ∀ x ∈ s.cfg.hasMechs.map (·.num), x = p ∨ (s.prun x).st ≠ .running) →
      ∃ u, exec (.stop 0 p t) s = .next u ∧ u.prun p = { s.prun p with lastFrame := some (s.frameAt p t) }
        ∧ (∀ q, q ≠ p → u.prun q = s.prun q) ∧ u.loader.code = cOK ∧ u.memAs (s.at t) 0 0)

/-- A phase point of a partition that runs it happens at its instant and counts one frame more: FRAME_WINDOW opens the next window
(plus the lateness) and raises the partition's FRAME source, NET_START starts a run of every FRAME network on each of its dies
whose array is up, BUILD_START and OUT count theirs. For a partition that is not the field master nothing changes but that
count, the tasks that the phase flag releases, and what the named commands start. (01_architecture.md, 10_task_scheduling.md,
09_array_operations.md) -/
def Obligations.FrameStarts : Prop :=
  (∀ (p late : Nat) (s : State), s.calm → s.runsHead p (s.prun p).opened = true →
      ∃ u, exec (.frameWindow p late) s = .next u ∧ (u.prun p).opened = (s.prun p).opened + 1
        ∧ u.time = (s.at (s.winStart p (s.prun p).opened + late)).time ∧ (u.ints.slot (isrcPart p 1) 0).st ≠ .idle
        ∧ (s.master ≠ some p → (∀ q, q ≠ p → u.prun q = s.prun q)
            ∧ u.keeps (s.at (s.winStart p (s.prun p).opened + late)) ([.parts, .dev, .warden] ++ relPieces)))
  ∧ (∀ (p late : Nat) (s : State), s.calm → s.runsHead p (s.prun p).nNet = true → (s.prun p).nNet < (s.prun p).opened →
      s.arrs.length = 2 → s.master ≠ some p →
      let n := (s.prun p).nNet
      let t := s.phaseAt p n (s.pcfg p).frame.netStart + late
      ∃ u, exec (.netStart p late) s = .next u ∧ (u.prun p).nNet = n + 1 ∧ u.time = (s.at t).time
        ∧ (∀ x ∈ (s.pcfg p).nets, x.tally = false → ∀ d < 2, x.onDie d = true → s.arrUp d = true →
            ∃ r ∈ (u.arr d).runs, r.part = p ∧ r.net = x.net ∧ r.frame = n ∧ r.trig = t)
        ∧ (∀ q, q ≠ p → u.prun q = s.prun q) ∧ u.keeps (s.at t) ([.parts, .arrs, .ktl, .fif] ++ relPieces))
  ∧ (∀ (p late : Nat) (s : State), s.calm → s.runsHead p (s.prun p).nBuild = true → (s.prun p).nBuild < (s.prun p).opened →
      s.master ≠ some p →
      let t := s.phaseAt p (s.prun p).nBuild (s.pcfg p).frame.buildStart + late
      ∃ u, exec (.buildStart p late) s = .next u ∧ u.prun p = { s.prun p with nBuild := (s.prun p).nBuild + 1 } ∧ u.time = (s.at t).time
        ∧ (∀ q, q ≠ p → u.prun q = s.prun q) ∧ u.keeps (s.at t) ([.parts] ++ relPieces))
  ∧ (∀ (p : Nat) (s : State), s.calm → s.runsTail p (s.prun p).nOut = true → (s.prun p).nOut < (s.prun p).opened →
      let t := s.phaseAt p (s.prun p).nOut (s.pcfg p).frame.out
      ∃ u, exec (.out p) s = .next u ∧ u.prun p = { s.prun p with nOut := (s.prun p).nOut + 1 } ∧ u.time = (s.at t).time
        ∧ (∀ q, q ≠ p → u.prun q = s.prun q) ∧ u.keeps (s.at t) ([.parts] ++ relPieces))

/-- BUILD_START of the field master, served in its window and with a builder in service, starts the build of the epoch after the
last one from the bank of the frame's parity, with result 1 while a DONE word is missing, and no store READY. BUILD_SEAL at
least 2 µs before B seals a build of valid banks and leaves READY exactly those stores in service that have the epoch before
and a matching sum; from an invalid bank it seals nothing and the result is 4. SEAL_DEADLINE gives an unsealed build result 2.
READY_DEADLINE judges a sealed build; where every store that takes part is READY nothing else changes. (03_clearance_field.md) -/
def Obligations.FieldBuild : Prop :=
  (∀ (p late : Nat) (s : State), s.calm → s.runsHead p (s.prun p).nBuild = true → (s.prun p).nBuild < (s.prun p).opened →
      s.master = some p → (s.builderOf 0).isSome = true →
      let n := (s.prun p).nBuild
      let t := s.phaseAt p n (s.pcfg p).frame.buildStart + late
      s.wdDue 2 n t →
      ∃ u b, exec (.buildStart p late) s = .next u ∧ u.prun p = { s.prun p with nBuild := n + 1 } ∧ u.fld.build = some b
        ∧ b.frame = n ∧ b.b = s.phaseAt p n (s.pcfg p).frame.publish ∧ b.epoch = (s.fld.epoch + 1) % 65536 ∧ b.sealed = false
        ∧ (if s.doneFired 0 (n % 2) && s.doneFired 1 (n % 2) then b.result = 0 ∨ b.result = 4 else b.result = 1)
        ∧ (∀ x ∈ u.fld.stores, x.ready = false) ∧ u.fld.epoch = s.fld.epoch ∧ u.fld.valid = s.fld.valid)
  ∧ (∀ (bad : List Nat) (t : Nat) (s : State) (b : FldBuild), s.calm → s.fld.build = some b → b.sealed = false → b.result = 0 →
      (s.at t).time + 2000 ≤ b.b →
      ∃ u, exec (.buildSeal bad t) s = .next u ∧
        if (s.at t).bankBad 0 (b.frame % 2) || (s.at t).bankBad 1 (b.frame % 2) then
          u.fld = { s.fld with build := some { b with result := 4 } } ∧ u.keeps (s.at t) [.fld, .regs]
        else u.fld.build = some ((s.at t).sealBuild b).build ∧ u.fld.epoch = s.fld.epoch
          ∧ (s.fld.stores.length = 16 → ∀ g < 16, s.storeUp g = true →
              (u.fstore g).ready = (!bad.contains g && (!(s.fstore g).excluded || (s.fstore g).copied)))
          ∧ u.keeps (s.at t) [.fld, .mem, .regs])
  ∧ (∀ (s : State) (b : FldBuild), s.calm → s.fld.build = some b → b.sealed = false → b.result = 0 →
      ∃ u, exec .sealDeadline s = .next u ∧ u.fld = { s.fld with build := some { b with result := 2 } }
        ∧ u.keeps (s.at (b.b - 2000)) [.fld])
  ∧ (∀ (s : State) (b : FldBuild), s.calm → s.fld.build = some b → b.sealed = true → b.result = 0 → b.judged = false →
      (∀ g < 16, s.storeUp g = true → (s.fstore g).ready = true ∨ ((s.fstore g).excluded = true ∧ (s.fstore g).copied = false)) →
      let any := (List.range 16).any fun g => s.storeUp g && (s.fstore g).ready
      ∃ u, exec .readyDeadline s = .next u
        ∧ u.fld = { s.fld with build := some { b with judged := true, result := if any then 0 else 3 } }
        ∧ u.keeps (s.at (b.b - 1000)) [.fld])

/-- PUBLISH of the field master, served in its window: a build of its frame that is sealed, judged and has result 0 puts its epoch
in force, open and valid, and opens the next build; a build that is missing, unsealed or has another result closes the epoch
in force and keeps EPOCH, and counts in FLD_LATE_COUNT. Either way the boundary is passed: the count of publish points
advances by one. (03_clearance_field.md, 01_architecture.md) -/
def Obligations.Publish : Prop :=
  (∀ (p late : Nat) (s : State) (b : FldBuild), s.calm → s.master = some p → s.runsHead p s.fld.nPub = true →
      s.fld.nPub < (s.prun p).opened → s.fld.build = some b → b.frame = s.fld.nPub → b.sealed = true → b.judged = true → b.result = 0 →
      s.wdDue 3 s.fld.nPub (s.phaseAt p s.fld.nPub (s.pcfg p).frame.publish - 8 + late) →
      ∃ u, exec (.publish late) s = .next u ∧ u.fld.epoch = b.epoch ∧ u.fld.valid = true ∧ u.fld.closed = false
        ∧ u.fld.build = none ∧ u.fld.nPub = s.fld.nPub + 1 ∧ u.fld.frame = b.frame ∧ u.fld.total = b.total
        ∧ u.fld.humans = b.humans ∧ u.fld.result = 0
        ∧ u.time = (s.at (s.phaseAt p s.fld.nPub (s.pcfg p).frame.publish + late)).time)
  ∧ (∀ (p late : Nat) (s : State), s.calm → s.master = some p → s.runsHead p s.fld.nPub = true →
      s.fld.nPub < (s.prun p).opened →
      (∀ b, s.fld.build = some b → b.frame = s.fld.nPub → b.result ≠ 0 ∨ b.sealed = false) →
      s.wdDue 3 s.fld.nPub (s.phaseAt p s.fld.nPub (s.pcfg p).frame.publish - 8 + late) →
      ∃ u, exec (.publish late) s = .next u ∧ u.fld.epoch = s.fld.epoch ∧ u.fld.closed = true ∧ u.fld.build = none
        ∧ u.fld.nPub = s.fld.nPub + 1 ∧ u.fld.result ≠ 0
        ∧ u.rd (Reg.fldLateCount 0) = satAdd ((s.at (s.phaseAt p s.fld.nPub (s.pcfg p).frame.publish + late)).rd (Reg.fldLateCount 0)) 1)

/-- PERSON_BOX_BUILD on an enabled core of a running die gives it boxes of the epoch in force where its store serves it, and else
counts one stale read of its store, and changes nothing else. STORE_COPY of a store in service that receives a copy leaves in
it the bytes of the lowest store that holds the epoch, but for its control word, changes no byte outside it, and marks the
copy complete where the digest matches, READY too where a build is sealed that it then holds. LAST_ADMISSION leaves no
candidate work of the partition up to its frame in any queue of either die. (03_clearance_field.md, 05_collision_checking.md,
10_task_scheduling.md) -/
def Obligations.StoreUse : Prop :=
  (∀ (core t : Nat) (s : State), s.calm → core < 128 → s.cores.length = 128 → s.coreEn core = true → s.pdUp (core / 64) = true →
      s.fld.valid = true →
      ∃ u, exec (.personBoxBuild core t) s = .next u ∧
        if s.storeServes core then (u.core core).boxes = some s.fld.epoch ∧ (∀ k, k ≠ core → u.core k = s.core k)
          ∧ u.keeps (s.at t) [.cores]
        else u.rd (Reg.fldStaleCount (core / 64) (core / 8 % 8)) = satAdd ((s.at t).rd (Reg.fldStaleCount (core / 64) (core / 8 % 8))) 1
          ∧ u.regsAs (s.at t) [Reg.fldStaleCount (core / 64) (core / 8 % 8)] ∧ u.keeps (s.at t) [.regs])
  ∧ (∀ (store t g : Nat) (ok : Bool) (s : State), s.calm → (s.fstore store).copying = true → s.storeUp store = true →
      s.refStore = some g → Tab.wf 0#8 s.mem = true →
      ∃ u, exec (.storeCopy store ok t) s = .next u
        ∧ u.fstore store = (if ok then { s.fstore store with copying := false, copied := true, ready := s.fld.build.any (·.sealed) } else s.fstore store)
        ∧ (∀ i < 0x1800000, (i < stControl ∨ stControl + 8 ≤ i) →
            u.mem.get 0#8 (storeBase store + i) = (s.at t).mem.get 0#8 (storeBase g + i))
        ∧ (∀ i < 8, u.mem.get 0#8 (storeBase store + stControl + i) = (s.at t).mem.get 0#8 (storeBase store + stControl + i))
        ∧ u.memAs (s.at t) (storeBase store) 0x1800000 ∧ u.keeps (s.at t) [.fld, .mem])
  ∧ (∀ (p : Nat) (s : State), s.calm → s.sched.length = 2 → s.runsTail p (s.prun p).nAdm = true → (s.prun p).nAdm < (s.prun p).opened →
      let n := (s.prun p).nAdm
      let t := s.phaseAt p n ((s.pcfg p).frame.publish + (s.pcfg p).frame.P) - 1000
      ∃ u, exec (.lastAdmission p) s = .next u ∧ u.prun p = { s.prun p with nAdm := n + 1 }
        ∧ (∀ d < 2, (u.sch d).latticeLeft p n = []) ∧ u.time = (s.at t).time
        ∧ u.keeps (s.at t) ([.parts] ++ relPieces))

/-- SELECT_END of a partition's frame counts it and, where the master frame whose check window closes has had no round, no round
runs and the COMMIT-watchdog's service is due, starts its round; where none starts, only the released tasks change. ROUND_LATE
abandons the decisions of a round that has not begun its writes: the round shows LATE, counts in SEL_LATE, begins its writes,
and no mechanism is left picking, checking or pairing. COMMIT_END ends a round that serves the frame and is not complete with
no partition's committed frame changed, and issues the Saucers of a partition whose last frame it is.
(07_selection_and_commit.md, 10_task_scheduling.md) -/
def Obligations.CommitRoundStarts : Prop :=
  (∀ (p late : Nat) (s : State), s.calm → s.runsTail p (s.prun p).nSel = true → (s.prun p).nSel < (s.prun p).opened →
      (s.master = none ∨ s.round.busy = true) →
      let t := s.phaseAt p (s.prun p).nSel (s.pcfg p).frame.selectEnd + late
      ∃ u, exec (.selectEnd p late) s = .next u ∧ u.prun p = { s.prun p with nSel := (s.prun p).nSel + 1 }
        ∧ u.time = (s.at t).time ∧ u.keeps (s.at t) ([.parts] ++ relPieces))
  ∧ (∀ (p q f late : Nat) (s : State), s.calm → s.runsTail p (s.prun p).nSel = true → (s.prun p).nSel < (s.prun p).opened →
      s.master = some q → s.frameClosing q (s.closeOf p (s.prun p).nSel) = some f → (p = q ∨ p ∈ s.mechParts) →
      s.round.next ≤ f → s.round.busy = false →
      let t := s.phaseAt p (s.prun p).nSel (s.pcfg p).frame.selectEnd + late
      s.wdDue 6 f t →
      ∃ u, exec (.selectEnd p late) s = .next u ∧ (u.prun p).nSel = (s.prun p).nSel + 1 ∧ u.round.busy = true ∧ u.round.frame = f
        ∧ u.round.next = f + 1 ∧ u.round.late = false ∧ u.round.abandoned = false
        ∧ u.round.noEpoch = (s.fld.closed || !s.fld.valid)
        ∧ u.round.parts = s.mechParts.filterMap fun x => (s.frameClosing x (s.closeOf p (s.prun p).nSel)).map fun n => (x, n))
  ∧ (∀ s : State, s.calm → s.round.busy = true → s.round.group = 0 →
      ∃ u, exec .roundLate s = .next u ∧ u.round.late = true ∧ u.round.abandoned = true ∧ u.round.busy = true ∧ u.round.group = 1
        ∧ (∀ m < 16, (u.mr m).st ≠ .pick ∧ (u.mr m).st ≠ .check ∧ (u.mr m).st ≠ .pair)
        ∧ u.rd Reg.selLate = satAdd ((s.at (s.roundEnd - 12000)).rd Reg.selLate) 1
        ∧ u.keeps (s.at (s.roundEnd - 12000)) [.round, .regs, .sched, .ints, .tdcSeen, .mem])
  ∧ (∀ (p : Nat) (s : State), s.calm → s.runsTail p (s.prun p).nEnd = true → (s.prun p).nEnd < (s.prun p).opened →
      s.round.busy = true → (p, (s.prun p).nEnd) ∈ s.round.parts → (∀ q, (s.prun q).lastFrame = none) →
      ∃ u, exec (.commitEnd p) s = .next u ∧ (u.prun p).nEnd = (s.prun p).nEnd + 1 ∧ u.round.busy = false ∧ u.round.group = 0
        ∧ (∀ q, (u.prun q).commit = (s.prun q).commit)
        ∧ u.time = (s.at (s.phaseAt p (s.prun p).nEnd (s.pcfg p).frame.commitEnd)).time)
  ∧ (∀ (p : Nat) (s : State), s.calm → s.runsTail p (s.prun p).nEnd = true → (s.prun p).nEnd < (s.prun p).opened →
      s.round.busy = false → (s.prun p).lastFrame = some (s.prun p).nEnd →
      ∃ u, exec (.commitEnd p) s = .next u ∧ (u.prun p).nEnd = (s.prun p).nEnd + 1
        ∧ ((u.prun p).issued = true ∨ (u.prun p).st = .stopped) ∧ u.round = s.round)

/-- TRY_RESULT frees the slots of both verdicts of a mechanism in CHECK; equal verdicts without a collision leave it with a record
of the candidate, in PAIR or already in WRITE, and unequal ones count in SEL_DISAGREE and open a confirmation. COMMIT_RECORD
answers the record in a mechanism's mailbox: without poison, with every condition of the record met, not barred by a latch, a
drive, a hold that began after the try or the separation monitor, it is accepted and is the next record of the warden, but for
one already in force; else it counts in SEL_REFUSED and the plan in force stays. (07_selection_and_commit.md,
14_safety_concept.md) -/
def Obligations.TriesAndRecords : Prop :=
  (∀ (m t : Nat) (s : State) (q : PartCfg) (mc : Mech) (e : SelEntry) (a b : Nat × CSlot), s.calm → s.mech? m = some (q, mc) →
      (s.mr m).list.entries[(s.mr m).pos]? = some e → s.inRound m = true → s.round.busy = true → s.round.group = 0 → (s.mr m).st = .check →
      s.doneSlot ikREPLAY m e.v.candId e.v.ctx = some a → s.doneSlot ikRECHECK m e.v.candId e.v.ctx = some b →
      ∃ u, exec (.tryResult m t) s = .next u ∧ (u.core a.1).slot a.2.n = none ∧ (u.core b.1).slot b.2.n = none
        ∧ (a.2.verdict.common = b.2.verdict.common → a.2.verdict.has vfCOLLIDED = false →
            (u.mr m).st = .pair ∨ (u.mr m).st = .write)
        ∧ (a.2.verdict.common ≠ b.2.verdict.common →
            u.rd Reg.selDisagree = satAdd ((s.at t).rd Reg.selDisagree) 1
            ∧ ∃ c, c.mech = m ∧ c.replay = a.1 ∧ c.recheck = b.1 ∧ c.source = e.source ∧ u.errs.confs = s.errs.confs ++ [c]))
  ∧ (∀ (m t : Nat) (s : State) (q : PartCfg) (mc : Mech) (x : CommitRec), s.calm → s.mech? m = some (q, mc) → s.round.busy = true →
      s.round.group = 1 → (s.mr m).rec_ = some x → (s.mr m).acc = none → m < s.warden.mechs.length →
      let v := (s.at t).roll m t
      let a := recBase m (s.mr m).frame
      let b := v.peek a 0x4000
      let r := decCommit b
      ∃ u, exec (.commitRecord m t) s = .next u ∧
        if !v.poisoned a 0x4000 && v.recOk m mc b r && !v.motionBarred m r && !((s.mr m).outcome == 0 && !v.mayCommit m r.b)
          && !(r.kind != 3 && v.ssmAgainst m r) then
          (u.mr m).acc = some true
            ∧ (u.wm m).next = (if r.b ≤ v.time ∧ (v.wm m).held = false then (v.wm m).next else some r)
            ∧ (u.wm m).cur = (v.wm m).cur ∧ (∀ n, n ≠ m → (u.wm n).next = (s.wm n).next ∧ (u.wm n).held = (s.wm n).held)
            ∧ u.keeps (s.at t) [.round, .warden]
        else u.rd Reg.selRefused = satAdd ((s.at t).rd Reg.selRefused) 1 ∧ (u.mr m).acc ≠ some true
            ∧ (u.wm m).next = (v.wm m).next ∧ (u.wm m).cur = (v.wm m).cur ∧ (u.wm m).held = (v.wm m).held
            ∧ u.keeps (s.at t) [.round, .warden, .regs, .ints, .tdcSeen, .mem])

/-- WRITE_GROUP without a round, or in group 1 while an answer of the warden is awaited, changes nothing; else group 1 ends and
group 2 begins, group 2 writes the plan tables and group 3 begins, and group 3 writes the start states, after which a round
that takes effect begins group 4. Group 4 ends the round: the committed frame of each of its partitions is the frame that the
round committed for it, and the round is no longer busy. In every group an entry whose record was accepted before its
mechanism was held, and that the hold bars, is no longer committed. (07_selection_and_commit.md, 01_architecture.md) -/
def Obligations.WriteGroups : Prop :=
  (∀ (t : Nat) (s : State), s.calm → s.round.busy = false → ∃ u, exec (.writeGroup t) s = .next u ∧ u.keeps (s.at t) [])
  ∧ (∀ (t : Nat) (s : State), s.calm → s.round.busy = true → s.round.group = 1 → (∀ m < 16, s.barred m = false) →
      ∃ u, exec (.writeGroup t) s = .next u
        ∧ u.round = (if s.round.mechs.any (fun x => x.rec_.isSome && x.acc == none && decide (x.st = CSt.write)) then s.round
                     else { s.round with group := 2 })
        ∧ u.keeps (s.at t) [.round])
  ∧ (∀ (t m : Nat) (s : State), s.calm → s.round.busy = true → m < 16 → s.barred m = true →
      ∃ u, exec (.writeGroup t) s = .next u ∧ (u.mr m).outcome = 6
        ∧ (s.round.group = 1 → (u.mr m).acc = none ∧ u.keeps (s.at t) [.round, .mem, .regs]))
  ∧ (∀ (t : Nat) (s : State), s.calm → s.round.busy = true → s.round.group = 2 →
      ∃ u, exec (.writeGroup t) s = .next u ∧ u.round.group = 3 ∧ u.round.busy = true
        ∧ (∀ m < 16, u.mr m = if s.barred m then { s.mr m with outcome := 6 } else s.mr m)
        ∧ (∀ q ∈ s.cfg.parts, q.num < s.parts.length → (u.prun q.num).plan = true)
        ∧ (∀ p, u.prun p = s.prun p ∨ u.prun p = { s.prun p with plan := true })
        ∧ u.keeps (s.at t) [.round, .mem, .ktl, .regs, .parts, .fresh])
  ∧ (∀ (t : Nat) (s : State), s.calm → s.round.busy = true → s.round.group = 3 → s.round.abandoned = false → s.round.noEpoch = false →
      ∃ u, exec (.writeGroup t) s = .next u ∧ u.round.group = 4 ∧ u.round.busy = true
        ∧ (∀ m < 16, u.mr m = if s.barred m then { s.mr m with outcome := 6 } else s.mr m)
        ∧ u.keeps (s.at t) ([.round, .cores] ++ relPieces))
  ∧ (∀ (t : Nat) (s : State), s.calm → s.round.busy = true → s.round.group = 4 → (s.round.parts.map (·.1)).Nodup →
      (∀ e ∈ s.round.parts, e.1 < s.parts.length ∧ (s.prun e.1).lastFrame ≠ some e.2) → s.wdDue 7 s.round.frame (s.at t).time →
      ∃ u, exec (.writeGroup t) s = .next u ∧ u.round.busy = false ∧ u.round.group = 0
        ∧ (∀ e ∈ s.round.parts, (u.prun e.1).commit = some (e.2 % 2 ^ 32))
        ∧ (∀ q, (∀ e ∈ s.round.parts, e.1 ≠ q) → (u.prun q).commit = (s.prun q).commit)
        ∧ u.keeps (s.at t) [.round, .parts, .warden, .regs, .ints])

/-- CONFIRM frees its slot and judges the confirmation that its verdict belongs to: equal to the REPLAY verdict it suspects the
RECHECK core, equal to the RECHECK verdict the REPLAY core, and queues one REPEAT item on the suspect alone; equal to neither
it ends the confirmation and counts one event without a unit. REPEAT on the suspect ends the confirmation, and where its
verdict differs from the CONFIRM verdict isolates the core with a lasting fault. (16_fault_handling.md,
07_selection_and_commit.md) -/
def Obligations.Confirmations : Prop :=
  (∀ (core slot t : Nat) (s : State) (x : CSlot) (c : Confirm), s.calm → (s.core core).slot slot = some x → x.item.kind = ikCONFIRM →
      x.ph = .done → s.confOf x = some c → c.suspect = none →
      ∃ u, exec (.confirm core slot t) s = .next u
        ∧ (x.verdict.common = c.vReplay →
            (u.core core).slot slot = none
            ∧ u.errs.confs = s.errs.confs.erase c ++ [{ c with core := core, vConf := x.verdict.common, suspect := some c.recheck }]
            ∧ u.keeps (s.at t) [.cores, .sched, .errs])
        ∧ (x.verdict.common ≠ c.vReplay → x.verdict.common = c.vRecheck →
            (u.core core).slot slot = none
            ∧ u.errs.confs = s.errs.confs.erase c ++ [{ c with core := core, vConf := x.verdict.common, suspect := some c.replay }]
            ∧ u.keeps (s.at t) [.cores, .sched, .errs])
        ∧ (x.verdict.common ≠ c.vReplay → x.verdict.common ≠ c.vRecheck →
            ((s.at t).count .unattrib ekUNATTRIB (s.at t).time).2.1 < (s.cfg.faults.limits 0).1 →
            u.errs.confs = s.errs.confs.erase c ∧ u.rd Reg.errUnattrib = satAdd ((s.at t).rd Reg.errUnattrib) 1))
  ∧ (∀ (core slot t : Nat) (s : State) (x : CSlot) (c : Confirm), s.calm → core < 128 → (s.core core).slot slot = some x →
      x.item.kind = ikREPEAT → x.ph = .done → s.confOf x = some c → c.suspect = some core →
      ∃ u, exec (.repeat_ core slot t) s = .next u ∧ u.errs.confs = s.errs.confs.erase c
        ∧ (x.verdict.common ≠ c.vConf →
            (u.faultSt (.unit (coreUnit core) 0)).phase = .isolate ∧ u.rd Reg.errLasting = satAdd ((s.at t).rd Reg.errLasting) 1))

/-- DEADLINE of a mechanism that is not held, at 1 µs before the horizon of its last record, holds it and shows the trigger; where
no latch covers the mechanism it issues its Saucer in its own category with cause 1; held or past, nothing changes.
STANDSTILL, T_s after the issue, marks the Saucer at rest; a partition that neither stops nor resets keeps its state, and one
that does becomes STOPPED once every mechanism stands still under its hold. (14_safety_concept.md, 07_selection_and_commit.md) -/
def Obligations.DeadlineAndStandstill : Prop :=
  (∀ (m : Nat) (s : State) (r : CommitRec), s.calm → s.lastRec m = some r → (s.mech? m).isSome = true →
      let t := r.h - 1000
      ∃ u, exec (.deadline m) s = .next u ∧
        if s.time ≤ t ∧ (s.wm m).held = false then
          (u.wm m).held = true ∧ (s.latched m = false → (u.wm m).issued = true ∧ (u.wm m).cause = 1 ∧ (u.wm m).cat = (s.msafe m).cat)
            ∧ u.warden.trigCause = 1 ∧ u.warden.trigMechs = 2 ^ m ∧ u.warden.trigTime = tick t
            ∧ (∀ n, n ≠ m → (u.wm n).held = (s.wm n).held)
            ∧ u.keeps (s.at t) [.warden, .regs, .ints, .errs, .fresh, .mem, .tdcSeen]
        else u.keeps s [])
  ∧ (∀ (m : Nat) (s : State) (q : PartCfg) (mc : Mech), s.calm → s.mech? m = some (q, mc) → (s.wm m).issued = true →
      (s.wm m).atRest = false →
      ∃ u, exec (.standstill m) s = .next u ∧ (u.wm m).atRest = true ∧ (u.wm m).s1At = none ∧ (u.wm m).held = (s.wm m).held
        ∧ u.time = (s.at ((s.wm m).iss + 2000 * s.tHalf m)).time
        ∧ ((s.prun q.num).issued = false ∧ (s.prun q.num).resetting = false →
            u.keeps (s.at ((s.wm m).iss + 2000 * s.tHalf m)) [.warden])
        ∧ ((s.prun q.num).st = .running → ((s.prun q.num).issued = true ∨ (s.prun q.num).resetting = true) → (s.wm m).held = true →
            (∀ x ∈ (s.pcfg q.num).mechs, x.num = m ∨ ((s.wm x.num).held = true ∧ (s.wm x.num).atRest = true)) →
            (u.prun q.num).st = .stopped))

/-- ADMISSION on a core whose engines do not run, or that has no hand-off record and no dispatch entry waiting, changes nothing.
With a LATTICE item of the epoch and window in force at the head of its dispatch slot, admitted by the time partition and the
core, a free slot and fetch credits for its primitive, it gives the least free slot to the item's next candidate and advances
the item, or serves it whole when that was its last candidate. No register and no byte of memory changes.
(04_candidate_generation.md, 10_task_scheduling.md) -/
def Obligations.Admissions : Prop :=
  (∀ (core t : Nat) (s : State), s.calm →
      (s.coreRuns core = false ∨ ((s.core core).handQ = [] ∧ (s.sch (core / 64)).slots.getD (core % 64) [] = [])) →
      ∃ u, exec (.admission core t) s = .next u ∧ u.keeps (s.at t) [])
  ∧ (∀ (core t a id : Nat) (s : State) (i : Item) (l : List Item) (m : Mech), s.calm → s.coreRuns core = true →
      s.cores.length = 128 → s.sched.length = 2 → (s.core core).handQ = [] → (s.sch (core / 64)).slots.getD (core % 64) [] = i :: l →
      i.kind = tkLATTICE → (s.at t).admits i.cls = true → s.takesKind core i.kind = true → (s.pcfg i.part).mechOf i.ctx = some m →
      i.epoch = s.fld.epoch → (s.at t).inWindow core i.part i.frame = true → (s.prun i.part).nAdm ≤ i.frame →
      (s.at t).nextCand i (s.pcfg i.part) m = some (id, a) →
      let x := (s.at t).slotFor core i (s.pcfg i.part) m id a
      (s.core core).roomFor i.cls = true → (s.core core).lines + x.lines ≤ 256 →
      ∃ u, exec (.admission core t) s = .next u ∧ (u.core core).slots = (s.core core).slots ++ [x]
        ∧ (∀ k, k ≠ core → u.core k = s.core k)
        ∧ (u.sch (core / 64)).slots.getD (core % 64) [] =
            (if 1 < i.n then { i with first := i.first + 1, n := i.n - 1, cost := i.cost - 1 } :: l else l)
        ∧ u.keeps (s.at t) [.cores, .sched])

/-- PRIMITIVE_FETCH on a running core of a slot in FETCH, no earlier one of its stack outstanding, moves it to BIND, or gives it
the forced POISON verdict where a line of its primitive is poisoned; while an earlier one is outstanding nothing changes.
SWEEP_ENTRY takes a slot in BIND at its instant, where its start state is that of its frame or it is a confirmation, its
partition's plan table stands, at most one candidate is in CHECK, its start block is not poisoned and no class S candidate
waits before it: it is in CHECK with its joint values, or with a pose outside the axis limits has the forced LIMIT verdict. A
stale hand-off record loses its slot instead and is counted; while a slice runs on the core nothing changes.
(04_candidate_generation.md, 05_collision_checking.md) -/
def Obligations.FetchAndSweep : Prop :=
  (∀ (core slot t : Nat) (s : State) (x : CSlot), s.calm → s.coreRuns core = true → (s.core core).slot slot = some x → x.ph = .fetch →
      ∃ u, exec (.primitiveFetch core slot t) s = .next u ∧
        if (s.core core).fetchesBefore x then u.keeps (s.at t) []
        else if x.hand.isNone && (s.at t).poisoned x.addr (64 * x.lines) then
          (u.core core).slot slot =
              some { x with poison := true, ph := .done, verdict := forcedVerdict vfPOISON x.candId x.ctx x.epoch x.extra }
            ∧ u.keeps (s.at t) [.cores, .regs, .ints, .errs, .fresh, .mem, .tdcSeen]
        else (u.core core).slot slot = some { x with ph := .bind } ∧ u.keeps (s.at t) [.cores])
  ∧ (∀ (core slot t : Nat) (s : State) (x : CSlot) (m : Mech), s.calm → s.coreRuns core = true → (s.core core).slot slot = some x →
      (s.pcfg x.item.part).mechOf x.ctx = some m → x.ph = .bind → s.slicing (core / 64) (core % 64) = false → x.staleHand = true →
      ∃ u, exec (.sweepEntry core slot t) s = .next u ∧ (u.core core).slot slot = none
        ∧ u.rd (Reg.swpStaleHandoff (core / 64)) = satAdd ((s.at t).rd (Reg.swpStaleHandoff (core / 64))) 1
        ∧ u.regsAs (s.at t) [Reg.swpStaleHandoff (core / 64)] ∧ u.keeps (s.at t) [.cores, .regs])
  ∧ (∀ (core slot t : Nat) (s : State) (x : CSlot) (m : Mech), s.calm → s.coreRuns core = true → (s.core core).slot slot = some x →
      (s.pcfg x.item.part).mechOf x.ctx = some m → x.ph = .bind → s.slicing (core / 64) (core % 64) = false → x.staleHand = false →
      (x.confirms || (s.at t).bound x.ctx x.frame) = true → (s.prun x.item.part).plan = true →
      ((s.core core).slots.filter fun (y : CSlot) => decide (y.ph = .check)).length ≤ 1 →
      (x.cls = clsS ∨ ∀ y ∈ (s.core core).slots, y.ph = .bind → y.cls ≠ clsS) →
      (x.confirms || !(s.at t).poisoned (ctxBase x.ctx) 128) = true →
      let y : CSlot := if x.confirms then { x with poses := (s.at t).confPoses x }
        else { x with poses := (s.at t).posesOf m x, seed := ((s.at t).padSeed m x).2 }
      ∃ u, exec (.sweepEntry core slot t) s = .next u ∧ u.keeps (s.at t) [.cores, .regs] ∧
        if ((s.at t).placeOf y m).isNone then
          (u.core core).slot slot =
              some { y with ph := .done, at_ := (s.at t).time, verdict := forcedVerdict vfLIMIT x.candId x.ctx x.epoch x.extra }
            ∧ u.rd (Reg.swpLimitCount (core / 64)) = satAdd ((s.at t).rd (Reg.swpLimitCount (core / 64))) 1
        else (u.core core).slot slot = some { y with ph := .check, at_ := (s.at t).time })
  ∧ (∀ (core slot t : Nat) (s : State), s.calm → s.slicing (core / 64) (core % 64) = true →
      ∃ u, exec (.sweepEntry core slot t) s = .next u ∧ u.keeps (s.at t) [])

/-- VERDICT on a running core ends the tests of a slot in CHECK: with the store not serving the slot's epoch the forced TRUNCATED
verdict and a stale read counted; with person boxes of the epoch the verdict that the tests of its placed poses give; without
boxes nothing changes. COST_SCORE takes a DONE verdict of the window's work while its half has room: the slot is free, the
half one longer, and, where no trace of it is refused into a log ring, the verdict stands in it with its cost.
(05_collision_checking.md, 03_clearance_field.md, 07_selection_and_commit.md) -/
def Obligations.Verdicts : Prop :=
  (∀ (core slot t : Nat) (s : State) (x : CSlot) (m : Mech), s.calm → s.coreRuns core = true → (s.core core).slot slot = some x →
      (s.pcfg x.item.part).mechOf x.ctx = some m → x.ph = .check →
        let judged := match (s.at t).placeOf x m with
          | none => forcedVerdict vfLIMIT x.candId x.ctx x.epoch x.extra
          | some l => (runTests ((s.at t).chkEnv core x.item.part x.frame) m ((s.at t).timed x.item.part x.frame m.durUs l)).verdict x.candId x.ctx s.fld.epoch x.extra
      ∃ u, exec (.verdict core slot t) s = .next u ∧
        if s.storeServes core = false ∨ x.epoch ≠ s.fld.epoch then
          (u.core core).slot slot = some { x with ph := .done, verdict := forcedVerdict vfTRUNCATED x.candId x.ctx x.epoch x.extra }
            ∧ u.rd (Reg.fldStaleCount (core / 64) (core / 8 % 8)) = satAdd ((s.at t).rd (Reg.fldStaleCount (core / 64) (core / 8 % 8))) 1
            ∧ u.keeps (s.at t) [.cores, .regs, .ints, .tdcSeen]
        else if (s.core core).boxes = some s.fld.epoch then
          (u.core core).slot slot = some { x with ph := .done, verdict := judged }
            ∧ u.keeps (s.at t) [.cores, .regs, .ints, .errs, .fresh, .mem, .tdcSeen, .fld]
        else u.keeps (s.at t) [])
  ∧ (∀ (core slot t : Nat) (s : State) (x : CSlot) (m : Mech), s.calm → s.coreRuns core = true → (s.core core).slot slot = some x →
      (s.pcfg x.item.part).mechOf x.ctx = some m → x.ph = .done → x.inRow = true → (s.core core).takesScore x.frame = true →
      (s.core core).fill.length = 2 →
      let h := x.frame % 2
      let f := (s.core core).fill.getD h 0
      let cost := costOf (s.goalOf x.item.part x.frame x.mech) x.verdict x.seed m.axes (x.poses.getD 8 [])
      ∃ u, exec (.costScore core slot t) s = .next u ∧ (u.core core).slot x.n = none ∧ (u.core core).fill.getD h 0 = f + 1
        ∧ (u.core core).fill.getD (1 - h) 0 = (s.core core).fill.getD (1 - h) 0
        ∧ (s.cfg.faults.log = 0 ∨ (s.at t).vtOn x.item.part 0 = false →
            u.peek (halfBase core h + 16 * f) 16 = ({ x.verdict with cost } : Verdict).bytes
            ∧ u.memAs (s.at t) (halfBase core h + 16 * f) 16)
        ∧ u.keeps (s.at t) [.cores, .regs, .mem, .traceQ, .ints, .errs, .fresh])

/-- REDUCTION on a running core of a partition empties a verdict-buffer half that is full, or whose window has closed, and the
core then owes a merge; where no error record goes to a log ring, the partial list of each mechanism that has verdicts in it
is the list of both. Any other half stays. MERGE of the frame whose check window closed last, once nothing of it is left to
reduce and SELECT_END has not come, makes the retained list of every mechanism of the partition stand for that frame, the
merge of the partial lists, and no core owes a merge any more. (07_selection_and_commit.md) -/
def Obligations.ReduceAndMerge : Prop :=
  (∀ (core half t : Nat) (s : State) (q : PartCfg), s.calm → s.cfg.coreOwner core = some q → s.coreRuns core = true → half < 2 →
      let f := (s.core core).fill.getD half 0
      let n := (s.core core).halfOf.getD half 0
      ∃ u, exec (.reduction core half t) s = .next u ∧
        if 0 < f ∧ (f = 12288 ∨ (s.at t).closedWindow q.num n = true) then
          (u.core core).fill.getD half 0 = 0 ∧ (u.core core).fill.getD (1 - half) 0 = (s.core core).fill.getD (1 - half) 0
            ∧ (u.core core).owes = true
            ∧ (s.cfg.faults.log = 0 → (q.mechs.map (·.num)).Nodup → ∀ m ∈ q.mechs, (s.at t).halfFor core half m ≠ [] →
                u.peek (partBase core n m.num) 512 = listBytes (n % 2 ^ 32) m.num (s.epochOf q.num n) (s.goalOf q.num n m.num) false
                  ((s.at t).reducedList core half q.num m))
            ∧ u.keeps (s.at t) [.cores, .mem, .regs, .ints, .errs, .fresh, .tdcSeen, .sched, .engs, .rots, .traceQ, .hqs, .host]
        else u.keeps (s.at t) [])
  ∧ (∀ (p t c : Nat) (s : State), s.calm → s.checkFrame p (s.at t).time = some c → 0 < c → (s.prun p).nSel ≤ c - 1 →
      s.runsTail p (c - 1) = true → (s.pcfg p).mechs ≠ [] → (∀ k ∈ (s.pcfg p).cores, (s.core k).reduced (c - 1) = true) →
      let q := s.pcfg p
      ∃ u, exec (.merge p t) s = .next u ∧ (∀ m ∈ q.mechs, (m.num, c - 1) ∈ u.round.stands)
        ∧ (s.cfg.faults.log = 0 → (q.mechs.map (·.num)).Nodup → (∀ m ∈ q.mechs, m.num < 16) → (∀ k ∈ q.cores, k < 128) →
            ∀ m ∈ q.mechs, u.peek (listBase m.num (c - 1)) 512 = listBytes ((c - 1) % 2 ^ 32) m.num (s.epochOf q.num (c - 1))
              (s.goalOf q.num (c - 1) m.num) false ((s.at t).mergeRow q (c - 1) m.num).2)
        ∧ (∀ k ∈ q.cores, (u.core k).owes = false) ∧ u.round = { s.round with stands := u.round.stands }
        ∧ u.keeps (s.at t) [.cores, .mem, .regs, .ints, .errs, .fresh, .tdcSeen, .sched, .engs, .rots, .round, .ktl, .traceQ, .hqs, .host])

/-- SOLVE_START on a running engine with a host core takes up the frame whose check window is open and waits for its start state,
or with it and before the deadline begins INIT of the first seed. SOLVER_STEP with time left goes on from EVAL to ASSEMBLE to
FACTOR to SOLVE to the first trial; at the deadline the step returns the best iterate with the DEADLINE flag and the solving
of the frame ends. SMOOTHING takes the first waiting result and makes one trajectory of it, or where it cannot be smoothed or
its padding is too large counts it. HANDOFF takes the first trajectory, and where its host core takes it in time its record
stands in that core's scratchpad and waits for admission, else it is counted late. (06_trajectory_solver.md) -/
def Obligations.SolverRuns : Prop :=
  (∀ (i t n k : Nat) (s : State) (q : PartCfg) (c : SolverCtx) (v : Solving), s.calm → s.privOf i = some (q, c) →
      s.checkFrame q.num (s.at t).time = some n → (s.at t).solving c.ctx = some v → s.engRuns i = true → s.nextHost q i = some k →
      s.runsTail q.num n = true → ((s.eng i).busy = false ∨ (s.eng i).wait = true) → s.solved c.ctx n = false → s.engs.length = 32 →
      ∃ u, exec (.solveStart i t) s = .next u
        ∧ ((s.at t).bound c.ctx n = false → (u.eng i).busy = true ∧ (u.eng i).wait = true ∧ (u.eng i).part = q.num
            ∧ (u.eng i).ctx = c.ctx ∧ (u.eng i).frame = n ∧ (u.eng i).host = some k ∧ (u.eng i).epoch = s.epochOf q.num n
            ∧ (∀ j, j ≠ i → u.eng j = s.eng j) ∧ u.keeps (s.at t) [.engs])
        ∧ ((s.at t).bound c.ctx n = true → v.c.seeds ≠ [] → (s.at t).time < (s.at t).solveBy v n →
            (u.eng i).busy = true ∧ (u.eng i).wait = false ∧ (u.eng i).step = .init ∧ (u.eng i).seed = 0 ∧ (u.eng i).iter = 0
            ∧ (u.eng i).ctx = c.ctx ∧ (u.eng i).frame = n ∧ (u.eng i).host = some k
            ∧ (u.eng i).cur.x = ((s.at t).seed v (v.c.seeds.getD 0 0) n).2.1
            ∧ (∀ j, j ≠ i → u.eng j = s.eng j) ∧ u.keeps (s.at t) [.engs, .regs]))
  ∧ (∀ (i cols t : Nat) (s : State) (v : Solving) (a b : SStep), s.calm → (s.at t).solving (s.eng i).ctx = some v →
      s.engRuns i = true → (s.eng i).busy = true → (s.eng i).wait = false → s.engs.length = 32 → (s.eng i).step = a →
      (a, b) ∈ [(SStep.eval, SStep.assemble), (.assemble, .factor), (.factor, .solve), (.solve, .trial)] → 2 * v.img.n ≤ cols →
      ∃ u, exec (.solverStep i cols t) s = .next u ∧ (∀ j, j ≠ i → u.eng j = s.eng j) ∧
        if (s.at t).time < (s.at t).solveBy v (s.eng i).frame then
          (u.eng i).step = b ∧ (u.eng i).iter = (s.eng i).iter ∧ (u.eng i).busy = true ∧ (u.eng i).results = (s.eng i).results
            ∧ u.keeps (s.at t) [.engs, .regs, .mem, .fld, .fresh]
        else (u.eng i).busy = false ∧ (u.eng i).ended = some ((s.eng i).ctx, (s.eng i).frame)
            ∧ (∃ r, (u.eng i).results = (s.eng i).results ++ [r] ∧ r.ev = (s.eng i).best ∧ r.iters = (s.eng i).bestIt
                ∧ r.flags.testBit 2 = true) ∧ u.keeps (s.at t) [.engs, .regs, .ints, .tdcSeen, .mem, .fld, .fresh])
  ∧ (∀ (i t : Nat) (s : State) (r : SResult) (l : List SResult) (v : Solving), s.calm → (s.eng i).results = r :: l →
      (s.at t).solving r.ctx = some v → s.stageRuns i = true →
      let f := smoothFrom (axLims v.m) v.h r.k0 (bySegment v.m.axes v.img.kseg r.ev.x.jerks)
      let pad := smoothPad v.m.axes v.img.kseg v.h (axLims v.m) v.img.lever f.knots
      ∃ u, exec (.smoothing i t) s = .next u ∧ (u.eng i).results = l
        ∧ (if f.failed ∨ 65535 < pad then
             (u.eng i).trajs = (s.eng i).trajs
               ∧ u.rd (Reg.slvSmoothFail (i / 16)) = satAdd ((s.at t).rd (Reg.slvSmoothFail (i / 16))) 1
           else ∃ j, (u.eng i).trajs = (s.eng i).trajs ++ [j] ∧ j.ctx = r.ctx ∧ j.frame = r.frame ∧ j.merit = r.ev.phi.bits
             ∧ j.at_ = v.trajAt r.frame j.rec_.seq)
        ∧ (∀ j, j ≠ i → u.eng j = s.eng j) ∧ u.keeps (s.at t) [.engs, .regs, .mem])
  ∧ (∀ (i t : Nat) (s : State) (j : STraj) (l : List STraj) (v : Solving), s.calm → (s.eng i).trajs = j :: l →
      (s.at t).solving j.ctx = some v → s.stageRuns i = true → s.cores.length = 128 → (∀ k, (s.eng i).host = some k → k < 128) →
      ∃ u, exec (.handoff i t) s = .next u ∧ (u.eng i).trajs = l ∧ (u.eng i).lastSeq = j.rec_.seq
        ∧ (match (s.eng i).host with
           | some k =>
             (∀ x < 512, u.mem.get 0#8 (handAddr k i j.frame j.rec_.seq + x) = j.rec_.bytes.getD x 0#8)
             ∧ (if j.frame < (s.prun v.q.num).nAdm then
                  u.rd (Reg.slvLateHandoff (i / 16)) = satAdd ((s.at t).rd (Reg.slvLateHandoff (i / 16))) 1 ∧ (u.core k).handQ = (s.core k).handQ
                else (u.core k).handQ = (s.core k).handQ ++ [handAddr k i j.frame j.rec_.seq])
           | none => u.rd (Reg.slvLateHandoff (i / 16)) = satAdd ((s.at t).rd (Reg.slvLateHandoff (i / 16))) 1)
        ∧ u.keeps (s.at t) [.engs, .mem, .regs, .cores, .ktl])

/-- A compute command of a kind, at the run whose turn it is with a descriptor of that kind and its loads complete, runs that
descriptor: with good operands and no tile to repeat, memory takes exactly the descriptor's output, GAR_DESC shows it, the run
is at the next compute descriptor or has ended OK, and nothing else but counters changes. A poisoned descriptor ends the run
POISON, one whose checks fail DESC_ERR, and a tile that fails twice CHK_FAIL. (09_array_operations.md) -/
def Obligations.ArrayCompute : Prop :=
  ∀ (a : ArrIn) (s : State) (n : Net) (r : ARun) (i k : Nat) (x : Desc) (c : Instr), s.calm → s.arrs.length = 2 →
    (k, c) ∈ [(kGEMM, Instr.gemm a), (kCONV, .conv a), (kATTN, .attn a), (kGATHER, .gather a), (kVECTOR, .vector a), (kPOOL, .pool a)] →
    (s.at a.t).descTurn true a = some (n, r, i, x) → x.kind = k → (s.at a.t).loadsDone n r i = true →
    let d := a.die
    let v := x.reads.foldl (fun (s : State) g => s.settleBuf (bufBase d + g.1) g.2) (s.at a.t)
    let o := x.run v.mem (bufBase d) a.upset
    ∃ u, exec c s = .next u
      ∧ ((s.at a.t).poisoned (n.descAddr i) 128 = true →
          ((u.arr d).stat r.part r.net).map (·.1) = some (rrPOISON * 65536 + r.frame % 65536)
          ∧ u.keeps (s.at a.t) [.arrs, .regs, .ints, .tdcSeen])
      ∧ ((s.at a.t).poisoned (n.descAddr i) 128 = false → (s.at a.t).issueOk r n x = false →
          ((u.arr d).stat r.part r.net).map (·.1) = some (rrDESC * 65536 + r.frame % 65536)
          ∧ u.keeps (s.at a.t) [.arrs, .regs, .ints])
      ∧ ((s.at a.t).poisoned (n.descAddr i) 128 = false → (s.at a.t).issueOk r n x = true → o.retry = [] → o.fail = [] →
          (x.reads.any fun g => v.poisoned (bufBase d + g.1) g.2) = false →
          u.mem = (o.writes.foldl (fun (s : State) w => s.store w.1 w.2) v).mem ∧ u.rd (Reg.garDesc d) = BitVec.ofNat 32 i
          ∧ ((u.runOf d r.part r.net).map (·.comp) = some (i + 1)
              ∨ ((u.arr d).stat r.part r.net).map (·.1) = some (rrOK * 65536 + r.frame % 65536))
          ∧ u.arr (1 - d) = s.arr (1 - d) ∧ u.keeps (s.at a.t) [.arrs, .regs, .mem, .dev])
      ∧ ((s.at a.t).poisoned (n.descAddr i) 128 = false → (s.at a.t).issueOk r n x = true → o.fail ≠ [] →
          (x.reads.any fun g => v.poisoned (bufBase d + g.1) g.2) = false →
          ((u.arr d).stat r.part r.net).map (·.1) = some (rrCHK * 65536 + r.frame % 65536))

/-- LOAD at its run's turn, with its target range free of earlier compute descriptors, copies its lines from HBM into the array
buffer, and STORE without COMPARE copies its lines to HBM, where the firewall admits the transfer and every block matches; the
run goes on or ends OK. The first twin at a COMPARE STORE waits. SIGNAL, its compute descriptors complete, adds one to its
tally word. TWIN_TIMEOUT, 20 µs after a twin began to wait, ends the network's runs on both arrays CMP_FAIL and offers both
arrays' self-test slices first. (09_array_operations.md, 12_memory.md) -/
def Obligations.ArrayTransfers : Prop :=
  (∀ (a : ArrIn) (s : State) (n : Net) (r : ARun) (i : Nat) (x : Desc), s.calm → s.arrs.length = 2 →
      (s.at a.t).descTurn false a = some (n, r, i, x) → (s.at a.t).poisoned (n.descAddr i) 128 = false → (s.at a.t).issueOk r n x = true →
      a.retry = [] → a.fail = [] →
      let v := s.at a.t
      let moved (u : State) (src dst : Nat) : Prop :=
        u.mem = (v.move src dst x.M).mem ∧ u.psn = (v.move src dst x.M).psn
        ∧ ((u.runOf a.die r.part r.net).map (·.load) = some (i + 1)
            ∨ ((u.arr a.die).stat r.part r.net).map (·.1) = some (rrOK * 65536 + r.frame % 65536))
        ∧ u.keeps v [.arrs, .mem, .dev]
      (x.kind = kLOAD → v.fwOk (.part r.part r.cls a.die) false (x.extAt r.frame) x.M = true →
          (∀ j, r.comp ≤ j → j < i → (decDesc (v.peek (n.descAddr j) 128)).compute = true →
            (decDesc (v.peek (n.descAddr j) 128)).ranges.any (rangesMeet (x.aAddr, x.M)) = false) →
          ∃ u, exec (.load a) s = .next u ∧ moved u (x.extAt r.frame) (bufBase a.die + x.aAddr))
      ∧ (x.kind = kSTORE → v.compsDone n r i = true → x.compare = false →
          v.fwOk (.part r.part r.cls a.die) true (x.extAt r.frame) x.M = true →
          ∃ u, exec (.store a) s = .next u ∧ moved u (bufBase a.die + x.aAddr) (x.extAt r.frame))
      ∧ (x.kind = kSTORE → v.compsDone n r i = true → x.compare = true → r.wait = none →
          (∀ y, v.runOf (1 - a.die) r.part r.net = some y → y.wait = none) →
          ∃ u, exec (.store a) s = .next u ∧ (u.runOf a.die r.part r.net).map (·.wait) = some (some v.time) ∧ u.keeps v [.arrs])
      ∧ (∀ w, x.kind = kSIGNAL → v.compsDone n r i = true → v.farPkg (x.extAt r.frame) = none → v.quiet w →
          v.tallyOk opADD { issuer := .array a.die, part := r.part, tref := x.extAt r.frame, operand := 1, cls := r.cls } w →
          (v.tword w).value + 1 < 2 ^ 56 →
          ∃ u, exec (.signal a) s = .next u ∧ u.tword w = { v.tword w with value := (v.tword w).value + 1 } ∧ u.wordAs v w
            ∧ u.compl = s.compl ∧ u.keeps v (.arrs :: tallyPieces)))
  ∧ (∀ (p n d t : Nat) (s : State) (r : ARun), s.calm → d < 2 → s.arrs.length = 2 → s.runOf d p n = some r → r.wait = some t →
      (∀ y, s.runOf 0 p n = some y → y.wait = none ∨ y.wait = some t) →
      ∃ u, exec (.twinTimeout p n) s = .next u ∧ u.time = (s.at (t + 20000)).time
        ∧ (∀ e < 2, u.runOf e p n = none)
        ∧ (∀ e < 2, ∀ y, s.runOf e p n = some y →
            ((u.arr e).stat p n).map (·.1) = some (rrCMP * 65536 + y.frame % 65536))
        ∧ (∀ x ∈ u.rots, x.first.head? = some (88, 7)))

/-- A SCH_FLAG_SET write of a task of its die, by the physical function or the partition's own, sets the flag, and a task that
does not become ready keeps its flags; any other write is rejected and counted. DUE takes the first entry of the delay list at
its due time, sets DUE, and releases the task if ready. DISPATCH gives the core whose turn it is the item its commit queue
holds for it, at the head of its slot, or else the item the classes choose, at the end, and counts it; ITEM_COMPLETE takes the
first completed item out of service; TRACE_DROP drops one waiting record and counts it. (10_task_scheduling.md) -/
def Obligations.SchedulerEvents : Prop :=
  (∀ (a : RegAcc) (v t d : Nat) (s : State), s.calm → s.takesWrite a → a.bar = .bar0 → d < 2 → a.off = Reg.schFlagSet d →
      let p := bits v 30 28
      let task := bits v 25 16
      let flag := bits v 4 0
      ((a.fn ≠ 0 ∧ a.fn ≠ p + 1) ∨ s.task? d p task = none →
          ∃ u, exec (.schFlagSet a v t) s = .next u ∧ u.rd (Reg.schFlagReject d) = satAdd ((s.at t).rd (Reg.schFlagReject d)) 1
            ∧ u.regsAs (s.at t) [Reg.schFlagReject d] ∧ u.keeps (s.at t) [.regs, .compl])
      ∧ (∀ (r : TaskRec) (x : TaskSt), (a.fn = 0 ∨ a.fn = p + 1) → s.task? d p task = some x → (s.pcfg p).task task = some r →
          r.die = d → flag < 24 →
          (x.held = true ∨ if r.any then (x.flags ||| 2 ^ flag) &&& r.mask = 0 else (x.flags ||| 2 ^ flag) &&& r.mask ≠ r.mask) →
          ∃ u, exec (.schFlagSet a v t) s = .next u ∧ u.task? d p task = some { x with flags := x.flags ||| 2 ^ flag }
            ∧ u.rd a.off = (BitVec.ofNat 32 v &&& flagSetMask) ∧ u.regsAs (s.at t) [a.off] ∧ u.keeps (s.at t) [.regs, .compl, .sched]))
  ∧ (∀ (die p task at_ : Nat) (s : State) (x : TaskSt) (r : TaskRec), s.calm → s.task? die p task = some x → x.due = some at_ →
      (s.pcfg p).task task = some r → r.die = die → (∀ y ∈ (s.sch die).tasks, dueBefore y x = false) →
      let f := x.flags ||| 2 ^ 31
      let hit := f &&& r.mask
      ∃ u y, exec (.due die p task) s = .next u ∧ u.time = (s.at at_).time ∧ u.task? die p task = some y ∧ u.keeps (s.at at_) relPieces ∧
        if (if r.any then hit ≠ 0 else hit = r.mask) ∧ x.held = false then y.flags = f - hit
        else y = { x with due := none, flags := f })
  ∧ (∀ (die t p k : Nat) (s : State) (i : Item), s.calm → s.pdUp die = true → (s.at t).nextCore die = some (p, k) →
      s.commitFor die p k = some i → (s.sch die).slots.length = 64 →
      ∃ u, exec (.dispatch die k t) s = .next u
        ∧ (u.sch die).slots.getD (k % 64) [] = (i :: (s.sch die).slots.getD (k % 64) []).take 2
        ∧ (u.sch die).rr = p ∧ u.rd64 (Reg.schDispatchLo die) = ((s.at t).rd64 (Reg.schDispatchLo die) + 1) % 2 ^ 64
        ∧ u.keeps (s.at t) (.ktl :: relPieces))
  ∧ (∀ (die t p k : Nat) (s : State) (i : Item) (x : SchedDie), s.calm → s.pdUp die = true → (s.at t).nextCore die = some (p, k) →
      s.commitFor die p k = none → (s.at t).choose die p k = (some i, x) → x.slots.length = 64 →
      ∃ u, exec (.dispatch die k t) s = .next u
        ∧ (u.sch die).slots.getD (k % 64) [] = x.slots.getD (k % 64) [] ++ [i] ∧ (u.sch die).rr = p
        ∧ u.rd64 (Reg.schDispatchLo die) = ((s.at t).rd64 (Reg.schDispatchLo die) + 1) % 2 ^ 64
        ∧ u.keeps (s.at t) (.ktl :: relPieces))
  ∧ (∀ (die core t : Nat) (s : State) (e : Nat × Item), s.calm →
      (s.sch die).busy.find? (fun e => e.1 == core && s.itemDone core e.2) = some e →
      ∃ u, exec (.itemComplete die core t) s = .next u ∧ (u.sch die).busy = (s.sch die).busy.erase e
        ∧ u.keeps (s.at t) (.fif :: relPieces))
  ∧ (∀ (die p t : Nat) (s : State) (r : TraceRec), s.calm →
      (s.at t).traceQ.find? (fun r => r.die == some die && r.part == p && decide (r.t + 1000 ≤ (s.at t).time)) = some r →
      ∃ u, exec (.traceDrop die p t) s = .next u ∧ u.traceQ = (s.at t).traceQ.erase r
        ∧ u.rd (Reg.schTraceDrop die) = satAdd ((s.at t).rd (Reg.schTraceDrop die)) 1
        ∧ u.regsAs (s.at t) [Reg.schTraceDrop die] ∧ u.keeps (s.at t) [.traceQ, .regs])

/-- A tally operation that reaches its word, with no other wait, monitor or channel on it: READ answers the word and keeps it; ADD
adds its operand and sets ERR where 2^56 is reached; SUB subtracts and sets ERR below zero; TAKE subtracts where VALUE allows,
WAIT_GE and WAIT_EQ end where their condition holds, and each otherwise waits with the word unchanged; ARRIVE counts, or as
the last party sets VALUE to zero and advances GEN. No other counter and no other byte of memory changes.
(11_synchronisation.md) -/
def Obligations.TallyOperations : Prop :=
  ∀ (r : TallyIn) (s : State) (w : TWord), s.calm → (s.at r.t).quiet w →
    let v := s.at r.t
    let x := v.tword w
    let waits (u : State) (op : Nat) : Prop := ∃ y, u.sync.waits = s.sync.waits ++ [y] ∧ y.issuer = r.issuer ∧ y.part = r.part
      ∧ y.word = w ∧ y.op = op ∧ y.operand = r.operand ∧ y.gen = (if op = opARRIVE then x.gen else 0) ∧ y.since = v.time
    let kept (u : State) : Prop := u.wordAs v w ∧ u.keeps v (.cores :: tallyPieces)
    (v.tallyOk opREAD r w → ∃ u, exec (.read r) s = .next u ∧ u.tword w = x ∧ u.sync = s.sync
        ∧ u.compl = some { data := toLE 8 (tallyBits x.err x.gen x.value) } ∧ u.memAs v 0 0 ∧ u.keeps v (.compl :: tallyPieces))
    ∧ (v.tallyOk opADD r w → ∃ u, exec (.add r) s = .next u ∧ u.sync.waits = s.sync.waits ∧ kept u
        ∧ u.tword w = (if 2 ^ 56 ≤ x.value + r.operand then { x with err := true } else { x with value := x.value + r.operand }))
    ∧ (v.tallyOk opSUB r w → ∃ u, exec (.sub r) s = .next u ∧ u.sync.waits = s.sync.waits ∧ kept u
        ∧ u.tword w = (if x.value < r.operand then { x with err := true } else { x with value := x.value - r.operand }))
    ∧ (v.tallyOk opTAKE r w → x.err = false → ∃ u, exec (.take r) s = .next u ∧ kept u
        ∧ if r.operand ≤ x.value then u.tword w = { x with value := x.value - r.operand } ∧ u.sync.waits = s.sync.waits
          else u.tword w = x ∧ waits u opTAKE)
    ∧ (v.tallyOk opWAITGE r w → x.err = false → ∃ u, exec (.waitGe r) s = .next u ∧ kept u ∧ u.tword w = x
        ∧ if r.operand ≤ x.value then u.sync.waits = s.sync.waits else waits u opWAITGE)
    ∧ (v.tallyOk opWAITEQ r w → x.err = false → ∃ u, exec (.waitEq r) s = .next u ∧ kept u ∧ u.tword w = x
        ∧ if x.value = r.operand then u.sync.waits = s.sync.waits else waits u opWAITEQ)
    ∧ (v.tallyOk opARRIVE r w → x.err = false → ∀ c, v.ctrOf w = some c → ∃ u, exec (.arrive r) s = .next u ∧ kept u
        ∧ if x.value + 1 = c.parties then u.tword w = { x with value := 0, gen := (x.gen + 1) % 128 } ∧ u.sync.waits = s.sync.waits
          else u.tword w = { x with value := (x.value + 1) % 2 ^ 56 } ∧ waits u opARRIVE)

/-- WAIT_TIMEOUT of a wait that has lasted its partition's limit ends it as a tally error and counts it. POLL of a polled wait
ends it once its condition holds, and before that changes nothing but a wake. A write of SYN_HOST_ADD stores the amount; zero
does nothing more, another amount adds to the word that the host reference names. LEND reports a core that has waited for
LEND_NS with no work: its difference of draw goes on loan, once per wait. (11_synchronisation.md, 18_power.md) -/
def Obligations.WaitsAndSignals : Prop :=
  (∀ (n t m : Nat) (s : State) (w : Wait), s.calm → s.sync.waits[n]? = some w → s.waitLimit w = some m → w.since + m ≤ (s.at t).time →
      ∃ u, exec (.waitTimeout n t) s = .next u ∧ w ∉ u.sync.waits
        ∧ u.rd (Reg.synTimeout w.word.die) = satAdd ((s.at t).rd (Reg.synTimeout w.word.die)) 1
        ∧ u.keeps (s.at t) [.sync, .regs, .ints, .errs, .fresh, .mem, .tdcSeen, .cores, .sched, .hqs, .host, .ktl])
  ∧ (∀ (n t : Nat) (s : State) (w : Wait), s.calm → s.sync.waits[n]? = some w → w.polled = true → ((s.at t).tword w.word).err = false →
      (fwTarget w.word.addr = 0 ∨ fwTarget w.word.addr = 1) →
      ∃ u, exec (.poll n t) s = .next u ∧
        if w.holds ((s.at t).tword w.word) then w ∉ u.sync.waits else u.sync = s.sync ∧ u.keeps (s.at t) [.ktl, .regs])
  ∧ (∀ (a : RegAcc) (v t d p : Nat) (s : State) (w : TWord), s.calm → s.takesWrite a → a.bar = .bar0 → d < 2 → p < 8 →
      a.off = Reg.synHostAdd d p →
      (v % 2 ^ 32 = 0 → ∃ u, exec (.synHostAdd a v t) s = .next u ∧ u.rd a.off = 0#32 ∧ u.regsAs (s.at t) [a.off]
          ∧ u.keeps (s.at t) [.regs, .compl])
      ∧ ((s.at t).quiet w → v % 2 ^ 32 ≠ 0 →
          (s.at t).tallyOk opADD { issuer := .hostReg p, part := p, tref := (s.at t).rd64 (Reg.synHostRefLo d p), operand := v % 2 ^ 32,
                                   cls := if a.fn = 0 then clsN else clsQ } w →
          ((s.at t).tword w).value + v % 2 ^ 32 < 2 ^ 56 →
          ∃ u, exec (.synHostAdd a v t) s = .next u ∧ u.rd a.off = BitVec.ofNat 32 v
            ∧ u.tword w = { (s.at t).tword w with value := ((s.at t).tword w).value + v % 2 ^ 32 } ∧ u.wordAs (s.at t) w
            ∧ u.keeps (s.at t) (.compl :: tallyPieces)))
  ∧ (∀ (core t at_ : Nat) (s : State) (w : Wait), s.calm → s.sync.waits.find? (fun w => w.issuer == Issuer.dma core) = some w →
      s.ktl.waitAt.find? (fun e => e.1 == core) = some (core, at_) →
      (s.pcfg w.part).sync.lend ≠ 0 → at_ + (s.pcfg w.part).sync.lend ≤ (s.at t).time → w.cls ≠ clsS →
      w.lent = false → s.ktl.sec.noLend = false →
      ∃ u, exec (.lend core t) s = .next u ∧ (∃ x, u.ktl.lent = (core, x) :: s.ktl.lent)
        ∧ u.rd (Reg.synLendCount (core / 64)) = satAdd ((s.at t).rd (Reg.synLendCount (core / 64))) 1
        ∧ u.regsAs (s.at t) [Reg.synLendCount (core / 64)] ∧ u.keeps (s.at t) [.sync, .ktl, .regs])

/-- On a running core whose engine meets a well-formed descriptor of the command's kind, with its ends in this package: END frees
the engine; LINK goes on at the next address; FILL writes the pattern over LEN bytes and COPY the source's bytes, where the
firewall admits them and no read of a field store is stale, and no byte outside the destination changes; TALLY issues its
operation, an unmet wait stalling the engine. A descriptor of another kind is left alone, but for the ADD that may follow an
outstanding write. BLOCK_REPEAT settles the first block that awaits its repeat and counts it, failing the item where the
repeat does not match. (12_memory.md, 11_synchronisation.md) -/
def Obligations.DmaChains : Prop :=
  (∀ (core t : Nat) (s : State) (d : DmaDesc), s.calm → s.coreUp core = true → (s.at t).dmaMeet core = .desc d →
      let v := s.at t
      let m := (s.core core).dma
      let src := v.near d.src
      let dst := v.near d.dst
      let w := dmaWho core (s.dmaItem core)
      (d.op = dmEND → ∃ u, exec (.end_ core t) s = .next u ∧ (u.core core).dma = m.free ∧ u.keeps v [.cores, .ktl, .regs])
      ∧ (d.op = dmLINK → ∃ u, exec (.link core t) s = .next u ∧ (u.core core).dma = m.next src ∧ u.keeps v [.cores, .ktl, .regs])
      ∧ (∀ far, d.op = dmFILL → v.farPkg dst = none → v.fwOk w true dst d.len = true →
          ∃ u, exec (.fill core far t) s = .next u ∧ (u.core core).dma = { m.next (m.desc + 32) with wrote := none :: m.wrote }
            ∧ (∀ i < d.len, u.mem.get 0#8 (dst + i) = (toLE 8 d.src).getD (i % 8) 0#8) ∧ u.memAs v dst d.len
            ∧ u.keeps v [.cores, .ktl, .regs, .mem, .dev])
      ∧ (∀ far, d.op = dmCOPY → v.farPkg src = none → v.farPkg dst = none → v.fwOk w false src d.len = true →
          v.fwOk w true dst d.len = true → overlap src d.len dst d.len = false → v.storeStale (s.dmaItem core) src = none → d.check = false →
          ∃ u, exec (.copy core [] far t) s = .next u ∧ (u.core core).dma = { m.next (m.desc + 32) with wrote := none :: m.wrote }
            ∧ (∀ i < d.len, u.mem.get 0#8 (dst + i) = (v.settleBuf src d.len).mem.get 0#8 (src + i))
            ∧ u.memAs (v.settleBuf src d.len) dst d.len ∧ u.keeps v [.cores, .ktl, .regs, .mem, .dev])
      ∧ (∀ far x tref operand op, d.op = dmTALLY → tallyCmd (d.bytes.drop 16) = (tref, operand, op) → v.farPkg tref = none → v.quiet x →
          v.tallyOk op { issuer := .dma core, part := (s.dmaItem core).part, tref, operand, cls := (s.dmaItem core).cls } x →
          (v.tword x).err = false →
          (op = opADD → (v.tword x).value + operand < 2 ^ 56 →
              ∃ u, exec (.tally core far t) s = .next u ∧ u.tword x = { v.tword x with value := (v.tword x).value + operand }
                ∧ (u.core core).dma = { m.next (m.desc + 32) with from_ := m.desc + 32, wrote := [] } ∧ u.wordAs v x ∧ u.compl = s.compl)
          ∧ (op = opWAITGE → (v.tword x).value < operand →
              ∃ u, exec (.tally core far t) s = .next u ∧ u.tword x = v.tword x ∧ (u.core core).dma = { m with wait := true }
                ∧ ∃ y, u.sync.waits = s.sync.waits ++ [y] ∧ y.issuer = .dma core ∧ y.word = x ∧ y.operand = operand)))
  ∧ (∀ (core t op : Nat) (c : Instr) (far : FarIn) (bad : List Nat) (s : State) (d : DmaDesc), s.calm → (s.at t).dmaMeet core = .desc d →
      d.op ≠ op → (op = dmTALLY → (s.at t).aheadTo core = none) → (op, c) ∈ [(dmEND, Instr.end_ core t), (dmCOPY, .copy core bad far t), (dmFILL, .fill core far t),
                             (dmTALLY, .tally core far t), (dmLINK, .link core t)] →
      ∃ u, exec c s = .next u ∧ u.keeps (s.at t) [])
  ∧ (∀ (core t b : Nat) (ok : Bool) (s : State) (i : Item) (l : List Nat), s.calm → (s.core core).dma.item = some i →
      (s.core core).dma.retry = b :: l → l ≠ [] →
      let dst := (s.at t).near (decDma ((s.at t).peek (s.core core).dma.desc 32)).dst
      let c := if ok then Reg.memCrcRetry (memDie dst) else Reg.memCrcErr (memDie dst)
      ∃ u, exec (.blockRepeat core ok t) s = .next u ∧ (u.core core).dma.retry = l
        ∧ (u.core core).dma.fail = ((s.core core).dma.fail || !ok) ∧ u.rd c = satAdd ((s.at t).rd c) 1
        ∧ u.keeps (s.at t) [.cores, .mem, .dev, .regs, .ints, .errs, .fresh])

/-- PATROL_SCRUB of a ready stack and SCRATCHPAD_SCRUB of a running core read one line or word: a clean read changes nothing, but
at the ends of a pass the scrub register, a single-bit error counts in MEM_CE of its memory and changes no byte, and an
uncorrectable word poisons its line, counts in MEM_UE and shows the line's address. Without an error log ring no byte of
memory changes. (12_memory.md, 16_fault_handling.md) -/
def Obligations.MemoryErrors : Prop :=
  (∀ (die line t : Nat) (e : EccIn) (s : State), s.calm → die < 2 → line < hbmLines → s.readyBit (rbHBM + die) = true →
      let a := die * 0x600000000 + 64 * line
      ∃ u, exec (.patrolScrub die line e t) s = .next u ∧
        match e with
        | .clean => u.keeps (s.at t) (if 0 < line ∧ line + 1 < hbmLines then [] else [.dev, .regs])
        | .single _ => u.rd (Reg.memCe (memDie a) 4) = satAdd ((s.at t).rd (Reg.memCe (memDie a) 4)) 1
            ∧ (s.cfg.faults.log = 0 → u.memAs (s.at t) 0 0)
        | .double => u.rd (Reg.memUe (memDie a) 4) = satAdd ((s.at t).rd (Reg.memUe (memDie a) 4)) 1 ∧ u.rd64 (Reg.memUeAddrLo (memDie a)) = a
            ∧ (s.cfg.faults.log = 0 → u.mem = (s.at t).mem ∧ u.psn.get false (a / 64) = true
                ∧ ∀ l, l ≠ a / 64 → u.psn.get false l = (s.at t).psn.get false l))
  ∧ (∀ (core word t : Nat) (e : EccIn) (s : State), s.calm → core < 128 → word < 131072 → s.coreEn core = true → s.coreUp core = true →
      (s.dom core).st = .on →
      let d := core / 64
      ∃ u, exec (.scratchpadScrub core word e t) s = .next u ∧
        match e with
        | .clean => u.keeps (s.at t) []
        | .single _ => u.rd (Reg.memCe d 0) = satAdd ((s.at t).rd (Reg.memCe d 0)) 1
        | .double => u.rd (Reg.memUe d 0) = satAdd ((s.at t).rd (Reg.memUe d 0)) 1
            ∧ u.rd64 (Reg.memUeAddrLo d) = (padBase core + 8 * word) / 64 * 64)

/-- COSY_ENTRY puts a domain that may sleep, is ON, idle for IDLE_US and runs no slice into Cosy and counts it; a core loses its
translation caches, person boxes and DMA engine state, a cluster's shared part its two engines' solves and the build in
progress, and no byte of memory changes. WAKE turns a waking domain ON; a field store wakes closed, excluded and receiving a
copy. STEP_UP gives a clock the step it was raised to. PLL_LOCK_LOSS clears the lock bit and counts, PLL_RELOCK sets it.
(12_memory.md, 18_power_and_clocks.md, 03_clearance_field.md) -/
def Obligations.KettleDomains : Prop :=
  (∀ (n t : Nat) (s : State), s.calm → n < 176 → s.ktl.doms.length = 176 → s.dev.up = true → bit s.ktl.sec.cosy n = true →
      (s.dom n).st = .on → s.domIdle n = true → (s.dom n).idleAt + s.ktl.sec.idleUs * 1000 ≤ (s.at t).time → s.sliceOn n = false →
      ∃ u, exec (.cosyEntry n t) s = .next u ∧ (u.dom n).st = .cosy ∧ (u.dom n).idleAt = (s.at t).time
        ∧ (n < 128 → (u.core n).cache = [] ∧ (u.core n).strain = [] ∧ (u.core n).boxes = none ∧ (u.core n).dma = (s.core n).dma.free
            ∧ (u.core n).slots = (s.core n).slots)
        ∧ (∀ k, k ≠ n → u.core k = s.core k)
        ∧ (if 128 ≤ n ∧ n < 144 then u.fld.build = none ∧ u.fld.stores = s.fld.stores
              ∧ (s.engs.length = 32 → ∀ e, e < 32 → u.eng e = if e / 2 = n - 128 then (s.eng e).stop else s.eng e)
           else u.engs = s.engs ∧ u.fld = s.fld)
        ∧ u.rd Reg.ktlCosyEntry = satAdd ((s.at t).rd Reg.ktlCosyEntry) 1
        ∧ u.regsAs (s.at t) [Reg.ktlCosyEntry] ∧ u.keeps (s.at t) [.ktl, .cores, .regs, .engs, .fld])
  ∧ (∀ (n t : Nat) (s : State), s.calm → n < 176 → (s.dom n).st = .waking → s.fld.stores.length = 16 →
      ∃ u, exec (.wake n t) s = .next u ∧ (u.dom n).st = .on ∧
        if 144 ≤ n ∧ n < 160 then
          u.fstore (n - 144) = { ready := false, excluded := true, copying := true, copied := false }
            ∧ bit (u.peekN (storeBase (n - 144) + stControl) 8) 17 = true
            ∧ u.memAs (s.at t) (storeBase (n - 144) + stControl) 8 ∧ u.keeps (s.at t) [.ktl, .fld, .mem, .regs]
        else u.keeps (s.at t) [.ktl])
  ∧ (∀ (c t : Nat) (s : State), s.calm → c < 18 → (s.ktl.clks.getD c {}).target < (s.ktl.clks.getD c {}).step →
      ∃ u, exec (.stepUp c t) s = .next u ∧ (u.ktl.clks.getD c {}).step = (s.ktl.clks.getD c {}).target
        ∧ (∀ i, i ≠ c → u.ktl.clks.getD i {} = s.ktl.clks.getD i {}) ∧ u.keeps (s.at t) [.ktl])
  ∧ (∀ (p t : Nat) (s : State), s.calm → p < 28 → bit s.ktl.lock p = true →
      ∃ u, exec (.pllLockLoss p t) s = .next u ∧ (∀ i, bit u.ktl.lock i = (bit s.ktl.lock i && i != p))
        ∧ u.rd Reg.ktlPllLoss = satAdd ((s.at t).rd Reg.ktlPllLoss) 1 ∧ (u.ints.slot isrcKETTLE 0).st ≠ .idle
        ∧ u.keeps (s.at t) [.ktl, .regs, .ints])
  ∧ (∀ (p t : Nat) (s : State), s.calm → p < 28 → s.dev.up = true → bit s.ktl.lock p = false →
      ∃ u, exec (.pllRelock p t) s = .next u ∧ (∀ i, bit u.ktl.lock i = (bit s.ktl.lock i || i == p)) ∧ u.keeps (s.at t) [.ktl])

/-- CONTROL_PERIOD takes in the die temperatures and the package power: the temperatures read stand, no maximum falls below them,
and the energy grows by the power. Unless a planner die passes T_max + 10 °C nothing but the Kettle, its counters and its
interrupt changes; a die that passes it trips, and the planner dies are reset. (18_power_and_clocks.md) -/
def Obligations.ControlPeriod : Prop :=
  (∀ (o : SenseIn) (s : State), s.calm → s.dev.up = true →
      (∀ d < 2, ¬(s.fuses.tMax + 80 ≤ o.tj.getD d 0 ∧ s.ktl.tj.getD d 0 < s.fuses.tMax + 80)) →
      ∃ u, exec (.controlPeriod o) s = .next u ∧ u.ktl.tj = (List.range 3).map (fun d => o.tj.getD d 0)
        ∧ (∀ d < 3, o.tj.getD d 0 ≤ u.ktl.tjMax.getD d 0 ∧ s.ktl.tjMax.getD d 0 ≤ u.ktl.tjMax.getD d 0)
        ∧ u.ktl.energy = s.ktl.energy + o.power ∧ u.ktl.trip = s.ktl.trip ∧ u.ktl.lock = s.ktl.lock
        ∧ u.keeps (s.at o.t) [.ktl, .regs, .ints])
  ∧ (∀ (o : SenseIn) (s : State) (d : Nat), s.calm → s.dev.up = true → d < 2 → s.fuses.tMax + 80 ≤ o.tj.getD d 0 →
      s.ktl.tj.getD d 0 < s.fuses.tMax + 80 →
      ∃ u, exec (.controlPeriod o) s = .next u ∧ u.ktl.trip = true ∧ u.dev.warm ≠ none)

/-- MONITORING_PERIOD at a whole 100 µs reads every OSSD pair as its filtered state counts, issues the Saucer of every mechanism
whose record in force breaks its separation by those pairs, and fails both channels at the second period in a row in which
they disagree. CHANNEL fails one channel: the first failure sets CHANNEL_FAIL unless the warden is LOCKED already, issues the
Saucer of every mechanism, and leaves every stop-request output off. (14_safety_concept.md) -/
def Obligations.ChannelsAndSeparation : Prop :=
  (∀ (dis : Bool) (t : Nat) (s : State), s.calm → s.dev.up = true → t % 100000 = 0 → (s.warden.chA || s.warden.chB) = true →
      s.warden.mechs.length = 16 →
      let w := { s.warden with ossdRead := s.warden.ossd.map DualIn.on, disagree := if dis then s.warden.disagree + 1 else 0 }
      ∃ u, exec (.monitoringPeriod dis t) s = .next u ∧ u.warden.ossdRead = s.warden.ossd.map DualIn.on
        ∧ u.warden.disagree = (if dis then s.warden.disagree + 1 else 0)
        ∧ (∀ m ∈ s.mechNums, ∀ r, s.inForce m t = some r → ({ s with warden := w } : State).ssmAgainst m r = true → (u.wm m).held = true)
        ∧ (dis = true → s.warden.disagree = 1 → u.warden.chA = false ∧ u.warden.chB = false)
        ∧ u.keeps (s.at t) trigPieces)
  ∧ (∀ (b : Bool) (t : Nat) (s : State), s.calm → s.dev.up = true → s.warden.chA = true → s.warden.chB = true →
      s.warden.mechs.length = 16 →
      ∃ u, exec (.channel b t) s = .next u ∧ u.warden.chA = b ∧ u.warden.chB = !b
        ∧ u.warden.state = (if s.warden.state = .locked then .locked else .channelFail)
        ∧ (∀ m ∈ s.mechNums, (u.wm m).held = true) ∧ u.warden.trigCause = 9 ∧ u.warden.trigTime = tick t
        ∧ (∀ n < 8, ((u.warden.outs.getD n {}).drvA || (u.warden.outs.getD n {}).drvB) = false) ∧ u.keeps (s.at t) trigPieces)
  ∧ (∀ (b : Bool) (t : Nat) (s : State), s.calm → s.dev.up = true → s.warden.chA = b → s.warden.chB = !b →
      ∃ u, exec (.channel b t) s = .next u ∧ u.keeps s [])

/-- WATCHDOG of a frame stage whose expected service has not come by the close of its window latches the missing-service fault,
expects the next frame and takes a fall-back decision: the planner dies are in warm reset. WATCHDOG of a fieldbus port's
output latches it, counts the cycle, and holds every mechanism on that port until its partition is stopped and started,
without a reset. Before the close, or where no service is expected, nothing changes. (14_safety_concept.md) -/
def Obligations.WatchdogWindows : Prop :=
  (∀ (w t : Nat) (s : State), s.calm → w < 8 → s.dev.up = true → s.wdExpects w = true → (s.wdOpen w).2 ≤ t →
      ∃ u, exec (.watchdog w t) s = .next u ∧ (u.wd w).fault = 1 ∧ (u.wd w).expect = (s.wd w).expect + 1 ∧ u.dev.warm ≠ none
        ∧ u.time = (s.at (s.wdOpen w).2).time)
  ∧ (∀ (w t : Nat) (s : State), s.calm → 8 ≤ w → w < 12 → s.dev.up = true → s.outExpects w = true → (s.outOpen w).2 ≤ t →
      s.warden.mechs.length = 16 → s.warden.wds.length = 12 →
      ∃ u, exec (.watchdog w t) s = .next u ∧ (u.wd w).fault = 1 ∧ (∀ m ∈ s.portMechs (w - 8), (u.wm m).held = true ∧ (u.wm m).portHold = true)
        ∧ (u.port (w - 8)).k = (s.port (w - 8)).k + 1 ∧ u.rd Reg.wdnWdViol = satAdd ((s.at (s.outOpen w).2).rd Reg.wdnWdViol) 1
        ∧ u.keeps (s.at (s.outOpen w).2) (.fif :: trigPieces))
  ∧ (∀ (w t : Nat) (s : State), s.calm → (w < 8 → s.wdExpects w = false ∨ t < (s.wdOpen w).2) →
      (8 ≤ w → s.outExpects w = false ∨ t < (s.outOpen w).2) →
      ∃ u, exec (.watchdog w t) s = .next u ∧ u.keeps s [])

/-- INPUT_FILTER gives a wire its new filtered level; an emergency-stop input that was energised and is no more is latched, and
the Saucer of every mechanism it names is issued. DISCREPANCY latches a contradiction that has lasted longer than DISC_MS and
counts it. ESTOP_RESET ends the latch of an input whose wires are both energised and of no other. RESTART of a warden that is
HELD leads to the planner restart, and in any other state changes nothing but the register. (14_safety_concept.md) -/
def Obligations.SafetyInputs : Prop :=
  (∀ (i : WireIn) (t : Nat) (s : State), s.calm → s.dev.up = true → i.input < 13 →
      (if i.b then (s.warden.input i.input).filB else (s.warden.input i.input).filA) ≠ i.level → s.warden.estop.length = 4 →
      s.warden.ossd.length = 8 → s.warden.estopLat.length = 4 → s.warden.mechs.length = 16 →
      ∃ u, exec (.inputFilter i t) s = .next u
        ∧ (if i.b then (u.warden.input i.input).filB else (u.warden.input i.input).filA) = i.level
        ∧ (∀ n, n < 13 → n ≠ i.input → u.warden.input n = s.warden.input n)
        ∧ (i.input < 4 → (s.warden.input i.input).on = true → u.warden.estopLat.getD i.input false = true
            ∧ ∀ m ∈ s.mechNums, bit (s.sglob.estop.getD i.input (0, 0)).1 m = true → (u.wm m).held = true)
        ∧ u.keeps (s.at t) trigPieces)
  ∧ (∀ (n t t0 : Nat) (s : State), s.calm → s.dev.up = true → n < 13 → (s.warden.input n).disagr = some t0 →
      t0 + 1000000 * s.sglob.discMs < t → s.warden.estop.length = 4 → s.warden.ossd.length = 8 →
      ∃ u, exec (.discrepancy n t) s = .next u ∧ (u.warden.input n).disc = true ∧ (u.warden.input n).on = false
        ∧ u.rd Reg.wdnDisc = satAdd ((s.at t).rd Reg.wdnDisc) 1 ∧ u.keeps (s.at t) trigPieces)
  ∧ (∀ (fn n t : Nat) (s : State), s.calm → s.takesWrite { fn, off := Reg.wdnCmd } → n < 4 → s.warden.estopLat.length = 4 →
      ∃ u, exec (.estopReset fn n t) s = .next u
        ∧ u.warden.estopLat.getD n true = (s.warden.estopLat.getD n true && !(s.warden.estop.getD n {}).on)
        ∧ (∀ k, k ≠ n → u.warden.estopLat.getD k true = s.warden.estopLat.getD k true)
        ∧ u.rd Reg.wdnCmd = BitVec.ofNat 32 (n * 16 + 2) ∧ u.regsAs (s.at t) [Reg.wdnCmd] ∧ u.keeps (s.at t) [.warden, .regs, .compl])
  ∧ (∀ (fn t : Nat) (s : State), s.calm → s.takesWrite { fn, off := Reg.wdnCmd } →
      ∃ u, exec (.restart fn t) s = .next u ∧
        if s.warden.state = .held then u.warden.state = .fallback ∧ u.dev.restart = true ∧ u.dev.hold = s.dev.lcNext.isSome
          ∧ u.keeps (s.at t) [.warden, .dev, .regs, .ints, .compl]
        else u.regsAs (s.at t) [Reg.wdnCmd] ∧ u.keeps (s.at t) [.regs, .compl])

/-- TEST_PULSE of channel A at a whole second pulses the A wire of a pair that stays energised and reads it off, and TP_US later
ends the pulse; the commanded levels do not change. OUTPUT_FAULT of a wire whose read-back differs latches the pair's fault,
de-energises both wires, keeps the level read back and issues the Saucer of every mechanism that names it. SOE of a connection
that fails restarts its session, counts it and issues the Saucer of its mechanism. (14_safety_concept.md) -/
def Obligations.StopOutputs : Prop :=
  (∀ (t n : Nat) (s : State), s.calm → s.dev.up = true → s.sglob.tpUs ≠ 0 → n < 8 → s.pairOff n = false →
      (s.warden.outs.getD n {}).drvA = true → (s.warden.outs.getD n {}).drvB = true →
      (t % 1000000000 = 0 ∨ t % 1000000000 = 1000 * s.sglob.tpUs) →
      ∃ u, exec (.testPulse false t) s = .next u ∧ (u.warden.outs.getD n {}).drvA = true ∧ (u.warden.outs.getD n {}).drvB = true
        ∧ (if t % 1000000000 = 0 then (u.warden.outs.getD n {}).pulseA = true ∧ (u.warden.outs.getD n {}).fbA = false
           else (u.warden.outs.getD n {}).pulseA = false)
        ∧ (u.warden.outs.getD n {}).fbB = (s.warden.outs.getD n {}).fbB ∧ u.keeps (s.at t) [])
  ∧ (∀ (n t : Nat) (b level : Bool) (s : State), s.calm → s.dev.up = true → n < 8 → s.warden.outs.length = 8 →
      s.warden.mechs.length = 16 → (s.warden.outs.getD n {}).fault = false →
      (if b then (s.warden.outs.getD n {}).drvB else (s.warden.outs.getD n {}).drvA) ≠ level →
      ∃ u, exec (.outputFault n b level t) s = .next u ∧ (u.warden.outs.getD n {}).fault = true
        ∧ (u.warden.outs.getD n {}).drvA = false ∧ (u.warden.outs.getD n {}).drvB = false
        ∧ (if b then (u.warden.outs.getD n {}).fbB else (u.warden.outs.getD n {}).fbA) = level
        ∧ (∀ m ∈ s.namers n, (u.wm m).held = true) ∧ u.warden.trigCause = 11 ∧ u.keeps (s.at t) trigPieces)
  ∧ (∀ (c t : Nat) (wdog : Bool) (s : State) (r : SoeRec), s.calm → s.soeRec c = some r → s.dev.up = true →
      (s.warden.soe.getD c {}).state ≠ 0 → (wdog = false ∨ (s.warden.soe.getD c {}).rxAt + 1000000 * r.wdMs ≤ t) →
      s.warden.mechs.length = 16 →
      ∃ u, exec (.soe c wdog t) s = .next u ∧ u.warden.soe.getD c {} = { rxAt := t }
        ∧ u.rd Reg.wdnSoeErr = satAdd ((s.at t).rd Reg.wdnSoeErr) 1 ∧ (r.mech ∈ s.mechNums → (u.wm r.mech).held = true)
        ∧ u.warden.trigCause = 8 ∧ u.keeps (s.at t) trigPieces)

/-- TAMPER locks the device: the warden reads LOCKED unless it stands in CHANNEL_FAIL, the planner dies are in a warm reset that
holds, and every stop-request output is off. RAIL_FAULT of the planner or HBM rails, and LINK_DOWN, reset the planner dies,
LINK_DOWN with the link's UP bit clear; LANE_REPAIR of a link that is up sets its repaired bit and records it. (12_memory.md,
01_architecture.md, 23_register_index.md, 16_fault_handling.md) -/
def Obligations.TamperRailsAndLinks : Prop :=
  (∀ (c t : Nat) (s : State), s.calm → s.dev.up = true → c < 4 →
      ∃ u, exec (.tamper c t) s = .next u ∧ u.dev.locked = true
        ∧ u.warden.state = (if s.warden.state = .channelFail then .channelFail else .locked) ∧ u.dev.warm ≠ none ∧ u.dev.hold = true
        ∧ (∀ n < 8, ((u.warden.outs.getD n {}).drvA || (u.warden.outs.getD n {}).drvB) = false))
  ∧ (∀ (r t : Nat) (s : State), s.calm → s.dev.up = true → r < 2 →
      ∃ u, exec (.railFault r t) s = .next u ∧ u.dev.warm ≠ none ∧ u.dev.hbmLost = (if r = 1 then [true, true] else s.dev.hbmLost))
  ∧ (∀ (l t : Nat) (s : State), s.calm → l < 3 → bit (s.rd Reg.glbD2dStatus).toNat l = true →
      ∃ u, exec (.laneRepair l t) s = .next u ∧ bit (u.rd Reg.glbD2dStatus).toNat (3 + l) = true
        ∧ bit (u.rd Reg.glbD2dStatus).toNat l = true ∧ u.errs.seq = s.errs.seq + 1
        ∧ u.keeps (s.at t) [.regs, .ints, .errs, .fresh, .mem])
  ∧ (∀ (l t : Nat) (s : State), s.calm → l < 3 → s.dev.up = true →
      ∃ u, exec (.linkDown l t) s = .next u ∧ bit (u.rd Reg.glbD2dStatus).toNat l = false ∧ u.dev.warm ≠ none)

/-- SLICE_START of the slice that a die offers, or that a SELFTEST item asks for, where it fits, starts it in that die's rotation
if it is asked for, belongs to a unit in ISOLATE, is forced, or its turn among the class N groups has come; otherwise no slice
starts, and the rotation stands in the list of groups. TIME_WINDOW lets every core look for work again, and in a window
without slices no slice runs on. SLICE_END of a passed slice takes it out of the pending ones and counts it; a first failure
counts, latches the signature and offers the slice next, and a second one with the same signature isolates the unit.
INTERVAL_END begins a new interval with every unit in service pending, those that were still pending LATE.
(15_safety_evidence.md, 16_fault_handling.md) -/
def Obligations.SelfTestSlices : Prop :=
  (∀ (d p k t : Nat) (s : State), s.calm → d < 2 → s.rots.length = 2 → s.sched.length = 2 →
      ((s.offered d).head? = some (p, k) ∨ (s.rot d).asked.contains (p, k) = true) → (s.at t).sliceFits d p k (s.at t).time = true →
      let ahead := (s.rot d).asked.contains (p, k) || (s.at t).sliceAhead d p k || (s.at t).sliceForced d p (s.at t).time
      ((ahead = true ∨ ∃ q, (s.at t).sliceTurn d (sliceLen k) = .starts q) →
        ∃ u x, exec (.sliceStart d p k t) s = .next u ∧ (u.rot d).run = some x ∧ x.unit = p ∧ x.kind = k ∧ x.t = (s.at t).time
          ∧ x.stop = (s.at t).sliceStop d p k (s.at t).time ∧ u.rot (1 - d) = s.rot (1 - d) ∧ u.keeps (s.at t) ([.rots, .ktl] ++ relPieces))
      ∧ (ahead = false → (∀ q, (s.at t).sliceTurn d (sliceLen k) ≠ .starts q) →
        ∃ u, exec (.sliceStart d p k t) s = .next u ∧ (u.rot d).run = none ∧ sliceRef ∈ (u.sch d).order ∧ u.offered d = s.offered d
          ∧ u.rot (1 - d) = s.rot (1 - d) ∧ u.keeps (s.at t) [.rots, .sched]))
  ∧ (∀ (t : Nat) (s : State), s.calm → s.rots.length = 2 →
      ∃ u, exec (.timeWindow t) s = .next u ∧ (∀ x ∈ u.sched, x.idle = [])
        ∧ (if ((s.at t).sliceLimit (s.at t).time).1 = true then u.rots = s.rots else (u.rot 0).run = none ∧ (u.rot 1).run = none)
        ∧ u.keeps (s.at t) [.sched, .rots, .regs])
  ∧ (∀ (d t : Nat) (o : SliceIn) (s : State) (x : Slice), s.calm → d < 2 → (s.rot d).run = some x → x.unit < 88 →
      (s.faultSt (.unit (unitId d x.unit) 0)).phase ≠ .isolate →
      let n := unitId d x.unit
      (o.pass = true → ∃ u, exec (.sliceEnd d o t) s = .next u ∧ (u.rot d).run = none ∧ (x.unit, x.kind) ∉ (u.rot d).pend
          ∧ u.rd64 Reg.glbStPassLo = ((s.at t).rd64 Reg.glbStPassLo + 1) % 2 ^ 64 ∧ u.keeps (s.at t) [.rots, .regs, .errs])
      ∧ (o.pass = false → (s.faultSt (.unit n 0)).stSig = none →
          ((s.at t).count (.unit n (laneOf x.kind o.lanes)) ekST_FAIL (s.at t).time).2.1 < (s.cfg.faults.limits ekST_FAIL).1 →
          ∃ u, exec (.sliceEnd d o t) s = .next u ∧ (u.rot d).run = none ∧ (u.rot d).first.head? = some (x.unit, x.kind)
            ∧ (u.faultSt (.unit n 0)).stSig = some (x.kind, o.sig) ∧ u.rd Reg.glbStFail = satAdd ((s.at t).rd Reg.glbStFail) 1
            ∧ u.keeps (s.at t) [.rots, .regs, .errs, .fresh, .ints, .mem])
      ∧ (o.pass = false → (s.faultSt (.unit n 0)).stSig = some (x.kind, o.sig) →
          ∃ u, exec (.sliceEnd d o t) s = .next u ∧ (u.rot d).run = none ∧ (u.faultSt (.unit n 0)).phase = .isolate
            ∧ u.rd Reg.errLasting = satAdd ((s.at t).rd Reg.errLasting) 1))
  ∧ (∀ (d t : Nat) (s : State), s.calm → d < 2 → s.rots.length = 2 → s.pdUp d = true → s.dtiEnd d ≤ t →
      ∃ u, exec (.intervalEnd d t) s = .next u ∧ (u.rot d).start = s.dtiEnd d ∧ u.time = (s.at (s.dtiEnd d)).time
        ∧ (∀ p ∈ dieUnits, (decide (64 ≤ p) || s.coreEn (d * 64 + p)) = true → s.isRetired (unitId d p) = false →
            ∀ k ∈ sliceKinds p, (p, k) ∈ (u.rot d).pend)
        ∧ (∀ p ∈ dieUnits, (s.rot d).pend.any (·.1 == p) = true → p ∈ (u.rot d).late)
        ∧ u.keeps (s.at (s.dtiEnd d)) [.rots, .regs, .ints, .errs, .fresh, .mem])

/-- DIE 1's report of an event of the PD0-PD1 link is dropped if DIE 0 has reported the event, and stands for DIE 0's otherwise.
Every other ERROR_EVENT first does to memory and its counters what the event says of them; one of a kind that counts against
nothing writes one error record; one counted below its limit writes one record, puts its unit in WATCH at least and counts as
transient; one that reaches the limit at a unit with slices isolates the unit. FAULT_WINDOW_EXPIRY makes a unit in WATCH
HEALTHY again; ISOLATION_TIMEOUT retires a unit 2 ms after its lasting event. CLEAR_RETIRED is accepted in DEVELOP and RETURN
while nothing runs, and ERR_READ stores the SEQ read. (16_fault_handling.md) -/
def Obligations.FaultStates : Prop :=
  (∀ (e : EventIn) (s : State), s.calm → s.dev.up = true → e.unit = unitId 1 113 →
      if (s.at e.t).reported e then ∃ u, exec (.errorEvent e) s = .next u ∧ u.keeps (s.at e.t) []
      else exec (.errorEvent e) s = exec (.errorEvent { e with unit := unitId 0 113 }) s)
  ∧ (∀ (e : EventIn) (s : State), s.calm → s.dev.up = true → e.unit ≠ unitId 1 113 →
      (countKey e = none → e.kind ≠ ekLINK_DOWN →
          ∃ u, exec (.errorEvent e) s = .next u ∧ u.errs.seq = s.errs.seq + 1 ∧ u.errs.states = s.errs.states
            ∧ u.keeps (s.at e.t) [.errs, .regs, .ints, .fresh, .mem, .dev, .fld, .engs]
            ∧ (e.kind ≠ ekCRC_ERR → u.dev = s.dev ∧ u.fld = s.fld ∧ u.engs = s.engs))
      ∧ (∀ k, countKey e = some k → e.kind ≠ ekCHK_FAIL → e.kind ≠ ekUNATTRIB → ¬(e.kind = ekECC_UE ∧ e.unit % 512 = 104) →
          k.gone s = false → ((s.at e.t).count k e.kind (tick e.t)).2.1 < (s.cfg.faults.limits e.kind).1 →
          let c := (s.at e.t).count k e.kind (tick e.t)
          ∃ u, exec (.errorEvent e) s = .next u ∧ u.errs.seq = s.errs.seq + 1
            ∧ u.faultSt k = (if c.2.2 then c.1 else s.faultSt k)
            ∧ u.rd (if c.2.2 then Reg.errTransient else Reg.errCoalesced) =
                satAdd ((s.at e.t).rd (if c.2.2 then Reg.errTransient else Reg.errCoalesced)) 1
            ∧ u.keeps (s.at e.t) [.errs, .regs, .ints, .fresh, .mem, .dev, .fld, .engs]
            ∧ (e.kind ≠ ekCRC_ERR → u.dev = s.dev ∧ u.fld = s.fld ∧ u.engs = s.engs))
      ∧ (∀ n b, countKey e = some (.unit n b) → e.kind ≠ ekUNATTRIB → n % 512 ≤ 88 → s.isRetired n b = false →
          ((s.at e.t).count (.unit n b) e.kind (tick e.t)).2.2 = true → ((s.at e.t).count (.unit n b) e.kind (tick e.t)).1.phase ≠ .isolate →
          (s.cfg.faults.limits e.kind).1 ≤ ((s.at e.t).count (.unit n b) e.kind (tick e.t)).2.1 →
          ∃ u, exec (.errorEvent e) s = .next u ∧ (u.faultSt (.unit n 0)).phase = .isolate
            ∧ u.rd Reg.errLasting = satAdd ((s.at e.t).rd Reg.errLasting) 1))
  ∧ (∀ (n b t : Nat) (s : State), s.calm → (s.faultSt (.unit n b)).phase = .watch → s.isRetired n b = false →
      (∀ e ∈ (s.faultSt (.unit n b)).evs, e.1 + (s.cfg.faults.limits e.2).2 ≤ (s.at t).time) →
      ∃ u, exec (.faultWindowExpiry n b t) s = .next u ∧ u.faultSt (.unit n b) = { s.faultSt (.unit n b) with phase := .healthy, evs := [] }
        ∧ (∀ k, k ≠ .unit n b → u.faultSt k = s.faultSt k) ∧ u.keeps (s.at t) [.errs])
  ∧ (∀ (n t : Nat) (s : State), s.calm → (s.faultSt (.unit n 0)).phase = .isolate → s.isRetired n = false →
      (s.faultSt (.unit n 0)).since + 2000000 ≤ (s.at t).time →
      ∃ u, exec (.isolationTimeout n t) s = .next u ∧ u.isRetired n = true ∧ u.phase n = .retired ∧ u.time = (s.at t).time)
  ∧ (∀ (fn t : Nat) (s : State), s.calm → s.takesWrite { fn, off := Reg.errCmd } →
      ∃ u, exec (.clearRetired fn t) s = .next u
        ∧ u.errs = { s.errs with clear := s.errs.clear || (decide (s.fuses.lc = .develop ∨ s.fuses.lc = .ret)
                                            && s.parts.all fun x => decide (x.st ≠ .running)) }
        ∧ u.regsAs (s.at t) [Reg.errCmd] ∧ u.keeps (s.at t) [.errs, .regs, .compl])
  ∧ (∀ (fn v t : Nat) (s : State), s.calm → s.takesWrite { fn, off := Reg.errRead } →
      ∃ u, exec (.errRead fn v t) s = .next u ∧ u.rd Reg.errRead = BitVec.ofNat 32 v ∧ u.regsAs (s.at t) [Reg.errRead]
        ∧ u.keeps (s.at t) [.regs, .compl])

/-- INT_DELIVERY of a winning slot puts the slot and the best eligible vector of its set in service and posts that vector's
message to its MSI-X address; without a winner no slot changes and no message leaves. EOI of a vector in service returns the
vector to idle and its slot to IDLE, or to PENDING where a second mark stands. (17_interrupts.md) -/
def Obligations.InterruptDelivery : Prop :=
  (∀ (t src k v : Nat) (s : State), s.calm → s.pcieUp = true → s.ints.winner = some (src, k) →
      s.ints.bestVec ((s.ints.slot src k).set_.filter (s.ints.eligible (slotFn src k))) = some v →
      let e := s.ints.entry (slotFn src k) v
      ∃ u, exec (.intDelivery t) s = .next u ∧ (u.ints.slot src k).st = .service ∧ (u.ints.vec v).svc = true
        ∧ (u.ints.vec v).src = src ∧ (u.ints.vec v).slot = k
        ∧ u.hostW = { addr := e.addr, data := toLE 4 e.data } :: s.hostW
        ∧ (∀ a b, 2 * a + b ≠ 2 * src + k → u.ints.slot a b = s.ints.slot a b) ∧ u.keeps (s.at t) [.ints, .host])
  ∧ (∀ (t : Nat) (s : State), s.calm → s.pcieUp = true → s.ints.winner = none →
      ∃ u, exec (.intDelivery t) s = .next u ∧ u.ints.slots = s.ints.slots ∧ u.ints.vecs = s.ints.vecs ∧ u.ints.msgs = s.ints.msgs
        ∧ u.keeps (s.at t) [.ints])
  ∧ (∀ (fn v t : Nat) (s : State), s.calm → v < 2048 → s.takesWrite { fn, off := Reg.intVec v } → (s.ints.vec v).svc = true →
      (s.ints.vec v).rp < 16 →
      let x := s.ints.vec v
      ∃ u, exec (.eoi fn v t) s = .next u ∧ (u.ints.vec v).svc = false
        ∧ (u.ints.slot x.src x.slot).st = (if (s.ints.slot x.src x.slot).second then .pending else .idle)
        ∧ (u.ints.slot x.src x.slot).second = false ∧ (∀ n, n ≠ v → u.ints.vec n = s.ints.vec n)
        ∧ u.keeps (s.at t) [.ints, .compl])

/-- A write of 1 to a bit of INT_SW_SET_G or INT_SW_SET_P[p] raises the matching SW source, in every slot that the source has, at
the write's device time; PEND_SET raises its slot alone. No other slot and no state but the interrupt state, its counters and
the completion changes. (R395) -/
def Obligations.SoftwareInterrupts : Prop :=
  (∀ (a : RegAcc) (v t : Nat) (s : State), s.calm → s.takesWrite a → a.bar = .bar0 → a.off = Reg.intSwSetG →
      ∃ u, exec (.intSwSetG a v t) s = .next u ∧ u.time = (s.at t).time
        ∧ (∀ src, ∀ k < 2, u.ints.slot src k =
              if k = 0 ∧ 24 ≤ src ∧ src < 32 ∧ bit v (src - 24) = true then (s.ints.slot src k).raised else s.ints.slot src k)
        ∧ u.regsAs (s.at t) [Reg.intUnrouted, Reg.intCoalesced] ∧ u.keeps (s.at t) [.ints, .regs, .compl])
  ∧ (∀ (a : RegAcc) (v t p : Nat) (s : State), s.calm → s.takesWrite a → a.bar = .bar0 → p < 8 → a.off = Reg.intSwSetP p →
      ∃ u, exec (.intSwSetP a v t) s = .next u ∧ u.time = (s.at t).time
        ∧ (∀ src, ∀ k < 2, u.ints.slot src k =
              if isrcPart p 24 ≤ src ∧ src < isrcPart p 24 + 8 ∧ bit v (src - isrcPart p 24) = true then (s.ints.slot src k).raised
              else s.ints.slot src k)
        ∧ u.regsAs (s.at t) [Reg.intUnrouted, Reg.intCoalesced] ∧ u.keeps (s.at t) [.ints, .regs, .compl])
  ∧ (∀ (fn src slot t : Nat) (s : State), s.calm → src < 288 → slot < 2 → s.takesWrite { fn, off := Reg.intSrcState src } →
      (slot = 0 → fn = 0) → (slot = 1 → hasSlot1 src = true) →
      ∃ u, exec (.pendSet fn src slot t) s = .next u ∧ u.time = (s.at t).time
        ∧ (∀ a, ∀ b < 2, u.ints.slot a b = if a = src ∧ b = slot then (s.ints.slot a b).raised else s.ints.slot a b)
        ∧ u.regsAs (s.at t) [Reg.intUnrouted, Reg.intCoalesced] ∧ u.keeps (s.at t) [.ints, .regs, .compl])

/-- A write of HIF_SQ_TAIL of an enabled queue sets its tail, or records TAIL where the index lies past the ring; a write of
HIF_CQ_HEAD frees entries; of a disabled queue both are ignored and counted. A write of HIF_Q_CTRL with EN clear disables the
queue with the sizes written; with EN set it starts a queue that may be enabled with empty rings and PHASE 1, records why
another one may not, and changes IRQ alone of an enabled one. No other queue changes. (20_host_interface.md) -/
def Obligations.HostQueues : Prop :=
  ∀ (a : RegAcc) (v t fn q : Nat) (s : State), s.calm → fn < 9 → q < 8 → 8 * fn + q < s.hqs.length → s.takesWrite a → a.bar = .bar0 →
    let x := s.hq fn q
    let rest (u : State) : Prop := ∀ i, i ≠ 8 * fn + q → u.hqs.getD i {} = s.hqs.getD i {}
    let ignored (u : State) : Prop := u.hqs = s.hqs ∧ u.rd Reg.hifDbIgnored = satAdd ((s.at t).rd Reg.hifDbIgnored) 1
      ∧ u.regsAs (s.at t) [Reg.hifDbIgnored] ∧ u.keeps (s.at t) [.regs, .compl]
    let sized : HQueue := { x with irq := bit v 1, sqSize := bits v 23 20, cqSize := bits v 27 24 }
    (a.off = Reg.hifSqTail fn q → ∃ u, exec (.sqTail a v t) s = .next u ∧
        if x.en = false then ignored u
        else u.hq fn q = (if 2 ^ x.sqSize ≤ v % 4096 then { x with err := qeTAIL } else { x with tail := v % 4096 })
          ∧ rest u ∧ u.keeps (s.at t) [.hqs, .compl])
    ∧ (a.off = Reg.hifCqHead fn q → ∃ u, exec (.cqHead a v t) s = .next u ∧
        if x.en = false then ignored u
        else (u.hq fn q).cqHead = v % 4096 % 2 ^ x.cqSize ∧ (u.hq fn q).head = x.head ∧ (u.hq fn q).tail = x.tail
          ∧ (x.ready = [] → u.hq fn q = { x with cqHead := v % 4096 % 2 ^ x.cqSize } ∧ u.keeps (s.at t) [.hqs, .compl])
          ∧ rest u ∧ u.keeps (s.at t) [.hqs, .host, .ints, .regs, .compl])
    ∧ (a.off = Reg.hifQCtrl fn q → bit v 0 = true → ∃ u, exec (.queueEnable a v t) s = .next u ∧ rest u ∧ u.keeps (s.at t) [.hqs, .compl]
        ∧ u.hq fn q =
          if x.en = true then { x with irq := bit v 1 }
          else if (s.at t).enableErr fn q v ≠ 0 then { sized with err := (s.at t).enableErr fn q v }
          else if x.idle = false then sized
          else { sized with en := true, head := 0, tail := 0, cqHead := 0, cqTail := 0, phase := true, err := 0, counted := false })
    ∧ (a.off = Reg.hifQCtrl fn q → bit v 0 = false → ∃ u, exec (.queueDisable a v t) s = .next u
        ∧ u.hq fn q = { sized with en := false } ∧ rest u ∧ u.keeps (s.at t) [.hqs, .compl])

/-- The next command of a queue that may take one is run in ring order. NOP changes nothing but its queue; FLAG sets the task flag
it names, which stays set where the task does not become ready, and counts a task that is not defined; a TALLY of an ADD that
reaches a quiet word adds to it. COPY_IN of the physical function writes the host's bytes at its device address and no other
byte; its COPY_OUT posts the blocks read to host memory; each completes as R438 states. A virtual function's COPY is first
released as an item of its HOST task, and once a core has drawn it, it moves the bytes. (20_host_interface.md) -/
def Obligations.HostCommands : Prop :=
  ∀ (c : HostIn) (s : State), s.calm →
    let v := s.at c.t
    let h := decHCmd (c.bytes.take 64)
    let x := v.hq c.fn c.q
    (v.takesHost c 5 → ∃ u, exec (.nop c) s = .next u ∧ u.answered v c hsOK 0 ∧ u.keeps v [.hqs, .host, .ints, .regs])
    ∧ (v.takesHost c 4 → s.dev.warm = none →
        ((s.pcfg (c.fn - 1)).task (leAt h.arg 0 2) = none →
          ∃ u, exec (.flag c) s = .next u ∧ u.rd (Reg.schFlagReject 0) = satAdd (v.rd (Reg.schFlagReject 0)) 1 ∧ u.answered v c hsOK 0
            ∧ u.keeps v [.hqs, .host, .ints, .regs])
        ∧ ∀ (r : TaskRec) (y : TaskSt), (s.pcfg (c.fn - 1)).task (leAt h.arg 0 2) = some r →
            s.task? r.die (c.fn - 1) (leAt h.arg 0 2) = some y →
            let f := y.flags ||| 2 ^ leAt h.arg 2 1
            (y.held = true ∨ if r.any then f &&& r.mask = 0 else f &&& r.mask ≠ r.mask) →
            ∃ u, exec (.flag c) s = .next u ∧ u.task? r.die (c.fn - 1) (leAt h.arg 0 2) = some { y with flags := f }
              ∧ u.answered v c hsOK 0 ∧ u.keeps v [.hqs, .host, .ints, .regs, .sched])
    ∧ (∀ (w : TWord) (tref operand : Nat), v.takesHost c 3 → tallyCmd h.arg = (tref, operand, opADD) → ¬(c.fn = 0 ∧ bit tref 63 = true) →
        v.quiet w →
        v.tallyOk opADD { issuer := .hostq c.fn c.q, part := if c.fn = 0 then 8 else c.fn - 1, tref, operand, cls := if c.fn = 0 then clsN else clsQ, t := c.t } w →
        ∃ u, exec (.tallyCommand c) s = .next u
          ∧ u.tword w = (if 2 ^ 56 ≤ (v.tword w).value + operand then { v.tword w with err := true }
                         else { v.tword w with value := (v.tword w).value + operand })
          ∧ u.answered v c hsOK 0 ∧ u.sync.waits = s.sync.waits ∧ u.wordAs v w ∧ u.keeps v tallyPieces)
    ∧ (c.fn = 0 → s.dev.warm = none → c.retry = [] → c.fail = [] → h.check = false →
        (v.takesHost c 1 → c.pcie = true → h.len ≤ c.data.length → v.fwOk .pf true (v.near h.dev) h.len = true →
          ∃ u, exec (.copyIn c) s = .next u ∧ u.peek (v.near h.dev) h.len = c.data.take h.len ∧ u.poisoned (v.near h.dev) h.len = false
            ∧ u.memAs v (v.near h.dev) h.len ∧ u.answered v c hsOK 0 ∧ u.keeps v [.hqs, .host, .ints, .regs, .mem, .ktl, .dev])
        ∧ (v.takesHost c 2 → v.fwOk .pf false (v.near h.dev) h.len = true → v.poisoned (v.near h.dev) h.len = false →
          ∃ u, exec (.copyOut c) s = .next u ∧ u.answered v c hsOK 0
            ∧ (∀ e ∈ blocksOf h.host h.len,
                ({ addr := h.host + e.1, data := ((v.touch (v.near h.dev) h.len).settleBuf (v.near h.dev) h.len).peek (v.near h.dev + e.1) e.2 } : HostWrite) ∈ u.hostW)
            ∧ (fwTarget (v.near h.dev) ≠ 2 → s.dev.bufGen = 0 → u.memAs v 0 0 ∧ u.dev = v.dev) ∧ u.keeps v [.hqs, .host, .ints, .regs, .mem, .ktl, .dev]))
    ∧ (∀ (r : TaskRec), c.fn ≠ 0 → s.hostTask (c.fn - 1) c.q = some r → v.credit c.fn c.q ≠ 0 →
        v.noCoreFor r.die (taskItem (c.fn - 1) r clsQ 0) = false →
        (v.takesHost c 1 → ∃ u, exec (.copyIn c) s = .next u ∧ u.hq c.fn c.q = { x.taken with copy := some (c.bytes.take 64), mute := false }
            ∧ u.keeps v (.hqs :: relPieces))
        ∧ (v.takesHost c 2 → ∃ u, exec (.copyOut c) s = .next u ∧ u.hq c.fn c.q = { x.taken with copy := some (c.bytes.take 64), mute := false }
            ∧ u.keeps v (.hqs :: relPieces)))
    ∧ (∀ (b : List Byte) (m : Mover), c.fn ≠ 0 → s.pcieUp = true → x.copy = some b → v.copyMover c.fn c.q = some m →
        (decHCmd b).op = 1 → v.farPkg (decHCmd b).dev = none → c.pcie = true → (decHCmd b).len ≤ c.data.length → c.retry = [] → c.fail = [] →
        (decHCmd b).check = false → v.fwOk m.who true (v.near (decHCmd b).dev) (decHCmd b).len = true →
        ∃ u, exec (.copyIn c) s = .next u ∧ u.peek (v.near (decHCmd b).dev) (decHCmd b).len = c.data.take (decHCmd b).len
          ∧ (u.hq c.fn c.q).copy = none ∧ u.memAs v (v.near (decHCmd b).dev) (decHCmd b).len
          ∧ u.keeps v [.hqs, .host, .ints, .regs, .mem, .ktl, .dev, .cores])

/-- PERST_N and a function-level reset of the physical function put every function's queues, queue registers and MSI-X entries at
their reset values, one of a virtual function its own alone; a COPY in progress goes on without a completion. D3HOT stops a
function's queues, D0 lets them go on. A BAR2 write that is admitted stores its bytes and no other, a read answers them; a
request that is not admitted is refused, counted, and stores nothing. VERDICT_TRACE_DROP drops one waiting record and counts
it. (20_host_interface.md, 17_interrupts.md) -/
def Obligations.PcieAndBar2 : Prop :=
  (∀ (t : Nat) (s : State), s.calm → s.pcieUp = true →
      ∃ u, exec (.perstN t) s = .next u
        ∧ (∀ i, i < 72 → u.hqs.getD i {} = { copy := (s.hqs.getD i {}).copy, mute := (s.hqs.getD i {}).copy.isSome })
        ∧ (∀ f, f < 9 → ∀ n, n < 2048 → u.ints.entry f n = {}) ∧ bit (u.rd Reg.hifLink).toNat 0 = true
        ∧ u.ints.slots = s.ints.slots ∧ u.keeps (s.at t) [.hqs, .regs, .ints, .fresh])
  ∧ (∀ (fn t : Nat) (s : State), s.calm → s.pcieUp = true → fn ≤ 8 →
      ∃ u, exec (.flr fn t) s = .next u
        ∧ (∀ i, i < 72 → u.hqs.getD i {} =
            if fn = 0 ∨ i / 8 = fn then { copy := (s.hqs.getD i {}).copy, mute := (s.hqs.getD i {}).copy.isSome } else s.hqs.getD i {})
        ∧ (∀ f, f < 9 → ∀ n, n < 2048 → u.ints.entry f n = if fn = 0 ∨ f = fn then {} else s.ints.entry f n)
        ∧ (∀ o, o < 0x10A000 ∨ 0x10C400 ≤ o → u.rd o = (s.at t).rd o) ∧ u.ints.slots = s.ints.slots
        ∧ u.keeps (s.at t) [.hqs, .regs, .ints])
  ∧ (∀ (fn t : Nat) (s : State), s.calm → s.pcieUp = true → fn ≤ 8 →
      (∃ u, exec (.d3hot fn t) s = .next u
        ∧ (∀ i, i < s.hqs.length → u.hqs.getD i {} = if i / 8 = fn then { s.hqs.getD i {} with asleep := true } else s.hqs.getD i {})
        ∧ u.keeps (s.at t) [.hqs])
      ∧ ∃ u, exec (.d0 fn t) s = .next u
        ∧ (∀ i, i < s.hqs.length → u.hqs.getD i {} = if i / 8 = fn then { s.hqs.getD i {} with asleep := false } else s.hqs.getD i {})
        ∧ u.keeps (s.at t) [.hqs])
  ∧ (∀ (a : MemAcc) (s : State), s.calm → s.pcieUp = true → a.fn ≤ 8 →
      let v := s.at a.t
      let n := if a.write then a.data.length else a.len
      n ≠ 0 → a.off + n ≤ 2 ^ 36 →
      ∃ u, exec (.bar2Access a) s = .next u ∧
        if v.bar2Ok a.fn a.off n a.write = true then
          if a.write = true then u.peek a.off n = a.data ∧ u.compl = some {} ∧ u.memAs v a.off n ∧ u.keeps v [.mem, .regs, .compl]
          else u.compl = some { data := v.peek a.off n, poison := v.poisoned a.off n } ∧ u.keeps v [.regs, .compl]
        else u.compl = (if a.write = true then some {} else some { poison := true })
          ∧ u.rd Reg.glbFwRefused = satAdd (v.rd Reg.glbFwRefused) 1
          ∧ u.rd Reg.hifRefused = (if a.write = true then satAdd (v.rd Reg.hifRefused) 1 else v.rd Reg.hifRefused)
          ∧ u.keeps v [.regs, .ints, .errs, .fresh, .mem, .compl])
  ∧ (∀ (p t : Nat) (s : State) (r : TraceRec), s.calm → p < 8 →
      (s.at t).traceQ.find? (fun r => r.die.isNone && r.part == p && decide (r.t + 1000 ≤ (s.at t).time)) = some r →
      ∃ u, exec (.verdictTraceDrop p t) s = .next u ∧ u.traceQ = (s.at t).traceQ.erase r
        ∧ u.rd (Reg.hifVtDrop p) = satAdd ((s.at t).rd (Reg.hifVtDrop p)) 1
        ∧ u.regsAs (s.at t) [Reg.hifVtDrop p] ∧ u.keeps (s.at t) [.traceQ, .regs])

/-- IN_BAND_STATUS of 1,000 Mb/s full duplex with the link up brings a port's link up, clears its error and begins a bus start
where none is under way; any other word takes the link down with error 1. PHY_POLL of a used port whose PHY has no link
records error 2. BUS_TRANSITION goes on to the next bus state, and the last one begins the cycles with the next cycle start; a
failed one records its code. BLOCK_LOCK sets what a 25GBASE-R port shows. (21_field_interfaces.md) -/
def Obligations.FieldbusPorts : Prop :=
  (∀ (n w t : Nat) (s : State), s.calm → s.dev.up = true → n < 4 → s.fif.ports.length = 4 → s.readyBit (rbFBS + n) = true →
      let x := s.port n
      let up := bit w 15 && bit w 12 && bits w 11 10 == 2
      ∃ u, exec (.inBandStatus n w t) s = .next u ∧ (u.port n).link = up
        ∧ (∀ m, m ≠ n → u.port m = s.port m)
        ∧ (up = x.link → u.keeps (s.at t) [])
        ∧ (up = true → x.link = false → (u.port n).err = 0 ∧
            if x.bus = 0 ∧ x.cfgRec.mode ≠ 0 then
              (u.port n).bus = (if x.cfgRec.mode = 2 then 4 else 1) ∧ (u.port n).cycling = decide (x.cfgRec.mode = 2)
                ∧ (u.port n).k = x.cfgRec.nextCycle (s.at t).time
            else u.port n = { x with link := true, err := 0 })
        ∧ (up = false → x.link = true → u.port n = { x with link := false, err := 1 })
        ∧ u.keeps (s.at t) [.fif, .ints, .regs])
  ∧ (∀ (n t : Nat) (s : State), s.calm → s.dev.up = true → n < 4 → s.fif.ports.length = 4 → s.readyBit (rbFBS + n) = true →
      (s.port n).cfgRec.mode ≠ 0 →
      (∃ u, exec (.phyPoll n false t) s = .next u ∧ u.port n = { s.port n with err := 2 } ∧ u.keeps (s.at t) [.fif, .ints, .regs])
      ∧ ∃ u, exec (.phyPoll n true t) s = .next u ∧ u.keeps (s.at t) [])
  ∧ (∀ (n t : Nat) (o : BusIn) (s : State), s.calm → s.dev.up = true → n < 4 → s.fif.ports.length = 4 →
      (s.port n).cfgRec.mode = 1 → (s.port n).link = true → 1 ≤ (s.port n).bus → (s.port n).bus < 4 → (s.port n).err = 0 →
      ∃ u, exec (.busTransition n o t) s = .next u
        ∧ u.port n = (if o.ok = true then { s.port n with bus := (s.port n).bus + 1, cycling := (s.port n).bus == 3, k := (s.port n).cfgRec.nextCycle (s.at t).time }
                      else { s.port n with err := if o.err = 0 ∨ 15 < o.err then 3 else o.err })
        ∧ (∀ m, m ≠ n → u.port m = s.port m) ∧ (u.ints.slot (isrcFIELDBUS + n) 0).st ≠ .idle ∧ u.keeps (s.at t) [.fif, .ints, .regs])
  ∧ (∀ (n t : Nat) (b : Bool) (s : State), s.calm → s.dev.up = true → n < 4 → s.fif.ethUp.length = 4 → s.readyBit (rbETH + n) = true →
      (s.cfg.ifg.eth.getD n {}).mode = 1 →
      ∃ u, exec (.blockLock n b t) s = .next u ∧ u.fif.ethUp.getD n false = b
        ∧ (∀ m, m ≠ n → u.fif.ethUp.getD m false = s.fif.ethUp.getD m false) ∧ u.fif.ports = s.fif.ports ∧ u.keeps (s.at t) [.fif])

/-- CYCLE of a cycling port sends its frame: the targets and controlwords of its axes for the application time of the cycle,
counted, the output watchdog served with the cycle's number, and the frame awaits its return; a cycle whose frame has not come
back is counted as missed, and MISS_MAX of them in a row stop the port's mechanisms. Where the channels' datapaths disagree,
both channels fail. INPUT_IMAGE with a bad CRC or a low working counter is counted; else it is the port's image of that cycle,
its axes as the frame gives them. FEEDBACK_FRAME joins the image of its cycle, and the last drive's completes it.
(21_field_interfaces.md, 14_safety_concept.md) -/
def Obligations.Cycles : Prop :=
  (∀ (n : Nat) (o : CycleIn) (s : State), s.calm → s.dev.up = true → n < 4 → s.fif.ports.length = 4 → s.warden.wds.length = 12 →
      s.warden.mechs.length = 16 →
      let x := s.port n
      let t := x.cfgRec.start x.k + o.late
      let v := s.at t
      x.cycling = true → x.bus = 4 → (s.outExpects (8 + n) = true → (s.outOpen (8 + n)).1 ≤ t ∧ t < (s.outOpen (8 + n)).2) →
      ∃ u, exec (.cycle n o) s = .next u ∧ u.time = v.time ∧ (u.port n).k = x.k + 1 ∧ (u.port n).sent = true ∧ (u.port n).sentK = x.k
        ∧ (∀ m, m ≠ n → u.port m = s.port m) ∧ (u.wd (8 + n)).frame = x.k % 65536
        ∧ u.rd64 (Reg.fbsCyclesLo n) = (v.rd64 (Reg.fbsCyclesLo n) + 1) % 2 ^ 64
        ∧ (o.agree = false → s.warden.chA = true → s.warden.chB = true → u.warden.chA = false ∧ u.warden.chB = false)
        ∧ (x.sent = false → o.agree = true →
            (u.port n).out = (v.portAxes n).map (v.setpoint x.k (x.cfgRec.start x.k + x.cfgRec.shift))
              ∧ (u.port n).soeOut = (if x.cfgRec.mode = 1 then (v.portSoe n).map (fun e => (e.2, v.soeData e.1)) else [])
              ∧ (u.port n).misses = x.misses ∧ u.keeps v [.fif, .warden, .regs, .fresh])
        ∧ (x.sent = true → (u.port n).misses = x.misses + 1 ∧ u.rd (Reg.fbsMissed n) = satAdd (v.rd (Reg.fbsMissed n)) 1
            ∧ (x.cfgRec.missMax = x.misses + 1 → (u.port n).err = 7 ∧ ∀ m ∈ s.portMechs n, (u.wm m).held = true)))
  ∧ (∀ (n : Nat) (o : ImageIn) (s : State), s.calm → s.dev.up = true → n < 4 → s.fif.ports.length = 4 →
      let x := s.port n
      let v := s.at o.t
      x.cfgRec.mode = 1 → x.sent = true → x.cfgRec.start x.sentK ≤ o.t → o.t < x.cfgRec.start x.k →
      ∃ u, exec (.inputImage n o) s = .next u ∧
        if o.crc = false then u.rd (Reg.fbsRxErr n) = satAdd (v.rd (Reg.fbsRxErr n)) 1 ∧ u.regsAs v [Reg.fbsRxErr n] ∧ u.keeps v [.regs]
        else if o.wkc < x.img.wkc then u.rd (Reg.fbsWkcErr n) = satAdd (v.rd (Reg.fbsWkcErr n)) 1 ∧ u.regsAs v [Reg.fbsWkcErr n] ∧ u.keeps v [.regs]
        else (u.port n).sent = false ∧ (u.port n).misses = 0 ∧ (u.port n).imgAt = some (x.cfgRec.start x.sentK) ∧ (u.port n).imgK = x.sentK
          ∧ (u.port n).axes = (v.portAxes n).map (axisOf o.axes) ∧ u.rd (Reg.fbsDcDev n) = o.dc
          ∧ (∀ m, m ≠ n → u.port m = s.port m)
          ∧ ((∀ q ∈ s.cfg.parts, ¬(s.running q.num = true ∧ o.t < (s.prun q.num).t0)) → u.keeps v (.fif :: trigPieces)))
  ∧ (∀ (n d : Nat) (o : FeedIn) (s : State), s.calm → s.dev.up = true → n < 4 → s.fif.ports.length = 4 →
      let x := s.port n
      let v := s.at o.t
      let mine := ((v.portAxes n).filter fun a => a.offs.getD 0 0 == d).map (axisOf o.axes)
      x.cfgRec.mode = 2 → x.sent = true → d < x.img.drives.length → o.k = x.sentK % 2 ^ 32 → x.cfgRec.start x.sentK ≤ o.t →
      o.t < x.cfgRec.start x.k → d ∉ x.got →
      ∃ u, exec (.feedbackFrame n d o) s = .next u ∧
        if o.ok = false then u.rd (Reg.fbsRxErr n) = satAdd (v.rd (Reg.fbsRxErr n)) 1 ∧ u.keeps v [.regs]
        else if x.got.length + 1 < x.img.drives.length then
          u.port n = { x with got := d :: x.got, stage := x.stage ++ mine } ∧ u.keeps v [.fif]
        else x.got.length + 1 = x.img.drives.length → (u.port n).sent = false ∧ (u.port n).imgAt = some (x.cfgRec.start x.sentK)
          ∧ (u.port n).imgK = x.sentK ∧ (u.port n).axes = x.stage ++ mine)

/-- SYNC_MESSAGE records the offset and the grandmaster, ends a holdover, counts towards LOCKED, and corrects the rate by at most
200 ppm against the offset's sign; an offset above 1 ms steps device time while no partition runs frames, and waits under
STEP_WAIT while one does, until DEFERRED_TIME_STEP applies it. HOLDOVER is set 3 s after the last Sync. SYNC_TRANSMIT and
DELAY_REQ of a time-transmitter port record the Sync sent and the answer given. (21_field_interfaces.md, 00_scope.md) -/
def Obligations.TimeSync : Prop :=
  (∀ (o : PtpIn) (s : State), s.calm → s.dev.up = true → s.ptpPort.isSome = true →
      let off := o.offset.toInt
      let p := s.fif.ptp
      let big := decide (1000000 < off.natAbs)
      ∃ u, exec (.syncMessage o) s = .next u ∧ u.fif.ptp.offset = off ∧ u.fif.ptp.gm = o.gm ∧ u.fif.ptp.last = some o.t
        ∧ u.fif.ptp.holdover = false ∧ u.fif.ptp.stepWait = (big && s.anyRunning)
        ∧ u.fif.ptp.good = (if off.natAbs ≤ 100 then p.good + 1 else 0) ∧ u.fif.ptp.bad = (if 1000 < off.natAbs then p.bad + 1 else 0)
        ∧ u.fif.ptp.locked = (decide (16 ≤ u.fif.ptp.good) || (p.locked && !decide (4 ≤ u.fif.ptp.bad)))
        ∧ (if big = true ∧ s.anyRunning = false then
             u.time = (((s.at o.t).time : Int) - off).toNat / 8 * 8 ∧ u.fif.ptp.slew = p.slew
               ∧ u.keeps (s.at o.t) [.time, .fif, .fresh, .ints, .regs]
           else u.fif.ptp.slew.natAbs ≤ 200000 ∧ (0 < off → u.fif.ptp.slew ≤ 0) ∧ (off ≤ 0 → 0 ≤ u.fif.ptp.slew)
             ∧ u.fif.ports = s.fif.ports ∧ u.keeps (s.at o.t) [.fif, .fresh, .ints, .regs]))
  ∧ (∀ (t : Nat) (s : State), s.calm → s.dev.up = true → s.fif.ptp.stepWait = true → s.fif.ports.length = 4 →
      (s.anyRunning = false → ∃ u, exec (.deferredTimeStep t) s = .next u ∧ u.fif.ptp = { s.fif.ptp with stepWait := false }
        ∧ u.time = (((s.at t).time : Int) - s.fif.ptp.offset).toNat / 8 * 8
        ∧ (∀ n, n < 4 → (u.port n).dcLock = false ∧ (u.port n).k = (s.port n).cfgRec.nextCycle u.time)
        ∧ u.keeps (s.at t) [.time, .fif, .ints, .regs])
      ∧ (s.anyRunning = true → ∃ u, exec (.deferredTimeStep t) s = .next u ∧ u.keeps (s.at t) []))
  ∧ (∀ (t : Nat) (s : State), s.calm → s.dev.up = true → s.ptpPort.isSome = true → s.fif.ptp.holdover = false →
      s.fif.ptp.last.getD 0 + 3000000000 ≤ (s.at t).time →
      ∃ u, exec (.holdover t) s = .next u ∧ u.fif.ptp = { s.fif.ptp with holdover := true } ∧ (u.ints.slot isrcPTP 0).st ≠ .idle
        ∧ u.keeps (s.at t) [.fif, .ints, .regs])
  ∧ (∀ (n t : Nat) (s : State), s.calm → s.dev.up = true → n < 8 → bit s.cfg.ifg.ptpTx n = true →
      ((∀ e ∈ s.fif.sentSync, e.1 = n → e.2.2 + s.syncEvery ≤ (s.at t).time) →
        ∃ u, exec (.syncTransmit n t) s = .next u ∧ u.fif.sentSync.head? = some (n, s.fif.ptp.txSeq, (s.at t).time)
          ∧ u.fif.ptp.txSeq = (s.fif.ptp.txSeq + 1) % 65536 ∧ u.keeps (s.at t) [.fif])
      ∧ ∃ u, exec (.delayReq n t) s = .next u ∧ u.fif.delayResp.head? = some (n, (s.at t).time) ∧ u.fif.ptp = s.fif.ptp ∧ u.keeps (s.at t) [.fif])

/-- FRAME_START of a camera channel with no buffer open opens its next buffer, with the stamp of its unit's last edge and latency
where the channel is stamped by a unit, or drops the frame, counted, while the channel holds. PACKET stores a camera's line at
its stride, cut to the stride and the buffer, or an Ethernet packet's record behind those of its span. FRAME_END and
SPAN_COMPLETE complete the oldest open buffer, in error where the frame ends so, and write its header.
(21_field_interfaces.md) -/
def Obligations.SensorBuffers : Prop :=
  (∀ (n t : Nat) (s : State) (c : Ingest), s.calm → s.dev.up = true → s.chan? n = some c → c.cfg.kind = 0 →
      (c.open_ = [] →
        ∃ u c', exec (.frameStart n t) s = .next u ∧ u.chan? n = some c' ∧
          if s.chanHolds c = true then c' = { c with held := true, dropSpan := none }
            ∧ u.rd (Reg.snsDrop c.cfg.chan) = satAdd ((s.at t).rd (Reg.snsDrop c.cfg.chan)) 1 ∧ u.keeps (s.at t) [.fif, .fresh, .regs, .ints]
          else ∃ b, c'.open_ = [b] ∧ b.seq = c.seq ∧ b.opened = t ∧ b.len = 0 ∧ c'.seq = c.seq + 1 ∧ c'.held = false
            ∧ (∀ e, c.cfg.stamp ≠ 0 → (s.fif.tsus.getD (c.cfg.stamp - 1) {}).lastEdge = some e → b.stamp = e + c.cfg.lat)
            ∧ u.keeps (s.at t) [.fif, .fresh])
      ∧ (∀ (b : IngBuf) (l : List IngBuf) (ok : Bool), c.open_ = b :: l →
          let a := c.cfg.bufAt b.seq
          ∃ u c' b', exec (.frameEnd n ok t) s = .next u ∧ u.chan? n = some c' ∧ c'.done = c.done ++ [b'] ∧ b ∉ c'.open_
            ∧ b'.seq = b.seq ∧ b'.err = (b.err || !ok) ∧ b'.done = some (tick t) ∧ c'.lastDone = c.cfg.slot b.seq
            ∧ (c.cfg.tref = 0 → (s.pcfg c.part).task c.cfg.task = none → s.memReady a = true → s.inImage a 64 = false →
                u.peek a 64 = b'.header c.cfg.chan (tick t) (crc32c ((s.at t).peek (a + 64) b.len)).toNat
                ∧ u.memAs (s.at t) a 64 ∧ u.keeps (s.at t) [.fif, .mem, .regs, .ints])))
  ∧ (∀ (o : PacketIn) (s : State) (c : Ingest), s.calm → s.dev.up = true → s.chan? o.chan = some c → o.ok = true →
      let v := s.at o.t
      (∀ (b : IngBuf) (l : List IngBuf), c.cfg.kind = 0 → c.open_ = b :: l →
        let at_ := b.lines * c.cfg.stride
        let room := min c.cfg.stride (c.cfg.bufLen - 64 - at_)
        let d := o.data.take room
        let a := c.cfg.bufAt b.seq + 64 + at_
        d ≠ [] → s.memReady a = true → s.inImage a d.length = false →
        ∃ u c', exec (.packet o) s = .next u ∧ u.chan? o.chan = some c'
          ∧ c'.open_.head? = some { b with lines := b.lines + 1, trunc := b.trunc || decide (room < o.data.length), len := max b.len (at_ + d.length) }
          ∧ u.peek a d.length = d ∧ u.memAs v a d.length ∧ u.keeps v [.fif, .fresh, .mem, .regs])
      ∧ (∀ (b : IngBuf), c.cfg.kind = 1 → s.fif.ethUp.getD c.cfg.src false = true →
        c.cfg.takes (s.cfg.ifg.eth.getD c.cfg.src {}).mac o.data = true → c.cfg.span ≠ 0 →
        let stamp : Int := tick o.stamp - c.cfg.lat
        let j := (stamp.fdiv (c.cfg.span * 1000)).toNat
        let a := c.cfg.bufAt b.seq + 64 + b.len
        let n := alignUp (16 + o.data.length) 64
        c.dropSpan ≠ some j → c.open_.find? (fun b => b.span == j) = some b → 64 + b.len + n ≤ c.cfg.bufLen →
        s.memReady a = true → s.inImage a n = false →
        ∃ u c', exec (.packet o) s = .next u ∧ u.chan? o.chan = some c' ∧ { b with len := b.len + n } ∈ c'.open_
          ∧ u.peek a (16 + o.data.length) = intLE 8 stamp ++ toLE 2 o.data.length ++ zeros 6 ++ o.data
          ∧ u.memAs v a n ∧ u.keeps v [.fif, .mem, .regs]))
  ∧ (∀ (n t : Nat) (s : State) (c : Ingest) (b : IngBuf) (l : List IngBuf), s.calm → s.dev.up = true → s.chan? n = some c →
      c.cfg.kind = 1 → c.open_ = b :: l →
      let e := ((b.span + 1) * c.cfg.span + c.cfg.grace) * 1000
      e ≤ t →
      ∃ u c' b', exec (.spanComplete n t) s = .next u ∧ u.time = (s.at t).time ∧ u.chan? n = some c' ∧ c'.done = c.done ++ [b'] ∧ b ∉ c'.open_
        ∧ b'.seq = b.seq ∧ b'.err = b.err ∧ b'.stamp = b.stamp ∧ b'.done = some (tick e))

/-- CAPTURE of an edge that EDGE selects stamps it behind the captures that wait, or counts it where 16 wait; the unit's last edge
is its stamp. PULSE drives the next edge of a PULSE unit at START_NS + k × PERIOD_NS, or its end WIDTH_NS later. PPS is an
edge at a whole second. TSU_CAP_READ answers the oldest capture and removes it. No other unit changes.
(21_field_interfaces.md) -/
def Obligations.TimestampUnits : Prop :=
  ∀ (i : Nat) (s : State), s.calm → i < s.fif.tsus.length →
    let x := s.fif.tsus.getD i {}
    let others (u : State) : Prop := ∀ j, j ≠ i → u.fif.tsus.getD j {} = s.fif.tsus.getD j {}
    (∀ (r : TsuRec) (rising : Bool) (t : Nat), x.rec_ = some r → s.dev.up = true → r.mode = 0 →
        bit r.edge (if rising = true then 0 else 1) = true →
        ∃ u, exec (.capture i rising t) s = .next u ∧ others u ∧ (u.fif.tsus.getD i {}).lastEdge = some (s.at t).time
          ∧ (u.fif.tsus.getD i {}).fifo = (if x.fifo.length < 16 then x.fifo ++ [(s.at t).time] else x.fifo)
          ∧ (x.fifo.length < 16 → u.keeps (s.at t) [.fif])
          ∧ (16 ≤ x.fifo.length → bits (u.rd (Reg.snsTsuStatus i)).toNat 31 16 = min 65535 (bits ((s.at t).rd (Reg.snsTsuStatus i)).toNat 31 16 + 1)
              ∧ u.regsAs (s.at t) [Reg.snsTsuStatus i] ∧ u.keeps (s.at t) [.fif, .regs]))
    ∧ (∀ (r : TsuRec), x.rec_ = some r → s.dev.up = true → r.mode = 1 →
        let e := r.start + x.k * r.period
        ∃ u, exec (.pulse i) s = .next u ∧ others u ∧
          if x.level = true then u.fif.tsus.getD i {} = { x with level := false, k := x.k + 1 } ∧ u.time = (s.at (e + r.width)).time
            ∧ u.keeps (s.at (e + r.width)) [.fif]
          else u.fif.tsus.getD i {} = { x with level := true, lastEdge := some (tick e) } ∧ u.time = (s.at e).time ∧ u.keeps (s.at e) [.fif])
    ∧ (∀ (r : TsuRec) (t : Nat), x.rec_ = some r → s.dev.up = true → r.mode = 2 → t % 1000000000 = 0 →
        ∃ u, exec (.pps i t) s = .next u ∧ others u ∧ u.fif.tsus.getD i {} = { x with lastEdge := some t } ∧ u.keeps (s.at t) [.fif])
    ∧ (∀ (fn t : Nat), i < 8 → s.takesRead { fn, off := Reg.snsTsuCapLo i } →
        ∃ u, exec (.tsuCapRead fn i t) s = .next u ∧ others u ∧ u.fif.tsus.getD i {} = { x with fifo := x.fifo.drop 1 }
          ∧ u.compl = some { data := toLE 4 (BitVec.ofNat 32 (x.fifo.headD 0)).toNat }
          ∧ u.hi.get none (16 * Reg.snsTsuCapHi i + fn) = some (BitVec.ofNat 32 (x.fifo.headD 0 / 2 ^ 32))
          ∧ u.keeps (s.at t) [.fif, .latches, .compl])

/-- FLIT with an error asks for a replay, the sixteenth within 1 ms retrains the port; a good one in order is accepted and
counted. LINK_UP takes a trained port up, carrying where no partition is RUNNING, and holds one whose partner's number is
taken. PORT_DOWN and a CDL_CTRL that clears EN take a port down, count it and record it where it carried. A request from
another package whose CDL_OPEN bit is set reads or writes the memory of its partition as admitted; any other is refused with
no byte changed. REMOTE_TIMEOUT gives up a request after 100 µs and counts it. CDL_OPEN is written only while its partition is
not RUNNING. (22_crindadon_link.md) -/
def Obligations.Links : Prop :=
  (∀ (n t : Nat) (o : FlitIn) (s : State), s.calm → s.dev.up = true → n < 4 → s.links.ports.length = 4 → (s.cport n).live = true →
      let x := s.cport n
      let v := s.at t
      let l := v.time :: x.replays.filter fun r => decide (v.time < r + 1000000)
      ∃ u, exec (.flit n o t) s = .next u ∧
        if o.good = false then u.rd (Reg.cdlRetry n) = satAdd (v.rd (Reg.cdlRetry n)) 1 ∧ (u.cport n).replays = (if 16 ≤ l.length then [] else l)
          ∧ (u.cport n).st = (if 16 ≤ l.length then .training else x.st) ∧ u.keeps v [.links, .ints, .regs]
        else if o.seq = x.rxSeq then (u.cport n).rxSeq = x.rxSeq + 1 ∧ (u.cport n).st = x.st
          ∧ u.rd64 (Reg.cdlRxFlitsLo n) = (if o.idle = true then v.rd64 (Reg.cdlRxFlitsLo n) else (v.rd64 (Reg.cdlRxFlitsLo n) + 1) % 2 ^ 64)
          ∧ u.rd (Reg.cdlCorrected n) = (if o.corrected = true then satAdd (v.rd (Reg.cdlCorrected n)) 1 else v.rd (Reg.cdlCorrected n))
          ∧ u.keeps v [.links, .regs, .fresh]
        else u.keeps v [])
  ∧ (∀ (n t : Nat) (o : TrainIn) (s : State), s.calm → s.dev.up = true → n < 4 → s.links.ports.length = 4 → o.pkg < 8 →
      s.readyBit (rbLINK + n) = true → bit (s.rd (Reg.cdlCtrl n)).toNat 0 = true → ((s.cport n).st = .down ∨ (s.cport n).st = .training) →
      ∃ u, exec (.linkUp n o t) s = .next u ∧
        if s.dupPeer n o = true then (u.cport n).st = .held ∧ (u.cport n).dup = true ∧ (u.cport n).carries = false
        else (u.cport n).st = (if o.full = true then .up else .degraded) ∧ (u.cport n).peerPkg = o.pkg ∧ (u.cport n).peerPort = o.port % 4
          ∧ (u.cport n).peerUid = o.uid ∧ (u.cport n).carries = ((s.cport n).carries || !s.somePart)
          ∧ (u.ints.slot (isrcLINK + n) 0).st ≠ .idle ∧ u.keeps (s.at t) [.links, .ints, .regs, .fresh])
  ∧ (∀ (n t : Nat) (s : State), s.calm → s.dev.up = true → n < 4 → s.links.ports.length = 4 →
      (s.cport n).st ≠ .down → (s.cport n).st ≠ .held →
      let down (u v : State) : Prop := (u.cport n).st = .down ∧ (u.cport n).carries = false ∧ (u.cport n).replays = []
        ∧ u.rd (Reg.cdlDownCount n) = satAdd (v.rd (Reg.cdlDownCount n)) 1 ∧ u.errs.seq = s.errs.seq + (if (s.cport n).carries = true then 1 else 0)
      (∃ u, exec (.portDown n t) s = .next u ∧ down u (s.at t)
          ∧ u.keeps (s.at t) [.links, .ints, .regs, .errs, .fresh, .mem])
      ∧ ∀ (fn w : Nat), s.takesWrite { fn, off := Reg.cdlCtrl n } → ∃ u, exec (.cdlCtrl fn n w t) s = .next u
          ∧ u.rd (Reg.cdlCtrl n) = BitVec.ofNat 32 (w % 2)
          ∧ if bit w 0 = true then u.regsAs (s.at t) [Reg.cdlCtrl n] ∧ u.keeps (s.at t) [.regs, .compl] else down u (s.at t))
  ∧ (∀ (o : RemoteIn) (s : State), s.calm → s.dev.up = true → o.port < 4 → (s.cport o.port).live = true → (s.cport o.port).carries = true →
      o.pkg < 8 → o.pkg ≠ s.dev.pkgSel → o.part < 8 → o.cls < 3 → (o.dest = none ∨ o.dest = some s.dev.pkgSel) → o.resp = false → o.op = 0 →
      let v := s.at o.t
      (bit (s.rd (Reg.cdlOpen o.part)).toNat o.pkg = false →
        ∃ u, exec (.remoteRequest o) s = .next u ∧ u.compl = some { ur := true } ∧ u.rd Reg.glbFwRefused = satAdd (v.rd Reg.glbFwRefused) 1
          ∧ u.errs.seq = s.errs.seq + 1)
      ∧ (bit (v.rd (Reg.cdlOpen o.part)).toNat o.pkg = true → o.write = true → o.bad = [] → o.retry = [] → o.fail = [] →
        v.remoteOk o true o.data.length = true →
        ∃ u, exec (.remoteRequest o) s = .next u ∧ u.peek o.addr o.data.length = o.data ∧ u.memAs v o.addr o.data.length
          ∧ u.compl = some {} ∧ u.keeps v [.mem, .regs, .ktl, .dev, .links, .fresh, .compl])
      ∧ (bit (v.rd (Reg.cdlOpen o.part)).toNat o.pkg = true → o.write = false → v.remoteOk o false o.len = true →
        ∃ u, exec (.remoteRequest o) s = .next u ∧ u.compl = some { data := v.peek o.addr o.len, poison := v.poisoned o.addr o.len }
          ∧ u.keeps v [.regs, .ktl, .links, .fresh, .compl]))
  ∧ (∀ (id t t0 : Nat) (s : State) (r : CReq), s.calm → s.links.reqs.find? (fun r => r.id == id) = some r → r.t = some t0 → t0 + 100000 ≤ t →
      r.core = none → r.sig = none →
      ∃ u, exec (.remoteTimeout id t) s = .next u ∧ (∀ y ∈ u.links.reqs, y.id ≠ id)
        ∧ u.rd Reg.cdlRemoteErr = satAdd ((s.at t).rd Reg.cdlRemoteErr) 1 ∧ u.keeps (s.at t) [.links, .regs, .fresh])
  ∧ (∀ (fn p v t : Nat) (s : State), s.calm → p < 8 → s.takesWrite { fn, off := Reg.cdlOpen p } →
      ∃ u, exec (.cdlOpen fn p v t) s = .next u
        ∧ u.rd (Reg.cdlOpen p) = (if (s.prun p).st = .running then (s.at t).rd (Reg.cdlOpen p) else BitVec.ofNat 32 (v % 256))
        ∧ u.regsAs (s.at t) [Reg.cdlOpen p] ∧ u.keeps (s.at t) [.regs, .compl])
end

