-- ==== Sys2Proof/Laws/State.lean ====
section
/-! SUPPORT. Small lemmas about fields and updates of the state: what each plain update leaves alone. -/

namespace Sys2Proof.Machine

variable (s : State)

/-! ### wr -/

@[simp] theorem State.wr_time (o : Nat) (v : Word) : (s.wr o v).time = s.time := rfl
@[simp] theorem State.wr_fuses (o : Nat) (v : Word) : (s.wr o v).fuses = s.fuses := rfl
@[simp] theorem State.wr_dev (o : Nat) (v : Word) : (s.wr o v).dev = s.dev := rfl
@[simp] theorem State.wr_hi (o : Nat) (v : Word) : (s.wr o v).hi = s.hi := rfl
@[simp] theorem State.wr_lo (o : Nat) (v : Word) : (s.wr o v).lo = s.lo := rfl
@[simp] theorem State.wr_compl (o : Nat) (v : Word) : (s.wr o v).compl = s.compl := rfl
@[simp] theorem State.wr_loader (o : Nat) (v : Word) : (s.wr o v).loader = s.loader := rfl
@[simp] theorem State.wr_parts (o : Nat) (v : Word) : (s.wr o v).parts = s.parts := rfl
@[simp] theorem State.wr_fld (o : Nat) (v : Word) : (s.wr o v).fld = s.fld := rfl
@[simp] theorem State.wr_cores (o : Nat) (v : Word) : (s.wr o v).cores = s.cores := rfl
@[simp] theorem State.wr_sched (o : Nat) (v : Word) : (s.wr o v).sched = s.sched := rfl
@[simp] theorem State.wr_sync (o : Nat) (v : Word) : (s.wr o v).sync = s.sync := rfl
@[simp] theorem State.wr_warden (o : Nat) (v : Word) : (s.wr o v).warden = s.warden := rfl
@[simp] theorem State.wr_errs (o : Nat) (v : Word) : (s.wr o v).errs = s.errs := rfl
@[simp] theorem State.wr_rots (o : Nat) (v : Word) : (s.wr o v).rots = s.rots := rfl
@[simp] theorem State.wr_ints (o : Nat) (v : Word) : (s.wr o v).ints = s.ints := rfl
@[simp] theorem State.wr_ktl (o : Nat) (v : Word) : (s.wr o v).ktl = s.ktl := rfl
@[simp] theorem State.wr_hqs (o : Nat) (v : Word) : (s.wr o v).hqs = s.hqs := rfl
@[simp] theorem State.wr_fif (o : Nat) (v : Word) : (s.wr o v).fif = s.fif := rfl
@[simp] theorem State.wr_links (o : Nat) (v : Word) : (s.wr o v).links = s.links := rfl
@[simp] theorem State.wr_arrs (o : Nat) (v : Word) : (s.wr o v).arrs = s.arrs := rfl
@[simp] theorem State.wr_engs (o : Nat) (v : Word) : (s.wr o v).engs = s.engs := rfl
@[simp] theorem State.wr_round (o : Nat) (v : Word) : (s.wr o v).round = s.round := rfl
@[simp] theorem State.wr_tdcSeen (o : Nat) (v : Word) : (s.wr o v).tdcSeen = s.tdcSeen := rfl
@[simp] theorem State.wr_traceQ (o : Nat) (v : Word) : (s.wr o v).traceQ = s.traceQ := rfl
@[simp] theorem State.wr_mem (o : Nat) (v : Word) : (s.wr o v).mem = s.mem := rfl
@[simp] theorem State.wr_psn (o : Nat) (v : Word) : (s.wr o v).psn = s.psn := rfl
@[simp] theorem State.wr_hostW (o : Nat) (v : Word) : (s.wr o v).hostW = s.hostW := rfl
@[simp] theorem State.wr_fresh (o : Nat) (v : Word) : (s.wr o v).fresh = s.fresh := rfl
@[simp] theorem State.wr_pending (o : Nat) (v : Word) : (s.wr o v).pending = s.pending := rfl

/-! ### inc -/

@[simp] theorem State.inc_time (o n : Nat) : (s.inc o n).time = s.time := by unfold State.inc; split <;> rfl
@[simp] theorem State.inc_fuses (o n : Nat) : (s.inc o n).fuses = s.fuses := by unfold State.inc; split <;> rfl
@[simp] theorem State.inc_dev (o n : Nat) : (s.inc o n).dev = s.dev := by unfold State.inc; split <;> rfl
@[simp] theorem State.inc_hi (o n : Nat) : (s.inc o n).hi = s.hi := by unfold State.inc; split <;> rfl
@[simp] theorem State.inc_lo (o n : Nat) : (s.inc o n).lo = s.lo := by unfold State.inc; split <;> rfl
@[simp] theorem State.inc_compl (o n : Nat) : (s.inc o n).compl = s.compl := by unfold State.inc; split <;> rfl
@[simp] theorem State.inc_loader (o n : Nat) : (s.inc o n).loader = s.loader := by unfold State.inc; split <;> rfl
@[simp] theorem State.inc_parts (o n : Nat) : (s.inc o n).parts = s.parts := by unfold State.inc; split <;> rfl
@[simp] theorem State.inc_fld (o n : Nat) : (s.inc o n).fld = s.fld := by unfold State.inc; split <;> rfl
@[simp] theorem State.inc_cores (o n : Nat) : (s.inc o n).cores = s.cores := by unfold State.inc; split <;> rfl
@[simp] theorem State.inc_sched (o n : Nat) : (s.inc o n).sched = s.sched := by unfold State.inc; split <;> rfl
@[simp] theorem State.inc_sync (o n : Nat) : (s.inc o n).sync = s.sync := by unfold State.inc; split <;> rfl
@[simp] theorem State.inc_warden (o n : Nat) : (s.inc o n).warden = s.warden := by unfold State.inc; split <;> rfl
@[simp] theorem State.inc_errs (o n : Nat) : (s.inc o n).errs = s.errs := by unfold State.inc; split <;> rfl
@[simp] theorem State.inc_rots (o n : Nat) : (s.inc o n).rots = s.rots := by unfold State.inc; split <;> rfl
@[simp] theorem State.inc_ints (o n : Nat) : (s.inc o n).ints = s.ints := by unfold State.inc; split <;> rfl
@[simp] theorem State.inc_ktl (o n : Nat) : (s.inc o n).ktl = s.ktl := by unfold State.inc; split <;> rfl
@[simp] theorem State.inc_hqs (o n : Nat) : (s.inc o n).hqs = s.hqs := by unfold State.inc; split <;> rfl
@[simp] theorem State.inc_fif (o n : Nat) : (s.inc o n).fif = s.fif := by unfold State.inc; split <;> rfl
@[simp] theorem State.inc_links (o n : Nat) : (s.inc o n).links = s.links := by unfold State.inc; split <;> rfl
@[simp] theorem State.inc_arrs (o n : Nat) : (s.inc o n).arrs = s.arrs := by unfold State.inc; split <;> rfl
@[simp] theorem State.inc_engs (o n : Nat) : (s.inc o n).engs = s.engs := by unfold State.inc; split <;> rfl
@[simp] theorem State.inc_round (o n : Nat) : (s.inc o n).round = s.round := by unfold State.inc; split <;> rfl
@[simp] theorem State.inc_tdcSeen (o n : Nat) : (s.inc o n).tdcSeen = s.tdcSeen := by unfold State.inc; split <;> rfl
@[simp] theorem State.inc_traceQ (o n : Nat) : (s.inc o n).traceQ = s.traceQ := by unfold State.inc; split <;> rfl
@[simp] theorem State.inc_mem (o n : Nat) : (s.inc o n).mem = s.mem := by unfold State.inc; split <;> rfl
@[simp] theorem State.inc_psn (o n : Nat) : (s.inc o n).psn = s.psn := by unfold State.inc; split <;> rfl
@[simp] theorem State.inc_hostW (o n : Nat) : (s.inc o n).hostW = s.hostW := by unfold State.inc; split <;> rfl
@[simp] theorem State.inc_fresh (o n : Nat) : (s.inc o n).fresh = s.fresh := by unfold State.inc; split <;> rfl
@[simp] theorem State.inc_pending (o n : Nat) : (s.inc o n).pending = s.pending := by unfold State.inc; split <;> rfl

/-! ### poke -/

@[simp] theorem State.poke_time (a : Nat) (b : List Byte) : (s.poke a b).time = s.time := rfl
@[simp] theorem State.poke_fuses (a : Nat) (b : List Byte) : (s.poke a b).fuses = s.fuses := rfl
@[simp] theorem State.poke_dev (a : Nat) (b : List Byte) : (s.poke a b).dev = s.dev := rfl
@[simp] theorem State.poke_regs (a : Nat) (b : List Byte) : (s.poke a b).regs = s.regs := rfl
@[simp] theorem State.poke_hi (a : Nat) (b : List Byte) : (s.poke a b).hi = s.hi := rfl
@[simp] theorem State.poke_lo (a : Nat) (b : List Byte) : (s.poke a b).lo = s.lo := rfl
@[simp] theorem State.poke_compl (a : Nat) (b : List Byte) : (s.poke a b).compl = s.compl := rfl
@[simp] theorem State.poke_loader (a : Nat) (b : List Byte) : (s.poke a b).loader = s.loader := rfl
@[simp] theorem State.poke_parts (a : Nat) (b : List Byte) : (s.poke a b).parts = s.parts := rfl
@[simp] theorem State.poke_fld (a : Nat) (b : List Byte) : (s.poke a b).fld = s.fld := rfl
@[simp] theorem State.poke_cores (a : Nat) (b : List Byte) : (s.poke a b).cores = s.cores := rfl
@[simp] theorem State.poke_sched (a : Nat) (b : List Byte) : (s.poke a b).sched = s.sched := rfl
@[simp] theorem State.poke_sync (a : Nat) (b : List Byte) : (s.poke a b).sync = s.sync := rfl
@[simp] theorem State.poke_warden (a : Nat) (b : List Byte) : (s.poke a b).warden = s.warden := rfl
@[simp] theorem State.poke_errs (a : Nat) (b : List Byte) : (s.poke a b).errs = s.errs := rfl
@[simp] theorem State.poke_rots (a : Nat) (b : List Byte) : (s.poke a b).rots = s.rots := rfl
@[simp] theorem State.poke_ints (a : Nat) (b : List Byte) : (s.poke a b).ints = s.ints := rfl
@[simp] theorem State.poke_ktl (a : Nat) (b : List Byte) : (s.poke a b).ktl = s.ktl := rfl
@[simp] theorem State.poke_hqs (a : Nat) (b : List Byte) : (s.poke a b).hqs = s.hqs := rfl
@[simp] theorem State.poke_fif (a : Nat) (b : List Byte) : (s.poke a b).fif = s.fif := rfl
@[simp] theorem State.poke_links (a : Nat) (b : List Byte) : (s.poke a b).links = s.links := rfl
@[simp] theorem State.poke_arrs (a : Nat) (b : List Byte) : (s.poke a b).arrs = s.arrs := rfl
@[simp] theorem State.poke_engs (a : Nat) (b : List Byte) : (s.poke a b).engs = s.engs := rfl
@[simp] theorem State.poke_round (a : Nat) (b : List Byte) : (s.poke a b).round = s.round := rfl
@[simp] theorem State.poke_tdcSeen (a : Nat) (b : List Byte) : (s.poke a b).tdcSeen = s.tdcSeen := rfl
@[simp] theorem State.poke_traceQ (a : Nat) (b : List Byte) : (s.poke a b).traceQ = s.traceQ := rfl
@[simp] theorem State.poke_psn (a : Nat) (b : List Byte) : (s.poke a b).psn = s.psn := rfl
@[simp] theorem State.poke_hostW (a : Nat) (b : List Byte) : (s.poke a b).hostW = s.hostW := rfl
@[simp] theorem State.poke_fresh (a : Nat) (b : List Byte) : (s.poke a b).fresh = s.fresh := rfl
@[simp] theorem State.poke_pending (a : Nat) (b : List Byte) : (s.poke a b).pending = s.pending := rfl

/-! ### mark -/

@[simp] theorem State.mark_time (a n : Nat) (bad : Bool) : (s.mark a n bad).time = s.time := rfl
@[simp] theorem State.mark_fuses (a n : Nat) (bad : Bool) : (s.mark a n bad).fuses = s.fuses := rfl
@[simp] theorem State.mark_dev (a n : Nat) (bad : Bool) : (s.mark a n bad).dev = s.dev := rfl
@[simp] theorem State.mark_regs (a n : Nat) (bad : Bool) : (s.mark a n bad).regs = s.regs := rfl
@[simp] theorem State.mark_hi (a n : Nat) (bad : Bool) : (s.mark a n bad).hi = s.hi := rfl
@[simp] theorem State.mark_lo (a n : Nat) (bad : Bool) : (s.mark a n bad).lo = s.lo := rfl
@[simp] theorem State.mark_compl (a n : Nat) (bad : Bool) : (s.mark a n bad).compl = s.compl := rfl
@[simp] theorem State.mark_loader (a n : Nat) (bad : Bool) : (s.mark a n bad).loader = s.loader := rfl
@[simp] theorem State.mark_parts (a n : Nat) (bad : Bool) : (s.mark a n bad).parts = s.parts := rfl
@[simp] theorem State.mark_fld (a n : Nat) (bad : Bool) : (s.mark a n bad).fld = s.fld := rfl
@[simp] theorem State.mark_cores (a n : Nat) (bad : Bool) : (s.mark a n bad).cores = s.cores := rfl
@[simp] theorem State.mark_sched (a n : Nat) (bad : Bool) : (s.mark a n bad).sched = s.sched := rfl
@[simp] theorem State.mark_sync (a n : Nat) (bad : Bool) : (s.mark a n bad).sync = s.sync := rfl
@[simp] theorem State.mark_warden (a n : Nat) (bad : Bool) : (s.mark a n bad).warden = s.warden := rfl
@[simp] theorem State.mark_errs (a n : Nat) (bad : Bool) : (s.mark a n bad).errs = s.errs := rfl
@[simp] theorem State.mark_rots (a n : Nat) (bad : Bool) : (s.mark a n bad).rots = s.rots := rfl
@[simp] theorem State.mark_ints (a n : Nat) (bad : Bool) : (s.mark a n bad).ints = s.ints := rfl
@[simp] theorem State.mark_ktl (a n : Nat) (bad : Bool) : (s.mark a n bad).ktl = s.ktl := rfl
@[simp] theorem State.mark_hqs (a n : Nat) (bad : Bool) : (s.mark a n bad).hqs = s.hqs := rfl
@[simp] theorem State.mark_fif (a n : Nat) (bad : Bool) : (s.mark a n bad).fif = s.fif := rfl
@[simp] theorem State.mark_links (a n : Nat) (bad : Bool) : (s.mark a n bad).links = s.links := rfl
@[simp] theorem State.mark_arrs (a n : Nat) (bad : Bool) : (s.mark a n bad).arrs = s.arrs := rfl
@[simp] theorem State.mark_engs (a n : Nat) (bad : Bool) : (s.mark a n bad).engs = s.engs := rfl
@[simp] theorem State.mark_round (a n : Nat) (bad : Bool) : (s.mark a n bad).round = s.round := rfl
@[simp] theorem State.mark_tdcSeen (a n : Nat) (bad : Bool) : (s.mark a n bad).tdcSeen = s.tdcSeen := rfl
@[simp] theorem State.mark_traceQ (a n : Nat) (bad : Bool) : (s.mark a n bad).traceQ = s.traceQ := rfl
@[simp] theorem State.mark_mem (a n : Nat) (bad : Bool) : (s.mark a n bad).mem = s.mem := rfl
@[simp] theorem State.mark_hostW (a n : Nat) (bad : Bool) : (s.mark a n bad).hostW = s.hostW := rfl
@[simp] theorem State.mark_fresh (a n : Nat) (bad : Bool) : (s.mark a n bad).fresh = s.fresh := rfl
@[simp] theorem State.mark_pending (a n : Nat) (bad : Bool) : (s.mark a n bad).pending = s.pending := rfl

/-! ### heal -/

@[simp] theorem State.heal_time (a n : Nat) : (s.heal a n).time = s.time := rfl
@[simp] theorem State.heal_fuses (a n : Nat) : (s.heal a n).fuses = s.fuses := rfl
@[simp] theorem State.heal_dev (a n : Nat) : (s.heal a n).dev = s.dev := rfl
@[simp] theorem State.heal_regs (a n : Nat) : (s.heal a n).regs = s.regs := rfl
@[simp] theorem State.heal_hi (a n : Nat) : (s.heal a n).hi = s.hi := rfl
@[simp] theorem State.heal_lo (a n : Nat) : (s.heal a n).lo = s.lo := rfl
@[simp] theorem State.heal_compl (a n : Nat) : (s.heal a n).compl = s.compl := rfl
@[simp] theorem State.heal_loader (a n : Nat) : (s.heal a n).loader = s.loader := rfl
@[simp] theorem State.heal_parts (a n : Nat) : (s.heal a n).parts = s.parts := rfl
@[simp] theorem State.heal_fld (a n : Nat) : (s.heal a n).fld = s.fld := rfl
@[simp] theorem State.heal_cores (a n : Nat) : (s.heal a n).cores = s.cores := rfl
@[simp] theorem State.heal_sched (a n : Nat) : (s.heal a n).sched = s.sched := rfl
@[simp] theorem State.heal_sync (a n : Nat) : (s.heal a n).sync = s.sync := rfl
@[simp] theorem State.heal_warden (a n : Nat) : (s.heal a n).warden = s.warden := rfl
@[simp] theorem State.heal_errs (a n : Nat) : (s.heal a n).errs = s.errs := rfl
@[simp] theorem State.heal_rots (a n : Nat) : (s.heal a n).rots = s.rots := rfl
@[simp] theorem State.heal_ints (a n : Nat) : (s.heal a n).ints = s.ints := rfl
@[simp] theorem State.heal_ktl (a n : Nat) : (s.heal a n).ktl = s.ktl := rfl
@[simp] theorem State.heal_hqs (a n : Nat) : (s.heal a n).hqs = s.hqs := rfl
@[simp] theorem State.heal_fif (a n : Nat) : (s.heal a n).fif = s.fif := rfl
@[simp] theorem State.heal_links (a n : Nat) : (s.heal a n).links = s.links := rfl
@[simp] theorem State.heal_arrs (a n : Nat) : (s.heal a n).arrs = s.arrs := rfl
@[simp] theorem State.heal_engs (a n : Nat) : (s.heal a n).engs = s.engs := rfl
@[simp] theorem State.heal_round (a n : Nat) : (s.heal a n).round = s.round := rfl
@[simp] theorem State.heal_tdcSeen (a n : Nat) : (s.heal a n).tdcSeen = s.tdcSeen := rfl
@[simp] theorem State.heal_traceQ (a n : Nat) : (s.heal a n).traceQ = s.traceQ := rfl
@[simp] theorem State.heal_mem (a n : Nat) : (s.heal a n).mem = s.mem := rfl
@[simp] theorem State.heal_hostW (a n : Nat) : (s.heal a n).hostW = s.hostW := rfl
@[simp] theorem State.heal_fresh (a n : Nat) : (s.heal a n).fresh = s.fresh := rfl
@[simp] theorem State.heal_pending (a n : Nat) : (s.heal a n).pending = s.pending := rfl

/-! ### store -/

@[simp] theorem State.store_time (a : Nat) (b : List Byte) : (s.store a b).time = s.time := State.inc_time _ _ _
@[simp] theorem State.store_fuses (a : Nat) (b : List Byte) : (s.store a b).fuses = s.fuses := State.inc_fuses _ _ _
@[simp] theorem State.store_dev (a : Nat) (b : List Byte) : (s.store a b).dev = s.dev := State.inc_dev _ _ _
@[simp] theorem State.store_hi (a : Nat) (b : List Byte) : (s.store a b).hi = s.hi := State.inc_hi _ _ _
@[simp] theorem State.store_lo (a : Nat) (b : List Byte) : (s.store a b).lo = s.lo := State.inc_lo _ _ _
@[simp] theorem State.store_compl (a : Nat) (b : List Byte) : (s.store a b).compl = s.compl := State.inc_compl _ _ _
@[simp] theorem State.store_loader (a : Nat) (b : List Byte) : (s.store a b).loader = s.loader := State.inc_loader _ _ _
@[simp] theorem State.store_parts (a : Nat) (b : List Byte) : (s.store a b).parts = s.parts := State.inc_parts _ _ _
@[simp] theorem State.store_fld (a : Nat) (b : List Byte) : (s.store a b).fld = s.fld := State.inc_fld _ _ _
@[simp] theorem State.store_cores (a : Nat) (b : List Byte) : (s.store a b).cores = s.cores := State.inc_cores _ _ _
@[simp] theorem State.store_sched (a : Nat) (b : List Byte) : (s.store a b).sched = s.sched := State.inc_sched _ _ _
@[simp] theorem State.store_sync (a : Nat) (b : List Byte) : (s.store a b).sync = s.sync := State.inc_sync _ _ _
@[simp] theorem State.store_warden (a : Nat) (b : List Byte) : (s.store a b).warden = s.warden := State.inc_warden _ _ _
@[simp] theorem State.store_errs (a : Nat) (b : List Byte) : (s.store a b).errs = s.errs := State.inc_errs _ _ _
@[simp] theorem State.store_rots (a : Nat) (b : List Byte) : (s.store a b).rots = s.rots := State.inc_rots _ _ _
@[simp] theorem State.store_ints (a : Nat) (b : List Byte) : (s.store a b).ints = s.ints := State.inc_ints _ _ _
@[simp] theorem State.store_ktl (a : Nat) (b : List Byte) : (s.store a b).ktl = s.ktl := State.inc_ktl _ _ _
@[simp] theorem State.store_hqs (a : Nat) (b : List Byte) : (s.store a b).hqs = s.hqs := State.inc_hqs _ _ _
@[simp] theorem State.store_fif (a : Nat) (b : List Byte) : (s.store a b).fif = s.fif := State.inc_fif _ _ _
@[simp] theorem State.store_links (a : Nat) (b : List Byte) : (s.store a b).links = s.links := State.inc_links _ _ _
@[simp] theorem State.store_arrs (a : Nat) (b : List Byte) : (s.store a b).arrs = s.arrs := State.inc_arrs _ _ _
@[simp] theorem State.store_engs (a : Nat) (b : List Byte) : (s.store a b).engs = s.engs := State.inc_engs _ _ _
@[simp] theorem State.store_round (a : Nat) (b : List Byte) : (s.store a b).round = s.round := State.inc_round _ _ _
@[simp] theorem State.store_tdcSeen (a : Nat) (b : List Byte) : (s.store a b).tdcSeen = s.tdcSeen := State.inc_tdcSeen _ _ _
@[simp] theorem State.store_traceQ (a : Nat) (b : List Byte) : (s.store a b).traceQ = s.traceQ := State.inc_traceQ _ _ _
@[simp] theorem State.store_hostW (a : Nat) (b : List Byte) : (s.store a b).hostW = s.hostW := State.inc_hostW _ _ _
@[simp] theorem State.store_fresh (a : Nat) (b : List Byte) : (s.store a b).fresh = s.fresh := State.inc_fresh _ _ _
@[simp] theorem State.store_pending (a : Nat) (b : List Byte) : (s.store a b).pending = s.pending := State.inc_pending _ _ _

/-! ### zero -/

@[simp] theorem State.zero_time (a n : Nat) : (s.zero a n).time = s.time := rfl
@[simp] theorem State.zero_fuses (a n : Nat) : (s.zero a n).fuses = s.fuses := rfl
@[simp] theorem State.zero_dev (a n : Nat) : (s.zero a n).dev = s.dev := rfl
@[simp] theorem State.zero_regs (a n : Nat) : (s.zero a n).regs = s.regs := rfl
@[simp] theorem State.zero_hi (a n : Nat) : (s.zero a n).hi = s.hi := rfl
@[simp] theorem State.zero_lo (a n : Nat) : (s.zero a n).lo = s.lo := rfl
@[simp] theorem State.zero_compl (a n : Nat) : (s.zero a n).compl = s.compl := rfl
@[simp] theorem State.zero_loader (a n : Nat) : (s.zero a n).loader = s.loader := rfl
@[simp] theorem State.zero_parts (a n : Nat) : (s.zero a n).parts = s.parts := rfl
@[simp] theorem State.zero_fld (a n : Nat) : (s.zero a n).fld = s.fld := rfl
@[simp] theorem State.zero_cores (a n : Nat) : (s.zero a n).cores = s.cores := rfl
@[simp] theorem State.zero_sched (a n : Nat) : (s.zero a n).sched = s.sched := rfl
@[simp] theorem State.zero_sync (a n : Nat) : (s.zero a n).sync = s.sync := rfl
@[simp] theorem State.zero_warden (a n : Nat) : (s.zero a n).warden = s.warden := rfl
@[simp] theorem State.zero_errs (a n : Nat) : (s.zero a n).errs = s.errs := rfl
@[simp] theorem State.zero_rots (a n : Nat) : (s.zero a n).rots = s.rots := rfl
@[simp] theorem State.zero_ints (a n : Nat) : (s.zero a n).ints = s.ints := rfl
@[simp] theorem State.zero_ktl (a n : Nat) : (s.zero a n).ktl = s.ktl := rfl
@[simp] theorem State.zero_hqs (a n : Nat) : (s.zero a n).hqs = s.hqs := rfl
@[simp] theorem State.zero_fif (a n : Nat) : (s.zero a n).fif = s.fif := rfl
@[simp] theorem State.zero_links (a n : Nat) : (s.zero a n).links = s.links := rfl
@[simp] theorem State.zero_arrs (a n : Nat) : (s.zero a n).arrs = s.arrs := rfl
@[simp] theorem State.zero_engs (a n : Nat) : (s.zero a n).engs = s.engs := rfl
@[simp] theorem State.zero_round (a n : Nat) : (s.zero a n).round = s.round := rfl
@[simp] theorem State.zero_tdcSeen (a n : Nat) : (s.zero a n).tdcSeen = s.tdcSeen := rfl
@[simp] theorem State.zero_traceQ (a n : Nat) : (s.zero a n).traceQ = s.traceQ := rfl
@[simp] theorem State.zero_hostW (a n : Nat) : (s.zero a n).hostW = s.hostW := rfl
@[simp] theorem State.zero_fresh (a n : Nat) : (s.zero a n).fresh = s.fresh := rfl
@[simp] theorem State.zero_pending (a n : Nat) : (s.zero a n).pending = s.pending := rfl

/-! ### wr64 -/

@[simp] theorem State.wr64_time (o v : Nat) : (s.wr64 o v).time = s.time := rfl
@[simp] theorem State.wr64_fuses (o v : Nat) : (s.wr64 o v).fuses = s.fuses := rfl
@[simp] theorem State.wr64_dev (o v : Nat) : (s.wr64 o v).dev = s.dev := rfl
@[simp] theorem State.wr64_hi (o v : Nat) : (s.wr64 o v).hi = s.hi := rfl
@[simp] theorem State.wr64_lo (o v : Nat) : (s.wr64 o v).lo = s.lo := rfl
@[simp] theorem State.wr64_compl (o v : Nat) : (s.wr64 o v).compl = s.compl := rfl
@[simp] theorem State.wr64_loader (o v : Nat) : (s.wr64 o v).loader = s.loader := rfl
@[simp] theorem State.wr64_parts (o v : Nat) : (s.wr64 o v).parts = s.parts := rfl
@[simp] theorem State.wr64_fld (o v : Nat) : (s.wr64 o v).fld = s.fld := rfl
@[simp] theorem State.wr64_cores (o v : Nat) : (s.wr64 o v).cores = s.cores := rfl
@[simp] theorem State.wr64_sched (o v : Nat) : (s.wr64 o v).sched = s.sched := rfl
@[simp] theorem State.wr64_sync (o v : Nat) : (s.wr64 o v).sync = s.sync := rfl
@[simp] theorem State.wr64_warden (o v : Nat) : (s.wr64 o v).warden = s.warden := rfl
@[simp] theorem State.wr64_errs (o v : Nat) : (s.wr64 o v).errs = s.errs := rfl
@[simp] theorem State.wr64_rots (o v : Nat) : (s.wr64 o v).rots = s.rots := rfl
@[simp] theorem State.wr64_ints (o v : Nat) : (s.wr64 o v).ints = s.ints := rfl
@[simp] theorem State.wr64_ktl (o v : Nat) : (s.wr64 o v).ktl = s.ktl := rfl
@[simp] theorem State.wr64_hqs (o v : Nat) : (s.wr64 o v).hqs = s.hqs := rfl
@[simp] theorem State.wr64_fif (o v : Nat) : (s.wr64 o v).fif = s.fif := rfl
@[simp] theorem State.wr64_links (o v : Nat) : (s.wr64 o v).links = s.links := rfl
@[simp] theorem State.wr64_arrs (o v : Nat) : (s.wr64 o v).arrs = s.arrs := rfl
@[simp] theorem State.wr64_engs (o v : Nat) : (s.wr64 o v).engs = s.engs := rfl
@[simp] theorem State.wr64_round (o v : Nat) : (s.wr64 o v).round = s.round := rfl
@[simp] theorem State.wr64_tdcSeen (o v : Nat) : (s.wr64 o v).tdcSeen = s.tdcSeen := rfl
@[simp] theorem State.wr64_traceQ (o v : Nat) : (s.wr64 o v).traceQ = s.traceQ := rfl
@[simp] theorem State.wr64_mem (o v : Nat) : (s.wr64 o v).mem = s.mem := rfl
@[simp] theorem State.wr64_psn (o v : Nat) : (s.wr64 o v).psn = s.psn := rfl
@[simp] theorem State.wr64_hostW (o v : Nat) : (s.wr64 o v).hostW = s.hostW := rfl
@[simp] theorem State.wr64_fresh (o v : Nat) : (s.wr64 o v).fresh = s.fresh := rfl
@[simp] theorem State.wr64_pending (o v : Nat) : (s.wr64 o v).pending = s.pending := rfl

/-! ### wrBits -/

@[simp] theorem State.wrBits_time (o hi lo v : Nat) : (s.wrBits o hi lo v).time = s.time := rfl
@[simp] theorem State.wrBits_fuses (o hi lo v : Nat) : (s.wrBits o hi lo v).fuses = s.fuses := rfl
@[simp] theorem State.wrBits_dev (o hi lo v : Nat) : (s.wrBits o hi lo v).dev = s.dev := rfl
@[simp] theorem State.wrBits_hi (o hi lo v : Nat) : (s.wrBits o hi lo v).hi = s.hi := rfl
@[simp] theorem State.wrBits_lo (o hi lo v : Nat) : (s.wrBits o hi lo v).lo = s.lo := rfl
@[simp] theorem State.wrBits_compl (o hi lo v : Nat) : (s.wrBits o hi lo v).compl = s.compl := rfl
@[simp] theorem State.wrBits_loader (o hi lo v : Nat) : (s.wrBits o hi lo v).loader = s.loader := rfl
@[simp] theorem State.wrBits_parts (o hi lo v : Nat) : (s.wrBits o hi lo v).parts = s.parts := rfl
@[simp] theorem State.wrBits_fld (o hi lo v : Nat) : (s.wrBits o hi lo v).fld = s.fld := rfl
@[simp] theorem State.wrBits_cores (o hi lo v : Nat) : (s.wrBits o hi lo v).cores = s.cores := rfl
@[simp] theorem State.wrBits_sched (o hi lo v : Nat) : (s.wrBits o hi lo v).sched = s.sched := rfl
@[simp] theorem State.wrBits_sync (o hi lo v : Nat) : (s.wrBits o hi lo v).sync = s.sync := rfl
@[simp] theorem State.wrBits_warden (o hi lo v : Nat) : (s.wrBits o hi lo v).warden = s.warden := rfl
@[simp] theorem State.wrBits_errs (o hi lo v : Nat) : (s.wrBits o hi lo v).errs = s.errs := rfl
@[simp] theorem State.wrBits_rots (o hi lo v : Nat) : (s.wrBits o hi lo v).rots = s.rots := rfl
@[simp] theorem State.wrBits_ints (o hi lo v : Nat) : (s.wrBits o hi lo v).ints = s.ints := rfl
@[simp] theorem State.wrBits_ktl (o hi lo v : Nat) : (s.wrBits o hi lo v).ktl = s.ktl := rfl
@[simp] theorem State.wrBits_hqs (o hi lo v : Nat) : (s.wrBits o hi lo v).hqs = s.hqs := rfl
@[simp] theorem State.wrBits_fif (o hi lo v : Nat) : (s.wrBits o hi lo v).fif = s.fif := rfl
@[simp] theorem State.wrBits_links (o hi lo v : Nat) : (s.wrBits o hi lo v).links = s.links := rfl
@[simp] theorem State.wrBits_arrs (o hi lo v : Nat) : (s.wrBits o hi lo v).arrs = s.arrs := rfl
@[simp] theorem State.wrBits_engs (o hi lo v : Nat) : (s.wrBits o hi lo v).engs = s.engs := rfl
@[simp] theorem State.wrBits_round (o hi lo v : Nat) : (s.wrBits o hi lo v).round = s.round := rfl
@[simp] theorem State.wrBits_tdcSeen (o hi lo v : Nat) : (s.wrBits o hi lo v).tdcSeen = s.tdcSeen := rfl
@[simp] theorem State.wrBits_traceQ (o hi lo v : Nat) : (s.wrBits o hi lo v).traceQ = s.traceQ := rfl
@[simp] theorem State.wrBits_mem (o hi lo v : Nat) : (s.wrBits o hi lo v).mem = s.mem := rfl
@[simp] theorem State.wrBits_psn (o hi lo v : Nat) : (s.wrBits o hi lo v).psn = s.psn := rfl
@[simp] theorem State.wrBits_hostW (o hi lo v : Nat) : (s.wrBits o hi lo v).hostW = s.hostW := rfl
@[simp] theorem State.wrBits_fresh (o hi lo v : Nat) : (s.wrBits o hi lo v).fresh = s.fresh := rfl
@[simp] theorem State.wrBits_pending (o hi lo v : Nat) : (s.wrBits o hi lo v).pending = s.pending := rfl

/-! ### toHost -/

@[simp] theorem State.toHost_time (a : Nat) (b : List Byte) : (s.toHost a b).time = s.time := rfl
@[simp] theorem State.toHost_fuses (a : Nat) (b : List Byte) : (s.toHost a b).fuses = s.fuses := rfl
@[simp] theorem State.toHost_dev (a : Nat) (b : List Byte) : (s.toHost a b).dev = s.dev := rfl
@[simp] theorem State.toHost_regs (a : Nat) (b : List Byte) : (s.toHost a b).regs = s.regs := rfl
@[simp] theorem State.toHost_hi (a : Nat) (b : List Byte) : (s.toHost a b).hi = s.hi := rfl
@[simp] theorem State.toHost_lo (a : Nat) (b : List Byte) : (s.toHost a b).lo = s.lo := rfl
@[simp] theorem State.toHost_compl (a : Nat) (b : List Byte) : (s.toHost a b).compl = s.compl := rfl
@[simp] theorem State.toHost_loader (a : Nat) (b : List Byte) : (s.toHost a b).loader = s.loader := rfl
@[simp] theorem State.toHost_parts (a : Nat) (b : List Byte) : (s.toHost a b).parts = s.parts := rfl
@[simp] theorem State.toHost_fld (a : Nat) (b : List Byte) : (s.toHost a b).fld = s.fld := rfl
@[simp] theorem State.toHost_cores (a : Nat) (b : List Byte) : (s.toHost a b).cores = s.cores := rfl
@[simp] theorem State.toHost_sched (a : Nat) (b : List Byte) : (s.toHost a b).sched = s.sched := rfl
@[simp] theorem State.toHost_sync (a : Nat) (b : List Byte) : (s.toHost a b).sync = s.sync := rfl
@[simp] theorem State.toHost_warden (a : Nat) (b : List Byte) : (s.toHost a b).warden = s.warden := rfl
@[simp] theorem State.toHost_errs (a : Nat) (b : List Byte) : (s.toHost a b).errs = s.errs := rfl
@[simp] theorem State.toHost_rots (a : Nat) (b : List Byte) : (s.toHost a b).rots = s.rots := rfl
@[simp] theorem State.toHost_ints (a : Nat) (b : List Byte) : (s.toHost a b).ints = s.ints := rfl
@[simp] theorem State.toHost_ktl (a : Nat) (b : List Byte) : (s.toHost a b).ktl = s.ktl := rfl
@[simp] theorem State.toHost_hqs (a : Nat) (b : List Byte) : (s.toHost a b).hqs = s.hqs := rfl
@[simp] theorem State.toHost_fif (a : Nat) (b : List Byte) : (s.toHost a b).fif = s.fif := rfl
@[simp] theorem State.toHost_links (a : Nat) (b : List Byte) : (s.toHost a b).links = s.links := rfl
@[simp] theorem State.toHost_arrs (a : Nat) (b : List Byte) : (s.toHost a b).arrs = s.arrs := rfl
@[simp] theorem State.toHost_engs (a : Nat) (b : List Byte) : (s.toHost a b).engs = s.engs := rfl
@[simp] theorem State.toHost_round (a : Nat) (b : List Byte) : (s.toHost a b).round = s.round := rfl
@[simp] theorem State.toHost_tdcSeen (a : Nat) (b : List Byte) : (s.toHost a b).tdcSeen = s.tdcSeen := rfl
@[simp] theorem State.toHost_traceQ (a : Nat) (b : List Byte) : (s.toHost a b).traceQ = s.traceQ := rfl
@[simp] theorem State.toHost_mem (a : Nat) (b : List Byte) : (s.toHost a b).mem = s.mem := rfl
@[simp] theorem State.toHost_psn (a : Nat) (b : List Byte) : (s.toHost a b).psn = s.psn := rfl
@[simp] theorem State.toHost_fresh (a : Nat) (b : List Byte) : (s.toHost a b).fresh = s.fresh := rfl
@[simp] theorem State.toHost_pending (a : Nat) (b : List Byte) : (s.toHost a b).pending = s.pending := rfl

/-! ### setPRun -/

@[simp] theorem State.setPRun_time (p : Nat) (x : PRun) : (s.setPRun p x).time = s.time := rfl
@[simp] theorem State.setPRun_fuses (p : Nat) (x : PRun) : (s.setPRun p x).fuses = s.fuses := rfl
@[simp] theorem State.setPRun_dev (p : Nat) (x : PRun) : (s.setPRun p x).dev = s.dev := rfl
@[simp] theorem State.setPRun_regs (p : Nat) (x : PRun) : (s.setPRun p x).regs = s.regs := rfl
@[simp] theorem State.setPRun_hi (p : Nat) (x : PRun) : (s.setPRun p x).hi = s.hi := rfl
@[simp] theorem State.setPRun_lo (p : Nat) (x : PRun) : (s.setPRun p x).lo = s.lo := rfl
@[simp] theorem State.setPRun_compl (p : Nat) (x : PRun) : (s.setPRun p x).compl = s.compl := rfl
@[simp] theorem State.setPRun_loader (p : Nat) (x : PRun) : (s.setPRun p x).loader = s.loader := rfl
@[simp] theorem State.setPRun_fld (p : Nat) (x : PRun) : (s.setPRun p x).fld = s.fld := rfl
@[simp] theorem State.setPRun_cores (p : Nat) (x : PRun) : (s.setPRun p x).cores = s.cores := rfl
@[simp] theorem State.setPRun_sched (p : Nat) (x : PRun) : (s.setPRun p x).sched = s.sched := rfl
@[simp] theorem State.setPRun_sync (p : Nat) (x : PRun) : (s.setPRun p x).sync = s.sync := rfl
@[simp] theorem State.setPRun_warden (p : Nat) (x : PRun) : (s.setPRun p x).warden = s.warden := rfl
@[simp] theorem State.setPRun_errs (p : Nat) (x : PRun) : (s.setPRun p x).errs = s.errs := rfl
@[simp] theorem State.setPRun_rots (p : Nat) (x : PRun) : (s.setPRun p x).rots = s.rots := rfl
@[simp] theorem State.setPRun_ints (p : Nat) (x : PRun) : (s.setPRun p x).ints = s.ints := rfl
@[simp] theorem State.setPRun_ktl (p : Nat) (x : PRun) : (s.setPRun p x).ktl = s.ktl := rfl
@[simp] theorem State.setPRun_hqs (p : Nat) (x : PRun) : (s.setPRun p x).hqs = s.hqs := rfl
@[simp] theorem State.setPRun_fif (p : Nat) (x : PRun) : (s.setPRun p x).fif = s.fif := rfl
@[simp] theorem State.setPRun_links (p : Nat) (x : PRun) : (s.setPRun p x).links = s.links := rfl
@[simp] theorem State.setPRun_arrs (p : Nat) (x : PRun) : (s.setPRun p x).arrs = s.arrs := rfl
@[simp] theorem State.setPRun_engs (p : Nat) (x : PRun) : (s.setPRun p x).engs = s.engs := rfl
@[simp] theorem State.setPRun_round (p : Nat) (x : PRun) : (s.setPRun p x).round = s.round := rfl
@[simp] theorem State.setPRun_tdcSeen (p : Nat) (x : PRun) : (s.setPRun p x).tdcSeen = s.tdcSeen := rfl
@[simp] theorem State.setPRun_traceQ (p : Nat) (x : PRun) : (s.setPRun p x).traceQ = s.traceQ := rfl
@[simp] theorem State.setPRun_mem (p : Nat) (x : PRun) : (s.setPRun p x).mem = s.mem := rfl
@[simp] theorem State.setPRun_psn (p : Nat) (x : PRun) : (s.setPRun p x).psn = s.psn := rfl
@[simp] theorem State.setPRun_hostW (p : Nat) (x : PRun) : (s.setPRun p x).hostW = s.hostW := rfl
@[simp] theorem State.setPRun_fresh (p : Nat) (x : PRun) : (s.setPRun p x).fresh = s.fresh := rfl
@[simp] theorem State.setPRun_pending (p : Nat) (x : PRun) : (s.setPRun p x).pending = s.pending := rfl

/-! ### setFault -/

@[simp] theorem State.setFault_time (x : FaultSt) : (s.setFault x).time = s.time := rfl
@[simp] theorem State.setFault_fuses (x : FaultSt) : (s.setFault x).fuses = s.fuses := rfl
@[simp] theorem State.setFault_dev (x : FaultSt) : (s.setFault x).dev = s.dev := rfl
@[simp] theorem State.setFault_regs (x : FaultSt) : (s.setFault x).regs = s.regs := rfl
@[simp] theorem State.setFault_hi (x : FaultSt) : (s.setFault x).hi = s.hi := rfl
@[simp] theorem State.setFault_lo (x : FaultSt) : (s.setFault x).lo = s.lo := rfl
@[simp] theorem State.setFault_compl (x : FaultSt) : (s.setFault x).compl = s.compl := rfl
@[simp] theorem State.setFault_loader (x : FaultSt) : (s.setFault x).loader = s.loader := rfl
@[simp] theorem State.setFault_parts (x : FaultSt) : (s.setFault x).parts = s.parts := rfl
@[simp] theorem State.setFault_fld (x : FaultSt) : (s.setFault x).fld = s.fld := rfl
@[simp] theorem State.setFault_cores (x : FaultSt) : (s.setFault x).cores = s.cores := rfl
@[simp] theorem State.setFault_sched (x : FaultSt) : (s.setFault x).sched = s.sched := rfl
@[simp] theorem State.setFault_sync (x : FaultSt) : (s.setFault x).sync = s.sync := rfl
@[simp] theorem State.setFault_warden (x : FaultSt) : (s.setFault x).warden = s.warden := rfl
@[simp] theorem State.setFault_rots (x : FaultSt) : (s.setFault x).rots = s.rots := rfl
@[simp] theorem State.setFault_ints (x : FaultSt) : (s.setFault x).ints = s.ints := rfl
@[simp] theorem State.setFault_ktl (x : FaultSt) : (s.setFault x).ktl = s.ktl := rfl
@[simp] theorem State.setFault_hqs (x : FaultSt) : (s.setFault x).hqs = s.hqs := rfl
@[simp] theorem State.setFault_fif (x : FaultSt) : (s.setFault x).fif = s.fif := rfl
@[simp] theorem State.setFault_links (x : FaultSt) : (s.setFault x).links = s.links := rfl
@[simp] theorem State.setFault_arrs (x : FaultSt) : (s.setFault x).arrs = s.arrs := rfl
@[simp] theorem State.setFault_engs (x : FaultSt) : (s.setFault x).engs = s.engs := rfl
@[simp] theorem State.setFault_round (x : FaultSt) : (s.setFault x).round = s.round := rfl
@[simp] theorem State.setFault_tdcSeen (x : FaultSt) : (s.setFault x).tdcSeen = s.tdcSeen := rfl
@[simp] theorem State.setFault_traceQ (x : FaultSt) : (s.setFault x).traceQ = s.traceQ := rfl
@[simp] theorem State.setFault_mem (x : FaultSt) : (s.setFault x).mem = s.mem := rfl
@[simp] theorem State.setFault_psn (x : FaultSt) : (s.setFault x).psn = s.psn := rfl
@[simp] theorem State.setFault_hostW (x : FaultSt) : (s.setFault x).hostW = s.hostW := rfl
@[simp] theorem State.setFault_fresh (x : FaultSt) : (s.setFault x).fresh = s.fresh := rfl
@[simp] theorem State.setFault_pending (x : FaultSt) : (s.setFault x).pending = s.pending := rfl

/-! ### setWm -/

@[simp] theorem State.setWm_time (m : Nat) (x : WMech) : (s.setWm m x).time = s.time := rfl
@[simp] theorem State.setWm_fuses (m : Nat) (x : WMech) : (s.setWm m x).fuses = s.fuses := rfl
@[simp] theorem State.setWm_dev (m : Nat) (x : WMech) : (s.setWm m x).dev = s.dev := rfl
@[simp] theorem State.setWm_regs (m : Nat) (x : WMech) : (s.setWm m x).regs = s.regs := rfl
@[simp] theorem State.setWm_hi (m : Nat) (x : WMech) : (s.setWm m x).hi = s.hi := rfl
@[simp] theorem State.setWm_lo (m : Nat) (x : WMech) : (s.setWm m x).lo = s.lo := rfl
@[simp] theorem State.setWm_compl (m : Nat) (x : WMech) : (s.setWm m x).compl = s.compl := rfl
@[simp] theorem State.setWm_loader (m : Nat) (x : WMech) : (s.setWm m x).loader = s.loader := rfl
@[simp] theorem State.setWm_parts (m : Nat) (x : WMech) : (s.setWm m x).parts = s.parts := rfl
@[simp] theorem State.setWm_fld (m : Nat) (x : WMech) : (s.setWm m x).fld = s.fld := rfl
@[simp] theorem State.setWm_cores (m : Nat) (x : WMech) : (s.setWm m x).cores = s.cores := rfl
@[simp] theorem State.setWm_sched (m : Nat) (x : WMech) : (s.setWm m x).sched = s.sched := rfl
@[simp] theorem State.setWm_sync (m : Nat) (x : WMech) : (s.setWm m x).sync = s.sync := rfl
@[simp] theorem State.setWm_errs (m : Nat) (x : WMech) : (s.setWm m x).errs = s.errs := rfl
@[simp] theorem State.setWm_rots (m : Nat) (x : WMech) : (s.setWm m x).rots = s.rots := rfl
@[simp] theorem State.setWm_ints (m : Nat) (x : WMech) : (s.setWm m x).ints = s.ints := rfl
@[simp] theorem State.setWm_ktl (m : Nat) (x : WMech) : (s.setWm m x).ktl = s.ktl := rfl
@[simp] theorem State.setWm_hqs (m : Nat) (x : WMech) : (s.setWm m x).hqs = s.hqs := rfl
@[simp] theorem State.setWm_fif (m : Nat) (x : WMech) : (s.setWm m x).fif = s.fif := rfl
@[simp] theorem State.setWm_links (m : Nat) (x : WMech) : (s.setWm m x).links = s.links := rfl
@[simp] theorem State.setWm_arrs (m : Nat) (x : WMech) : (s.setWm m x).arrs = s.arrs := rfl
@[simp] theorem State.setWm_engs (m : Nat) (x : WMech) : (s.setWm m x).engs = s.engs := rfl
@[simp] theorem State.setWm_round (m : Nat) (x : WMech) : (s.setWm m x).round = s.round := rfl
@[simp] theorem State.setWm_tdcSeen (m : Nat) (x : WMech) : (s.setWm m x).tdcSeen = s.tdcSeen := rfl
@[simp] theorem State.setWm_traceQ (m : Nat) (x : WMech) : (s.setWm m x).traceQ = s.traceQ := rfl
@[simp] theorem State.setWm_mem (m : Nat) (x : WMech) : (s.setWm m x).mem = s.mem := rfl
@[simp] theorem State.setWm_psn (m : Nat) (x : WMech) : (s.setWm m x).psn = s.psn := rfl
@[simp] theorem State.setWm_hostW (m : Nat) (x : WMech) : (s.setWm m x).hostW = s.hostW := rfl
@[simp] theorem State.setWm_fresh (m : Nat) (x : WMech) : (s.setWm m x).fresh = s.fresh := rfl
@[simp] theorem State.setWm_pending (m : Nat) (x : WMech) : (s.setWm m x).pending = s.pending := rfl

/-! ### setDom -/

@[simp] theorem State.setDom_time (n : Nat) (x : Dom) : (s.setDom n x).time = s.time := rfl
@[simp] theorem State.setDom_fuses (n : Nat) (x : Dom) : (s.setDom n x).fuses = s.fuses := rfl
@[simp] theorem State.setDom_dev (n : Nat) (x : Dom) : (s.setDom n x).dev = s.dev := rfl
@[simp] theorem State.setDom_regs (n : Nat) (x : Dom) : (s.setDom n x).regs = s.regs := rfl
@[simp] theorem State.setDom_hi (n : Nat) (x : Dom) : (s.setDom n x).hi = s.hi := rfl
@[simp] theorem State.setDom_lo (n : Nat) (x : Dom) : (s.setDom n x).lo = s.lo := rfl
@[simp] theorem State.setDom_compl (n : Nat) (x : Dom) : (s.setDom n x).compl = s.compl := rfl
@[simp] theorem State.setDom_loader (n : Nat) (x : Dom) : (s.setDom n x).loader = s.loader := rfl
@[simp] theorem State.setDom_parts (n : Nat) (x : Dom) : (s.setDom n x).parts = s.parts := rfl
@[simp] theorem State.setDom_fld (n : Nat) (x : Dom) : (s.setDom n x).fld = s.fld := rfl
@[simp] theorem State.setDom_cores (n : Nat) (x : Dom) : (s.setDom n x).cores = s.cores := rfl
@[simp] theorem State.setDom_sched (n : Nat) (x : Dom) : (s.setDom n x).sched = s.sched := rfl
@[simp] theorem State.setDom_sync (n : Nat) (x : Dom) : (s.setDom n x).sync = s.sync := rfl
@[simp] theorem State.setDom_warden (n : Nat) (x : Dom) : (s.setDom n x).warden = s.warden := rfl
@[simp] theorem State.setDom_errs (n : Nat) (x : Dom) : (s.setDom n x).errs = s.errs := rfl
@[simp] theorem State.setDom_rots (n : Nat) (x : Dom) : (s.setDom n x).rots = s.rots := rfl
@[simp] theorem State.setDom_ints (n : Nat) (x : Dom) : (s.setDom n x).ints = s.ints := rfl
@[simp] theorem State.setDom_hqs (n : Nat) (x : Dom) : (s.setDom n x).hqs = s.hqs := rfl
@[simp] theorem State.setDom_fif (n : Nat) (x : Dom) : (s.setDom n x).fif = s.fif := rfl
@[simp] theorem State.setDom_links (n : Nat) (x : Dom) : (s.setDom n x).links = s.links := rfl
@[simp] theorem State.setDom_arrs (n : Nat) (x : Dom) : (s.setDom n x).arrs = s.arrs := rfl
@[simp] theorem State.setDom_engs (n : Nat) (x : Dom) : (s.setDom n x).engs = s.engs := rfl
@[simp] theorem State.setDom_round (n : Nat) (x : Dom) : (s.setDom n x).round = s.round := rfl
@[simp] theorem State.setDom_tdcSeen (n : Nat) (x : Dom) : (s.setDom n x).tdcSeen = s.tdcSeen := rfl
@[simp] theorem State.setDom_traceQ (n : Nat) (x : Dom) : (s.setDom n x).traceQ = s.traceQ := rfl
@[simp] theorem State.setDom_mem (n : Nat) (x : Dom) : (s.setDom n x).mem = s.mem := rfl
@[simp] theorem State.setDom_psn (n : Nat) (x : Dom) : (s.setDom n x).psn = s.psn := rfl
@[simp] theorem State.setDom_hostW (n : Nat) (x : Dom) : (s.setDom n x).hostW = s.hostW := rfl
@[simp] theorem State.setDom_fresh (n : Nat) (x : Dom) : (s.setDom n x).fresh = s.fresh := rfl
@[simp] theorem State.setDom_pending (n : Nat) (x : Dom) : (s.setDom n x).pending = s.pending := rfl

/-! ### setCore -/

@[simp] theorem State.setCore_time (k : Nat) (x : CoreSt) : (s.setCore k x).time = s.time := rfl
@[simp] theorem State.setCore_fuses (k : Nat) (x : CoreSt) : (s.setCore k x).fuses = s.fuses := rfl
@[simp] theorem State.setCore_dev (k : Nat) (x : CoreSt) : (s.setCore k x).dev = s.dev := rfl
@[simp] theorem State.setCore_regs (k : Nat) (x : CoreSt) : (s.setCore k x).regs = s.regs := rfl
@[simp] theorem State.setCore_hi (k : Nat) (x : CoreSt) : (s.setCore k x).hi = s.hi := rfl
@[simp] theorem State.setCore_lo (k : Nat) (x : CoreSt) : (s.setCore k x).lo = s.lo := rfl
@[simp] theorem State.setCore_compl (k : Nat) (x : CoreSt) : (s.setCore k x).compl = s.compl := rfl
@[simp] theorem State.setCore_loader (k : Nat) (x : CoreSt) : (s.setCore k x).loader = s.loader := rfl
@[simp] theorem State.setCore_parts (k : Nat) (x : CoreSt) : (s.setCore k x).parts = s.parts := rfl
@[simp] theorem State.setCore_fld (k : Nat) (x : CoreSt) : (s.setCore k x).fld = s.fld := rfl
@[simp] theorem State.setCore_sched (k : Nat) (x : CoreSt) : (s.setCore k x).sched = s.sched := rfl
@[simp] theorem State.setCore_sync (k : Nat) (x : CoreSt) : (s.setCore k x).sync = s.sync := rfl
@[simp] theorem State.setCore_warden (k : Nat) (x : CoreSt) : (s.setCore k x).warden = s.warden := rfl
@[simp] theorem State.setCore_errs (k : Nat) (x : CoreSt) : (s.setCore k x).errs = s.errs := rfl
@[simp] theorem State.setCore_rots (k : Nat) (x : CoreSt) : (s.setCore k x).rots = s.rots := rfl
@[simp] theorem State.setCore_ints (k : Nat) (x : CoreSt) : (s.setCore k x).ints = s.ints := rfl
@[simp] theorem State.setCore_ktl (k : Nat) (x : CoreSt) : (s.setCore k x).ktl = s.ktl := rfl
@[simp] theorem State.setCore_hqs (k : Nat) (x : CoreSt) : (s.setCore k x).hqs = s.hqs := rfl
@[simp] theorem State.setCore_fif (k : Nat) (x : CoreSt) : (s.setCore k x).fif = s.fif := rfl
@[simp] theorem State.setCore_links (k : Nat) (x : CoreSt) : (s.setCore k x).links = s.links := rfl
@[simp] theorem State.setCore_arrs (k : Nat) (x : CoreSt) : (s.setCore k x).arrs = s.arrs := rfl
@[simp] theorem State.setCore_engs (k : Nat) (x : CoreSt) : (s.setCore k x).engs = s.engs := rfl
@[simp] theorem State.setCore_round (k : Nat) (x : CoreSt) : (s.setCore k x).round = s.round := rfl
@[simp] theorem State.setCore_tdcSeen (k : Nat) (x : CoreSt) : (s.setCore k x).tdcSeen = s.tdcSeen := rfl
@[simp] theorem State.setCore_traceQ (k : Nat) (x : CoreSt) : (s.setCore k x).traceQ = s.traceQ := rfl
@[simp] theorem State.setCore_mem (k : Nat) (x : CoreSt) : (s.setCore k x).mem = s.mem := rfl
@[simp] theorem State.setCore_psn (k : Nat) (x : CoreSt) : (s.setCore k x).psn = s.psn := rfl
@[simp] theorem State.setCore_hostW (k : Nat) (x : CoreSt) : (s.setCore k x).hostW = s.hostW := rfl
@[simp] theorem State.setCore_fresh (k : Nat) (x : CoreSt) : (s.setCore k x).fresh = s.fresh := rfl
@[simp] theorem State.setCore_pending (k : Nat) (x : CoreSt) : (s.setCore k x).pending = s.pending := rfl

/-! ### setSch -/

@[simp] theorem State.setSch_time (d : Nat) (x : SchedDie) : (s.setSch d x).time = s.time := rfl
@[simp] theorem State.setSch_fuses (d : Nat) (x : SchedDie) : (s.setSch d x).fuses = s.fuses := rfl
@[simp] theorem State.setSch_dev (d : Nat) (x : SchedDie) : (s.setSch d x).dev = s.dev := rfl
@[simp] theorem State.setSch_regs (d : Nat) (x : SchedDie) : (s.setSch d x).regs = s.regs := rfl
@[simp] theorem State.setSch_hi (d : Nat) (x : SchedDie) : (s.setSch d x).hi = s.hi := rfl
@[simp] theorem State.setSch_lo (d : Nat) (x : SchedDie) : (s.setSch d x).lo = s.lo := rfl
@[simp] theorem State.setSch_compl (d : Nat) (x : SchedDie) : (s.setSch d x).compl = s.compl := rfl
@[simp] theorem State.setSch_loader (d : Nat) (x : SchedDie) : (s.setSch d x).loader = s.loader := rfl
@[simp] theorem State.setSch_parts (d : Nat) (x : SchedDie) : (s.setSch d x).parts = s.parts := rfl
@[simp] theorem State.setSch_fld (d : Nat) (x : SchedDie) : (s.setSch d x).fld = s.fld := rfl
@[simp] theorem State.setSch_cores (d : Nat) (x : SchedDie) : (s.setSch d x).cores = s.cores := rfl
@[simp] theorem State.setSch_sync (d : Nat) (x : SchedDie) : (s.setSch d x).sync = s.sync := rfl
@[simp] theorem State.setSch_warden (d : Nat) (x : SchedDie) : (s.setSch d x).warden = s.warden := rfl
@[simp] theorem State.setSch_errs (d : Nat) (x : SchedDie) : (s.setSch d x).errs = s.errs := rfl
@[simp] theorem State.setSch_rots (d : Nat) (x : SchedDie) : (s.setSch d x).rots = s.rots := rfl
@[simp] theorem State.setSch_ints (d : Nat) (x : SchedDie) : (s.setSch d x).ints = s.ints := rfl
@[simp] theorem State.setSch_ktl (d : Nat) (x : SchedDie) : (s.setSch d x).ktl = s.ktl := rfl
@[simp] theorem State.setSch_hqs (d : Nat) (x : SchedDie) : (s.setSch d x).hqs = s.hqs := rfl
@[simp] theorem State.setSch_fif (d : Nat) (x : SchedDie) : (s.setSch d x).fif = s.fif := rfl
@[simp] theorem State.setSch_links (d : Nat) (x : SchedDie) : (s.setSch d x).links = s.links := rfl
@[simp] theorem State.setSch_arrs (d : Nat) (x : SchedDie) : (s.setSch d x).arrs = s.arrs := rfl
@[simp] theorem State.setSch_engs (d : Nat) (x : SchedDie) : (s.setSch d x).engs = s.engs := rfl
@[simp] theorem State.setSch_round (d : Nat) (x : SchedDie) : (s.setSch d x).round = s.round := rfl
@[simp] theorem State.setSch_tdcSeen (d : Nat) (x : SchedDie) : (s.setSch d x).tdcSeen = s.tdcSeen := rfl
@[simp] theorem State.setSch_traceQ (d : Nat) (x : SchedDie) : (s.setSch d x).traceQ = s.traceQ := rfl
@[simp] theorem State.setSch_mem (d : Nat) (x : SchedDie) : (s.setSch d x).mem = s.mem := rfl
@[simp] theorem State.setSch_psn (d : Nat) (x : SchedDie) : (s.setSch d x).psn = s.psn := rfl
@[simp] theorem State.setSch_hostW (d : Nat) (x : SchedDie) : (s.setSch d x).hostW = s.hostW := rfl
@[simp] theorem State.setSch_fresh (d : Nat) (x : SchedDie) : (s.setSch d x).fresh = s.fresh := rfl
@[simp] theorem State.setSch_pending (d : Nat) (x : SchedDie) : (s.setSch d x).pending = s.pending := rfl

/-! ### setEng -/

@[simp] theorem State.setEng_time (i : Nat) (x : EngSt) : (s.setEng i x).time = s.time := rfl
@[simp] theorem State.setEng_fuses (i : Nat) (x : EngSt) : (s.setEng i x).fuses = s.fuses := rfl
@[simp] theorem State.setEng_dev (i : Nat) (x : EngSt) : (s.setEng i x).dev = s.dev := rfl
@[simp] theorem State.setEng_regs (i : Nat) (x : EngSt) : (s.setEng i x).regs = s.regs := rfl
@[simp] theorem State.setEng_hi (i : Nat) (x : EngSt) : (s.setEng i x).hi = s.hi := rfl
@[simp] theorem State.setEng_lo (i : Nat) (x : EngSt) : (s.setEng i x).lo = s.lo := rfl
@[simp] theorem State.setEng_compl (i : Nat) (x : EngSt) : (s.setEng i x).compl = s.compl := rfl
@[simp] theorem State.setEng_loader (i : Nat) (x : EngSt) : (s.setEng i x).loader = s.loader := rfl
@[simp] theorem State.setEng_parts (i : Nat) (x : EngSt) : (s.setEng i x).parts = s.parts := rfl
@[simp] theorem State.setEng_fld (i : Nat) (x : EngSt) : (s.setEng i x).fld = s.fld := rfl
@[simp] theorem State.setEng_cores (i : Nat) (x : EngSt) : (s.setEng i x).cores = s.cores := rfl
@[simp] theorem State.setEng_sched (i : Nat) (x : EngSt) : (s.setEng i x).sched = s.sched := rfl
@[simp] theorem State.setEng_sync (i : Nat) (x : EngSt) : (s.setEng i x).sync = s.sync := rfl
@[simp] theorem State.setEng_warden (i : Nat) (x : EngSt) : (s.setEng i x).warden = s.warden := rfl
@[simp] theorem State.setEng_errs (i : Nat) (x : EngSt) : (s.setEng i x).errs = s.errs := rfl
@[simp] theorem State.setEng_rots (i : Nat) (x : EngSt) : (s.setEng i x).rots = s.rots := rfl
@[simp] theorem State.setEng_ints (i : Nat) (x : EngSt) : (s.setEng i x).ints = s.ints := rfl
@[simp] theorem State.setEng_ktl (i : Nat) (x : EngSt) : (s.setEng i x).ktl = s.ktl := rfl
@[simp] theorem State.setEng_hqs (i : Nat) (x : EngSt) : (s.setEng i x).hqs = s.hqs := rfl
@[simp] theorem State.setEng_fif (i : Nat) (x : EngSt) : (s.setEng i x).fif = s.fif := rfl
@[simp] theorem State.setEng_links (i : Nat) (x : EngSt) : (s.setEng i x).links = s.links := rfl
@[simp] theorem State.setEng_arrs (i : Nat) (x : EngSt) : (s.setEng i x).arrs = s.arrs := rfl
@[simp] theorem State.setEng_round (i : Nat) (x : EngSt) : (s.setEng i x).round = s.round := rfl
@[simp] theorem State.setEng_tdcSeen (i : Nat) (x : EngSt) : (s.setEng i x).tdcSeen = s.tdcSeen := rfl
@[simp] theorem State.setEng_traceQ (i : Nat) (x : EngSt) : (s.setEng i x).traceQ = s.traceQ := rfl
@[simp] theorem State.setEng_mem (i : Nat) (x : EngSt) : (s.setEng i x).mem = s.mem := rfl
@[simp] theorem State.setEng_psn (i : Nat) (x : EngSt) : (s.setEng i x).psn = s.psn := rfl
@[simp] theorem State.setEng_hostW (i : Nat) (x : EngSt) : (s.setEng i x).hostW = s.hostW := rfl
@[simp] theorem State.setEng_fresh (i : Nat) (x : EngSt) : (s.setEng i x).fresh = s.fresh := rfl
@[simp] theorem State.setEng_pending (i : Nat) (x : EngSt) : (s.setEng i x).pending = s.pending := rfl

/-! ### setArr -/

@[simp] theorem State.setArr_time (d : Nat) (x : ArrSt) : (s.setArr d x).time = s.time := rfl
@[simp] theorem State.setArr_fuses (d : Nat) (x : ArrSt) : (s.setArr d x).fuses = s.fuses := rfl
@[simp] theorem State.setArr_dev (d : Nat) (x : ArrSt) : (s.setArr d x).dev = s.dev := rfl
@[simp] theorem State.setArr_regs (d : Nat) (x : ArrSt) : (s.setArr d x).regs = s.regs := rfl
@[simp] theorem State.setArr_hi (d : Nat) (x : ArrSt) : (s.setArr d x).hi = s.hi := rfl
@[simp] theorem State.setArr_lo (d : Nat) (x : ArrSt) : (s.setArr d x).lo = s.lo := rfl
@[simp] theorem State.setArr_compl (d : Nat) (x : ArrSt) : (s.setArr d x).compl = s.compl := rfl
@[simp] theorem State.setArr_loader (d : Nat) (x : ArrSt) : (s.setArr d x).loader = s.loader := rfl
@[simp] theorem State.setArr_parts (d : Nat) (x : ArrSt) : (s.setArr d x).parts = s.parts := rfl
@[simp] theorem State.setArr_fld (d : Nat) (x : ArrSt) : (s.setArr d x).fld = s.fld := rfl
@[simp] theorem State.setArr_cores (d : Nat) (x : ArrSt) : (s.setArr d x).cores = s.cores := rfl
@[simp] theorem State.setArr_sched (d : Nat) (x : ArrSt) : (s.setArr d x).sched = s.sched := rfl
@[simp] theorem State.setArr_sync (d : Nat) (x : ArrSt) : (s.setArr d x).sync = s.sync := rfl
@[simp] theorem State.setArr_warden (d : Nat) (x : ArrSt) : (s.setArr d x).warden = s.warden := rfl
@[simp] theorem State.setArr_errs (d : Nat) (x : ArrSt) : (s.setArr d x).errs = s.errs := rfl
@[simp] theorem State.setArr_rots (d : Nat) (x : ArrSt) : (s.setArr d x).rots = s.rots := rfl
@[simp] theorem State.setArr_ints (d : Nat) (x : ArrSt) : (s.setArr d x).ints = s.ints := rfl
@[simp] theorem State.setArr_ktl (d : Nat) (x : ArrSt) : (s.setArr d x).ktl = s.ktl := rfl
@[simp] theorem State.setArr_hqs (d : Nat) (x : ArrSt) : (s.setArr d x).hqs = s.hqs := rfl
@[simp] theorem State.setArr_fif (d : Nat) (x : ArrSt) : (s.setArr d x).fif = s.fif := rfl
@[simp] theorem State.setArr_links (d : Nat) (x : ArrSt) : (s.setArr d x).links = s.links := rfl
@[simp] theorem State.setArr_engs (d : Nat) (x : ArrSt) : (s.setArr d x).engs = s.engs := rfl
@[simp] theorem State.setArr_round (d : Nat) (x : ArrSt) : (s.setArr d x).round = s.round := rfl
@[simp] theorem State.setArr_tdcSeen (d : Nat) (x : ArrSt) : (s.setArr d x).tdcSeen = s.tdcSeen := rfl
@[simp] theorem State.setArr_traceQ (d : Nat) (x : ArrSt) : (s.setArr d x).traceQ = s.traceQ := rfl
@[simp] theorem State.setArr_mem (d : Nat) (x : ArrSt) : (s.setArr d x).mem = s.mem := rfl
@[simp] theorem State.setArr_psn (d : Nat) (x : ArrSt) : (s.setArr d x).psn = s.psn := rfl
@[simp] theorem State.setArr_hostW (d : Nat) (x : ArrSt) : (s.setArr d x).hostW = s.hostW := rfl
@[simp] theorem State.setArr_fresh (d : Nat) (x : ArrSt) : (s.setArr d x).fresh = s.fresh := rfl
@[simp] theorem State.setArr_pending (d : Nat) (x : ArrSt) : (s.setArr d x).pending = s.pending := rfl

/-! ### setHq -/

@[simp] theorem State.setHq_time (fn q : Nat) (x : HQueue) : (s.setHq fn q x).time = s.time := rfl
@[simp] theorem State.setHq_fuses (fn q : Nat) (x : HQueue) : (s.setHq fn q x).fuses = s.fuses := rfl
@[simp] theorem State.setHq_dev (fn q : Nat) (x : HQueue) : (s.setHq fn q x).dev = s.dev := rfl
@[simp] theorem State.setHq_regs (fn q : Nat) (x : HQueue) : (s.setHq fn q x).regs = s.regs := rfl
@[simp] theorem State.setHq_hi (fn q : Nat) (x : HQueue) : (s.setHq fn q x).hi = s.hi := rfl
@[simp] theorem State.setHq_lo (fn q : Nat) (x : HQueue) : (s.setHq fn q x).lo = s.lo := rfl
@[simp] theorem State.setHq_compl (fn q : Nat) (x : HQueue) : (s.setHq fn q x).compl = s.compl := rfl
@[simp] theorem State.setHq_loader (fn q : Nat) (x : HQueue) : (s.setHq fn q x).loader = s.loader := rfl
@[simp] theorem State.setHq_parts (fn q : Nat) (x : HQueue) : (s.setHq fn q x).parts = s.parts := rfl
@[simp] theorem State.setHq_fld (fn q : Nat) (x : HQueue) : (s.setHq fn q x).fld = s.fld := rfl
@[simp] theorem State.setHq_cores (fn q : Nat) (x : HQueue) : (s.setHq fn q x).cores = s.cores := rfl
@[simp] theorem State.setHq_sched (fn q : Nat) (x : HQueue) : (s.setHq fn q x).sched = s.sched := rfl
@[simp] theorem State.setHq_sync (fn q : Nat) (x : HQueue) : (s.setHq fn q x).sync = s.sync := rfl
@[simp] theorem State.setHq_warden (fn q : Nat) (x : HQueue) : (s.setHq fn q x).warden = s.warden := rfl
@[simp] theorem State.setHq_errs (fn q : Nat) (x : HQueue) : (s.setHq fn q x).errs = s.errs := rfl
@[simp] theorem State.setHq_rots (fn q : Nat) (x : HQueue) : (s.setHq fn q x).rots = s.rots := rfl
@[simp] theorem State.setHq_ints (fn q : Nat) (x : HQueue) : (s.setHq fn q x).ints = s.ints := rfl
@[simp] theorem State.setHq_ktl (fn q : Nat) (x : HQueue) : (s.setHq fn q x).ktl = s.ktl := rfl
@[simp] theorem State.setHq_fif (fn q : Nat) (x : HQueue) : (s.setHq fn q x).fif = s.fif := rfl
@[simp] theorem State.setHq_links (fn q : Nat) (x : HQueue) : (s.setHq fn q x).links = s.links := rfl
@[simp] theorem State.setHq_arrs (fn q : Nat) (x : HQueue) : (s.setHq fn q x).arrs = s.arrs := rfl
@[simp] theorem State.setHq_engs (fn q : Nat) (x : HQueue) : (s.setHq fn q x).engs = s.engs := rfl
@[simp] theorem State.setHq_round (fn q : Nat) (x : HQueue) : (s.setHq fn q x).round = s.round := rfl
@[simp] theorem State.setHq_tdcSeen (fn q : Nat) (x : HQueue) : (s.setHq fn q x).tdcSeen = s.tdcSeen := rfl
@[simp] theorem State.setHq_traceQ (fn q : Nat) (x : HQueue) : (s.setHq fn q x).traceQ = s.traceQ := rfl
@[simp] theorem State.setHq_mem (fn q : Nat) (x : HQueue) : (s.setHq fn q x).mem = s.mem := rfl
@[simp] theorem State.setHq_psn (fn q : Nat) (x : HQueue) : (s.setHq fn q x).psn = s.psn := rfl
@[simp] theorem State.setHq_hostW (fn q : Nat) (x : HQueue) : (s.setHq fn q x).hostW = s.hostW := rfl
@[simp] theorem State.setHq_fresh (fn q : Nat) (x : HQueue) : (s.setHq fn q x).fresh = s.fresh := rfl
@[simp] theorem State.setHq_pending (fn q : Nat) (x : HQueue) : (s.setHq fn q x).pending = s.pending := rfl

/-! ### writeEnd -/

@[simp] theorem State.writeEnd_time : (s.writeEnd).time = s.time := rfl
@[simp] theorem State.writeEnd_fuses : (s.writeEnd).fuses = s.fuses := rfl
@[simp] theorem State.writeEnd_dev : (s.writeEnd).dev = s.dev := rfl
@[simp] theorem State.writeEnd_regs : (s.writeEnd).regs = s.regs := rfl
@[simp] theorem State.writeEnd_hi : (s.writeEnd).hi = s.hi := rfl
@[simp] theorem State.writeEnd_lo : (s.writeEnd).lo = s.lo := rfl
@[simp] theorem State.writeEnd_loader : (s.writeEnd).loader = s.loader := rfl
@[simp] theorem State.writeEnd_parts : (s.writeEnd).parts = s.parts := rfl
@[simp] theorem State.writeEnd_fld : (s.writeEnd).fld = s.fld := rfl
@[simp] theorem State.writeEnd_cores : (s.writeEnd).cores = s.cores := rfl
@[simp] theorem State.writeEnd_sched : (s.writeEnd).sched = s.sched := rfl
@[simp] theorem State.writeEnd_sync : (s.writeEnd).sync = s.sync := rfl
@[simp] theorem State.writeEnd_warden : (s.writeEnd).warden = s.warden := rfl
@[simp] theorem State.writeEnd_errs : (s.writeEnd).errs = s.errs := rfl
@[simp] theorem State.writeEnd_rots : (s.writeEnd).rots = s.rots := rfl
@[simp] theorem State.writeEnd_ints : (s.writeEnd).ints = s.ints := rfl
@[simp] theorem State.writeEnd_ktl : (s.writeEnd).ktl = s.ktl := rfl
@[simp] theorem State.writeEnd_hqs : (s.writeEnd).hqs = s.hqs := rfl
@[simp] theorem State.writeEnd_fif : (s.writeEnd).fif = s.fif := rfl
@[simp] theorem State.writeEnd_links : (s.writeEnd).links = s.links := rfl
@[simp] theorem State.writeEnd_arrs : (s.writeEnd).arrs = s.arrs := rfl
@[simp] theorem State.writeEnd_engs : (s.writeEnd).engs = s.engs := rfl
@[simp] theorem State.writeEnd_round : (s.writeEnd).round = s.round := rfl
@[simp] theorem State.writeEnd_tdcSeen : (s.writeEnd).tdcSeen = s.tdcSeen := rfl
@[simp] theorem State.writeEnd_traceQ : (s.writeEnd).traceQ = s.traceQ := rfl
@[simp] theorem State.writeEnd_mem : (s.writeEnd).mem = s.mem := rfl
@[simp] theorem State.writeEnd_psn : (s.writeEnd).psn = s.psn := rfl
@[simp] theorem State.writeEnd_hostW : (s.writeEnd).hostW = s.hostW := rfl
@[simp] theorem State.writeEnd_fresh : (s.writeEnd).fresh = s.fresh := rfl
@[simp] theorem State.writeEnd_pending : (s.writeEnd).pending = s.pending := rfl

/-! ### urEnd -/

@[simp] theorem State.urEnd_time : (s.urEnd).time = s.time := rfl
@[simp] theorem State.urEnd_fuses : (s.urEnd).fuses = s.fuses := rfl
@[simp] theorem State.urEnd_dev : (s.urEnd).dev = s.dev := rfl
@[simp] theorem State.urEnd_regs : (s.urEnd).regs = s.regs := rfl
@[simp] theorem State.urEnd_hi : (s.urEnd).hi = s.hi := rfl
@[simp] theorem State.urEnd_lo : (s.urEnd).lo = s.lo := rfl
@[simp] theorem State.urEnd_loader : (s.urEnd).loader = s.loader := rfl
@[simp] theorem State.urEnd_parts : (s.urEnd).parts = s.parts := rfl
@[simp] theorem State.urEnd_fld : (s.urEnd).fld = s.fld := rfl
@[simp] theorem State.urEnd_cores : (s.urEnd).cores = s.cores := rfl
@[simp] theorem State.urEnd_sched : (s.urEnd).sched = s.sched := rfl
@[simp] theorem State.urEnd_sync : (s.urEnd).sync = s.sync := rfl
@[simp] theorem State.urEnd_warden : (s.urEnd).warden = s.warden := rfl
@[simp] theorem State.urEnd_errs : (s.urEnd).errs = s.errs := rfl
@[simp] theorem State.urEnd_rots : (s.urEnd).rots = s.rots := rfl
@[simp] theorem State.urEnd_ints : (s.urEnd).ints = s.ints := rfl
@[simp] theorem State.urEnd_ktl : (s.urEnd).ktl = s.ktl := rfl
@[simp] theorem State.urEnd_hqs : (s.urEnd).hqs = s.hqs := rfl
@[simp] theorem State.urEnd_fif : (s.urEnd).fif = s.fif := rfl
@[simp] theorem State.urEnd_links : (s.urEnd).links = s.links := rfl
@[simp] theorem State.urEnd_arrs : (s.urEnd).arrs = s.arrs := rfl
@[simp] theorem State.urEnd_engs : (s.urEnd).engs = s.engs := rfl
@[simp] theorem State.urEnd_round : (s.urEnd).round = s.round := rfl
@[simp] theorem State.urEnd_tdcSeen : (s.urEnd).tdcSeen = s.tdcSeen := rfl
@[simp] theorem State.urEnd_traceQ : (s.urEnd).traceQ = s.traceQ := rfl
@[simp] theorem State.urEnd_mem : (s.urEnd).mem = s.mem := rfl
@[simp] theorem State.urEnd_psn : (s.urEnd).psn = s.psn := rfl
@[simp] theorem State.urEnd_hostW : (s.urEnd).hostW = s.hostW := rfl
@[simp] theorem State.urEnd_fresh : (s.urEnd).fresh = s.fresh := rfl
@[simp] theorem State.urEnd_pending : (s.urEnd).pending = s.pending := rfl

/-! ### readEnd -/

@[simp] theorem State.readEnd_time (v : Word) : (s.readEnd v).time = s.time := rfl
@[simp] theorem State.readEnd_fuses (v : Word) : (s.readEnd v).fuses = s.fuses := rfl
@[simp] theorem State.readEnd_dev (v : Word) : (s.readEnd v).dev = s.dev := rfl
@[simp] theorem State.readEnd_regs (v : Word) : (s.readEnd v).regs = s.regs := rfl
@[simp] theorem State.readEnd_hi (v : Word) : (s.readEnd v).hi = s.hi := rfl
@[simp] theorem State.readEnd_lo (v : Word) : (s.readEnd v).lo = s.lo := rfl
@[simp] theorem State.readEnd_loader (v : Word) : (s.readEnd v).loader = s.loader := rfl
@[simp] theorem State.readEnd_parts (v : Word) : (s.readEnd v).parts = s.parts := rfl
@[simp] theorem State.readEnd_fld (v : Word) : (s.readEnd v).fld = s.fld := rfl
@[simp] theorem State.readEnd_cores (v : Word) : (s.readEnd v).cores = s.cores := rfl
@[simp] theorem State.readEnd_sched (v : Word) : (s.readEnd v).sched = s.sched := rfl
@[simp] theorem State.readEnd_sync (v : Word) : (s.readEnd v).sync = s.sync := rfl
@[simp] theorem State.readEnd_warden (v : Word) : (s.readEnd v).warden = s.warden := rfl
@[simp] theorem State.readEnd_errs (v : Word) : (s.readEnd v).errs = s.errs := rfl
@[simp] theorem State.readEnd_rots (v : Word) : (s.readEnd v).rots = s.rots := rfl
@[simp] theorem State.readEnd_ints (v : Word) : (s.readEnd v).ints = s.ints := rfl
@[simp] theorem State.readEnd_ktl (v : Word) : (s.readEnd v).ktl = s.ktl := rfl
@[simp] theorem State.readEnd_hqs (v : Word) : (s.readEnd v).hqs = s.hqs := rfl
@[simp] theorem State.readEnd_fif (v : Word) : (s.readEnd v).fif = s.fif := rfl
@[simp] theorem State.readEnd_links (v : Word) : (s.readEnd v).links = s.links := rfl
@[simp] theorem State.readEnd_arrs (v : Word) : (s.readEnd v).arrs = s.arrs := rfl
@[simp] theorem State.readEnd_engs (v : Word) : (s.readEnd v).engs = s.engs := rfl
@[simp] theorem State.readEnd_round (v : Word) : (s.readEnd v).round = s.round := rfl
@[simp] theorem State.readEnd_tdcSeen (v : Word) : (s.readEnd v).tdcSeen = s.tdcSeen := rfl
@[simp] theorem State.readEnd_traceQ (v : Word) : (s.readEnd v).traceQ = s.traceQ := rfl
@[simp] theorem State.readEnd_mem (v : Word) : (s.readEnd v).mem = s.mem := rfl
@[simp] theorem State.readEnd_psn (v : Word) : (s.readEnd v).psn = s.psn := rfl
@[simp] theorem State.readEnd_hostW (v : Word) : (s.readEnd v).hostW = s.hostW := rfl
@[simp] theorem State.readEnd_fresh (v : Word) : (s.readEnd v).fresh = s.fresh := rfl
@[simp] theorem State.readEnd_pending (v : Word) : (s.readEnd v).pending = s.pending := rfl

end Sys2Proof.Machine
end

