-- ==== Sys2Proof/Laws/Table.lean ====
section
/-! SUPPORT. Sparse tables: what a lookup finds after each update, and that every update keeps the canonical form. -/

namespace Sys2Proof.Tab

variable {α : Type}

theorem get_erase (d : α) (t : Tab α) (k j : Nat) : (erase t k).get d j = if j = k then d else t.get d j := by
  induction t with
  | nil => simp [erase, get]
  | cons e r ih =>
    obtain ⟨k', v⟩ := e
    by_cases h : k' = k
    · subst h
      by_cases h' : j = k'
      · rw [erase, if_pos rfl, ih]; simp [h']
      · simp [erase, get, ih, h', Ne.symm h']
    · by_cases h' : k' = j
      · have : ¬j = k := fun e => h (h'.trans e)
        simp [erase, get, h', this]
      · simp [erase, get, h, h', ih]

theorem get_insert (d : α) (t : Tab α) (k : Nat) (v : α) (j : Nat) (hk : ∀ e ∈ t, e.1 ≠ k) :
    (insert t k v).get d j = if j = k then v else t.get d j := by
  induction t with
  | nil => by_cases h : k = j <;> simp [insert, get, h, eq_comm]
  | cons e r ih =>
    obtain ⟨k', v'⟩ := e
    have h1 : k' ≠ k := hk (k', v') (by simp)
    have h2 : ∀ e ∈ r, e.1 ≠ k := fun e he => hk e (by simp [he])
    have ih := ih h2
    unfold insert
    split
    · by_cases hj : k = j
      · simp [get, hj]
      · simp [get, hj, Ne.symm hj]
    · by_cases hj : k' = j
      · simp [get, hj]; intro hjk; exact absurd (hj.trans hjk) h1
      · simp [get, hj, ih]

theorem mem_erase (t : Tab α) (k : Nat) (e : Nat × α) : e ∈ erase t k → e ∈ t ∧ e.1 ≠ k := by
  induction t with
  | nil => simp [erase]
  | cons x r ih =>
    obtain ⟨k', v⟩ := x
    by_cases h : k' = k
    · simp only [erase, h, if_true]; intro he; have := ih he; simp [this]
    · simp only [erase, h, if_false, List.mem_cons]
      rintro (rfl | he)
      · exact ⟨.inl rfl, h⟩
      · have := ih he; simp [this]

/-- A lookup after an update: the new value at its key, and every other key as before. -/
theorem get_set [DecidableEq α] (d : α) (t : Tab α) (k : Nat) (v : α) (j : Nat) :
    (set d t k v).get d j = if j = k then v else t.get d j := by
  unfold set
  split
  · rename_i h; rw [get_erase]; split <;> simp_all
  · rw [get_insert _ _ _ _ _ fun e he => (mem_erase t k e he).2]
    split
    · rfl
    · rename_i h; rw [get_erase, if_neg h]

@[simp] theorem get_set_same [DecidableEq α] (d : α) (t : Tab α) (k : Nat) (v : α) : (set d t k v).get d k = v := by
  rw [get_set]; simp

/-- A lookup of another key does not see an update, whatever default either uses. -/
theorem get_set_ne [DecidableEq α] (d d' : α) (t : Tab α) (k : Nat) (v : α) (j : Nat) (h : j ≠ k) :
    (set d t k v).get d' j = t.get d' j := by
  unfold set
  split
  · rw [get_erase, if_neg h]
  · rw [get_insert _ _ _ _ _ fun e he => (mem_erase t k e he).2, if_neg h, get_erase, if_neg h]

/-- A lookup after a range of keys went back to the default. -/
theorem get_filter (d : α) (t : Tab α) (p : Nat → Bool) (j : Nat) :
    get d (t.filter fun e => p e.1) j = if p j then t.get d j else d := by
  induction t with
  | nil => simp [get]
  | cons e r ih =>
    obtain ⟨k, v⟩ := e
    by_cases h' : k = j
    · subst h'
      by_cases h : p k = true
      · simp [h, get]
      · have ih' := ih; rw [if_neg h] at ih'
        simpa [h, get] using ih'
    · by_cases h : p k = true
      · simp [h, get, h', ih]
      · simpa [h, get, h'] using ih

theorem get_clear (d : α) (t : Tab α) (lo hi j : Nat) :
    (t.clear lo hi).get d j = if lo ≤ j ∧ j < hi then d else t.get d j := by
  unfold clear
  rw [get_filter d t (fun k => !(decide (lo ≤ k) && decide (k < hi))) j]
  by_cases h : lo ≤ j ∧ j < hi
  · simp [h]
  · have : (!(decide (lo ≤ j) && decide (j < hi))) = true := by simp; omega
    simp [this, h]

/-! ### The canonical form -/

theorem wf_iff [DecidableEq α] (d : α) (t : Tab α) :
    wf d t = true ↔ t.Pairwise (fun a b => a.1 < b.1) ∧ ∀ e ∈ t, e.2 ≠ d := by
  simp [wf]

theorem wf_nil [DecidableEq α] (d : α) : wf d ([] : Tab α) = true := by simp [wf]

theorem erase_eq (t : Tab α) (k : Nat) : erase t k = t.filter fun e => decide (e.1 ≠ k) := by
  induction t with
  | nil => rfl
  | cons e r ih =>
    obtain ⟨k', v⟩ := e
    by_cases h : k' = k <;> simp [erase, h, ih]

/-- Entries taken out leave the canonical form. -/
theorem wf_filter [DecidableEq α] (d : α) (t : Tab α) (p : Nat × α → Bool) (h : wf d t = true) : wf d (t.filter p) = true := by
  rw [wf_iff] at *
  exact ⟨h.1.filter p, fun e he => h.2 e (List.mem_filter.mp he).1⟩

theorem wf_clear [DecidableEq α] (d : α) (t : Tab α) (lo hi : Nat) (h : wf d t = true) : wf d (t.clear lo hi) = true :=
  wf_filter d t _ h

theorem mem_insert (t : Tab α) (k : Nat) (v : α) (e : Nat × α) : e ∈ insert t k v ↔ e = (k, v) ∨ e ∈ t := by
  induction t with
  | nil => simp [insert]
  | cons x r ih =>
    obtain ⟨k', v'⟩ := x
    unfold insert
    split
    · simp
    · simp [ih]; tauto

theorem pairwise_insert (t : Tab α) (k : Nat) (v : α) (h : t.Pairwise fun a b => a.1 < b.1) (hk : ∀ e ∈ t, e.1 ≠ k) :
    (insert t k v).Pairwise fun a b => a.1 < b.1 := by
  induction t with
  | nil => simp [insert]
  | cons x r ih =>
    obtain ⟨k', v'⟩ := x
    rw [List.pairwise_cons] at h
    have hk' : k' ≠ k := hk (k', v') (by simp)
    unfold insert
    split
    · rename_i hlt
      rw [List.pairwise_cons, List.pairwise_cons]
      refine ⟨fun e he => ?_, h.1, h.2⟩
      rcases List.mem_cons.mp he with rfl | he
      · exact hlt
      · exact lt_trans hlt (h.1 e he)
    · rename_i hnl
      rw [List.pairwise_cons]
      refine ⟨fun e he => ?_, ih h.2 fun e he => hk e (by simp [he])⟩
      rcases (mem_insert r k v e).mp he with rfl | he
      · simp only; omega
      · exact h.1 e he

/-- An update keeps the canonical form. -/
theorem wf_set [DecidableEq α] (d : α) (t : Tab α) (k : Nat) (v : α) (h : wf d t = true) : wf d (set d t k v) = true := by
  have he : wf d (erase t k) = true := by rw [erase_eq]; exact wf_filter d t _ h
  unfold set
  split
  · exact he
  · rename_i hv
    rw [wf_iff] at he ⊢
    refine ⟨pairwise_insert _ k v he.1 fun e h => (mem_erase t k e h).2, fun e h => ?_⟩
    rcases (mem_insert _ k v e).mp h with rfl | h
    · exact hv
    · exact he.2 e h

end Sys2Proof.Tab

namespace Sys2Proof.Machine

/-- Storing bytes keeps the canonical form of memory. -/
theorem wf_poke (m : Tab Byte) (a : Nat) (b : List Byte) (h : m.wf 0#8 = true) : (poke m a b).wf 0#8 = true := by
  induction b generalizing m a with
  | nil => exact h
  | cons x r ih => exact ih _ _ (Tab.wf_set _ _ _ _ h)

/-- What one byte reads after bytes are stored: the stored byte inside, as before outside. -/
theorem get_poke (m : Tab Byte) (a : Nat) (b : List Byte) (x : Nat) :
    (poke m a b).get 0#8 x = if a ≤ x ∧ x < a + b.length then b.getD (x - a) 0#8 else m.get 0#8 x := by
  induction b generalizing m a with
  | nil => simp [poke]
  | cons y r ih =>
    rw [poke, ih, Tab.get_set]
    by_cases h1 : a + 1 ≤ x ∧ x < a + 1 + r.length
    · rw [if_pos h1, if_pos (by simp; omega)]
      obtain ⟨n, hn⟩ : ∃ n, x - a = n + 1 := ⟨x - a - 1, by omega⟩
      rw [hn, show x - (a + 1) = n by omega]; simp
    · rw [if_neg h1]
      by_cases h2 : x = a
      · simp [h2]
      · rw [if_neg h2, if_neg (by simp; omega)]

theorem get_poke_out (m : Tab Byte) (a : Nat) (b : List Byte) (x : Nat) (h : x < a ∨ a + b.length ≤ x) :
    (poke m a b).get 0#8 x = m.get 0#8 x := by rw [get_poke, if_neg (by omega)]

end Sys2Proof.Machine
end

