-- ==== Sys2Proof/Laws/Frame.lean ====
section
/-! SUPPORT. Frames: for each shared operation the pieces of the state that it may change, said once. -/

namespace Sys2Proof.Machine

/-! ### The relation -/

theorem State.memAs_refl (s : State) (a n : Nat) : s.memAs s a n := ⟨fun _ _ => rfl, fun _ _ => rfl⟩

theorem State.memAs_trans {u v s : State} {a n : Nat} (h : u.memAs v a n) (k : v.memAs s a n) : u.memAs s a n :=
  ⟨fun x hx => (h.1 x hx).trans (k.1 x hx), fun l hl => (h.2 l hl).trans (k.2 l hl)⟩

theorem State.keeps_refl (s : State) (l : List Piece) : s.keeps s l := by
  intro c _; cases c <;> simp [State.sameIn, State.regsAs, State.memAs_refl]

theorem State.sameIn_trans {u v s : State} {c : Piece} (h : u.sameIn v c) (k : v.sameIn s c) : u.sameIn s c := by
  cases c <;> simp only [State.sameIn] at *
  case regs => exact fun o ho => (h o ho).trans (k o ho)
  case mem => exact State.memAs_trans h k
  case latches => exact ⟨h.1.trans k.1, h.2.trans k.2⟩
  all_goals exact h.trans k

theorem State.keeps_trans {u v s : State} {l : List Piece} (h : u.keeps v l) (k : v.keeps s l) : u.keeps s l :=
  fun c hc => State.sameIn_trans (h c hc) (k c hc)

theorem State.keeps_mono {u s : State} {l m : List Piece} (h : u.keeps s l) (hl : ∀ c ∈ l, c ∈ m) : u.keeps s m :=
  fun c hc => h c fun hm => hc (hl c hm)

/-- A state that differs in fields outside the pieces that the frame speaks about keeps them: the shape of every update lemma. -/
theorem State.keeps_of (u s : State) (l : List Piece) (h : ∀ c, c ∉ l → u.sameIn s c) : u.keeps s l := h

/-! ### Plain updates -/

theorem State.wr_keeps (s : State) (o : Nat) (v : Word) : (s.wr o v).keeps s [.regs] := by
  intro c hc; cases c <;> simp_all [State.sameIn, State.memAs]

theorem State.rd_wr (s : State) (o : Nat) (v : Word) (j : Nat) : (s.wr o v).rd j = if j = o then v else s.rd j := by
  unfold State.rd State.wr
  by_cases h : j = o
  · subst h; simp
  · simp only [h, if_false]; exact Tab.get_set_ne _ _ _ _ _ _ h

@[simp] theorem State.rd_wr_same (s : State) (o : Nat) (v : Word) : (s.wr o v).rd o = v := by rw [State.rd_wr, if_pos rfl]

theorem State.rd_wr_ne (s : State) (o : Nat) (v : Word) (j : Nat) (h : j ≠ o) : (s.wr o v).rd j = s.rd j := by
  rw [State.rd_wr, if_neg h]

theorem State.inc_keeps (s : State) (o n : Nat) : (s.inc o n).keeps s [.regs] := by
  unfold State.inc; split
  · exact s.keeps_refl _
  · exact s.wr_keeps _ _

theorem State.rd_inc_ne (s : State) (o n j : Nat) (h : j ≠ o) : (s.inc o n).rd j = s.rd j := by
  unfold State.inc; split
  · rfl
  · exact s.rd_wr_ne _ _ _ h

theorem State.wr64_keeps (s : State) (o v : Nat) : (s.wr64 o v).keeps s [.regs] :=
  State.keeps_trans (State.wr_keeps _ _ _) (State.wr_keeps _ _ _)

theorem State.add64_keeps (s : State) (o n : Nat) : (s.add64 o n).keeps s [.regs] := by
  unfold State.add64; split
  · exact s.keeps_refl _
  · exact s.wr64_keeps _ _

theorem State.wrBits_keeps (s : State) (o hi lo v : Nat) : (s.wrBits o hi lo v).keeps s [.regs] := s.wr_keeps _ _

/-! ### Memory -/

theorem State.poke_keeps (s : State) (a : Nat) (b : List Byte) : (s.poke a b).keeps s [.mem] := by
  intro c hc; cases c <;> simp_all [State.sameIn, State.regsAs, State.rd]

theorem State.heal_keeps (s : State) (a n : Nat) : (s.heal a n).keeps s [.mem] := by
  intro c hc; cases c <;> simp_all [State.sameIn, State.regsAs, State.rd]

/-- Good data stored changes the bytes it covers, and the poison of the lines it covers whole; poisoned lines met in part count. -/
theorem State.store_keeps (s : State) (a : Nat) (b : List Byte) : (s.store a b).keeps s [.mem, .regs] :=
  State.keeps_trans (State.keeps_mono (State.inc_keeps _ _ _) (by simp))
    (State.keeps_trans (State.keeps_mono (State.heal_keeps _ _ _) (by simp)) (State.keeps_mono (State.poke_keeps _ _ _) (by simp)))

/-- Good data stored counts in one register alone. -/
theorem State.store_rd (s : State) (a : Nat) (b : List Byte) (o : Nat) (h : o ≠ Reg.memPoisonWritten (memDie a)) :
    (s.store a b).rd o = s.rd o := State.rd_inc_ne _ _ _ _ h

@[simp] theorem State.store_mem (s : State) (a : Nat) (b : List Byte) : (s.store a b).mem = (s.poke a b).mem := State.inc_mem _ _ _

@[simp] theorem State.store_psn (s : State) (a : Nat) (b : List Byte) : (s.store a b).psn = ((s.poke a b).heal a b.length).psn :=
  State.inc_psn _ _ _

theorem foldl_set_other (l : List Nat) (f : Nat → Bool) (t : Tab Bool) (x : Nat) (h : ∀ y ∈ l, f y = true → y ≠ x) :
    (l.foldl (fun t y => if f y = true then t.set false y false else t) t).get false x = t.get false x := by
  induction l generalizing t with
  | nil => rfl
  | cons y r ih =>
    rw [List.foldl_cons, ih _ fun z hz => h z (by simp [hz])]
    split
    · rename_i hy; exact Tab.get_set_ne _ _ _ _ _ _ (Ne.symm (h y (by simp) hy))
    · rfl

theorem State.store_memAs (s : State) (a : Nat) (b : List Byte) : (s.store a b).memAs s a b.length := by
  constructor
  · intro x hx; rw [State.store_mem]; exact get_poke_out _ _ _ _ hx
  · intro l hl
    have := foldl_set_other (linesOf a b.length) (fun y => decide (a ≤ 64 * y ∧ 64 * y + 64 ≤ a + b.length)) s.psn l (by
      intro y _ hy; simp at hy; omega)
    rw [State.store_psn]
    simpa [State.heal] using this

/-! ### Interrupts and records -/

theorem State.setSlotInts_keeps (s : State) (x : IntSt) : ({ s with ints := x } : State).keeps s [.ints] := by
  intro c hc; cases c <;> simp_all [State.sameIn, State.regsAs, State.rd, State.memAs]

theorem State.raiseSlot_keeps (s : State) (src k : Nat) : (s.raiseSlot src k).keeps s [.regs, .ints] := by
  have h : (if (s.ints.slot src k).routed then s else s.inc Reg.intUnrouted).keeps s [.regs, .ints] := by
    split
    · exact s.keeps_refl _
    · exact State.keeps_mono (s.inc_keeps _ _) (by simp)
  unfold State.raiseSlot
  simp only
  split
  · exact State.keeps_trans (State.keeps_mono (State.setSlotInts_keeps _ _) (by simp)) h
  · exact State.keeps_trans (State.keeps_mono (State.inc_keeps _ _ _) (by simp)) h
  · split
    · exact State.keeps_trans (State.keeps_mono (State.inc_keeps _ _ _) (by simp)) h
    · exact State.keeps_trans (State.keeps_mono (State.setSlotInts_keeps _ _) (by simp)) h

/-- An interrupt source raised changes the slots of the controller and its two counters, nothing else. -/
theorem State.raise_keeps (s : State) (src : Nat) : (s.raise src).keeps s [.regs, .ints] := by
  have h : (if isrcWarden.contains src then { s with ints := { s.ints with warden := src :: s.ints.warden } } else s : State).keeps s
      [.regs, .ints] := by
    split
    · exact State.keeps_mono (State.setSlotInts_keeps _ _) (by simp)
    · exact s.keeps_refl _
  unfold State.raise
  simp only
  split
  · exact State.keeps_trans (State.keeps_trans (State.raiseSlot_keeps _ _ _) (State.raiseSlot_keeps _ _ _)) h
  · exact State.keeps_trans (State.raiseSlot_keeps _ _ _) h

theorem State.raiseSlot_rd (s : State) (src k o : Nat) (h : o ≠ Reg.intUnrouted) (h' : o ≠ Reg.intCoalesced) :
    (s.raiseSlot src k).rd o = s.rd o := by
  have hu : (if (s.ints.slot src k).routed then s else s.inc Reg.intUnrouted).rd o = s.rd o := by
    split
    · rfl
    · exact s.rd_inc_ne _ _ _ h
  unfold State.raiseSlot
  simp only
  split
  · exact hu
  · rw [State.rd_inc_ne _ _ _ _ h', hu]
  · split
    · rw [State.rd_inc_ne _ _ _ _ h', hu]
    · exact hu

/-- Raising a source counts in the two counters of the controller alone. -/
theorem State.raise_rd (s : State) (src o : Nat) (h : o ≠ Reg.intUnrouted) (h' : o ≠ Reg.intCoalesced) :
    (s.raise src).rd o = s.rd o := by
  have hu : (if isrcWarden.contains src then { s with ints := { s.ints with warden := src :: s.ints.warden } } else s : State).rd o
      = s.rd o := by split <;> rfl
  unfold State.raise
  simp only
  split
  · rw [State.raiseSlot_rd _ _ _ _ h h', State.raiseSlot_rd _ _ _ _ h h', hu]
  · rw [State.raiseSlot_rd _ _ _ _ h h', hu]

theorem foldl_keeps {α : Type} (f : State → α → State) (l : List Piece) (h : ∀ s x, (f s x).keeps s l) (xs : List α) (s : State) :
    (xs.foldl f s).keeps s l := by
  induction xs generalizing s with
  | nil => exact s.keeps_refl _
  | cons x r ih => exact State.keeps_trans (ih _) (h _ _)

/-! ### Time, records and counts -/

/-- A free field of the state set. -/
theorem State.fields_keeps (s : State) (a b c d : _) :
    ({ s with fresh := a, errs := b, tdcSeen := c, traceQ := d } : State).keeps s [.fresh, .errs, .tdcSeen, .traceQ] := by
  intro c hc; cases c <;> simp_all [State.sameIn, State.regsAs, State.rd, State.memAs]

theorem State.writeTrace_keeps (s : State) (r : TraceRec) : (s.writeTrace r).keeps s [.mem, .regs] := by
  unfold State.writeTrace
  split
  · exact s.keeps_refl _
  · split
    · exact s.keeps_refl _
    · exact State.keeps_trans (State.keeps_mono (State.wr_keeps _ _ _) (by simp)) (s.store_keeps _ _)

theorem State.flushTrace_keeps (s : State) (t : Nat) : (s.flushTrace t).keeps s [.traceQ, .mem, .regs] := by
  unfold State.flushTrace
  refine State.keeps_trans (foldl_keeps _ _ (fun s r => State.keeps_mono (s.writeTrace_keeps r) (by simp)) _ _) ?_
  intro c hc; cases c <;> simp_all [State.sameIn, State.regsAs, State.rd, State.memAs]

/-- Device time passes: the clock, and the trace records that are due, in memory and in the head registers of their rings. -/
theorem State.at_keeps (s : State) (t : Nat) : (s.at t).keeps s [.time, .traceQ, .mem, .regs] := by
  unfold State.at
  refine State.keeps_trans (State.keeps_mono (State.flushTrace_keeps _ _) (by simp)) ?_
  intro c hc; cases c <;> simp_all [State.sameIn, State.regsAs, State.rd, State.memAs]

/-- An error record written: the collector, its interrupts and counters, and the log ring. -/
theorem State.record_keeps (s : State) (r : ErrRec) : (s.record r).2.keeps s [.fresh, .errs, .mem, .regs, .ints] := by
  have h0 (v : State) (n : Nat) (x : ErrColl) : ({ v with fresh := n, errs := x } : State).keeps v [.fresh, .errs, .mem, .regs, .ints] := by
    intro c hc; cases c <;> simp_all [State.sameIn, State.regsAs, State.rd, State.memAs]
  have h4 (v : State) (x : ErrColl) : ({ v with errs := x } : State).keeps v [.errs] := by
    intro c hc; cases c <;> simp_all [State.sameIn, State.regsAs, State.rd, State.memAs]
  have h1 (v : State) (c : Prop) [Decidable c] (a : Nat) (d : List Byte) (x : ErrColl) :
      (if c then v else { v.store a d with errs := x } : State).keeps v [.fresh, .errs, .mem, .regs, .ints] := by
    split
    · exact v.keeps_refl _
    · exact State.keeps_trans (State.keeps_mono (h4 _ _) (by simp)) (State.keeps_mono (v.store_keeps _ _) (by simp))
  have h2 (v : State) (n : Nat) : (v.raise n).keeps v [.fresh, .errs, .mem, .regs, .ints] := State.keeps_mono (v.raise_keeps n) (by simp)
  have h3 (v : State) (c : Bool) : (if c = true then (v.inc Reg.errLost).raise isrcERR_LOST else v).keeps v
      [.fresh, .errs, .mem, .regs, .ints] := by
    split
    · exact State.keeps_trans (h2 _ _) (State.keeps_mono (v.inc_keeps _ _) (by simp))
    · exact v.keeps_refl _
  exact State.keeps_trans (h3 _ _) (State.keeps_trans (h2 _ _) (State.keeps_trans (h1 _ _ _ _ _) (h0 _ _ _)))

theorem State.log_keeps (s : State) (r : ErrRec) : (s.log r).keeps s [.fresh, .errs, .mem, .regs, .ints] := s.record_keeps r

theorem State.tdcCount_keeps (s : State) (p n c : Nat) : (s.tdcCount p n c).keeps s [.regs, .ints] := by
  unfold State.tdcCount
  simp only
  refine State.keeps_trans (State.keeps_mono (State.raise_keeps _ _) (by simp)) ?_
  have h : (((s.add64 Reg.glbTdcLo 1).inc (Reg.glbTdcCause c)).wr Reg.glbTdcLast (tdcWord p n c)).keeps s [.regs, .ints] :=
    State.keeps_mono (State.keeps_trans (State.wr_keeps _ _ _) (State.keeps_trans (State.inc_keeps _ _ _) (State.add64_keeps _ _ _)))
      (by simp)
  split
  · exact State.keeps_trans (State.keeps_mono (State.wr_keeps _ _ _) (by simp)) h
  · exact h

/-- A timing-dependent choice counted: its registers, its interrupt, and what has been counted. -/
theorem State.tdc_keeps (s : State) (p n c : Nat) : (s.tdc p n c).keeps s [.regs, .ints, .tdcSeen] := by
  unfold State.tdc
  split
  · exact State.keeps_mono (s.tdcCount_keeps p n c) (by simp)
  · split
    · exact s.keeps_refl _
    · refine State.keeps_trans (State.keeps_mono (State.tdcCount_keeps _ p n c) (by simp)) ?_
      intro c hc; cases c <;> simp_all [State.sameIn, State.regsAs, State.rd, State.memAs]

/-! ### Partitions, Saucers and triggers -/

theorem State.setPRun_keeps (s : State) (p : Nat) (x : PRun) : (s.setPRun p x).keeps s [.parts] := by
  intro c hc; cases c <;> simp_all [State.sameIn, State.regsAs, State.rd, State.memAs]

theorem State.setWm_keeps (s : State) (m : Nat) (x : WMech) : (s.setWm m x).keeps s [.warden] := by
  intro c hc; cases c <;> simp_all [State.sameIn, State.regsAs, State.rd, State.memAs]

theorem State.setPSt_keeps (s : State) (p : Nat) (x : PSt) : (s.setPSt p x).keeps s [.parts, .regs, .ints] := by
  unfold State.setPSt
  split
  · exact s.keeps_refl _
  · exact State.keeps_trans (State.keeps_mono (State.raise_keeps _ _) (by simp)) (State.keeps_mono (State.setPRun_keeps _ _ _) (by simp))

theorem State.setWState_keeps (s : State) (x : WState) : (s.setWState x).keeps s [.warden, .regs, .ints] := by
  unfold State.setWState
  split
  · exact s.keeps_refl _
  · exact s.keeps_refl _
  · split
    · exact s.keeps_refl _
    · refine State.keeps_trans (State.keeps_mono (State.raise_keeps _ _) (by simp)) ?_
      intro c hc; cases c <;> simp_all [State.sameIn, State.regsAs, State.rd, State.memAs]

/-! ### What closes a command -/

theorem map_setDom_still (l : List Dom) (n : Nat) (x : Dom)
    (h : ({ x with idleAt := 0, busy := false } : Dom) = { l.getD n {} with idleAt := 0, busy := false }) :
    (listSet l n x).map (fun d => ({ d with idleAt := 0, busy := false } : Dom)) = l.map fun d => { d with idleAt := 0, busy := false } := by
  unfold listSet
  rw [List.map_set]
  apply List.ext_getElem?
  intro i
  rw [List.getElem?_set]
  split
  · rename_i hi; subst hi
    split
    · rename_i hl
      simp at hl
      simp [hl, h]
    · rename_i hl; simp at hl; simp [hl]
  · rfl

/-- A domain of which only the idle times change leaves every piece as it is. -/
theorem State.setDom_idle_keeps (s : State) (n : Nat) (x : Dom)
    (h : ({ x with idleAt := 0, busy := false } : Dom) = { s.dom n with idleAt := 0, busy := false }) : (s.setDom n x).keeps s [] := by
  intro c _; cases c <;> simp [State.sameIn, State.regsAs, State.rd, State.memAs]
  simp only [Kettle.still, State.setDom]
  rw [map_setDom_still]
  exact h

theorem State.lookIdle_keeps (s : State) (n : Nat) : (s.lookIdle n).keeps s [] := by
  unfold State.lookIdle
  simp only
  split
  · exact s.keeps_refl _
  · split
    · split
      · exact s.keeps_refl _
      · exact s.setDom_idle_keeps _ _ rfl
    · split
      · exact s.setDom_idle_keeps _ _ rfl
      · exact s.keeps_refl _

theorem State.lookWaits_keeps (s : State) : s.lookWaits.keeps s [] := by
  unfold State.lookWaits
  simp only
  split
  · exact s.keeps_refl _
  · intro c _; cases c <;> simp [State.sameIn, State.regsAs, State.rd, State.memAs, Kettle.still]

theorem State.touchIdle_keeps (s : State) : s.touchIdle.keeps s [] :=
  State.keeps_trans (State.lookWaits_keeps _) (foldl_keeps _ _ (fun s n => s.lookIdle_keeps n) _ s)

theorem State.relink_keeps (s : State) : s.relink.keeps s [] := by
  unfold State.relink
  split
  · intro c _; cases c <;> simp [State.sameIn, State.regsAs, State.rd, State.memAs, Links.still, Links.reroute]
  · exact s.keeps_refl _

theorem map_drive_still (l : List OutPair) (n : Nat) (b : Bool) :
    (listSet l n ((l.getD n {}).drive b)).map (fun o => ({ fault := o.fault } : OutPair)) = l.map fun o => { fault := o.fault } := by
  unfold listSet
  rw [List.map_set]
  apply List.ext_getElem?
  intro i
  rw [List.getElem?_set]
  split
  · rename_i hi; subst hi
    split
    · rename_i hl
      simp at hl
      simp [hl, OutPair.drive]
    · rename_i hl; simp at hl; simp [hl]
  · rfl

theorem State.deEnergise_keeps (s : State) (n : Nat) : (s.deEnergise n).keeps s [] := by
  intro c _; cases c <;> simp [State.sameIn, State.regsAs, State.rd, State.memAs, State.deEnergise]
  have := map_drive_still s.warden.outs n false
  simp only [List.getD_eq_getElem?_getD] at this
  simp [Warden.still, this]

theorem State.settlePair_keeps (s : State) (n : Nat) : (s.settlePair n).keeps s [] := by
  unfold State.settlePair
  simp only
  split
  · split
    · exact s.deEnergise_keeps n
    · exact s.keeps_refl _
  · split
    · intro c _; cases c <;> simp [State.sameIn, State.regsAs, State.rd, State.memAs]
      have := map_drive_still s.warden.outs n true
      simp only [List.getD_eq_getElem?_getD] at this
      simp [Warden.still, this]
    · exact s.keeps_refl _

theorem State.settle_keeps (s : State) : s.settle.keeps s [] := foldl_keeps _ _ (fun s n => s.settlePair_keeps n) _ s

/-- A command that takes no fall-back decision ends with every piece as its meaning left it. -/
theorem State.finish_keeps (s : State) (h : s.dev.fall = none) : s.finish.keeps s [] := by
  unfold State.finish
  rw [h]
  exact State.keeps_trans (State.settle_keeps _) (State.keeps_trans (State.relink_keeps _) (State.touchIdle_keeps _))

/-- The same, against an earlier state. -/
theorem State.finish_keeps_of {u s : State} {l : List Piece} (h : u.dev.fall = none) (k : u.keeps s l) : u.finish.keeps s l :=
  State.keeps_trans (State.keeps_mono (u.finish_keeps h) (by simp)) k

theorem State.dropOuts_keeps (s : State) (m : Nat) : (s.dropOuts m).keeps s [] := foldl_keeps _ _ (fun s n => s.deEnergise_keeps n) _ s

/-- A Saucer issued or added to: the warden, the counters of R202 and R308, their interrupt. -/
theorem State.issue_keeps (s : State) (m cause cat stamp : Nat) :
    (s.issue m cause cat stamp).keeps s [.warden, .regs, .ints, .tdcSeen] := by
  have hd (u : State) : (u.dropOuts m).keeps u [.warden, .regs, .ints, .tdcSeen] := State.keeps_mono (u.dropOuts_keeps m) (by simp)
  have hw (u : State) (x : WMech) : (u.setWm m x).keeps u [.warden, .regs, .ints, .tdcSeen] :=
    State.keeps_mono (u.setWm_keeps m x) (by simp)
  have hi (u : State) (o : Nat) : (u.inc o).keeps u [.warden, .regs, .ints, .tdcSeen] := State.keeps_mono (u.inc_keeps o 1) (by simp)
  have hc (u : State) : (u.chargeSub m stamp).keeps u [.warden, .regs, .ints, .tdcSeen] := by
    unfold State.chargeSub
    split
    · exact State.keeps_mono (u.tdc_keeps _ _ _) (by simp)
    · exact u.keeps_refl _
  have hdIf (u : State) (c : Prop) [Decidable c] : (if c then u.dropOuts m else u).keeps u [.warden, .regs, .ints, .tdcSeen] := by
    split
    · exact hd u
    · exact u.keeps_refl _
  have hcIf (u : State) : (if cause = 13 then u else (u.inc Reg.selSaucerSub).chargeSub m stamp).keeps u
      [.warden, .regs, .ints, .tdcSeen] := by
    split
    · exact u.keeps_refl _
    · exact State.keeps_trans (hc _) (hi _ _)
  have hd2 (u : State) (c d : Prop) [Decidable c] [Decidable d] :
      (if c then (if d then u.dropOuts m else u) else u).keeps u [.warden, .regs, .ints, .tdcSeen] := by
    split
    · exact hdIf u d
    · exact u.keeps_refl _
  unfold State.issue
  by_cases h : s.held m = true
  · rw [if_pos h]; exact State.keeps_trans (hd2 _ _ _) (hw _ _)
  · rw [if_neg h]
    exact State.keeps_trans (hdIf _ _) (State.keeps_trans (hcIf _) (State.keeps_trans (hi _ _) (hw _ _)))

/-- A trigger of R320: what its Saucers change, and the TRIGGER record. -/
theorem State.trigger_keeps (s : State) (cause stamp : Nat) (ms : List Nat) (cat : Option Nat) :
    (s.trigger cause stamp ms cat).keeps s [.warden, .regs, .ints, .tdcSeen, .fresh, .errs, .mem] := by
  unfold State.trigger
  simp only
  refine State.keeps_trans (foldl_keeps _ _ (fun s m => State.keeps_mono (s.issue_keeps m _ _ _) (by simp)) _ _) ?_
  refine State.keeps_trans (State.keeps_mono (State.raise_keeps _ _) (by simp)) ?_
  refine State.keeps_trans (State.keeps_mono (State.log_keeps _ _) (by simp)) ?_
  intro c hc; cases c <;> simp_all [State.sameIn, State.regsAs, State.rd, State.memAs]

end Sys2Proof.Machine
end

