-- ==== Sys2Proof/Laws/Fields.lean ====
section
/-! SUPPORT. Fields that the passing of time and the end of a command leave alone, for rewriting. -/

namespace Sys2Proof.Machine

theorem foldl_field {α β : Type} (g : State → β) (f : State → α → State) (h : ∀ s x, g (f s x) = g s) (xs : List α) (s : State) :
    g (xs.foldl f s) = g s := by
  induction xs generalizing s with
  | nil => rfl
  | cons x r ih => rw [List.foldl_cons, ih, h]

variable (s : State)

@[simp] theorem State.at_fuses (t : Nat) : (s.at t).fuses = s.fuses := s.at_keeps t .fuses (by simp)
@[simp] theorem State.at_dev (t : Nat) : (s.at t).dev = s.dev := s.at_keeps t .dev (by simp)
@[simp] theorem State.at_hi (t : Nat) : (s.at t).hi = s.hi := (s.at_keeps t .latches (by simp)).1
@[simp] theorem State.at_lo (t : Nat) : (s.at t).lo = s.lo := (s.at_keeps t .latches (by simp)).2
@[simp] theorem State.at_compl (t : Nat) : (s.at t).compl = s.compl := s.at_keeps t .compl (by simp)
@[simp] theorem State.at_loader (t : Nat) : (s.at t).loader = s.loader := s.at_keeps t .loader (by simp)
@[simp] theorem State.at_parts (t : Nat) : (s.at t).parts = s.parts := s.at_keeps t .parts (by simp)
@[simp] theorem State.at_fld (t : Nat) : (s.at t).fld = s.fld := s.at_keeps t .fld (by simp)
@[simp] theorem State.at_cores (t : Nat) : (s.at t).cores = s.cores := s.at_keeps t .cores (by simp)
@[simp] theorem State.at_sched (t : Nat) : (s.at t).sched = s.sched := s.at_keeps t .sched (by simp)
@[simp] theorem State.at_sync (t : Nat) : (s.at t).sync = s.sync := s.at_keeps t .sync (by simp)
theorem State.writeTrace_warden (r : TraceRec) : (s.writeTrace r).warden = s.warden := by
  unfold State.writeTrace
  split
  · rfl
  · split
    · rfl
    · exact (State.wr_warden _ _ _).trans (State.store_warden _ _ _)
@[simp] theorem State.at_warden (t : Nat) : (s.at t).warden = s.warden :=
  foldl_field (·.warden) _ (fun s r => s.writeTrace_warden r) _ _
@[simp] theorem State.at_errs (t : Nat) : (s.at t).errs = s.errs := s.at_keeps t .errs (by simp)
@[simp] theorem State.at_rots (t : Nat) : (s.at t).rots = s.rots := s.at_keeps t .rots (by simp)
@[simp] theorem State.at_ints (t : Nat) : (s.at t).ints = s.ints := s.at_keeps t .ints (by simp)
theorem State.writeTrace_ktl (r : TraceRec) : (s.writeTrace r).ktl = s.ktl := by
  unfold State.writeTrace
  split
  · rfl
  · split
    · rfl
    · exact (State.wr_ktl _ _ _).trans (State.store_ktl _ _ _)
@[simp] theorem State.at_ktl (t : Nat) : (s.at t).ktl = s.ktl :=
  foldl_field (·.ktl) _ (fun s r => s.writeTrace_ktl r) _ _
@[simp] theorem State.at_hqs (t : Nat) : (s.at t).hqs = s.hqs := s.at_keeps t .hqs (by simp)
@[simp] theorem State.at_fif (t : Nat) : (s.at t).fif = s.fif := s.at_keeps t .fif (by simp)
theorem State.writeTrace_links (r : TraceRec) : (s.writeTrace r).links = s.links := by
  unfold State.writeTrace
  split
  · rfl
  · split
    · rfl
    · exact (State.wr_links _ _ _).trans (State.store_links _ _ _)
@[simp] theorem State.at_links (t : Nat) : (s.at t).links = s.links :=
  foldl_field (·.links) _ (fun s r => s.writeTrace_links r) _ _
@[simp] theorem State.at_arrs (t : Nat) : (s.at t).arrs = s.arrs := s.at_keeps t .arrs (by simp)
@[simp] theorem State.at_engs (t : Nat) : (s.at t).engs = s.engs := s.at_keeps t .engs (by simp)
@[simp] theorem State.at_round (t : Nat) : (s.at t).round = s.round := s.at_keeps t .round (by simp)
@[simp] theorem State.at_tdcSeen (t : Nat) : (s.at t).tdcSeen = s.tdcSeen := s.at_keeps t .tdcSeen (by simp)
@[simp] theorem State.at_hostW (t : Nat) : (s.at t).hostW = s.hostW := s.at_keeps t .host (by simp)
@[simp] theorem State.at_fresh (t : Nat) : (s.at t).fresh = s.fresh := s.at_keeps t .fresh (by simp)
@[simp] theorem State.at_pending (t : Nat) : (s.at t).pending = s.pending := s.at_keeps t .queue (by simp)



theorem State.finish_fuses (h : s.dev.fall = none) : s.finish.fuses = s.fuses := s.finish_keeps h .fuses (by simp)
theorem State.finish_dev (h : s.dev.fall = none) : s.finish.dev = s.dev := s.finish_keeps h .dev (by simp)
theorem State.finish_hi (h : s.dev.fall = none) : s.finish.hi = s.hi := (s.finish_keeps h .latches (by simp)).1
theorem State.finish_lo (h : s.dev.fall = none) : s.finish.lo = s.lo := (s.finish_keeps h .latches (by simp)).2
theorem State.finish_compl (h : s.dev.fall = none) : s.finish.compl = s.compl := s.finish_keeps h .compl (by simp)
theorem State.finish_loader (h : s.dev.fall = none) : s.finish.loader = s.loader := s.finish_keeps h .loader (by simp)
theorem State.finish_parts (h : s.dev.fall = none) : s.finish.parts = s.parts := s.finish_keeps h .parts (by simp)
theorem State.finish_fld (h : s.dev.fall = none) : s.finish.fld = s.fld := s.finish_keeps h .fld (by simp)
theorem State.finish_cores (h : s.dev.fall = none) : s.finish.cores = s.cores := s.finish_keeps h .cores (by simp)
theorem State.finish_sched (h : s.dev.fall = none) : s.finish.sched = s.sched := s.finish_keeps h .sched (by simp)
theorem State.finish_sync (h : s.dev.fall = none) : s.finish.sync = s.sync := s.finish_keeps h .sync (by simp)
theorem State.finish_errs (h : s.dev.fall = none) : s.finish.errs = s.errs := s.finish_keeps h .errs (by simp)
theorem State.finish_rots (h : s.dev.fall = none) : s.finish.rots = s.rots := s.finish_keeps h .rots (by simp)
theorem State.finish_ints (h : s.dev.fall = none) : s.finish.ints = s.ints := s.finish_keeps h .ints (by simp)
theorem State.finish_hqs (h : s.dev.fall = none) : s.finish.hqs = s.hqs := s.finish_keeps h .hqs (by simp)
theorem State.finish_fif (h : s.dev.fall = none) : s.finish.fif = s.fif := s.finish_keeps h .fif (by simp)
theorem State.finish_arrs (h : s.dev.fall = none) : s.finish.arrs = s.arrs := s.finish_keeps h .arrs (by simp)
theorem State.finish_engs (h : s.dev.fall = none) : s.finish.engs = s.engs := s.finish_keeps h .engs (by simp)
theorem State.finish_round (h : s.dev.fall = none) : s.finish.round = s.round := s.finish_keeps h .round (by simp)
theorem State.finish_tdcSeen (h : s.dev.fall = none) : s.finish.tdcSeen = s.tdcSeen := s.finish_keeps h .tdcSeen (by simp)
theorem State.finish_hostW (h : s.dev.fall = none) : s.finish.hostW = s.hostW := s.finish_keeps h .host (by simp)
theorem State.finish_fresh (h : s.dev.fall = none) : s.finish.fresh = s.fresh := s.finish_keeps h .fresh (by simp)
theorem State.finish_pending (h : s.dev.fall = none) : s.finish.pending = s.pending := s.finish_keeps h .queue (by simp)
theorem State.finish_time (h : s.dev.fall = none) : s.finish.time = s.time := s.finish_keeps h .time (by simp)
theorem State.finish_traceQ (h : s.dev.fall = none) : s.finish.traceQ = s.traceQ := s.finish_keeps h .traceQ (by simp)
theorem State.finish_rd (h : s.dev.fall = none) (o : Nat) : s.finish.rd o = s.rd o := s.finish_keeps h .regs (by simp) o (by simp)

end Sys2Proof.Machine
end

