-- ==== Sys2Proof/WellFormed.lean ====
section
/-! DEFINITION. Which commands are well formed: every operand lies in the range that the spec gives the thing it names. An
ill-formed command names a thing that the package does not have, so nothing outside can send it. -/

namespace Sys2Proof

/-- A register access: one of nine PCIe functions, an offset of its window (R433, R434, R507). -/
def RegAcc.wf (a : RegAcc) : Bool := decide (a.fn < 9) && decide (a.off < 2 ^ 24)

/-- What POR_N release finds: one of eight package numbers (R424). -/
def PorIn.wf (o : PorIn) : Bool := decide (o.pkgSel < 8)

/-- An array descriptor's run: a die, a partition, one of its networks (R217). -/
def ArrIn.wf (r : ArrIn) : Bool := decide (r.die < 2) && decide (r.part < 8) && decide (r.net < 16)

/-- A tally operation: a partition, a class, a 64-bit TREF and OPERAND (R264, R265). -/
def TallyIn.wf (r : TallyIn) : Bool := decide (r.part < 8) && decide (r.cls < 3) && decide (r.tref < 2 ^ 64) && decide (r.operand < 2 ^ 64)

/-- A safety input wire: one of thirteen inputs (R335). -/
def WireIn.wf (w : WireIn) : Bool := decide (w.input < 13)

/-- An event for the error collector: a unit identifier of 16 bits (R368). -/
def EventIn.wf (e : EventIn) : Bool := decide (e.unit < 65536) && decide (e.cls < 4)

/-- The Kettle's readings: one temperature for each die (R410). -/
def SenseIn.wf (o : SenseIn) : Bool := decide (o.tj.length = 3)

/-- A life-cycle request: a PCIe function (R428). -/
def LcIn.wf (r : LcIn) : Bool := decide (r.fn < 9)

/-- A host command: a function's queue, 64 bytes (R436). -/
def HostIn.wf (c : HostIn) : Bool := decide (c.fn < 9) && decide (c.q < 8) && decide (c.bytes.length = 64)

/-- A BAR2 access: a function, and at least one byte (R434). -/
def MemAcc.wf (a : MemAcc) : Bool := decide (a.fn < 9) && decide (0 < (if a.write then a.data.length else a.len))

/-- A returned frame: its axes are axes 1 to 12 of mechanisms 0 to 15 (R452). -/
def ImageIn.wf (o : ImageIn) : Bool := o.axes.all fun e => decide (e.1 < 16) && decide (1 ≤ e.2.1) && decide (e.2.1 ≤ 12)

/-- A sensor packet: one of 32 ingest channels (R460). -/
def PacketIn.wf (o : PacketIn) : Bool := decide (o.chan < 32)

/-- A trained port: a package and one of its ports (R485). -/
def TrainIn.wf (o : TrainIn) : Bool := decide (o.pkg < 8) && decide (o.port < 4)

/-- A request from another package (R480, R481). -/
def RemoteIn.wf (o : RemoteIn) : Bool := decide (o.pkg < 8) && decide (o.part < 8) && decide (o.cls < 3) && decide (o.port < 4) && decide (1 ≤ o.hops) && decide (o.hops ≤ 7)

/-- A command is well formed. -/
def Instr.wf : Instr → Bool
  | .registerWrite a v _ => a.wf && decide (v < 4294967296)
  | .readClear a _ => a.wf
  | .loReadLatch a _ => a.wf
  | .coldReset _ => true
  | .porNRelease o => o.wf
  | .ready bit _ _ => decide (bit < 59)
  | .hbmInit stack _ => decide (stack < 2)
  | .cold fn _ => decide (fn < 9)
  | .warm fn _ => decide (fn < 9)
  | .warmResetRelease _ => true
  | .part fn p _ => decide (fn < 9) && decide (p < 8)
  | .plannerRestart _ => true
  | .deferredTimeStep _ => true
  | .frameWindow p _ => decide (p < 8)
  | .netStart p _ => decide (p < 8)
  | .buildStart p _ => decide (p < 8)
  | .buildSeal _ _ => true
  | .sealDeadline => true
  | .readyDeadline => true
  | .publish _ => true
  | .personBoxBuild core _ => decide (core < 128)
  | .storeCopy store' _ _ => decide (store' < 16)
  | .lastAdmission p => decide (p < 8)
  | .selectEnd p _ => decide (p < 8)
  | .roundLate => true
  | .commitEnd p => decide (p < 8)
  | .out p => decide (p < 8)
  | .admission core _ => decide (core < 128)
  | .primitiveFetch core slot _ => decide (core < 128) && decide (slot < 512)
  | .sweepEntry core slot _ => decide (core < 128) && decide (slot < 512)
  | .verdict core slot _ => decide (core < 128) && decide (slot < 512)
  | .costScore core slot _ => decide (core < 128) && decide (slot < 512)
  | .reduction core half _ => decide (core < 128) && decide (half < 2)
  | .merge p _ => decide (p < 8)
  | .solveStart engine _ => decide (engine < 32)
  | .solverStep engine _ _ => decide (engine < 32)
  | .smoothing engine _ => decide (engine < 32)
  | .handoff engine _ => decide (engine < 32)
  | .tryResult m _ => decide (m < 16)
  | .commitRecord m _ => decide (m < 16)
  | .writeGroup _ => true
  | .confirm core slot _ => decide (core < 128) && decide (slot < 512)
  | .repeat_ core slot _ => decide (core < 128) && decide (slot < 512)
  | .deadline m => decide (m < 16)
  | .standstill m => decide (m < 16)
  | .gemm r => r.wf
  | .conv r => r.wf
  | .attn r => r.wf
  | .gather r => r.wf
  | .vector r => r.wf
  | .pool r => r.wf
  | .load r => r.wf
  | .store r => r.wf
  | .signal r => r.wf
  | .twinTimeout p net => decide (p < 8) && decide (net < 16)
  | .schFlagSet a v _ => a.wf && decide (v < 4294967296)
  | .due die p task => decide (die < 2) && decide (p < 8) && decide (task < 1024)
  | .dispatch die core _ => decide (die < 2) && decide (core < 128)
  | .itemComplete die core _ => decide (die < 2) && decide (core < 128)
  | .traceDrop die p _ => decide (die < 2) && decide (p < 8)
  | .read r => r.wf
  | .add r => r.wf
  | .sub r => r.wf
  | .take r => r.wf
  | .waitGe r => r.wf
  | .waitEq r => r.wf
  | .arrive r => r.wf
  | .waitTimeout _ _ => true
  | .poll _ _ => true
  | .synHostAdd a v _ => a.wf && decide (v < 4294967296)
  | .lend core _ => decide (core < 128)
  | .end_ core _ => decide (core < 128)
  | .copy core _ _ _ => decide (core < 128)
  | .fill core _ _ => decide (core < 128)
  | .tally core _ _ => decide (core < 128)
  | .link core _ => decide (core < 128)
  | .blockRepeat core _ _ => decide (core < 128)
  | .patrolScrub die _ _ _ => decide (die < 2)
  | .scratchpadScrub core _ _ _ => decide (core < 128)
  | .cosyEntry dom _ => decide (dom < 176)
  | .wake dom _ => decide (dom < 176)
  | .tamper cause _ => decide (cause < 4)
  | .railFault rail _ => decide (rail < 4)
  | .laneRepair link' _ => decide (link' < 3)
  | .linkDown link' _ => decide (link' < 3)
  | .monitoringPeriod _ _ => true
  | .channel _ _ => true
  | .watchdog w _ => decide (w < 12)
  | .inputFilter w _ => w.wf
  | .discrepancy input _ => decide (input < 13)
  | .estopReset fn n _ => decide (fn < 9) && decide (n < 4)
  | .restart fn _ => decide (fn < 9)
  | .testPulse _ _ => true
  | .outputFault pair _ _ _ => decide (pair < 8)
  | .soe conn _ _ => decide (conn < 32)
  | .timeWindow _ => true
  | .sliceStart die unit kind _ => decide (die < 2) && decide (unit < 512) && decide (kind < 256)
  | .sliceEnd die _ _ => decide (die < 2)
  | .intervalEnd die _ => decide (die < 2)
  | .errorEvent e => e.wf
  | .faultWindowExpiry unit _ _ => decide (unit < 65536)
  | .isolationTimeout unit _ => decide (unit < 65536)
  | .clearRetired fn _ => decide (fn < 9)
  | .errRead fn v _ => decide (fn < 9) && decide (v < 4294967296)
  | .intDelivery _ => true
  | .eoi fn vec _ => decide (fn < 9) && decide (vec < 2048)
  | .intSwSetG a v _ => a.wf && decide (v < 4294967296)
  | .intSwSetP a v _ => a.wf && decide (v < 4294967296)
  | .pendSet fn src slot _ => decide (fn < 9) && decide (src < 288) && decide (slot < 2)
  | .controlPeriod o => o.wf
  | .pllLockLoss pll _ => decide (pll < 28)
  | .steepFull fn _ => decide (fn < 9)
  | .steepPart fn p _ => decide (fn < 9) && decide (p < 8)
  | .abort fn _ => decide (fn < 9)
  | .start fn p _ => decide (fn < 9) && decide (p < 8)
  | .stop fn p _ => decide (fn < 9) && decide (p < 8)
  | .fetch _ _ _ => true
  | .auth _ => true
  | .parse _ => true
  | .safety _ => true
  | .claims _ => true
  | .distribute _ _ => true
  | .provision r => r.wf
  | .keyOwner r => r.wf
  | .keySafety r => r.wf
  | .revokeOwner r => r.wf
  | .revokeSafety r => r.wf
  | .advanceField r => r.wf
  | .advanceReturn r => r.wf
  | .sqTail a v _ => a.wf && decide (v < 4294967296)
  | .cqHead a v _ => a.wf && decide (v < 4294967296)
  | .queueEnable a v _ => a.wf && decide (v < 4294967296)
  | .queueDisable a v _ => a.wf && decide (v < 4294967296)
  | .copyIn c => c.wf
  | .copyOut c => c.wf
  | .tallyCommand c => c.wf
  | .flag c => c.wf
  | .nop c => c.wf
  | .perstN _ => true
  | .flr fn _ => decide (fn < 9)
  | .d3hot fn _ => decide (fn < 9)
  | .bar2Access a => a.wf
  | .verdictTraceDrop p _ => decide (p < 8)
  | .cycle port _ => decide (port < 4)
  | .inputImage port o => decide (port < 4) && o.wf
  | .feedbackFrame port _ _ => decide (port < 4)
  | .phyPoll port _ _ => decide (port < 4)
  | .syncMessage _ => true
  | .syncTransmit port _ => decide (port < 8)
  | .holdover _ => true
  | .frameStart chan _ => decide (chan < 32)
  | .frameEnd chan _ _ => decide (chan < 32)
  | .packet o => o.wf
  | .spanComplete chan _ => decide (chan < 32)
  | .capture unit _ _ => decide (unit < 8)
  | .pulse unit => decide (unit < 8)
  | .pps unit _ => decide (unit < 8)
  | .tsuCapRead fn unit _ => decide (fn < 9) && decide (unit < 8)
  | .flit port _ _ => decide (port < 4)
  | .linkUp port o _ => decide (port < 4) && o.wf
  | .portDown port _ => decide (port < 4)
  | .remoteRequest o => o.wf
  | .remoteTimeout _ _ => true
  | .cdlOpen fn p v _ => decide (fn < 9) && decide (p < 8) && decide (v < 4294967296)
  | .cdlCtrl fn port v _ => decide (fn < 9) && decide (port < 4) && decide (v < 4294967296)
  | .inBandStatus port _ _ => decide (port < 4)
  | .blockLock port _ _ => decide (port < 4)
  | .pllRelock pll _ => decide (pll < 28)
  | .stepUp clk _ => decide (clk < 18)
  | .d0 fn _ => decide (fn < 9)
  | .delayReq port _ => decide (port < 8)
  | .busTransition port _ _ => decide (port < 4)

end Sys2Proof
end

