-- ==== Sys2Proof/Tests/Slice0.lean ====
section
/-! SUPPORT. The model's own tests: ill-formed commands, single steps, and for each statement states and operands that meet its
conditions, at the ends of their ranges where they have some. -/

namespace Sys2Proof.Machine

set_option Elab.async false

/-! ### States that the tests start from -/

/-- Brought up, every function ready, nothing configured. -/
def live : State := { dev := { up := true, ready := 2 ^ 59 - 1, hbmLost := [false, false] }, ktl := { lock := 2 ^ 28 - 1 } }

/-- Mechanism 0, of one axis. -/
def mech0 : Mech := { num := 0, axes := 1, ctxFirst := 0, ctxCount := 16, durUs := 1000 }

/-- Partition 0, with mechanism 0 and two cores of each die. -/
def part0 : PartCfg :=
  { pr := { num := 0, classes := 7, cores := [2], ctxFirst := 0, ctxCount := 16, hbmFirst := 0, hbmCount := 4, credit := 8, arrays := 3 }
    cores := [0, 1, 64, 65], mechs := [mech0] }

/-- Partition 0 alone, the field master. -/
def cfg0 : Cfg := { parts := [part0], lay := { master := 0 } }

/-- A state with a configuration in force and partition 0 as given, 1 ms after reset. -/
def conf (c : Cfg) (x : PRun) : State := { live with loader := { active := some c }, parts := x :: List.replicate 7 {}, time := 1000000 }

/-- Partition 0 RUNNING since 1 ms, one frame opened. -/
def run1 : PRun := { st := .running, t0 := 1000000, opened := 1 }

/-! ### Registers, reset and steeping -/

theorem meets_StepRunsTheFrontCommand : ({ live with pending := [.roundLate] } : State).pending = .roundLate :: [] := by decide +kernel
theorem meets_EmptyQueueIdles : live.pending = [] := by decide +kernel
theorem meets_OutputsStaySafe : live.outputsSafe = true := by decide +kernel

/-- KTL_CAP, a plain register. -/
def sc : RegAcc := { fn := 0, off := Reg.ktlCap }
theorem meets_AccessTypes :
  live.calm ∧ live.takesWrite sc ∧ sc.bar = .bar0 ∧ Reg.plainOff sc.off = true ∧ Reg.isRwLo sc.off = false ∧ Reg.isRwLo (sc.off - 4) = false
  ∧ live.takesRead sc ∧ Reg.isLo sc.off = false := by decide +kernel

/-- BLD_SRC, its _LO half and its _HI half. -/
def wide : RegAcc := { fn := 0, off := Reg.bldSrcLo }
/-- BLD_SRC_HI. -/
def wideHi : RegAcc := { fn := 0, off := Reg.bldSrcHi }
theorem meets_WideRegisters :
  (live.takesRead wide ∧ Reg.isLo wide.off = true ∧ idx wide.off (Reg.snsTsuCapLo 0) 8 8 = none)
  ∧ ((live.latchHi 0 Reg.bldSrcHi 5#32).takesRead wideHi ∧ Reg.isLo wideHi.off = false ∧ (live.latchHi 0 Reg.bldSrcHi 5#32).hi.get none (16 * wideHi.off + wideHi.fn) = some 5#32)
  ∧ (live.takesWrite wide ∧ Reg.plainOff wide.off = true ∧ Reg.isRwLo wide.off = true)
  ∧ (let s : State := { live with lo := [(Reg.bldSrcLo, some 256#32)] }
     s.calm ∧ s.takesWrite wideHi ∧ Reg.plainOff wideHi.off = true ∧ Reg.isRwLo wideHi.off = false ∧ 4 ≤ wideHi.off ∧ Reg.isRwLo (wideHi.off - 4) = true ∧ s.lo.get none (wideHi.off - 4) = some 256#32) := by decide +kernel

theorem meets_UnsupportedAccesses :
  live.calm ∧ live.pcieUp = true ∧ live.unsupported { fn := 0, off := 2 } true = true ∧ live.unsupported { fn := 1, off := 0x80 } false = true := by decide +kernel

theorem meets_ColdReset : live.calm ∧ live.pcieUp = true := by decide +kernel

theorem meets_PowerUp :
  (State.reset.calm ∧ State.reset.dev.up = false ∧ State.reset.dev.coldCmd = false)
  ∧ (let s : State := { dev := { up := true } }
     s.calm ∧ s.dev.up = true ∧ readyKnown 40 = true ∧ 40 ≠ rbHBM ∧ 40 ≠ rbHBM + 1 ∧ bit s.dev.ready 40 = false ∧ bit s.dev.failed 40 = false ∧ s.dev.warm = none ∧ s.dev.restart = false)
  ∧ (let s : State := { dev := { up := true, trained := [true, false] } }
     s.calm ∧ s.dev.up = true ∧ s.dev.warm = none ∧ s.dev.trained.getD 0 false = true ∧ s.dev.hbmLost.getD 0 false = true) := by decide +kernel

theorem meets_WarmReset :
  (live.calm ∧ live.pcieUp = true ∧ live.dev.warm = none)
  ∧ (let s : State := { dev := { up := true, warm := some 0 } }
     s.calm ∧ s.dev.warm = some 0 ∧ s.dev.hold = false)
  ∧ (let s : State := { live with dev := { live.dev with restart := true } }
     s.calm ∧ s.dev.up = true ∧ s.dev.warm = none ∧ s.dev.restart = true ∧ s.plannerReady = true) := by decide +kernel

theorem meets_PartitionReset :
  ((conf cfg0 run1).calm ∧ (conf cfg0 run1).pcieUp = true ∧ 0 < 8 ∧ ((conf cfg0 run1).prun 0).st = .running ∧ (conf cfg0 run1).master = some 0
    ∧ (∀ x ∈ (conf cfg0 run1).cfg.hasMechs.map (·.num), x = 0 ∨ ((conf cfg0 run1).prun x).st ≠ .running) ∧ (conf cfg0 run1).dev.warm = none)
  ∧ (live.calm ∧ live.pcieUp = true ∧ 7 < 8 ∧ (live.prun 7).st ≠ .running ∧ (live.prun 7).st ≠ .stopped) := by decide +kernel

/-- A PROVISION request that fails its form check. -/
def lcReq : LcIn := { fn := 0, bytes := zeros 4 ++ [1#8] ++ zeros 507 }
theorem meets_LifeCycleRequests :
  let s : State := live.wr Reg.glbLcCmd 1#32
  s.calm ∧ (1, Instr.provision lcReq) ∈ [(1, Instr.provision lcReq), (2, .keyOwner lcReq)] ∧ bit (s.rd Reg.glbLcCmd).toNat 0 = true ∧ (∀ x ∈ s.parts, x.st ≠ .running)
   ∧ s.loader.run = none ∧ lcReq.ok = true ∧ 512 ≤ lcReq.bytes.length ∧ leAt lcReq.bytes 4 1 = 1 := by decide +kernel

theorem meets_SteepingBegins :
  (let s : State := live.wr Reg.bldLen 768#32
   s.calm ∧ s.pcieUp = true ∧ s.readyBit rbWARDEN = true ∧ s.dev.locked = false ∧ s.loader.run = none ∧ (∀ x ∈ s.parts, x.st ≠ .running) ∧ s.parts.length = 8
    ∧ s.readyBit rbHBM = true ∧ lenOk (s.rd Reg.bldLen).toNat = true)
  ∧ (let s : State := (conf cfg0 { st := .stopped }).wr Reg.bldLen 67108864#32
     s.calm ∧ s.pcieUp = true ∧ s.readyBit rbWARDEN = true ∧ s.dev.locked = false ∧ s.loader.run = none ∧ s.parts.length = 8 ∧ (s.prun 0).st = .stopped
     ∧ s.readyBit rbHBM = true ∧ lenOk (s.rd Reg.bldLen).toNat = true)
  ∧ (let s : State := { live with loader := { run := some {} } }
     s.calm ∧ s.pcieUp = true ∧ s.readyBit rbWARDEN = true ∧ s.loader.run = some {}) := by decide +kernel

/-- A steeping in progress. -/
def steep (x : Steep) : State := { live with loader := { run := some x } }
theorem meets_SteepingPhases :
  (let x : Steep := { len := 2, src := 256 }
   (steep x).calm ∧ (steep x).loader.run = some x ∧ x.phase = 1 ∧ x.abort = false ∧ x.src % 256 = 0 ∧ x.len ≤ [1#8, 2#8].length)
  ∧ (∀ p ∈ [2, 3, 4, 5, 6], let x : Steep := { phase := p }
     (steep x).calm ∧ (steep x).loader.run = some x ∧ x.abort = false ∧ x.partial_ = false ∧ (steep x).parts.length = 8)
  ∧ (let x : Steep := { phase := 6, abort := true }
     (steep x).calm ∧ (steep x).loader.run = some x ∧ x.abort = true ∧ (x.phase, Instr.distribute true 0) ∈ [(5, .claims 0), (6, .distribute true 0)]) := by decide +kernel

theorem meets_StartAndStop :
  (let s := conf cfg0 { st := .stopped }
   s.calm ∧ s.pcieUp = true ∧ s.readyBit rbWARDEN = true ∧ s.parts.length = 8 ∧ s.loader.run = none ∧ (s.prun 0).st = .stopped ∧ s.rd64 Reg.bldT0Lo = 0
    ∧ alignUp (1000000 + 100000) (s.period 0) % 1000 = 0 ∧ 1000000 + 100000 ≤ alignUp (1000000 + 100000) (s.period 0)
    ∧ ((s.at 1000000).wr Reg.bldCmd (BitVec.ofNat 32 (0 * 16 + 4))).startCheck 0 (alignUp (1000000 + 100000) (s.period 0)) = cOK)
  ∧ (let s := conf cfg0 run1
     s.calm ∧ s.pcieUp = true ∧ s.readyBit rbWARDEN = true ∧ s.parts.length = 8 ∧ s.loader.run = none ∧ s.running 0 = true ∧ (s.prun 0).lastFrame = none ∧ (s.prun 0).issued = false
     ∧ (s.prun 0).resetting = false ∧ (s.prun 0).restart = false ∧ (s.prun 0).t0 ≤ 1000000 ∧ s.master = some 0 ∧ ∀ x ∈ s.cfg.hasMechs.map (·.num), x = 0 ∨ (s.prun x).st ≠ .running) := by decide +kernel

/-! ### Frames, the field and the commit round -/

/-- A commit record of mechanism 0. -/
def rec0 : CommitRec := { frame := 0, mech := 0, kind := 3, b := 4000000, h := 9000000 }

/-- Partition 0 RUNNING with mechanism 0, the field and the round as given. -/
def inRun (f : FldSt) (r : Round) : State := { conf cfg0 run1 with fld := f, round := r }

theorem meets_FrameStarts :
    (let s := conf cfg0 run1
     s.calm ∧ s.runsHead 0 (s.prun 0).opened = true ∧ s.runsHead 0 (s.prun 0).nNet = true ∧ (s.prun 0).nNet < (s.prun 0).opened
       ∧ s.runsHead 0 (s.prun 0).nBuild = true ∧ (s.prun 0).nBuild < (s.prun 0).opened
       ∧ s.runsTail 0 (s.prun 0).nOut = true ∧ (s.prun 0).nOut < (s.prun 0).opened ∧ s.arrs.length = 2)
    ∧ (conf { cfg0 with lay := {} } { run1 with lastFrame := some 0 }).master ≠ some 0
    ∧ (conf { cfg0 with lay := {} } { run1 with lastFrame := some 0 }).runsHead 0 1 = true := by decide +kernel

theorem meets_FieldBuild :
    (let s := conf cfg0 run1
     s.calm ∧ s.runsHead 0 (s.prun 0).nBuild = true ∧ (s.prun 0).nBuild < (s.prun 0).opened ∧ s.master = some 0
       ∧ (s.builderOf 0).isSome = true ∧ s.wdDue 2 0 (s.phaseAt 0 0 (s.pcfg 0).frame.buildStart))
    ∧ (let b : FldBuild := { b := 2000000 }
       let s := inRun { build := some b } {}
       s.calm ∧ s.fld.build = some b ∧ b.sealed = false ∧ b.result = 0 ∧ (s.at 2000000).time = b.b
         ∧ (s.at 1999999).time + 2000 ≤ b.b + 2000 ∧ (s.at 1998000).time + 2000 ≤ b.b ∧ s.fld.stores.length = 16)
    ∧ (let b : FldBuild := { b := 2000000, sealed := true }
       let s := inRun { build := some b, stores := List.replicate 16 { ready := true } } {}
       s.calm ∧ s.fld.build = some b ∧ b.sealed = true ∧ b.result = 0 ∧ b.judged = false
         ∧ ∀ g < 16, s.storeUp g = true → (s.fstore g).ready = true) := by decide +kernel

theorem meets_Publish :
    (let b : FldBuild := { b := 1400000, sealed := true, judged := true, epoch := 1 }
     let s := inRun { build := some b } {}
     s.calm ∧ s.master = some 0 ∧ s.runsHead 0 s.fld.nPub = true ∧ s.fld.nPub < (s.prun 0).opened ∧ s.fld.build = some b
       ∧ b.frame = s.fld.nPub ∧ b.sealed = true ∧ b.judged = true ∧ b.result = 0
       ∧ s.wdDue 3 s.fld.nPub (s.phaseAt 0 s.fld.nPub (s.pcfg 0).frame.publish - 8))
    ∧ (let s := inRun {} {}
       s.calm ∧ s.master = some 0 ∧ s.runsHead 0 s.fld.nPub = true ∧ s.fld.nPub < (s.prun 0).opened ∧ s.fld.build = none
         ∧ s.wdDue 3 s.fld.nPub (s.phaseAt 0 s.fld.nPub (s.pcfg 0).frame.publish - 8)) := by decide +kernel

theorem meets_StoreUse :
    (let s := inRun { valid := true, stores := { copying := true, excluded := true } :: List.replicate 15 {} } {}
     s.calm ∧ s.cores.length = 128 ∧ s.coreEn 127 = true ∧ s.pdUp (127 / 64) = true ∧ s.fld.valid = true
       ∧ (s.fstore 0).copying = true ∧ s.storeUp 0 = true ∧ s.refStore = some 1 ∧ Tab.wf 0#8 s.mem = true)
    ∧ (let s := conf cfg0 run1
       s.calm ∧ s.sched.length = 2 ∧ s.runsTail 0 (s.prun 0).nAdm = true ∧ (s.prun 0).nAdm < (s.prun 0).opened) := by decide +kernel

theorem meets_CommitRoundStarts :
    (let s := inRun {} { busy := true, parts := [(0, 0)] }
     s.calm ∧ s.runsTail 0 (s.prun 0).nSel = true ∧ (s.prun 0).nSel < (s.prun 0).opened ∧ s.round.busy = true ∧ s.round.group = 0
       ∧ s.runsTail 0 (s.prun 0).nEnd = true ∧ (s.prun 0).nEnd < (s.prun 0).opened ∧ (0, (s.prun 0).nEnd) ∈ s.round.parts)
    ∧ (let s := inRun {} {}
       s.calm ∧ s.master = some 0 ∧ s.frameClosing 0 (s.closeOf 0 (s.prun 0).nSel) = some 0 ∧ s.round.next ≤ 0 ∧ s.round.busy = false
         ∧ s.wdDue 6 0 (s.phaseAt 0 (s.prun 0).nSel (s.pcfg 0).frame.selectEnd))
    ∧ (let s := conf cfg0 { run1 with lastFrame := some 0 }
       s.calm ∧ s.runsTail 0 (s.prun 0).nEnd = true ∧ (s.prun 0).nEnd < (s.prun 0).opened ∧ s.round.busy = false
         ∧ (s.prun 0).lastFrame = some (s.prun 0).nEnd) := by decide +kernel

/-- With no STOP under way no partition has a last frame. -/
theorem meets_CommitRoundStarts_last (q : Nat) : ((inRun {} { busy := true, parts := [(0, 0)] }).prun q).lastFrame = none := by
  match q with
  | 0 | 1 | 2 | 3 | 4 | 5 | 6 | 7 => rfl
  | _ + 8 => rfl

/-- A DONE slot of a check of candidate 5. -/
def doneSlot (kind : Nat) (v : Verdict) : CSlot :=
  { n := 3, ph := .done, item := { part := 0, kind := kind }, mech := 0, candId := 5, ctx := 0, verdict := v }

/-- The two checks of candidate 5 are done on cores 0 and 1. -/
def tried : State :=
  { inRun {} { busy := true, parts := [(0, 0)], mechs := { st := .check, list := { entries := [{ v := { candId := 5 } }] } } :: List.replicate 15 {} } with
    cores := { slots := [doneSlot ikREPLAY {}] } :: { slots := [doneSlot ikRECHECK { cost := 1 }] } :: List.replicate 126 {} }

theorem meets_TriesAndRecords :
    (tried.calm ∧ (tried.mech? 0) = some (part0, mech0)
      ∧ (tried.mr 0).list.entries[(tried.mr 0).pos]? = some { v := { candId := 5 } } ∧ tried.inRound 0 = true ∧ tried.round.busy = true
      ∧ tried.round.group = 0 ∧ (tried.mr 0).st = .check ∧ tried.doneSlot ikREPLAY 0 5 0 = some (0, doneSlot ikREPLAY {})
      ∧ tried.doneSlot ikRECHECK 0 5 0 = some (1, doneSlot ikRECHECK { cost := 1 }))
    ∧ (let s := inRun {} { busy := true, group := 1, mechs := { rec_ := some rec0 } :: List.replicate 15 {} }
       s.calm ∧ s.mech? 0 = some (part0, mech0) ∧ s.round.busy = true ∧ s.round.group = 1 ∧ (s.mr 0).rec_ = some rec0 ∧ (s.mr 0).acc = none
         ∧ 0 < s.warden.mechs.length) := by decide +kernel

/-- A round in a write group, with mechanism 0 as given. -/
def writing (g : Nat) (x : MRound) : State := inRun {} { busy := true, group := g, parts := [(0, 0)], mechs := x :: List.replicate 15 {} }

theorem meets_WriteGroups :
    (live.calm ∧ live.round.busy = false)
    ∧ ((writing 1 {}).calm ∧ (writing 1 {}).round.group = 1 ∧ ∀ m < 16, (writing 1 {}).barred m = false)
    ∧ (let s := writing 1 { st := .write, acc := some true, rec_ := some rec0 }
       s.calm ∧ s.round.busy = true ∧ s.barred 0 = true)
    ∧ ((writing 2 {}).calm ∧ (writing 2 {}).round.busy = true ∧ (writing 2 {}).round.group = 2
        ∧ ∀ q ∈ (writing 2 {}).cfg.parts, q.num < (writing 2 {}).parts.length)
    ∧ ((writing 3 {}).round.group = 3 ∧ (writing 3 {}).round.abandoned = false ∧ (writing 3 {}).round.noEpoch = false)
    ∧ ((writing 4 {}).round.group = 4 ∧ ((writing 4 {}).round.parts.map (·.1)).Nodup
        ∧ (∀ e ∈ (writing 4 {}).round.parts, e.1 < (writing 4 {}).parts.length ∧ ((writing 4 {}).prun e.1).lastFrame ≠ some e.2)
        ∧ (writing 4 {}).wdDue 7 (writing 4 {}).round.frame ((writing 4 {}).at 0).time) := by decide +kernel

/-- The confirmation of candidate 5's unequal checks. -/
def conf5 (sus : Option Nat) : Confirm :=
  { mech := 0, part := 0, frame := 0, epoch := 0, source := 2, replay := 0, recheck := 1, vReplay := ({} : Verdict).common, vRecheck := [], suspect := sus
    candId := 5, ctx := 0 }

/-- Core 127 has the DONE slot of an item of that confirmation. -/
def confirming (kind : Nat) (sus : Option Nat) : State :=
  { inRun {} {} with cores := List.replicate 127 {} ++ [{ slots := [doneSlot kind {}] }], errs := { confs := [conf5 sus] } }

theorem meets_Confirmations :
    (let s := confirming ikCONFIRM none
     s.calm ∧ (s.core 127).slot 3 = some (doneSlot ikCONFIRM {}) ∧ (doneSlot ikCONFIRM {}).item.kind = ikCONFIRM
       ∧ (doneSlot ikCONFIRM {}).ph = .done ∧ s.confOf (doneSlot ikCONFIRM {}) = some (conf5 none) ∧ (conf5 none).suspect = none
       ∧ ((s.at 0).count .unattrib ekUNATTRIB (s.at 0).time).2.1 < (s.cfg.faults.limits 0).1)
    ∧ (let s := confirming ikREPEAT (some 127)
       s.calm ∧ (s.core 127).slot 3 = some (doneSlot ikREPEAT {}) ∧ s.confOf (doneSlot ikREPEAT {}) = some (conf5 (some 127))) := by decide +kernel

/-- Mechanism 0 as given in the warden. -/
def warded (x : WMech) : State := { conf cfg0 run1 with warden := { chA := true, chB := true, mechs := x :: List.replicate 15 {} } }

theorem meets_DeadlineAndStandstill :
    (let s := warded { cur := some rec0, held := false }
     s.calm ∧ s.lastRec 0 = some rec0 ∧ (s.mech? 0).isSome = true ∧ s.time ≤ rec0.h - 1000 ∧ s.latched 0 = false)
    ∧ (let s := warded { held := true, issued := true, atRest := false }
       s.calm ∧ s.mech? 0 = some (part0, mech0) ∧ (s.wm 0).issued = true ∧ (s.wm 0).atRest = false) := by decide +kernel

/-! ### Cores, solvers and arrays -/

/-- The field open, its check window of frame 0 in force. -/
def checking (k : Nat) (c : CoreSt) : State :=
  { conf cfg0 run1 with time := 1400000, fld := { valid := true }, cores := List.replicate k {} ++ c :: List.replicate (127 - k) {} }

/-- An item that a retired core's candidate has come back as. -/
def item0 : Item := { part := 0, task := 1, kind := tkLATTICE, ctx := 0, n := 2, cost := 2, grp := 0xFF, arg := 0 }

/-- A slot in a state, of an item. -/
def slot0 (ph : SlotPh) (i : Item) : CSlot := { n := 3, ph := ph, item := i, mech := 0, frame := 0, ctx := 0, candId := 5 }

/-- The dispatch slot of core 1 holds an item. -/
def offered0 : State :=
  { checking 0 {} with sched := [{ slots := [] :: [item0] :: List.replicate 62 [] }, {}] }

theorem meets_Admissions :
    (live.calm ∧ (live.core 0).handQ = [] ∧ (live.sch 0).slots.getD 0 [] = [] ∧ live.coreRuns 128 = false)
    ∧ (let s := offered0
       s.calm ∧ s.coreRuns 1 = true ∧ s.cores.length = 128 ∧ s.sched.length = 2 ∧ (s.core 1).handQ = []
         ∧ (s.sch (1 / 64)).slots.getD (1 % 64) [] = [item0] ∧ (s.at 0).admits item0.cls = true ∧ s.takesKind 1 item0.kind = true
         ∧ (s.pcfg item0.part).mechOf item0.ctx = some mech0 ∧ item0.epoch = s.fld.epoch ∧ (s.at 0).inWindow 1 item0.part item0.frame = true
         ∧ (s.prun item0.part).nAdm ≤ item0.frame ∧ (s.at 0).nextCand item0 (s.pcfg item0.part) mech0 = some (0, 0)
         ∧ (s.core 1).roomFor item0.cls = true
         ∧ (s.core 1).lines + ((s.at 0).slotFor 1 item0 (s.pcfg item0.part) mech0 0 0).lines ≤ 256) := by decide +kernel

theorem meets_FetchAndSweep :
    (let x := slot0 .fetch item0
     let s := checking 127 { slots := [x] }
     s.calm ∧ s.coreRuns 127 = true ∧ (s.core 127).slot 3 = some x ∧ x.ph = .fetch)
    ∧ (let x := { slot0 .bind { item0 with kind := ikHANDOFF } with hand := some { frameId := 9 } }
       let s := checking 0 { slots := [x] }
       s.calm ∧ s.coreRuns 0 = true ∧ (s.core 0).slot 3 = some x ∧ (s.pcfg x.item.part).mechOf x.ctx = some mech0 ∧ x.ph = .bind
         ∧ s.slicing 0 0 = false ∧ x.staleHand = true)
    ∧ (let x := slot0 .bind { item0 with kind := ikREPEAT }
       let s := { checking 0 { slots := [x] } with parts := { run1 with plan := true } :: List.replicate 7 {} }
       s.calm ∧ s.coreRuns 0 = true ∧ (s.core 0).slot 3 = some x ∧ (s.pcfg x.item.part).mechOf x.ctx = some mech0 ∧ x.ph = .bind
         ∧ s.slicing 0 0 = false ∧ x.staleHand = false ∧ x.confirms = true ∧ (s.prun x.item.part).plan = true
         ∧ ((s.core 0).slots.filter fun (y : CSlot) => decide (y.ph = .check)).length ≤ 1 ∧ x.cls = clsS)
    ∧ ({ live with rots := [{ run := some { unit := 0, kind := 1, t := 0, stop := 1000 } }, {}] } : State).slicing 0 0 = true := by decide +kernel

theorem meets_Verdicts :
    (let x := slot0 .check item0
     let s := checking 0 { slots := [x], boxes := some 0 }
     s.calm ∧ s.coreRuns 0 = true ∧ (s.core 0).slot 3 = some x ∧ (s.pcfg x.item.part).mechOf x.ctx = some mech0 ∧ x.ph = .check
       ∧ s.storeServes 0 = true ∧ x.epoch = s.fld.epoch ∧ (s.core 0).boxes = some s.fld.epoch)
    ∧ (let x := slot0 .done item0
       let s := checking 0 { slots := [x], fill := [12287, 0] }
       s.calm ∧ s.coreRuns 0 = true ∧ (s.core 0).slot 3 = some x ∧ (s.pcfg x.item.part).mechOf x.ctx = some mech0 ∧ x.ph = .done
         ∧ x.inRow = true ∧ (s.core 0).takesScore x.frame = true ∧ (s.core 0).fill.length = 2 ∧ s.cfg.faults.log = 0) := by decide +kernel

theorem meets_ReduceAndMerge :
    (let s := checking 0 { fill := [0, 12288] }
     s.calm ∧ s.cfg.coreOwner 0 = some part0 ∧ s.coreRuns 0 = true ∧ (s.core 0).fill.getD 1 0 = 12288)
    ∧ (let s := { checking 0 {} with time := 2400000 }
       s.calm ∧ s.checkFrame 0 (s.at 0).time = some 1 ∧ (s.prun 0).nSel ≤ 0 ∧ s.runsTail 0 0 = true ∧ (s.pcfg 0).mechs ≠ []
         ∧ (∀ k ∈ (s.pcfg 0).cores, (s.core k).reduced 0 = true) ∧ ((s.pcfg 0).mechs.map (·.num)).Nodup) := by decide +kernel

/-- A privileged context of partition 0, solved on engine 0. -/
def priv0 : SolverCtx := { ctx := 0, seeds := [2] }

/-- Partition 0 with that context, an engine as given, the check window of frame 0 in force. -/
def solver (e : EngSt) : State :=
  { conf { cfg0 with parts := [{ part0 with solver := { ctxs := [priv0] } }] } run1 with
    time := 1400000, fld := { valid := true }, engs := e :: List.replicate 31 {} }

/-- A result and a trajectory of frame 0. -/
def result0 : SResult := { ctx := 0, frame := 0, ev := {}, flags := 0, iters := 1, pivots := 0, degraded := false }

theorem meets_SolverRuns :
    (let s := solver {}
     s.calm ∧ (s.privOf 0).map (·.2) = some priv0 ∧ s.checkFrame 0 (s.at 0).time = some 0 ∧ ((s.at 0).solving 0).isSome = true
       ∧ s.engRuns 0 = true ∧ s.nextHost (s.pcfg 0) 0 = some 0 ∧ s.runsTail 0 0 = true ∧ (s.eng 0).busy = false ∧ s.solved 0 0 = false
       ∧ s.engs.length = 32)
    ∧ (∀ a ∈ [SStep.eval, .assemble, .factor, .solve],
        let s := solver { busy := true, step := a, host := some 0 }
        s.calm ∧ ((s.at 0).solving (s.eng 0).ctx).isSome = true ∧ s.engRuns 0 = true ∧ (s.eng 0).busy = true ∧ (s.eng 0).wait = false
          ∧ (s.eng 0).step = a)
    ∧ (let s := solver { results := [result0], host := some 0, trajs := [{ ctx := 0, frame := 0, rec_ := {}, merit := 0 }] }
       s.calm ∧ (s.eng 0).results = [result0] ∧ ((s.at 0).solving result0.ctx).isSome = true ∧ s.stageRuns 0 = true
         ∧ (s.eng 0).trajs = [{ ctx := 0, frame := 0, rec_ := {}, merit := 0 }] ∧ s.cores.length = 128 ∧ (s.eng 0).host = some 0) := by
  decide +kernel

/-- An operation descriptor: kind, flags, FMT_A, FMT_B, OUT_FMT, M, N, K_TOTAL, A, B, C, K_REDUCE, EXT; CYCLES is 30,000. -/
def descBytes (kind flags fa fb fo m n k a b c kr ext : Nat) : List Byte :=
  toLE 1 kind ++ toLE 1 flags ++ toLE 1 fa ++ toLE 1 fb ++ toLE 1 fo ++ zeros 3 ++ toLE 4 m ++ toLE 4 n ++ toLE 4 k ++ zeros 4
    ++ toLE 4 a ++ zeros 4 ++ toLE 4 b ++ zeros 4 ++ toLE 4 c ++ zeros 16 ++ toLE 4 kr ++ zeros 48 ++ toLE 4 30000 ++ zeros 4 ++ toLE 8 ext

/-- A network of one descriptor, its image at 64 KiB. -/
def net0 : Net :=
  { net := 0, cls := 0, arrays := 3, tally := true, cycles := 30000, img := 0x10000, imgLen := 128, digest := [], desc0 := 0, count := 1, trig := 0
    banks := 0xFFFF, delta := 0 }

/-- A run of it on die 0. -/
def aRun (w : Option Nat) : ARun := { part := 0, net := 0, cls := 0, begun := true, wait := w }

/-- That run, with the descriptor in memory. -/
def arrayed (b : List Byte) (w : Option Nat) : State :=
  { conf { cfg0 with parts := [{ part0 with nets := [net0] }] } run1 with mem := poke [] 0x10000 b, arrs := [{ runs := [aRun w] }, {}] }

/-- The command of that run. -/
def aCmd : ArrIn := { die := 0, part := 0, net := 0 }

/-- A GEMM of one INT8 product, checked. -/
def gemmBytes : List Byte := descBytes kGEMM 1 3 3 0 1 1 1 0 0x400000 0x800000 1 0

/-- An error of the arithmetic in both passes. -/
def upset0 : Upset := { row := 0, col := 0, delta := 1, twice := true }

theorem meets_ArrayCompute :
    (let s := arrayed gemmBytes none
     s.calm ∧ s.arrs.length = 2 ∧ (s.at 0).descTurn true aCmd = some (net0, aRun none, 0, decDesc gemmBytes) ∧ (decDesc gemmBytes).kind = kGEMM
       ∧ (s.at 0).loadsDone net0 (aRun none) 0 = true ∧ (s.at 0).poisoned (net0.descAddr 0) 128 = false
       ∧ (s.at 0).issueOk (aRun none) net0 (decDesc gemmBytes) = true ∧ ((decDesc gemmBytes).run (s.at 0).mem (bufBase 0) []).retry = []
       ∧ ((decDesc gemmBytes).run (s.at 0).mem (bufBase 0) []).fail = []
       ∧ ((decDesc gemmBytes).run (s.at 0).mem (bufBase 0) [upset0]).fail ≠ []
       ∧ ((decDesc gemmBytes).reads.any fun g => (s.at 0).poisoned (bufBase 0 + g.1) g.2) = false)
    ∧ (∀ k ∈ [kCONV, kATTN, kGATHER, kVECTOR, kPOOL],
        let b := descBytes k 0 0 0 0 0 0 0 0 0 0 0 0
        let s := arrayed b none
        (s.at 0).descTurn true aCmd = some (net0, aRun none, 0, decDesc b) ∧ (decDesc b).kind = k
          ∧ (s.at 0).loadsDone net0 (aRun none) 0 = true ∧ (s.at 0).issueOk (aRun none) net0 (decDesc b) = false
          ∧ ({ s with psn := [(0x400, true)] } : State).poisoned (net0.descAddr 0) 128 = true) := by decide +kernel

theorem meets_ArrayTransfers_load :
    let b := descBytes kLOAD 0 0 0 0 64 0 0 0 0 0 0 0x20000
    let s := arrayed b none
    s.calm ∧ s.arrs.length = 2 ∧ (s.at 0).descTurn false aCmd = some (net0, aRun none, 0, decDesc b) ∧ (s.at 0).poisoned (net0.descAddr 0) 128 = false
      ∧ (s.at 0).issueOk (aRun none) net0 (decDesc b) = true ∧ (s.at 0).fwOk (.part 0 0 0) false 0x20000 64 = true := by decide +kernel

theorem meets_ArrayTransfers_store :
    ∀ f ∈ [0, 2],
      let b := descBytes kSTORE f 0 0 0 64 0 0 0 0 0 0 0x20000
      let s := arrayed b none
      (s.at 0).descTurn false aCmd = some (net0, aRun none, 0, decDesc b) ∧ (s.at 0).issueOk (aRun none) net0 (decDesc b) = true
        ∧ (s.at 0).compsDone net0 (aRun none) 0 = true ∧ (decDesc b).compare = (f == 2) ∧ (s.at 0).fwOk (.part 0 0 0) true 0x20000 64 = true
        ∧ (s.at 0).runOf 1 0 0 = none := by decide +kernel

theorem meets_ArrayTransfers_signal :
    let b := descBytes kSIGNAL 0 0 0 0 0 0 0 0 0 0 0 0x20000
    let s := arrayed b none
    (s.at 0).descTurn false aCmd = some (net0, aRun none, 0, decDesc b) ∧ (s.at 0).issueOk (aRun none) net0 (decDesc b) = true
      ∧ (s.at 0).compsDone net0 (aRun none) 0 = true ∧ (s.at 0).farPkg 0x20000 = none ∧ (s.at 0).quiet (.mem 0x20000)
      ∧ (s.at 0).tallyOk opADD { issuer := .array 0, part := 0, tref := 0x20000, operand := 1, cls := 0 } (.mem 0x20000)
      ∧ ((s.at 0).tword (.mem 0x20000)).value + 1 < 2 ^ 56 := by decide +kernel

theorem meets_ArrayTransfers_twin :
    let s := arrayed [] (some 0)
    s.calm ∧ s.runOf 0 0 0 = some (aRun (some 0)) ∧ (aRun (some 0)).wait = some 0 ∧ s.runOf 1 0 0 = none := by decide +kernel

/-- A task of die 0 in group 0. -/
def task0 : TaskRec := { task := 1, die := 0, grp := 0, kind := tkDMA, mode := 0, flow := 0, mask := 0x80000003, delay := 0, aff := 1, cost := 1, args := [] }

/-- Partition 0 with that task and a scheduler as given. -/
def tasked (x : TaskSt) (d : SchedDie) : State :=
  { conf { cfg0 with parts := [{ part0 with sched := some { groups := [{ die := 0, grp := 0, cls := 0, wt := 1, prio := 0, qmin := 1, qmax := 1 }], tasks := [task0] } }] } run1 with
    sched := [{ d with tasks := [x] }, {}], fld := { valid := true } }

/-- An item of that task. -/
def tItem : Item := { part := 0, task := 1, grp := 0, kind := tkDMA, aff := 1 }

/-- Group 0 with that item queued. -/
def group0 : GroupSt := { part := 0, grp := 0, cls := 0, wt := 1, prio := 0, qmin := 1, qmax := 1, items := [tItem] }

theorem meets_SchedulerEvents_flags :
    let s := tasked { part := 0, task := 1, due := some 2000000 } {}
    let a : RegAcc := { fn := 0, off := Reg.schFlagSet 0 }
    s.calm ∧ s.takesWrite a ∧ s.task? 0 0 2 = none ∧ (s.pcfg 0).task 1 = some task0
      ∧ s.task? 0 0 1 = some { part := 0, task := 1, due := some 2000000 } ∧ task0.die = 0 ∧ task0.any = false
      ∧ (0 ||| 2 ^ 23) &&& task0.mask ≠ task0.mask
      ∧ ∀ y ∈ (s.sch 0).tasks, dueBefore y { part := 0, task := 1, due := some 2000000 } = false := by decide +kernel

theorem meets_SchedulerEvents_queues :
    (let s := tasked { part := 0, task := 1 } { commitQ := [tItem] }
     s.calm ∧ s.pdUp 0 = true ∧ (s.at 0).nextCore 0 = some (0, 0) ∧ s.commitFor 0 0 0 = some tItem ∧ (s.sch 0).slots.length = 64)
    ∧ (let s := tasked { part := 0, task := 1 } { groups := [group0], order := [(0, 0)] }
       (s.at 0).nextCore 0 = some (0, 0) ∧ s.commitFor 0 0 0 = none ∧ ((s.at 0).choose 0 0 0).1.isSome = true
         ∧ ((s.at 0).choose 0 0 0).2.slots.length = 64)
    ∧ (let s := tasked { part := 0, task := 1 } { busy := [(0, tItem)] }
       (s.sch 0).busy.find? (fun e => e.1 == 0 && s.itemDone 0 e.2) = some (0, tItem)) := by decide +kernel

/-- A trace record of die 0, and one of the verdict trace, each 1 µs old. -/
def traces : List TraceRec := [{ die := some 0, part := 0, data := [], t := 999000 }, { die := none, part := 0, data := [], t := 999000 }]

theorem meets_SchedulerEvents_trace :
    let s : State := { live with traceQ := traces, time := 1000000 }
    (s.at 0).traceQ.find? (fun r => r.die == some 0 && r.part == 0 && decide (r.t + 1000 ≤ (s.at 0).time)) = some (traces.getD 0 ⟨none, 9, [], 0⟩)
      ∧ (s.at 0).traceQ.find? (fun r => r.die.isNone && r.part == 0 && decide (r.t + 1000 ≤ (s.at 0).time)) = some (traces.getD 1 ⟨none, 9, [], 0⟩) := by
  decide +kernel

/-! ### Tally words, waits and DMA chains -/

/-- Partition 0 with a semaphore, a barrier of two parties and waits as given. -/
def tallied (w : List Wait) (m : Tab Byte) : State :=
  { conf cfg0 run1 with
    sync := { ctrs := [{ core := 0, n := 0, part := 0, kind := ckSEM }, { core := 0, n := 47, part := 0, kind := ckBAR, parties := 2 }], waits := w }
    mem := m }

/-- The window address of counter n of core 0 as a TREF. -/
def ctrRef (n : Nat) : Nat := 0x0100000D4000 + 8 * n

/-- A tally operation of core 1's DMA engine on counter n. -/
def tCmd (n v : Nat) : TallyIn := { issuer := .dma 1, part := 0, tref := ctrRef n, operand := v }

theorem meets_TallyOperations :
    let s := tallied [] []
    s.calm ∧ (∀ n ∈ [0, 47], (s.at 0).quiet (.ctr 0 n)) ∧ (∀ op ∈ [opREAD, opWAITGE, opWAITEQ], (s.at 0).tallyOk op (tCmd 0 1) (.ctr 0 0))
      ∧ (∀ v ∈ [1, 2 ^ 32 - 1], ∀ op ∈ [opADD, opSUB], (s.at 0).tallyOk op (tCmd 0 v) (.ctr 0 0)) ∧ (s.at 0).tallyOk opTAKE (tCmd 0 1) (.ctr 0 0)
      ∧ (s.at 0).tallyOk opARRIVE (tCmd 47 0) (.ctr 0 47) ∧ ((s.at 0).tword (.ctr 0 47)).err = false ∧ ((s.at 0).ctrOf (.ctr 0 47)).isSome = true := by
  decide +kernel

/-- A wait of core 1's DMA engine on counter 0. -/
def wait0 : Wait := { issuer := .dma 1, part := 0, tref := ctrRef 0, word := .ctr 0 0, op := opWAITGE, operand := 1, since := 0, cls := clsN }

theorem meets_WaitsAndSignals :
    (let s := tallied [wait0] []
     s.calm ∧ s.sync.waits[0]? = some wait0 ∧ s.waitLimit wait0 = some 1000000 ∧ wait0.since + 1000000 ≤ (s.at 1000000).time)
    ∧ (let w := { wait0 with word := .mem 0x20000, polled := true }
       let s := tallied [w] []
       s.sync.waits[0]? = some w ∧ w.polled = true ∧ ((s.at 0).tword w.word).err = false ∧ fwTarget w.word.addr = 0)
    ∧ (let s := (tallied [] []).wr64 (Reg.synHostRefLo 0 0) (ctrRef 0)
       let a : RegAcc := { fn := 0, off := Reg.synHostAdd 0 0 }
       s.calm ∧ s.takesWrite a ∧ (s.at 0).quiet (.ctr 0 0)
         ∧ (s.at 0).tallyOk opADD { issuer := .hostReg 0, part := 0, tref := (s.at 0).rd64 (Reg.synHostRefLo 0 0), operand := 5, cls := clsN } (.ctr 0 0)
         ∧ ((s.at 0).tword (.ctr 0 0)).value + 5 < 2 ^ 56)
    ∧ (let s := { tallied [wait0] [] with ktl := { live.ktl with waitAt := [(1, 990000)] } }
       s.calm ∧ s.sync.waits.find? (fun w => w.issuer == Issuer.dma 1) = some wait0 ∧ s.ktl.waitAt.find? (fun e => e.1 == 1) = some (1, 990000)
         ∧ (s.pcfg 0).sync.lend ≠ 0 ∧ 990000 + (s.pcfg 0).sync.lend ≤ (s.at 0).time ∧ wait0.cls ≠ clsS ∧ wait0.lent = false ∧ s.ktl.sec.noLend = false) := by
  decide +kernel

/-- A descriptor: OP, LEN, SRC, DST. -/
def dmaBytes (op len src dst : Nat) : List Byte := toLE 1 op ++ zeros 3 ++ toLE 4 len ++ toLE 8 src ++ toLE 8 dst ++ zeros 8

/-- Core 0's DMA engine meets 32 bytes at 64 KiB. -/
def chained (b : List Byte) : State :=
  { tallied [] (poke [] 0x10000 b) with cores := { dma := { item := some tItem, desc := 0x10000 } } :: List.replicate 127 {} }

/-- A TALLY descriptor: TREF, OPERAND, OP. -/
def dmaTally (tref v op : Nat) : List Byte := toLE 16 dmTALLY ++ toLE 8 tref ++ toLE 7 v ++ toLE 1 op

theorem meets_DmaChains_moves :
    (∀ b ∈ [dmaBytes dmEND 0 0 0, dmaBytes dmLINK 0 0x10040 0, dmaBytes dmFILL 64 7 0x20000, dmaBytes dmCOPY 64 0x20000 0x30000],
        let s := chained b
        s.calm ∧ s.coreUp 0 = true ∧ (match (s.at 0).dmaMeet 0 with | .desc d => decide (d = decDma b) | _ => false) = true)
    ∧ (let s := chained (dmaBytes dmCOPY 64 0x20000 0x30000)
       let w := dmaWho 0 (s.dmaItem 0)
       s.farPkg 0x20000 = none ∧ s.farPkg 0x30000 = none ∧ s.fwOk w false 0x20000 64 = true ∧ s.fwOk w true 0x30000 64 = true
         ∧ overlap 0x20000 64 0x30000 64 = false ∧ s.storeStale (s.dmaItem 0) 0x20000 = none)
    ∧ (let s := { chained (dmaBytes dmCOPY 128 0x20000 0x30000) with
                  cores := { dma := { item := some tItem, desc := 0x10000, retry := [0, 1] } } :: List.replicate 127 {} }
       s.calm ∧ (s.core 0).dma.item = some tItem ∧ (s.core 0).dma.retry = 0 :: [1]) := by decide +kernel

theorem meets_DmaChains_tally :
    ∀ e ∈ [(opADD, 1), (opWAITGE, 1)],
      let b := dmaTally (ctrRef 0) e.2 e.1
      let s := chained b
      (match (s.at 0).dmaMeet 0 with | .desc d => decide (d = decDma b) | _ => false) = true ∧ (decDma b).op = dmTALLY
        ∧ tallyCmd (b.drop 16) = (ctrRef 0, e.2, e.1) ∧ (s.at 0).farPkg (ctrRef 0) = none ∧ (s.at 0).quiet (.ctr 0 0)
        ∧ (s.at 0).tallyOk e.1 { issuer := .dma 0, part := 0, tref := ctrRef 0, operand := e.2, cls := 0 } (.ctr 0 0)
        ∧ ((s.at 0).tword (.ctr 0 0)).value < e.2 := by decide +kernel

/-! ### Memory errors, power and the warden -/

theorem meets_MemoryErrors :
    live.calm ∧ (∀ n ∈ [0, 1, hbmLines - 1], n < hbmLines) ∧ live.readyBit (rbHBM + 1) = true ∧ live.cfg.faults.log = 0
      ∧ 131071 < 131072 ∧ live.coreEn 127 = true ∧ live.coreUp 127 = true ∧ (live.dom 127).st = .on := by decide +kernel

/-- The Kettle with domain n in a state. -/
def domained (n : Nat) (x : Dom) : State :=
  { live with ktl := { live.ktl with sec := { cosy := 2 ^ 176 - 1 }, doms := listSet (List.replicate 176 {}) n x,
                                     clks := { step := 4, target := 3 } :: List.replicate 17 {} }, time := 1000 }

theorem meets_KettleDomains :
    (∀ n ∈ [0, 127, 128, 144, 175],
        (domained n {}).calm ∧ (domained n {}).ktl.doms.length = 176 ∧ (domained n {}).dev.up = true ∧ bit (domained n {}).ktl.sec.cosy n = true
          ∧ ((domained n {}).dom n).st = .on ∧ (domained n {}).domIdle n = true
          ∧ ((domained n {}).dom n).idleAt + (domained n {}).ktl.sec.idleUs * 1000 ≤ ((domained n {}).at 1000).time ∧ (domained n {}).sliceOn n = false
          ∧ ((domained n { st := .waking }).dom n).st = .waking)
    ∧ (domained 0 {}).fld.stores.length = 16
    ∧ ((domained 0 {}).ktl.clks.getD 0 {}).target < ((domained 0 {}).ktl.clks.getD 0 {}).step
    ∧ bit live.ktl.lock 27 = true ∧ bit ({} : State).ktl.lock 27 = false := by decide +kernel

theorem meets_ControlPeriod :
    live.calm ∧ live.dev.up = true ∧ (∀ d < 2, ¬(live.fuses.tMax + 80 ≤ [live.fuses.tMax + 79, 0, 0].getD d 0 ∧ live.ktl.tj.getD d 0 < live.fuses.tMax + 80))
      ∧ live.fuses.tMax + 80 ≤ [0, live.fuses.tMax + 80, 0].getD 1 0 ∧ live.ktl.tj.getD 1 0 < live.fuses.tMax + 80 := by decide +kernel

/-- Mechanism 0 named by output pair 0 and emergency-stop input 0, an FSoE connection for it. -/
def safe0 : SafeSec :=
  { glob := { tpUs := 400, estop := (1, 0) :: List.replicate 3 (0, 0), wd := List.replicate 12 (0, 100) }
    soe := [{ port := 0, mech := 0, addr := 1, wdMs := 10, outLen := 6, inLen := 6 }]
    subs := [{ part := 0, mechs := [{ mech := 0, outs := 1 }], claims := [], off := 0, clOff := 0 }] }

/-- Partition 0 RUNNING with that safety content and the warden as given. -/
def safed (w : Warden) : State := { conf { cfg0 with safety := some safe0 } run1 with warden := { w with chA := true, chB := true } }

theorem meets_ChannelsAndSeparation :
    (let s := safed { disagree := 1 }
     s.calm ∧ s.dev.up = true ∧ 0 % 100000 = 0 ∧ (s.warden.chA || s.warden.chB) = true ∧ s.warden.mechs.length = 16 ∧ s.warden.disagree = 1
       ∧ s.mechNums = [0] ∧ s.warden.chA = true ∧ s.warden.chB = true)
    ∧ (let s : State := { live with warden := { chA := true, chB := false } }
       s.warden.chA = true ∧ s.warden.chB = !true) := by decide +kernel

/-- The watchdogs armed for frame 0, port 0 cycling with an axis of mechanism 0. -/
def watched : State :=
  { conf { cfg0 with safety := some safe0, parts := [{ part0 with ifp := { axes := [{ mech := 0, axis := 1, port := 0, offs := [], scale := 0, zero := 0 }] } }] } run1 with
    warden := { chA := true, chB := true, wds := List.replicate 12 { armed := true } }
    fif := { ports := { cycling := true, bus := 4, cfgRec := { mode := 1, cycleUs := 1000 } } :: List.replicate 3 {} } }

theorem meets_WatchdogWindows :
    watched.calm ∧ watched.dev.up = true ∧ (∀ w ∈ [0, 7], watched.wdExpects w = true ∧ (watched.wdOpen w).2 ≤ 100000000)
      ∧ watched.outExpects 8 = true ∧ (watched.outOpen 8).2 ≤ 100000000 ∧ watched.warden.mechs.length = 16 ∧ watched.warden.wds.length = 12
      ∧ watched.outExpects 11 = false ∧ live.wdExpects 0 = false := by decide +kernel

theorem meets_SafetyInputs :
    (let s := safed { estop := { filA := true, filB := true } :: List.replicate 3 {}, estopLat := List.replicate 4 false }
     s.calm ∧ s.dev.up = true ∧ (s.warden.input 0).filA ≠ false ∧ (s.warden.input 12).filB ≠ true ∧ (s.warden.input 0).on = true
       ∧ bit (s.sglob.estop.getD 0 (0, 0)).1 0 = true ∧ s.warden.estop.length = 4 ∧ s.warden.ossd.length = 8 ∧ s.warden.estopLat.length = 4
       ∧ s.warden.mechs.length = 16)
    ∧ (let s := safed { enab := { disagr := some 0 } }
       s.calm ∧ (s.warden.input 12).disagr = some 0 ∧ 0 + 1000000 * s.sglob.discMs < 100000001)
    ∧ (∀ w ∈ [WState.held, .normal],
        let s := safed { state := w }
        s.calm ∧ s.takesWrite { fn := 0, off := Reg.wdnCmd } ∧ s.warden.state = w ∧ s.warden.estopLat.length = 4) := by decide +kernel

theorem meets_StopOutputs :
    (let s := safed { estopLat := List.replicate 4 false, estop := List.replicate 4 { filA := true, filB := true },
                      outs := { drvA := true, drvB := true, fbA := true, fbB := true } :: List.replicate 7 {} }
     s.calm ∧ s.dev.up = true ∧ s.sglob.tpUs ≠ 0 ∧ s.pairOff 0 = false ∧ (s.warden.outs.getD 0 {}).drvA = true ∧ (s.warden.outs.getD 0 {}).drvB = true
       ∧ (1000 * s.sglob.tpUs) % 1000000000 = 1000 * s.sglob.tpUs ∧ s.warden.outs.length = 8 ∧ (s.warden.outs.getD 0 {}).fault = false ∧ s.namers 0 = [0])
    ∧ (let s := safed { soe := { state := 1 } :: List.replicate 31 {} }
       s.calm ∧ (s.soeRec 0).isSome = true ∧ (s.warden.soe.getD 0 {}).state ≠ 0
         ∧ (s.warden.soe.getD 0 {}).rxAt + 1000000 * ((safe0.soe.getD 0 ⟨0, 0, 0, 0, 0, 0⟩).wdMs) ≤ 10000000) := by decide +kernel

theorem meets_TamperRailsAndLinks :
    let s : State := live.wr Reg.glbD2dStatus 7#32
    s.calm ∧ s.dev.up = true ∧ ∀ l < 3, bit (s.rd Reg.glbD2dStatus).toNat l = true := by decide +kernel

/-! ### Self-test, faults and interrupts -/

theorem meets_SelfTestSlices :
    (let s : State := { live with rots := [{ pend := [(0, 1)] }, {}] }
     s.calm ∧ s.rots.length = 2 ∧ s.sched.length = 2 ∧ (s.offered 0).head? = some (0, 1) ∧ (s.at 0).sliceFits 0 0 1 (s.at 0).time = true
       ∧ (s.at 0).sliceAhead 0 0 1 = false ∧ (s.at 0).sliceForced 0 0 (s.at 0).time = false
       ∧ (s.at 0).sliceTurn 0 (sliceLen 1) = .starts 29)
    ∧ (let s : State := { conf { cfg0 with parts := [part0], time := { cfg0.time with dti := 2, wins := [{ start := 0, stop := 1000, admits := 7, flags := 0 }] } } run1 with
         sched := [{ groups := [{ group0 with cls := clsN }], order := [(0, 0)] }, {}], rots := [{ pend := [(0, 1)], start := 1000000 }, {}] }
       s.calm ∧ (s.offered 0).head? = some (0, 1) ∧ (s.at 0).sliceFits 0 0 1 (s.at 0).time = true ∧ (s.at 0).sliceAhead 0 0 1 = false
         ∧ (s.at 0).sliceForced 0 0 (s.at 0).time = false ∧ (s.at 0).sliceTurn 0 (sliceLen 1) = .waits)
    ∧ (let x : Slice := { unit := 87, kind := 1, t := 0, stop := 1000 }
       let s : State := { live with rots := [{}, { run := some x, pend := [(87, 1)] }] }
       s.calm ∧ (s.rot 1).run = some x ∧ x.unit < 88 ∧ (s.faultSt (.unit (unitId 1 87) 0)).phase ≠ .isolate
         ∧ (s.faultSt (.unit (unitId 1 87) 0)).stSig = none
         ∧ ((s.at 0).count (.unit (unitId 1 87) (laneOf x.kind [])) ekST_FAIL (s.at 0).time).2.1 < (s.cfg.faults.limits ekST_FAIL).1)
    ∧ (let f : FaultSt := { key := .unit (unitId 1 87) 0, stSig := some (1, 7) }
       let s : State := { live with errs := { states := [f] } }
       (s.faultSt (.unit (unitId 1 87) 0)).stSig = some (1, 7))
    ∧ live.pdUp 0 = true ∧ live.dtiEnd 0 ≤ 2 ^ 63 := by decide +kernel

theorem meets_FaultStates :
    (let e : EventIn := { kind := ekECC_UE, unit := unitId 0 3 }
     live.calm ∧ live.dev.up = true ∧ countKey e = some (.unit (unitId 0 3) 0) ∧ e.kind ≠ ekCHK_FAIL ∧ e.kind ≠ ekUNATTRIB ∧ ¬(e.unit % 512 = 104)
       ∧ (FKey.unit (unitId 0 3) 0).gone live = false ∧ ((live.at 0).count (.unit (unitId 0 3) 0) e.kind (tick 0)).2.1 < (live.cfg.faults.limits e.kind).1
       ∧ ((live.at 0).count (.unit (unitId 0 3) 0) e.kind (tick 0)).2.2 = true)
    ∧ (countKey { kind := ekTRIGGER } = none ∧ ekTRIGGER ≠ ekLINK_DOWN)
    ∧ (let f : FaultSt := { key := .unit (unitId 0 3) 0, phase := .watch, evs := [(0, ekECC_UE), (0, ekECC_UE)] }
       let s : State := { live with errs := { states := [f] } }
       s.isRetired (unitId 0 3) 0 = false ∧ ((s.at 0).count (.unit (unitId 0 3) 0) ekECC_UE (tick 0)).2.2 = true
         ∧ ((s.at 0).count (.unit (unitId 0 3) 0) ekECC_UE (tick 0)).1.phase ≠ .isolate
         ∧ (s.cfg.faults.limits ekECC_UE).1 ≤ ((s.at 0).count (.unit (unitId 0 3) 0) ekECC_UE (tick 0)).2.1
         ∧ (s.faultSt (.unit (unitId 0 3) 0)).phase = .watch
         ∧ ∀ e ∈ (s.faultSt (.unit (unitId 0 3) 0)).evs, e.1 + (s.cfg.faults.limits e.2).2 ≤ (s.at 10000000000).time)
    ∧ (let f : FaultSt := { key := .unit (unitId 0 3) 0, phase := .isolate }
       let s : State := { live with errs := { states := [f] } }
       (s.faultSt (.unit (unitId 0 3) 0)).phase = .isolate ∧ s.isRetired (unitId 0 3) = false
         ∧ (s.faultSt (.unit (unitId 0 3) 0)).since + 2000000 ≤ (s.at 2000000).time)
    ∧ unitId 0 3 ≠ unitId 1 113 ∧ (live.at 0).reported { kind := ekLINK_DEGR, unit := unitId 1 113 } = false
    ∧ (live.log { kind := ekLINK_DEGR, unit := unitId 0 113, time := 0 }).reported { kind := ekLINK_DEGR, unit := unitId 1 113 } = true
    ∧ live.takesWrite { fn := 0, off := Reg.errCmd } ∧ live.takesWrite { fn := 0, off := Reg.errRead } := by decide +kernel

/-- Source 24 pending in slot 0, routed to vector 5. -/
def pended (v : IVec) : State :=
  { live with ints := { slots := [(48, { routed := true, first := 5, count := 1, st := .pending })], vecs := [(5, v)], msix := [(5, { mask := false })] } }

theorem meets_InterruptDelivery :
    (let s := pended { bound := true }
     s.calm ∧ s.pcieUp = true ∧ s.ints.winner = some (24, 0)
       ∧ s.ints.bestVec ((s.ints.slot 24 0).set_.filter (s.ints.eligible (slotFn 24 0))) = some 5)
    ∧ (live.ints.winner = none)
    ∧ (let s := pended { bound := true, svc := true, src := 24 }
       s.takesWrite { fn := 0, off := Reg.intVec 5 } ∧ (s.ints.vec 5).svc = true ∧ (s.ints.vec 5).rp < 16
         ∧ live.takesWrite { fn := 0, off := Reg.intVec 2047 }) := by decide +kernel

theorem meets_SoftwareInterrupts :
    live.calm ∧ live.takesWrite { fn := 0, off := Reg.intSwSetG } ∧ (∀ p ∈ [0, 7], live.takesWrite { fn := p + 1, off := Reg.intSwSetP p })
      ∧ live.takesWrite { fn := 0, off := Reg.intSrcState 287 } ∧ live.takesWrite { fn := 8, off := Reg.intSrcState 287 } ∧ hasSlot1 287 = true := by
  decide +kernel

/-! ### Host, fieldbus, time, sensors and links -/

theorem meets_HostQueues :
    (∀ off ∈ [Reg.hifSqTail 8 7, Reg.hifCqHead 8 7, Reg.hifQCtrl 8 7], live.takesWrite { fn := 0, off } ∧ live.takesWrite { fn := 8, off })
      ∧ live.calm ∧ 8 * 8 + 7 < live.hqs.length ∧ ∀ en ∈ [true, false], ((({ en } : HQueue)).en = en) := by decide +kernel

/-- A host command: OP, FLAGS, LEN, host address, device address, ARG. -/
def hostBytes (op fl len dev : Nat) (arg : List Byte) : List Byte :=
  toLE 1 op ++ toLE 1 fl ++ toLE 2 7 ++ toLE 4 len ++ toLE 8 0 ++ toLE 8 dev ++ zeros 8 ++ arg ++ zeros (32 - arg.length)

/-- A command at the head of queue 0 of a function, 128 bytes of host data with it. -/
def hCmd (fn op len dev : Nat) (arg : List Byte) : HostIn := { fn, q := 0, bytes := hostBytes op 0 len dev arg, data := zeros 128 }

/-- A queue with one command, a ring of 8 and a completion queue of 8. -/
def hq1 (copy : Option (List Byte)) : HQueue := { en := true, sqSize := 3, cqSize := 3, tail := 1, copy }

/-- Task 1 of partition 0 serves queue 0 of its function. -/
def hostSec : SchedSec := { groups := [{ die := 0, grp := 0, cls := 0, wt := 1, prio := 0, qmin := 1, qmax := 1 }], tasks := [{ task0 with kind := tkHOST }] }

/-- Queue 0 of a function holds one command; core 0 as given. -/
def queued (fn : Nat) (copy : Option (List Byte)) (k : CoreSt) : State :=
  { tallied [] [] with
    loader := { active := some { cfg0 with parts := [{ part0 with sched := some hostSec }] } }
    sched := [{ tasks := [{ part := 0, task := 1 }], groups := [{ group0 with items := [] }] }, {}]
    hqs := listSet (List.replicate 72 {}) (8 * fn) (hq1 copy), cores := k :: List.replicate 127 {} }

theorem meets_HostCommands_plain :
    ((queued 0 none {}).calm ∧ (queued 0 none {}).dev.warm = none ∧ ((queued 0 none {}).at 0).takesHost (hCmd 0 5 0 0 []) 5)
    ∧ (∀ e ∈ [2, 1],
        let c := hCmd 1 4 0 0 (toLE 2 e ++ [23#8])
        let s := queued 1 none {}
        (s.at 0).takesHost c 4 ∧ leAt (decHCmd (c.bytes.take 64)).arg 0 2 = e ∧ ((s.pcfg 0).task e).isSome = (e == 1) ∧ (s.task? 0 0 e).isSome = (e == 1)
          ∧ (0 ||| 2 ^ 23) &&& task0.mask ≠ task0.mask)
    ∧ (let c := hCmd 1 3 0 0 (toLE 8 (ctrRef 0) ++ toLE 7 1 ++ toLE 1 opADD)
       let s := queued 1 none {}
       (s.at 0).takesHost c 3 ∧ tallyCmd (decHCmd (c.bytes.take 64)).arg = (ctrRef 0, 1, opADD) ∧ (s.at 0).quiet (.ctr 0 0)
         ∧ (s.at 0).tallyOk opADD { issuer := .hostq 1 0, part := 0, tref := ctrRef 0, operand := 1, cls := clsQ } (.ctr 0 0)) := by decide +kernel

theorem meets_HostCommands_copies :
    (let s := queued 0 none {}
     (s.at 0).takesHost (hCmd 0 1 128 0x20000 []) 1 ∧ (s.at 0).takesHost (hCmd 0 2 64 0x20000 []) 2 ∧ (s.at 0).near 0x20000 = 0x20000
       ∧ (s.at 0).fwOk .pf true 0x20000 128 = true ∧ (s.at 0).fwOk .pf false 0x20000 64 = true ∧ (s.at 0).poisoned 0x20000 64 = false)
    ∧ (let s := queued 1 none {}
       (s.at 0).takesHost (hCmd 1 1 128 0x20000 []) 1 ∧ (s.hostTask 0 0).isSome = true ∧ (s.at 0).credit 1 0 ≠ 0
         ∧ (s.at 0).noCoreFor 0 (taskItem 0 { task0 with kind := tkHOST } clsQ 0) = false)
    ∧ (let b := hostBytes 1 0 128 0x20000 []
       let s := queued 1 (some b) { dma := { item := some { tItem with kind := tkHOST } } }
       s.calm ∧ s.pcieUp = true ∧ (s.hq 1 0).copy = some b ∧ ((s.at 0).copyMover 1 0).isSome = true ∧ (decHCmd b).op = 1
         ∧ (s.at 0).farPkg (decHCmd b).dev = none ∧ (decHCmd b).len ≤ 128 ∧ (decHCmd b).check = false
         ∧ (s.at 0).fwOk (.part 0 0 0) true ((s.at 0).near (decHCmd b).dev) 128 = true) := by decide +kernel

theorem meets_PcieAndBar2 :
    live.calm ∧ live.pcieUp = true ∧ live.bar2Ok 0 0x20000 1 true = true ∧ live.bar2Ok 0 0x20000 64 false = true ∧ live.bar2Ok 8 0x20000 1 true = false
      ∧ 2 ^ 36 - 1 + 1 ≤ 2 ^ 36 := by decide +kernel

/-- Port 0 as given. -/
def ported (x : FPort) : State := { live with fif := { ports := x :: List.replicate 3 {} } }

theorem meets_FieldbusPorts :
    (∀ b ∈ [1, 3],
        let s := ported { link := true, bus := b, cfgRec := { mode := 1, cycleUs := 1000 } }
        s.calm ∧ s.dev.up = true ∧ s.fif.ports.length = 4 ∧ s.readyBit (rbFBS + 3) = true ∧ (s.port 0).cfgRec.mode = 1 ∧ (s.port 0).link = true
          ∧ 1 ≤ (s.port 0).bus ∧ (s.port 0).bus < 4 ∧ (s.port 0).err = 0)
    ∧ (let s : State := { conf { cfg0 with ifg := { eth := List.replicate 4 { mode := 1 } } } run1 with fif := {} }
       s.calm ∧ s.fif.ethUp.length = 4 ∧ s.readyBit (rbETH + 3) = true ∧ (s.cfg.ifg.eth.getD 3 {}).mode = 1) := by decide +kernel

theorem meets_Cycles :
    (watched.calm ∧ watched.fif.ports.length = 4 ∧ watched.warden.wds.length = 12 ∧ watched.warden.mechs.length = 16 ∧ (watched.port 0).cycling = true
      ∧ (watched.port 0).bus = 4 ∧ watched.outExpects 8 = true ∧ (watched.outOpen 8).1 ≤ (watched.port 0).cfgRec.start (watched.port 0).k
      ∧ (watched.port 0).cfgRec.start (watched.port 0).k < (watched.outOpen 8).2)
    ∧ (let s := ported { bus := 4, sent := true, sentK := 0, k := 1, cfgRec := { mode := 1, cycleUs := 1000 } }
       (s.port 0).cfgRec.mode = 1 ∧ (s.port 0).sent = true ∧ (s.port 0).cfgRec.start (s.port 0).sentK ≤ 0
         ∧ 999999 < (s.port 0).cfgRec.start (s.port 0).k)
    ∧ (let s := ported { bus := 4, sent := true, sentK := 0, k := 1, cfgRec := { mode := 2, cycleUs := 1000 }, img := { drives := [(1, 0), (2, 0)] }, got := [0] }
       (s.port 0).cfgRec.mode = 2 ∧ (s.port 0).sent = true ∧ 1 < (s.port 0).img.drives.length ∧ 0 = (s.port 0).sentK % 2 ^ 32 ∧ 1 ∉ (s.port 0).got
         ∧ (s.port 0).got.length + 1 = (s.port 0).img.drives.length) := by decide +kernel

/-- Partition 0 in a run state, port 7 the time receiver and port 0 a time transmitter, the servo as given. -/
def ptpd (x : PRun) (p : Ptp) : State :=
  { conf { cfg0 with ifg := { ptpPort := 7, ptpTx := 129 } } x with fif := { ptp := p } }

theorem meets_TimeSync :
    (let s := ptpd run1 {}
     s.calm ∧ s.dev.up = true ∧ s.ptpPort.isSome = true ∧ s.anyRunning = true ∧ bit s.cfg.ifg.ptpTx 0 = true ∧ bit s.cfg.ifg.ptpTx 7 = true
       ∧ ∀ e ∈ s.fif.sentSync, e.1 = 0 → e.2.2 + s.syncEvery ≤ (s.at 0).time)
    ∧ (let s := ptpd { st := .stopped } { stepWait := true, offset := 2000000 }
       s.fif.ptp.stepWait = true ∧ s.fif.ports.length = 4 ∧ s.anyRunning = false ∧ s.fif.ptp.holdover = false
         ∧ s.fif.ptp.last.getD 0 + 3000000000 ≤ (s.at 3000000000).time)
    ∧ (ptpd run1 { stepWait := true }).anyRunning = true := by decide +kernel

/-- Channel 31: a camera, or an Ethernet source of 1 ms spans, two buffers of 4 KiB at 64 KiB. -/
def chan31 (kind : Nat) : ChanCfg :=
  { chan := 31, kind, src := 0, vc := 0, dt := 0, stamp := 0, etype := 0x88B5, udp := 0, lat := 0, span := 1000, grace := 0, nbuf := 2, bufLen := 4096
    stride := 64, ring := 0x10000, view := 0x20000, tref := 0, task := 9 }

/-- That channel in a state. -/
def ingesting (c : Ingest) : State :=
  { conf { cfg0 with ifg := { eth := List.replicate 4 { mode := 1 } } } run1 with fif := { chans := [c], ethUp := List.replicate 4 true } }

/-- A 60-byte frame of its type to the multicast address of PTP. -/
def frame60 : List Byte := toLE 6 0x000000191B01 ++ zeros 6 ++ [0x88#8, 0xB5#8] ++ zeros 46

theorem meets_SensorBuffers_camera :
    (let c : Ingest := { cfg := chan31 0, part := 0 }
     let s := ingesting c
     s.calm ∧ s.dev.up = true ∧ s.chan? 31 = some c ∧ c.cfg.kind = 0 ∧ c.open_ = [] ∧ s.chanHolds c = false
       ∧ s.chanHolds { c with service := [0] } = true)
    ∧ (let b : IngBuf := { seq := 0, stamp := 0, opened := 0 }
       let c : Ingest := { cfg := chan31 0, part := 0, open_ := [b] }
       let s := ingesting c
       s.chan? 31 = some c ∧ c.open_ = [b] ∧ c.cfg.tref = 0 ∧ (s.pcfg c.part).task c.cfg.task = none ∧ s.memReady (c.cfg.bufAt b.seq) = true
         ∧ s.inImage (c.cfg.bufAt b.seq) 64 = false ∧ (zeros 65).take (min c.cfg.stride (c.cfg.bufLen - 64)) ≠ []
         ∧ s.inImage (c.cfg.bufAt b.seq + 64) 64 = false) := by decide +kernel

theorem meets_SensorBuffers_ethernet :
    let b : IngBuf := { seq := 1, stamp := 0, opened := 0, span := 0 }
    let c : Ingest := { cfg := chan31 1, part := 0, open_ := [b] }
    let s := ingesting c
    s.calm ∧ s.chan? 31 = some c ∧ c.cfg.kind = 1 ∧ s.fif.ethUp.getD c.cfg.src false = true ∧ c.cfg.takes (s.cfg.ifg.eth.getD c.cfg.src {}).mac frame60 = true
      ∧ c.cfg.span ≠ 0 ∧ ((((tick 999999 : Nat) : Int) - c.cfg.lat).fdiv (c.cfg.span * 1000)).toNat = 0 ∧ c.dropSpan ≠ some 0
      ∧ c.open_.find? (fun b => b.span == 0) = some b ∧ 64 + b.len + alignUp (16 + 60) 64 ≤ c.cfg.bufLen
      ∧ s.memReady (c.cfg.bufAt b.seq + 64 + b.len) = true ∧ s.inImage (c.cfg.bufAt b.seq + 64 + b.len) 128 = false
      ∧ ((b.span + 1) * c.cfg.span + c.cfg.grace) * 1000 ≤ 1000000 := by decide +kernel

theorem meets_TimestampUnits :
    (∀ m ∈ [0, 1, 2],
        let r : TsuRec := { unit := 7, mode := m, edge := 3, width := 1000, start := 0, period := 1000000 }
        let x : TsuSt := { rec_ := some r, fifo := List.replicate 16 8 }
        let s : State := { live with fif := { tsus := List.replicate 7 {} ++ [x] } }
        s.calm ∧ 7 < s.fif.tsus.length ∧ (s.fif.tsus.getD 7 {}).rec_ = some r ∧ s.dev.up = true ∧ r.mode = m ∧ bit r.edge 0 = true ∧ bit r.edge 1 = true)
    ∧ live.takesRead { fn := 0, off := Reg.snsTsuCapLo 7 } := by decide +kernel

/-- Port 0 in a state, the requests outstanding as given, partition 0's CDL_OPEN set for package 1. -/
def linked (x : CPort) (r : List CReq) : State :=
  { conf cfg0 { st := .stopped } with links := { ports := x :: List.replicate 3 {}, reqs := r }, regs := [(Reg.cdlOpen 0, 2#32)] }

theorem meets_Links :
    (let s := linked { st := .up, carries := true, peerPkg := 1 } [{ id := 3, pkg := 1, write := true, t := some 0, part := 0, core := none }]
     s.calm ∧ s.dev.up = true ∧ s.links.ports.length = 4 ∧ (s.cport 0).live = true ∧ (s.cport 0).carries = true ∧ (s.cport 0).st ≠ .held
       ∧ s.takesWrite { fn := 0, off := Reg.cdlCtrl 0 } ∧ s.takesWrite { fn := 0, off := Reg.cdlOpen 7 } ∧ s.dev.pkgSel ≠ 1
       ∧ bit (s.rd (Reg.cdlOpen 0)).toNat 1 = true ∧ bit (s.rd (Reg.cdlOpen 0)).toNat 7 = false
       ∧ (s.at 0).remoteOk { id := 0, pkg := 1, part := 0, addr := 0x20000 } true 64 = true
       ∧ (s.at 0).remoteOk { id := 0, pkg := 1, part := 0, addr := 0x20000 } false 64 = true
       ∧ s.links.reqs.find? (fun r => r.id == 3) = some { id := 3, pkg := 1, write := true, t := some 0, part := 0, core := none })
    ∧ (∀ st ∈ [LState.down, .training],
        let s := linked { st } []
        s.readyBit (rbLINK + 3) = true ∧ bit (s.rd (Reg.cdlCtrl 0)).toNat 0 = true ∧ ((s.cport 0).st = .down ∨ (s.cport 0).st = .training)) := by decide +kernel

/-! ### Ill-formed commands, one for each range that the package gives an operand -/

theorem test_ill_regacc_fn : ({ fn := 9, off := 0 } : RegAcc).wf = false := by decide
theorem test_ill_regacc_off : ({ fn := 0, off := 2 ^ 24 } : RegAcc).wf = false := by decide
theorem test_ill_porin : ({ pkgSel := 8 } : PorIn).wf = false := by decide
theorem test_ill_arrin : ({ die := 2, part := 0, net := 0 } : ArrIn).wf = false ∧ ({ die := 0, part := 8, net := 0 } : ArrIn).wf = false
    ∧ ({ die := 0, part := 0, net := 16 } : ArrIn).wf = false := by decide
theorem test_ill_tallyin : ({ issuer := .dma 0, part := 8, tref := 0, operand := 0 } : TallyIn).wf = false
    ∧ ({ issuer := .dma 0, part := 0, tref := 0, operand := 0, cls := 3 } : TallyIn).wf = false
    ∧ ({ issuer := .dma 0, part := 0, tref := 2 ^ 64, operand := 0 } : TallyIn).wf = false
    ∧ ({ issuer := .dma 0, part := 0, tref := 0, operand := 2 ^ 64 } : TallyIn).wf = false := by decide
theorem test_ill_wirein : ({ input := 13, b := false, level := true } : WireIn).wf = false := by decide
theorem test_ill_eventin : ({ kind := 1, unit := 65536 } : EventIn).wf = false ∧ ({ kind := 1, cls := 4 } : EventIn).wf = false := by decide
theorem test_ill_sensein : ({ tj := [0, 0] } : SenseIn).wf = false := by decide
theorem test_ill_lcin : ({ fn := 9, bytes := [] } : LcIn).wf = false := by decide
theorem test_ill_hostin : ({ fn := 9, q := 0, bytes := zeros 64 } : HostIn).wf = false ∧ ({ fn := 0, q := 8, bytes := zeros 64 } : HostIn).wf = false
    ∧ ({ fn := 0, q := 0, bytes := zeros 63 } : HostIn).wf = false := by decide
theorem test_ill_memacc : ({ fn := 9, off := 0, write := false, len := 1 } : MemAcc).wf = false ∧ ({ fn := 0, off := 0, write := true } : MemAcc).wf = false := by
  decide
theorem test_ill_imagein : ({ axes := [(16, 1, 0, 0)] } : ImageIn).wf = false ∧ ({ axes := [(0, 0, 0, 0)] } : ImageIn).wf = false
    ∧ ({ axes := [(0, 13, 0, 0)] } : ImageIn).wf = false := by decide
theorem test_ill_packetin : ({ chan := 32, data := [] } : PacketIn).wf = false := by decide
theorem test_ill_trainin : ({ pkg := 8, port := 0, uid := 0 } : TrainIn).wf = false ∧ ({ pkg := 0, port := 4, uid := 0 } : TrainIn).wf = false := by decide
theorem test_ill_remotein : ({ id := 0, pkg := 8, part := 0, addr := 0 } : RemoteIn).wf = false ∧ ({ id := 0, pkg := 0, part := 8, addr := 0 } : RemoteIn).wf = false
    ∧ ({ id := 0, pkg := 0, part := 0, addr := 0, cls := 3 } : RemoteIn).wf = false ∧ ({ id := 0, pkg := 0, part := 0, addr := 0, port := 4 } : RemoteIn).wf = false
    ∧ ({ id := 0, pkg := 0, part := 0, addr := 0, hops := 0 } : RemoteIn).wf = false ∧ ({ id := 0, pkg := 0, part := 0, addr := 0, hops := 8 } : RemoteIn).wf = false := by
  decide
/-- Values of 33 bits, functions, partitions, cores, slots, ports and units past the last one. -/
theorem test_ill_commands :
    ∀ c ∈ [Instr.registerWrite { fn := 0, off := 0 } (2 ^ 32) 0, .ready 59 .fail 0, .hbmInit 2 0, .warm 9 0, .part 0 8 0, .storeCopy 16 true 0, .admission 128 0,
           .verdict 0 512 0, .reduction 0 2 0, .smoothing 32 0, .deadline 16, .twinTimeout 0 16, .due 2 0 0, .due 0 0 1024, .cosyEntry 176 0, .tamper 4 0,
           .railFault 4 0, .linkDown 3 0, .watchdog 12 0, .discrepancy 13 0, .estopReset 0 4 0, .outputFault 8 false false 0, .soe 32 false 0,
           .sliceStart 0 512 0 0, .sliceStart 0 0 256 0, .eoi 0 2048 0, .pendSet 0 288 0 0, .pendSet 0 0 2 0, .pllLockLoss 28 0, .stepUp 18 0, .cycle 4 {},
           .syncTransmit 8 0, .frameStart 32 0, .pulse 8, .portDown 4 0, .cdlOpen 0 0 (2 ^ 32) 0], c.wf = false := by decide +kernel
/-- The last of each is well formed. -/
theorem test_well_commands :
    ∀ c ∈ [Instr.registerWrite { fn := 8, off := 2 ^ 24 - 1 } (2 ^ 32 - 1) 0, .ready 58 .fail 0, .hbmInit 1 0, .part 8 7 0, .storeCopy 15 true 0, .verdict 127 511 0,
           .cosyEntry 175 0, .watchdog 11 0, .eoi 8 2047 0, .pendSet 8 287 1 0, .stepUp 17 0, .syncTransmit 7 0, .pulse 7], c.wf = true := by decide +kernel

/-! ### Single steps -/

/-- The state after a command. -/
def after (c : Instr) (s : State) : State := match exec c s with | .next u => u | _ => s

/-- DEVICE_ID, from the register table of 23_register_index.md. -/
theorem test_read_device_id :
    (after (.readClear { fn := 0, off := Reg.glbDeviceId } 0) live).compl = some { data := toLE 4 0x96402820 } := by decide +kernel
/-- R8: the _HI half read after _LO is the latched one. -/
theorem test_wide_write :
    let u := after (.registerWrite { fn := 0, off := Reg.bldSrcHi } 1 0) (after (.registerWrite { fn := 0, off := Reg.bldSrcLo } 256 0) live)
    u.rd64 Reg.bldSrcLo = 0x100000100 := by decide +kernel
/-- R507: a 2-byte access. -/
theorem test_narrow : (after (.readClear { fn := 0, off := 0, width := 2 } 0) live).compl = some { ur := true } := by decide +kernel
/-- R337: a channel that fails its start-up test. -/
theorem test_por_channel : (after (.porNRelease { chB := false }) State.reset).warden.state = .channelFail := by decide +kernel
/-- R424. -/
theorem test_por_pkg : (after (.porNRelease { pkgSel := 7 }) State.reset).dev.pkgSel = 7 := by decide +kernel
/-- R420: a warm reset clears the planner functions' bits and no other. -/
theorem test_warm_ready : (after (.warm 0 0) live).dev.ready = 2 ^ 59 - 2 ^ 32 := by decide +kernel
/-- R421: PART of an UNCONFIGURED partition is rejected. -/
theorem test_part_rejected : (after (.part 0 3 0) live).dev.cmdResult = 1 := by decide +kernel
/-- R66: T0 = 0 takes the first multiple of P at least 100 µs after the write. -/
theorem test_start_t0 : ((after (.start 0 0 1000000) (conf cfg0 { st := .stopped })).prun 0).t0 = 2000000 := by decide +kernel
/-- R65: the frame whose window holds the write is the last. -/
theorem test_stop_frame : ((after (.stop 0 0 3500000) (conf cfg0 run1)).prun 0).lastFrame = some 2 := by decide +kernel
/-- R13: the second window opens one period after the first. -/
theorem test_window_time : (after (.frameWindow 0 0) (conf cfg0 run1)).time = 2000000 := by decide +kernel
/-- R227, R211: 3 × 4 in INT8 is 12, stored as FP32. -/
theorem test_gemm :
    let s := { arrayed gemmBytes none with mem := poke (poke (poke [] 0x10000 gemmBytes) (bufBase 0) [3#8]) (bufBase 0 + 0x400000) [4#8] }
    (after (.gemm aCmd) s).peekN (bufBase 0 + 0x800000) 4 = 0x41400000 := by decide +kernel
/-- R238: a tile that fails its check twice ends the run CHK_FAIL. -/
theorem test_gemm_check :
    (((after (.gemm { aCmd with upset := [upset0] }) (arrayed gemmBytes none)).arr 0).stat 0 0).map (·.1 / 65536) = some rrCHK := by decide +kernel
/-- R265: ADD, and SUB below zero. -/
theorem test_add : ((after (.add (tCmd 0 5)) (tallied [] [])).tword (.ctr 0 0)).value = 5 := by decide +kernel
theorem test_sub_below : ((after (.sub (tCmd 0 1)) (tallied [] [])).tword (.ctr 0 0)).err = true := by decide +kernel
/-- R269: a TAKE that is not met waits. -/
theorem test_take_waits : (after (.take (tCmd 0 1)) (tallied [] [])).sync.waits.length = 1 := by decide +kernel
/-- R291: FILL repeats its 8-byte pattern. -/
theorem test_fill : (after (.fill 0 .waiting 0) (chained (dmaBytes dmFILL 64 0x0807060504030201 0x20000))).peek 0x2003E 2 = [7#8, 8#8] := by decide +kernel
/-- R393: the message of vector 5's entry. -/
theorem test_delivery : ((after (.intDelivery 0) (pended { bound := true })).ints.vec 5).svc = true := by decide +kernel
/-- R395. -/
theorem test_sw_set : ((after (.intSwSetG { fn := 0, off := Reg.intSwSetG } 0x80 0) live).ints.slot 31 0).st = .pending := by decide +kernel
/-- R302: tamper locks the device. -/
theorem test_tamper : (after (.tamper 0 0) live).warden.state = .locked := by decide +kernel
/-- R336: an emergency-stop input that loses a wire is latched. -/
theorem test_estop :
    let w : Warden := { estop := { filA := true, filB := true } :: List.replicate 3 {}, estopLat := List.replicate 4 false }
    ((after (.inputFilter { input := 0, b := false, level := false } 0) (safed w)).wm 0).held = true := by decide +kernel
/-- R320, R322: the deadline stamp is 1 µs before the horizon. -/
theorem test_deadline : (after (.deadline 0) (warded { cur := some rec0, held := false })).warden.trigTime = 8999000 := by decide +kernel
/-- R439: the head advances as a command is taken. -/
theorem test_nop : ((after (.nop (hCmd 0 5 0 0 [])) (queued 0 none {})).hq 0 0).head = 1 := by decide +kernel
/-- R446: 1,000 Mb/s, full duplex, link up in the SGMII status word. -/
theorem test_in_band : ((after (.inBandStatus 0 0x9800 0) live).port 0).link = true ∧ ((after (.inBandStatus 0 0x9400 0) live).port 0).link = false := by decide +kernel
/-- R466: a 17th capture is lost. -/
theorem test_capture :
    let x : TsuSt := { rec_ := some { unit := 0, mode := 0, edge := 1, width := 0, start := 0, period := 0 }, fifo := List.replicate 16 8 }
    ((after (.capture 0 true 80) { live with fif := { tsus := x :: List.replicate 7 {} } }).fif.tsus.getD 0 {}).fifo.length = 16 := by decide +kernel
/-- R459: the 16th offset within 100 ns locks the servo. -/
theorem test_lock : (after (.syncMessage { gm := 1, offset := 100#64, t := 0 }) (ptpd run1 { good := 15 })).fif.ptp.locked = true := by decide +kernel
/-- R473: a flit out of order is discarded. -/
theorem test_flit : ((after (.flit 0 { seq := 1 } 0) (linked { st := .up } [])).cport 0).rxSeq = 0 := by decide +kernel
/-- R481: a request of a package that CDL_OPEN does not name. -/
theorem test_remote_refused :
    (after (.remoteRequest { id := 0, pkg := 2, part := 0, addr := 0x20000, len := 64 }) (linked { st := .up, carries := true } [])).compl = some { ur := true } := by
  decide +kernel
/-- The check value of CRC-32C. -/
theorem test_crc32c : crc32c ("123456789".toList.map fun c => BitVec.ofNat 8 c.toNat) = 0xE3069283#32 := by decide +kernel

end Sys2Proof.Machine
end

section
/-! SUPPORT. Register accesses (R6, R7): when an access reaches its register, which write has no step of its own, and what the
access types make of each bit. -/

namespace Sys2Proof.Machine

variable (s : State)

/-! ### Reach and readiness do not depend on time -/

@[simp] theorem State.at_pcieUp (t : Nat) : (s.at t).pcieUp = s.pcieUp := by
  simp [State.pcieUp, State.readyBit]

@[simp] theorem State.at_regThere (t off : Nat) : (s.at t).regThere off = s.regThere off := by
  simp [State.regThere, State.readyBit, State.coreEn]

@[simp] theorem State.at_unsupported (t : Nat) (a : RegAcc) (write : Bool) :
    (s.at t).unsupported a write = s.unsupported a write := by
  simp [State.unsupported, State.vfWrites, State.vfReads, State.vecFn]

/-- Time's passage takes no fall-back decision. -/
theorem State.at_calm {s : State} (t : Nat) (h : s.calm) : (s.at t).calm := by
  simpa [State.calm] using h

/-! ### Completions and the end of a command -/

theorem State.setCompl_keeps (x : Option Compl) : ({ s with compl := x } : State).keeps s [.compl] := by
  intro c hc; cases c <;> simp_all [State.sameIn, State.regsAs, State.rd, State.memAs]

theorem State.wr_regsAs (o : Nat) (v : Word) : (s.wr o v).regsAs s [o] :=
  fun j hj => s.rd_wr_ne o v j (by simpa using hj)

section

variable {u s : State} (x : Option Compl) (hcalm : s.calm) (hkeeps : u.keeps s [.regs])

include hcalm hkeeps

/-- An access that changes registers alone takes no fall-back decision. -/
theorem State.setCompl_fall : ({ u with compl := x } : State).dev.fall = none := by
  have hdev : u.dev = s.dev := hkeeps .dev (by simp)
  simpa [hdev] using hcalm

theorem State.finish_setCompl_keeps : ({ u with compl := x } : State).finish.keeps s [.regs, .compl] :=
  State.finish_keeps_of (State.setCompl_fall x hcalm hkeeps)
    (State.keeps_trans (State.keeps_mono (u.setCompl_keeps x) (by simp)) (State.keeps_mono hkeeps (by simp)))

theorem State.finish_setCompl_rd (o : Nat) : ({ u with compl := x } : State).finish.rd o = u.rd o :=
  State.finish_rd _ (State.setCompl_fall x hcalm hkeeps) o

theorem State.finish_setCompl_regsAs {l : List Nat} (h : u.regsAs s l) : ({ u with compl := x } : State).finish.regsAs s l :=
  fun o ho => (State.finish_setCompl_rd x hcalm hkeeps o).trans (h o ho)

theorem State.finish_setCompl_compl : ({ u with compl := x } : State).finish.compl = x :=
  State.finish_compl _ (State.setCompl_fall x hcalm hkeeps)

end

/-! ### Writes -/

/-- A write that reaches its register runs the register's step. -/
theorem State.onWrite_of_takesWrite {s : State} {a : RegAcc} (h : s.takesWrite a) (t : Nat) (f : State → State) :
    s.onWrite a t f = (f (s.at t)).writeEnd := by
  obtain ⟨hup, hreach, hthere⟩ := h
  simp [State.onWrite, hup, hreach, hthere]

/-- In the warden's part of the map, the registers that plainOff excludes are all that have a step of their own. -/
theorem State.writeWarden_of_plainOff {off : Nat} (fn v : Nat) (hlo : 0x100000 ≤ off) (hhi : off < 0x200000)
    (h : Reg.plainOff off = true) : s.writeWarden fn off v = s.plainWrite off v := by
  have hglb : ¬ off < 0x100000 := by omega
  have hdie : ¬ 0x200000 ≤ off := by omega
  simp only [Reg.plainOff, hglb, hdie, hlo, hhi, decide_false, decide_true, Bool.false_and, Bool.true_and, Bool.false_or,
    Bool.or_false, Bool.and_eq_true, bne_iff_ne, ne_eq, Bool.not_eq_true', Option.isNone_iff_eq_none] at h
  obtain ⟨⟨⟨⟨⟨⟨⟨⟨⟨⟨hwdn, hbld⟩, herr⟩, hswG⟩, hhif⟩, hswP⟩, hsrc⟩, hvec⟩, hvt⟩, hopen⟩, hctrl⟩ := h
  simp [State.writeWarden, hwdn, hbld, herr, hswG, hhif, hswP, hsrc, hvec, hvt, hopen, hctrl]

/-- A register without a step of its own is written by its access types, in each of the map's three parts. -/
theorem State.writeReg_of_plainOff {a : RegAcc} (v : Nat) (h : Reg.plainOff a.off = true) :
    s.writeReg a v = s.plainWrite a.off v := by
  rcases lt_or_ge a.off 0x100000 with hglb | hglb
  · have hw : ¬ 0x100000 ≤ a.off := by omega
    have hd : ¬ 0x200000 ≤ a.off := by omega
    simp only [Reg.plainOff, hglb, hw, hd, decide_false, decide_true, Bool.false_and, Bool.true_and, Bool.or_false,
      Bool.and_eq_true, bne_iff_ne, ne_eq] at h
    obtain ⟨hreset, hlc⟩ := h
    simp [State.writeReg, hreset, hlc, hglb]
  · have hreset : a.off ≠ Reg.glbResetCmd := by simp only [Reg.glbResetCmd]; omega
    have hlc : a.off ≠ Reg.glbLcCmd := by simp only [Reg.glbLcCmd]; omega
    have hng : ¬ a.off < 0x100000 := by omega
    rcases lt_or_ge a.off 0x200000 with hwdn | hdie
    · simp [State.writeReg, hreset, hlc, hng, hwdn, s.writeWarden_of_plainOff a.fn v hglb hwdn h]
    · have hnw : ¬ a.off < 0x200000 := by omega
      simp only [Reg.plainOff, hng, hnw, hdie, hglb, decide_false, decide_true, Bool.false_and, Bool.true_and, Bool.and_false,
        Bool.false_or, Bool.and_eq_true, bne_iff_ne, ne_eq, Bool.not_eq_true'] at h
      obtain ⟨⟨⟨hflag0, hflag1⟩, hadd⟩, href⟩ := h
      have hflag (d : Nat) : a.off ≠ Reg.schFlagSet (d % 2) := by
        rcases Nat.mod_two_eq_zero_or_one d with hd | hd <;> rw [hd] <;> assumption
      simp [State.writeReg, hreset, hlc, hng, hnw, hflag, hadd, href]

/-- A register that is no half of a writable pair takes a write at once. -/
theorem State.plainWrite_of_single {off : Nat} (v : Nat) (hlo : Reg.isRwLo off = false)
    (hhi : 4 ≤ off → Reg.isRwLo (off - 4) = false) :
    s.plainWrite off v = s.wr off (Reg.written (Reg.accessOf off) (s.rd off) (wd32 v)) := by
  have hpair : ¬ (4 ≤ off ∧ Reg.isRwLo (off - 4) = true) := fun ⟨h4, ht⟩ => by simp [hhi h4] at ht
  simp [State.plainWrite, hlo, hpair]

theorem wd32_mod (v : Nat) : wd32 (v % 2 ^ 32) = BitVec.ofNat 32 v :=
  BitVec.eq_of_toNat_eq (by simp [wd32])

/-- REGISTER_WRITE of a register without a step of its own that is no half of a writable pair. -/
theorem exec_registerWrite_of_single {s : State} {a : RegAcc} (v t : Nat) (hreach : s.takesWrite a) (hbar : a.bar = .bar0)
    (hplain : Reg.plainOff a.off = true) (hlo : Reg.isRwLo a.off = false) (hhi : 4 ≤ a.off → Reg.isRwLo (a.off - 4) = false) :
    exec (.registerWrite a v t) s =
      .next (((s.at t).wr a.off
        (Reg.written (Reg.accessOf a.off) ((s.at t).rd a.off) (BitVec.ofNat 32 v))).writeEnd.finish) := by
  have hexec : exec (.registerWrite a v t) s = (s.onWrite a t fun s => s.writeReg a (v % 2 ^ 32)).done := by
    simp only [exec, execRegisterWrite, hbar]
  rw [hexec, State.onWrite_of_takesWrite hreach, State.writeReg_of_plainOff _ _ hplain,
    State.plainWrite_of_single _ _ hlo hhi, wd32_mod]
  rfl

/-- What a write leaves in a register, bit by bit (R6). -/
theorem Reg.written_getLsbD (a : Reg.Access) (old v : Word) {i : Nat} (hi : i < 32) :
    (Reg.written a old v).getLsbD i = Reg.bitAfter a old v i := by
  simp only [Reg.written, Reg.bitAfter, BitVec.getLsbD_or, BitVec.getLsbD_and, BitVec.getLsbD_not, hi, decide_true, Bool.true_and]
  cases v.getLsbD i with
  | false => cases a.rw.getLsbD i <;> simp
  | true =>
    cases a.w1s.getLsbD i with
    | true => simp
    | false => cases a.rw.getLsbD i <;> simp [Bool.and_comm]

/-! ### Reads -/

theorem Reg.isLo_of_tsuCap {off : Nat} (h : Reg.among off (Reg.snsTsuCapLo 0) 8 8 = true) : Reg.isLo off = true := by
  simp [Reg.isLo, h]

theorem idx_tsuCap_eq_none {off : Nat} (h : Reg.isLo off = false) : idx off (Reg.snsTsuCapLo 0) 8 8 = none := by
  have hcap : ¬ Reg.among off (Reg.snsTsuCapLo 0) 8 8 = true := fun hc => by simp [Reg.isLo_of_tsuCap hc] at h
  simp [idx, hcap]

/-- A read of a register other than a _LO half latches nothing; it clears the RC bits where there are any. -/
theorem State.afterRead_of_not_isLo {off : Nat} (fn : Nat) (hlo : Reg.isLo off = false) (hthere : s.regThere off = true) :
    s.afterRead fn off = if (Reg.accessOf off).rc = 0#32 then s
      else s.wr (Reg.homeOf off) (s.rd (Reg.homeOf off) &&& ~~~(Reg.accessOf off).rc) := by
  simp [State.afterRead, hlo, hthere]

theorem State.afterRead_rd_home {off : Nat} (fn : Nat) (hlo : Reg.isLo off = false) (hthere : s.regThere off = true) :
    (s.afterRead fn off).rd (Reg.homeOf off) = s.rd (Reg.homeOf off) &&& ~~~(Reg.accessOf off).rc := by
  rw [s.afterRead_of_not_isLo fn hlo hthere]
  split
  next hrc => rw [hrc, BitVec.not_zero, BitVec.and_allOnes]
  next => exact s.rd_wr_same _ _

theorem State.afterRead_regsAs {off : Nat} (fn : Nat) (hlo : Reg.isLo off = false) (hthere : s.regThere off = true) :
    (s.afterRead fn off).regsAs s [Reg.homeOf off] := by
  rw [s.afterRead_of_not_isLo fn hlo hthere]
  split
  · exact fun _ _ => rfl
  · exact s.wr_regsAs _ _

theorem State.afterRead_keeps {off : Nat} (fn : Nat) (hlo : Reg.isLo off = false) (hthere : s.regThere off = true) :
    (s.afterRead fn off).keeps s [.regs] := by
  rw [s.afterRead_of_not_isLo fn hlo hthere]
  split
  · exact s.keeps_refl _
  · exact s.wr_keeps _ _

/-- READ_CLEAR of a register other than a _LO half. -/
theorem exec_readClear_of_not_isLo {s : State} {a : RegAcc} (t : Nat) (hreach : s.takesRead a) (hbar : a.bar = .bar0)
    (hlo : Reg.isLo a.off = false) :
    exec (.readClear a t) s = .next (((s.at t).afterRead a.fn a.off).readEnd ((s.at t).seen a.fn a.off)).finish := by
  obtain ⟨hup, hsupp, -⟩ := hreach
  simp [exec, execReadClear, State.readReg, State.done, hup, hsupp, hbar, idx_tsuCap_eq_none hlo]

/-! ### What reads and writes do by access type -/

/-- Settles O8: a write is one register updated, a read one register's RC bits cleared; each is followed bit by bit, and its frame
carried, through the completion and the end of the command. -/
theorem accessTypes : Obligations.AccessTypes := by
  unfold Obligations.AccessTypes
  constructor
  · intro a v t s hcalm hreach hbar hplain hlo hhi
    have hcalmAt := State.at_calm t hcalm
    have hkeeps := (s.at t).wr_keeps a.off (Reg.written (Reg.accessOf a.off) ((s.at t).rd a.off) (BitVec.ofNat 32 v))
    refine ⟨_, exec_registerWrite_of_single v t hreach hbar hplain hlo hhi, fun i hi => ?_,
      State.finish_setCompl_regsAs _ hcalmAt hkeeps (State.wr_regsAs _ _ _),
      State.finish_setCompl_compl _ hcalmAt hkeeps, State.finish_setCompl_keeps _ hcalmAt hkeeps⟩
    rw [State.writeEnd, State.finish_setCompl_rd _ hcalmAt hkeeps, State.rd_wr_same, Reg.written_getLsbD _ _ _ hi]
  · intro a t s hcalm hreach hbar hlo
    have hcalmAt := State.at_calm t hcalm
    have ⟨_, _, hready⟩ := hreach
    have hthere : (s.at t).regThere a.off = true := (s.at_regThere t a.off).trans hready
    have hkeeps := (s.at t).afterRead_keeps a.fn hlo hthere
    refine ⟨_, exec_readClear_of_not_isLo t hreach hbar hlo, State.finish_setCompl_compl _ hcalmAt hkeeps, fun i hi => ?_,
      State.finish_setCompl_regsAs _ hcalmAt hkeeps ((s.at t).afterRead_regsAs a.fn hlo hthere),
      State.finish_setCompl_keeps _ hcalmAt hkeeps⟩
    rw [State.readEnd, State.finish_setCompl_rd _ hcalmAt hkeeps, (s.at t).afterRead_rd_home a.fn hlo hthere]
    simp [hi]

end Sys2Proof.Machine
end

section
/-! SUPPORT. Software interrupts (R392, R395, R396): which slots a raise and the writes of INT_SW_SET_G, INT_SW_SET_P and
INT_SRC_STATE change, slot by slot, and that the interrupt state and its two counters are all that they change. -/

namespace Sys2Proof.Machine

variable (s : State)

/-! ### One event on a slot (R392) -/

theorem ISlot.raised_of_idle {x : ISlot} (hst : x.st = .idle) : x.raised = { x with st := .pending } := by
  simp [ISlot.raised, hst]

theorem ISlot.raised_of_pending {x : ISlot} (hst : x.st = .pending) : x.raised = x := by
  simp [ISlot.raised, hst]

theorem ISlot.raised_of_service {x : ISlot} (hst : x.st = .service) : x.raised = { x with second := true } := by
  simp [ISlot.raised, hst]

/-- A further event on a raised slot changes nothing in it. -/
@[simp] theorem ISlot.raised_raised (x : ISlot) : x.raised.raised = x.raised := by
  cases hst : x.st with
  | idle => rw [ISlot.raised_of_idle hst, ISlot.raised_of_pending rfl]
  | pending => simp only [ISlot.raised_of_pending hst]
  | service =>
    rw [ISlot.raised_of_service hst]
    exact ISlot.raised_of_service hst

/-! ### Which slots a raise changes -/

/-- Slot keys 2 × source + slot are apart. -/
theorem IntSt.slot_setSlot (x : IntSt) (src k : Nat) (y : ISlot) {a b : Nat} (hb : b < 2) (hk : k < 2) :
    (x.setSlot src k y).slot a b = if a = src ∧ b = k then y else x.slot a b := by
  have hkey : 2 * a + b = 2 * src + k ↔ a = src ∧ b = k := by omega
  simp only [IntSt.setSlot, IntSt.slot, Tab.get_set, hkey]

/-- A slot replaced by what an update makes of it: that slot updated, every other as before. -/
theorem IntSt.slot_setSlot_map (x : IntSt) (src k : Nat) (f : ISlot → ISlot) {a b : Nat} (hb : b < 2) (hk : k < 2) :
    (x.setSlot src k (f (x.slot src k))).slot a b = if a = src ∧ b = k then f (x.slot a b) else x.slot a b := by
  rw [IntSt.slot_setSlot _ _ _ _ hb hk]
  exact ite_congr rfl (fun hab => by rw [hab.1, hab.2]) fun _ => rfl

theorem IntSt.slot_setSlot_self (x : IntSt) (src k : Nat) {a b : Nat} (hb : b < 2) (hk : k < 2) :
    (x.setSlot src k (x.slot src k)).slot a b = x.slot a b :=
  (x.slot_setSlot_map src k id hb hk).trans (ite_self _)

/-- A slot raised is that slot after one event, every other as before. -/
theorem State.raiseSlot_slot (src k : Nat) {a b : Nat} (hb : b < 2) (hk : k < 2) :
    (s.raiseSlot src k).ints.slot a b = if a = src ∧ b = k then (s.ints.slot a b).raised else s.ints.slot a b := by
  have hcount : (if (s.ints.slot src k).routed then s else s.inc Reg.intUnrouted).ints = s.ints := by
    split
    · rfl
    · exact s.inc_ints _ _
  rw [← IntSt.slot_setSlot_map _ _ _ _ hb hk]
  have hstays (h : (s.ints.slot src k).raised = s.ints.slot src k) :
      s.ints.slot a b = (s.ints.setSlot src k (s.ints.slot src k).raised).slot a b := by
    rw [h, IntSt.slot_setSlot_self _ _ _ hb hk]
  unfold State.raiseSlot
  cases hst : (s.ints.slot src k).st with
  | idle => simp only [hst, hcount, ISlot.raised_of_idle hst]
  | pending =>
    simp only [hst, State.inc_ints, hcount]
    exact hstays (ISlot.raised_of_pending hst)
  | service =>
    cases hsecond : (s.ints.slot src k).second with
    | true =>
      simp only [hst, hsecond, if_true, State.inc_ints, hcount]
      exact hstays ((ISlot.raised_of_service hst).trans (by rw [← hsecond]))
    | false => simp only [hst, hsecond, Bool.false_eq_true, if_false, hcount, ISlot.raised_of_service hst]

/-- A source raised is raised in every slot that it has. -/
theorem State.raise_slot (src : Nat) {a b : Nat} (hb : b < 2) :
    (s.raise src).ints.slot a b =
      if a = src ∧ (b = 0 ∨ hasSlot1 src = true) then (s.ints.slot a b).raised else s.ints.slot a b := by
  have hmark : (if isrcWarden.contains src then { s with ints := { s.ints with warden := src :: s.ints.warden } } else s : State).ints.slot
      = s.ints.slot := by split <;> rfl
  unfold State.raise
  cases hone : hasSlot1 src with
  | false => simp only [Bool.false_eq_true, if_false, or_false, State.raiseSlot_slot _ _ _ hb Nat.zero_lt_two, hmark]
  | true =>
    simp only [if_true, or_true, and_true, State.raiseSlot_slot _ _ _ hb Nat.one_lt_two, State.raiseSlot_slot _ _ _ hb Nat.zero_lt_two,
      hmark]
    obtain rfl | rfl : b = 0 ∨ b = 1 := by omega
    all_goals simp

theorem State.foldl_raise_slot (base : Nat) (l : List Nat) {a b : Nat} (hb : b < 2) :
    (l.foldl (fun s k => s.raise (base + k)) s).ints.slot a b =
      if (∃ k ∈ l, a = base + k) ∧ (b = 0 ∨ hasSlot1 a = true) then (s.ints.slot a b).raised else s.ints.slot a b := by
  induction l generalizing s with
  | nil => simp
  | cons k l ih =>
    rw [List.foldl_cons, ih, s.raise_slot _ hb]
    by_cases ha : a = base + k
    · by_cases hslot : b = 0 ∨ hasSlot1 a = true <;> simp [← ha, hslot]
    · simp [ha]

/-- The sources that the low 8 bits of a value name are raised, each in every slot that it has. -/
theorem State.raiseMany_slot (base v : Nat) {a b : Nat} (hb : b < 2) :
    (s.raiseMany base v).ints.slot a b =
      if (base ≤ a ∧ a < base + 8 ∧ bit v (a - base) = true) ∧ (b = 0 ∨ hasSlot1 a = true) then (s.ints.slot a b).raised
      else s.ints.slot a b := by
  have hnamed : (∃ k ∈ maskBits 8 v, a = base + k) ↔ base ≤ a ∧ a < base + 8 ∧ bit v (a - base) = true := by
    simp only [maskBits, List.mem_filter, List.mem_range, bit]
    constructor
    · rintro ⟨k, ⟨hk, hv⟩, rfl⟩
      exact ⟨by omega, by omega, by simpa using hv⟩
    · rintro ⟨hlo, hhi, hv⟩
      exact ⟨a - base, ⟨by omega, hv⟩, by omega⟩
  simp only [State.raiseMany, State.foldl_raise_slot _ _ _ hb, hnamed]

/-! ### Which slots a write of INT_SRC_STATE changes -/

/-- A slot's fields written with its MASK bit as it stands: the slot is raised where its PEND bit is written 1, and nothing else
happens to any slot. -/
theorem State.slotWrite_slot_of_masked {src k : Nat} {mask : Bool} (pend : Bool) {a b : Nat} (hb : b < 2) (hk : k < 2)
    (hmask : mask = (s.ints.slot src k).masked) :
    (s.slotWrite src k mask pend).ints.slot a b =
      if (a = src ∧ b = k) ∧ pend = true then (s.ints.slot a b).raised else s.ints.slot a b := by
  have hmasked : (s.ints.setSlot src k { s.ints.slot src k with masked := mask }).slot a b = s.ints.slot a b := by
    rw [hmask]
    exact s.ints.slot_setSlot_self src k hb hk
  unfold State.slotWrite
  cases pend with
  | false => simp [hmasked]
  | true => simp [State.raiseSlot_slot _ _ _ hb hk, hmasked]

/-- INT_SRC_STATE written with the MASK bits as they stand raises the slots whose PEND bits are written 1: slot 0 for the physical
function alone, slot 1 where the source has one (R396). -/
theorem State.srcWrite_slot_of_masked {src v : Nat} (fn : Nat) {a b : Nat} (hb : b < 2)
    (hmask0 : bit v 14 = (s.ints.slot src 0).masked) (hmask1 : hasSlot1 src = true → bit v 30 = (s.ints.slot src 1).masked) :
    (s.srcWrite fn src v).ints.slot a b =
      if a = src ∧ (b = 0 ∧ fn = 0 ∧ bit v 13 = true ∨ b = 1 ∧ hasSlot1 src = true ∧ bit v 29 = true)
      then (s.ints.slot a b).raised else s.ints.slot a b := by
  have hzero {c d : Nat} (hd : d < 2) : (if fn = 0 then s.slotWrite src 0 (bit v 14) (bit v 13) else s).ints.slot c d =
      if (c = src ∧ d = 0) ∧ fn = 0 ∧ bit v 13 = true then (s.ints.slot c d).raised else s.ints.slot c d := by
    split
    next hfn => simp only [hfn, true_and, s.slotWrite_slot_of_masked _ hd Nat.zero_lt_two hmask0]
    next hfn => simp only [hfn, false_and, and_false, if_false]
  unfold State.srcWrite
  cases hone : hasSlot1 src with
  | false => simp only [Bool.false_eq_true, if_false, hzero hb, false_and, and_false, or_false, and_assoc]
  | true =>
    have hmask : bit v 30 = ((if fn = 0 then s.slotWrite src 0 (bit v 14) (bit v 13) else s).ints.slot src 1).masked := by
      simpa [hzero Nat.one_lt_two] using hmask1 hone
    simp only [if_true, State.slotWrite_slot_of_masked _ _ hb Nat.one_lt_two hmask, hzero hb, true_and]
    obtain rfl | rfl : b = 0 ∨ b = 1 := by omega
    all_goals simp

/-! ### Nothing but the interrupt state and its counters -/

/-- Two states differ in the interrupt state and its two counters alone. -/
def State.intsOnly (u s : State) : Prop := u.keeps s [.regs, .ints] ∧ u.regsAs s [Reg.intUnrouted, Reg.intCoalesced]

theorem State.intsOnly_refl : s.intsOnly s := ⟨s.keeps_refl _, fun _ _ => rfl⟩

theorem State.intsOnly_trans {u v s : State} (h : u.intsOnly v) (k : v.intsOnly s) : u.intsOnly s :=
  ⟨State.keeps_trans h.1 k.1, fun o ho => (h.2 o ho).trans (k.2 o ho)⟩

theorem State.setInts_intsOnly (x : IntSt) : ({ s with ints := x } : State).intsOnly s :=
  ⟨State.keeps_mono (s.setSlotInts_keeps x) (by simp), fun _ _ => rfl⟩

theorem State.raiseSlot_intsOnly (src k : Nat) : (s.raiseSlot src k).intsOnly s :=
  ⟨s.raiseSlot_keeps src k, fun o ho => by simp at ho; exact s.raiseSlot_rd src k o ho.1 ho.2⟩

theorem State.raise_intsOnly (src : Nat) : (s.raise src).intsOnly s :=
  ⟨s.raise_keeps src, fun o ho => by simp at ho; exact s.raise_rd src o ho.1 ho.2⟩

theorem State.raiseMany_intsOnly (base v : Nat) : (s.raiseMany base v).intsOnly s := by
  unfold State.raiseMany
  induction maskBits 8 v generalizing s with
  | nil => exact s.intsOnly_refl
  | cons k l ih => exact State.intsOnly_trans (ih _) (s.raise_intsOnly _)

theorem State.slotWrite_intsOnly (src k : Nat) (mask pend : Bool) : (s.slotWrite src k mask pend).intsOnly s := by
  unfold State.slotWrite
  cases pend with
  | false => exact s.setInts_intsOnly _
  | true => exact State.intsOnly_trans (State.raiseSlot_intsOnly _ _ _) (s.setInts_intsOnly _)

theorem State.srcWrite_intsOnly (fn src v : Nat) : (s.srcWrite fn src v).intsOnly s := by
  have hzero : (if fn = 0 then s.slotWrite src 0 (bit v 14) (bit v 13) else s).intsOnly s := by
    split
    · exact s.slotWrite_intsOnly _ _ _ _
    · exact s.intsOnly_refl
  unfold State.srcWrite
  cases hasSlot1 src with
  | false => exact hzero
  | true => exact State.intsOnly_trans (State.slotWrite_intsOnly _ _ _ _ _) hzero

/-- A command that is a write of the interrupt state and its counters alone ends with the slots that the write has left, at its
device time. -/
theorem exec_of_intsOnly {i : Instr} {s : State} {a : RegAcc} {t : Nat} {f : State → State}
    (hexec : exec i s = (s.onWrite a t f).done) (hcalm : s.calm) (hreach : s.takesWrite a) (hf : ∀ v, (f v).intsOnly v) :
    ∃ u, exec i s = .next u ∧ u.time = (s.at t).time ∧ u.ints = (f (s.at t)).ints
      ∧ u.regsAs (s.at t) [Reg.intUnrouted, Reg.intCoalesced] ∧ u.keeps (s.at t) [.ints, .regs, .compl] := by
  obtain ⟨hkeeps, hregs⟩ := hf (s.at t)
  have hdev : (f (s.at t)).dev = (s.at t).dev := hkeeps .dev (by simp)
  have hfall : (f (s.at t)).writeEnd.dev.fall = none := (congrArg Dev.fall hdev).trans (State.at_calm t hcalm)
  have hend : (f (s.at t)).writeEnd.finish.keeps (s.at t) [.ints, .regs, .compl] :=
    State.finish_keeps_of hfall
      (State.keeps_trans (State.keeps_mono (State.setCompl_keeps _ _) (by simp)) (State.keeps_mono hkeeps (by simp)))
  exact ⟨_, hexec.trans (congrArg State.done (State.onWrite_of_takesWrite hreach t f)), hend .time (by simp), State.finish_ints _ hfall,
    fun o ho => (State.finish_rd _ hfall o).trans (hregs o ho), hend⟩

/-! ### Sources raised by writes -/

theorem intSwSetP_sub (p : Nat) : Reg.intSwSetP p - Reg.intSwSetP 0 = 4 * p :=
  Nat.add_sub_cancel_left (n := Reg.intSwSetP 0) (m := 4 * p)

theorem swSetP_intSwSetP (p : Nat) : swSetP (Reg.intSwSetP p) = p := by
  rw [swSetP, intSwSetP_sub, Nat.mul_div_cancel_left p (by decide)]

theorem among_intSwSetP {p : Nat} (hp : p < 8) : Reg.among (Reg.intSwSetP p) (Reg.intSwSetP 0) 8 4 = true := by
  have hbase : Reg.intSwSetP 0 ≤ Reg.intSwSetP p := Nat.le_add_right _ _
  simp [Reg.among, intSwSetP_sub, hbase, hp]

/-- The software sources of a partition have both slots. -/
theorem hasSlot1_of_isrcPart {p src : Nat} (hp : p < 8) (hlo : isrcPart p 24 ≤ src) (hhi : src < isrcPart p 24 + 8) :
    hasSlot1 src = true := by
  simp only [isrcPart] at hlo hhi
  simp only [hasSlot1, Bool.and_eq_true, decide_eq_true_eq]
  omega

/-- The fields of INT_SRC_STATE in the value that PEND_SET writes: both MASK bits as they stand, one PEND bit. -/
theorem pendValue_bits (mask0 mask1 one first : Bool) :
    let v := b2n mask0 * 2 ^ 14 + (if one then b2n mask1 * 2 ^ 30 else 0) + (if first then 2 ^ 13 else 2 ^ 29)
    bit v 14 = mask0 ∧ (one = true → bit v 30 = mask1) ∧ bit v 13 = first ∧ bit v 29 = !first := by
  revert mask0 mask1 one first
  decide

/-- The value that PEND_SET writes raises its slot alone. -/
theorem State.pendValue_srcWrite_slot {src slot fn : Nat} {a b : Nat} (hb : b < 2) (hslot : slot < 2) (hfn : slot = 0 → fn = 0)
    (hone : slot = 1 → hasSlot1 src = true) :
    (s.srcWrite fn src (s.srcMasks src + if slot = 0 then 2 ^ 13 else 2 ^ 29)).ints.slot a b =
      if a = src ∧ b = slot then (s.ints.slot a b).raised else s.ints.slot a b := by
  obtain ⟨hmask0, hmask1, hpend0, hpend1⟩ :=
    pendValue_bits (s.ints.slot src 0).masked (s.ints.slot src 1).masked (hasSlot1 src) (decide (slot = 0))
  simp only [decide_eq_true_eq] at hmask0 hmask1 hpend0 hpend1
  rw [State.srcMasks, s.srcWrite_slot_of_masked fn hb hmask0 hmask1, hpend0, hpend1]
  obtain rfl | rfl : slot = 0 ∨ slot = 1 := by omega
  · simp [hfn rfl]
  · simp [hone rfl]

/-- Settles O50: each write ends with the slots of its sources raised; the frame is that of a raise. -/
theorem softwareInterrupts : Obligations.SoftwareInterrupts := by
  unfold Obligations.SoftwareInterrupts
  refine ⟨fun a v t s hcalm hreach hbar hoff => ?_, fun a v t p s hcalm hreach hbar hp hoff => ?_,
    fun fn src slot t s hcalm hsrc hslot hreach hfn hone => ?_⟩
  · have hexec : exec (.intSwSetG a v t) s = (s.onWrite a t fun s => s.raiseMany 24 v).done := by
      simp [exec, execIntSwSetG, hoff, hbar]
    obtain ⟨u, hu, htime, hints, hregs, hkeeps⟩ := exec_of_intsOnly hexec hcalm hreach fun s => s.raiseMany_intsOnly 24 v
    refine ⟨u, hu, htime, fun src k hk => ?_, hregs, hkeeps⟩
    rw [hints, State.raiseMany_slot _ _ _ hk, State.at_ints]
    refine if_congr ⟨?_, fun ⟨hk0, hlo, hhi, hv⟩ => ⟨⟨hlo, hhi, hv⟩, .inl hk0⟩⟩ rfl rfl
    rintro ⟨⟨hlo, hhi, hv⟩, hk0 | hone⟩
    · exact ⟨hk0, hlo, hhi, hv⟩
    · exact absurd hone (by simp [hasSlot1, hhi])
  · have hexec : exec (.intSwSetP a v t) s = (s.onWrite a t fun s => s.raiseMany (isrcPart p 24) v).done := by
      simp [exec, execIntSwSetP, hoff, hbar, among_intSwSetP hp, swSetP_intSwSetP]
    obtain ⟨u, hu, htime, hints, hregs, hkeeps⟩ := exec_of_intsOnly hexec hcalm hreach fun s => s.raiseMany_intsOnly (isrcPart p 24) v
    refine ⟨u, hu, htime, fun src k hk => ?_, hregs, hkeeps⟩
    rw [hints, State.raiseMany_slot _ _ _ hk, State.at_ints]
    exact if_congr (and_iff_left_of_imp fun ⟨hlo, hhi, _⟩ => .inr (hasSlot1_of_isrcPart hp hlo hhi)) rfl rfl
  · have hexec : exec (.pendSet fn src slot t) s = (s.onWrite { fn, off := Reg.intSrcState src } t fun s =>
        s.srcWrite fn src (s.srcMasks src + if slot = 0 then 2 ^ 13 else 2 ^ 29)).done := by
      simp only [exec, execPendSet, hsrc, hslot, and_self, if_true]
    obtain ⟨u, hu, htime, hints, hregs, hkeeps⟩ := exec_of_intsOnly hexec hcalm hreach fun s => s.srcWrite_intsOnly fn src _
    refine ⟨u, hu, htime, fun a b hb => ?_, hregs, hkeeps⟩
    rw [hints, State.pendValue_srcWrite_slot _ hb hslot hfn hone, State.at_ints]

end Sys2Proof.Machine
end

section
/-! SUPPORT. The end of every command (R329, R338): each meaning answers a finished state, and the settling of the stop-request
outputs that closes it leaves no pair driven that must be off. -/

namespace Sys2Proof.Machine

set_option Elab.async false

/-! ### Every meaning ends in State.finish -/

/-- Whatever a command does, its answer is a finished state. -/
theorem exec_eq_finish (c : Instr) (s : State) : ∃ v : State, exec c s = .next v.finish := by
  cases c <;> exact ⟨_, rfl⟩

/-! ### Settling one pair -/

/-- Both wires of pair n are off. -/
def State.pairDark (s : State) (n : Nat) : Prop :=
  ((s.warden.outs.getD n {}).drvA || (s.warden.outs.getD n {}).drvB) = false

theorem State.outputsSafe_iff (s : State) : s.outputsSafe = true ↔ ∀ n < 8, s.pairOff n = true → s.pairDark n := by
  simp only [State.outputsSafe, State.pairDark, List.all_eq_true, List.mem_range, Bool.or_eq_true, Bool.not_eq_true',
    ← Bool.not_eq_true (s.pairOff _)]
  exact forall₂_congr fun _ _ => (imp_iff_not_or).symm

theorem getD_listSet {α : Type} (l : List α) (n i : Nat) (x d : α) :
    (listSet l n x).getD i d = if i = n ∧ n < l.length then x else l.getD i d := by
  simp only [listSet, List.getD_eq_getElem?_getD, List.getElem?_set]
  by_cases hi : n = i
  · subst hi
    by_cases hl : n < l.length <;> simp [hl]
  · simp [hi, Ne.symm hi]

/-- Neither wire of a pair that is driven off is driven. -/
theorem State.deEnergise_pairDark (s : State) (n : Nat) : (s.deEnergise n).pairDark n := by
  simp only [State.pairDark, State.deEnergise, getD_listSet, true_and]
  split
  · rfl
  · rw [List.getD_eq_default _ _ (by omega)]; rfl

/-- What driving pair n leaves of the others, and of the fault of every one. -/
theorem getD_drive (l : List OutPair) (n i : Nat) (b : Bool) :
    ((listSet l n ((l.getD n {}).drive b)).getD i {}).fault = (l.getD i {}).fault := by
  rw [getD_listSet]
  split
  next h => rw [h.1]; rfl
  next => rfl

/-- Only output faults, latches, the configuration and the warden state say which pairs must be off. -/
theorem State.pairOff_congr {u s : State} (n : Nat) (hup : u.dev.up = s.dev.up) (hcfg : u.loader = s.loader)
    (hstate : u.warden.state = s.warden.state) (hchA : u.warden.chA = s.warden.chA) (hchB : u.warden.chB = s.warden.chB)
    (hestop : u.warden.estopLat = s.warden.estopLat) (hen : u.warden.enMid = s.warden.enMid)
    (hfault : (u.warden.outs.getD n {}).fault = (s.warden.outs.getD n {}).fault) : u.pairOff n = s.pairOff n := by
  have hlatched : u.latched = s.latched := by
    funext m
    simp only [State.latched, State.estopOk, State.sglob, State.msafe, State.cfg, hcfg, hestop, hen]
  have hnamers : u.namers n = s.namers n := by
    simp only [State.namers, State.mechNums, State.mech?, State.msafe, State.cfg, hcfg]
  simp only [State.pairOff, State.allOff, hnamers, hlatched, hup, hstate, hchA, hchB, hfault]

theorem State.settlePair_eq (s : State) (n : Nat) :
    s.settlePair n = s ∨ s.settlePair n = s.deEnergise n
      ∨ s.pairOff n = false ∧ s.settlePair n =
          { s with warden := { s.warden with outs := listSet s.warden.outs n ((s.warden.outs.getD n {}).drive true) } } := by
  unfold State.settlePair
  dsimp only
  split
  · split
    · exact .inr (.inl rfl)
    · exact .inl rfl
  next hoff =>
    split
    · exact .inr (.inr ⟨by simpa using hoff, rfl⟩)
    · exact .inl rfl

/-- Settling a pair changes no reason for a pair to be off. -/
@[simp] theorem State.settlePair_pairOff (s : State) (n i : Nat) : (s.settlePair n).pairOff i = s.pairOff i := by
  rcases s.settlePair_eq n with h | h | ⟨-, h⟩ <;> rw [h]
  · exact State.pairOff_congr i rfl rfl rfl rfl rfl rfl rfl (getD_drive _ _ _ _)
  · exact State.pairOff_congr i rfl rfl rfl rfl rfl rfl rfl (getD_drive _ _ _ _)

/-- A pair that is settled stands off where it must. -/
theorem State.settlePair_pairDark_same (s : State) (n : Nat) (hoff : s.pairOff n = true) : (s.settlePair n).pairDark n := by
  simp only [State.settlePair, hoff, if_true]
  split
  · exact s.deEnergise_pairDark n
  next h => simpa [State.pairDark] using h

/-- Settling another pair does not light a pair that must be off. -/
theorem State.settlePair_pairDark (s : State) (n : Nat) {i : Nat} (hoff : s.pairOff i = true) (hdark : s.pairDark i) :
    (s.settlePair n).pairDark i := by
  by_cases hin : i = n
  · subst hin; exact s.settlePair_pairDark_same i hoff
  · have hne (x : OutPair) : (listSet s.warden.outs n x).getD i {} = s.warden.outs.getD i {} := by
      rw [getD_listSet, if_neg fun h => hin h.1]
    rcases s.settlePair_eq n with h | h | ⟨-, h⟩ <;> rw [h]
    · exact hdark
    all_goals simpa only [State.pairDark, State.deEnergise, hne] using hdark

/-! ### Settling every pair -/

@[simp] theorem State.foldl_settlePair_pairOff (l : List Nat) (s : State) (i : Nat) :
    (l.foldl State.settlePair s).pairOff i = s.pairOff i :=
  foldl_field (fun s => s.pairOff i) _ (fun s n => s.settlePair_pairOff n i) l s

theorem State.foldl_settlePair_pairDark (l : List Nat) (s : State) {i : Nat} (hoff : s.pairOff i = true)
    (h : i ∈ l ∨ s.pairDark i) : (l.foldl State.settlePair s).pairDark i := by
  induction l generalizing s with
  | nil => simpa using h
  | cons n r ih =>
    refine ih _ (by simpa using hoff) ?_
    rcases h with h | h
    · rcases List.mem_cons.mp h with rfl | h
      · exact .inr (s.settlePair_pairDark_same _ hoff)
      · exact .inl h
    · exact .inr (s.settlePair_pairDark n hoff h)

/-- A settled state has safe outputs, whatever stood before. -/
theorem State.settle_outputsSafe (s : State) : s.settle.outputsSafe = true := by
  rw [State.outputsSafe_iff]
  intro n hn hoff
  rw [State.settle, State.foldl_settlePair_pairOff] at hoff
  exact State.foldl_settlePair_pairDark _ _ hoff (.inl (List.mem_range.mpr hn))

theorem State.finish_outputsSafe (s : State) : s.finish.outputsSafe = true := State.settle_outputsSafe _

/-- A finished state's pair that must be off stands off. -/
theorem State.finish_pairDark (s : State) {n : Nat} (hn : n < 8) (hoff : s.finish.pairOff n = true) : s.finish.pairDark n :=
  (State.outputsSafe_iff _).mp s.finish_outputsSafe n hn hoff

/-! ### What every step does -/

/-- Settles O1: both sides unfold to the same branch of the step. -/
theorem stepRunsTheFrontCommand : Obligations.StepRunsTheFrontCommand := by
  intro c r s hpending
  simp [step, hpending]

/-- Settles O2, by the step's branch of an empty queue. -/
theorem emptyQueueIdles : Obligations.EmptyQueueIdles := by
  intro s hpending
  simp [step, hpending]

/-- Settles O3: every meaning answers a finished state. -/
theorem noCommandStops : Obligations.NoCommandStops := fun c s =>
  have ⟨v, hv⟩ := exec_eq_finish c s
  ⟨v.finish, hv⟩

/-- Settles O5: a step idles, or its command ends with every pair settled. -/
theorem outputsStaySafe : Obligations.OutputsStaySafe := by
  intro s u hsafe hstep
  cases hq : s.pending with
  | nil =>
    rw [emptyQueueIdles s hq] at hstep
    cases hstep
    exact hsafe
  | cons c r =>
    rw [stepRunsTheFrontCommand c r s hq] at hstep
    obtain ⟨v, hv⟩ := exec_eq_finish c { s with pending := r }
    rw [hv, Host.Outcome.next.injEq] at hstep
    exact hstep ▸ v.finish_outputsSafe

/-- Settles O6: no output pair of the reset state is driven, so none that must be off is. -/
theorem outputsSafeAtReset : Obligations.OutputsSafeAtReset := by
  have hdark : ∀ n, State.reset.pairDark n := fun n => by
    have hall : ∀ x ∈ State.reset.warden.outs, x = {} := by decide
    have : State.reset.warden.outs.getD n {} = {} := by
      rw [List.getD_eq_getElem?_getD]
      cases h : State.reset.warden.outs[n]? with
      | none => rfl
      | some x => exact hall x (List.mem_of_getElem? h)
    rw [State.pairDark, this]
    rfl
  exact ⟨(State.outputsSafe_iff _).mpr fun n _ _ => hdark n, hdark⟩

/-- Settles O7: no register is held in regs at reset, so each reads its reset value, and those that the table names are given. -/
theorem resetRegisters : Obligations.ResetRegisters := by
  refine ⟨fun o => rfl, by decide, by decide, by decide, by decide, rfl, rfl, rfl, fun p => ?_, rfl, rfl, rfl⟩
  have hall : ∀ x ∈ State.reset.parts, x.st = .unconfigured := by decide
  rw [State.prun, List.getD_eq_getElem?_getD]
  cases h : State.reset.parts[p]? with
  | none => rfl
  | some x => exact hall x (List.mem_of_getElem? h)

/-! ### Accesses that are not supported -/

/-- An access that ends with an unsupported-request status changes the completion alone. -/
theorem State.finish_urEnd (s : State) (hcalm : s.calm) :
    s.urEnd.finish.compl = some { ur := true } ∧ s.urEnd.finish.keeps s [.compl] :=
  ⟨State.finish_compl _ hcalm, State.finish_keeps_of hcalm (s.setCompl_keeps _)⟩

/-- Settles O10: either access answers before its register is looked at; width and alignment come first in what is unsupported. -/
theorem unsupportedAccesses : Obligations.UnsupportedAccesses := by
  refine ⟨fun a v t s hcalm hup hun => ?_, fun a t s hcalm hup hun => ?_, fun a s w hbad => ?_⟩
  · have hexec : exec (.registerWrite a v t) s = .next (s.at t).urEnd.finish := by
      simp only [exec, execRegisterWrite]
      cases a.bar <;> simp [State.onWrite, State.done, hup, hun]
    exact ⟨_, hexec, State.finish_urEnd _ (State.at_calm t hcalm)⟩
  · have hexec : exec (.readClear a t) s = .next (s.at t).urEnd.finish := by
      simp [exec, execReadClear, State.readReg, State.done, hup, hun]
    exact ⟨_, hexec, State.finish_urEnd _ (State.at_calm t hcalm)⟩
  · rcases hbad with h | h <;> simp [State.unsupported, h]

end Sys2Proof.Machine
end

section
/-! SUPPORT. Frames of the shared operations: what each operation that several commands use may change, said once, and how frames
are put together along an operation's definition. -/

namespace Sys2Proof.Machine

set_option Elab.async false

/-! ### Frames put together -/

/-- An operation's frame behind another's. -/
theorem State.keeps.after {w u s : State} {l m : List Piece} (hf : w.keeps u l) (h : u.keeps s m)
    (hl : ∀ c ∈ l, c ∈ m := by decide) : w.keeps s m :=
  State.keeps_trans (State.keeps_mono hf hl) h

/-- A frame that names more pieces. -/
theorem State.keeps.widen {u s : State} {l m : List Piece} (h : u.keeps s l) (hl : ∀ c ∈ l, c ∈ m := by decide) : u.keeps s m :=
  State.keeps_mono h hl

theorem State.keeps_ite {c : Prop} [Decidable c] {a b s : State} {l : List Piece} (ha : a.keeps s l) (hb : b.keeps s l) :
    (if c then a else b).keeps s l := by
  split
  · exact ha
  · exact hb

/-- A fold of an operation behind a frame. -/
theorem State.keeps_foldl {α : Type} {f : State → α → State} {l : List Piece} {u s : State} (hf : ∀ v x, (f v x).keeps v l)
    (h : u.keeps s l) (xs : List α) : (xs.foldl f u).keeps s l :=
  State.keeps_trans (foldl_keeps f l hf xs u) h

/-- A frame, field by field: for a state written as an update of another it is closed by `simp`. -/
theorem State.keeps_iff (u s : State) (l : List Piece) : u.keeps s l ↔
    (.time ∈ l ∨ u.time = s.time) ∧ (.fuses ∈ l ∨ u.fuses = s.fuses) ∧ (.dev ∈ l ∨ u.dev = s.dev)
    ∧ (.regs ∈ l ∨ ∀ o, u.regs.get (Reg.resetOf o) o = s.regs.get (Reg.resetOf o) o)
    ∧ (.latches ∈ l ∨ u.hi = s.hi ∧ u.lo = s.lo) ∧ (.compl ∈ l ∨ u.compl = s.compl) ∧ (.loader ∈ l ∨ u.loader = s.loader)
    ∧ (.parts ∈ l ∨ u.parts = s.parts) ∧ (.fld ∈ l ∨ u.fld = s.fld) ∧ (.cores ∈ l ∨ u.cores = s.cores)
    ∧ (.sched ∈ l ∨ u.sched = s.sched) ∧ (.sync ∈ l ∨ u.sync = s.sync) ∧ (.warden ∈ l ∨ u.warden.still = s.warden.still)
    ∧ (.errs ∈ l ∨ u.errs = s.errs) ∧ (.rots ∈ l ∨ u.rots = s.rots) ∧ (.ints ∈ l ∨ u.ints = s.ints)
    ∧ (.ktl ∈ l ∨ u.ktl.still = s.ktl.still) ∧ (.hqs ∈ l ∨ u.hqs = s.hqs) ∧ (.fif ∈ l ∨ u.fif = s.fif)
    ∧ (.links ∈ l ∨ u.links.still = s.links.still) ∧ (.arrs ∈ l ∨ u.arrs = s.arrs) ∧ (.engs ∈ l ∨ u.engs = s.engs)
    ∧ (.round ∈ l ∨ u.round = s.round) ∧ (.tdcSeen ∈ l ∨ u.tdcSeen = s.tdcSeen) ∧ (.traceQ ∈ l ∨ u.traceQ = s.traceQ)
    ∧ (.mem ∈ l ∨ (∀ x, u.mem.get 0#8 x = s.mem.get 0#8 x) ∧ ∀ x, u.psn.get false x = s.psn.get false x)
    ∧ (.host ∈ l ∨ u.hostW = s.hostW) ∧ (.fresh ∈ l ∨ u.fresh = s.fresh) ∧ (.queue ∈ l ∨ u.pending = s.pending) := by
  have hpiece (c : Piece) : (c ∉ l → u.sameIn s c) ↔ (c ∈ l ∨ u.sameIn s c) := by rw [or_iff_not_imp_left]
  have hall : u.keeps s l ↔ ∀ c, (c ∈ l ∨ u.sameIn s c) := forall_congr' hpiece
  rw [hall]
  have hregs : u.sameIn s .regs ↔ ∀ o, u.regs.get (Reg.resetOf o) o = s.regs.get (Reg.resetOf o) o := by
    simp [State.sameIn, State.regsAs, State.rd]
  have hmem : u.sameIn s .mem ↔ (∀ x, u.mem.get 0#8 x = s.mem.get 0#8 x) ∧ ∀ x, u.psn.get false x = s.psn.get false x := by
    simp [State.sameIn, State.memAs]
  rw [← hregs, ← hmem]
  constructor
  · intro h
    exact ⟨h .time, h .fuses, h .dev, h .regs, h .latches, h .compl, h .loader, h .parts, h .fld, h .cores, h .sched, h .sync,
      h .warden, h .errs, h .rots, h .ints, h .ktl, h .hqs, h .fif, h .links, h .arrs, h .engs, h .round, h .tdcSeen, h .traceQ,
      h .mem, h .host, h .fresh, h .queue⟩
  · rintro ⟨htime, hfuses, hdev, hregs, hlatches, hcompl, hloader, hparts, hfld, hcores, hsched, hsync, hwarden, herrs, hrots, hints,
      hktl, hhqs, hfif, hlinks, harrs, hengs, hround, htdc, htrace, hmem, hhost, hfresh, hqueue⟩ c
    cases c <;> assumption

/-! ### One field updated -/

variable (s : State)

theorem State.setTime_keeps (x : Nat) : ({ s with time := x } : State).keeps s [.time] := (State.keeps_iff _ _ _).mpr (by simp)
theorem State.setDev_keeps (x : Dev) : ({ s with dev := x } : State).keeps s [.dev] := (State.keeps_iff _ _ _).mpr (by simp)
theorem State.setLoader_keeps (x : Loader) : ({ s with loader := x } : State).keeps s [.loader] := (State.keeps_iff _ _ _).mpr (by simp)
theorem State.setParts_keeps (x : List PRun) : ({ s with parts := x } : State).keeps s [.parts] := (State.keeps_iff _ _ _).mpr (by simp)
theorem State.setFld_keeps (x : FldSt) : ({ s with fld := x } : State).keeps s [.fld] := (State.keeps_iff _ _ _).mpr (by simp)
theorem State.setCores_keeps (x : List CoreSt) : ({ s with cores := x } : State).keeps s [.cores] := (State.keeps_iff _ _ _).mpr (by simp)
theorem State.setSched_keeps (x : List SchedDie) : ({ s with sched := x } : State).keeps s [.sched] := (State.keeps_iff _ _ _).mpr (by simp)
theorem State.setSync_keeps (x : SyncSt) : ({ s with sync := x } : State).keeps s [.sync] := (State.keeps_iff _ _ _).mpr (by simp)
theorem State.setWarden_keeps (x : Warden) : ({ s with warden := x } : State).keeps s [.warden] := (State.keeps_iff _ _ _).mpr (by simp)
theorem State.setErrs_keeps (x : ErrColl) : ({ s with errs := x } : State).keeps s [.errs] := (State.keeps_iff _ _ _).mpr (by simp)
theorem State.setRots_keeps (x : List Rotation) : ({ s with rots := x } : State).keeps s [.rots] := (State.keeps_iff _ _ _).mpr (by simp)
theorem State.setKtl_keeps (x : Kettle) : ({ s with ktl := x } : State).keeps s [.ktl] := (State.keeps_iff _ _ _).mpr (by simp)
theorem State.setHqs_keeps (x : List HQueue) : ({ s with hqs := x } : State).keeps s [.hqs] := (State.keeps_iff _ _ _).mpr (by simp)
theorem State.setFif_keeps (x : FieldIf) : ({ s with fif := x } : State).keeps s [.fif] := (State.keeps_iff _ _ _).mpr (by simp)
theorem State.setLinks_keeps (x : Links) : ({ s with links := x } : State).keeps s [.links] := (State.keeps_iff _ _ _).mpr (by simp)
theorem State.setArrs_keeps (x : List ArrSt) : ({ s with arrs := x } : State).keeps s [.arrs] := (State.keeps_iff _ _ _).mpr (by simp)
theorem State.setEngs_keeps (x : List EngSt) : ({ s with engs := x } : State).keeps s [.engs] := (State.keeps_iff _ _ _).mpr (by simp)
theorem State.setRound_keeps (x : Round) : ({ s with round := x } : State).keeps s [.round] := (State.keeps_iff _ _ _).mpr (by simp)
theorem State.setTraceQ_keeps (x : List TraceRec) : ({ s with traceQ := x } : State).keeps s [.traceQ] := (State.keeps_iff _ _ _).mpr (by simp)
theorem State.setFresh_keeps (x : Nat) : ({ s with fresh := x } : State).keeps s [.fresh] := (State.keeps_iff _ _ _).mpr (by simp)
theorem State.setLatches_keeps (x y : Tab (Option Word)) : ({ s with hi := x, lo := y } : State).keeps s [.latches] :=
  (State.keeps_iff _ _ _).mpr (by simp)
theorem State.setMem_keeps (x : Tab Byte) (y : Tab Bool) : ({ s with mem := x, psn := y } : State).keeps s [.mem] :=
  (State.keeps_iff _ _ _).mpr (by simp)

/-! ### One element of a list of the state replaced -/

theorem State.setCore_keeps (k : Nat) (c : CoreSt) : (s.setCore k c).keeps s [.cores] := s.setCores_keeps _
theorem State.setSch_keeps (d : Nat) (x : SchedDie) : (s.setSch d x).keeps s [.sched] := s.setSched_keeps _
theorem State.setEng_keeps (i : Nat) (x : EngSt) : (s.setEng i x).keeps s [.engs] := s.setEngs_keeps _
theorem State.setArr_keeps (d : Nat) (x : ArrSt) : (s.setArr d x).keeps s [.arrs] := s.setArrs_keeps _
theorem State.setHq_keeps (fn q : Nat) (x : HQueue) : (s.setHq fn q x).keeps s [.hqs] := s.setHqs_keeps _
theorem State.setTask_keeps (d : Nat) (x : TaskSt) : (s.setTask d x).keeps s [.sched] := s.setSched_keeps _
theorem State.setDom_keeps (n : Nat) (x : Dom) : (s.setDom n x).keeps s [.ktl] := s.setKtl_keeps _
theorem State.setFault_keeps (x : FaultSt) : (s.setFault x).keeps s [.errs] := s.setErrs_keeps _
theorem State.toHost_keeps (a : Nat) (b : List Byte) : (s.toHost a b).keeps s [.host] := (State.keeps_iff _ _ _).mpr (by simp)

/-! ### Memory -/

theorem State.mark_keeps (a n : Nat) (bad : Bool) : (s.mark a n bad).keeps s [.mem] := s.setMem_keeps _ _
theorem State.zero_keeps (a n : Nat) : (s.zero a n).keeps s [.mem] := s.setMem_keeps _ _
theorem State.wipe_keeps (p : Nat → Bool) : (s.wipe p).keeps s [.mem] := s.setMem_keeps _ _
theorem State.setTword_keeps (w : TWord) (v : TVal) : (s.setTword w v).keeps s [.mem] := s.poke_keeps _ _

/-! ### Interrupts, refusals and trace records -/

theorem State.raiseP_keeps (p i : Nat) : (s.raiseP p i).keeps s [.regs, .ints] := s.raise_keeps _

/-- A refused request counts, latches its registers, and writes one error record. -/
theorem State.refuse_keeps (tag a : Nat) (write : Bool) : (s.refuse tag a write).keeps s [.fresh, .errs, .mem, .regs, .ints] :=
  (State.log_keeps _ _).after <| (State.raise_keeps _ _).after <| (State.wr64_keeps _ _ _).after <| (State.wr_keeps _ _ _).after <|
    (s.inc_keeps _ _).widen

theorem State.makeTrace_keeps (r : TraceRec) : (s.makeTrace r).keeps s [.fresh, .errs, .mem, .regs, .ints, .traceQ] := by
  unfold State.makeTrace
  split
  · exact s.keeps_refl _
  · exact State.keeps_ite (s.refuse_keeps _ _ _).widen (s.setTraceQ_keeps _).widen

theorem State.trace_keeps (d ev core : Nat) (i : Item) (arg : Nat) :
    (s.trace d ev core i arg).keeps s [.fresh, .errs, .mem, .regs, .ints, .traceQ] := by
  unfold State.trace
  split
  · exact State.keeps_ite (s.keeps_refl _) (s.makeTrace_keeps _)
  · exact s.keeps_refl _

/-! ### Domains woken -/

theorem State.shut_keeps (g : Nat) : (s.shut g).keeps s [.mem, .regs] := s.store_keeps _ _

theorem State.wakeDom_keeps (n : Nat) : (s.wakeDom n).keeps s [.ktl, .mem, .regs] :=
  State.keeps_ite (State.keeps_ite ((State.shut_keeps _ _).after (s.setDom_keeps _ _).widen) (s.setDom_keeps _ _).widen) (s.keeps_refl _)

theorem State.touchDom_keeps (n : Nat) : (s.touchDom n).keeps s [.ktl, .mem, .regs] :=
  State.keeps_ite ((State.inc_keeps _ _ _).after (s.wakeDom_keeps n)) (s.keeps_refl _)

theorem State.touch_keeps (a n : Nat) : (s.touch a n).keeps s [.ktl, .mem, .regs] :=
  State.keeps_foldl (fun s n => s.touchDom_keeps n) (s.keeps_refl _) _

/-! ### Runs and solvings ended -/

theorem State.countRun_keeps (d : Nat) (r : ARun) (result : Nat) : (s.countRun d r result).keeps s [.regs, .ints, .tdcSeen] :=
  State.keeps_ite ((State.tdc_keeps _ _ _ _).after (s.inc_keeps _ _).widen) <| State.keeps_ite (s.tdc_keeps _ _ _) <|
    State.keeps_ite ((State.tdc_keeps _ _ _ _).after (s.inc_keeps _ _).widen) <|
    State.keeps_ite ((State.tdc_keeps _ _ _ _).after (s.inc_keeps _ _).widen) <| State.keeps_ite (s.inc_keeps _ _).widen (s.keeps_refl _)

theorem State.endRun_keeps (d : Nat) (r : ARun) (result t : Nat) : (s.endRun d r result t).keeps s [.arrs, .regs, .ints, .tdcSeen] :=
  State.keeps_ite (s.setArr_keeps _ _).widen <| (State.raiseP_keeps _ _ _).after <| (State.countRun_keeps _ _ _ _).after
    (s.setArr_keeps _ _).widen

theorem State.endRuns_keeps (d : Nat) (p : ARun → Bool) (result t : Nat) :
    (s.endRuns d p result t).keeps s [.arrs, .regs, .ints, .tdcSeen] :=
  State.keeps_foldl (fun s r => s.endRun_keeps d r result t) (s.keeps_refl _) _

theorem State.startRunOn_keeps (p : Nat) (n : Net) (frame t d : Nat) :
    (s.startRunOn p n frame t d).keeps s [.arrs, .regs, .ints, .tdcSeen, .ktl, .mem] := by
  unfold State.startRunOn
  refine State.keeps_ite ((State.setArr_keeps _ _ _).after <| State.keeps_foldl (fun s g => (s.wakeDom_keeps _).widen) ?_ _)
    (s.keeps_refl _)
  split
  · exact (s.endRun_keeps _ _ _ _).widen
  · exact s.keeps_refl _

theorem State.startRun_keeps (p : Nat) (n : Net) (frame t : Nat) :
    (s.startRun p n frame t).keeps s [.arrs, .regs, .ints, .tdcSeen, .ktl, .mem] :=
  (State.startRunOn_keeps _ _ _ _ _ _).after (s.startRunOn_keeps _ _ _ _ _)

theorem State.noResult_keeps (i : Nat) : (s.noResult i).keeps s [.engs, .regs, .ints, .tdcSeen] :=
  State.keeps_ite ((State.tdc_keeps _ _ _ _).after (s.setEng_keeps _ _).widen) (s.keeps_refl _)

/-! ### Partitions stopped -/

theorem State.stopPart_keeps (p t : Nat) : (s.stopPart p t).keeps s [.parts] := State.keeps_ite (s.setPRun_keeps _ _) (s.keeps_refl _)

theorem State.stopUnable_keeps (ref t : Nat) : (s.stopUnable ref t).keeps s [.parts, .fresh, .errs, .mem, .regs, .ints] :=
  State.keeps_foldl (fun s p => (State.log_keeps _ _).after (s.stopPart_keeps p t).widen) (s.keeps_refl _) _

/-! ### Completions of host queues -/

theorem State.postOne_keeps (fn q : Nat) : (s.postOne fn q).keeps s [.hqs, .host, .regs, .ints] := by
  unfold State.postOne
  dsimp only
  split
  · exact s.keeps_refl _
  · have hposted (a : Nat) (b : List Byte) (x : HQueue) : ((s.toHost a b).setHq fn q x).keeps s [.hqs, .host, .regs, .ints] :=
      (State.setHq_keeps _ _ _ _).after (s.toHost_keeps _ _).widen
    exact State.keeps_ite (s.keeps_refl _) <| State.keeps_ite ((State.raiseP_keeps _ _ _).after (hposted _ _ _)) (hposted _ _ _)

theorem State.postReady_keeps (fn q : Nat) : (s.postReady fn q).keeps s [.hqs, .host, .regs, .ints] :=
  State.keeps_foldl (fun s _ => s.postOne_keeps fn q) (s.keeps_refl _) _

theorem State.complete_keeps (fn q cid status result : Nat) (notify : Bool) :
    (s.complete fn q cid status result notify).keeps s [.hqs, .host, .regs, .ints] :=
  State.keeps_ite (s.keeps_refl _) ((State.postReady_keeps _ _ _).after (s.setHq_keeps _ _ _).widen)

theorem State.copyDone_keeps (fn q status result : Nat) : (s.copyDone fn q status result).keeps s [.hqs, .host, .regs, .ints] := by
  unfold State.copyDone
  dsimp only
  split
  · exact s.keeps_refl _
  · exact State.keeps_ite (s.setHq_keeps _ _ _).widen ((State.complete_keeps _ _ _ _ _ _ _).after (s.setHq_keeps _ _ _).widen)

theorem State.abortCopies_keeps (fn : Nat) : (s.abortCopies fn).keeps s [.hqs, .host, .regs, .ints] :=
  State.keeps_foldl (fun s q => s.copyDone_keeps fn q _ _) (s.keeps_refl _) _

theorem State.hqEnd_keeps (fn q status result : Nat) : (s.hqEnd fn q status result).keeps s [.hqs, .host, .regs, .ints] := by
  unfold State.hqEnd
  split
  · exact s.keeps_refl _
  · exact (State.complete_keeps _ _ _ _ _ _ _).after (s.setHq_keeps _ _ _).widen

/-! ### Items that no core can take -/

/-- An item other than a HOST item fails within its die's scheduling. -/
theorem State.failItem_keeps_of_ne_host (d : Nat) (i : Item) (h : i.kind ≠ tkHOST) :
    (s.failItem d i).keeps s [.fresh, .errs, .mem, .regs, .ints, .traceQ] := by
  simp only [State.failItem, h, if_false]
  exact (State.log_keeps _ _).after <| (State.trace_keeps _ _ _ _ _ _).after (s.inc_keeps _ _).widen

theorem State.failItem_keeps (d : Nat) (i : Item) :
    (s.failItem d i).keeps s [.fresh, .errs, .mem, .regs, .ints, .traceQ, .hqs, .host] :=
  State.keeps_ite
    ((State.copyDone_keeps _ _ _ _ _).after <| (State.log_keeps _ _).after <| (State.trace_keeps _ _ _ _ _ _).after
      (s.inc_keeps _ _).widen)
    ((State.log_keeps _ _).after <| (State.trace_keeps _ _ _ _ _ _).after (s.inc_keeps _ _).widen)

/-- The pieces that items taken from a core or a die change: its queues, what failed items count, record and answer. -/
def failPieces : List Piece := [.sched, .fresh, .errs, .mem, .regs, .ints, .traceQ, .hqs, .host]

theorem State.failUnserved_keeps (d : Nat) : (s.failUnserved d).keeps s failPieces :=
  State.keeps_ite (s.keeps_refl _) (State.keeps_foldl (fun s i => (s.failItem_keeps d i).widen) (s.setSch_keeps _ _).widen _)

/-! ### A unit that leaves service -/

theorem State.unhost_keeps (k : Nat) : (s.unhost k).keeps s [.engs, .cores, .regs, .ints, .tdcSeen] :=
  (State.setCore_keeps _ _ _).after <| (State.inc_keeps _ _ _).after <| State.keeps_foldl
    (fun s i => State.keeps_ite ((State.setEng_keeps _ _ _).after (s.noResult_keeps i).widen) (s.keeps_refl _)) (s.keeps_refl _) _

theorem State.returnSlots_keeps (k : Nat) : (s.returnSlots k).keeps s [.sched, .fresh, .errs, .mem, .regs, .ints, .traceQ] :=
  State.keeps_foldl (fun s i => (s.trace_keeps _ _ _ i _).widen) (s.setSch_keeps _ _).widen _

theorem State.readmit_keeps (k : Nat) : (s.readmit k).keeps s [.sched, .cores] :=
  (State.setCore_keeps _ _ _).after <| State.keeps_foldl (fun s _ => (s.setSch_keeps _ _).widen) (s.keeps_refl _) _

theorem State.discardBuf_keeps (k : Nat) : (s.discardBuf k).keeps s [.mem, .cores, .regs, .ints, .tdcSeen] :=
  (State.setCore_keeps _ _ _).after <| (State.zero_keeps _ _ _).after <| State.keeps_foldl
    (fun s _ => State.keeps_ite (s.keeps_refl _) ((State.tdc_keeps _ _ _ _).after (s.inc_keeps _ _).widen)) (s.keeps_refl _) _

theorem State.replayLane_keeps (k : Nat) : (s.replayLane k).keeps s [.cores] := s.setCore_keeps _ _

theorem State.endLoan_keeps (k : Nat) : (s.endLoan k).keeps s [.ktl] := State.keeps_ite (s.setKtl_keeps _) (s.keeps_refl _)

theorem State.reissue_keeps (k : Nat) : (s.reissue k).keeps s [.sched, .sync, .ktl, .cores] :=
  (State.setCore_keeps _ _ _).after <| (State.setSch_keeps _ _ _).after <| (State.endLoan_keeps _ _).after (s.setSync_keeps _).widen

theorem State.listRetired_keeps (u sub : Nat) : (s.listRetired u sub).keeps s [.errs] :=
  State.keeps_ite (s.setErrs_keeps _) (s.setErrs_keeps _)

theorem State.dropSlices_keeps (u : Nat) : (s.dropSlices u).keeps s [.rots] := s.setRots_keeps _

theorem State.powerOff_keeps (u : Nat) : (s.powerOff u).keeps s [.ktl] :=
  State.keeps_ite (s.setDom_keeps _ _) <| State.keeps_ite (State.keeps_foldl (fun s _ => s.setDom_keeps _ _) (s.keeps_refl _) _) <|
    State.keeps_ite (s.setDom_keeps _ _) (s.keeps_refl _)

/-- The pieces that a unit's retirement may change. -/
def retirePieces : List Piece :=
  [.errs, .regs, .ints, .fresh, .mem, .rots, .cores, .sched, .engs, .arrs, .sync, .ktl, .tdcSeen, .traceQ, .hqs, .host, .parts, .fld]

theorem State.retireOne_keeps (u sub ref t : Nat) : (s.retireOne u sub ref t).keeps s retirePieces := by
  unfold State.retireOne
  refine State.keeps_ite (s.keeps_refl _) ?_
  have hlisted : ((((s.listRetired u sub).log
      { kind := ekRETIRED, act := 7, unit := u + sub * 4096, time := t, ref }).inc Reg.errRetireCount).raise isrcRETIRED).keeps s
      retirePieces :=
    (State.raise_keeps _ _).after <| (State.inc_keeps _ _ _).after <| (State.log_keeps _ _).after (s.listRetired_keeps _ _).widen
  have hout := State.keeps_ite (c := sub = 0) ((State.dropSlices_keeps _ u).after hlisted) hlisted
  refine State.keeps_ite ((State.setFault_keeps _ _).after ((State.replayLane_keeps _ _).after hout)) <| State.keeps_ite ?_ <|
    State.keeps_ite ((State.powerOff_keeps _ _).after ((State.noResult_keeps _ _).after hout)) <|
    State.keeps_ite ((State.powerOff_keeps _ _).after ((State.endRuns_keeps _ _ _ _ _).after hout)) ((State.powerOff_keeps _ _).after hout)
  have hcore := (State.failUnserved_keeps _ (u / 512)).after <| (State.reissue_keeps _ (u / 512 * 64 + u % 512)).after <|
    (State.readmit_keeps _ (u / 512 * 64 + u % 512)).after <| (State.returnSlots_keeps _ (u / 512 * 64 + u % 512)).after <|
    (State.unhost_keeps _ (u / 512 * 64 + u % 512)).after hout
  have hbuf (c : Prop) [Decidable c] := State.keeps_ite (c := c) ((State.discardBuf_keeps _ (u / 512 * 64 + u % 512)).after hcore) hcore
  exact State.keeps_ite (hbuf _) ((State.powerOff_keeps _ _).after (hbuf _))

theorem State.retire_keeps (u sub ref t : Nat) : (s.retire u sub ref t).keeps s retirePieces := by
  have hone := s.retireOne_keeps u sub ref t
  have hlane := State.keeps_ite (c := sub ≠ 0 ∧ (((s.retireOne u sub ref t).lanesOut (u / 512 * 64 + u % 512)
    (if sub ≤ 4 then 1 else 5)).length = 4)) ((State.retireOne_keeps _ u 0 ref t).after hone) hone
  exact (State.stopUnable_keeps _ _ _).after <| State.keeps_ite
    (State.keeps_foldl (fun s _ => s.retireOne_keeps _ _ _ _) ((State.setFld_keeps _ _).after hlane) _) hlane

theorem State.isolate_keeps (u ref t : Nat) : (s.isolate u ref t).keeps s retirePieces := by
  have hcount := (s.inc_keeps Reg.errLasting 1).widen (m := retirePieces)
  have hslices (x : FaultSt) (r : List Rotation) :
      ({ (s.inc Reg.errLasting).setFault x with rots := r } : State).keeps s retirePieces :=
    (State.setRots_keeps _ _).after ((State.setFault_keeps _ _).after hcount)
  exact State.keeps_ite
    (State.keeps_ite
      ((State.failUnserved_keeps _ _).after <| (State.returnSlots_keeps _ _).after <| (State.unhost_keeps _ _).after (hslices _ _))
      (hslices _ _)) <|
    State.keeps_ite ((State.retire_keeps _ _ _ _ _).after hcount) hcount

/-- The pieces that a trigger of a class S fault that names a die may change beside what its event does. -/
theorem State.dieFault_keeps (t : Nat) : (s.dieFault t).keeps s [.dev, .warden, .regs, .ints, .tdcSeen, .fresh, .errs, .mem] :=
  (State.setDev_keeps _ _).after (s.trigger_keeps _ _ _ _).widen

/-- A lasting fault of a unit takes no fall-back decision. -/
theorem State.lasting_unit_keeps (u b ref t : Nat) : (s.lasting (.unit u b) ref t).keeps s retirePieces := s.isolate_keeps u ref t

/-! ### Loans, waits and the queues behind them -/

theorem State.dmaDrop_keeps (k : Nat) : (s.dmaDrop k).keeps s [.sched, .cores] :=
  (State.setCore_keeps _ _ _).after <| (State.setSched_keeps _ _).after (s.setSch_keeps _ _).widen

theorem State.dmaResume_keeps (k : Nat) (bad : Bool) : (s.dmaResume k bad).keeps s [.sched, .cores] :=
  State.keeps_ite (s.dmaDrop_keeps k) (s.setCore_keeps _ _).widen

theorem State.tallyDone_keeps (i : Issuer) (result : Nat) : (s.tallyDone i result).keeps s [.hqs, .host, .regs, .ints] := by
  cases i
  case hostq => exact s.hqEnd_keeps _ _ _ _
  all_goals exact s.keeps_refl _

/-- The pieces that the end of a tally wait may change. -/
def waitPieces : List Piece := [.sync, .ktl, .sched, .cores, .hqs, .host, .regs, .ints, .tdcSeen, .fresh, .errs, .mem]

theorem State.tallyFail_keeps (i : Issuer) (p cls addr : Nat) : (s.tallyFail i p cls addr).keeps s waitPieces := by
  unfold State.tallyFail
  dsimp only
  split
  · exact (State.tdc_keeps _ _ _ _).after <| (State.dmaResume_keeps _ _ _).after (s.log_keeps _).widen
  · exact (State.hqEnd_keeps _ _ _ _ _).after (s.log_keeps _).widen
  · exact (s.log_keeps _).widen

theorem State.tallyRefuse_keeps (i : Issuer) (p cls die addr : Nat) : (s.tallyRefuse i p cls die addr).keeps s waitPieces :=
  (State.tallyFail_keeps _ _ _ _ _).after <| State.keeps_ite ((State.raiseP_keeps _ _ _).after (s.inc_keeps _ _).widen)
    (s.inc_keeps _ _).widen

theorem State.endWait_keeps (w : Wait) (bad : Bool) : (s.endWait w bad).keeps s waitPieces := by
  have hleft (v : State) (hv : v.keeps s waitPieces) : (match w.issuer with | .dma k => v.endLoan k | _ => v).keeps s waitPieces := by
    split
    · exact (State.endLoan_keeps _ _).after hv
    · exact hv
  have hsync := (s.setSync_keeps { s.sync with waits := s.sync.waits.filter (· != w) }).widen (m := waitPieces)
  refine State.keeps_ite ((State.tallyFail_keeps _ _ _ _ _).after (hleft _ hsync)) ?_
  split
  · exact (State.dmaResume_keeps _ _ _).after (hleft _ hsync)
  · exact (State.hqEnd_keeps _ _ _ _ _).after (hleft _ hsync)
  · exact hleft _ hsync

theorem State.dropWaits_keeps (keep : Wait → Bool) : (s.dropWaits keep).keeps s waitPieces := by
  refine State.keeps_foldl (fun s w => ?_) (s.keeps_refl _) _
  have hsync := (s.setSync_keeps { s.sync with waits := s.sync.waits.filter (· != w) }).widen (m := waitPieces)
  dsimp only
  split
  · exact (State.dmaResume_keeps _ _ _).after ((State.endLoan_keeps _ _).after hsync)
  · exact (State.hqEnd_keeps _ _ _ _ _).after hsync
  · exact hsync

theorem State.armMons_keeps (p : Nat) : (s.armMons p).keeps s [.sync] := s.setSync_keeps _

theorem State.initCounters_keeps (p : Nat) : (s.initCounters p).keeps s waitPieces :=
  (State.armMons_keeps _ _).after <| State.keeps_foldl (fun s _ => (s.setTword_keeps _ _).widen) (s.dropWaits_keeps _) _

/-! ### Releases -/

/-- A fold over a list whose elements have a property. -/
theorem State.keeps_foldl_mem {α : Type} {f : State → α → State} {l : List Piece} {s : State} (xs : List α) {u : State}
    (hf : ∀ v, ∀ x ∈ xs, (f v x).keeps v l) (h : u.keeps s l) : (xs.foldl f u).keeps s l := by
  induction xs generalizing u with
  | nil => exact h
  | cons x r ih =>
    exact ih (fun v y hy => hf v y (List.mem_cons_of_mem _ hy)) (State.keeps_trans (hf u x List.mem_cons_self) h)

theorem State.countHold_keeps (d : Nat) (i : Item) : (s.countHold d i).keeps s [.regs, .ints, .fresh, .errs, .mem, .traceQ] :=
  (State.raiseP_keeps _ _ _).after <| (State.trace_keeps _ _ _ _ _ _).after (s.inc_keeps _ _).widen

/-- Items other than HOST items are placed within their die's scheduling. -/
theorem State.place_keeps (d : Nat) (t : TaskSt) {is : List Item} (h : ∀ i ∈ is, i.kind ≠ tkHOST) : (s.place d t is).keeps s relPieces := by
  have hset (x : SchedDie) (bad : List Item) (hbad : ∀ i ∈ bad, i.kind ≠ tkHOST) :
      (bad.foldl (fun s i => s.failItem d i) (s.setSch d x)).keeps s relPieces :=
    State.keeps_foldl_mem _ (fun v i hi => (v.failItem_keeps_of_ne_host d i (hbad i hi)).widen) (s.setSch_keeps _ _).widen
  have hbad (c : Nat) (f : Item → Bool) :
      ∀ i ∈ (is.zipIdx.map fun (e : Item × Nat) => { e.1 with at_ := c + e.2 }).filter f, i.kind ≠ tkHOST := by
    intro i hi
    obtain ⟨e, he, rfl⟩ := List.mem_map.mp (List.mem_filter.mp hi).1
    exact h e.1 (List.fst_mem_of_mem_zipIdx he)
  unfold State.place
  dsimp only
  generalize (if t.held = true then (s.sch d, _) else enqueueAll (s.sch d) _) = r
  refine State.keeps_ite (hset _ _ (hbad _ _)) ?_
  split
  · exact hset _ _ (hbad _ _)
  · exact (State.countHold_keeps _ _ _).after (hset _ _ (hbad _ _))

theorem State.rearm_keeps (d : Nat) (t : TaskSt) (delayUs : Nat) : (s.rearm d t delayUs).1.keeps s [.regs] := by
  unfold State.rearm
  split
  · exact s.keeps_refl _
  · exact s.inc_keeps _ _

theorem State.latticeItems_kind (q : PartCfg) (t : TaskRec) (cls seq frame epoch : Nat) :
    ∀ i ∈ s.latticeItems q t cls seq frame epoch, i.kind = tkLATTICE := by
  unfold State.latticeItems
  dsimp only
  split
  · simp
  · simp only [List.mem_map]
    rintro i ⟨k, -, rfl⟩
    rfl

theorem State.releaseItems_keeps (d : Nat) (q : PartCfg) (r : TaskRec) (t : TaskSt) : (s.releaseItems d q r t).keeps s relPieces := by
  unfold State.releaseItems
  dsimp only
  split
  · split
    · exact s.keeps_refl _
    · refine State.keeps_ite (State.keeps_ite (s.keeps_refl _) ((State.tdc_keeps _ _ _ _).after (s.inc_keeps _ _).widen)) ?_
      exact s.place_keeps d _ fun i hi => by rw [s.latticeItems_kind _ _ _ _ _ _ i hi]; decide
  · split
    next hkind =>
      refine s.place_keeps d _ fun i hi => ?_
      rw [List.mem_singleton.mp hi]
      rcases hkind with h | h <;> simp only [taskItem, h] <;> decide
    · exact s.keeps_refl _

theorem State.tryRelease_keeps (d : Nat) (q : PartCfg) (r : TaskRec) : (s.tryRelease d q r).keeps s relPieces := by
  unfold State.tryRelease
  split
  · exact s.keeps_refl _
  · exact State.keeps_ite ((State.releaseItems_keeps _ _ _ _ _).after <| (State.setTask_keeps _ _ _).after <|
      (State.rearm_keeps _ _ _ _).after (s.trace_keeps _ _ _ _ _).widen) (s.keeps_refl _)

theorem State.setFlag_keeps (p task flag : Nat) : (s.setFlag p task flag).keeps s relPieces := by
  unfold State.setFlag
  dsimp only
  split
  · exact s.keeps_refl _
  · split
    · exact s.keeps_refl _
    · exact (State.tryRelease_keeps _ _ _ _).after (s.setTask_keeps _ _).widen

theorem State.phaseFlag_keeps (p flag : Nat) : (s.phaseFlag p flag).keeps s relPieces :=
  State.keeps_foldl (fun s t => s.setFlag_keeps p t flag) (s.keeps_refl _) _

theorem State.resumeTask_keeps (d : Nat) (left : List Item) (t : TaskSt) : (s.resumeTask d left t).keeps s relPieces := by
  unfold State.resumeTask
  dsimp only
  split
  · exact s.keeps_refl _
  · refine State.keeps_ite (s.keeps_refl _) ?_
    have htraced (x : TaskSt) (i : Item) : ((s.setTask d x).trace d 0x07 0xFF i 0).keeps s relPieces :=
      (State.trace_keeps _ _ _ _ _ _).after (s.setTask_keeps _ _).widen
    exact State.keeps_ite ((State.tryRelease_keeps _ _ _ _).after (htraced _ _)) ((State.countHold_keeps _ _ _).after (htraced _ _))

theorem State.resume_keeps (d : Nat) : (s.resume d).keeps s relPieces :=
  State.keeps_ite (s.keeps_refl _) (State.keeps_foldl (fun s t => s.resumeTask_keeps d _ t) (s.setSch_keeps _ _).widen _)

theorem State.withdraw_keeps (d p task n : Nat) : (s.withdraw d p task n).keeps s [.sched, .cores] :=
  (State.setCores_keeps _ _).after <| (s.setSch_keeps _ _).widen

end Sys2Proof.Machine
end

section
/-! SUPPORT. Resets and fall-back decisions (R329, R331, R420, R421): what a warm reset may change and what it leaves in the device
state, and that no decision waits when a command has ended. -/

namespace Sys2Proof.Machine

set_option Elab.async false

variable (s : State)

/-! ### States of partitions and of the loader -/

theorem State.endSteep_keeps (r : Reject) : (s.endSteep r).keeps s [.loader, .parts, .regs, .ints] := by
  unfold State.endSteep
  split
  · exact s.keeps_refl _
  · exact (State.raise_keeps _ _).after <| State.keeps_foldl
      (fun s p => State.keeps_ite (s.setPSt_keeps _ _).widen (s.keeps_refl _)) (s.setLoader_keeps _).widen _

theorem State.carryRound_keeps : s.carryRound.keeps s [.round, .regs, .ints] :=
  State.keeps_ite (State.keeps_foldl (fun s p => (s.raiseP_keeps p 3).widen)
    ((State.inc_keeps _ _ _).after (s.setRound_keeps _).widen) _) (s.keeps_refl _)

/-! ### Confirmations that do not resolve -/

theorem State.countOf_keeps (k kind t : Nat) : (s.countOf k kind t).1.keeps s [.errs, .regs] := by
  unfold State.countOf
  dsimp only
  split
  · exact s.keeps_refl _
  · split
    · exact State.keeps_ite (s.setFault_keeps _).widen ((State.inc_keeps _ _ _).after (s.setFault_keeps _).widen)
    · exact (s.inc_keeps _ _).widen

theorem State.countCore_keeps (c : Confirm) (k t : Nat) : (s.countCore c k t).keeps s retirePieces := by
  have hrecord (v : State) (hv : v.keeps s [.errs, .regs]) (r : ErrRec) : (v.record r).2.keeps s retirePieces :=
    (State.record_keeps _ _).after hv.widen
  have hclear := State.keeps_ite (c := (s.faultSt (.unit (coreUnit k) 0)).phase = .confirm)
    (s.setFault_keeps { s.faultSt (.unit (coreUnit k) 0) with phase := .watch }) (s.keeps_refl _)
  have hcount := (State.countOf_keeps _ k ekREPLAY_DISAGREE t).after (m := [.errs, .regs]) hclear.widen
  unfold State.countCore
  dsimp only
  refine State.keeps_ite (s.keeps_refl _) ?_
  generalize State.countOf _ k ekREPLAY_DISAGREE t = r at hcount
  exact State.keeps_ite ((State.lasting_unit_keeps _ _ _ _ _).after (hrecord _ hcount _)) (hrecord _ hcount _)

theorem State.clearSuspect_keeps (k : Nat) : (s.clearSuspect k).keeps s [.errs] :=
  State.keeps_ite (s.setFault_keeps _) (s.keeps_refl _)

theorem State.unresolved_keeps (c : Confirm) (t : Nat) : (s.unresolved c t).keeps s retirePieces :=
  (State.countCore_keeps _ _ _ _).after <| (State.countCore_keeps _ _ _ _).after <| (State.clearSuspect_keeps _ _).after
    (s.inc_keeps _ _).widen

theorem State.allUnresolved_keeps (t : Nat) : (s.allUnresolved t).keeps s retirePieces :=
  State.keeps_foldl (fun s c => s.unresolved_keeps c t) (s.setErrs_keeps _).widen _

/-! ### Self-test and links -/

theorem State.abandonSlice_keeps (d : Nat) : (s.abandonSlice d).keeps s [.rots, .regs] := by
  unfold State.abandonSlice
  dsimp only
  split
  · exact s.keeps_refl _
  · exact (State.inc_keeps _ _ _).after (s.setRots_keeps _).widen

theorem State.newInterval_keeps (d t : Nat) : (s.newInterval d t).keeps s [.rots] := s.setRots_keeps _

theorem State.linksDown_keeps : s.linksDown.keeps s [.regs, .ints] :=
  State.keeps_ite (s.keeps_refl _) ((State.raise_keeps _ _).after (s.wrBits_keeps _ _ _ _).widen)

/-! ### Warm reset -/

theorem State.warmParts_keeps (cause : Nat) : (s.warmParts cause).keeps s [.parts, .regs, .ints] := by
  refine State.keeps_foldl (fun s p => ?_) (s.keeps_refl _) _
  dsimp only
  split
  · exact State.keeps_ite (s.setPRun_keeps _ _).widen ((State.setPSt_keeps _ _ _).after (s.setPRun_keeps _ _).widen)
  · exact State.keeps_ite ((State.setPSt_keeps _ _ _).after (s.setPRun_keeps _ _).widen) (s.setPRun_keeps _ _).widen

/-- The pieces that a warm reset clears beside the device state. -/
def clearPieces : List Piece :=
  [.arrs, .regs, .ints, .tdcSeen, .sync, .ktl, .sched, .cores, .hqs, .host, .fresh, .errs, .mem, .engs, .fld, .parts, .latches]

/-- The runs, waits and copies that a warm reset ends before it clears the planner dies. -/
def State.warmRuns (s : State) (t : Nat) : State :=
  let s := (s.endRuns 0 (fun _ => true) rrABORT t).endRuns 1 (fun _ => true) rrABORT t
  let s := (List.range 8).foldl State.initCounters s
  let s := (List.range 8).foldl (fun s p => s.abortCopies (1 + p)) s
  s.dropWaits fun w => match w.issuer, w.word with | .hostq 0 _, .mem _ => true | _, _ => false

/-- What the planner dies hold in structured state, cleared by a warm reset. -/
def State.warmCut (s : State) : State :=
  { s with cores := s.cores.map fun (c : CoreSt) => { dma := c.dma.free }, engs := s.engs.map EngSt.stop,
           sched := s.sched.map SchedDie.clearAll, fld := s.fld.warm,
           dev := { s.dev with bufGen := s.dev.bufGen + 1, bufDef := [] },
           parts := s.parts.map fun (x : PRun) => { x with plan := false } }

/-- The candidate and issue counts of the cores of a list cleared. -/
def State.clearCounts (s : State) (l : List Nat) : State :=
  l.foldl (fun s k => (s.wr64 (Reg.swpCoreCandLo k) 0).wr64 (Reg.swpCoreIssueLo k) 0) s

/-- The latches of the planner dies' registers and what a warm reset clears of their memories. -/
def State.warmWipe (s : State) : State :=
  ({ s with hi := s.hi.clear 0x2000000 0xA000000, lo := s.lo.clear 0x200000 0xA00000 } : State).wipe warmClears

theorem State.warmClear_eq (t : Nat) : s.warmClear t = (((s.warmRuns t).warmCut).clearCounts (List.range 128)).warmWipe := by
  unfold State.warmClear
  generalize List.range 128 = l
  extract_lets _ _ _ ended _ _ cut counted
  have hended : ended = s.warmRuns t := rfl
  clear_value ended
  have hcut : cut = ended.warmCut := rfl
  have hcounted : counted = cut.clearCounts l := rfl
  rw [← hended, ← hcut, ← hcounted]
  rfl

theorem State.warmRuns_keeps (t : Nat) : (s.warmRuns t).keeps s clearPieces :=
  (State.dropWaits_keeps _ _).after <| State.keeps_foldl (fun s p => (s.abortCopies_keeps _).widen)
    (State.keeps_foldl (fun s p => (s.initCounters_keeps p).widen)
      ((State.endRuns_keeps _ _ _ _ _).after (s.endRuns_keeps _ _ _ _).widen) _) _

theorem State.warmCut_keeps : s.warmCut.keeps s [.cores, .engs, .sched, .fld, .dev, .parts] := 
  (State.keeps_iff _ _ _).mpr (by simp [State.warmCut])

theorem State.clearCounts_keeps (l : List Nat) : (s.clearCounts l).keeps s [.regs] :=
  State.keeps_foldl (fun s _ => (State.wr64_keeps _ _ _).after (s.wr64_keeps _ _)) (s.keeps_refl _) l

theorem State.warmWipe_keeps : s.warmWipe.keeps s [.latches, .mem] := (State.wipe_keeps _ _).after (s.setLatches_keeps _ _).widen

theorem State.warmClear_keeps (t : Nat) : (s.warmClear t).keeps s (.dev :: clearPieces) := by
  rw [s.warmClear_eq]
  exact (State.warmWipe_keeps _).after <| (State.clearCounts_keeps _ _).after <| (State.warmCut_keeps _).after
    (s.warmRuns_keeps t).widen

theorem State.warmClear_dev (t : Nat) : (s.warmClear t).dev = { s.dev with bufGen := s.dev.bufGen + 1, bufDef := [] } := by
  have hruns : (s.warmRuns t).dev = s.dev := s.warmRuns_keeps t .dev (by decide)
  have hcounts (v : State) (l : List Nat) : (v.clearCounts l).dev = v.dev := v.clearCounts_keeps l .dev (by decide)
  have hwipe (v : State) : v.warmWipe.dev = v.dev := rfl
  rw [s.warmClear_eq, hwipe, hcounts, State.warmCut, hruns]

/-- What a warm reset has done before it marks itself asserted. -/
theorem State.warmBegin_keeps (cause t : Nat) :
    ((((s.endSteep { code := cABORTED }).carryRound).allUnresolved t).warmParts cause).keeps s (.loader :: .round :: retirePieces) :=
  (State.warmParts_keeps _ _).after <| (State.allUnresolved_keeps _ _).after <| (State.carryRound_keeps _).after
    (s.endSteep_keeps _).widen

/-- The device state that a warm reset asserted at t leaves. -/
def Dev.warmed (d : Dev) (cause t : Nat) (hold : Bool) : Dev :=
  { d with bufGen := d.bufGen + 1, bufDef := [], warm := some t, warmAt := t, hold, released := false,
           restart := decide (cause = 2) || d.restart, warmCount := min 65535 (d.warmCount + 1), warmCause := cause,
           trained := [false, false], ready := d.ready / 2 ^ 32 * 2 ^ 32, failed := d.failed / 2 ^ 32 * 2 ^ 32 }

/-- A warm reset asserted where none is. -/
theorem State.warmReset_dev (cause t : Nat) (hold : Bool) (h : s.dev.warm = none) :
    (s.warmReset cause t hold).dev = s.dev.warmed cause t hold := by
  have hbegin := s.warmBegin_keeps cause t .dev (by decide)
  have hclear := ((((s.endSteep { code := cABORTED }).carryRound).allUnresolved t).warmParts cause).warmClear_dev t
  rw [hbegin] at hclear
  have hends (v : State) : (((((v.abandonSlice 0).abandonSlice 1).linksDown.newInterval 0 t).newInterval 1 t)).dev = v.dev :=
    ((State.newInterval_keeps _ _ _).after <| (State.newInterval_keeps _ _ _).after <| (State.linksDown_keeps _).after <|
      (State.abandonSlice_keeps _ _).after (v.abandonSlice_keeps _).widen :
        State.keeps _ v [.rots, .regs, .ints]) .dev (by decide)
  simp only [State.warmReset, h, Option.isSome_none, Bool.false_eq_true, if_false]
  rw [State.trigger_keeps _ _ _ _ _ .dev (by decide), hends]
  dsimp only
  rw [hclear]
  rfl

/-- A further source of a warm reset adds its hold alone (R422). -/
theorem State.warmReset_of_warm (cause t : Nat) (hold : Bool) (h : s.dev.warm ≠ none) :
    s.warmReset cause t hold = { s with dev := { s.dev with hold := s.dev.hold || hold } } := by
  obtain ⟨w, hw⟩ := Option.ne_none_iff_exists'.mp h
  simp [State.warmReset, hw]

/-- No warm reset takes a fall-back decision. -/
@[simp] theorem State.warmReset_fall (cause t : Nat) (hold : Bool) : (s.warmReset cause t hold).dev.fall = s.dev.fall := by
  by_cases h : s.dev.warm = none
  · rw [s.warmReset_dev cause t hold h]; rfl
  · rw [s.warmReset_of_warm cause t hold h]

/-- Whatever its source, a warm reset is asserted afterwards. -/
theorem State.warmReset_warm_ne (cause t : Nat) (hold : Bool) : (s.warmReset cause t hold).dev.warm ≠ none := by
  by_cases h : s.dev.warm = none
  · rw [s.warmReset_dev cause t hold h]; simp [Dev.warmed]
  · rwa [s.warmReset_of_warm cause t hold h]

/-! ### Fall-back decisions and the end of a command -/

/-- What a fall-back decision does before its warm reset: it is remembered, and the warden state follows. -/
def State.fallState (s : State) (t : Nat) : State :=
  let falls := t :: s.warden.falls.filter fun x => decide (t < x + s.sglob.rWin * 1000000000)
  let hold := !s.sglob.auto || decide (s.sglob.rMax ≤ fallCount falls (s.sglob.rWin * 1000000000) t)
  let v : State := { s with warden := { s.warden with falls } }
  match s.warden.state with
  | .locked | .channelFail | .held => v
  | _ => v.setWState (if hold then .held else .fallback)

/-- Whether a decision holds the dies (R331). -/
def State.fallHolds (s : State) (t : Nat) : Bool :=
  !s.sglob.auto || decide (s.sglob.rMax ≤ fallCount (t :: s.warden.falls.filter fun x => decide (t < x + s.sglob.rWin * 1000000000))
    (s.sglob.rWin * 1000000000) t)

theorem State.fallBack_eq (t : Nat) :
    s.fallBack t = (s.fallState t).warmReset (if s.fallHolds t then 4 else 2) (t + 1000) (s.fallHolds t) := rfl

theorem State.fallState_keeps (t : Nat) : (s.fallState t).keeps s [.warden, .regs, .ints] := by
  unfold State.fallState
  dsimp only
  split
  · exact (s.setWarden_keeps _).widen
  · exact (s.setWarden_keeps _).widen
  · exact (s.setWarden_keeps _).widen
  · exact (State.setWState_keeps _ _).after (s.setWarden_keeps _).widen

@[simp] theorem State.fallState_dev (t : Nat) : (s.fallState t).dev = s.dev := s.fallState_keeps t .dev (by decide)

theorem State.fallBack_fall (t : Nat) : (s.fallBack t).dev.fall = s.dev.fall := by
  rw [s.fallBack_eq, State.warmReset_fall, s.fallState_dev]

/-- A command's end with what its fall-back decision does taken out. -/
def State.taken (s : State) : State :=
  match s.dev.fall with
  | some t => ({ s with dev := { s.dev with fall := none } } : State).fallBack t
  | none => s

theorem State.finish_eq : s.finish = s.taken.touchIdle.relink.settle := rfl

theorem State.taken_calm : s.taken.calm := by
  unfold State.taken
  split
  · exact State.fallBack_fall _ _
  next h => exact h

/-- Behind the decision, a command's end changes no piece. -/
theorem State.finish_keeps_taken : s.finish.keeps s.taken [] :=
  (State.settle_keeps _).after <| (State.relink_keeps _).after s.taken.touchIdle_keeps

theorem State.finish_calm : s.finish.calm :=
  (congrArg Dev.fall (s.finish_keeps_taken .dev (by decide))).trans s.taken_calm

/-- Settles O4: every meaning answers a finished state, whose decision has been taken. -/
theorem fallBacksAreTakenAtOnce : Obligations.FallBacksAreTakenAtOnce := by
  intro c s u hexec
  obtain ⟨v, hv⟩ := exec_eq_finish c s
  rw [hv, Host.Outcome.next.injEq] at hexec
  exact hexec ▸ v.finish_calm

end Sys2Proof.Machine
end

section
/-! SUPPORT. How a command's end is read: the fields and frames of a finished state. Then the delivery of interrupts and their end
(R393, R394). -/

namespace Sys2Proof.Machine

set_option Elab.async false

/-! ### A finished state -/

/-- A frame without the device state takes no fall-back decision. -/
theorem State.keeps.calm {u s : State} {l : List Piece} (h : u.keeps s l) (hcalm : s.calm) (hdev : .dev ∉ l := by decide) :
    u.dev.fall = none :=
  (congrArg Dev.fall (h .dev hdev)).trans hcalm

/-- A frame without the device state, carried to the command's end. -/
theorem State.keeps.finish {u s : State} {l : List Piece} (h : u.keeps s l) (hcalm : s.calm) (hdev : .dev ∉ l := by decide) :
    u.finish.keeps s l :=
  State.finish_keeps_of (h.calm hcalm hdev) h

/-- What closes a command in which no fall-back decision waits settles outputs, idle times and links alone. -/
theorem State.taken_of_calm {u : State} (h : u.dev.fall = none) : u.taken = u := by
  simp [State.taken, h]

section

variable {u : State} (h : u.dev.fall = none)
include h

theorem State.finish_still : u.finish.warden.still = u.warden.still := u.finish_keeps h .warden (by simp)

theorem State.finish_wstate : u.finish.warden.state = u.warden.state := by
  simpa only [Warden.still] using congrArg Warden.state (State.finish_still h)
theorem State.finish_chA : u.finish.warden.chA = u.warden.chA := by
  simpa only [Warden.still] using congrArg Warden.chA (State.finish_still h)
theorem State.finish_chB : u.finish.warden.chB = u.warden.chB := by
  simpa only [Warden.still] using congrArg Warden.chB (State.finish_still h)
theorem State.finish_mem (x : Nat) : u.finish.mem.get 0#8 x = u.mem.get 0#8 x := (u.finish_keeps h .mem (by simp)).1 x (by omega)
theorem State.finish_psn (x : Nat) : u.finish.psn.get false x = u.psn.get false x := (u.finish_keeps h .mem (by simp)).2 x (by omega)
theorem State.finish_prun (p : Nat) : u.finish.prun p = u.prun p := by simp only [State.prun, State.finish_parts u h]
theorem State.finish_core (k : Nat) : u.finish.core k = u.core k := by simp only [State.core, State.finish_cores u h]
theorem State.finish_sch (d : Nat) : u.finish.sch d = u.sch d := by simp only [State.sch, State.finish_sched u h]
theorem State.finish_eng (i : Nat) : u.finish.eng i = u.eng i := by simp only [State.eng, State.finish_engs u h]
theorem State.finish_arr (d : Nat) : u.finish.arr d = u.arr d := by simp only [State.arr, State.finish_arrs u h]
theorem State.finish_hq (fn q : Nat) : u.finish.hq fn q = u.hq fn q := by simp only [State.hq, State.finish_hqs u h]
theorem State.finish_rd64 (o : Nat) : u.finish.rd64 o = u.rd64 o := by simp only [State.rd64, State.finish_rd u h]

end

/-! ### Delivery -/

theorem IntSt.slot_setSlot_of_ne (x : IntSt) {src k a b : Nat} (y : ISlot) (h : 2 * a + b ≠ 2 * src + k) :
    (x.setSlot src k y).slot a b = x.slot a b := by
  simp only [IntSt.setSlot, IntSt.slot, Tab.get_set, if_neg h]

@[simp] theorem IntSt.slot_setSlot_same (x : IntSt) (src k : Nat) (y : ISlot) : (x.setSlot src k y).slot src k = y := by
  simp [IntSt.setSlot, IntSt.slot]

@[simp] theorem IntSt.vec_setVec_same (x : IntSt) (v : Nat) (y : IVec) : (x.setVec v y).vec v = y := by simp [IntSt.setVec, IntSt.vec]

theorem IntSt.vec_setVec_of_ne (x : IntSt) {v n : Nat} (y : IVec) (h : n ≠ v) : (x.setVec v y).vec n = x.vec n := by
  simp only [IntSt.setVec, IntSt.vec, Tab.get_set, if_neg h]

theorem State.sendMsg_keeps (s : State) (src k v : Nat) : (s.sendMsg src k v).keeps s [.ints, .host] :=
  (State.toHost_keeps _ _ _).after (s.setSlotInts_keeps _).widen

/-- INT_DELIVERY with a winning slot and a vector for it: the message sent, then the pending bits. -/
theorem exec_intDelivery_of_winner {s : State} {src k v : Nat} (t : Nat) (hup : s.pcieUp = true) (hwin : s.ints.winner = some (src, k))
    (hvec : s.ints.bestVec ((s.ints.slot src k).set_.filter (s.ints.eligible (slotFn src k))) = some v) :
    let m := (s.at t).sendMsg src k v
    exec (.intDelivery t) s = .next ({ m with ints := { m.ints with pba := m.ints.pbaNow } } : State).finish := by
  simp only [exec, execIntDelivery, State.at_pcieUp, State.at_ints, hup, hwin, hvec]
  rfl

theorem exec_intDelivery_of_none {s : State} (t : Nat) (hup : s.pcieUp = true) (hwin : s.ints.winner = none) :
    exec (.intDelivery t) s = .next ({ s.at t with ints := { s.ints with pba := s.ints.pbaNow } } : State).finish := by
  simp only [exec, execIntDelivery, State.at_pcieUp, State.at_ints, hup, hwin]
  rfl

/-! ### End of interrupt -/

/-- The value that EOI writes: the IN_SERVICE bit, and RP as it stands. -/
theorem eoiValue_bits {rp : Nat} (h : rp < 16) : bits (2 ^ 30 + rp * 2 ^ 24) 27 24 = rp ∧ bit (2 ^ 30 + rp * 2 ^ 24) 30 = true := by
  revert rp
  decide

/-- An EOI returns the vector to idle and its slot to IDLE or PENDING. -/
theorem State.vecWrite_eoi (s : State) {v : Nat} (hsvc : (s.ints.vec v).svc = true) (hrp : (s.ints.vec v).rp < 16) :
    s.vecWrite v (2 ^ 30 + (s.ints.vec v).rp * 2 ^ 24) =
      let x := s.ints.vec v
      let y := s.ints.slot x.src x.slot
      { s with ints := (s.ints.setVec v { x with svc := false }).setSlot x.src x.slot ({
          y with st := if y.second then .pending else .idle, second := false }) } := by
  obtain ⟨hbits, hbit⟩ := eoiValue_bits hrp
  simp only [State.vecWrite, hbits, hbit, hsvc, Bool.and_self, if_true]

/-- Settles O49: a delivery is one message sent, an EOI one vector and one slot written. -/
theorem interruptDelivery : Obligations.InterruptDelivery := by
  refine ⟨fun t src k v s hcalm hup hwin hvec => ?_, fun t s hcalm hup hwin => ?_, fun fn v t s hcalm hv hreach hsvc hrp => ?_⟩
  · have hkeeps (x : IntSt) : ({ (s.at t).sendMsg src k v with ints := x } : State).keeps (s.at t) [.ints, .host] :=
      (State.setSlotInts_keeps _ _).after (State.sendMsg_keeps _ _ _ _)
    have hfall (x : IntSt) := (hkeeps x).calm (State.at_calm t hcalm)
    refine ⟨_, exec_intDelivery_of_winner t hup hwin hvec, ?_⟩
    simp only [State.finish_ints _ (hfall _), State.finish_hostW _ (hfall _)]
    refine ⟨?_, ?_, ?_, ?_, ?_, fun a b hab => ?_, (hkeeps _).finish (State.at_calm t hcalm)⟩
    all_goals simp only [State.sendMsg, State.toHost, State.at_ints, State.at_hostW]
    · exact congrArg ISlot.st (IntSt.slot_setSlot_same _ _ _ _)
    · exact congrArg IVec.svc (IntSt.vec_setVec_same _ _ _)
    · exact congrArg IVec.src (IntSt.vec_setVec_same _ _ _)
    · exact congrArg IVec.slot (IntSt.vec_setVec_same _ _ _)
    · exact IntSt.slot_setSlot_of_ne s.ints _ hab
  · have hkeeps := (s.at t).setSlotInts_keeps { s.ints with pba := s.ints.pbaNow }
    have hfall := hkeeps.calm (State.at_calm t hcalm)
    refine ⟨_, exec_intDelivery_of_none t hup hwin, ?_⟩
    simp only [State.finish_ints _ hfall]
    exact ⟨trivial, trivial, trivial, hkeeps.finish (State.at_calm t hcalm)⟩
  · let x := s.ints.vec v
    let y := s.ints.slot x.src x.slot
    let i := (s.ints.setVec v { x with svc := false }).setSlot x.src x.slot
      { y with st := if y.second then .pending else .idle, second := false }
    have hexec : exec (.eoi fn v t) s = .next ({ s.at t with ints := i } : State).writeEnd.finish := by
      simp only [exec, execEoi, hv, if_true, State.onWrite_of_takesWrite hreach]
      rw [State.vecWrite_eoi (s.at t) (by simpa using hsvc) (by simpa using hrp)]
      simp only [State.at_ints]
      rfl
    have hkeeps : ({ s.at t with ints := i } : State).writeEnd.keeps (s.at t) [.ints, .compl] :=
      (State.setCompl_keeps _ _).after ((s.at t).setSlotInts_keeps i).widen
    refine ⟨_, hexec, ?_⟩
    simp only [State.finish_ints _ (hkeeps.calm (State.at_calm t hcalm))]
    refine ⟨?_, ?_, ?_, fun n hn => ?_, hkeeps.finish (State.at_calm t hcalm)⟩
    · exact congrArg IVec.svc (IntSt.vec_setVec_same _ _ _)
    · exact congrArg ISlot.st (IntSt.slot_setSlot_same _ _ _ _)
    · exact congrArg ISlot.second (IntSt.slot_setSlot_same _ _ _ _)
    · exact IntSt.vec_setVec_of_ne s.ints _ hn

end Sys2Proof.Machine
end

section
/-! SUPPORT. Field interfaces (21_field_interfaces.md): one port, one timestamp unit and the servo replaced, and the commands that do
little more: links and bus starts, PTP, timestamp units. -/

namespace Sys2Proof.Machine

set_option Elab.async false

/-! ### What time's passage leaves -/

section

variable (s : State) (t : Nat)

@[simp] theorem State.at_prun (p : Nat) : (s.at t).prun p = s.prun p := by simp [State.prun]
@[simp] theorem State.at_running (p : Nat) : (s.at t).running p = s.running p := by simp [State.running]
@[simp] theorem State.at_anyRunning : (s.at t).anyRunning = s.anyRunning := by
  simp only [State.anyRunning, funext (s.at_running t)]
@[simp] theorem State.at_cfg : (s.at t).cfg = s.cfg := by simp [State.cfg]
@[simp] theorem State.at_pcfg (p : Nat) : (s.at t).pcfg p = s.pcfg p := by simp [State.pcfg]
@[simp] theorem State.at_readyBit (b : Nat) : (s.at t).readyBit b = s.readyBit b := by simp [State.readyBit]
@[simp] theorem State.at_port (n : Nat) : (s.at t).port n = s.port n := by simp [State.port]
@[simp] theorem State.at_ptpPort : (s.at t).ptpPort = s.ptpPort := by simp [State.ptpPort]
@[simp] theorem State.at_syncEvery : (s.at t).syncEvery = s.syncEvery := by simp [State.syncEvery]

end

/-! ### One entry of a list replaced -/

theorem getD_listSet_same {α : Type} {l : List α} {n : Nat} (x d : α) (h : n < l.length) : (listSet l n x).getD n d = x := by
  rw [getD_listSet, if_pos ⟨rfl, h⟩]

theorem getD_listSet_of_ne {α : Type} (l : List α) {n i : Nat} (x d : α) (h : i ≠ n) : (listSet l n x).getD i d = l.getD i d := by
  rw [getD_listSet, if_neg fun hi => h hi.1]

@[simp] theorem length_listSet {α : Type} (l : List α) (n : Nat) (x : α) : (listSet l n x).length = l.length := by simp [listSet]

/-! ### Sources raised -/

@[simp] theorem ISlot.raised_st_ne_idle (x : ISlot) : x.raised.st ≠ .idle := by
  cases h : x.st <;> simp [ISlot.raised, h]

/-- A source raised no longer stands IDLE. -/
theorem State.raise_slot_ne_idle (s : State) (src : Nat) : ((s.raise src).ints.slot src 0).st ≠ .idle := by
  rw [s.raise_slot src Nat.zero_lt_two, if_pos ⟨rfl, .inl rfl⟩]
  exact ISlot.raised_st_ne_idle _

variable (s : State)

theorem State.rd_wrBits_same (o hi lo v : Nat) : (s.wrBits o hi lo v).rd o = setBits (s.rd o) hi lo v := s.rd_wr_same _ _

theorem State.rd_wrBits_ne (o hi lo v : Nat) {i : Nat} (h : i ≠ o) : (s.wrBits o hi lo v).rd i = s.rd i := s.rd_wr_ne _ _ _ h

/-! ### One port replaced -/

theorem State.setPort_keeps (n : Nat) (x : FPort) : (s.setPort n x).keeps s [.fif, .ints, .regs] :=
  State.keeps_ite (s.setFif_keeps _).widen ((State.raise_keeps _ _).after (s.setFif_keeps _).widen)

@[simp] theorem State.setPort_fif (n : Nat) (x : FPort) : (s.setPort n x).fif = { s.fif with ports := listSet s.fif.ports n x } := by
  unfold State.setPort
  dsimp only
  split
  · rfl
  · exact (State.raise_keeps _ _) .fif (by decide)

theorem State.setPort_port_same {n : Nat} (x : FPort) (h : n < s.fif.ports.length) : (s.setPort n x).port n = x := by
  rw [State.port, State.setPort_fif, getD_listSet_same _ _ h]

theorem State.setPort_port_of_ne {n m : Nat} (x : FPort) (h : m ≠ n) : (s.setPort n x).port m = s.port m := by
  rw [State.port, State.setPort_fif, getD_listSet_of_ne _ _ _ h, State.port]

/-- A port whose shown status changes raises its source. -/
theorem State.setPort_slot_ne_idle {n : Nat} {x : FPort} (h : x.shown ≠ (s.port n).shown) :
    ((s.setPort n x).ints.slot (isrcFIELDBUS + n) 0).st ≠ .idle := by
  simp only [State.setPort, h, if_false]
  exact State.raise_slot_ne_idle _ _

/-- What a command whose meaning is one port replaced ends with. -/
theorem State.finish_setPort {s : State} {n : Nat} (x : FPort) (hcalm : s.calm) (hn : n < s.fif.ports.length) :
    (s.setPort n x).finish.port n = x ∧ (∀ m, m ≠ n → (s.setPort n x).finish.port m = s.port m)
      ∧ (s.setPort n x).finish.keeps s [.fif, .ints, .regs] := by
  have hkeeps := s.setPort_keeps n x
  have hfif := State.finish_fif _ (hkeeps.calm hcalm)
  refine ⟨?_, fun m hm => ?_, hkeeps.finish hcalm⟩
  · rw [State.port, hfif]; exact s.setPort_port_same x hn
  · rw [State.port, hfif]; exact s.setPort_port_of_ne x hm

/-- A command that changes nothing but time. -/
theorem State.finish_at_keeps {s : State} (t : Nat) (hcalm : s.calm) : (s.at t).finish.keeps (s.at t) [] :=
  ((s.at t).keeps_refl []).finish (State.at_calm t hcalm)

/-! ### Links and bus starts -/

/-- The port that an in-band word of a link that comes up leaves. -/
def FPort.linkedUp (x : FPort) (t : Nat) : FPort :=
  if x.bus = 0 ∧ x.cfgRec.mode ≠ 0 then
    { x with link := true, err := 0, bus := if x.cfgRec.mode = 2 then 4 else 1, cycling := x.cfgRec.mode == 2, k := x.cfgRec.nextCycle t }
  else { x with link := true, err := 0 }

theorem exec_inBandStatus {s : State} {n : Nat} (w t : Nat) (hup : s.dev.up = true) (hn : n < 4)
    (hready : s.readyBit (rbFBS + n) = true) :
    let up := bit w 15 && bit w 12 && bits w 11 10 == 2
    exec (.inBandStatus n w t) s = .next (if up = (s.port n).link then s.at t
      else if up = true then (s.at t).setPort n ((s.port n).linkedUp (s.at t).time)
      else (s.at t).setPort n { s.port n with link := false, err := 1 } : State).finish := by
  have hn' : ¬ 4 ≤ n := by omega
  simp only [exec, execInBandStatus, State.at_port, State.at_dev, State.at_readyBit, hup, hn', hready, Bool.not_true,
    Bool.false_eq_true, false_or]
  rfl

theorem exec_busTransition {s : State} {n : Nat} (o : BusIn) (t : Nat) (hup : s.dev.up = true) (hn : n < 4)
    (hmode : (s.port n).cfgRec.mode = 1) (hlink : (s.port n).link = true) (hlo : 1 ≤ (s.port n).bus) (hhi : (s.port n).bus < 4)
    (herr : (s.port n).err = 0) :
    exec (.busTransition n o t) s = .next ((s.at t).setPort n
      (if o.ok = true then { s.port n with bus := (s.port n).bus + 1, cycling := (s.port n).bus == 3, k := (s.port n).cfgRec.nextCycle (s.at t).time }
       else { s.port n with err := if o.err = 0 ∨ 15 < o.err then 3 else o.err })).finish := by
  simp only [exec, execBusTransition, State.at_port, State.at_dev, hup, hn, hmode, hlink, hlo, hhi, herr, and_self, if_true]
  split <;> rfl

/-- Settles O54: each command replaces one port, or one bit of the 25GBASE-R receivers. -/
theorem fieldbusPorts : Obligations.FieldbusPorts := by
  refine ⟨fun n w t s hcalm hup hn hlen hready => ?_, fun n t s hcalm hup hn hlen hready hmode => ⟨?_, ?_⟩,
    fun n t o s hcalm hup hn hlen hmode hlink hlo hhi herr => ?_, fun n t b s hcalm hup hn hlen hready hmode => ?_⟩
  · have hset (x : FPort) := State.finish_setPort x (State.at_calm t hcalm) (n := n) (by simpa [hlen] using hn)
    refine ⟨_, exec_inBandStatus w t hup hn hready, ?_⟩
    dsimp only
    generalize (bit w 15 && bit w 12 && bits w 11 10 == 2) = up
    by_cases hsame : up = (s.port n).link
    · have hfif := State.finish_fif (s.at t) (State.at_calm t hcalm)
      have hport (m : Nat) : (s.at t).finish.port m = s.port m := by rw [State.port, hfif]; exact s.at_port t m
      have hkeeps := State.finish_at_keeps t hcalm
      simp only [hsame, if_true]
      exact ⟨by rw [hport], fun m _ => hport m, fun _ => hkeeps, fun h h' => by simp [h] at h', fun h h' => by simp [h] at h', hkeeps.widen⟩
    · simp only [if_neg hsame]
      cases up with
      | true =>
        obtain ⟨hport, hothers, hkeeps⟩ := hset ((s.port n).linkedUp (s.at t).time)
        simp only [if_true, hport]
        refine ⟨?_, fun m hm => by simpa using hothers m hm, fun h => absurd h hsame, fun _ _ => ?_, by simp, hkeeps⟩
        · simp only [FPort.linkedUp]; split <;> rfl
        · simp only [FPort.linkedUp]
          split
          · exact ⟨rfl, rfl, by simp [beq_eq_decide], rfl⟩
          · exact ⟨rfl, rfl⟩
      | false =>
        obtain ⟨hport, hothers, hkeeps⟩ := hset { s.port n with link := false, err := 1 }
        simp only [Bool.false_eq_true, if_false, hport]
        exact ⟨trivial, fun m hm => by simpa using hothers m hm, fun h => absurd h hsame, fun h => by simp at h, fun _ _ => trivial, hkeeps⟩
  · have hn' : ¬ 4 ≤ n := by omega
    obtain ⟨hport, -, hkeeps⟩ := State.finish_setPort { s.port n with err := 2 } (State.at_calm t hcalm) (n := n) (by simpa [hlen] using hn)
    refine ⟨((s.at t).setPort n { s.port n with err := 2 }).finish, ?_, hport, hkeeps⟩
    simp only [exec, execPhyPoll, State.at_port, State.at_dev, State.at_readyBit, hup, hn', hready, hmode, Bool.not_true,
      Bool.false_eq_true, or_self, if_false]
    rfl
  · refine ⟨(s.at t).finish, ?_, State.finish_at_keeps t hcalm⟩
    simp [exec, execPhyPoll, State.done]
  · have hset (x : FPort) := State.finish_setPort x (State.at_calm t hcalm) (n := n) (by simpa [hlen] using hn)
    obtain ⟨hport, hothers, hkeeps⟩ := hset
      (if o.ok = true then { s.port n with bus := (s.port n).bus + 1, cycling := (s.port n).bus == 3, k := (s.port n).cfgRec.nextCycle (s.at t).time }
       else { s.port n with err := if o.err = 0 ∨ 15 < o.err then 3 else o.err })
    refine ⟨_, exec_busTransition o t hup hn hmode hlink hlo hhi herr, hport, fun m hm => by simpa using hothers m hm, ?_, hkeeps⟩
    rw [State.finish_ints _ (((s.at t).setPort_keeps _ _).calm (State.at_calm t hcalm))]
    refine State.setPort_slot_ne_idle _ ?_
    rw [State.at_port]
    cases o.ok with
    | true => simp [FPort.shown]
    | false =>
      simp only [FPort.shown, Bool.false_eq_true, if_false, herr]
      split <;> simp_all
  · have hkeeps := (s.at t).setFif_keeps { s.fif with ethUp := listSet s.fif.ethUp n b }
    refine ⟨({ s.at t with fif := { s.fif with ethUp := listSet s.fif.ethUp n b } } : State).finish, ?_, ?_⟩
    · simp only [exec, execBlockLock, State.at_dev, State.at_readyBit, State.at_cfg, State.at_fif, hup, hn, hready, hmode, and_self, if_true]
      rfl
    · simp only [State.finish_fif _ (hkeeps.calm (State.at_calm t hcalm))]
      exact ⟨getD_listSet_same _ _ (by omega), fun m hm => getD_listSet_of_ne _ _ _ hm, trivial, hkeeps.finish (State.at_calm t hcalm)⟩

/-! ### PTP -/

theorem State.setPtp_keeps (p : Ptp) : (s.setPtp p).keeps s [.fif, .ints, .regs] :=
  State.keeps_ite (s.setFif_keeps _).widen ((State.raise_keeps _ _).after (s.setFif_keeps _).widen)

@[simp] theorem State.setPtp_fif (p : Ptp) : (s.setPtp p).fif = { s.fif with ptp := p } := by
  unfold State.setPtp
  dsimp only
  split
  · rfl
  · exact (State.raise_keeps _ _) .fif (by decide)

theorem State.setPtp_slot_ne_idle {p : Ptp} (h : p.holdover ≠ s.fif.ptp.holdover) :
    ((s.setPtp p).ints.slot isrcPTP 0).st ≠ .idle := by
  simp only [State.setPtp, h, false_and, and_false, if_false]
  exact State.raise_slot_ne_idle _ _

/-- The instant that a step of an offset leads to, a whole tick (R11). -/
def stepped (time : Nat) (off : Int) : Nat := ((time : Int) - off).toNat / 8 * 8

/-- A port that a step of device time realigns. -/
def FPort.realigned (x : FPort) (t : Nat) : FPort := { x with k := x.cfgRec.nextCycle t, sent := false, dcLock := false, dcGood := 0 }

/-- The ports of a list realigned, one after the other. -/
def State.realign (s : State) (t : Nat) (l : List Nat) : State := l.foldl (fun s n => s.setPort n ((s.port n).realigned t)) s

/-- The units' next edges after a step of device time. -/
def State.retime (s : State) (t : Nat) : State :=
  { s with fif := { s.fif with tsus := s.fif.tsus.map fun (u : TsuSt) =>
      match u.rec_ with | some r => { u with k := r.edgeAt t, level := false } | none => u } }

theorem State.stepTime_eq (off : Int) : s.stepTime off =
    (({ s with time := stepped s.time off } : State).realign (stepped s.time off) (List.range 4)).retime (stepped s.time off) := by
  unfold State.stepTime State.realign State.retime stepped
  generalize List.range 4 = l
  rfl

theorem State.realign_keeps (t : Nat) (l : List Nat) : (s.realign t l).keeps s [.fif, .ints, .regs] :=
  State.keeps_foldl (fun s n => s.setPort_keeps n _) (s.keeps_refl _) l

theorem State.retime_keeps (t : Nat) : (s.retime t).keeps s [.fif] := s.setFif_keeps _

@[simp] theorem State.retime_time (t : Nat) : (s.retime t).time = s.time := rfl

@[simp] theorem State.retime_ptp (t : Nat) : (s.retime t).fif.ptp = s.fif.ptp := rfl

@[simp] theorem State.retime_port (t n : Nat) : (s.retime t).port n = s.port n := rfl

theorem State.stepTime_keeps (off : Int) : (s.stepTime off).keeps s [.time, .fif, .ints, .regs] := by
  simp only [State.stepTime_eq]
  exact (State.retime_keeps _ _).after <| (State.realign_keeps _ _ _).after (s.setTime_keeps _).widen

theorem State.stepTime_time (off : Int) : (s.stepTime off).time = stepped s.time off := by
  have h : (State.realign { s with time := stepped s.time off } (stepped s.time off) (List.range 4)).time = stepped s.time off :=
    (State.realign_keeps { s with time := stepped s.time off } (stepped s.time off) (List.range 4)) .time (by decide)
  simpa only [State.stepTime_eq, State.retime_time] using h

/-- Realigning ports leaves the servo alone. -/
theorem State.realign_ptp (t : Nat) (l : List Nat) : (s.realign t l).fif.ptp = s.fif.ptp :=
  foldl_field (fun s => s.fif.ptp) _ (fun s n => by rw [State.setPort_fif]) l s

theorem State.stepTime_ptp (off : Int) : (s.stepTime off).fif.ptp = s.fif.ptp := by
  simp only [State.stepTime_eq, State.retime_ptp, State.realign_ptp]

theorem State.realign_cons (t n : Nat) (l : List Nat) :
    s.realign t (n :: l) = (s.setPort n ((s.port n).realigned t)).realign t l := rfl

theorem State.realign_port_of_notMem (t : Nat) {l : List Nat} {n : Nat} (hn : n ∉ l) : (s.realign t l).port n = s.port n := by
  induction l generalizing s with
  | nil => rfl
  | cons m r ih =>
    rw [State.realign_cons, ih _ (fun h => hn (by simp [h])), s.setPort_port_of_ne _ (fun h => hn (by simp [h]))]

/-- Realigned once or more, a port has lost DC_LOCK and starts its next cycle after the step. -/
theorem State.realign_port (t : Nat) {l : List Nat} (hlen : ∀ n ∈ l, n < s.fif.ports.length) {n : Nat} (hn : n ∈ l) :
    ((s.realign t l).port n).dcLock = false ∧ ((s.realign t l).port n).k = (s.port n).cfgRec.nextCycle t := by
  induction l generalizing s with
  | nil => simp at hn
  | cons m r ih =>
    have hm : m < s.fif.ports.length := hlen m (by simp)
    rw [State.realign_cons]
    by_cases hnr : n ∈ r
    · have hrec : ((s.setPort m ((s.port m).realigned t)).port n).cfgRec = (s.port n).cfgRec := by
        by_cases him : n = m
        · subst him; rw [s.setPort_port_same _ hm]; rfl
        · rw [s.setPort_port_of_ne _ him]
      have := ih (s.setPort m ((s.port m).realigned t)) (fun i hi => by simpa using hlen i (by simp [hi])) hnr
      rwa [hrec] at this
    · obtain rfl : n = m := by simpa [hnr] using hn
      rw [State.realign_port_of_notMem _ t hnr, s.setPort_port_same _ hm]
      exact ⟨rfl, rfl⟩

theorem State.stepTime_port (off : Int) (hlen : s.fif.ports.length = 4) {n : Nat} (hn : n < 4) :
    ((s.stepTime off).port n).dcLock = false ∧ ((s.stepTime off).port n).k = (s.port n).cfgRec.nextCycle (stepped s.time off) := by
  simp only [State.stepTime_eq, State.retime_port]
  exact State.realign_port { s with time := stepped s.time off } _ (fun i hi => by simpa [hlen] using hi) (List.mem_range.mpr hn)

/-- The servo that a Sync leaves (R459). -/
def Ptp.synced (p : Ptp) (o : PtpIn) (running : Bool) (fresh : Nat) : Ptp :=
  let off := o.offset.toInt
  let good := if off.natAbs ≤ 100 then p.good + 1 else 0
  let bad := if 1000 < off.natAbs then p.bad + 1 else 0
  let big := decide (1000000 < off.natAbs)
  let wait := big && running
  let rate := if wait then 200000 else min 200000 (Config.ptpRate off.natAbs fresh)
  { p with offset := off, gm := o.gm, good, bad, last := some o.t, holdover := false, stepWait := wait,
           locked := if 16 ≤ good then true else if 4 ≤ bad then false else p.locked,
           slew := if big && !wait then p.slew else if 0 < off then -(rate : Int) else (rate : Int) }

/-- A rate correction is within 200 ppm and against the offset's sign, but where device time is stepped at once. -/
theorem Ptp.synced_slew (p : Ptp) (o : PtpIn) (running : Bool) (fresh : Nat)
    (h : ¬(decide (1000000 < o.offset.toInt.natAbs) = true ∧ running = false)) :
    (p.synced o running fresh).slew.natAbs ≤ 200000 ∧ (0 < o.offset.toInt → (p.synced o running fresh).slew ≤ 0)
      ∧ (o.offset.toInt ≤ 0 → 0 ≤ (p.synced o running fresh).slew) := by
  have hnow : (decide (1000000 < o.offset.toInt.natAbs) && !(decide (1000000 < o.offset.toInt.natAbs) && running)) = false := by
    cases running <;> simp_all
  simp only [Ptp.synced, hnow, Bool.false_eq_true, if_false]
  split <;> split <;> omega

theorem exec_syncMessage {s : State} (o : PtpIn) (hup : s.dev.up = true) (hport : s.ptpPort.isSome = true) :
    let v := ({ s.at o.t with fresh := s.fresh + 1 } : State).setPtp (s.fif.ptp.synced o s.anyRunning s.fresh)
    exec (.syncMessage o) s = .next (if (decide (1000000 < o.offset.toInt.natAbs) && !(decide (1000000 < o.offset.toInt.natAbs) && s.anyRunning)) = true
      then v.stepTime o.offset.toInt else v).finish := by
  simp only [exec, execSyncMessage, State.at_dev, State.at_ptpPort, State.at_fif, State.at_anyRunning, State.at_fresh, hup, hport, and_self, if_true]
  rfl

/-- What a Sync without a step ends with, and with one. -/
theorem Ptp.synced_locked (p : Ptp) (o : PtpIn) (running : Bool) (fresh : Nat) :
    let q := p.synced o running fresh
    q.locked = (decide (16 ≤ q.good) || (p.locked && !decide (4 ≤ q.bad))) := by
  dsimp only [Ptp.synced]
  generalize (if o.offset.toInt.natAbs ≤ 100 then p.good + 1 else 0) = good
  generalize (if 1000 < o.offset.toInt.natAbs then p.bad + 1 else 0) = bad
  split
  next h => simp [h]
  next h =>
    split
    next hb => simp [h, hb]
    next hb => simp [h, hb]

/-- Settles O56: a Sync replaces the servo and may step time, which realigns the ports; the other commands replace one field. -/
theorem timeSync : Obligations.TimeSync := by
  refine ⟨fun o s hcalm hup hport => ?_, fun t s hcalm hup hwait hlen => ⟨fun hrun => ?_, fun hrun => ?_⟩,
    fun t s hcalm hup hport hhold hlast => ?_, fun n t s hcalm hup hn htx => ⟨fun hdue => ?_, ?_⟩⟩
  · have hcalm' := State.at_calm o.t hcalm
    let v := ({ s.at o.t with fresh := s.fresh + 1 } : State).setPtp (s.fif.ptp.synced o s.anyRunning s.fresh)
    have hset : v.keeps (s.at o.t) [.fif, .fresh, .ints, .regs] := (State.setPtp_keeps _ _).after ((s.at o.t).setFresh_keeps _).widen
    have hstep : (v.stepTime o.offset.toInt).keeps (s.at o.t) [.time, .fif, .fresh, .ints, .regs] :=
      (State.stepTime_keeps _ _).after hset.widen
    have hv : v.fif = { s.fif with ptp := s.fif.ptp.synced o s.anyRunning s.fresh } := by
      simp only [v, State.setPtp_fif, State.at_fif]
    have hlocked := s.fif.ptp.synced_locked o s.anyRunning s.fresh
    by_cases hnow : decide (1000000 < o.offset.toInt.natAbs) = true ∧ s.anyRunning = false
    · have hexec : exec (.syncMessage o) s = .next (v.stepTime o.offset.toInt).finish := by
        rw [exec_syncMessage o hup hport]
        simp [hnow, v]
      have hptp : (v.stepTime o.offset.toInt).finish.fif.ptp = s.fif.ptp.synced o s.anyRunning s.fresh := by
        rw [State.finish_fif _ (hstep.calm hcalm'), State.stepTime_ptp, hv]
      refine ⟨_, hexec, ?_⟩
      rw [hptp]
      refine ⟨rfl, rfl, rfl, rfl, rfl, rfl, rfl, hlocked, ?_⟩
      rw [if_pos hnow, State.finish_time _ (hstep.calm hcalm'), State.stepTime_time, hset .time (by decide)]
      refine ⟨rfl, ?_, hstep.finish hcalm'⟩
      simp [Ptp.synced, hnow]
    · have hexec : exec (.syncMessage o) s = .next v.finish := by
        rw [exec_syncMessage o hup hport, if_neg]
        intro h
        obtain ⟨hbig, hrun⟩ := Bool.and_eq_true_iff.mp h
        exact hnow ⟨hbig, by simpa [hbig] using hrun⟩
      have hfif := State.finish_fif _ (hset.calm hcalm')
      have hptp : v.finish.fif.ptp = s.fif.ptp.synced o s.anyRunning s.fresh := by rw [hfif, hv]
      obtain ⟨hbound, hneg, hpos⟩ := s.fif.ptp.synced_slew o s.anyRunning s.fresh hnow
      refine ⟨_, hexec, ?_⟩
      rw [hptp, if_neg hnow]
      exact ⟨rfl, rfl, rfl, rfl, rfl, rfl, rfl, hlocked, hbound, hneg, hpos, by rw [hfif, hv], hset.finish hcalm'⟩
  · have hcalm' := State.at_calm t hcalm
    let v := (s.at t).setPtp { s.fif.ptp with stepWait := false }
    have hset : v.keeps (s.at t) [.time, .fif, .ints, .regs] := (State.setPtp_keeps _ _).widen
    have hkeeps : (v.stepTime s.fif.ptp.offset).keeps (s.at t) [.time, .fif, .ints, .regs] := (State.stepTime_keeps _ _).after hset
    have hv : v.fif = { s.fif with ptp := { s.fif.ptp with stepWait := false } } := by simp only [v, State.setPtp_fif, State.at_fif]
    have hvtime : v.time = (s.at t).time := (State.setPtp_keeps _ _) .time (by decide)
    have hfif := State.finish_fif _ (hkeeps.calm hcalm')
    refine ⟨(v.stepTime s.fif.ptp.offset).finish, ?_, ?_, ?_, fun n hn => ?_, hkeeps.finish hcalm'⟩
    · simp only [exec, execDeferredTimeStep, State.at_dev, State.at_fif, State.at_anyRunning, hup, hwait, hrun, Bool.not_false, and_self, if_true]
      rfl
    · rw [hfif, State.stepTime_ptp, hv]
    · rw [State.finish_time _ (hkeeps.calm hcalm'), State.stepTime_time, hvtime]
      rfl
    · have hport : v.port n = s.port n := by rw [State.port, hv, State.port]
      rw [State.port, hfif, State.finish_time _ (hkeeps.calm hcalm'), State.stepTime_time, ← hport]
      exact v.stepTime_port _ (by rw [hv]; exact hlen) hn
  · refine ⟨(s.at t).finish, ?_, State.finish_at_keeps t hcalm⟩
    simp [exec, execDeferredTimeStep, State.done, hrun]
  · have hkeeps := (s.at t).setPtp_keeps { s.fif.ptp with holdover := true }
    have hcalm' := State.at_calm t hcalm
    refine ⟨((s.at t).setPtp { s.fif.ptp with holdover := true }).finish, ?_, ?_, ?_, hkeeps.finish hcalm'⟩
    · simp only [exec, execHoldover, State.at_dev, State.at_fif, State.at_ptpPort, hup, hport, hhold, hlast, Bool.not_false, and_self, if_true]
      rfl
    · rw [State.finish_fif _ (hkeeps.calm hcalm'), State.setPtp_fif]
    · rw [State.finish_ints _ (hkeeps.calm hcalm')]
      exact State.setPtp_slot_ne_idle _ (by simp [hhold])
  · let x : FieldIf := { s.fif with
      sentSync := (n, s.fif.ptp.txSeq, (s.at t).time) :: s.fif.sentSync.filter fun (e : Nat × Nat × Nat) => e.1 != n
      ptp := { s.fif.ptp with txSeq := (s.fif.ptp.txSeq + 1) % 65536 } }
    have hkeeps := (s.at t).setFif_keeps x
    have hdue' : (match s.fif.sentSync.find? fun (e : Nat × Nat × Nat) => e.1 == n with
        | some e => decide (e.2.2 + s.syncEvery ≤ (s.at t).time)
        | none => true) = true := by
      split
      next e he =>
        obtain ⟨hen, hmem⟩ := And.intro (List.find?_some he) (List.mem_of_find?_eq_some he)
        simpa using hdue e hmem (by simpa using hen)
      next => rfl
    refine ⟨({ s.at t with fif := x } : State).finish, ?_, ?_⟩
    · simp only [exec, execSyncTransmit, State.at_dev, State.at_fif, State.at_cfg, State.at_syncEvery, hup, hn, htx, true_and]
      rw [if_pos (by exact hdue')]
      rfl
    · rw [State.finish_fif _ (hkeeps.calm (State.at_calm t hcalm))]
      exact ⟨rfl, rfl, hkeeps.finish (State.at_calm t hcalm)⟩
  · let x : FieldIf := { s.fif with
      delayResp := (n, (s.at t).time) :: s.fif.delayResp.filter fun (e : Nat × Nat) => e.1 != n }
    have hkeeps := (s.at t).setFif_keeps x
    refine ⟨({ s.at t with fif := x } : State).finish, ?_, ?_⟩
    · simp only [exec, execDelayReq, State.at_dev, State.at_fif, State.at_cfg, hup, hn, htx, and_self, if_true]
      rfl
    · rw [State.finish_fif _ (hkeeps.calm (State.at_calm t hcalm))]
      exact ⟨rfl, rfl, hkeeps.finish (State.at_calm t hcalm)⟩

/-! ### Timestamp and trigger units -/

theorem State.setTsu_keeps (u : Nat) (x : TsuSt) : (s.setTsu u x).keeps s [.fif] := s.setFif_keeps _

theorem State.setTsu_tsus_same {i : Nat} (x : TsuSt) (h : i < s.fif.tsus.length) : (s.setTsu i x).fif.tsus.getD i {} = x :=
  getD_listSet_same _ _ h

theorem State.setTsu_tsus_of_ne {i j : Nat} (x : TsuSt) (h : j ≠ i) : (s.setTsu i x).fif.tsus.getD j {} = s.fif.tsus.getD j {} :=
  getD_listSet_of_ne _ _ _ h

/-- A command whose meaning is one unit replaced at an instant. -/
theorem State.finish_setTsu {s : State} {i : Nat} (t : Nat) (x : TsuSt) (hcalm : s.calm) (hi : i < s.fif.tsus.length) :
    (∀ j, j ≠ i → ((s.at t).setTsu i x).finish.fif.tsus.getD j {} = s.fif.tsus.getD j {})
      ∧ ((s.at t).setTsu i x).finish.fif.tsus.getD i {} = x ∧ ((s.at t).setTsu i x).finish.time = (s.at t).time
      ∧ ((s.at t).setTsu i x).finish.keeps (s.at t) [.fif] := by
  have hkeeps := (s.at t).setTsu_keeps i x
  have hfall := hkeeps.calm (State.at_calm t hcalm)
  rw [State.finish_fif _ hfall, State.finish_time _ hfall]
  refine ⟨fun j hj => ?_, State.setTsu_tsus_same _ _ (by simpa using hi), rfl, hkeeps.finish (State.at_calm t hcalm)⟩
  rw [State.setTsu_tsus_of_ne _ _ hj, State.at_fif]

/-- A field of a register set holds its value, where that fits. -/
theorem bits_setBits_high (w : Word) {v : Nat} (h : v < 2 ^ 16) : bits (setBits w 31 16 v).toNat 31 16 = v := by
  have hw := w.isLt
  simp only [setBits, bits, BitVec.toNat_ofNat]
  omega

/-- Settles O58: each command replaces one unit; a capture that finds 16 waiting counts in its status register too. -/
theorem timestampUnits : Obligations.TimestampUnits := by
  intro i s hcalm hi
  refine ⟨fun r rising t hrec hup hmode hedge => ?_, fun r hrec hup hmode => ?_, fun r t hrec hup hmode hsec => ?_, fun fn t hi8 hreach => ?_⟩
  · by_cases hroom : (s.fif.tsus.getD i {}).fifo.length < 16
    · let x : TsuSt := { s.fif.tsus.getD i {} with fifo := (s.fif.tsus.getD i {}).fifo ++ [(s.at t).time], lastEdge := some (s.at t).time }
      obtain ⟨hothers, hsame, -, hkeeps⟩ := State.finish_setTsu t x hcalm hi
      refine ⟨((s.at t).setTsu i x).finish, ?_, hothers, by rw [hsame], by rw [hsame, if_pos hroom], fun _ => hkeeps, fun h => by omega⟩
      simp only [exec, execCapture, State.at_fif, State.at_dev, hrec, x, hup, hmode, hedge, hroom, and_self, if_true]
      rfl
    · let v := (s.at t).wrBits (Reg.snsTsuStatus i) 31 16 (min 65535 (bits ((s.at t).rd (Reg.snsTsuStatus i)).toNat 31 16 + 1))
      let x : TsuSt := { s.fif.tsus.getD i {} with lastEdge := some (s.at t).time }
      have hkeeps : (v.setTsu i x).keeps (s.at t) [.fif, .regs] := (State.setTsu_keeps _ _ _).after (State.wrBits_keeps _ _ _ _ _).widen
      have hfall := hkeeps.calm (State.at_calm t hcalm)
      have hv : v.fif = s.fif := by simp only [v, State.wrBits_fif, State.at_fif]
      have hrd (o : Nat) : (v.setTsu i x).finish.rd o = v.rd o := State.finish_rd _ hfall o
      refine ⟨(v.setTsu i x).finish, ?_, fun j hj => ?_, ?_, ?_, fun h => absurd h hroom, fun _ => ⟨?_, fun o ho => ?_,
        hkeeps.finish (State.at_calm t hcalm)⟩⟩
      · simp only [exec, execCapture, State.at_fif, State.at_dev, hrec, x, hup, hmode, hedge, hroom, and_self, if_true, if_false]
        rfl
      · rw [State.finish_fif _ hfall, State.setTsu_tsus_of_ne _ _ hj, hv]
      · rw [State.finish_fif _ hfall, State.setTsu_tsus_same _ _ (by rw [hv]; exact hi)]
      · rw [State.finish_fif _ hfall, State.setTsu_tsus_same _ _ (by rw [hv]; exact hi), if_neg hroom]
      · rw [hrd, State.rd_wrBits_same]
        exact bits_setBits_high _ (by omega)
      · rw [hrd]
        exact State.rd_wrBits_ne _ _ _ _ _ (by simpa using ho)
  · dsimp only
    by_cases hlevel : (s.fif.tsus.getD i {}).level = true
    · obtain ⟨hothers, hsame, htime, hkeeps⟩ := State.finish_setTsu (r.start + (s.fif.tsus.getD i {}).k * r.period + r.width)
        { s.fif.tsus.getD i {} with level := false, k := (s.fif.tsus.getD i {}).k + 1 } hcalm hi
      simp only [if_pos hlevel]
      refine ⟨_, ?_, hothers, hsame, htime, hkeeps⟩
      simp only [exec, execPulse, hrec, hup, hmode, hlevel, and_self, if_true]
      rfl
    · obtain ⟨hothers, hsame, htime, hkeeps⟩ := State.finish_setTsu (r.start + (s.fif.tsus.getD i {}).k * r.period)
        { s.fif.tsus.getD i {} with level := true, lastEdge := some (tick (r.start + (s.fif.tsus.getD i {}).k * r.period)) } hcalm hi
      simp only [if_neg hlevel]
      refine ⟨_, ?_, hothers, hsame, htime, hkeeps⟩
      simp only [exec, execPulse, hrec, hup, hmode, hlevel, and_self, if_true]
      rfl
  · obtain ⟨hothers, hsame, -, hkeeps⟩ := State.finish_setTsu t { s.fif.tsus.getD i {} with lastEdge := some t } hcalm hi
    refine ⟨_, ?_, hothers, hsame, hkeeps⟩
    simp only [exec, execPps, hrec, hup, hmode, hsec, and_self, if_true]
    rfl
  · obtain ⟨hpcie, hsupp, hthere⟩ := hreach
    have hkeeps : ((s.at t).capRead fn i).keeps (s.at t) [.fif, .latches, .compl] := by simp [State.keeps_iff, State.capRead, State.readEnd, State.latchHi, State.setTsu]
    have hfall := hkeeps.calm (State.at_calm t hcalm)
    have hfif : ((s.at t).capRead fn i).fif = ((s.at t).setTsu i { s.fif.tsus.getD i {} with fifo := (s.fif.tsus.getD i {}).fifo.drop 1 }).fif := by
      simp [State.capRead, State.readEnd, State.latchHi]
    refine ⟨((s.at t).capRead fn i).finish, ?_, fun j hj => ?_, ?_, ?_, ?_, hkeeps.finish (State.at_calm t hcalm)⟩
    · have hi8' : ¬ 8 ≤ i := by omega
      simp only [exec, execTsuCapRead, State.at_pcieUp, State.at_unsupported, State.at_regThere, hpcie, hsupp, hthere, hi8', Bool.not_true,
        Bool.false_eq_true, or_self, if_false]
      rfl
    · rw [State.finish_fif _ hfall, hfif, State.setTsu_tsus_of_ne _ _ hj, State.at_fif]
    · rw [State.finish_fif _ hfall, hfif, State.setTsu_tsus_same _ _ (by simpa using hi)]
    · rw [State.finish_compl _ hfall]
      simp [State.capRead, State.readEnd]
    · rw [State.finish_hi _ hfall]
      simp [State.capRead, State.readEnd, State.latchHi]

end Sys2Proof.Machine
end

section
/-! SUPPORT. Host queues (20_host_interface.md, R433 to R441): one queue replaced, its ready completions posted, and the writes of
its registers. -/

namespace Sys2Proof.Machine

set_option Elab.async false

/-! ### One queue replaced -/

variable (s : State) {fn q : Nat}

@[simp] theorem State.at_hq (t fn q : Nat) : (s.at t).hq fn q = s.hq fn q := by simp [State.hq]

theorem State.setHq_hq_same (x : HQueue) (h : 8 * fn + q < s.hqs.length) : (s.setHq fn q x).hq fn q = x := getD_listSet_same _ _ h

theorem State.setHq_hqs_of_ne (x : HQueue) {i : Nat} (h : i ≠ 8 * fn + q) : (s.setHq fn q x).hqs.getD i {} = s.hqs.getD i {} :=
  getD_listSet_of_ne _ _ _ h

@[simp] theorem State.setHq_hqs_length (fn q : Nat) (x : HQueue) : (s.setHq fn q x).hqs.length = s.hqs.length := length_listSet _ _ _

/-! ### Completions posted -/

/-- What posting completions of a queue leaves of the queues: the other ones, and the ring indices but for the CQ's tail. -/
structure State.Posted (u s : State) (fn q : Nat) : Prop where
  rest : ∀ i, i ≠ 8 * fn + q → u.hqs.getD i {} = s.hqs.getD i {}
  length : u.hqs.length = s.hqs.length
  cqHead : (u.hq fn q).cqHead = (s.hq fn q).cqHead
  head : (u.hq fn q).head = (s.hq fn q).head
  tail : (u.hq fn q).tail = (s.hq fn q).tail

theorem State.Posted.refl (fn q : Nat) : s.Posted s fn q := ⟨fun _ _ => rfl, rfl, rfl, rfl, rfl⟩

variable {s} in
theorem State.Posted.trans {u v : State} (h : u.Posted v fn q) (k : v.Posted s fn q) : u.Posted s fn q :=
  ⟨fun i hi => (h.rest i hi).trans (k.rest i hi), h.length.trans k.length, h.cqHead.trans k.cqHead, h.head.trans k.head, h.tail.trans k.tail⟩

variable {s} in
/-- Posted completions show in the queues alone. -/
theorem State.Posted.congr {u v : State} (h : v.Posted s fn q) (hqs : u.hqs = v.hqs) : u.Posted s fn q := by
  have hq : u.hq fn q = v.hq fn q := by rw [State.hq, hqs, State.hq]
  exact ⟨fun i hi => by rw [hqs, h.rest i hi], by rw [hqs, h.length], by rw [hq, h.cqHead], by rw [hq, h.head], by rw [hq, h.tail]⟩

/-- A queue replaced by one with the same indices. -/
theorem State.setHq_posted {x : HQueue} (hcq : x.cqHead = (s.hq fn q).cqHead) (hhead : x.head = (s.hq fn q).head)
    (htail : x.tail = (s.hq fn q).tail) : (s.setHq fn q x).Posted s fn q := by
  by_cases hlen : 8 * fn + q < s.hqs.length
  · have hsame := s.setHq_hq_same x hlen
    exact ⟨fun i hi => s.setHq_hqs_of_ne x hi, s.setHq_hqs_length _ _ _, by rw [hsame, hcq], by rw [hsame, hhead], by rw [hsame, htail]⟩
  · have hnone : (s.setHq fn q x).hqs = s.hqs := by
      rw [State.setHq]
      exact List.ext_getElem (by simp) fun i h _ => by
        simp [listSet, List.getElem_set]
        intro hi
        simp at h
        omega
    exact (State.Posted.refl s fn q).congr hnone

theorem State.postOne_posted (fn q : Nat) : (s.postOne fn q).Posted s fn q := by
  unfold State.postOne
  dsimp only
  split
  next => exact .refl s fn q
  next c r hready =>
    split
    · exact .refl s fn q
    · have hset := s.setHq_posted (fn := fn) (q := q)
        (x := { s.hq fn q with
          ready := r, cqTail := ((s.hq fn q).cqTail + 1) % 2 ^ (s.hq fn q).cqSize
          phase := if ((s.hq fn q).cqTail + 1) % 2 ^ (s.hq fn q).cqSize = 0 then !(s.hq fn q).phase else (s.hq fn q).phase }) rfl rfl rfl
      refine hset.congr ?_
      split
      · exact (State.raiseP_keeps _ _ _) .hqs (by decide)
      · rfl

theorem State.postReady_posted (fn q : Nat) : (s.postReady fn q).Posted s fn q := by
  unfold State.postReady
  generalize List.range _ = l
  induction l generalizing s with
  | nil => exact .refl s fn q
  | cons _ r ih => exact (ih _).trans (s.postOne_posted fn q)

theorem State.postReady_of_nil (h : (s.hq fn q).ready = []) : s.postReady fn q = s := by simp [State.postReady, h]

/-! ### The writes of a queue's registers -/

section

variable {s} {a : RegAcc} (t : Nat) (hreach : s.takesWrite a) (hbar : a.bar = .bar0) (hq : q < 8) (hfn : fn < 9)

/-- A queue's register lies in its page. -/
theorem hifAt_page {o : Nat} (hq : q < 8) (ho : o < 0x40) : hifAt (0x10A000 + o + 0x400 * fn + 0x40 * q) = (fn, q, o) := by
  simp only [hifAt, Prod.mk.injEq]
  omega

theorem isHif_page {o : Nat} (hq : q < 8) (hfn : fn < 9) (ho : o < 0x40) : isHif (0x10A000 + o + 0x400 * fn + 0x40 * q) = true := by
  simp only [isHif, Bool.and_eq_true, decide_eq_true_eq]
  omega

include hreach hbar hq hfn in
theorem State.onQueue_of_takesWrite {o : Nat} {ok : Bool} (ho : o < 0x40) (hok : ok = true)
    (hoff : a.off = 0x10A000 + o + 0x400 * fn + 0x40 * q) (f : State → Nat → Nat → State) :
    s.onQueue a t o ok f = (f (s.at t) fn q).writeEnd := by
  simp only [State.onQueue, hoff, hifAt_page hq ho, isHif_page hq hfn ho, hbar, hok, and_self, if_true]
  exact State.onWrite_of_takesWrite hreach t _

variable {u : State}

/-- What ends a register write that has kept the device's state leaves. -/
theorem State.finish_writeEnd (hcalm : s.calm) {l : List Piece} (h : u.keeps (s.at t) l) (hdev : .dev ∉ l := by decide) :
    u.writeEnd.finish.hqs = u.hqs ∧ (∀ o, u.writeEnd.finish.rd o = u.rd o) ∧ u.writeEnd.finish.keeps (s.at t) (.compl :: l) := by
  have hend : u.writeEnd.keeps (s.at t) (.compl :: l) := (u.setCompl_keeps _).after (h.widen fun c hc => by simp [hc]) (by simp)
  have hfall := hend.calm (State.at_calm t hcalm) (by simpa using hdev)
  exact ⟨State.finish_hqs _ hfall, State.finish_rd _ hfall, hend.finish (State.at_calm t hcalm) (by simpa using hdev)⟩

end

/-- A CQ head written: the index `i`, and then what completions are posted (R440). -/
theorem State.finish_cqHead {s w : State} (t : Nat) {i : Nat} (hcalm : s.calm) (hw : w.hq fn q = { s.hq fn q with cqHead := i })
    (hrest : ∀ i, i ≠ 8 * fn + q → w.hqs.getD i {} = s.hqs.getD i {}) (hset : w.keeps (s.at t) [.hqs]) {u : State}
    (hudef : u = (w.postReady fn q).writeEnd.finish) :
    (u.hq fn q).cqHead = i ∧ (u.hq fn q).head = (s.hq fn q).head ∧ (u.hq fn q).tail = (s.hq fn q).tail
      ∧ ((s.hq fn q).ready = [] → u.hq fn q = { s.hq fn q with cqHead := i } ∧ u.keeps (s.at t) [.hqs, .compl])
      ∧ (∀ i, i ≠ 8 * fn + q → u.hqs.getD i {} = s.hqs.getD i {}) ∧ u.keeps (s.at t) [.hqs, .host, .ints, .regs, .compl] := by
  have hpost := w.postReady_posted fn q
  obtain ⟨hqs, -, hkeeps⟩ := State.finish_writeEnd t hcalm ((w.postReady_keeps fn q).after hset.widen : (w.postReady fn q).keeps (s.at t) [.hqs, .host, .regs, .ints])
  rw [← hudef] at hqs hkeeps
  have hu : u.hq fn q = (w.postReady fn q).hq fn q := by rw [State.hq, hqs, State.hq]
  refine ⟨?_, ?_, ?_, fun hready => ?_, fun i hi => ?_, hkeeps.widen⟩
  · rw [hu, hpost.cqHead, hw]
  · rw [hu, hpost.head, hw]
  · rw [hu, hpost.tail, hw]
  · have hnil : w.postReady fn q = w := State.postReady_of_nil _ (by rw [hw]; exact hready)
    obtain ⟨-, -, hk⟩ := State.finish_writeEnd t hcalm hset
    rw [hu, hudef, hnil]
    exact ⟨hw, hk.widen⟩
  · rw [hqs, hpost.rest i hi, hrest i hi]

/-- Settles O51: each write of a queue register replaces that queue, or is counted. -/
theorem hostQueues : Obligations.HostQueues := by
  intro a v t fn q s hcalm hfn hq hlen hreach hbar
  have hon {o : Nat} {ok : Bool} := State.onQueue_of_takesWrite t hreach hbar hq hfn (o := o) (ok := ok)
  have hset (x : HQueue) : ((s.at t).setHq fn q x).writeEnd.finish.hq fn q = x
      ∧ (∀ i, i ≠ 8 * fn + q → ((s.at t).setHq fn q x).writeEnd.finish.hqs.getD i {} = s.hqs.getD i {})
      ∧ ((s.at t).setHq fn q x).writeEnd.finish.keeps (s.at t) [.hqs, .compl] := by
    obtain ⟨hqs, -, hkeeps⟩ := State.finish_writeEnd t hcalm ((s.at t).setHq_keeps fn q x)
    refine ⟨?_, fun i hi => ?_, hkeeps.widen⟩
    · rw [State.hq, hqs]
      exact State.setHq_hq_same _ x (by simpa using hlen)
    · rw [hqs, State.setHq_hqs_of_ne _ _ hi, State.at_hqs]
  have hign : (s.at t).ignored.writeEnd.finish.hqs = s.hqs
      ∧ (s.at t).ignored.writeEnd.finish.rd Reg.hifDbIgnored = satAdd ((s.at t).rd Reg.hifDbIgnored) 1
      ∧ (s.at t).ignored.writeEnd.finish.regsAs (s.at t) [Reg.hifDbIgnored]
      ∧ (s.at t).ignored.writeEnd.finish.keeps (s.at t) [.regs, .compl] := by
    obtain ⟨hqs, hrd, hkeeps⟩ := State.finish_writeEnd t hcalm ((s.at t).inc_keeps Reg.hifDbIgnored 1)
    refine ⟨?_, ?_, fun o ho => ?_, hkeeps.widen⟩
    · exact hqs.trans (by simp)
    · exact (hrd _).trans (by simp [State.inc])
    · exact (hrd _).trans (State.rd_inc_ne _ _ _ _ (by simpa using ho))
  dsimp only
  refine ⟨fun hoff => ?_, fun hoff => ?_, fun hoff hv => ?_, fun hoff hv => ?_⟩
  · refine ⟨_, congrArg State.done (hon (by decide) rfl hoff _), ?_⟩
    simp only [State.sqDoorbell, State.at_hq]
    by_cases hen : (s.hq fn q).en = false
    · have hoff : (!(s.hq fn q).en) = true := by simp [hen]
      simp only [if_pos hen, if_pos hoff]
      exact hign
    · have hon : ¬ (!(s.hq fn q).en) = true := by simpa using hen
      simp only [if_neg hen, if_neg hon]
      by_cases htail : 2 ^ (s.hq fn q).sqSize ≤ v % 4096
      · simp only [if_pos htail]
        exact hset { s.hq fn q with err := qeTAIL }
      · simp only [if_neg htail]
        exact hset { s.hq fn q with tail := v % 4096 }
  · refine ⟨_, congrArg State.done (hon (by decide) rfl hoff _), ?_⟩
    simp only [State.cqDoorbell, State.at_hq]
    by_cases hen : (s.hq fn q).en = false
    · have hoff : (!(s.hq fn q).en) = true := by simp [hen]
      simp only [if_pos hen, if_pos hoff]
      exact hign
    · have hon : ¬ (!(s.hq fn q).en) = true := by simpa using hen
      simp only [if_neg hen, if_neg hon]
      refine State.finish_cqHead t hcalm (State.setHq_hq_same _ _ (by simpa using hlen)) (fun i hi => ?_) (State.setHq_keeps _ _ _ _) rfl
      rw [State.setHq_hqs_of_ne _ _ hi, State.at_hqs]
  · have hctrl : ∃ x, (s.at t).hqCtrl fn q v = (s.at t).setHq fn q x ∧ x =
        if (s.hq fn q).en = true then { s.hq fn q with irq := bit v 1 }
        else if (s.at t).enableErr fn q v ≠ 0 then
          { s.hq fn q with irq := bit v 1, sqSize := bits v 23 20, cqSize := bits v 27 24, err := (s.at t).enableErr fn q v }
        else if (s.hq fn q).idle = false then { s.hq fn q with irq := bit v 1, sqSize := bits v 23 20, cqSize := bits v 27 24 }
        else { s.hq fn q with irq := bit v 1, sqSize := bits v 23 20, cqSize := bits v 27 24, en := true, head := 0, tail := 0,
                              cqHead := 0, cqTail := 0, phase := true, err := 0, counted := false } := by
      have hidle : ({ s.hq fn q with irq := bit v 1 } : HQueue).idle = (s.hq fn q).idle := rfl
      refine ⟨_, ?_, rfl⟩
      simp only [State.hqCtrl, State.at_hq, hv, hidle, Bool.not_true, Bool.false_eq_true, if_false]
      by_cases hen : (s.hq fn q).en = true
      · simp only [if_pos hen]
      · simp only [if_neg hen]
        by_cases herr : (s.at t).enableErr fn q v ≠ 0
        · simp only [if_pos herr]
        · simp only [if_neg herr]
          cases (s.hq fn q).idle <;> rfl
    obtain ⟨x, hx, hval⟩ := hctrl
    obtain ⟨hsame, hrest, hk⟩ := hset x
    refine ⟨((s.at t).setHq fn q x).writeEnd.finish, ?_, hrest, hk, hsame.trans hval⟩
    exact (congrArg State.done (hon (by decide) hv hoff _)).trans (by rw [hx]; rfl)
  · refine ⟨_, congrArg State.done (hon (by decide) (by simp [hv]) hoff _), ?_⟩
    simp only [State.hqCtrl, State.at_hq, hv, Bool.not_false, if_true]
    exact hset _

end Sys2Proof.Machine
end

section
/-! SUPPORT. Numbers in bytes, and bytes read back after they have been stored. -/

namespace Sys2Proof.Machine

set_option Elab.async false

@[simp] theorem length_toLE (n v : Nat) : (toLE n v).length = n := by
  induction n generalizing v with
  | zero => rfl
  | succ n ih => simp [toLE, ih]

theorem ofLE_toLE (n v : Nat) : ofLE (toLE n v) = v % 256 ^ n := by
  induction n generalizing v with
  | zero => simp [toLE, ofLE, Nat.mod_one]
  | succ n ih =>
    rw [toLE, ofLE, ih, BitVec.toNat_ofNat, Nat.pow_succ' (m := 256)]
    exact Nat.mod_mul.symm

/-- Bytes stored and read back. -/
theorem peek_poke_same (m : Tab Byte) (a : Nat) (b : List Byte) : peek (poke m a b) a b.length = b := by
  refine List.ext_getElem (by simp [peek]) fun i _ hi => ?_
  simp only [peek, List.getElem_map, List.getElem_range, get_poke]
  rw [if_pos ⟨by omega, by omega⟩, Nat.add_sub_cancel_left, List.getD_eq_getElem _ _ hi]

/-- A number stored and read back. -/
theorem peekN_poke_toLE (m : Tab Byte) (a n v : Nat) : peekN (poke m a (toLE n v)) a n = v % 256 ^ n := by
  have h := peek_poke_same m a (toLE n v)
  rw [length_toLE] at h
  rw [peekN, h, ofLE_toLE]

/-- Bytes read from a memory that holds the same ones. -/
theorem peek_congr {m m' : Tab Byte} {a n : Nat} (h : ∀ x, a ≤ x → x < a + n → m.get 0#8 x = m'.get 0#8 x) : peek m a n = peek m' a n :=
  List.map_congr_left fun i hi => h _ (by omega) (by have := List.mem_range.mp hi; omega)

theorem State.peek_finish {u : State} (h : u.dev.fall = none) (a n : Nat) : u.finish.peek a n = u.peek a n :=
  peek_congr fun x _ _ => u.finish_mem h x

theorem State.peekN_finish {u : State} (h : u.dev.fall = none) (a n : Nat) : u.finish.peekN a n = u.peekN a n :=
  congrArg ofLE (State.peek_finish h a n)

theorem State.memAs_of_mem_eq {u s : State} (hmem : u.mem = s.mem) (hpsn : u.psn = s.psn) (a n : Nat) : u.memAs s a n :=
  ⟨fun _ _ => by rw [hmem], fun _ _ => by rw [hpsn]⟩

theorem State.finish_memAs {u : State} (h : u.dev.fall = none) (a n : Nat) : u.finish.memAs u a n :=
  ⟨fun x _ => u.finish_mem h x, fun l _ => u.finish_psn h l⟩

/-- Every byte that a command keeps. -/
theorem State.keeps.memAs {u s : State} {l : List Piece} (h : u.keeps s l) (a n : Nat) (hl : .mem ∉ l := by decide) : u.memAs s a n := by
  obtain ⟨hmem, hpsn⟩ := h .mem hl
  exact ⟨fun x _ => hmem x (by omega), fun l _ => hpsn l (by omega)⟩

end Sys2Proof.Machine
end

section
/-! SUPPORT. The Kettle (18_power_and_clocks.md): domains through a command's end, what Cosy loses, clocks and locks. -/

namespace Sys2Proof.Machine

set_option Elab.async false

/-! ### The Kettle at a command's end -/

section

variable {u : State} (h : u.dev.fall = none)

include h

theorem State.finish_ktl_still : u.finish.ktl.still = u.ktl.still := u.finish_keeps h .ktl (by simp)

theorem State.finish_clks : u.finish.ktl.clks = u.ktl.clks := by
  simpa only [Kettle.still] using congrArg Kettle.clks (State.finish_ktl_still h)

theorem State.finish_lock : u.finish.ktl.lock = u.ktl.lock := by
  simpa only [Kettle.still] using congrArg Kettle.lock (State.finish_ktl_still h)

end

/-- A command that keeps the Kettle keeps the locks. -/
theorem State.keeps.lock {u s : State} {l : List Piece} (h : u.keeps s l) (hl : .ktl ∉ l := by decide) : u.ktl.lock = s.ktl.lock := by
  simpa only [Kettle.still] using congrArg Kettle.lock (h .ktl hl)

/-- The idle instants looked at change no domain that is not ON. -/
theorem State.lookIdle_dom (s : State) (k : Nat) {n : Nat} (hst : (s.dom n).st ≠ .on) : (s.lookIdle k).dom n = s.dom n := by
  unfold State.lookIdle
  dsimp only
  by_cases hk : (s.dom k).st = .on
  · have hne : n ≠ k := fun heq => hst (heq ▸ hk)
    have hset (x : Dom) : (s.setDom k x).dom n = s.dom n := getD_listSet_of_ne _ _ _ hne
    simp only [hk, ne_eq, not_true_eq_false, if_false]
    split
    · split
      · rfl
      · exact hset _
    · split
      · exact hset _
      · rfl
  · simp only [ne_eq, hk, not_false_eq_true, if_true]

/-- The idle instants looked at change no domain's status. -/
theorem State.lookIdle_dom_st (s : State) (k n : Nat) : ((s.lookIdle k).dom n).st = (s.dom n).st := by
  have hset (x : Dom) (hx : x.st = (s.dom k).st) : ((s.setDom k x).dom n).st = (s.dom n).st := by
    rw [State.dom, State.setDom, getD_listSet]
    split
    next hn => rw [hx, hn.1]
    next => rfl
  unfold State.lookIdle
  dsimp only
  split
  · rfl
  · split
    · split
      · rfl
      · exact hset _ rfl
    · split
      · exact hset _ rfl
      · rfl

theorem State.foldl_lookIdle_dom (l : List Nat) (s : State) {n : Nat} (hst : (s.dom n).st ≠ .on) :
    (l.foldl State.lookIdle s).dom n = s.dom n := by
  induction l generalizing s with
  | nil => rfl
  | cons k r ih =>
    have hk := s.lookIdle_dom k hst
    exact (ih _ (by rwa [hk])).trans hk

theorem State.touchIdle_doms (s : State) : s.touchIdle.ktl.doms = (s.cosyDoms.foldl State.lookIdle s).ktl.doms := by
  unfold State.touchIdle State.lookWaits
  dsimp only
  split <;> rfl

theorem State.settlePair_ktl (s : State) (n : Nat) : (s.settlePair n).ktl = s.ktl := by
  rcases s.settlePair_eq n with h | h | ⟨-, h⟩ <;> rw [h]
  rfl

theorem State.finish_doms {u : State} (h : u.dev.fall = none) : u.finish.ktl.doms = (u.cosyDoms.foldl State.lookIdle u).ktl.doms := by
  have hrelink (s : State) : s.relink.ktl = s.ktl := by unfold State.relink; split <;> rfl
  have hsettle (s : State) : s.settle.ktl = s.ktl := foldl_field (fun s => s.ktl) _ (fun s n => s.settlePair_ktl n) _ s
  rw [State.finish_eq, State.taken_of_calm h, hsettle, hrelink, State.touchIdle_doms]

theorem State.finish_dom {u : State} (h : u.dev.fall = none) {n : Nat} (hst : (u.dom n).st ≠ .on) : u.finish.dom n = u.dom n := by
  rw [State.dom, State.finish_doms h]
  exact State.foldl_lookIdle_dom _ u hst

theorem State.finish_dom_st {u : State} (h : u.dev.fall = none) (n : Nat) : (u.finish.dom n).st = (u.dom n).st := by
  rw [State.dom, State.finish_doms h]
  exact foldl_field (fun s => (s.dom n).st) _ (fun s k => s.lookIdle_dom_st k n) _ u

/-! ### What time's passage leaves -/

/-- Two states with every piece but time, waiting trace records, memory and registers in common. -/
theorem State.eq_of_fields {u s : State} (hfuses : u.fuses = s.fuses) (hdev : u.dev = s.dev) (hhi : u.hi = s.hi) (hlo : u.lo = s.lo)
    (hcompl : u.compl = s.compl) (hloader : u.loader = s.loader) (hparts : u.parts = s.parts) (hfld : u.fld = s.fld)
    (hcores : u.cores = s.cores) (hsched : u.sched = s.sched) (hsync : u.sync = s.sync) (hwarden : u.warden = s.warden)
    (herrs : u.errs = s.errs) (hrots : u.rots = s.rots) (hints : u.ints = s.ints) (hktl : u.ktl = s.ktl) (hhqs : u.hqs = s.hqs)
    (hfif : u.fif = s.fif) (hlinks : u.links = s.links) (harrs : u.arrs = s.arrs) (hengs : u.engs = s.engs) (hround : u.round = s.round)
    (htdc : u.tdcSeen = s.tdcSeen) (hhost : u.hostW = s.hostW) (hfresh : u.fresh = s.fresh) (hqueue : u.pending = s.pending) :
    u = { s with time := u.time, traceQ := u.traceQ, mem := u.mem, psn := u.psn, regs := u.regs } := by
  cases u
  cases s
  simp_all

/-- Time's passage writes trace records, no more: what reads neither time, memory nor registers reads the same after it. -/
theorem State.at_with (s : State) (t : Nat) : ∃ a q m p r, s.at t = { s with time := a, traceQ := q, mem := m, psn := p, regs := r } := by
  refine ⟨(s.at t).time, (s.at t).traceQ, (s.at t).mem, (s.at t).psn, (s.at t).regs, ?_⟩
  apply State.eq_of_fields <;> simp

section

variable (s : State) (t : Nat)

@[simp] theorem State.at_dom (n : Nat) : (s.at t).dom n = s.dom n := by simp [State.dom]
@[simp] theorem State.at_core (n : Nat) : (s.at t).core n = s.core n := by simp [State.core]
@[simp] theorem State.at_eng (n : Nat) : (s.at t).eng n = s.eng n := by simp [State.eng]
@[simp] theorem State.at_sch (n : Nat) : (s.at t).sch n = s.sch n := by simp [State.sch]
@[simp] theorem State.at_arr (n : Nat) : (s.at t).arr n = s.arr n := by simp [State.arr]
@[simp] theorem State.at_master : (s.at t).master = s.master := by simp [State.master]
@[simp] theorem State.at_privs : (s.at t).privs = s.privs := by simp [State.privs]
@[simp] theorem State.at_sliceOn (n : Nat) : (s.at t).sliceOn n = s.sliceOn n := by simp [State.sliceOn]

@[simp] theorem State.at_domIdle (n : Nat) : (s.at t).domIdle n = s.domIdle n := by
  obtain ⟨_, _, _, _, _, h⟩ := s.at_with t
  rw [h]
  rfl

end

/-! ### Domains -/

section

variable (s : State)

theorem State.setDom_dom_same {n : Nat} (x : Dom) (h : n < s.ktl.doms.length) : (s.setDom n x).dom n = x := getD_listSet_same _ _ h

@[simp] theorem State.setEng_engs_length (i : Nat) (x : EngSt) : (s.setEng i x).engs.length = s.engs.length := length_listSet _ _ _

theorem State.setEng_eng (i : Nat) (x : EngSt) {e : Nat} (he : e < s.engs.length) : (s.setEng i x).eng e = if e = i then x else s.eng e := by
  rw [State.eng, State.setEng, getD_listSet]
  by_cases hei : e = i
  · rw [if_pos ⟨hei, hei ▸ he⟩, if_pos hei]
  · rw [if_neg fun h => hei h.1, if_neg hei, State.eng]

theorem State.cosyLoss_keeps (n : Nat) : (s.cosyLoss n).keeps s [.cores, .engs, .fld] :=
  State.keeps_ite (s.setCore_keeps _ _).widen <|
    State.keeps_ite ((State.setFld_keeps _ _).after <| (State.setEng_keeps _ _ _).after (s.setEng_keeps _ _).widen) (s.keeps_refl _)

theorem State.cosyLoss_of_core {n : Nat} (h : n < 128) :
    s.cosyLoss n = s.setCore n { s.core n with cache := [], strain := [], boxes := none, dma := (s.core n).dma.free } := by
  simp [State.cosyLoss, h]

theorem State.cosyLoss_of_shared {n : Nat} (hlo : 128 ≤ n) (hhi : n < 144) :
    (s.cosyLoss n).cores = s.cores ∧ (s.cosyLoss n).fld = { s.fld with build := none }
      ∧ (s.engs.length = 32 → ∀ e < 32, (s.cosyLoss n).eng e = if e / 2 = n - 128 then (s.eng e).stop else s.eng e) := by
  have hlow : ¬ n < 128 := by omega
  simp only [State.cosyLoss, hlow, hhi, if_true, if_false]
  refine ⟨rfl, rfl, fun hlen e he => ?_⟩
  change ((s.setEng (2 * (n - 128)) (s.eng (2 * (n - 128))).stop).setEng (2 * (n - 128) + 1) (s.eng (2 * (n - 128) + 1)).stop).eng e = _
  rw [State.setEng_eng _ _ _ (by simpa [hlen] using he), State.setEng_eng _ _ _ (by simpa [hlen] using he)]
  by_cases hodd : e = 2 * (n - 128) + 1
  · rw [if_pos hodd, if_pos (by omega), hodd]
  · rw [if_neg hodd]
    by_cases heven : e = 2 * (n - 128)
    · rw [if_pos heven, if_pos (by omega), heven]
    · rw [if_neg heven, if_neg (by omega)]

theorem State.cosyLoss_of_other {n : Nat} (h : 144 ≤ n) : s.cosyLoss n = s := by
  have hlow : ¬ n < 128 := by omega
  have hmid : ¬ n < 144 := by omega
  simp only [State.cosyLoss, hlow, hmid, if_false]

theorem State.setCore_core_of_ne (k : Nat) (x : CoreSt) {j : Nat} (h : j ≠ k) : (s.setCore k x).core j = s.core j := getD_listSet_of_ne _ _ _ h

/-- A core replaced, in terms of a property that an absent core has too. -/
theorem State.setCore_core_of {k : Nat} {x : CoreSt} (P : CoreSt → Prop) (hx : P x) (hnone : s.cores.length ≤ k → P {}) :
    P ((s.setCore k x).core k) := by
  rw [State.core, State.setCore, getD_listSet]
  by_cases hk : k < s.cores.length
  · rwa [if_pos ⟨rfl, hk⟩]
  · rw [if_neg fun h => hk h.2, List.getD_eq_default _ _ (by omega)]
    exact hnone (by omega)

/-- Field store g's state replaced. -/
def State.setFstore (g : Nat) (x : StoreSt) : State := { s with fld := { s.fld with stores := listSet s.fld.stores g x } }

@[simp] theorem State.setFstore_ktl (g : Nat) (x : StoreSt) : (s.setFstore g x).ktl = s.ktl := rfl
@[simp] theorem State.setFstore_mem (g : Nat) (x : StoreSt) : (s.setFstore g x).mem = s.mem := rfl
@[simp] theorem State.setFstore_psn (g : Nat) (x : StoreSt) : (s.setFstore g x).psn = s.psn := rfl

theorem State.setFstore_keeps (g : Nat) (x : StoreSt) : (s.setFstore g x).keeps s [.fld] := s.setFld_keeps _

theorem State.setFstore_same {g : Nat} (x : StoreSt) (h : g < s.fld.stores.length) : (s.setFstore g x).fstore g = x :=
  getD_listSet_same _ _ h

/-- A store shut shows CLOSED (R300). -/
theorem State.shut_bit (g : Nat) : bit ((s.shut g).peekN (storeBase g + stControl) 8) 17 = true := by
  have hmem : (s.shut g).mem = Machine.poke s.mem (storeBase g + stControl) (toLE 8 (s.peekN (storeBase g + stControl) 8 ||| 2 ^ 17)) := by
    rw [State.shut, State.store_mem, State.poke]
  rw [State.peekN, hmem, peekN_poke_toLE, bit, show (256 : Nat) ^ 8 = 2 ^ 64 by norm_num, Nat.testBit_mod_two_pow]
  rw [Nat.testBit_or, Nat.testBit_two_pow]
  simp

theorem State.rd_inc_same (o n : Nat) : (s.inc o n).rd o = satAdd (s.rd o) n := by
  unfold State.inc
  split
  next h => rw [h, satAdd, Nat.add_zero, if_pos (by have := (s.rd o).isLt; omega), BitVec.ofNat_toNat, BitVec.setWidth_eq]
  next => rw [State.rd_wr_same]

@[simp] theorem State.shut_ktl (g : Nat) : (s.shut g).ktl = s.ktl := by rw [State.shut, State.store_ktl]

@[simp] theorem State.shut_fld (g : Nat) : (s.shut g).fld = s.fld := by rw [State.shut, State.store_fld]

/-- A field store that wakes (R300). -/
theorem State.storeWoken_of_store {n : Nat} (h : 144 ≤ n ∧ n < 160) :
    s.storeWoken n = (s.shut (n - 144)).setFstore (n - 144) { ready := false, excluded := true, copying := true, copied := false } := by
  simp only [State.storeWoken, h, and_self, if_true, State.setFstore]

theorem State.storeWoken_ktl (n : Nat) : (s.storeWoken n).ktl = s.ktl := by
  by_cases h : 144 ≤ n ∧ n < 160
  · rw [s.storeWoken_of_store h, State.setFstore_ktl, State.shut_ktl]
  · rw [State.storeWoken, if_neg h]

theorem State.storeWoken_keeps (n : Nat) : (s.storeWoken n).keeps s [.fld, .mem, .regs] :=
  State.keeps_ite ((State.setFld_keeps _ _).after (s.shut_keeps _).widen) (s.keeps_refl _)

theorem State.storeWoken_fstore {n : Nat} (h : 144 ≤ n ∧ n < 160) (hlen : s.fld.stores.length = 16) :
    (s.storeWoken n).fstore (n - 144) = { ready := false, excluded := true, copying := true, copied := false } := by
  rw [s.storeWoken_of_store h]
  exact State.setFstore_same _ _ (by rw [s.shut_fld]; omega)

theorem State.storeWoken_mem {n : Nat} (h : 144 ≤ n ∧ n < 160) :
    (s.storeWoken n).mem = (s.shut (n - 144)).mem ∧ (s.storeWoken n).psn = (s.shut (n - 144)).psn := by
  rw [s.storeWoken_of_store h, State.setFstore_mem, State.setFstore_psn]
  exact ⟨rfl, rfl⟩

theorem State.shut_memAs (g : Nat) : (s.shut g).memAs s (storeBase g + stControl) 8 := by
  have h := s.store_memAs (storeBase g + stControl) (toLE 8 (s.peekN (storeBase g + stControl) 8 ||| 2 ^ 17))
  rwa [length_toLE] at h

/-! ### Numbers with one bit set or cleared -/

theorem testBit_add_two_pow {x p : Nat} (h : x.testBit p = false) (i : Nat) : (x + 2 ^ p).testBit i = (x.testBit i || i == p) := by
  rw [Nat.add_comm]
  rcases Nat.lt_trichotomy i p with hlt | rfl | hgt
  · rw [Nat.testBit_two_pow_add_gt hlt]
    simp [Nat.ne_of_lt hlt]
  · rw [Nat.testBit_two_pow_add_eq, h]
    simp
  · -- no carry leaves bit p, so the bits above it stay
    have hlow : x / 2 ^ p % 2 ≠ 1 := by simpa [Nat.testBit_eq_decide_div_mod_eq] using h
    have hdiv : (2 ^ p + x) / 2 ^ (p + 1) = x / 2 ^ (p + 1) := by
      rw [Nat.pow_succ, ← Nat.div_div_eq_div_mul, ← Nat.div_div_eq_div_mul, Nat.add_div_left _ (by positivity)]
      omega
    obtain ⟨k, rfl⟩ : ∃ k, i = k + (p + 1) := ⟨i - (p + 1), by omega⟩
    rw [← Nat.testBit_div_two_pow, hdiv, Nat.testBit_div_two_pow]
    simp [show k + (p + 1) ≠ p by omega]

theorem testBit_sub_two_pow {x p : Nat} (h : x.testBit p = true) (i : Nat) : (x - 2 ^ p).testBit i = (x.testBit i && i != p) := by
  have hle : 2 ^ p ≤ x := Nat.ge_two_pow_of_testBit h
  have hx : 2 ^ p + (x - 2 ^ p) = x := by omega
  have hp : (x - 2 ^ p).testBit p = false := by
    have := Nat.testBit_two_pow_add_eq (x - 2 ^ p) p
    rw [hx, h] at this
    simpa using this.symm
  have hadd := testBit_add_two_pow hp i
  rw [Nat.add_comm, hx] at hadd
  by_cases hi : i = p
  · subst hi; simp [hp]
  · simp [hadd, bne, beq_eq_false_iff_ne.mpr hi]

end

/-! ### Settled -/

theorem exec_cosyEntry {s : State} {n : Nat} (t : Nat) (hn : n < 176) (hup : s.dev.up = true) (hbit : bit s.ktl.sec.cosy n = true)
    (hon : (s.dom n).st = .on) (hidle : s.domIdle n = true) (hlong : (s.dom n).idleAt + s.ktl.sec.idleUs * 1000 ≤ (s.at t).time)
    (hslice : s.sliceOn n = false) :
    exec (.cosyEntry n t) s = .next ((((s.at t).setDom n { s.dom n with st := .cosy, idleAt := (s.at t).time }).cosyLoss n).inc Reg.ktlCosyEntry).finish := by
  simp only [exec, execCosyEntry, State.at_dom, State.at_dev, State.at_ktl, State.at_domIdle, State.at_sliceOn, hn, hup, hbit, hon, hidle, hlong,
    hslice, Bool.not_false, and_self, if_true]
  rfl

theorem cosyEntry_domains :
    ∀ (n t : Nat) (s : State), s.calm → n < 176 → s.ktl.doms.length = 176 → s.dev.up = true → bit s.ktl.sec.cosy n = true →
    (s.dom n).st = .on → s.domIdle n = true → (s.dom n).idleAt + s.ktl.sec.idleUs * 1000 ≤ (s.at t).time → s.sliceOn n = false →
    ∃ u, exec (.cosyEntry n t) s = .next u ∧ (u.dom n).st = .cosy ∧ (u.dom n).idleAt = (s.at t).time
      ∧ (n < 128 → (u.core n).cache = [] ∧ (u.core n).strain = [] ∧ (u.core n).boxes = none ∧ (u.core n).dma = (s.core n).dma.free
          ∧ (u.core n).slots = (s.core n).slots)
      ∧ (∀ k, k ≠ n → u.core k = s.core k)
      ∧ (if 128 ≤ n ∧ n < 144 then u.fld.build = none ∧ u.fld.stores = s.fld.stores
            ∧ (s.engs.length = 32 → ∀ e, e < 32 → u.eng e = if e / 2 = n - 128 then (s.eng e).stop else s.eng e)
         else u.engs = s.engs ∧ u.fld = s.fld)
      ∧ u.rd Reg.ktlCosyEntry = satAdd ((s.at t).rd Reg.ktlCosyEntry) 1
      ∧ u.regsAs (s.at t) [Reg.ktlCosyEntry] ∧ u.keeps (s.at t) [.ktl, .cores, .regs, .engs, .fld] := by
  intro n t s hcalm hn hlen hup hbit hon hidle hlong hslice
  let x : Dom := { s.dom n with st := .cosy, idleAt := (s.at t).time }
  let v := (((s.at t).setDom n x).cosyLoss n).inc Reg.ktlCosyEntry
  have hcalm' := State.at_calm t hcalm
  have hloss := ((s.at t).setDom n x).cosyLoss_keeps n
  have hinc := (((s.at t).setDom n x).cosyLoss n).inc_keeps Reg.ktlCosyEntry 1
  have hkeeps : v.keeps (s.at t) [.ktl, .cores, .regs, .engs, .fld] :=
    hinc.after <| hloss.after ((s.at t).setDom_keeps n x).widen
  have hfall := hkeeps.calm hcalm'
  have hvktl : v.ktl = ((s.at t).setDom n x).ktl := by
    rw [State.inc_ktl]
    unfold State.cosyLoss
    split
    · rfl
    · split <;> rfl
  have hvdom : v.dom n = x := by
    rw [State.dom, hvktl]
    exact (s.at t).setDom_dom_same x (by simpa [hlen] using hn)
  have hcore (k : Nat) : v.finish.core k = (((s.at t).setDom n x).cosyLoss n).core k := by
    rw [State.finish_core hfall]
    simp [v, State.core]
  have hcoreAt (k : Nat) : ((s.at t).setDom n x).core k = s.core k := s.at_core t k
  refine ⟨v.finish, exec_cosyEntry t hn hup hbit hon hidle hlong hslice, ?_, ?_, fun hlow => ?_, fun k hk => ?_, ?_, ?_, fun o ho => ?_,
    hkeeps.finish hcalm'⟩
  · rw [State.finish_dom_st hfall, hvdom]
  · rw [State.finish_dom hfall (by simp [hvdom, x]), hvdom]
  · rw [hcore, State.cosyLoss_of_core _ hlow]
    refine State.setCore_core_of _ (fun c => c.cache = [] ∧ c.strain = [] ∧ c.boxes = none ∧ c.dma = (s.core n).dma.free ∧ c.slots = (s.core n).slots)
      ?_ fun hnone => ?_
    · rw [hcoreAt]
      exact ⟨rfl, rfl, rfl, rfl, rfl⟩
    · have hdef : s.core n = {} := List.getD_eq_default _ _ (by simpa [State.setDom] using hnone)
      rw [hdef]
      exact ⟨rfl, rfl, rfl, rfl, rfl⟩
  · rw [hcore]
    by_cases hlow : n < 128
    · rw [State.cosyLoss_of_core _ hlow, State.setCore_core_of_ne _ _ _ hk]
      exact s.at_core t k
    · have hcores : (((s.at t).setDom n x).cosyLoss n).cores = s.cores := by
        simp only [State.cosyLoss, hlow, if_false]
        split <;> simp [State.setDom, State.setEng]
      rw [State.core, hcores, State.core]
  · have hfld : v.finish.fld = (((s.at t).setDom n x).cosyLoss n).fld := (State.finish_fld _ hfall).trans (by simp [v])
    have hengs : v.finish.engs = (((s.at t).setDom n x).cosyLoss n).engs := (State.finish_engs _ hfall).trans (by simp [v])
    have heng (e : Nat) : v.finish.eng e = (((s.at t).setDom n x).cosyLoss n).eng e := by rw [State.eng, hengs, State.eng]
    have hfldAt : ((s.at t).setDom n x).fld = s.fld := s.at_fld t
    have hengsAt : ((s.at t).setDom n x).engs = s.engs := s.at_engs t
    have hengAt (e : Nat) : ((s.at t).setDom n x).eng e = s.eng e := s.at_eng t e
    split
    next hshared =>
      obtain ⟨-, hbuild, hstop⟩ := State.cosyLoss_of_shared ((s.at t).setDom n x) hshared.1 hshared.2
      rw [hfld, hbuild, hfldAt]
      refine ⟨rfl, rfl, fun hlen32 e he => ?_⟩
      rw [heng, hstop (by rw [hengsAt]; exact hlen32) e he, hengAt]
    next hshared =>
      rw [hengs, hfld]
      by_cases hlow : n < 128
      · rw [State.cosyLoss_of_core _ hlow]
        exact ⟨hengsAt, hfldAt⟩
      · rw [State.cosyLoss_of_other _ (by omega)]
        exact ⟨hengsAt, hfldAt⟩
  · rw [State.finish_rd _ hfall, State.rd_inc_same, hloss .regs (by decide) _ (by simp)]
    rfl
  · rw [State.finish_rd _ hfall, State.rd_inc_ne _ _ _ _ (by simpa using ho), hloss .regs (by decide) _ (by simp)]
    rfl

theorem wake_domains :
    ∀ (n t : Nat) (s : State), s.calm → n < 176 → (s.dom n).st = .waking → s.fld.stores.length = 16 →
    ∃ u, exec (.wake n t) s = .next u ∧ (u.dom n).st = .on ∧
      if 144 ≤ n ∧ n < 160 then
        u.fstore (n - 144) = { ready := false, excluded := true, copying := true, copied := false }
          ∧ bit (u.peekN (storeBase (n - 144) + stControl) 8) 17 = true
          ∧ u.memAs (s.at t) (storeBase (n - 144) + stControl) 8 ∧ u.keeps (s.at t) [.ktl, .fld, .mem, .regs]
      else u.keeps (s.at t) [.ktl] := by
  intro n t s hcalm hn hwaking hstores
  let x : Dom := { s.dom n with st := .on, idleAt := (s.at t).time }
  have hcalm' := State.at_calm t hcalm
  have hlt : n < s.ktl.doms.length := by
    by_contra hnone
    have hdef : s.dom n = {} := List.getD_eq_default _ _ (by omega)
    simp [hdef] at hwaking
  have hexec : exec (.wake n t) s = .next (((s.at t).setDom n x).storeWoken n).finish := by
    simp only [exec, execWake, State.at_dom, hn, hwaking, and_self, if_true]
    rfl
  have hdom := (s.at t).setDom_dom_same x (by simpa using hlt)
  generalize hw : (s.at t).setDom n x = w at *
  have hkeeps : (w.storeWoken n).keeps (s.at t) [.ktl, .fld, .mem, .regs] :=
    (w.storeWoken_keeps n).after (hw ▸ ((s.at t).setDom_keeps n x).widen)
  have hfall := hkeeps.calm hcalm'
  have hst : ((w.storeWoken n).finish.dom n).st = .on := by
    rw [State.finish_dom_st hfall, State.dom, w.storeWoken_ktl]
    exact congrArg Dom.st hdom
  refine ⟨(w.storeWoken n).finish, hexec, hst, ?_⟩
  split
  next hstore =>
    obtain ⟨hmem, hpsn⟩ := w.storeWoken_mem hstore
    refine ⟨?_, ?_, ?_, hkeeps.finish hcalm'⟩
    · rw [State.fstore, State.finish_fld _ hfall]
      exact w.storeWoken_fstore hstore (by rw [← hw]; simpa [State.setDom] using hstores)
    · rw [State.peekN_finish hfall, State.peekN, hmem]
      exact w.shut_bit _
    · refine State.memAs_trans (State.finish_memAs hfall _ _) ?_
      refine State.memAs_trans (State.memAs_of_mem_eq hmem hpsn _ _) (State.memAs_trans (w.shut_memAs _) ?_)
      exact (hw ▸ (s.at t).setDom_keeps n x : w.keeps (s.at t) [.ktl]).memAs _ _
  next hstore =>
    have hwoken : w.storeWoken n = w := if_neg hstore
    rw [hwoken]
    exact (hw ▸ (s.at t).setDom_keeps n x : w.keeps (s.at t) [.ktl]).finish hcalm'

theorem stepUp_clocks :
    ∀ (c t : Nat) (s : State), s.calm → c < 18 → (s.ktl.clks.getD c {}).target < (s.ktl.clks.getD c {}).step →
    ∃ u, exec (.stepUp c t) s = .next u ∧ (u.ktl.clks.getD c {}).step = (s.ktl.clks.getD c {}).target
      ∧ (∀ i, i ≠ c → u.ktl.clks.getD i {} = s.ktl.clks.getD i {}) ∧ u.keeps (s.at t) [.ktl] := by
  intro c t s hcalm hc hstep
  let x : Clk := { s.ktl.clks.getD c {} with step := (s.ktl.clks.getD c {}).target
                                             capped := (s.ktl.clks.getD c {}).capped && decide (0 < (s.ktl.clks.getD c {}).target) }
  have hcalm' := State.at_calm t hcalm
  have hlt : c < s.ktl.clks.length := by
    by_contra hnone
    rw [List.getD_eq_default _ _ (by omega)] at hstep
    simp at hstep
  have hkeeps := (s.at t).setKtl_keeps { s.ktl with clks := listSet s.ktl.clks c x }
  refine ⟨({ s.at t with ktl := { s.ktl with clks := listSet s.ktl.clks c x } } : State).finish, ?_, ?_, fun i hi => ?_, hkeeps.finish hcalm'⟩
  · simp only [exec, execStepUp, State.at_ktl, hc, hstep, and_self, if_true]
    rfl
  · rw [State.finish_clks (hkeeps.calm hcalm')]
    exact congrArg Clk.step (getD_listSet_same _ _ hlt)
  · rw [State.finish_clks (hkeeps.calm hcalm')]
    exact getD_listSet_of_ne _ _ _ hi

theorem pllLockLoss_lock :
    ∀ (p t : Nat) (s : State), s.calm → p < 28 → bit s.ktl.lock p = true →
    ∃ u, exec (.pllLockLoss p t) s = .next u ∧ (∀ i, bit u.ktl.lock i = (bit s.ktl.lock i && i != p))
      ∧ u.rd Reg.ktlPllLoss = satAdd ((s.at t).rd Reg.ktlPllLoss) 1 ∧ (u.ints.slot isrcKETTLE 0).st ≠ .idle
      ∧ u.keeps (s.at t) [.ktl, .regs, .ints] := by
  intro p t s hcalm hp hlock
  let w : State := { s.at t with ktl := { s.ktl with lock := s.ktl.lock - 2 ^ p } }
  have hcalm' := State.at_calm t hcalm
  have hkeeps : ((w.inc Reg.ktlPllLoss).raise isrcKETTLE).keeps (s.at t) [.ktl, .regs, .ints] :=
    (State.raise_keeps _ _).after <| (w.inc_keeps _ _).after ((s.at t).setKtl_keeps _).widen
  have hfall := hkeeps.calm hcalm'
  refine ⟨((w.inc Reg.ktlPllLoss).raise isrcKETTLE).finish, ?_, fun i => ?_, ?_, ?_, hkeeps.finish hcalm'⟩
  · simp only [exec, execPllLockLoss, State.at_ktl, hp, hlock, and_self, if_true]
    rfl
  · have hcount : ((w.inc Reg.ktlPllLoss).raise isrcKETTLE).keeps w [.regs, .ints] :=
      (State.raise_keeps _ _).after (w.inc_keeps _ _).widen
    rw [State.finish_lock hfall, hcount.lock]
    exact testBit_sub_two_pow hlock i
  · rw [State.finish_rd _ hfall, State.raise_rd _ _ _ (by decide) (by decide), State.rd_inc_same]
    rfl
  · rw [State.finish_ints _ hfall]
    exact State.raise_slot_ne_idle _ _

theorem pllRelock_lock :
    ∀ (p t : Nat) (s : State), s.calm → p < 28 → s.dev.up = true → bit s.ktl.lock p = false →
    ∃ u, exec (.pllRelock p t) s = .next u ∧ (∀ i, bit u.ktl.lock i = (bit s.ktl.lock i || i == p)) ∧ u.keeps (s.at t) [.ktl] := by
  intro p t s hcalm hp hup hlock
  have hcalm' := State.at_calm t hcalm
  have hkeeps := (s.at t).setKtl_keeps { s.ktl with lock := s.ktl.lock + 2 ^ p }
  refine ⟨({ s.at t with ktl := { s.ktl with lock := s.ktl.lock + 2 ^ p } } : State).finish, ?_, fun i => ?_, hkeeps.finish hcalm'⟩
  · simp only [exec, execPllRelock, State.at_ktl, State.at_dev, hp, hup, hlock, Bool.not_false, and_self, if_true]
    rfl
  · rw [State.finish_lock (hkeeps.calm hcalm')]
    exact testBit_add_two_pow hlock i

/-- Settles O40: each command replaces one domain, clock or lock bit; what Cosy loses is a core's state, or its cluster's shared part. -/
theorem kettleDomains : Obligations.KettleDomains :=
  ⟨cosyEntry_domains, wake_domains, stepUp_clocks, pllLockLoss_lock, pllRelock_lock⟩

end Sys2Proof.Machine
end

section
/-! SUPPORT. The Kettle's trip through the resets that it causes: retirements, ended waits and a warm reset change domains, clocks and
loans of the Kettle, never its trip. -/

namespace Sys2Proof.Machine

set_option Elab.async false

/-- Two states agree whether the Kettle has tripped. -/
def State.tripAs (u s : State) : Prop := u.ktl.trip = s.ktl.trip

variable {s : State}

theorem State.tripAs.trans {w u s : State} (h : w.tripAs u) (k : u.tripAs s) : w.tripAs s := Eq.trans h k

theorem State.keeps.tripAs {u : State} {l : List Piece} (h : u.keeps s l) (hl : .ktl ∉ l := by decide) : u.tripAs s := by
  simpa only [Kettle.still, State.tripAs] using congrArg Kettle.trip (h .ktl hl)

theorem State.tripAs_ite {c : Prop} [Decidable c] {a b : State} (ha : a.tripAs s) (hb : b.tripAs s) :
    (if c then a else b).tripAs s := by
  split
  · exact ha
  · exact hb

theorem State.tripAs_foldl {α : Type} {f : State → α → State} (hf : ∀ v x, (f v x).tripAs v) {u : State} (h : u.tripAs s) (xs : List α) :
    (xs.foldl f u).tripAs s := by
  induction xs generalizing u with
  | nil => exact h
  | cons x r ih => exact ih ((hf u x).trans h)

variable (s)

theorem State.tripAs_refl : s.tripAs s := rfl

theorem Kettle.lower_trip (k : Kettle) (i : Nat) : (k.lower i).trip = k.trip := by
  unfold Kettle.lower
  extract_lets floor c
  clear_value floor
  split
  · rfl
  · split <;> rfl

theorem Kettle.repay_trip (n : Nat) (k : Kettle) : (Kettle.repay n k).trip = k.trip := by
  induction n generalizing k with
  | zero => rfl
  | succ n ih =>
    unfold Kettle.repay
    split
    · rfl
    · split
      · rfl
      · rw [ih]
        exact Kettle.lower_trip _ _

theorem State.endLoan_tripAs (k : Nat) : (s.endLoan k).tripAs s :=
  State.tripAs_ite (Kettle.repay_trip _ _) s.tripAs_refl

theorem State.reissue_tripAs (k : Nat) : (s.reissue k).tripAs s := by
  have h (v : State) (x : SyncSt) : (({ v with sync := x } : State).endLoan k).tripAs v :=
    (State.endLoan_tripAs _ k).trans ((v.setSync_keeps x).tripAs)
  exact ((State.setCore_keeps _ _ _).tripAs).trans (((State.setSch_keeps _ _ _).tripAs).trans (h s _))

theorem State.setDom_tripAs (n : Nat) (x : Dom) : (s.setDom n x).tripAs s := rfl

theorem State.powerOff_tripAs (u : Nat) : (s.powerOff u).tripAs s :=
  State.tripAs_ite (s.setDom_tripAs _ _) <| State.tripAs_ite (State.tripAs_foldl (fun v _ => v.setDom_tripAs _ _) s.tripAs_refl _) <|
    State.tripAs_ite (s.setDom_tripAs _ _) s.tripAs_refl

theorem State.retireOne_tripAs (u sub ref t : Nat) : (s.retireOne u sub ref t).tripAs s := by
  unfold State.retireOne
  refine State.tripAs_ite rfl ?_
  have hlisted : ((((s.listRetired u sub).log
      { kind := ekRETIRED, act := 7, unit := u + sub * 4096, time := t, ref }).inc Reg.errRetireCount).raise isrcRETIRED).tripAs s :=
    ((State.raise_keeps _ _).after (l := [.regs, .ints]) (m := [.errs, .fresh, .mem, .regs, .ints]) <| (State.inc_keeps _ _ _).after <|
      (State.log_keeps _ _).after (s.listRetired_keeps _ _).widen).tripAs
  have hout := State.tripAs_ite (c := sub = 0) ((State.dropSlices_keeps _ u).tripAs.trans hlisted) hlisted
  refine State.tripAs_ite (((State.setFault_keeps _ _).tripAs).trans ((State.replayLane_keeps _ _).tripAs.trans hout)) <| State.tripAs_ite ?_ <|
    State.tripAs_ite ((State.powerOff_tripAs _ _).trans ((State.noResult_keeps _ _).tripAs.trans hout)) <|
    State.tripAs_ite ((State.powerOff_tripAs _ _).trans ((State.endRuns_keeps _ _ _ _ _).tripAs.trans hout))
      ((State.powerOff_tripAs _ _).trans hout)
  have hcore := (State.failUnserved_keeps _ (u / 512)).tripAs.trans <| (State.reissue_tripAs _ (u / 512 * 64 + u % 512)).trans <|
    (State.readmit_keeps _ (u / 512 * 64 + u % 512)).tripAs.trans <| (State.returnSlots_keeps _ (u / 512 * 64 + u % 512)).tripAs.trans <|
    (State.unhost_keeps _ (u / 512 * 64 + u % 512)).tripAs.trans hout
  have hbuf (c : Prop) [Decidable c] := State.tripAs_ite (c := c) ((State.discardBuf_keeps _ (u / 512 * 64 + u % 512)).tripAs.trans hcore) hcore
  exact State.tripAs_ite (hbuf _) ((State.powerOff_tripAs _ _).trans (hbuf _))

theorem State.retire_tripAs (u sub ref t : Nat) : (s.retire u sub ref t).tripAs s := by
  have hone := s.retireOne_tripAs u sub ref t
  have hlane := State.tripAs_ite (c := sub ≠ 0 ∧ (((s.retireOne u sub ref t).lanesOut (u / 512 * 64 + u % 512)
    (if sub ≤ 4 then 1 else 5)).length = 4)) ((State.retireOne_tripAs _ u 0 ref t).trans hone) hone
  exact (State.stopUnable_keeps _ _ _).tripAs.trans <| State.tripAs_ite
    (State.tripAs_foldl (fun s _ => s.retireOne_tripAs _ _ _ _) ((State.setFld_keeps _ _).tripAs.trans hlane) _) hlane

theorem State.isolate_tripAs (u ref t : Nat) : (s.isolate u ref t).tripAs s := by
  have hcount := (s.inc_keeps Reg.errLasting 1).tripAs
  have hslices (x : FaultSt) (r : List Rotation) : ({ (s.inc Reg.errLasting).setFault x with rots := r } : State).tripAs s :=
    ((State.setRots_keeps _ _).tripAs).trans ((State.setFault_keeps _ _).tripAs.trans hcount)
  exact State.tripAs_ite
    (State.tripAs_ite
      ((State.failUnserved_keeps _ _).tripAs.trans <| (State.returnSlots_keeps _ _).tripAs.trans <|
        (State.unhost_keeps _ _).tripAs.trans (hslices _ _))
      (hslices _ _)) <|
    State.tripAs_ite ((State.retire_tripAs _ _ _ _ _).trans hcount) hcount

theorem State.countCore_tripAs (c : Confirm) (k t : Nat) : (s.countCore c k t).tripAs s := by
  have hrecord (v : State) (hv : v.tripAs s) (r : ErrRec) : (v.record r).2.tripAs s := (State.record_keeps _ _).tripAs.trans hv
  have hclear := State.tripAs_ite (c := (s.faultSt (.unit (coreUnit k) 0)).phase = .confirm)
    (s.setFault_keeps { s.faultSt (.unit (coreUnit k) 0) with phase := .watch }).tripAs (s.keeps_refl []).tripAs
  have hcount := (State.countOf_keeps _ k ekREPLAY_DISAGREE t).tripAs.trans hclear
  unfold State.countCore
  dsimp only
  refine State.tripAs_ite rfl ?_
  generalize State.countOf _ k ekREPLAY_DISAGREE t = r at hcount
  exact State.tripAs_ite ((State.isolate_tripAs _ _ _ _).trans (hrecord _ hcount _)) (hrecord _ hcount _)

theorem State.unresolved_tripAs (c : Confirm) (t : Nat) : (s.unresolved c t).tripAs s :=
  (State.countCore_tripAs _ _ _ _).trans <| (State.countCore_tripAs _ _ _ _).trans <|
    ((State.clearSuspect_keeps _ _).after (m := [.regs, .errs]) (s.inc_keeps _ _).widen).tripAs

theorem State.allUnresolved_tripAs (t : Nat) : (s.allUnresolved t).tripAs s :=
  State.tripAs_foldl (fun s c => s.unresolved_tripAs c t) (s.setErrs_keeps _).tripAs _

theorem State.dropWaits_tripAs (keep : Wait → Bool) : (s.dropWaits keep).tripAs s := by
  refine State.tripAs_foldl (fun s w => ?_) rfl _
  have hsync := (s.setSync_keeps { s.sync with waits := s.sync.waits.filter (· != w) }).tripAs
  dsimp only
  split
  · exact (State.dmaResume_keeps _ _ _).tripAs.trans ((State.endLoan_tripAs _ _).trans hsync)
  · exact (State.hqEnd_keeps _ _ _ _ _).tripAs.trans hsync
  · exact hsync

theorem State.initCounters_tripAs (p : Nat) : (s.initCounters p).tripAs s :=
  (State.armMons_keeps _ _).tripAs.trans <| State.tripAs_foldl (fun s _ => (s.setTword_keeps _ _).tripAs) (s.dropWaits_tripAs _) _

theorem State.warmRuns_tripAs (t : Nat) : (s.warmRuns t).tripAs s :=
  (State.dropWaits_tripAs _ _).trans <| State.tripAs_foldl (fun s p => (s.abortCopies_keeps _).tripAs)
    (State.tripAs_foldl (fun s p => s.initCounters_tripAs p)
      ((State.endRuns_keeps _ _ _ _ _).tripAs.trans (s.endRuns_keeps _ _ _ _).tripAs) _) _

theorem State.warmClear_tripAs (t : Nat) : (s.warmClear t).tripAs s := by
  rw [s.warmClear_eq]
  exact (State.warmWipe_keeps _).tripAs.trans <| (State.clearCounts_keeps _ _).tripAs.trans <| (State.warmCut_keeps _).tripAs.trans
    (s.warmRuns_tripAs t)

theorem State.warmReset_tripAs (cause t : Nat) (hold : Bool) : (s.warmReset cause t hold).tripAs s := by
  unfold State.warmReset
  split
  · rfl
  · extract_lets ended carried unres cleared kettle woken device asserted cut fresh
    have hunres : unres.tripAs s := (State.allUnresolved_tripAs _ _).trans <|
      ((State.carryRound_keeps _).after (m := [.loader, .parts, .round, .regs, .ints]) (s.endSteep_keeps _).widen).tripAs
    have hcleared : cleared.tripAs s := (State.warmClear_tripAs _ _).trans ((State.warmParts_keeps _ _).tripAs.trans hunres)
    clear_value cleared
    have hasserted : asserted.tripAs cleared := rfl
    have hcut : cut.tripAs asserted := ((State.linksDown_keeps _).after (m := [.rots, .regs, .ints]) <|
      (State.abandonSlice_keeps _ _).after (State.abandonSlice_keeps _ _).widen).tripAs
    have hfresh : fresh.tripAs cut := ((State.newInterval_keeps _ _ _).after (m := [.rots]) (State.newInterval_keeps _ _ _)).tripAs
    exact (State.trigger_keeps _ _ _ _ _).tripAs.trans (hfresh.trans (hcut.trans (hasserted.trans hcleared)))

theorem State.finish_tripAs : s.finish.tripAs s := by
  refine (s.finish_keeps_taken).tripAs.trans ?_
  unfold State.taken
  split
  · rw [State.fallBack_eq]
    exact (State.warmReset_tripAs _ _ _ _).trans ((State.fallState_keeps _ _).tripAs.trans (s.setDev_keeps _).tripAs)
  · rfl

/-- A command that has taken a fall-back decision ends with the planner dies in warm reset (R329). -/
theorem State.finish_warm_of_fall (h : s.dev.fall ≠ none) : s.finish.dev.warm ≠ none := by
  obtain ⟨t, ht⟩ := Option.ne_none_iff_exists'.mp h
  have hdev : s.finish.dev = s.taken.dev := s.finish_keeps_taken .dev (by decide)
  rw [hdev]
  simp only [State.taken, ht, State.fallBack_eq]
  exact State.warmReset_warm_ne _ _ _ _

end Sys2Proof.Machine
end

section
/-! SUPPORT. The control period (18_power_and_clocks.md, R410 to R415): what it reads stands, and only a planner die that passes its
limit does more than move clocks. -/

namespace Sys2Proof.Machine

set_option Elab.async false

/-- What the Kettle reads and latches, beside its clocks. -/
def Kettle.readings (k : Kettle) : List Int × List Int × Nat × Bool × Nat := (k.tj, k.tjMax, k.energy, k.trip, k.lock)

/-- A state reached by moving clocks: the Kettle alone changes, its readings do not, and its interrupt and counters. -/
def State.clocked (u s : State) : Prop := u.keeps s [.ktl, .regs, .ints] ∧ u.ktl.readings = s.ktl.readings

theorem State.clocked.trans {w u s : State} (h : w.clocked u) (k : u.clocked s) : w.clocked s :=
  ⟨State.keeps_trans h.1 k.1, h.2.trans k.2⟩

variable (s : State)

theorem State.clocked_refl : s.clocked s := ⟨s.keeps_refl _, rfl⟩

variable {s} in
theorem State.clocked_ite {c : Prop} [Decidable c] {a b : State} (ha : a.clocked s) (hb : b.clocked s) : (if c then a else b).clocked s := by
  split
  · exact ha
  · exact hb

theorem State.foldl_clocked {α : Type} {f : State → α → State} (hf : ∀ v x, (f v x).clocked v) (xs : List α) : (xs.foldl f s).clocked s := by
  induction xs generalizing s with
  | nil => exact s.clocked_refl
  | cons x r ih => exact (ih _).trans (hf s x)

theorem State.setKtl_clocked {k : Kettle} (h : k.readings = s.ktl.readings) : ({ s with ktl := k } : State).clocked s :=
  ⟨(s.setKtl_keeps k).widen, h⟩

variable {s} in
/-- What keeps the Kettle keeps its readings. -/
theorem State.keeps.clocked {u : State} {l : List Piece} (h : u.keeps s l) (hl : ∀ c ∈ l, c ∈ [Piece.regs, .ints] := by decide) : u.clocked s := by
  refine ⟨h.widen fun c hc => ?_, ?_⟩
  · have := hl c hc; simp_all
  · have hstill := h .ktl fun hc => by simpa using hl _ hc
    have hread (k : Kettle) : k.still.readings = k.readings := rfl
    rw [← hread u.ktl, hstill, hread]

theorem State.inc_raise_clocked (o n : Nat) : ((s.inc o n).raise isrcKETTLE).clocked s :=
  ((State.raise_keeps _ _).after (m := [.regs, .ints]) (s.inc_keeps o n).widen).clocked

theorem State.capClk_clocked (i : Nat) : (s.capClk i).clocked s := s.setKtl_clocked rfl
theorem State.lowerClk_clocked (i : Nat) : (s.lowerClk i).clocked s := s.setKtl_clocked rfl
theorem State.raiseClk_clocked (i : Nat) : (s.raiseClk i).clocked s := s.setKtl_clocked rfl
theorem State.lowest_clocked (i : Nat) : (s.lowest i).clocked s := s.setKtl_clocked rfl
theorem State.coolDown_clocked : s.coolDown.clocked s := s.setKtl_clocked rfl
theorem State.holdArr_clocked (d : Nat) : (s.holdArr d).clocked s := State.clocked_ite (s.setKtl_clocked (by rfl)) s.clocked_refl

theorem State.lowerCap_clocked (n : Nat) (done : List Nat) : (State.lowerCap n done s).2.clocked s := by
  induction n generalizing done s with
  | zero => exact s.clocked_refl
  | succ n ih =>
    unfold State.lowerCap
    split
    · exact s.clocked_refl
    · split
      · exact s.clocked_refl
      · exact (ih _ _).trans ((State.capClk_clocked _ _).trans (s.lowerClk_clocked _))

theorem State.raiseCap_clocked (n : Nat) (done : List Nat) : (State.raiseCap n done s).clocked s := by
  induction n generalizing done s with
  | zero => exact s.clocked_refl
  | succ n ih =>
    unfold State.raiseCap
    split
    · exact s.clocked_refl
    · exact State.clocked_ite ((ih _ _).trans (State.clocked_ite ((State.setKtl_clocked _ (by rfl)).trans (s.raiseClk_clocked _)) (s.raiseClk_clocked _)))
        (s.capClk_clocked _)

/-! ### Temperatures -/

/-- The instant of a die at T_max − 8 °C or above noted. -/
def State.heated (s : State) (d : Nat) (m now : Int) : State :=
  if m - 64 ≤ now then { s with ktl := { s.ktl with hotAt := listSet s.ktl.hotAt d s.time } } else s

/-- A die that passes T_max + 10 °C trips. -/
def State.tripped (s : State) (m old now : Int) : State :=
  if m + 80 ≤ now ∧ old < m + 80 then ({ s with ktl := { s.ktl with trip := true } } : State).dieFault s.time else s

/-- What a die's temperature does to its clocks. -/
def State.throttle (s : State) (d : Nat) (m now : Int) : State :=
  if now < m - 40 then s
  else
    let s := if s.ktl.thermal.getD d false then s else { s with ktl := { s.ktl with thermal := listSet s.ktl.thermal d true } }.raise isrcKETTLE
    if m ≤ now then
      let free := ((List.range 18).filter fun i => dieOfClk i == d && !s.clkHeld i && decide ((s.ktl.clks.getD i {}).step < 4))
      let s := free.foldl State.lowest s
      if free.isEmpty then s else (s.inc Reg.ktlTherm).raise isrcKETTLE
    else if s.time < s.ktl.stepAt.getD d 0 + 100000 then s
    else
      let open_ (i : Nat) : Bool := !s.clkHeld i && decide (s.ktl.aim i < s.ktl.floor i)
      match (s.dieMeasures d).find? fun g => g.any open_ with
      | none => s
      | some g =>
        let l := g.filter open_
        let s := l.foldl State.lowerClk { s with ktl := { s.ktl with stepAt := listSet s.ktl.stepAt d s.time } }
        (s.inc Reg.ktlThrottle l.length).raise isrcKETTLE

theorem State.thermal_eq (d : Nat) (old now : Int) :
    s.thermal d old now = ((s.heated d s.fuses.tMax now).tripped s.fuses.tMax old now).throttle d s.fuses.tMax now := by
  unfold State.thermal State.heated State.tripped State.throttle
  rfl

theorem State.heated_clocked (d : Nat) (m now : Int) : (s.heated d m now).clocked s := State.clocked_ite (s.setKtl_clocked (by rfl)) s.clocked_refl

theorem State.throttle_clocked (d : Nat) (m now : Int) : (s.throttle d m now).clocked s := by
  unfold State.throttle
  refine State.clocked_ite s.clocked_refl ?_
  extract_lets kettle w free low open_
  have hw : w.clocked s := State.clocked_ite s.clocked_refl ((State.raise_keeps _ _).clocked.trans (s.setKtl_clocked (by rfl)))
  clear_value w
  refine State.clocked_ite ?_ (State.clocked_ite hw ?_)
  · have hlow : low.clocked s := (State.foldl_clocked w (fun v i => v.lowest_clocked i) free).trans hw
    exact State.clocked_ite hlow ((State.inc_raise_clocked _ _ _).trans hlow)
  · split
    · exact hw
    · exact (State.inc_raise_clocked _ _ _).trans ((State.foldl_clocked _ (fun v i => v.lowerClk_clocked i) _).trans
        ((State.setKtl_clocked _ (by rfl)).trans hw))

theorem State.thermal_clocked {d : Nat} {old now : Int} (h : ¬(s.fuses.tMax + 80 ≤ now ∧ old < s.fuses.tMax + 80)) :
    (s.thermal d old now).clocked s := by
  rw [s.thermal_eq, State.tripped, if_neg h]
  exact (State.throttle_clocked _ _ _ _).trans (s.heated_clocked _ _ _)

/-- The Kettle has tripped, and the fall-back decision waits. -/
def State.fallen (s : State) : Prop := s.ktl.trip = true ∧ s.dev.fall ≠ none

variable {s} in
theorem State.clocked.fallen {u : State} (h : u.clocked s) (hs : s.fallen) : u.fallen := by
  obtain ⟨htrip, hfall⟩ := hs
  have hdev : u.dev = s.dev := h.1 .dev (by decide)
  exact ⟨(congrArg (fun r => r.2.2.2.1) h.2).trans htrip, by rwa [hdev]⟩

theorem State.tripped_fallen {m old now : Int} (h : (m + 80 ≤ now ∧ old < m + 80) ∨ s.fallen) : (s.tripped m old now).fallen := by
  unfold State.tripped
  split
  · have htrip := (State.dieFault_keeps { s with ktl := { s.ktl with trip := true } } s.time).tripAs
    exact ⟨htrip, by simp [State.dieFault]⟩
  next hcool => exact h.resolve_left hcool

theorem State.thermal_fallen {d : Nat} {old now : Int}
    (h : (s.fuses.tMax + 80 ≤ now ∧ old < s.fuses.tMax + 80) ∨ s.fallen) : (s.thermal d old now).fallen := by
  rw [s.thermal_eq]
  exact (State.throttle_clocked _ _ _ _).fallen (State.tripped_fallen _ (h.imp_right (s.heated_clocked _ _ _).fallen))

theorem State.thermal_fuses (d : Nat) (old now : Int) : (s.thermal d old now).fuses = s.fuses := by
  have htripped (v : State) (m : Int) : (v.tripped m old now).fuses = v.fuses := by
    unfold State.tripped
    split
    · exact (State.dieFault_keeps _ _) .fuses (by decide)
    · rfl
  rw [s.thermal_eq, (State.throttle_clocked _ _ _ _).1 .fuses (by decide), htripped, (s.heated_clocked _ _ _).1 .fuses (by decide)]

/-! ### The control period -/

theorem State.measure_keeps (power : Nat) : (s.measure power).keeps s [.ktl, .regs, .ints] := by
  unfold State.measure
  extract_lets before after mean over_ w1 lowest
  have hlowest : lowest.keeps s [.ktl, .regs, .ints] :=
    State.keeps_trans (State.foldl_clocked w1 (fun v i => (State.capClk_clocked _ i).trans (v.lowest_clocked i)) _).1 (s.setKtl_keeps _).widen
  exact State.keeps_ite (s.setKtl_keeps _).widen <| State.keeps_ite (State.keeps_ite hlowest
    ((State.raise_keeps _ _).after ((State.inc_keeps _ _ _).after hlowest))) (s.setKtl_keeps _).widen

theorem State.measure_readings (power : Nat) :
    (s.measure power).ktl.readings = (s.ktl.tj, s.ktl.tjMax, s.ktl.energy + power, s.ktl.trip, s.ktl.lock) := by
  unfold State.measure
  extract_lets before after mean over_ w1 lowest
  have hlowest := (State.foldl_clocked w1 (fun v i => (State.capClk_clocked _ i).trans (v.lowest_clocked i))
    ((List.range 18).filter (!w1.clkHeld ·))).2
  split
  · rfl
  · split
    · split
      · exact hlowest
      · exact (State.inc_raise_clocked _ _ _).2.trans hlowest
    · rfl

/-- The temperatures that a control period reads. -/
def tempsRead (o : SenseIn) : List Int := (List.range 3).map fun d => o.tj.getD d 0

theorem tempsRead_getD (o : SenseIn) {d : Nat} (hd : d < 3) : (tempsRead o).getD d 0 = o.tj.getD d 0 := by
  simp [tempsRead, List.getD_eq_getElem?_getD, List.getElem?_range hd]

/-- The temperatures and the power of a control period taken in. -/
def State.sensed (s : State) (o : SenseIn) : State :=
  ({ s with ktl := { s.ktl with tj := tempsRead o, tjMax := (List.range 3).map fun d => max ((tempsRead o).getD d 0) (s.ktl.tjMax.getD d 0) } } : State).measure
    o.power

theorem State.sensed_keeps (o : SenseIn) : (s.sensed o).keeps s [.ktl, .regs, .ints] :=
  (State.measure_keeps _ _).after (s.setKtl_keeps _).widen

theorem State.sensed_readings (o : SenseIn) : (s.sensed o).ktl.readings =
    (tempsRead o, (List.range 3).map fun d => max ((tempsRead o).getD d 0) (s.ktl.tjMax.getD d 0), s.ktl.energy + o.power, s.ktl.trip, s.ktl.lock) :=
  State.measure_readings _ _

/-- Clocks lowered for the cap, or raised where none had to be. -/
def State.capped (s : State) : State :=
  if (State.lowerCap 18 [] s).1.isEmpty then
    (if (State.lowerCap 18 [] s).2.ktl.exceed then (State.lowerCap 18 [] s).2 else State.raiseCap 18 [] (State.lowerCap 18 [] s).2)
  else (State.lowerCap 18 [] s).2.raise isrcKETTLE

theorem State.capped_clocked : s.capped.clocked s := by
  have hlow := s.lowerCap_clocked 18 []
  exact State.clocked_ite (State.clocked_ite hlow ((State.raiseCap_clocked _ _ _).trans hlow)) ((State.raise_keeps _ _).clocked.trans hlow)

/-- A control period's state before its end, in the order of its actions. -/
def State.controlled (s : State) (o : SenseIn) (old : List Int) : State :=
  (((((s.sensed o).holdArr 0).holdArr 1).thermal 0 (old.getD 0 0) ((tempsRead o).getD 0 0)).thermal 1 (old.getD 1 0) ((tempsRead o).getD 1 0)).coolDown.capped

theorem exec_controlPeriod {s : State} (o : SenseIn) (hup : s.dev.up = true) :
    exec (.controlPeriod o) s = .next ((s.at o.t).controlled o s.ktl.tj).finish := by
  have hrun : ¬ (!(s.at o.t).dev.up) = true := by simp [hup]
  change execControlPeriod o s = _
  rw [← State.at_ktl s o.t]
  unfold execControlPeriod
  extract_lets now old temps highest kettle taken held cooled
  have htaken : taken = now.sensed o := rfl
  clear_value taken
  have hheld : held = (taken.holdArr 0).holdArr 1 := rfl
  clear_value held
  have hcooled : cooled = ((held.thermal 0 (old.getD 0 0) ((tempsRead o).getD 0 0)).thermal 1 (old.getD 1 0) ((tempsRead o).getD 1 0)).coolDown := rfl
  clear_value cooled
  rw [if_neg hrun, State.controlled, ← htaken, ← hheld, ← hcooled, State.capped]
  generalize State.lowerCap 18 [] cooled = r
  rfl

/-- Settles O41: clocks move with the readings unchanged, and a die that passes its limit takes the fall-back decision of its trip. -/
theorem controlPeriod : Obligations.ControlPeriod := by
  refine ⟨fun o s hcalm hup hcool => ?_, fun o s d hcalm hup hd hhot hold => ?_⟩
  · have hcalm' := State.at_calm o.t hcalm
    have hsensed := (s.at o.t).sensed_keeps o
    have hfuses (u : State) (hu : u.keeps (s.at o.t) [.ktl, .regs, .ints]) : u.fuses = s.fuses := (hu .fuses (by decide)).trans (s.at_fuses o.t)
    have hheld := (State.holdArr_clocked _ 1).trans (State.holdArr_clocked ((s.at o.t).sensed o) 0)
    generalize hw0 : (((s.at o.t).sensed o).holdArr 0).holdArr 1 = w0 at hheld
    have hk0 := State.keeps_trans hheld.1 hsensed
    have hcool' (w : State) (hw : w.keeps (s.at o.t) [.ktl, .regs, .ints]) (d : Nat) (hd : d < 2) :
        ¬(w.fuses.tMax + 80 ≤ (tempsRead o).getD d 0 ∧ s.ktl.tj.getD d 0 < w.fuses.tMax + 80) := by
      rw [hfuses w hw, tempsRead_getD o (by omega)]
      exact hcool d hd
    have h1 := w0.thermal_clocked (d := 0) (hcool' w0 hk0 0 (by decide))
    have hk1 := State.keeps_trans h1.1 hk0
    have h2 := State.thermal_clocked _ (d := 1) (hcool' _ hk1 1 (by decide))
    have hall : ((s.at o.t).controlled o s.ktl.tj).clocked ((s.at o.t).sensed o) := by
      rw [State.controlled, hw0]
      exact (State.capped_clocked _).trans <| (State.coolDown_clocked _).trans <| h2.trans <| h1.trans hheld
    have hkeeps := State.keeps_trans hall.1 hsensed
    have hread : ((s.at o.t).controlled o s.ktl.tj).finish.ktl.readings = _ :=
      ((State.finish_keeps _ (hkeeps.calm hcalm')).clocked.2.trans hall.2).trans ((s.at o.t).sensed_readings o)
    simp only [Kettle.readings, Prod.mk.injEq, State.at_ktl] at hread
    obtain ⟨htj, hmax, henergy, htrip, hlock⟩ := hread
    refine ⟨_, exec_controlPeriod o hup, htj, fun d hd => ?_, henergy, htrip, hlock, hkeeps.finish hcalm'⟩
    have hentry : ((List.range 3).map fun d => max ((tempsRead o).getD d 0) (s.ktl.tjMax.getD d 0)).getD d 0 = max (o.tj.getD d 0) (s.ktl.tjMax.getD d 0) := by
      rw [← tempsRead_getD o hd]
      simp [List.getD_eq_getElem?_getD, List.getElem?_range hd]
    rw [hmax, hentry]
    exact ⟨le_max_left _ _, le_max_right _ _⟩
  · have hfuses : ((((s.at o.t).sensed o).holdArr 0).holdArr 1).fuses = s.fuses :=
      (((State.holdArr_clocked _ 1).trans (State.holdArr_clocked _ 0)).1 .fuses (by decide)).trans
        (((s.at o.t).sensed_keeps o .fuses (by decide)).trans (s.at_fuses o.t))
    have htrip (hd3 : d < 3) : s.fuses.tMax + 80 ≤ (tempsRead o).getD d 0 ∧ s.ktl.tj.getD d 0 < s.fuses.tMax + 80 := by
      rw [tempsRead_getD o hd3]
      exact ⟨hhot, hold⟩
    have hfallen : ((s.at o.t).controlled o s.ktl.tj).fallen := by
      rw [State.controlled]
      generalize (((s.at o.t).sensed o).holdArr 0).holdArr 1 = w at hfuses
      refine (State.capped_clocked _).fallen ((State.coolDown_clocked _).fallen (State.thermal_fallen _ ?_))
      rw [State.thermal_fuses, hfuses]
      obtain rfl | rfl : d = 0 ∨ d = 1 := by omega
      · exact .inr (w.thermal_fallen (.inl (by rw [hfuses]; exact htrip (by decide))))
      · exact .inl (htrip (by decide))
    obtain ⟨htripped, hfall⟩ := hfallen
    exact ⟨_, exec_controlPeriod o hup, Eq.trans (State.finish_tripAs _) htripped, State.finish_warm_of_fall _ hfall⟩

end Sys2Proof.Machine
end

section
/-! SUPPORT. Resets and bring-up (19_reset_and_bringup.md): the cold reset, the release of POR_N, readiness bits and the zero fill. -/

namespace Sys2Proof.Machine

set_option Elab.async false

/-! ### Accesses of the physical function to the global block -/

/-- The physical function reaches GLB_RESET_CMD whenever the endpoint is ready. -/
theorem State.takesWrite_glbResetCmd {s : State} (h : s.pcieUp = true) : s.takesWrite { fn := 0, off := Reg.glbResetCmd } := by
  refine ⟨h, by simp [State.unsupported, Reg.glbResetCmd], ?_⟩
  have hready : readyOf Reg.glbResetCmd = none := by decide
  have hcore : Reg.inCore Reg.glbResetCmd = none := by decide
  have hcluster : Reg.inCluster Reg.glbResetCmd = none := by decide
  simp [State.regThere, hready, hcore, hcluster]

theorem State.resetWrite_of_pcieUp {s : State} (v t : Nat) (f : State → State) (h : s.pcieUp = true) :
    s.resetWrite 0 v t f = (f ((s.at t).wr Reg.glbResetCmd (BitVec.ofNat 32 (v % 128)))).writeEnd := by
  rw [State.resetWrite, State.onWrite_of_takesWrite (State.takesWrite_glbResetCmd h)]
  rfl

/-! ### Cold reset -/

/-- The part of HBM outside the staging slots (R63). -/
def hbmKept (a : Nat) : Bool := decide (a < 0x0005F8000000) || (decide (0x000600000000 ≤ a) && decide (a < 0x000C00000000))

/-- A cold reset with the completion of the access that asked for it. -/
def State.coldEnd (s : State) (cmd : Bool) (heldTo : Nat) (x : Option Compl) : State := { s.coldReset cmd heldTo with compl := x }

variable (s : State)

/-- What a cold reset ends with, whatever asked for it (R419). -/
theorem State.coldEnd_held (cmd : Bool) (heldTo : Nat) (x : Option Compl) :
    let u := (s.coldEnd cmd heldTo x).finish
    u.dev.up = false ∧ u.time = s.time ∧ (∀ o, u.rd o = Reg.resetOf o) ∧ u.loader.active = none ∧ u.loader.run = none
    ∧ (∀ p, (u.prun p).st = .unconfigured)
    ∧ u.fuses = (match s.dev.lcNext with | some x => { s.fuses with lc := x } | none => s.fuses)
    ∧ u.errs.list = (if s.errs.clear then [] else s.errs.list) ∧ u.outputsSafe = true ∧ u.dev.ready = 0
    ∧ ∀ x, u.mem.get 0#8 x =
        if x < 0x0005F8000000 ∨ (0x000600000000 ≤ x ∧ x < 0x000C00000000) then s.mem.get 0#8 x else 0#8 := by
  have hfall : (s.coldEnd cmd heldTo x).dev.fall = none := rfl
  have hdev := State.finish_dev _ hfall
  have hloader := State.finish_loader _ hfall
  refine ⟨by rw [hdev]; rfl, State.finish_time _ hfall, fun o => (State.finish_rd _ hfall o).trans rfl, by rw [hloader]; rfl, by rw [hloader]; rfl,
    fun p => ?_, State.finish_fuses _ hfall, by rw [State.finish_errs _ hfall]; rfl, State.finish_outputsSafe _, by rw [hdev]; rfl, fun a => ?_⟩
  · rw [State.finish_prun hfall]
    show ((List.replicate 8 ({} : PRun)).getD p {}).st = .unconfigured
    rw [List.getD_eq_getElem?_getD, List.getElem?_replicate]
    split <;> rfl
  · rw [State.finish_mem hfall]
    refine (Tab.get_filter 0#8 s.mem hbmKept a).trans ?_
    simp only [hbmKept, Bool.or_eq_true, Bool.and_eq_true, decide_eq_true_eq]

/-- Settles O11: both commands end with the same state, but for the cause and the hold. -/
theorem coldReset : Obligations.ColdReset := by
  refine ⟨fun t s => ?_, fun t s hcalm hup => ?_⟩
  · exact ⟨((s.at t).coldEnd false 0 none).finish, rfl, (s.at t).coldEnd_held false 0 none,
      by rw [State.finish_dev _ rfl]; rfl⟩
  · let v := (s.at t).wr Reg.glbResetCmd (BitVec.ofNat 32 (3 % 128))
    refine ⟨(v.coldEnd true (v.time + 1000000) (some {})).finish, ?_, v.coldEnd_held true (v.time + 1000000) (some {}),
      by rw [State.finish_dev _ rfl]; rfl, by rw [State.finish_dev _ rfl]; rfl⟩
    change (s.resetWrite 0 3 t fun s => s.coldReset true (s.time + 1000000)).done = _
    rw [State.resetWrite_of_pcieUp 3 t _ hup]
    rfl

/-! ### Power-up -/

/-- What POR_N_RELEASE does before the reset ends: time and pins, both channels, domains and PLLs, and the intervals of self-test. -/
def State.released (s : State) (o : PorIn) : State :=
  let s := { s with time := 0, dev := { s.dev with up := true, pkgSel := o.pkgSel % 8 } }
  let s := (s.wrBits Reg.memSecureStatus 11 8 0).wrBits Reg.memSecureStatus 0 0 1
  let s := { s with warden := { s.warden with chA := o.chA, chB := o.chB, state := if o.chA && o.chB then .normal else .channelFail } }
  let s := { s with ktl := { s.ktl with lock := 2 ^ 28 - 1, doms := (List.range 176).map s.domAtCold } }
  (s.newInterval 0 0).newInterval 1 0

theorem exec_porNRelease {s : State} (o : PorIn) (hdown : s.dev.up = false) (hheld : s.dev.coldCmd = true → s.dev.heldTo ≤ o.t) :
    exec (.porNRelease o) s = .next (s.released o).drawNonce.finish := by
  have hfree : ¬(s.dev.up = true ∨ s.dev.coldCmd = true ∧ o.t < s.dev.heldTo) := by
    rintro (h | ⟨hcmd, hlt⟩)
    · simp [hdown] at h
    · exact absurd hlt (by have := hheld hcmd; omega)
  change execPorNRelease o s = _
  rw [execPorNRelease, if_neg hfree]
  rfl

theorem State.drawNonce_keeps : s.drawNonce.keeps s [.dev, .fresh] := (State.keeps_iff _ _ _).mpr (by simp [State.drawNonce])

theorem State.released_keeps (o : PorIn) : (s.released o).keeps s [.time, .dev, .regs, .warden, .ktl, .rots] := by
  refine (State.newInterval_keeps _ _ _).after <| (State.newInterval_keeps _ _ _).after <| (State.setKtl_keeps _ _).after <|
    (State.setWarden_keeps _ _).after <| (State.wrBits_keeps _ _ _ _ _).after <| (State.wrBits_keeps _ _ _ _ _).after ?_
  exact (State.keeps_iff _ _ _).mpr (by simp)

/-! ### Readiness -/

/-- A readiness bit set in the device state. -/
def State.markReady (s : State) (b : Nat) : State := { s with dev := { s.dev with ready := s.dev.ready ||| 2 ^ b } }

theorem State.setReady_after (b : Nat) : (s.setReady b).keeps (s.markReady b) [.regs, .ints, .fresh] := by
  have hlink (v : State) (d : Nat) : ((v.wrBits Reg.glbD2dStatus d d 1).wrBits Reg.glbD2dStatus (3 + d) (3 + d) 0).keeps v [.regs, .ints, .fresh] :=
    (State.wrBits_keeps _ _ _ _ _).after (v.wrBits_keeps _ _ _ _).widen
  have htrain (v : State) : v.linkTrain.keeps v [.regs, .ints, .fresh] := (State.wr_keeps _ _ _).after (v.setFresh_keeps _).widen
  refine State.keeps_ite ((State.raise_keeps _ _).after <| State.keeps_ite ?_ (hlink _ _)) <| State.keeps_ite (htrain _) (State.keeps_refl _ _)
  exact (State.wrBits_keeps _ _ _ _ _).after ((State.wrBits_keeps _ _ _ _ _).after (hlink _ _))

@[simp] theorem State.setReady_dev (b : Nat) : (s.setReady b).dev = { s.dev with ready := s.dev.ready ||| 2 ^ b } :=
  s.setReady_after b .dev (by decide)

theorem State.setReady_keeps (b : Nat) : (s.setReady b).keeps s [.dev, .regs, .ints, .fresh] :=
  State.keeps_trans (s.setReady_after b).widen (s.setDev_keeps _).widen

/-- A stack's function sets its bit alone. -/
theorem State.setReady_of_hbm {k : Nat} (hk : k < 2) :
    s.setReady (rbHBM + k) = { s with dev := { s.dev with ready := s.dev.ready ||| 2 ^ (rbHBM + k) } } := by
  have hdie : ¬(rbHBM + k = rbDIE ∨ rbHBM + k = rbDIE + 1) := by simp only [rbHBM, rbDIE]; omega
  have hpcie : ¬ rbHBM + k = rbPCIE := by simp only [rbHBM, rbPCIE]; omega
  simp only [State.setReady, if_neg hdie, if_neg hpcie]

/-- Settles O12. -/
theorem powerUp : Obligations.PowerUp := by
  refine ⟨fun o s hcalm hdown hheld => ?_, fun b t s hcalm hup hknown hb0 hb1 hready hfailed hwarm => ?_,
    fun b t s hcalm hup hknown hb hrestart hready hfailed hwarm => ?_, fun k t s hcalm hk hup hwarm htrained hlost => ?_⟩
  · have hkeeps : (s.released o).drawNonce.keeps s [.time, .dev, .regs, .warden, .ktl, .rots, .fresh] :=
      (State.drawNonce_keeps _).after (s.released_keeps o).widen
    have hfall : (s.released o).drawNonce.dev.fall = none := hcalm
    have hdev := State.finish_dev _ hfall
    refine ⟨_, exec_porNRelease o hdown hheld, ?_, by rw [hdev]; rfl, by rw [hdev]; rfl, ?_, ?_, State.finish_keeps_of hfall hkeeps⟩
    · rw [State.finish_time _ hfall]; rfl
    · rw [State.finish_wstate hfall]; rfl
    · rw [State.finish_lock hfall]; rfl
  · have hgo : (s.at t).dev.up = true ∧ readyKnown b = true ∧ (!bit (s.at t).dev.ready b) = true ∧ (!bit (s.at t).dev.failed b) = true
        ∧ (32 ≤ b ∨ (s.at t).dev.warm.isNone = true) := by
      simp [hup, hknown, hready, hfailed, hwarm]
    have hexec : exec (.ready b (.pass []) t) s = .next ((s.at t).setReady b).finish := by
      change execReady b (.pass []) t s = _
      rw [execReady, if_pos hgo]
      simp only [hb0, hb1, or_self, if_false]
      rfl
    have hfall : ((s.at t).setReady b).dev.fall = none := by rw [State.setReady_dev]; exact State.at_calm t hcalm
    refine ⟨_, hexec, ?_, State.finish_keeps_of hfall (State.setReady_keeps _ b)⟩
    rw [State.finish_dev _ hfall, State.setReady_dev, State.at_dev]
  · let w : State := { s.at t with dev := { s.dev with failed := s.dev.failed ||| 2 ^ b } }
    let unit := if b = rbHBM ∨ b = rbHBM + 1 then unitId (b - rbHBM) 105
      else if b = rbDIE ∨ b = rbDIE + 1 then unitId (b - rbDIE) 112 else noUnit
    let v := w.log { kind := ekST_FAIL, unit, time := (s.at t).time }
    have hlog : v.keeps w [.fresh, .errs, .mem, .regs, .ints] := w.log_keeps _
    have hdev : v.dev = { s.dev with failed := s.dev.failed ||| 2 ^ b } := hlog .dev (by decide)
    have hkeeps : v.keeps (s.at t) [.dev, .regs, .ints, .fresh, .errs, .mem] :=
      State.keeps_trans hlog.widen ((s.at t).setDev_keeps _).widen
    have hfall : v.dev.fall = none := by rw [hdev]; exact hcalm
    have hgo : (s.at t).dev.up = true ∧ readyKnown b = true ∧ (!bit (s.at t).dev.ready b) = true ∧ (!bit (s.at t).dev.failed b) = true
        ∧ (32 ≤ b ∨ (s.at t).dev.warm.isNone = true) := by
      simp [hup, hknown, hready, hfailed, hwarm]
    have hnone : ¬(v.dev.restart = true ∧ (b = rbDIE ∨ b = rbDIE + 1)) := by simp [hdev, hrestart]
    refine ⟨v.finish, ?_, by rw [State.finish_dev _ hfall, hdev], State.finish_keeps_of hfall hkeeps⟩
    change execReady b .fail t s = _
    have hb' : ¬ b < 18 := by omega
    rw [execReady, if_pos hgo]
    simp only [if_neg hb', State.readyFail, State.at_dev]
    rw [if_neg hnone]
    rfl
  · let w : State := { (s.at t).wipe (fun a => decide (a < 0x000C00000000) && stackOf a == k) with
      dev := { (s.at t).dev with hbmLost := listSet (s.at t).dev.hbmLost k false } }
    have hkeeps : (w.setReady (rbHBM + k)).keeps (s.at t) [.dev, .mem] := by
      rw [State.setReady_of_hbm _ hk]
      exact (State.setDev_keeps _ _).after <| (State.setDev_keeps _ _).after ((s.at t).wipe_keeps _).widen
    have hfall : (w.setReady (rbHBM + k)).dev.fall = none := by rw [State.setReady_dev]; exact State.at_calm t hcalm
    have hgo : k < 2 ∧ (s.at t).dev.up = true ∧ (s.at t).dev.warm.isNone = true ∧ (s.at t).dev.trained.getD k false = true
        ∧ (s.at t).dev.hbmLost.getD k false = true := by
      simp only [State.at_dev, hk, hup, hwarm, htrained, hlost, Option.isNone_none, and_self]
    refine ⟨(w.setReady (rbHBM + k)).finish, ?_, ?_, State.finish_keeps_of hfall hkeeps, fun x => ?_⟩
    · change execHbmInit k t s = _
      rw [execHbmInit, if_pos hgo]
      rfl
    · rw [State.finish_dev _ hfall, State.setReady_dev]
      change (s.at t).dev.ready ||| 2 ^ (rbHBM + k) = _
      rw [State.at_dev]
    · rw [State.finish_mem hfall, State.setReady_of_hbm _ hk]
      refine (Tab.get_filter 0#8 (s.at t).mem (fun a => !(decide (a < 0x000C00000000) && stackOf a == k)) x).trans ?_
      by_cases hx : x < 0x000C00000000 ∧ stackOf x = k
      · simp [hx]
      · have hout : (!(decide (x < 0x000C00000000) && stackOf x == k)) = true := by
          rw [Bool.not_eq_true', Bool.and_eq_false_iff]
          by_cases hlt : x < 0x000C00000000
          · exact .inr (beq_eq_false_iff_ne.mpr fun h => hx ⟨hlt, h⟩)
          · exact .inl (by simpa using hlt)
        rw [if_neg hx, if_pos hout]

end Sys2Proof.Machine
end

section
/-! SUPPORT. Partitions replaced, and the states of partitions through a warm reset (19_reset_and_bringup.md R420, 14_safety_concept.md
R329). -/

namespace Sys2Proof.Machine

set_option Elab.async false

variable (s : State)

/-! ### One partition replaced -/

theorem State.setPRun_prun_same {p : Nat} (x : PRun) (h : p < s.parts.length) : (s.setPRun p x).prun p = x := getD_listSet_same _ _ h

theorem State.setPRun_prun_of_ne {p q : Nat} (x : PRun) (h : q ≠ p) : (s.setPRun p x).prun q = s.prun q := getD_listSet_of_ne _ _ _ h

/-- A partition beyond the eight is the default one. -/
theorem State.prun_of_length_le {p : Nat} (h : s.parts.length ≤ p) : s.prun p = {} := List.getD_eq_default _ _ h

@[simp] theorem State.setPRun_parts_length (p : Nat) (x : PRun) : (s.setPRun p x).parts.length = s.parts.length := length_listSet _ _ _

theorem State.setPRun_parts_of_length_le {p : Nat} (x : PRun) (h : s.parts.length ≤ p) : (s.setPRun p x).parts = s.parts := by
  show listSet s.parts p x = s.parts
  rw [listSet, List.set_eq_of_length_le h]

/-- A property of the partition replaced, that the default one has too. -/
theorem State.setPRun_prun_of {p : Nat} {x : PRun} (P : PRun → Prop) (hx : P x) (hnone : P {}) : P ((s.setPRun p x).prun p) := by
  by_cases h : p < s.parts.length
  · rwa [s.setPRun_prun_same x h]
  · rwa [State.prun_of_length_le _ (by simpa using Nat.le_of_not_lt h)]

@[simp] theorem State.raiseP_prun (p i q : Nat) : (s.raiseP p i).prun q = s.prun q :=
  congrArg (fun l : List PRun => l.getD q {}) (s.raiseP_keeps p i .parts (by decide))

@[simp] theorem State.raiseP_parts (p i : Nat) : (s.raiseP p i).parts = s.parts := s.raiseP_keeps p i .parts (by decide)

theorem State.setPSt_prun_of_ne {p q : Nat} (x : PSt) (h : q ≠ p) : (s.setPSt p x).prun q = s.prun q := by
  unfold State.setPSt
  split
  · rfl
  · rw [State.raiseP_prun, s.setPRun_prun_of_ne _ h]

theorem State.setPSt_prun_same {p : Nat} (x : PSt) (h : p < s.parts.length) : (s.setPSt p x).prun p = { s.prun p with st := x } := by
  unfold State.setPSt
  split
  next hst => rw [← hst]
  next => rw [State.raiseP_prun, s.setPRun_prun_same _ h]

theorem State.setPSt_parts_length (p : Nat) (x : PSt) : (s.setPSt p x).parts.length = s.parts.length := by
  unfold State.setPSt
  split
  · rfl
  · rw [State.raiseP_parts, State.setPRun_parts_length]

/-! ### No partition runs after a warm reset by command -/

/-- One partition at the assertion of a warm reset. -/
def State.warmPart (s : State) (cause p : Nat) : State :=
  let x := s.prun p
  let x' := { x with crc := 0#32, runEpoch := none, goals := [], resetting := false, commit := x.commit }
  match x.st with
  | .running =>
    if cause = 2 ∨ cause = 4 then s.setPRun p { x' with restart := true, lastFrame := none, issued := false }
    else (s.setPRun p { x' with restart := false, lastFrame := none, issued := false }).setPSt p .stopped
  | _ =>
    let s := s.setPRun p { x' with restart := false }
    if x.resetting then s.setPSt p .stopped else s

theorem State.warmParts_eq (cause : Nat) : s.warmParts cause = (List.range 8).foldl (fun s p => s.warmPart cause p) s := rfl

theorem State.warmPart_prun_of_ne (cause : Nat) {p q : Nat} (h : q ≠ p) : (s.warmPart cause p).prun q = s.prun q := by
  unfold State.warmPart
  dsimp only
  split
  · split
    · exact s.setPRun_prun_of_ne _ h
    · rw [State.setPSt_prun_of_ne _ _ h, s.setPRun_prun_of_ne _ h]
  · split
    · rw [State.setPSt_prun_of_ne _ _ h, s.setPRun_prun_of_ne _ h]
    · exact s.setPRun_prun_of_ne _ h

/-- A warm reset by command leaves no partition RUNNING (R420). -/
theorem State.warmPart_not_running {cause p : Nat} (hcause : ¬(cause = 2 ∨ cause = 4)) : ((s.warmPart cause p).prun p).st ≠ .running := by
  by_cases hp : p < s.parts.length
  · have hset (x : PRun) (y : PSt) : (((s.setPRun p x).setPSt p y).prun p).st = y := by
      rw [State.setPSt_prun_same _ _ (by simpa using hp)]
    unfold State.warmPart
    dsimp only
    split
    · rw [if_neg hcause, hset]
      decide
    next hst =>
      split
      · rw [hset]
        decide
      · rw [s.setPRun_prun_same _ hp]
        exact fun h => hst h
  · have hlen : (s.warmPart cause p).parts.length = s.parts.length := by
      unfold State.warmPart
      dsimp only
      split
      · split
        · rw [State.setPRun_parts_length]
        · rw [State.setPSt_parts_length, State.setPRun_parts_length]
      · split
        · rw [State.setPSt_parts_length, State.setPRun_parts_length]
        · rw [State.setPRun_parts_length]
    rw [State.prun_of_length_le _ (by omega)]
    decide

theorem State.foldl_warmPart_not_running {cause : Nat} (hcause : ¬(cause = 2 ∨ cause = 4)) (l : List Nat) {p : Nat}
    (h : p ∈ l ∨ (s.prun p).st ≠ .running) : ((l.foldl (fun s p => s.warmPart cause p) s).prun p).st ≠ .running := by
  induction l generalizing s with
  | nil => simpa using h
  | cons q r ih =>
    refine ih _ ?_
    by_cases hpq : p = q
    · subst hpq
      exact .inr (s.warmPart_not_running hcause)
    · rw [s.warmPart_prun_of_ne cause hpq]
      simpa [hpq] using h

theorem State.warmRuns_parts (t : Nat) : (s.warmRuns t).parts = s.parts :=
  ((State.dropWaits_keeps _ _).after (m := .arrs :: waitPieces) <| State.keeps_foldl (fun s p => (s.abortCopies_keeps _).widen)
    (State.keeps_foldl (fun s p => (s.initCounters_keeps p).widen)
      ((State.endRuns_keeps _ _ _ _ _).after (s.endRuns_keeps _ _ _ _).widen) _) _) .parts (by decide)

theorem State.warmClear_prun_st (t p : Nat) : ((s.warmClear t).prun p).st = (s.prun p).st := by
  have hparts : (s.warmClear t).parts = s.parts.map fun (x : PRun) => { x with plan := false } := by
    rw [s.warmClear_eq, State.warmWipe_keeps _ .parts (by decide), State.clearCounts_keeps _ _ .parts (by decide), State.warmCut,
      State.warmRuns_parts]
  rw [State.prun, hparts, List.getD_eq_getElem?_getD, List.getElem?_map, State.prun, List.getD_eq_getElem?_getD]
  cases s.parts[p]? <;> rfl

theorem State.warmReset_not_running {cause t : Nat} {hold : Bool} (hcause : ¬(cause = 2 ∨ cause = 4)) (hwarm : s.dev.warm = none) {p : Nat}
    (hp : p < 8) : ((s.warmReset cause t hold).prun p).st ≠ .running := by
  unfold State.warmReset
  rw [if_neg (by simp [hwarm])]
  extract_lets ended carried unres cleared kettle woken device asserted cut fresh
  have hcleared : (cleared.prun p).st ≠ .running := by
    rw [State.warmClear_prun_st, State.warmParts_eq]
    exact State.foldl_warmPart_not_running _ hcause _ (.inl (List.mem_range.mpr hp))
  clear_value cleared
  have hasserted : asserted.parts = cleared.parts := rfl
  clear_value asserted
  have hparts : (fresh.trigger 6 t fresh.mechNums).parts = asserted.parts :=
    ((State.trigger_keeps _ _ _ _ _).after (m := [.warden, .regs, .ints, .tdcSeen, .fresh, .errs, .mem, .rots]) <|
      (State.newInterval_keeps _ _ _).after <| (State.newInterval_keeps _ _ _).after <| (State.linksDown_keeps _).after <|
      (State.abandonSlice_keeps _ _).after (State.abandonSlice_keeps _ _).widen) .parts (by decide)
  rwa [State.prun, hparts, hasserted]

end Sys2Proof.Machine
end

section
/-! SUPPORT. START (02_blend.md R66) and what it writes; the release of a warm reset and the restart. -/

namespace Sys2Proof.Machine

set_option Elab.async false

variable (s : State)

/-! ### What START changes -/

theorem State.writeContexts_keeps (q : PartCfg) : (s.writeContexts q).keeps s [.mem, .regs] :=
  State.keeps_foldl (fun s _ => State.keeps_foldl (fun s _ => s.store_keeps _ _) (s.keeps_refl _) _) (s.keeps_refl _) _

theorem State.redistribute_keeps : s.redistribute.keeps s [.mem, .regs] :=
  State.keeps_foldl (fun s q => s.writeContexts_keeps q) (s.keeps_refl _) _

theorem State.startWritten_keeps (p x n : Nat) : (s.startWritten p x n).keeps s (.cores :: relPieces) := by
  unfold State.startWritten
  dsimp only
  split
  · exact s.keeps_refl _
  · split
    · split
      · refine State.keeps_ite (s.keeps_refl _) (State.keeps_ite (s.setTask_keeps _ _).widen ?_)
        have hback := (s.withdraw_keeps ‹TaskRec›.die p ‹TaskRec›.task n).widen (m := .cores :: relPieces)
        split
        · refine (State.place_keeps _ _ _ fun i hi => ?_).after hback
          rw [State.latticeItems_kind _ _ _ _ _ _ _ i hi]
          decide
        · exact hback
      · exact s.keeps_refl _
    · exact s.keeps_refl _

theorem State.writeStart_keeps (q : PartCfg) (n cls : Nat) (q0 qd0 a0 : List Nat) (block : List Byte) (x : Nat) :
    (s.writeStart q n cls q0 qd0 a0 block x).keeps s (.cores :: relPieces) := by
  unfold State.writeStart
  extract_lets a w1 w2 w3
  have h1 : w1.keeps s (.cores :: relPieces) := State.keeps_foldl (fun s _ => (s.store_keeps _ _).widen) (s.keeps_refl _) _
  have h2 : w2.keeps s (.cores :: relPieces) := State.keeps_ite h1 ((State.store_keeps _ _ _).after h1)
  have h3 : w3.keeps s (.cores :: relPieces) := State.keeps_ite ((State.store_keeps _ _ _).after h2) h2
  exact State.keeps_trans (State.startWritten_keeps _ _ _ _) h3

/-- The pieces that START of a partition changes beside its run state. -/
def startPieces : List Piece := [.round, .cores, .fld, .warden, .rots, .traceQ, .sync, .ktl, .sched, .hqs, .host, .regs, .ints, .tdcSeen,
  .fresh, .errs, .mem]

theorem State.startMech_keeps (q : PartCfg) (m : Mech) (keep : Bool) : (s.startMech q m keep).keeps s startPieces :=
  State.keeps_foldl (fun s _ => (s.writeStart_keeps _ _ _ _ _ _ _ _).widen) (State.keeps_ite (s.keeps_refl _) (s.setWm_keeps _ _).widen) _

theorem State.freshCores_keeps (q : PartCfg) : (s.freshCores q).keeps s [.mem, .cores] :=
  State.keeps_foldl (fun s _ => (State.setCore_keeps _ _ _).after (s.zero_keeps _ _).widen) (s.keeps_refl _) _

theorem State.armDelays_keeps (q : PartCfg) (t0 : Nat) : (s.armDelays q t0).keeps s [.sched] := s.setSched_keeps _

theorem State.bindLast_keeps (p n : Nat) : (s.bindLast p n).keeps s [.regs] :=
  State.keeps_foldl (fun s _ => State.keeps_ite (s.wr_keeps _ _) (s.keeps_refl _)) (s.keeps_refl _) _

theorem State.startMaster_keeps (q : PartCfg) (t0 : Nat) : (s.startMaster q t0).keeps s [.fld, .mem, .warden, .round, .rots] := by
  unfold State.startMaster
  extract_lets f w1 w2 w3
  have h1 : w1.keeps s [.fld, .mem, .warden, .round, .rots] := (s.setFld_keeps _).widen
  have h2 : w2.keeps s [.fld, .mem, .warden, .round, .rots] := State.keeps_foldl (fun s _ => (s.zero_keeps _ _).widen) h1 _
  have h3 : w3.keeps s [.fld, .mem, .warden, .round, .rots] := State.keeps_foldl (fun s _ => (s.setWarden_keeps _).widen) h2 _
  exact (State.newInterval_keeps _ _ _).after <| (State.newInterval_keeps _ _ _).after <| (State.setRound_keeps _ _).after h3

/-- The run state that START gives a partition. -/
def State.startRun0 (s : State) (p t0 : Nat) : State :=
  (s.setPRun p { st := (s.prun p).st, t0, goalBase := s.rd64 (Reg.selGoalBaseLo p), plan := (s.prun p).plan }).setPSt p .running

theorem State.startPart_after (p t0 : Nat) : (s.startPart p t0).keeps (s.startRun0 p t0) startPieces := by
  unfold State.startPart
  extract_lets q ms begun round cleared armed bound
  have hcleared : cleared.keeps begun startPieces := (State.keeps_iff _ _ _).mpr (by simp [cleared, startPieces])
  have harmed : armed.keeps begun startPieces :=
    (State.armDelays_keeps _ _ _).after <| (State.freshCores_keeps _ _).after <| (State.initCounters_keeps _ _).after hcleared
  have hbound : bound.keeps begun startPieces :=
    (State.bindLast_keeps _ _ _).after (State.keeps_foldl (fun s m => s.startMech_keeps q m false) harmed _)
  exact State.keeps_ite ((State.startMaster_keeps _ _ _).after hbound) hbound

theorem State.startRun0_prun_same {p : Nat} (t0 : Nat) (h : p < s.parts.length) :
    (s.startRun0 p t0).prun p = { st := .running, t0, goalBase := s.rd64 (Reg.selGoalBaseLo p), plan := (s.prun p).plan } := by
  rw [State.startRun0, State.setPSt_prun_same _ _ (by simpa using h), s.setPRun_prun_same _ h]

theorem State.startRun0_prun_of_ne {p q : Nat} (t0 : Nat) (h : q ≠ p) : (s.startRun0 p t0).prun q = s.prun q := by
  rw [State.startRun0, State.setPSt_prun_of_ne _ _ h, s.setPRun_prun_of_ne _ h]

theorem State.startRun0_keeps (p t0 : Nat) : (s.startRun0 p t0).keeps s [.parts, .regs, .ints] :=
  (State.setPSt_keeps _ _ _).after (s.setPRun_keeps _ _).widen

theorem State.startPart_prun (p t0 q : Nat) : (s.startPart p t0).prun q = (s.startRun0 p t0).prun q :=
  congrArg (fun l : List PRun => l.getD q {}) (s.startPart_after p t0 .parts (by decide))

theorem State.startPart_keeps (p t0 : Nat) : (s.startPart p t0).keeps s (.parts :: startPieces) :=
  State.keeps_trans (s.startPart_after p t0).widen (s.startRun0_keeps p t0).widen

/-! ### The restart after a fall-back decision -/

theorem State.restartPart_keeps (t p : Nat) : (s.restartPart t p).keeps s (.parts :: startPieces) := by
  have hset := (s.setPRun_keeps p { s.prun p with restart := false }).widen (m := .parts :: startPieces)
  refine State.keeps_ite ?_ ((State.setPSt_keeps _ _ _).after hset)
  exact State.keeps_foldl (fun s m => State.keeps_ite (s.setWm_keeps _ _).widen (s.keeps_refl _))
    (State.keeps_trans (State.startPart_keeps _ _ _) hset) _

/-- One partition's restart ends its wait and no other one's. -/
theorem State.restartPart_restart (t p q : Nat) : ((s.restartPart t p).prun q).restart = (!decide (q = p) && (s.prun q).restart) := by
  let v := s.setPRun p { s.prun p with restart := false }
  have hv : (v.prun q).restart = (!decide (q = p) && (s.prun q).restart) := by
    by_cases hq : q = p
    · subst hq
      simpa using s.setPRun_prun_of (fun x => x.restart = false) rfl rfl
    · rw [s.setPRun_prun_of_ne _ hq]
      simp [hq]
  have hst (w : State) (x : PSt) : ((w.setPSt p x).prun q).restart = (w.prun q).restart := by
    by_cases hq : q = p
    · subst hq
      by_cases hlen : q < w.parts.length
      · rw [w.setPSt_prun_same x hlen]
      · rw [State.prun_of_length_le _ (by rw [State.setPSt_parts_length]; omega), State.prun_of_length_le _ (by omega)]
    · rw [w.setPSt_prun_of_ne x hq]
  rw [← hv]
  change ((if v.startCheck p (firstT0 t (s.period p)) = cOK then _ else v.setPSt p .stopped).prun q).restart = _
  split
  · have hdrives (u : State) (l : List Mech) :
        ((l.foldl (fun s' m => if (v.wm m.num).held && (v.wm m.num).cur.isSome then
          s'.setWm m.num { v.wm m.num with drives := some (v.imagePos m) } else s') u).prun q) = u.prun q :=
      congrArg (fun l : List PRun => l.getD q {}) <|
        State.keeps_foldl (l := [.warden]) (fun s m => State.keeps_ite (s.setWm_keeps _ _).widen (s.keeps_refl _)) (u.keeps_refl _) l .parts (by decide)
    refine (congrArg PRun.restart (hdrives _ _)).trans ?_
    rw [State.startPart_prun, State.startRun0, hst]
    by_cases hq : q = p
    · subst hq
      rw [hv]
      simpa using v.setPRun_prun_of (fun x => x.restart = false) rfl rfl
    · rw [v.setPRun_prun_of_ne _ hq]
  · exact hst v .stopped

theorem State.foldl_restartPart_restart (t : Nat) (l : List Nat) (q : Nat) :
    ((l.foldl (fun s p => s.restartPart t p) s).prun q).restart = (!decide (q ∈ l) && (s.prun q).restart) := by
  induction l generalizing s with
  | nil => simp
  | cons p r ih =>
    rw [List.foldl_cons, ih, State.restartPart_restart]
    by_cases hq : q = p <;> simp [hq]

theorem State.restartDone_keeps : s.restartDone.keeps s [.dev, .warden, .regs, .ints] :=
  State.keeps_ite ((State.setWState_keeps _ _).after (s.setDev_keeps _).widen) (s.keeps_refl _)

theorem State.restartDone_dev : s.restartDone.dev = s.dev ∨ s.restartDone.dev = { s.dev with released := true } := by
  unfold State.restartDone
  split
  · exact .inr ((State.setWState_keeps _ _) .dev (by decide))
  · exact .inl rfl

/-- Device time after a passage of time. -/
theorem State.at_time_eq (t : Nat) : (s.at t).time = max s.time (t - t % 8) :=
  State.flushTrace_keeps _ _ .time (by decide)

/-- Settles O13. -/
theorem warmReset : Obligations.WarmReset := by
  refine ⟨fun t s hcalm hup hwarm => ?_, fun t w s hcalm hwarm hhold => ?_, fun t s hcalm hup hwarm hrestart hready => ?_⟩
  · let v := (s.at t).wr Reg.glbResetCmd (BitVec.ofNat 32 (1 % 128))
    have hvwarm : v.dev.warm = none := by simpa [v] using hwarm
    let u := ((v.warmReset 1 v.time false).cmdResult 0).writeEnd
    have hdev : u.dev = { (s.dev.warmed 1 (s.at t).time false) with cmdResult := 0 } := by
      have h := v.warmReset_dev 1 v.time false hvwarm
      have hv : v.dev = s.dev := s.at_dev t
      rw [hv] at h
      exact congrArg (fun d : Dev => { d with cmdResult := 0 }) h
    have hfall : u.dev.fall = none := by rw [hdev]; exact hcalm
    have hfin := (State.finish_dev _ hfall).trans hdev
    refine ⟨u.finish, ?_, by rw [hfin]; rfl, by rw [hfin]; rfl, by rw [hfin]; rfl, by rw [hfin]; rfl, by rw [hfin], by rw [hfin]; rfl,
      fun p hp => ?_⟩
    · change (s.resetWrite 0 1 t fun s => (s.warmReset 1 s.time false).cmdResult 0).done = _
      rw [State.resetWrite_of_pcieUp 1 t _ hup]
      rfl
    · rw [State.finish_prun hfall]
      exact v.warmReset_not_running (by decide) hvwarm hp
  · let v : State := { s.at (max t (w + 99000)) with
      dev := { (s.at (max t (w + 99000))).dev with warm := none, released := !(s.at (max t (w + 99000))).dev.restart }
      ktl := { (s.at (max t (w + 99000))).ktl with lock := (s.at (max t (w + 99000))).ktl.lock ||| planPlls } }
    have hkeeps := v.redistribute_keeps
    have hfall : v.redistribute.dev.fall = none := by
      rw [hkeeps .dev (by decide)]
      exact State.at_calm _ hcalm
    have htime : v.redistribute.finish.time = (s.at (max t (w + 99000))).time :=
      (State.finish_time _ hfall).trans (hkeeps .time (by decide))
    refine ⟨v.redistribute.finish, ?_, ?_, ?_, htime, ?_⟩
    · change execWarmResetRelease t s = _
      unfold execWarmResetRelease
      simp only [hwarm, hhold, Bool.false_eq_true, if_false]
      rfl
    · rw [State.finish_dev _ hfall, hkeeps .dev (by decide)]
    · rw [State.finish_lock hfall, hkeeps.lock]
      change (s.at _).ktl.lock ||| planPlls = _
      rw [State.at_ktl]
    · rw [htime, s.at_time_eq]
      omega
  · let v := (s.at t).redistribute
    let ps := (List.range 8).filter fun p => (v.prun p).restart
    let l := (ps.filter fun p => v.master == some p) ++ ps.filter fun p => v.master != some p
    let begun := l.foldl (fun s p => s.restartPart t p) v
    let w := ({ begun with dev := { begun.dev with restart := false } } : State).inc Reg.wdnRestarts
    have hv : v.keeps (s.at t) [.mem, .regs] := State.redistribute_keeps _
    have hbegun : begun.keeps v (.parts :: startPieces) := State.keeps_foldl (fun s p => s.restartPart_keeps t p) (v.keeps_refl _) l
    have hdev : begun.dev = s.dev := (hbegun .dev (by decide)).trans ((hv .dev (by decide)).trans (s.at_dev t))
    have hw : w.dev = { s.dev with restart := false } := by rw [← hdev]; rfl
    have hdone : w.restartDone.dev.restart = false ∧ w.restartDone.dev.fall = none := by
      rcases w.restartDone_dev with h | h <;> rw [h, hw] <;> exact ⟨rfl, hcalm⟩
    have hprun (p : Nat) : w.restartDone.prun p = begun.prun p :=
      congrArg (fun l : List PRun => l.getD p {}) (w.restartDone_keeps .parts (by decide))
    refine ⟨w.restartDone.finish, ?_, by rw [State.finish_dev _ hdone.2]; exact hdone.1, fun p hp => ?_⟩
    · change execPlannerRestart t s = _
      rw [execPlannerRestart, if_pos ⟨hup, by simp [hwarm], hrestart, hready⟩]
      rfl
    · rw [State.finish_prun hdone.2, hprun, State.foldl_restartPart_restart]
      by_cases hr : (v.prun p).restart = true
      · have : p ∈ l := by
          have hps : p ∈ ps := List.mem_filter.mpr ⟨List.mem_range.mpr hp, hr⟩
          by_cases hm : (v.master == some p) = true
          · exact List.mem_append_left _ (List.mem_filter.mpr ⟨hps, hm⟩)
          · exact List.mem_append_right _ (List.mem_filter.mpr ⟨hps, by simpa [bne] using hm⟩)
        simp [this]
      · simp [hr]

end Sys2Proof.Machine
end

section
/-! SUPPORT. BLD_CMD: START and STOP of a partition (02_blend.md R65, R66). -/

namespace Sys2Proof.Machine

set_option Elab.async false

variable (s : State)

/-! ### Registers of the planner die and of the warden, as time passes -/

/-- Time's passage writes trace heads and counters alone, all of them from HIF's block on. -/
theorem State.writeTrace_rd_low (r : TraceRec) {o : Nat} (ho : o < 0x10A000) : (s.writeTrace r).rd o = s.rd o := by
  have hstore (a : Nat) (b : List Byte) : (s.store a b).rd o = s.rd o :=
    s.store_rd a b o (by simp only [Reg.memPoisonWritten]; omega)
  unfold State.writeTrace State.traceSlot
  split
  · rfl
  next head a hslot =>
    have hhead : o ≠ head := by
      split at hslot
      · obtain ⟨c, -, hc⟩ := Option.map_eq_some_iff.mp hslot
        obtain ⟨rfl, -⟩ := Prod.mk.inj hc
        simp only [Reg.schTraceHead]
        omega
      · obtain ⟨rfl, -⟩ := Prod.mk.inj (Option.some.inj hslot)
        simp only [Reg.hifVtHead]
        omega
    split
    · rfl
    · rw [State.rd_wr_ne _ _ _ _ hhead, hstore]

theorem State.at_rd_low (t : Nat) {o : Nat} (ho : o < 0x10A000) : (s.at t).rd o = s.rd o :=
  foldl_field (·.rd o) _ (fun s r => s.writeTrace_rd_low r ho) _ _

theorem State.at_rd64_low (t : Nat) {o : Nat} (ho : o + 4 < 0x10A000) : (s.at t).rd64 o = s.rd64 o := by
  rw [State.rd64, s.at_rd_low t (by omega), s.at_rd_low t ho, State.rd64]

/-! ### A command -/

/-- The physical function reaches every register that is ready and of no core. -/
theorem State.takesWrite_pf {s : State} {off b : Nat} (hup : s.pcieUp = true) (hoff : off % 4 = 0) (hready : readyOf off = some b)
    (hb : s.readyBit b = true) (hcore : Reg.inCore off = none) (hcluster : Reg.inCluster off = none) : s.takesWrite { fn := 0, off } := by
  refine ⟨hup, by simp [State.unsupported, hoff], ?_⟩
  simp [State.regThere, hready, hcore, hcluster, hb]

theorem State.takesWrite_bldCmd {s : State} (hup : s.pcieUp = true) (hwarden : s.readyBit rbWARDEN = true) :
    s.takesWrite { fn := 0, off := Reg.bldCmd } :=
  State.takesWrite_pf hup (by decide) (by decide) hwarden (by decide) (by decide)

/-- The state in which a command with value v is decided. -/
def State.bldTaken (s : State) (v t : Nat) : State := (s.at t).wr Reg.bldCmd (BitVec.ofNat 32 v)

theorem State.bldTaken_keeps (v t : Nat) : (s.bldTaken v t).keeps (s.at t) [.regs] := (s.at t).wr_keeps _ _

theorem State.bldTaken_prun (v t q : Nat) : (s.bldTaken v t).prun q = s.prun q := s.at_prun t q

theorem State.bldTaken_dev (v t : Nat) : (s.bldTaken v t).dev = s.dev := s.at_dev t

theorem State.bldTaken_loader (v t : Nat) : (s.bldTaken v t).loader = s.loader := s.at_loader t

theorem State.bldTaken_cfg (v t : Nat) : (s.bldTaken v t).cfg = s.cfg := s.at_cfg t

theorem State.bldTaken_period (v t p : Nat) : (s.bldTaken v t).period p = s.period p := by
  change (((s.bldTaken v t).pcfg p).frame.P * 1000) = (s.pcfg p).frame.P * 1000
  rw [State.pcfg, State.bldTaken_cfg]
  rfl

theorem State.bldTaken_t0 (v t : Nat) : (s.bldTaken v t).rd64 Reg.bldT0Lo = s.rd64 Reg.bldT0Lo := by
  have hne (o : Nat) (h : o ≠ Reg.bldCmd) : (s.bldTaken v t).rd o = (s.at t).rd o := State.rd_wr_ne _ _ _ _ h
  rw [State.rd64, hne _ (by decide), hne _ (by decide)]
  exact s.at_rd64_low t (by decide)

theorem State.bldAnswer_keeps (c : Nat) : (s.bldAnswer c).keeps s [.loader, .regs, .ints] :=
  (State.raise_keeps _ _).after ((State.keeps_iff _ _ _).mpr (by simp))

theorem State.bldAnswer_code (c : Nat) : (s.bldAnswer c).loader.code = c :=
  congrArg Loader.code (State.raise_keeps _ _ .loader (by decide))

/-- BLD_CMD of START or STOP, beside no steeping. -/
theorem State.bldCommand_of_op {p t op : Nat} (hp : p < 8) (hop : op = 4 ∨ op = 5) (hrun : s.loader.run = none) :
    (s.at t).bldCommand (p % 16 * 16 + op) t =
      let v := s.bldTaken (p * 16 + op) t
      if op = 4 then (if (v.prun p).st = .stopped then v.bldStart p t else v.bldAnswer cPART_STATE)
      else if (v.prun p).st = .running then v.bldStop p t else v.bldAnswer cPART_STATE := by
  have hval : (p % 16 * 16 + op) % 256 = p * 16 + op := by omega
  have hop16 : (p % 16 * 16 + op) % 16 = op := by omega
  have hp16 : (p % 16 * 16 + op) / 16 % 16 = p := by omega
  have hv : (s.at t).wr Reg.bldCmd (BitVec.ofNat 32 (p * 16 + op)) = s.bldTaken (p * 16 + op) t := rfl
  have hnorun (P : Prop) : ¬((s.bldTaken (p * 16 + op) t).loader.run.isSome = true ∧ P) := by
    rw [State.bldTaken_loader, hrun]
    simp
  unfold State.bldCommand
  simp only [hval, hop16, hp16, hv]
  rw [if_neg (by omega), if_neg (hnorun _), if_neg (by omega), if_neg (by omega), if_neg (by omega), if_neg (by omega)]

theorem State.onWrite_bldCmd {s : State} (hup : s.pcieUp = true) (hwarden : s.readyBit rbWARDEN = true) (t : Nat) (f : State → State) :
    s.onWrite { fn := 0, off := Reg.bldCmd } t f = (f (s.at t)).writeEnd :=
  State.onWrite_of_takesWrite (State.takesWrite_bldCmd hup hwarden) t f

/-- An answered BLD_CMD write: the code shows, partitions and memory stand. -/
theorem State.bldEnd {w : State} (hfall : w.dev.fall = none) (c : Nat) :
    (∀ q, (w.bldAnswer c).writeEnd.finish.prun q = w.prun q) ∧ (w.bldAnswer c).writeEnd.finish.loader.code = c
      ∧ (w.bldAnswer c).writeEnd.finish.memAs w 0 0 := by
  have hkeeps : (w.bldAnswer c).writeEnd.keeps w [.loader, .regs, .ints, .compl] :=
    (State.setCompl_keeps _ _).after (w.bldAnswer_keeps c).widen
  have hfall' : (w.bldAnswer c).writeEnd.dev.fall = none := by rw [hkeeps .dev (by decide), hfall]
  refine ⟨fun q => ?_, ?_, State.memAs_trans (State.finish_memAs hfall' 0 0) (hkeeps.memAs 0 0)⟩
  · rw [State.finish_prun hfall', State.prun, hkeeps .parts (by decide), State.prun]
  · rw [State.finish_loader _ hfall']
    exact State.bldAnswer_code _ _

theorem State.bldTaken_lt {p : Nat} (v t : Nat) (hp : p < 8) (hlen : s.parts.length = 8) : p < (s.bldTaken v t).parts.length := by
  change p < (s.at t).parts.length
  rw [State.at_parts]
  omega

theorem exec_start {s : State} {p : Nat} (t : Nat) (hup : s.pcieUp = true) (hwarden : s.readyBit rbWARDEN = true) (hp : p < 8)
    (hrun : s.loader.run = none) (hst : (s.prun p).st = .stopped) :
    exec (.start 0 p t) s = .next ((s.bldTaken (p * 16 + 4) t).bldStart p t).writeEnd.finish := by
  have hcmd : (s.at t).bldCommand (p % 16 * 16 + 4) t = (s.bldTaken (p * 16 + 4) t).bldStart p t := by
    rw [s.bldCommand_of_op hp (.inl rfl) hrun]
    dsimp only
    rw [if_pos rfl, if_pos (by rw [State.bldTaken_prun, hst])]
  rw [← hcmd, ← State.onWrite_bldCmd hup hwarden t fun s => s.bldCommand (p % 16 * 16 + 4) t]
  rfl

theorem exec_stop {s : State} {p : Nat} (t : Nat) (hup : s.pcieUp = true) (hwarden : s.readyBit rbWARDEN = true) (hp : p < 8)
    (hrun : s.loader.run = none) (hst : (s.prun p).st = .running) :
    exec (.stop 0 p t) s = .next ((s.bldTaken (p * 16 + 5) t).bldStop p t).writeEnd.finish := by
  have hcmd : (s.at t).bldCommand (p % 16 * 16 + 5) t = (s.bldTaken (p * 16 + 5) t).bldStop p t := by
    rw [s.bldCommand_of_op hp (.inr rfl) hrun]
    dsimp only
    rw [if_neg (by decide), if_pos (by rw [State.bldTaken_prun, hst])]
  rw [← hcmd, ← State.onWrite_bldCmd hup hwarden t fun s => s.bldCommand (p % 16 * 16 + 5) t]
  rfl

/-- A START with a legal T0 whose preconditions hold (R66). -/
theorem State.bldStart_of_ok {v : State} {p t t0 : Nat}
    (ht0 : (if v.rd64 Reg.bldT0Lo = 0 then firstT0 t (v.period p) else v.rd64 Reg.bldT0Lo) = t0) (halign : t0 % 1000 = 0)
    (hlate : t + 100000 ≤ t0) (hcheck : v.startCheck p t0 = cOK) : v.bldStart p t = (v.startPart p t0).bldAnswer cOK := by
  unfold State.bldStart
  dsimp only
  rw [ht0, if_neg (by omega), if_pos hcheck]

/-- A STOP at or after T0 (R65). -/
theorem State.bldStop_of_running {v : State} {p t : Nat}
    (hothers : ¬(v.master = some p ∧ ((v.cfg.hasMechs.map (·.num)).any fun x => x != p && (v.prun x).st == .running) = true))
    (hlast : (v.prun p).lastFrame = none) (hissued : (v.prun p).issued = false) (hreset : (v.prun p).resetting = false)
    (hrestart : (v.prun p).restart = false) (ht0 : (v.prun p).t0 ≤ t) : v.bldStop p t = (v.stopPart p t).bldAnswer cOK := by
  unfold State.bldStop
  dsimp only
  rw [if_neg hothers, if_neg (by simp [hlast, hissued, hreset]), if_neg (by simp [hrestart]; omega)]

/-- Settles O18. -/
theorem startAndStop : Obligations.StartAndStop := by
  refine ⟨fun p t s hcalm hup hwarden hp hlen hrun hst => ?_,
    fun p t s hcalm hup hwarden hp hlen hrun hrunning hlast hissued hreset hrestart ht0 hmaster => ?_⟩
  · intro v t0 halign hlate hcheck
    have hv : v = s.bldTaken (p * 16 + 4) t := rfl
    have hlegal : (if v.rd64 Reg.bldT0Lo = 0 then firstT0 t (v.period p) else v.rd64 Reg.bldT0Lo) = t0 := by
      rw [hv, s.bldTaken_t0, s.bldTaken_period]
      rfl
    have hexec := exec_start t hup hwarden hp hrun hst
    rw [← hv, State.bldStart_of_ok hlegal halign hlate hcheck] at hexec
    have hprun := (State.startPart_prun v p t0 p).trans (v.startRun0_prun_same t0 (hv ▸ s.bldTaken_lt _ t hp hlen))
    have hfall : (v.startPart p t0).dev.fall = none := by
      rw [v.startPart_keeps p t0 .dev (by decide), hv, s.bldTaken_dev, hcalm]
    generalize v.startPart p t0 = w at hexec hprun hfall
    obtain ⟨hparts, hcode, -⟩ := State.bldEnd hfall cOK
    refine ⟨_, hexec, ?_, ?_, ?_, ?_, hcode⟩ <;> rw [hparts, hprun]
  · obtain ⟨v, hv⟩ : ∃ v, v = s.bldTaken (p * 16 + 5) t := ⟨_, rfl⟩
    have hprun (q : Nat) : v.prun q = s.prun q := hv ▸ s.bldTaken_prun _ t q
    have hst : (s.prun p).st = .running := by
      simp only [State.running, Bool.and_eq_true, decide_eq_true_eq] at hrunning
      exact hrunning.1.1
    have hothers : ¬(v.master = some p ∧ ((v.cfg.hasMechs.map (·.num)).any fun x => x != p && (v.prun x).st == .running) = true) := by
      rintro ⟨hm, hany⟩
      have hcfg : v.cfg = s.cfg := hv ▸ s.bldTaken_cfg _ t
      obtain ⟨x, hx, hne⟩ := List.any_eq_true.mp hany
      rw [hcfg] at hx
      have hm' : s.master = some p := by rw [← hm, State.master, State.master, hcfg]
      rw [hprun] at hne
      simp only [Bool.and_eq_true, bne_iff_ne, ne_eq, beq_iff_eq] at hne
      exact (hmaster hm' x hx).elim hne.1 fun h => h hne.2
    have hstop : v.stopPart p t = v.setPRun p { s.prun p with lastFrame := some (s.frameAt p t) } := by
      have hgo : (v.running p && (v.prun p).lastFrame.isNone) = true := by
        rw [State.running, hprun, ← State.running, hrunning, hlast]
        rfl
      have hframe : v.frameAt p t = s.frameAt p t := by
        rw [State.frameAt, hv, s.bldTaken_period, ← hv, hprun, State.frameAt]
      unfold State.stopPart
      dsimp only
      rw [if_pos hgo, hprun, hframe]
    have hexec := exec_stop t hup hwarden hp hrun hst
    rw [← hv, State.bldStop_of_running hothers (by rw [hprun, hlast]) (by rw [hprun, hissued]) (by rw [hprun, hreset])
      (by rw [hprun, hrestart]) (by rw [hprun]; exact ht0), hstop] at hexec
    have hkeeps : (v.setPRun p { s.prun p with lastFrame := some (s.frameAt p t) }).keeps (s.at t) [.parts, .regs] :=
      (State.setPRun_keeps _ _ _).after (hv ▸ s.bldTaken_keeps _ t).widen
    have hsame := v.setPRun_prun_same { s.prun p with lastFrame := some (s.frameAt p t) } (hv ▸ s.bldTaken_lt _ t hp hlen)
    have hother (q : Nat) (hq : q ≠ p) := (v.setPRun_prun_of_ne { s.prun p with lastFrame := some (s.frameAt p t) } hq).trans (hprun q)
    generalize v.setPRun p { s.prun p with lastFrame := some (s.frameAt p t) } = w at hexec hkeeps hsame hother
    have hfall : w.dev.fall = none := by rw [hkeeps .dev (by decide)]; exact State.at_calm t hcalm
    obtain ⟨hparts, hcode, hmem⟩ := State.bldEnd hfall cOK
    exact ⟨_, hexec, (hparts p).trans hsame, fun q hq => (hparts q).trans (hother q hq), hcode, State.memAs_trans hmem (hkeeps.memAs 0 0)⟩

end Sys2Proof.Machine
end

section
/-! SUPPORT. What a trigger and its Saucers change (14_safety_concept.md R320 to R324, R338): registers, the warden's mechanisms, and the
stop-request outputs, and what the settling of the outputs at the end of a command leaves. -/

namespace Sys2Proof.Machine

set_option Elab.async false

variable (s : State)

/-! ### Registers that a trigger writes -/

/-- The registers that a trigger writes: the counters of R202 and R308, of the interrupts that coalesce or have no route, of lost
error records, and of poisoned writes. -/
def trigReg (o : Nat) : Bool :=
  decide (0x80 ≤ o) && decide (o < 0xB0) || [Reg.intUnrouted, Reg.intCoalesced, Reg.errLost, Reg.wdnSaucers, Reg.selSaucerSub].contains o
  || o % 0x400000 == 0xB048

/-- Two states have every register that no trigger writes in common. -/
def State.spares (u s : State) : Prop := ∀ o, trigReg o = false → u.rd o = s.rd o

theorem State.spares_refl : s.spares s := fun _ _ => rfl

variable {s}

theorem State.spares.trans {u v : State} (h : u.spares v) (k : v.spares s) : u.spares s := fun o ho => (h o ho).trans (k o ho)

theorem State.keeps.spares {u : State} {l : List Piece} (h : u.keeps s l) (hl : .regs ∉ l := by decide) : u.spares s := fun o _ =>
  (h .regs hl) o (by simp)

theorem State.spares_ite {c : Prop} [Decidable c] {a b : State} (ha : a.spares s) (hb : b.spares s) : (if c then a else b).spares s := by
  split
  · exact ha
  · exact hb

theorem State.spares_foldl {α : Type} {f : State → α → State} (hf : ∀ v x, (f v x).spares v) {u : State} (h : u.spares s) (xs : List α) :
    (xs.foldl f u).spares s := by
  induction xs generalizing u with
  | nil => exact h
  | cons x r ih => exact ih ((hf u x).trans h)

variable (s)

theorem State.wr_spares {o : Nat} (v : Word) (ho : trigReg o = true) : (s.wr o v).spares s := fun x hx =>
  s.rd_wr_ne _ _ _ (by rintro rfl; simp [hx] at ho)

theorem State.inc_spares {o : Nat} (n : Nat) (ho : trigReg o = true) : (s.inc o n).spares s :=
  State.spares_ite s.spares_refl (s.wr_spares _ ho)

theorem State.add64_spares {o : Nat} (n : Nat) (ho : trigReg o = true) (ho' : trigReg (o + 4) = true) : (s.add64 o n).spares s :=
  State.spares_ite s.spares_refl ((State.wr_spares _ _ ho').trans (s.wr_spares _ ho))

theorem State.raise_spares (src : Nat) : (s.raise src).spares s := by
  have hslot (v : State) (k : Nat) : (v.raiseSlot src k).spares v := by
    unfold State.raiseSlot
    extract_lets x w
    have hw : w.spares v := State.spares_ite v.spares_refl (v.inc_spares 1 (by decide))
    split
    · exact hw
    · exact (State.inc_spares _ _ (by decide)).trans hw
    · exact State.spares_ite ((State.inc_spares _ _ (by decide)).trans hw) hw
  unfold State.raise
  extract_lets ints w v
  have hw : w.spares s := State.spares_ite (fun _ _ => rfl) s.spares_refl
  have hv : v.spares s := (hslot _ _).trans hw
  exact State.spares_ite ((hslot _ _).trans hv) hv

theorem memDie_poison (a : Nat) : trigReg (Reg.memPoisonWritten (memDie a)) = true := by
  have : (Reg.memPoisonWritten (memDie a)) % 0x400000 = 0xB048 := by simp only [Reg.memPoisonWritten]; omega
  simp [trigReg, this]

theorem State.store_spares (a : Nat) (b : List Byte) : (s.store a b).spares s := (State.inc_spares _ _ (memDie_poison a)).trans fun _ _ => rfl

theorem State.setErrs_spares (e : ErrColl) (n : Nat) : ({ s with errs := e, fresh := n } : State).spares s := fun _ _ => rfl

theorem State.log_spares (r : ErrRec) : (s.log r).spares s := by
  have hring (v : State) (c : Prop) [Decidable c] (a : Nat) (d : List Byte) (e : ErrColl) :
      (if c then v else { v.store a d with errs := e } : State).spares v :=
    State.spares_ite v.spares_refl (((v.store a d).setErrs_spares e _).trans (v.store_spares a d))
  have hlost (v : State) (c : Bool) : (if c = true then (v.inc Reg.errLost).raise isrcERR_LOST else v).spares v :=
    State.spares_ite ((State.raise_spares _ _).trans (v.inc_spares 1 (by decide))) v.spares_refl
  exact (hlost _ _).trans ((State.raise_spares _ _).trans ((hring _ _ _ _ _).trans (s.setErrs_spares _ _)))

theorem State.tdcCount_spares (p frame : Nat) {cause : Nat} (hcause : cause < 8) : (s.tdcCount p frame cause).spares s := by
  unfold State.tdcCount
  extract_lets a b c
  have hcause' : trigReg (Reg.glbTdcCause cause) = true := by
    have h1 : (0x80 ≤ Reg.glbTdcCause cause) := by simp only [Reg.glbTdcCause]; omega
    have h2 : Reg.glbTdcCause cause < 0xB0 := by simp only [Reg.glbTdcCause]; omega
    simp [trigReg, h1, h2]
  have ha : a.spares s := (State.inc_spares _ _ hcause').trans (s.add64_spares _ (by decide) (by decide))
  have hb : b.spares s := (State.wr_spares _ _ (by decide)).trans ha
  have hc : c.spares s := State.spares_ite ((State.wr_spares _ _ (by decide)).trans hb) hb
  exact (State.raise_spares _ _).trans hc

theorem State.tdc_spares (p frame : Nat) {cause : Nat} (hcause : cause < 8) : (s.tdc p frame cause).spares s :=
  State.spares_ite (s.tdcCount_spares _ _ hcause) <| State.spares_ite s.spares_refl <|
    (State.tdcCount_spares _ _ _ hcause).trans fun _ _ => rfl

theorem State.dropOuts_spares (m : Nat) : (s.dropOuts m).spares s := (s.dropOuts_keeps m).spares

theorem State.issue_spares (m cause cat stamp : Nat) : (s.issue m cause cat stamp).spares s := by
  have hcharge (v : State) : (v.chargeSub m stamp).spares v := by
    unfold State.chargeSub
    split
    · exact v.tdc_spares _ _ (by decide)
    · exact v.spares_refl
  have hdrop (v : State) (c : Prop) [Decidable c] : (if c then v.dropOuts m else v).spares v := State.spares_ite (v.dropOuts_spares m) v.spares_refl
  unfold State.issue
  extract_lets w cat' set1 same t0 set2 counted charged
  have h1 : set1.spares s := fun _ _ => rfl
  have h2 : counted.spares s := (State.inc_spares _ _ (by decide)).trans fun _ _ => rfl
  have h3 : charged.spares s := State.spares_ite h2 ((hcharge _).trans ((State.inc_spares _ _ (by decide)).trans h2))
  exact State.spares_ite (State.spares_ite ((hdrop _ _).trans h1) h1) ((hdrop _ _).trans h3)

theorem State.trigger_spares (cause stamp : Nat) (ms : List Nat) (cat : Option Nat) : (s.trigger cause stamp ms cat).spares s :=
  State.spares_foldl (fun v m => v.issue_spares m _ _ _) ((State.raise_spares _ _).trans ((State.log_spares _ _).trans fun _ _ => rfl)) _

/-! ### The warden, but for its mechanisms and outputs -/

/-- The warden without its mechanisms and its outputs. -/
def Warden.quiet (w : Warden) : Warden := { w with mechs := [], outs := [] }

theorem State.keeps.quiet {s u : State} {l : List Piece} (h : u.keeps s l) (hl : .warden ∉ l := by decide) : u.warden.quiet = s.warden.quiet := by
  have := congrArg (fun w : Warden => ({ w with mechs := [], outs := [] } : Warden)) (h .warden hl)
  exact this

theorem State.issue_quiet (m cause cat stamp : Nat) : (s.issue m cause cat stamp).warden.quiet = s.warden.quiet := by
  have hdrop (v : State) (c : Prop) [Decidable c] : (if c then v.dropOuts m else v).warden.quiet = v.warden.quiet := by
    split
    · exact (v.dropOuts_keeps m).quiet
    · rfl
  have hcharge (v : State) : (v.chargeSub m stamp).warden.quiet = v.warden.quiet := by
    unfold State.chargeSub
    split
    · exact (v.tdc_keeps _ _ _).quiet
    · rfl
  unfold State.issue
  extract_lets w cat' set1 same t0 set2 counted charged
  have h1 : set1.warden.quiet = s.warden.quiet := rfl
  have h2 : counted.warden.quiet = s.warden.quiet := (State.inc_keeps _ _ _).quiet.trans rfl
  have h3 : charged.warden.quiet = s.warden.quiet := by
    simp only [charged]
    split
    · exact h2
    · exact (hcharge _).trans ((State.inc_keeps _ _ _).quiet.trans h2)
  split
  · split
    · exact (hdrop _ _).trans h1
    · exact h1
  · exact (hdrop _ _).trans h3

/-- The state of a trigger before its Saucers. -/
def State.triggerSet (s : State) (cause stamp : Nat) (ms : List Nat) : State :=
  { s with warden := { s.warden with trigCause := cause, trigMechs := maskOf (ms.filter fun m => (s.mech? m).isSome), trigTime := tick stamp } }

/-- Before its Saucers a trigger writes its record and raises its interrupt. -/
theorem State.triggerSet_keeps (cause stamp : Nat) (ms : List Nat) :
    ((((s.triggerSet cause stamp ms).log { kind := ekTRIGGER, time := tick stamp }).raise isrcSAUCER)).keeps (s.triggerSet cause stamp ms)
      [.fresh, .errs, .mem, .regs, .ints] :=
  (State.raise_keeps _ _).after (State.log_keeps _ _)

theorem State.trigger_quiet (cause stamp : Nat) (ms : List Nat) (cat : Option Nat) :
    (s.trigger cause stamp ms cat).warden.quiet = (s.triggerSet cause stamp ms).warden.quiet :=
  (foldl_field (·.warden.quiet) _ (fun v m => v.issue_quiet m _ _ _) _ _).trans (s.triggerSet_keeps cause stamp ms).quiet

end Sys2Proof.Machine
end

section
/-! SUPPORT. What a trigger leaves of the warden's mechanisms and of the stop-request outputs, and the outputs at the end of a command
(14_safety_concept.md R320 to R324, R338). -/

namespace Sys2Proof.Machine

set_option Elab.async false

variable (s : State)

/-! ### Operations that leave the warden alone -/

@[simp] theorem State.raiseSlot_warden (src k : Nat) : (s.raiseSlot src k).warden = s.warden := by
  unfold State.raiseSlot
  extract_lets x w
  have hw : w.warden = s.warden := by simp only [w]; split <;> simp
  split
  · exact hw
  · rw [State.inc_warden, hw]
  · split
    · rw [State.inc_warden, hw]
    · exact hw

@[simp] theorem State.raise_warden (src : Nat) : (s.raise src).warden = s.warden := by
  unfold State.raise
  dsimp only
  split <;> split <;> simp only [State.raiseSlot_warden]

/-- An error record in the collector's ring. -/
def State.withErrs (s : State) (n : Nat) (e : ErrColl) : State := { s with fresh := n, errs := e }

/-- An error record in the log ring of the FAULTS section, where there is one. -/
def State.logRing (s : State) (log a : Nat) (b : List Byte) : State :=
  if log = 0 then s else { s.store a b with errs := { s.errs with logHead := s.errs.logHead + 1 } }

/-- The interrupts of a record written, and the count of one overwritten. -/
def State.logRaise (s : State) (lost : Bool) : State :=
  if lost then ((s.raise isrcERR_RECORD).inc Reg.errLost).raise isrcERR_LOST else s.raise isrcERR_RECORD

/-- The bytes of the next error record. -/
def State.recBytes (s : State) (r : ErrRec) : List Byte :=
  { r with time := tick r.time }.bytes (s.errs.seq + 1) ((s.ktl.tj.getD (dieOfUnit r.unit) 0) % 65536).toNat (s.volt r.unit)
    ((s.masterFrame (tick r.time)).getD 0)

theorem State.log_eq (r : ErrRec) :
    s.log r = ((((s.withErrs (s.fresh + 1) { s.errs with
        seq := s.errs.seq + 1, ring := Machine.poke s.errs.ring (64 * ((s.errs.seq + 1) % 256)) (s.recBytes r) }).logRing s.cfg.faults.log
          (s.cfg.faults.log + 64 * s.errs.logHead % s.cfg.faults.logLen) (s.recBytes r)).logRaise
            (decide ((s.rd Reg.errRead).toNat + 256 < s.errs.seq + 1)))) := rfl

theorem State.logRing_warden (log a : Nat) (b : List Byte) : (s.logRing log a b).warden = s.warden := by
  unfold State.logRing
  split
  · rfl
  · exact s.store_warden a b

theorem State.logRaise_warden (lost : Bool) : (s.logRaise lost).warden = s.warden := by
  unfold State.logRaise
  split
  · rw [State.raise_warden, State.inc_warden, State.raise_warden]
  · exact s.raise_warden _

@[simp] theorem State.log_warden (r : ErrRec) : (s.log r).warden = s.warden := by
  rw [State.log_eq, State.logRaise_warden, State.logRing_warden]
  rfl

@[simp] theorem State.add64_warden (o n : Nat) : (s.add64 o n).warden = s.warden := by unfold State.add64; split <;> rfl

/-- GLB_TDC_FIRST takes the first increment. -/
def State.tdcFirst (s : State) (x : Word) : State := if (s.rd Reg.glbTdcFirst).toNat / 2 ^ 31 = 0 then s.wr Reg.glbTdcFirst x else s

theorem State.tdcFirst_warden (x : Word) : (s.tdcFirst x).warden = s.warden := by
  unfold State.tdcFirst
  split
  · exact s.wr_warden _ _
  · rfl

theorem State.tdcCount_eq (p frame cause : Nat) : s.tdcCount p frame cause =
    ((((s.add64 Reg.glbTdcLo 1).inc (Reg.glbTdcCause cause)).wr Reg.glbTdcLast (tdcWord p frame cause)).tdcFirst
      (tdcWord p frame cause)).raise isrcTDC := rfl

@[simp] theorem State.tdcCount_warden (p frame cause : Nat) : (s.tdcCount p frame cause).warden = s.warden := by
  rw [State.tdcCount_eq, State.raise_warden, State.tdcFirst_warden, State.wr_warden, State.inc_warden, State.add64_warden]

@[simp] theorem State.tdc_warden (p frame cause : Nat) : (s.tdc p frame cause).warden = s.warden := by
  unfold State.tdc
  split
  · exact s.tdcCount_warden _ _ _
  · split
    · rfl
    · exact State.tdcCount_warden _ _ _ _

@[simp] theorem State.chargeSub_warden (m t : Nat) : (s.chargeSub m t).warden = s.warden := by
  unfold State.chargeSub
  split <;> simp

/-! ### Mechanisms -/

variable {s}

/-- A mechanism of the warden without the pairs that its records have been accepted for. -/
def WMech.bare (x : WMech) : WMech := { x with accepted := 0 }

theorem State.keeps.mechs {u : State} {l : List Piece} (h : u.keeps s l) (hl : .warden ∉ l := by decide) :
    u.warden.mechs.map WMech.bare = s.warden.mechs.map WMech.bare :=
  congrArg Warden.mechs (h .warden hl)

theorem State.keeps.mechs_length {u : State} {l : List Piece} (h : u.keeps s l) (hl : .warden ∉ l := by decide) :
    u.warden.mechs.length = s.warden.mechs.length := by
  simpa using congrArg List.length (h.mechs hl)

theorem State.keeps.wm {u : State} {l : List Piece} (h : u.keeps s l) (k : Nat) (hl : .warden ∉ l := by decide) :
    (u.wm k).bare = (s.wm k).bare := by
  have hmap (l : List WMech) : (l.map WMech.bare).getD k {} = (l.getD k {}).bare := by
    rw [List.getD_eq_getElem?_getD, List.getElem?_map, List.getD_eq_getElem?_getD]
    cases l[k]? <;> rfl
  rw [State.wm, State.wm, ← hmap, ← hmap, h.mechs hl]

theorem State.keeps.held {u : State} {l : List Piece} (h : u.keeps s l) (k : Nat) (hl : .warden ∉ l := by decide) :
    (u.wm k).held = (s.wm k).held := (congrArg WMech.held (h.wm k hl) : (u.wm k).bare.held = (s.wm k).bare.held)

theorem State.keeps.portHold {u : State} {l : List Piece} (h : u.keeps s l) (k : Nat) (hl : .warden ∉ l := by decide) :
    (u.wm k).portHold = (s.wm k).portHold := (congrArg WMech.portHold (h.wm k hl) : (u.wm k).bare.portHold = (s.wm k).bare.portHold)

variable (s)

theorem State.setWm_wm_same {m : Nat} (x : WMech) (h : m < s.warden.mechs.length) : (s.setWm m x).wm m = x := getD_listSet_same _ _ h

theorem State.setWm_wm_of_ne {m k : Nat} (x : WMech) (h : k ≠ m) : (s.setWm m x).wm k = s.wm k := getD_listSet_of_ne _ _ _ h

@[simp] theorem State.setWm_mechs_length (m : Nat) (x : WMech) : (s.setWm m x).warden.mechs.length = s.warden.mechs.length :=
  length_listSet _ _ _

/-- A Saucer replaces its mechanism, held, and changes but registers, interrupts and outputs beside. -/
theorem State.issue_after (m cause cat stamp : Nat) : ∃ x : WMech, x.held = true ∧ x.portHold = (s.wm m).portHold ∧
    (s.issue m cause cat stamp).keeps (s.setWm m x) [.regs, .ints, .tdcSeen] := by
  have hdrop (v : State) (c : Prop) [Decidable c] : (if c then v.dropOuts m else v).keeps v [.regs, .ints, .tdcSeen] :=
    State.keeps_ite (v.dropOuts_keeps m).widen (v.keeps_refl _)
  have hcharge (v : State) : (v.chargeSub m stamp).keeps v [.regs, .ints, .tdcSeen] := by
    unfold State.chargeSub
    split
    · exact v.tdc_keeps _ _ _
    · exact v.keeps_refl _
  unfold State.issue
  extract_lets w cat' set1 same t0 set2 counted charged
  split
  · exact ⟨{ w with held := true, causes := w.causes ||| 2 ^ cause, cat := cat',
                    s1At := if cat' = 1 ∧ !w.atRest then some (w.iss + 2000 * s.tHalf m) else none }, rfl, rfl,
      State.keeps_ite (hdrop set1 _) (set1.keeps_refl _)⟩
  · have hcounted : counted.keeps set2 [.regs, .ints, .tdcSeen] := (set2.inc_keeps _ _).widen
    have hcharged : charged.keeps set2 [.regs, .ints, .tdcSeen] :=
      State.keeps_ite hcounted (State.keeps_trans (hcharge _) ((State.inc_keeps _ _ _).after hcounted))
    exact ⟨{ w with cur := s.inForce m stamp, next := none, held := true, issued := true, t0, iss := stamp, cat, cause,
                    drives := if same then w.drives else none, causes := 2 ^ cause, atRest := false, commanded := cause == 13,
                    s1At := if cat = 1 then some (stamp + 2000 * s.tHalf m) else none }, rfl, rfl,
      State.keeps_trans (hdrop charged _) hcharged⟩

theorem State.issue_mechs_length (m cause cat stamp : Nat) :
    (s.issue m cause cat stamp).warden.mechs.length = s.warden.mechs.length := by
  obtain ⟨x, -, -, hkeeps⟩ := s.issue_after m cause cat stamp
  rw [hkeeps.mechs_length, State.setWm_mechs_length]

theorem State.issue_held_same {m : Nat} (cause cat stamp : Nat) (h : m < s.warden.mechs.length) :
    ((s.issue m cause cat stamp).wm m).held = true := by
  obtain ⟨x, hheld, -, hkeeps⟩ := s.issue_after m cause cat stamp
  rw [hkeeps.held, s.setWm_wm_same x h, hheld]

theorem State.issue_held_mono {m k : Nat} (cause cat stamp : Nat) (h : (s.wm k).held = true) : ((s.issue m cause cat stamp).wm k).held = true := by
  obtain ⟨x, hheld, -, hkeeps⟩ := s.issue_after m cause cat stamp
  rw [hkeeps.held]
  by_cases hk : k = m
  · subst hk
    by_cases hlen : k < s.warden.mechs.length
    · rw [s.setWm_wm_same x hlen, hheld]
    · rw [State.wm, List.getD_eq_default _ _ (by rw [State.setWm_mechs_length]; omega)]
  · rw [s.setWm_wm_of_ne x hk, h]

theorem State.issue_portHold (m k cause cat stamp : Nat) : ((s.issue m cause cat stamp).wm k).portHold = (s.wm k).portHold := by
  obtain ⟨x, -, hport, hkeeps⟩ := s.issue_after m cause cat stamp
  rw [hkeeps.portHold]
  by_cases hk : k = m
  · subst hk
    by_cases hlen : k < s.warden.mechs.length
    · rw [s.setWm_wm_same x hlen, hport]
    · rw [State.wm, List.getD_eq_default _ _ (by rw [State.setWm_mechs_length]; omega), State.wm, List.getD_eq_default _ _ (by omega)]
  · rw [s.setWm_wm_of_ne x hk]

/-- The Saucers of a list of mechanisms hold each of them. -/
theorem State.foldl_issue_held (cause stamp : Nat) (cat : State → Nat → Nat) (ms : List Nat) {m : Nat} (hlen : m < s.warden.mechs.length)
    (h : m ∈ ms ∨ (s.wm m).held = true) : ((ms.foldl (fun s m => s.issue m cause (cat s m) stamp) s).wm m).held = true := by
  induction ms generalizing s with
  | nil => simpa using h
  | cons k r ih =>
    refine ih _ (by rwa [State.issue_mechs_length]) ?_
    rcases h with h | h
    · rcases List.mem_cons.mp h with rfl | h
      · exact .inr (s.issue_held_same _ _ _ hlen)
      · exact .inl h
    · exact .inr (s.issue_held_mono _ _ _ h)

/-- The state in which a trigger issues its Saucers. -/
def State.triggered (s : State) (cause stamp : Nat) (ms : List Nat) : State :=
  ((s.triggerSet cause stamp ms).log { kind := ekTRIGGER, time := tick stamp }).raise isrcSAUCER

theorem State.trigger_eq (cause stamp : Nat) (ms : List Nat) (cat : Option Nat) : s.trigger cause stamp ms cat =
    (ms.filter fun m => (s.mech? m).isSome).foldl (fun s m => s.issue m cause (cat.getD (s.msafe m).cat) (tick stamp))
      (s.triggered cause stamp ms) := rfl

theorem State.triggered_warden (cause stamp : Nat) (ms : List Nat) :
    (s.triggered cause stamp ms).warden = (s.triggerSet cause stamp ms).warden := by
  rw [State.triggered, State.raise_warden, State.log_warden]

theorem State.triggered_wm (cause stamp : Nat) (ms : List Nat) (k : Nat) : (s.triggered cause stamp ms).wm k = s.wm k := by
  rw [State.wm, State.triggered_warden]
  rfl

theorem State.trigger_mechs_length (cause stamp : Nat) (ms : List Nat) (cat : Option Nat) :
    (s.trigger cause stamp ms cat).warden.mechs.length = s.warden.mechs.length := by
  rw [State.trigger_eq]
  refine (foldl_field (·.warden.mechs.length) _ (fun v m => v.issue_mechs_length m _ _ _) _ _).trans ?_
  rw [State.triggered_warden]
  rfl

/-- A trigger holds every mechanism that it names and the configuration has. -/
theorem State.trigger_held {cause stamp : Nat} {ms : List Nat} {cat : Option Nat} {m : Nat} (hm : m ∈ ms) (hdef : (s.mech? m).isSome = true)
    (hlen : m < s.warden.mechs.length) : ((s.trigger cause stamp ms cat).wm m).held = true := by
  rw [State.trigger_eq]
  refine State.foldl_issue_held _ _ _ (fun s m => cat.getD (s.msafe m).cat) _ ?_ (.inl (List.mem_filter.mpr ⟨hm, hdef⟩))
  rw [State.triggered_warden]
  exact hlen

theorem State.trigger_held_mono {cause stamp : Nat} {ms : List Nat} {cat : Option Nat} {m : Nat} (h : (s.wm m).held = true)
    (hlen : m < s.warden.mechs.length) : ((s.trigger cause stamp ms cat).wm m).held = true := by
  rw [State.trigger_eq]
  refine State.foldl_issue_held _ _ _ (fun s m => cat.getD (s.msafe m).cat) _ ?_ (.inr (by rwa [State.triggered_wm]))
  rw [State.triggered_warden]
  exact hlen

theorem State.trigger_portHold (cause stamp : Nat) (ms : List Nat) (cat : Option Nat) (k : Nat) :
    ((s.trigger cause stamp ms cat).wm k).portHold = (s.wm k).portHold := by
  rw [State.trigger_eq]
  exact (foldl_field (fun s => (s.wm k).portHold) _ (fun v m => v.issue_portHold m k _ _ _) _ _).trans
    (congrArg WMech.portHold (s.triggered_wm cause stamp ms k))

theorem State.mem_mechNums {m : Nat} (h : m ∈ s.mechNums) : m < 16 ∧ (s.mech? m).isSome = true := by
  simpa [State.mechNums] using h

/-- Only the configuration says which mechanisms there are. -/
theorem State.mech?_congr {u s : State} (h : u.loader = s.loader) (m : Nat) : u.mech? m = s.mech? m := by
  rw [State.mech?, State.mech?, State.cfg, State.cfg, h]

/-! ### Stop-request outputs -/

/-- Output pair n. -/
def State.out (s : State) (n : Nat) : OutPair := s.warden.outs.getD n {}

/-- Every pair stands as it stood, or is driven off. -/
def State.outsFall (u s : State) : Prop := ∀ n, u.out n = s.out n ∨ u.out n = (s.out n).drive false

theorem OutPair.drive_off_off (x : OutPair) : (x.drive false).drive false = x.drive false := by
  simp only [OutPair.drive, OutPair.mk.injEq, and_true, true_and]
  constructor <;> split <;> rfl

theorem State.outsFall_refl : s.outsFall s := fun _ => .inl rfl

variable {s}

theorem State.outsFall.trans {u v : State} (h : u.outsFall v) (k : v.outsFall s) : u.outsFall s := fun n => by
  rcases h n with h | h <;> rcases k n with k | k <;> rw [h, k]
  · exact .inl rfl
  · exact .inr rfl
  · exact .inr rfl
  · exact .inr (OutPair.drive_off_off _)

theorem State.outsFall_of_eq {u : State} (h : u.warden.outs = s.warden.outs) : u.outsFall s := fun n => .inl (by rw [State.out, h, State.out])

theorem State.outsFall_ite {c : Prop} [Decidable c] {a b : State} (ha : a.outsFall s) (hb : b.outsFall s) :
    (if c then a else b).outsFall s := by
  split
  · exact ha
  · exact hb

theorem State.outsFall_foldl {α : Type} {f : State → α → State} (hf : ∀ v x, (f v x).outsFall v) {u : State} (h : u.outsFall s) (xs : List α) :
    (xs.foldl f u).outsFall s := by
  induction xs generalizing u with
  | nil => exact h
  | cons x r ih => exact ih ((hf u x).trans h)

variable (s)

theorem State.deEnergise_out_of_ne {n i : Nat} (h : i ≠ n) : (s.deEnergise n).out i = s.out i := getD_listSet_of_ne _ _ _ h

theorem State.deEnergise_out_same (n : Nat) : (s.deEnergise n).out n = s.out n ∨ (s.deEnergise n).out n = (s.out n).drive false := by
  simp only [State.out, State.deEnergise, getD_listSet, true_and]
  split
  · exact .inr rfl
  · exact .inl rfl

theorem State.deEnergise_outsFall (n : Nat) : (s.deEnergise n).outsFall s := fun i => by
  by_cases h : i = n
  · subst h
    exact s.deEnergise_out_same i
  · exact .inl (s.deEnergise_out_of_ne h)

theorem State.dropOuts_outsFall (m : Nat) : (s.dropOuts m).outsFall s :=
  State.outsFall_foldl (fun v n => v.deEnergise_outsFall n) s.outsFall_refl _

theorem State.issue_outsFall (m cause cat stamp : Nat) : (s.issue m cause cat stamp).outsFall s := by
  have hdrop (v : State) (c : Prop) [Decidable c] : (if c then v.dropOuts m else v).outsFall v :=
    State.outsFall_ite (v.dropOuts_outsFall m) v.outsFall_refl
  unfold State.issue
  extract_lets w cat' set1 same t0 set2 counted charged
  have h1 : set1.outsFall s := s.outsFall_refl
  have h2 : counted.outsFall s := (State.outsFall_of_eq (by rw [State.inc_warden]) : State.outsFall _ set2).trans s.outsFall_refl
  have h3 : charged.outsFall s :=
    State.outsFall_ite h2 <| (State.outsFall_of_eq (by rw [State.chargeSub_warden, State.inc_warden]) : State.outsFall _ counted).trans h2
  exact State.outsFall_ite (State.outsFall_ite ((hdrop _ _).trans h1) h1) ((hdrop _ _).trans h3)

theorem State.trigger_outsFall (cause stamp : Nat) (ms : List Nat) (cat : Option Nat) : (s.trigger cause stamp ms cat).outsFall s := by
  rw [State.trigger_eq]
  refine State.outsFall_foldl (fun v m => v.issue_outsFall m _ _ _) (State.outsFall_of_eq ?_) _
  rw [State.triggered_warden]
  rfl

/-- Settling leaves a pair that must be off and is, and one that may be on and is. -/
theorem State.settlePair_out {n : Nat} (i : Nat)
    (h : s.pairOff n = true ∧ s.pairDark n ∨ s.pairOff n = false ∧ (s.out n).drvA = true ∧ (s.out n).drvB = true) :
    (s.settlePair i).out n = s.out n := by
  by_cases hi : n = i
  · subst hi
    unfold State.settlePair
    dsimp only
    rcases h with ⟨hoff, hdark⟩ | ⟨hoff, hA, hB⟩
    · have hdark' : ¬((s.warden.outs.getD n {}).drvA || (s.warden.outs.getD n {}).drvB) = true := by
        rw [show _ = false from hdark]
        decide
      rw [if_pos hoff, if_neg hdark']
    · have hon : ¬((!((s.warden.outs.getD n {}).drvA && (s.warden.outs.getD n {}).drvB) && s.pairOn n) = true) := by
        rw [show (s.warden.outs.getD n {}).drvA = true from hA, show (s.warden.outs.getD n {}).drvB = true from hB]
        simp
      rw [if_neg (by simp [hoff]), if_neg hon]
  · rcases s.settlePair_eq i with h | h | ⟨-, h⟩ <;> rw [h]
    · exact s.deEnergise_out_of_ne hi
    · exact getD_listSet_of_ne _ _ _ hi

theorem State.foldl_settlePair_out {n : Nat} (l : List Nat)
    (h : s.pairOff n = true ∧ s.pairDark n ∨ s.pairOff n = false ∧ (s.out n).drvA = true ∧ (s.out n).drvB = true) :
    (l.foldl State.settlePair s).out n = s.out n := by
  induction l generalizing s with
  | nil => rfl
  | cons i r ih =>
    have hout := s.settlePair_out i h
    rw [List.foldl_cons, ih _ ?_, hout]
    rw [State.settlePair_pairOff, hout]
    exact h.imp_left fun ⟨hoff, hdark⟩ => ⟨hoff, by rw [State.pairDark, ← State.out, hout]; exact hdark⟩

theorem State.touchIdle_warden : s.touchIdle.warden = s.warden := by
  have hlook (v : State) (n : Nat) : (v.lookIdle n).warden = v.warden := by
    unfold State.lookIdle
    dsimp only
    split
    · rfl
    · split <;> split <;> rfl
  have hwaits (v : State) : v.lookWaits.warden = v.warden := by
    unfold State.lookWaits
    dsimp only
    split <;> rfl
  exact (hwaits _).trans (foldl_field (·.warden) _ hlook _ _)

/-- The end of a command leaves a pair that must be off and is, and one that may be on and is. -/
theorem State.finish_out {u : State} {n : Nat} (hfall : u.dev.fall = none)
    (h : u.pairOff n = true ∧ u.pairDark n ∨ u.pairOff n = false ∧ (u.out n).drvA = true ∧ (u.out n).drvB = true) :
    u.finish.out n = u.out n := by
  have hrelink (v : State) : v.relink.warden = v.warden := by unfold State.relink; split <;> rfl
  have hw : u.touchIdle.relink.warden = u.warden := (hrelink _).trans u.touchIdle_warden
  have hoff : u.touchIdle.relink.pairOff n = u.pairOff n := by
    have hkeeps : u.touchIdle.relink.keeps u [] := State.keeps_trans (State.relink_keeps _) u.touchIdle_keeps
    exact State.pairOff_congr n (by rw [hkeeps .dev (by simp)]) (hkeeps .loader (by simp)) (by rw [hw]) (by rw [hw]) (by rw [hw]) (by rw [hw])
      (by rw [hw]) (by rw [hw])
  have hout : u.touchIdle.relink.out n = u.out n := by rw [State.out, hw, State.out]
  rw [State.finish_eq, State.taken_of_calm hfall, State.settle, State.foldl_settlePair_out, hout]
  rw [hoff, hout]
  exact h.imp_left fun ⟨hoff, hdark⟩ => ⟨hoff, by rw [State.pairDark, ← State.out, hout]; exact hdark⟩

end Sys2Proof.Machine
end

section
/-! SUPPORT. Safety inputs, warden commands, stop-request outputs and Safety over EtherCAT (14_safety_concept.md R335 to R343). -/

namespace Sys2Proof.Machine

set_option Elab.async false

variable (s : State)

/-! ### What every trigger and every command end leave -/

theorem State.at_mechNums (t : Nat) : (s.at t).mechNums = s.mechNums := by
  simp only [State.mechNums, State.mech?, State.cfg, State.at_loader]

theorem State.at_sglob (t : Nat) : (s.at t).sglob = s.sglob := by simp only [State.sglob, State.cfg, State.at_loader]

theorem State.at_wm (t k : Nat) : (s.at t).wm k = s.wm k := by rw [State.wm, State.at_warden, State.wm]

theorem State.trigger_trigPieces (cause stamp : Nat) (ms : List Nat) (cat : Option Nat) :
    (s.trigger cause stamp ms cat).keeps s trigPieces := (s.trigger_keeps cause stamp ms cat).widen

variable {s}

/-- The end of a command leaves the warden but for outputs and accepted pairs. -/
theorem State.finish_quiet {u : State} (h : u.dev.fall = none) : u.finish.warden.quiet = u.warden.quiet := (u.finish_keeps h).quiet

theorem State.finish_estopLat {u : State} (h : u.dev.fall = none) : u.finish.warden.estopLat = u.warden.estopLat := by
  have hq := State.finish_quiet h
  generalize u.finish.warden = w at hq
  generalize u.warden = v at hq
  exact (congrArg Warden.estopLat hq : w.quiet.estopLat = v.quiet.estopLat)

theorem State.finish_held {u : State} (h : u.dev.fall = none) (k : Nat) : (u.finish.wm k).held = (u.wm k).held := (u.finish_keeps h).held k

theorem Warden.input_of_quiet {w v : Warden} (h : w.quiet = v.quiet) (n : Nat) : w.input n = v.input n := by
  have hestop : w.quiet.estop = v.quiet.estop := congrArg Warden.estop h
  have hossd : w.quiet.ossd = v.quiet.ossd := congrArg Warden.ossd h
  have henab : w.quiet.enab = v.quiet.enab := congrArg Warden.enab h
  change w.estop = v.estop at hestop
  change w.ossd = v.ossd at hossd
  change w.enab = v.enab at henab
  simp only [Warden.input, hestop, hossd, henab]

/-! ### Safety inputs -/

theorem Warden.setInput_input_same (w : Warden) {n : Nat} (x : DualIn) (hn : n < 13) (hestop : w.estop.length = 4) (hossd : w.ossd.length = 8) :
    (w.setInput n x).input n = x := by
  unfold Warden.setInput Warden.input
  split
  · exact getD_listSet_same _ _ (by omega)
  · split
    · exact getD_listSet_same _ _ (by omega)
    · rfl

theorem Warden.setInput_input_of_ne (w : Warden) {n k : Nat} (x : DualIn) (hn : n < 13) (hk : k < 13) (h : k ≠ n) :
    (w.setInput n x).input k = w.input k := by
  unfold Warden.setInput Warden.input
  by_cases hn4 : n < 4
  · rw [if_pos hn4]
    dsimp only
    split
    · exact getD_listSet_of_ne _ _ _ h
    · rfl
  · rw [if_neg hn4]
    by_cases hn12 : n < 12
    · rw [if_pos hn12]
      dsimp only
      split
      · rfl
      · split
        · exact getD_listSet_of_ne _ _ _ (by omega)
        · rfl
    · rw [if_neg hn12]
      dsimp only
      rw [if_pos (show k < 12 by omega), if_pos (show k < 12 by omega)]

variable (s)

theorem State.enableLook_keeps (t : Nat) : (s.enableLook t).keeps s trigPieces := by
  unfold State.enableLook
  extract_lets w x mid left rel v
  have hv : v.keeps s trigPieces := State.keeps_ite (s.trigger_trigPieces _ _ _ _) (s.keeps_refl _)
  exact (State.setWarden_keeps _ _).after hv

theorem State.estopLook_keeps (n t : Nat) (was : Bool) : (s.estopLook n t was).keeps s trigPieces := by
  unfold State.estopLook
  refine State.keeps_ite (s.keeps_refl _) ?_
  have hv (ms cat : Nat) : (if was = true then s.trigger 4 t (maskBits 16 ms) (some cat) else s).keeps s trigPieces :=
    State.keeps_ite (s.trigger_trigPieces _ _ _ _) (s.keeps_refl _)
  exact (State.setWarden_keeps _ _).after (hv _ _)

theorem State.inputLook_keeps (n t : Nat) (was : Bool) : (s.inputLook n t was).keeps s trigPieces :=
  State.keeps_ite (s.estopLook_keeps n t was) (State.keeps_ite (s.keeps_refl _) (s.enableLook_keeps t))

/-- An emergency-stop input latched. -/
def State.latchEstop (s : State) (n : Nat) : State :=
  { s with warden := { s.warden with estopLat := listSet s.warden.estopLat n true } }

theorem State.estopLook_of_off {n : Nat} (t : Nat) (was : Bool) (hoff : (s.warden.estop.getD n {}).on = false) : s.estopLook n t was =
    (if was then s.trigger 4 t (maskBits 16 (s.sglob.estop.getD n (0, 0)).1) (some (s.sglob.estop.getD n (0, 0)).2) else s).latchEstop n := by
  unfold State.estopLook
  rw [hoff]
  rfl

/-- What follows from an input's change leaves every input. -/
theorem State.inputLook_input (n t : Nat) (was : Bool) (k : Nat) : (s.inputLook n t was).warden.input k = s.warden.input k := by
  have htrig (cause : Nat) (ms : List Nat) (cat : Option Nat) : (s.trigger cause t ms cat).warden.input k = s.warden.input k :=
    (Warden.input_of_quiet (s.trigger_quiet cause t ms cat) k).trans rfl
  unfold State.inputLook
  split
  · by_cases hon : (s.warden.estop.getD n {}).on = true
    · unfold State.estopLook
      rw [if_pos hon]
    · rw [s.estopLook_of_off t was (by simpa only [Bool.not_eq_true] using hon)]
      change Warden.input (if was = true then _ else s).warden k = _
      split
      · exact htrig _ _ _
      · rfl
  · split
    · rfl
    · unfold State.enableLook
      extract_lets w x mid left rel v
      have hv : v.warden.input k = s.warden.input k := by
        simp only [v]
        split
        · exact htrig _ _ _
        · rfl
      exact hv

theorem State.inputLook_spares (n t : Nat) (was : Bool) : (s.inputLook n t was).spares s := by
  have hw (v : State) (w : Warden) : ({ v with warden := w } : State).spares v := fun _ _ => rfl
  unfold State.inputLook
  refine State.spares_ite (State.spares_ite s.spares_refl ?_) (State.spares_ite s.spares_refl ?_)
  · exact (hw _ _).trans (State.spares_ite (s.trigger_spares _ _ _ _) s.spares_refl)
  · exact (hw _ _).trans (State.spares_ite (s.trigger_spares _ _ _ _) s.spares_refl)

/-- An emergency-stop input that is de-energised is latched, with the Saucers of the mechanisms that it names (R336). -/
theorem State.estopLook_latched {n : Nat} (t : Nat) (hoff : (s.warden.estop.getD n {}).on = false) (hn : n < s.warden.estopLat.length)
    (hlen : s.warden.mechs.length = 16) : (s.estopLook n t true).warden.estopLat.getD n false = true
      ∧ ∀ m ∈ s.mechNums, bit (s.sglob.estop.getD n (0, 0)).1 m = true → ((s.estopLook n t true).wm m).held = true := by
  let v := s.trigger 4 t (maskBits 16 (s.sglob.estop.getD n (0, 0)).1) (some (s.sglob.estop.getD n (0, 0)).2)
  have hlook : s.estopLook n t true = v.latchEstop n := s.estopLook_of_off t true hoff
  have hlat : v.warden.estopLat = s.warden.estopLat :=
    (congrArg Warden.estopLat (s.trigger_quiet 4 t _ _) : v.warden.quiet.estopLat = (s.triggerSet 4 t _).warden.quiet.estopLat)
  rw [hlook]
  refine ⟨getD_listSet_same _ _ (by rw [hlat]; exact hn), fun m hm hbit => ?_⟩
  obtain ⟨hm16, hdef⟩ := s.mem_mechNums hm
  exact s.trigger_held (List.mem_filter.mpr ⟨List.mem_range.mpr hm16, hbit⟩) hdef (by omega)

/-- A wire's new level, and its latched discrepancy, are all that a change shows. -/
theorem DualIn.look_fil (x : DualIn) (enab : Bool) (t : Nat) : (x.look enab t).filA = x.filA ∧ (x.look enab t).filB = x.filB := by
  unfold DualIn.look
  dsimp only
  split
  · exact ⟨rfl, rfl⟩
  · split
    · exact ⟨rfl, rfl⟩
    · split
      · exact ⟨rfl, rfl⟩
      · split <;> exact ⟨rfl, rfl⟩

theorem DualIn.look_wire_fil (x : DualIn) (b level enab : Bool) (since t : Nat) :
    (if b then ((x.wire b level since).look enab t).filB else ((x.wire b level since).look enab t).filA) = level := by
  obtain ⟨hA, hB⟩ := (x.wire b level since).look_fil enab t
  rw [hA, hB]
  cases b <;> rfl

/-- An input that was energised and has a wire changed is energised no more. -/
theorem DualIn.look_wire_off (x : DualIn) (b level enab : Bool) (since t : Nat) (hon : x.on = true)
    (hne : (if b then x.filB else x.filA) ≠ level) : ((x.wire b level since).look enab t).on = false := by
  have hfil := x.look_wire_fil b level enab since t
  simp only [DualIn.on, Bool.and_eq_true] at hon
  obtain ⟨⟨hA, hB⟩, -⟩ := hon
  have hlevel : level = false := by
    cases b
    · rw [if_neg (by decide), hA] at hne
      simpa using hne
    · rw [if_pos rfl, hB] at hne
      simpa using hne
  rw [hlevel] at hfil ⊢
  unfold DualIn.on
  cases b
  · rw [if_neg (by decide)] at hfil
    rw [hfil]
    rfl
  · rw [if_pos rfl] at hfil
    rw [hfil, Bool.and_false, Bool.false_and]

/-- An input replaced in the state. -/
def State.setInput (s : State) (n : Nat) (x : DualIn) : State := { s with warden := s.warden.setInput n x }

theorem State.setInput_keeps (n : Nat) (x : DualIn) : (s.setInput n x).keeps s [.warden] := s.setWarden_keeps _

theorem Warden.setInput_rest (w : Warden) (n : Nat) (x : DualIn) :
    (w.setInput n x).estopLat = w.estopLat ∧ (w.setInput n x).mechs = w.mechs := by
  unfold Warden.setInput
  split
  · exact ⟨rfl, rfl⟩
  · split <;> exact ⟨rfl, rfl⟩

theorem exec_inputFilter {s : State} {i : WireIn} (t : Nat) (hup : s.dev.up = true) (hi : i.input < 13)
    (hne : (if i.b then (s.warden.input i.input).filB else (s.warden.input i.input).filA) ≠ i.level) :
    exec (.inputFilter i t) s = .next (((s.at t).setInput i.input
      (((s.warden.input i.input).wire i.b i.level (t - 1000 * (s.at t).sglob.filterUs)).look (i.input == 12) t)).inputLook i.input t
        (s.warden.input i.input).on).finish := by
  change execInputFilter i t s = _
  unfold execInputFilter
  dsimp only
  rw [if_pos ⟨hup, hi, hne⟩]
  rfl

theorem exec_discrepancy {s : State} {n t0 : Nat} (t : Nat) (hup : s.dev.up = true) (hn : n < 13)
    (hdis : (s.warden.input n).disagr = some t0) (hlate : t0 + 1000000 * s.sglob.discMs < t) :
    exec (.discrepancy n t) s = .next ((((s.at t).setInput n { s.warden.input n with disc := true, disagr := none, bothOff := false }).inc
      Reg.wdnDisc).inputLook n t (s.warden.input n).on).finish := by
  change execDiscrepancy n t s = _
  unfold execDiscrepancy
  dsimp only
  rw [hdis]
  dsimp only
  rw [if_pos ⟨hup, hn, hlate⟩]
  rfl

/-! ### Warden commands -/

theorem State.wdnCommand_eq (v t : Nat) : s.wdnCommand v t =
    if v % 16 = 1 then (s.wr Reg.wdnCmd (BitVec.ofNat 32 (v % 256))).wdnRestart t
    else if v % 16 = 2 then (s.wr Reg.wdnCmd (BitVec.ofNat 32 (v % 256))).estopReset (v / 16 % 16)
    else s.wr Reg.wdnCmd (BitVec.ofNat 32 (v % 256)) := rfl

/-- ESTOP_RESET of an input: its latch ends where both wires are energised. -/
theorem State.estopReset_lat {n : Nat} (hn : n < 4) (hlen : s.warden.estopLat.length = 4) :
    (s.estopReset n).warden.estopLat.getD n true = (s.warden.estopLat.getD n true && !(s.warden.estop.getD n {}).on)
      ∧ ∀ k, k ≠ n → (s.estopReset n).warden.estopLat.getD k true = s.warden.estopLat.getD k true := by
  unfold State.estopReset
  by_cases hon : (s.warden.estop.getD n {}).on = true
  · rw [if_pos (by simp only [hn, hon, decide_true, Bool.and_self])]
    refine ⟨?_, fun k hk => getD_listSet_of_ne _ _ _ hk⟩
    rw [hon, Bool.not_true, Bool.and_false]
    exact getD_listSet_same _ _ (by omega)
  · rw [if_neg (by rw [Bool.and_eq_true]; exact fun h => hon h.2)]
    refine ⟨?_, fun _ _ => rfl⟩
    rw [Bool.not_eq_true] at hon
    rw [hon, Bool.not_false, Bool.and_true]

theorem State.estopReset_keeps (n : Nat) : (s.estopReset n).keeps s [.warden] := State.keeps_ite (s.setWarden_keeps _) (s.keeps_refl _)

/-- Settles O44. -/
theorem safetyInputs : Obligations.SafetyInputs := by
  refine ⟨fun i t s hcalm hup hi hne hestop hossd hlat hmechs => ?_, fun n t t0 s hcalm hup hn hdis hlate hestop hossd => ?_,
    fun fn n t s hcalm hreach hn hlen => ?_, fun fn t s hcalm hreach => ?_⟩
  · let x := ((s.warden.input i.input).wire i.b i.level (t - 1000 * (s.at t).sglob.filterUs)).look (i.input == 12) t
    let v := (s.at t).setInput i.input x
    let u := v.inputLook i.input t (s.warden.input i.input).on
    have hkeeps : u.keeps (s.at t) trigPieces := State.keeps_trans (v.inputLook_keeps _ _ _) ((s.at t).setInput_keeps _ _).widen
    have hfall : u.dev.fall = none := hkeeps.calm (s.at_calm t hcalm)
    have hinput (k : Nat) : u.finish.warden.input k = (s.warden.setInput i.input x).input k := by
      rw [Warden.input_of_quiet (State.finish_quiet hfall), State.inputLook_input]
      change ((s.at t).warden.setInput i.input x).input k = _
      rw [State.at_warden]
    refine ⟨u.finish, exec_inputFilter t hup hi hne, ?_, fun n hn hni => ?_, fun h4 hon => ?_, State.finish_keeps_of hfall hkeeps⟩
    · rw [hinput, s.warden.setInput_input_same x hi hestop hossd]
      exact DualIn.look_wire_fil _ _ _ _ _ _
    · rw [hinput, s.warden.setInput_input_of_ne x hi hn hni]
    · obtain ⟨hlat', hmechs'⟩ := (s.at t).warden.setInput_rest i.input x
      rw [State.at_warden] at hlat' hmechs'
      have hoff : (v.warden.estop.getD i.input {}).on = false := by
        have := s.warden.setInput_input_same x hi hestop hossd
        rw [Warden.input, if_pos h4] at this
        change (((s.at t).warden.setInput i.input x).estop.getD i.input {}).on = false
        rw [State.at_warden, this]
        exact DualIn.look_wire_off _ _ _ _ _ _ hon hne
      have hlook : u = v.estopLook i.input t true := by
        simp only [u, State.inputLook, if_pos h4, hon]
      obtain ⟨hlatched, hheld⟩ := v.estopLook_latched t hoff
        (by change _ < ((s.at t).warden.setInput i.input x).estopLat.length; rw [State.at_warden, hlat']; omega)
        (by change ((s.at t).warden.setInput i.input x).mechs.length = 16; rw [State.at_warden, hmechs', hmechs])
      rw [← hlook] at hlatched hheld
      refine ⟨?_, fun m hm hbit => ?_⟩
      · rw [← hlatched]
        exact congrArg (fun l : List Bool => l.getD i.input false) (State.finish_estopLat hfall)
      · rw [State.finish_held hfall]
        refine hheld m ?_ ?_
        · change m ∈ (s.at t).mechNums
          rwa [State.at_mechNums]
        · change bit ((s.at t).sglob.estop.getD i.input (0, 0)).1 m = true
          rwa [State.at_sglob]
  · let x : DualIn := { s.warden.input n with disc := true, disagr := none, bothOff := false }
    let v := ((s.at t).setInput n x).inc Reg.wdnDisc
    let u := v.inputLook n t (s.warden.input n).on
    have hkeeps : u.keeps (s.at t) trigPieces :=
      State.keeps_trans (v.inputLook_keeps _ _ _) ((State.inc_keeps _ _ _).after ((s.at t).setInput_keeps _ _).widen)
    have hfall : u.dev.fall = none := hkeeps.calm (s.at_calm t hcalm)
    have hinput : u.finish.warden.input n = x := by
      rw [Warden.input_of_quiet (State.finish_quiet hfall), State.inputLook_input, State.inc_warden]
      change ((s.at t).warden.setInput n x).input n = _
      rw [State.at_warden, s.warden.setInput_input_same x hn hestop hossd]
    refine ⟨u.finish, exec_discrepancy t hup hn hdis hlate, by rw [hinput], ?_, ?_, State.finish_keeps_of hfall hkeeps⟩
    · rw [hinput]
      simp [x, DualIn.on]
    · rw [State.finish_rd _ hfall, v.inputLook_spares _ _ _ _ (by decide)]
      exact State.rd_inc_same _ _ _
  · let v := (s.at t).wr Reg.wdnCmd (BitVec.ofNat 32 ((n % 16 * 16 + 2) % 256))
    let u := (v.estopReset n).writeEnd
    have hkeeps : u.keeps (s.at t) [.warden, .regs, .compl] :=
      (State.setCompl_keeps _ _).after <| (v.estopReset_keeps n).after ((s.at t).wr_keeps _ _).widen
    have hfall : u.dev.fall = none := hkeeps.calm (s.at_calm t hcalm)
    obtain ⟨hsame, hother⟩ := v.estopReset_lat hn (by simpa [v] using hlen)
    have hlat : u.finish.warden.estopLat = (v.estopReset n).warden.estopLat :=
      State.finish_estopLat hfall
    have hv : v.warden = s.warden := s.at_warden t
    have hrd (o : Nat) : u.finish.rd o = v.rd o := (State.finish_rd _ hfall o).trans ((v.estopReset_keeps n .regs (by decide)) o (by simp))
    refine ⟨u.finish, ?_, ?_, fun k hk => ?_, ?_, fun o ho => ?_, State.finish_keeps_of hfall hkeeps⟩
    · have hcmd : (s.at t).wdnCommand (n % 16 * 16 + 2) t = v.estopReset n := by
        have h2 : (n % 16 * 16 + 2) % 16 = 2 := by omega
        have hn16 : (n % 16 * 16 + 2) / 16 % 16 = n := by omega
        rw [State.wdnCommand_eq, h2, hn16, if_neg (by decide), if_pos rfl]
      change (s.onWrite { fn, off := Reg.wdnCmd } t fun s => s.wdnCommand (n % 16 * 16 + 2) t).done = _
      rw [State.onWrite_of_takesWrite hreach, hcmd]
      rfl
    · rw [hlat, hsame, hv]
    · rw [hlat, hother k hk, hv]
    · rw [hrd]
      have hval : (n % 16 * 16 + 2) % 256 = n * 16 + 2 := by omega
      simp only [v, hval]
      exact State.rd_wr_same _ _ _
    · rw [hrd]
      exact State.rd_wr_ne _ _ _ _ (by simpa using ho)
  · let v := (s.at t).wr Reg.wdnCmd (BitVec.ofNat 32 (1 % 256))
    have hexec : exec (.restart fn t) s = .next (v.wdnRestart t).writeEnd.finish := by
      change (s.onWrite { fn, off := Reg.wdnCmd } t fun s => s.wdnCommand 1 t).done = _
      rw [State.onWrite_of_takesWrite hreach, State.wdnCommand_eq, if_pos (by decide)]
      rfl
    have hvw : v.warden = s.warden := s.at_warden t
    refine ⟨_, hexec, ?_⟩
    split
    next hheld =>
      let d : State := { v with dev := { v.dev with hold := v.dev.lcNext.isSome, restart := true, warmAt := t } }
      have hrestart : v.wdnRestart t = d.setWState .fallback := by
        exact if_pos (by rw [hvw]; exact hheld)
      have hdw : d.warden = s.warden := hvw
      have hset : d.setWState .fallback = ({ d with warden := { d.warden with state := .fallback } } : State).raise isrcWDN_STATE := by
        unfold State.setWState
        rw [hdw, hheld]
        rfl
      have hkeeps : (d.setWState .fallback).writeEnd.keeps (s.at t) [.warden, .dev, .regs, .ints, .compl] :=
        (State.setCompl_keeps _ _).after <| (State.setWState_keeps _ _).after <| (State.setDev_keeps _ _).after ((s.at t).wr_keeps _ _).widen
      have hdev : (d.setWState .fallback).writeEnd.dev = { s.dev with hold := s.dev.lcNext.isSome, restart := true, warmAt := t } := by
        have h : (d.setWState .fallback).writeEnd.dev = d.dev := (State.setWState_keeps d .fallback) .dev (by decide)
        have hvd : v.dev = s.dev := s.at_dev t
        rw [h, ← hvd]
      have hfall : (d.setWState .fallback).writeEnd.dev.fall = none := by rw [hdev]; exact hcalm
      rw [hrestart]
      refine ⟨?_, ?_, ?_, State.finish_keeps_of hfall hkeeps⟩
      · rw [State.finish_wstate hfall, State.writeEnd_warden, hset, State.raise_warden]
      · rw [State.finish_dev _ hfall, hdev]
      · rw [State.finish_dev _ hfall, hdev]
    next hheld =>
      have hrestart : v.wdnRestart t = v := if_neg (by rw [hvw]; exact hheld)
      have hkeeps : v.writeEnd.keeps (s.at t) [.regs, .compl] := (State.setCompl_keeps _ _).after ((s.at t).wr_keeps _ _).widen
      have hfall : v.writeEnd.dev.fall = none := hkeeps.calm (s.at_calm t hcalm)
      rw [hrestart]
      refine ⟨fun o ho => ?_, State.finish_keeps_of hfall hkeeps⟩
      rw [State.finish_rd _ hfall]
      change v.rd o = (s.at t).rd o
      exact State.rd_wr_ne (s.at t) Reg.wdnCmd _ o (by simpa using ho)

end Sys2Proof.Machine
end

section
/-! SUPPORT. Test pulses, output faults and connections that fail (14_safety_concept.md R339, R340, R343). -/

namespace Sys2Proof.Machine

set_option Elab.async false

variable (s : State)

/-! ### Test pulses -/

theorem OutPair.pulse_keeps (x : OutPair) (b on : Bool) :
    (x.pulse b on).drvA = x.drvA ∧ (x.pulse b on).drvB = x.drvB ∧ (x.pulse b on).fault = x.fault := by
  unfold OutPair.pulse
  cases b <;> cases on <;> simp only [Bool.false_eq_true, if_false, if_true] <;> split <;> exact ⟨rfl, rfl, rfl⟩

theorem OutPair.pulse_A_on {x : OutPair} (h : x.drvA = true) :
    (x.pulse false true).pulseA = true ∧ (x.pulse false true).fbA = false ∧ (x.pulse false true).fbB = x.fbB := by
  simp [OutPair.pulse, h]

theorem OutPair.pulse_A_off (x : OutPair) : (x.pulse false false).pulseA = false ∧ (x.pulse false false).fbB = x.fbB := by
  unfold OutPair.pulse
  simp only [Bool.false_eq_true, if_false]
  split
  · exact ⟨rfl, rfl⟩
  next h => exact ⟨by simpa using h, rfl⟩

/-- Every pair's wire of a channel pulsed, or its pulse ended. -/
def State.pulsed (s : State) (b on : Bool) : State := { s with warden := { s.warden with outs := s.warden.outs.map fun (x : OutPair) => x.pulse b on } }

theorem State.pulsed_out (b on : Bool) {n : Nat} (hn : n < s.warden.outs.length) : (s.pulsed b on).out n = (s.out n).pulse b on := by
  change (s.warden.outs.map fun x => x.pulse b on).getD n {} = (s.warden.outs.getD n {}).pulse b on
  rw [List.getD_eq_getElem?_getD, List.getElem?_map, List.getD_eq_getElem?_getD, List.getElem?_eq_getElem hn]
  rfl

theorem State.pulsed_keeps (b on : Bool) : (s.pulsed b on).keeps s [] := by
  have hfault : (s.warden.outs.map fun x => x.pulse b on).map (fun o => ({ fault := o.fault } : OutPair)) =
      s.warden.outs.map fun o => ({ fault := o.fault } : OutPair) := by
    rw [List.map_map]
    exact List.map_congr_left fun x _ => by simp only [Function.comp, (x.pulse_keeps b on).2.2]
  have hstill : (s.pulsed b on).warden.still = s.warden.still := congrArg (fun l => { s.warden.still with outs := l }) hfault
  refine (State.keeps_iff _ _ _).mpr ?_
  simp [hstill]
  simp [State.pulsed]

theorem State.at_pairOff (t n : Nat) : (s.at t).pairOff n = s.pairOff n := by
  have hw := s.at_warden t
  refine State.pairOff_congr n (congrArg Dev.up (s.at_dev t)) (s.at_loader t) ?_ ?_ ?_ ?_ ?_ ?_ <;> rw [hw]

theorem State.pulsed_pairOff (b on : Bool) {n : Nat} (hn : n < s.warden.outs.length) : (s.pulsed b on).pairOff n = s.pairOff n := by
  refine State.pairOff_congr n rfl rfl rfl rfl rfl rfl rfl ?_
  rw [← State.out, s.pulsed_out b on hn]
  exact ((s.out n).pulse_keeps b on).2.2

theorem exec_testPulse_A {s : State} {t : Nat} (hup : s.dev.up = true) (htp : s.sglob.tpUs ≠ 0)
    (ht : t % 1000000000 = 0 ∨ t % 1000000000 = 1000 * s.sglob.tpUs) :
    exec (.testPulse false t) s = .next ((s.at t).pulsed false (decide (t % 1000000000 = 0))).finish := by
  change execTestPulse false t s = _
  unfold execTestPulse
  dsimp only
  rw [if_pos ⟨hup, by omega, by simpa using ht⟩]
  rfl

/-! ### The warden's other fields -/

theorem State.trigger_trigCause (cause stamp : Nat) (ms : List Nat) (cat : Option Nat) : (s.trigger cause stamp ms cat).warden.trigCause = cause := by
  have hq := s.trigger_quiet cause stamp ms cat
  generalize (s.trigger cause stamp ms cat).warden = w at hq
  exact (congrArg Warden.trigCause hq : w.quiet.trigCause = (s.triggerSet cause stamp ms).warden.quiet.trigCause)

theorem State.trigger_trigTime (cause stamp : Nat) (ms : List Nat) (cat : Option Nat) :
    (s.trigger cause stamp ms cat).warden.trigTime = tick stamp := by
  have hq := s.trigger_quiet cause stamp ms cat
  generalize (s.trigger cause stamp ms cat).warden = w at hq
  exact (congrArg Warden.trigTime hq : w.quiet.trigTime = (s.triggerSet cause stamp ms).warden.quiet.trigTime)

theorem State.trigger_soe (cause stamp : Nat) (ms : List Nat) (cat : Option Nat) : (s.trigger cause stamp ms cat).warden.soe = s.warden.soe := by
  have hq := s.trigger_quiet cause stamp ms cat
  generalize (s.trigger cause stamp ms cat).warden = w at hq
  exact (congrArg Warden.soe hq : w.quiet.soe = (s.triggerSet cause stamp ms).warden.quiet.soe)

variable {s} in
theorem State.finish_trigCause (h : s.dev.fall = none) : s.finish.warden.trigCause = s.warden.trigCause := by
  have hq := State.finish_quiet h
  generalize s.finish.warden = w at hq
  generalize s.warden = v at hq
  exact (congrArg Warden.trigCause hq : w.quiet.trigCause = v.quiet.trigCause)

variable {s} in
theorem State.finish_soe (h : s.dev.fall = none) : s.finish.warden.soe = s.warden.soe := by
  have hq := State.finish_quiet h
  generalize s.finish.warden = w at hq
  generalize s.warden = v at hq
  exact (congrArg Warden.soe hq : w.quiet.soe = v.quiet.soe)

theorem State.namers_congr {u s : State} (h : u.loader = s.loader) (n : Nat) : u.namers n = s.namers n := by
  simp only [State.namers, State.mechNums, State.mech?, State.msafe, State.cfg, h]

/-! ### Output faults -/

/-- The fault of a wire of pair n latched, with the level read back (R340). -/
def State.latchOut (s : State) (n : Nat) (b level : Bool) : State :=
  let y := s.warden.outs.getD n {}
  let y := if b then { y with fault := true, fbB := level } else { y with fault := true, fbA := level }
  { s with warden := { s.warden with outs := listSet s.warden.outs n y } }

theorem State.latchOut_keeps (n : Nat) (b level : Bool) : (s.latchOut n b level).keeps s [.warden] := s.setWarden_keeps _

theorem State.latchOut_out {n : Nat} (b level : Bool) (hn : n < s.warden.outs.length) : (s.latchOut n b level).out n =
    if b then { s.out n with fault := true, fbB := level } else { s.out n with fault := true, fbA := level } := getD_listSet_same _ _ hn

theorem exec_outputFault {s : State} {n : Nat} {b level : Bool} (t : Nat) (hup : s.dev.up = true) (hn : n < 8)
    (hfault : (s.warden.outs.getD n {}).fault = false)
    (hne : (if b then (s.warden.outs.getD n {}).drvB else (s.warden.outs.getD n {}).drvA) ≠ level) :
    exec (.outputFault n b level t) s =
      .next ((((s.at t).deEnergise n).latchOut n b level).trigger 11 t ((((s.at t).deEnergise n).latchOut n b level).namers n) (some 0)).finish := by
  change execOutputFault n b level t s = _
  unfold execOutputFault
  dsimp only
  rw [if_pos ⟨hup, hn, by rw [hfault]; rfl, hne⟩]
  rfl

/-- A pair whose fault is latched must be off. -/
theorem State.pairOff_of_fault {n : Nat} (h : (s.out n).fault = true) : s.pairOff n = true := by
  simp only [State.out] at h
  simp only [State.pairOff, h, Bool.or_true]

/-- Settles O45. -/
theorem stopOutputs : Obligations.StopOutputs := by
  refine ⟨fun t n s hcalm hup htp hn hoff hA hB ht => ?_, fun n t b level s hcalm hup hn hlen hmechs hfault hne => ?_,
    fun c t wdog s r hcalm hrec hup hstate hexp hmechs => ?_⟩
  · let on := decide (t % 1000000000 = 0)
    let u := (s.at t).pulsed false on
    have hlen : n < (s.at t).warden.outs.length := by
      rw [State.at_warden]
      by_contra h
      rw [List.getD_eq_default _ _ (by omega)] at hA
      exact absurd hA (by decide)
    have hat : (s.at t).out n = s.warden.outs.getD n {} := by rw [State.out, State.at_warden]
    have hout : u.out n = (s.warden.outs.getD n {}).pulse false on := by rw [← hat]; exact (s.at t).pulsed_out false on hlen
    obtain ⟨hdA, hdB, hflt⟩ := (s.warden.outs.getD n {}).pulse_keeps false on
    have hkeeps : u.keeps (s.at t) [] := (s.at t).pulsed_keeps false on
    have hfall : u.dev.fall = none := hkeeps.calm (s.at_calm t hcalm)
    have hpair : u.pairOff n = s.pairOff n := ((s.at t).pulsed_pairOff false on hlen).trans (s.at_pairOff t n)
    have hfin : u.finish.warden.outs.getD n {} = (s.warden.outs.getD n {}).pulse false on :=
      (State.finish_out hfall (.inr ⟨by rw [hpair, hoff], by rw [hout, hdA, hA], by rw [hout, hdB, hB]⟩)).trans hout
    refine ⟨u.finish, exec_testPulse_A hup htp ht, by rw [hfin, hdA, hA], by rw [hfin, hdB, hB], ?_, ?_, State.finish_keeps_of hfall hkeeps⟩
    · rw [hfin]
      by_cases h0 : t % 1000000000 = 0
      · have hon : on = true := decide_eq_true h0
        rw [if_pos h0, hon]
        obtain ⟨hp, hfb, -⟩ := OutPair.pulse_A_on hA
        exact ⟨hp, hfb⟩
      · have hon : on = false := decide_eq_false h0
        rw [if_neg h0, hon]
        exact (OutPair.pulse_A_off _).1
    · rw [hfin]
      cases on
      · exact (OutPair.pulse_A_off _).2
      · exact (OutPair.pulse_A_on hA).2.2
  · let d := (s.at t).deEnergise n
    let v := d.latchOut n b level
    let u := v.trigger 11 t (v.namers n) (some 0)
    have hv : v.keeps (s.at t) [.warden] := (d.latchOut_keeps n b level).after ((s.at t).deEnergise_keeps n).widen
    have hkeeps : u.keeps (s.at t) trigPieces := State.keeps_trans (v.trigger_trigPieces _ _ _ _) hv.widen
    have hfall : u.dev.fall = none := hkeeps.calm (s.at_calm t hcalm)
    have hdn : n < d.warden.outs.length := by
      change n < (listSet (s.at t).warden.outs n _).length
      rw [length_listSet, State.at_warden]
      omega
    have hvout := d.latchOut_out b level hdn
    have hdout : d.out n = (s.warden.outs.getD n {}).drive false := by
      have h : d.out n = ((s.at t).warden.outs.getD n {}).drive false := getD_listSet_same _ _ (by rw [State.at_warden]; omega)
      rw [h, State.at_warden]
    have huout : u.out n = v.out n := by
      rcases v.trigger_outsFall 11 t (v.namers n) (some 0) n with h | h
      · exact h
      · rw [h, hvout, hdout]
        cases b <;> rfl
    have hfin : u.finish.out n = v.out n := by
      refine (State.finish_out hfall (.inl ⟨State.pairOff_of_fault _ ?_, ?_⟩)).trans huout
      · rw [huout, hvout]
        cases b <;> rfl
      · rw [State.pairDark, ← State.out, huout, hvout, hdout]
        cases b <;> rfl
    have hloader : v.loader = s.loader := (hv .loader (by decide)).trans (s.at_loader t)
    have hmlen : v.warden.mechs.length = 16 := by
      change (List.map _ (s.at t).warden.mechs).length = 16
      rw [List.length_map, State.at_warden, hmechs]
    refine ⟨u.finish, exec_outputFault t hup hn hfault hne, ?_, ?_, ?_, ?_, fun m hm => ?_, ?_, State.finish_keeps_of hfall hkeeps⟩
    · rw [← State.out, hfin, hvout]
      cases b <;> rfl
    · rw [← State.out, hfin, hvout, hdout]
      cases b <;> rfl
    · rw [← State.out, hfin, hvout, hdout]
      cases b <;> rfl
    · rw [← State.out, hfin, hvout, hdout]
      cases b <;> rfl
    · rw [State.finish_held hfall]
      rw [← State.namers_congr hloader] at hm
      obtain ⟨hm16, hdef⟩ := v.mem_mechNums (List.mem_of_mem_filter hm)
      exact v.trigger_held hm hdef (by omega)
    · rw [State.finish_trigCause hfall]
      exact v.trigger_trigCause _ _ _ _
  · let v : State := { s.at t with warden := { (s.at t).warden with soe := listSet (s.at t).warden.soe c { rxAt := t } } }
    let w := v.inc Reg.wdnSoeErr
    let u := w.trigger 8 t [r.mech] (some 0)
    have hw : w.keeps (s.at t) [.warden, .regs] := (v.inc_keeps _ _).after ((s.at t).setWarden_keeps _).widen
    have hkeeps : u.keeps (s.at t) trigPieces := State.keeps_trans (w.trigger_trigPieces _ _ _ _) hw.widen
    have hfall : u.dev.fall = none := hkeeps.calm (s.at_calm t hcalm)
    have hww : w.warden = v.warden := v.inc_warden _ _
    have hc : c < s.warden.soe.length := by
      by_contra h
      rw [List.getD_eq_default _ _ (by omega)] at hstate
      exact hstate rfl
    have hloader : w.loader = s.loader := (hw .loader (by decide)).trans (s.at_loader t)
    refine ⟨u.finish, ?_, ?_, ?_, fun hm => ?_, ?_, State.finish_keeps_of hfall hkeeps⟩
    · change execSoe c wdog t s = _
      unfold execSoe
      rw [hrec]
      dsimp only
      rw [if_pos ⟨hup, hstate, hexp.imp_left (by rintro rfl; rfl)⟩]
      rfl
    · rw [State.finish_soe hfall, State.trigger_soe, hww]
      change (listSet (s.at t).warden.soe c _).getD c {} = _
      rw [State.at_warden]
      exact getD_listSet_same _ _ hc
    · rw [State.finish_rd _ hfall, w.trigger_spares _ _ _ _ _ (by decide)]
      exact State.rd_inc_same _ _ _
    · rw [State.finish_held hfall]
      obtain ⟨hm16, hdef⟩ := s.mem_mechNums hm
      refine w.trigger_held (by simp) (by rwa [State.mech?_congr hloader]) ?_
      rw [hww]
      change _ < (s.at t).warden.mechs.length
      rw [State.at_warden]
      omega
    · rw [State.finish_trigCause hfall]
      exact w.trigger_trigCause _ _ _ _

end Sys2Proof.Machine
end

section
/-! SUPPORT. Monitoring periods and channel failures (14_safety_concept.md R316, R326, R337). -/

namespace Sys2Proof.Machine

set_option Elab.async false

variable (s : State)

/-! ### The warden, but for mechanisms, outputs and the last trigger -/

/-- The warden without what triggers change. -/
def Warden.base (w : Warden) : Warden := { w with mechs := [], outs := [], trigCause := 0, trigMechs := 0, trigTime := 0 }

theorem Warden.base_of_quiet {w v : Warden} (h : w.quiet = v.quiet) : w.base = v.base :=
  (congrArg (fun w : Warden => ({ w with trigCause := 0, trigMechs := 0, trigTime := 0 } : Warden)) h :
    ({ w.quiet with trigCause := 0, trigMechs := 0, trigTime := 0 } : Warden) = { v.quiet with trigCause := 0, trigMechs := 0, trigTime := 0 })

theorem Warden.fields_of_base {w v : Warden} (h : w.base = v.base) :
    w.state = v.state ∧ w.chA = v.chA ∧ w.chB = v.chB ∧ w.ossdRead = v.ossdRead ∧ w.disagree = v.disagree ∧ w.wds = v.wds :=
  ⟨(congrArg Warden.state h : w.base.state = v.base.state), (congrArg Warden.chA h : w.base.chA = v.base.chA),
    (congrArg Warden.chB h : w.base.chB = v.base.chB), (congrArg Warden.ossdRead h : w.base.ossdRead = v.base.ossdRead),
    (congrArg Warden.disagree h : w.base.disagree = v.base.disagree), (congrArg Warden.wds h : w.base.wds = v.base.wds)⟩

theorem State.trigger_base (cause stamp : Nat) (ms : List Nat) (cat : Option Nat) :
    (s.trigger cause stamp ms cat).warden.base = s.warden.base :=
  (Warden.base_of_quiet (s.trigger_quiet cause stamp ms cat)).trans rfl

variable {s} in
theorem State.finish_base (h : s.dev.fall = none) : s.finish.warden.base = s.warden.base := Warden.base_of_quiet (State.finish_quiet h)

/-- A mechanism that a trigger does not name stands. -/
theorem State.issue_wm_of_ne {m k : Nat} (cause cat stamp : Nat) (h : k ≠ m) : ((s.issue m cause cat stamp).wm k).bare = (s.wm k).bare := by
  obtain ⟨x, -, -, hkeeps⟩ := s.issue_after m cause cat stamp
  rw [hkeeps.wm, s.setWm_wm_of_ne x h]

theorem State.trigger_wm_of_not_mem {cause stamp : Nat} {ms : List Nat} {cat : Option Nat} {k : Nat} (h : k ∉ ms) :
    ((s.trigger cause stamp ms cat).wm k).bare = (s.wm k).bare := by
  have hfold (l : List Nat) (v : State) (hl : k ∉ l) :
      ((l.foldl (fun s m => s.issue m cause (cat.getD (s.msafe m).cat) (tick stamp)) v).wm k).bare = (v.wm k).bare := by
    induction l generalizing v with
    | nil => rfl
    | cons m r ih =>
      obtain ⟨hne, hr⟩ := not_or.mp (mt List.mem_cons.mpr hl)
      rw [List.foldl_cons, ih _ hr, State.issue_wm_of_ne _ _ _ _ hne]
  rw [State.trigger_eq, hfold _ _ (fun hk => h (List.mem_of_mem_filter hk)), State.triggered_wm]

variable {s} in
theorem State.finish_trigTime (h : s.dev.fall = none) : s.finish.warden.trigTime = s.warden.trigTime := by
  have hq := State.finish_quiet h
  generalize s.finish.warden = w at hq
  generalize s.warden = v at hq
  exact (congrArg Warden.trigTime hq : w.quiet.trigTime = v.quiet.trigTime)

/-! ### Channel failures -/

theorem State.setWState_mechs (x : WState) : (s.setWState x).warden.mechs = s.warden.mechs := by
  unfold State.setWState
  split
  · rfl
  · rfl
  · split
    · rfl
    · rw [State.raise_warden]

theorem State.setWState_outs (x : WState) : (s.setWState x).warden.outs = s.warden.outs := by
  unfold State.setWState
  split
  · rfl
  · rfl
  · split
    · rfl
    · rw [State.raise_warden]

/-- The warden's state after a change; LOCKED and CHANNEL_FAIL stand (R302, R337). -/
def WState.changed (w x : WState) : WState := if w = .locked ∨ w = .channelFail then w else x

theorem State.setWState_base (x : WState) : (s.setWState x).warden.base = { s.warden.base with state := s.warden.state.changed x } := by
  unfold State.setWState
  split
  next h => rw [WState.changed, if_pos (.inl h)]; rfl
  next h => rw [WState.changed, if_pos (.inr h)]; rfl
  next y hl hc =>
    rw [WState.changed, if_neg (not_or.mpr ⟨hl, hc⟩)]
    split
    next h => rw [← h]; rfl
    next => rw [State.raise_warden]; rfl

/-- The channels that remain. -/
def State.dropChannels (s : State) (a b : Bool) : State :=
  { s with warden := { s.warden with chA := s.warden.chA && !a, chB := s.warden.chB && !b } }

theorem State.channelFail_eq (a b : Bool) (t : Nat) : s.channelFail a b t =
    if !(s.warden.chA && s.warden.chB) then s.dropChannels a b
    else ((s.dropChannels a b).setWState .channelFail).trigger 9 t (s.dropChannels a b).mechNums (some 0) := rfl

theorem State.mechNums_congr {u s : State} (h : u.loader = s.loader) : u.mechNums = s.mechNums := by
  simp only [State.mechNums, State.mech?_congr h]

theorem State.channelFail_keeps (a b : Bool) (t : Nat) : (s.channelFail a b t).keeps s trigPieces := by
  rw [State.channelFail_eq]
  have hdrop : (s.dropChannels a b).keeps s trigPieces := (s.setWarden_keeps _).widen
  exact State.keeps_ite hdrop (State.keeps_trans (State.trigger_trigPieces _ _ _ _ _) ((State.setWState_keeps _ _).after hdrop))

theorem State.channelFail_mechs_length (a b : Bool) (t : Nat) : (s.channelFail a b t).warden.mechs.length = s.warden.mechs.length := by
  rw [State.channelFail_eq]
  split
  · rfl
  · rw [State.trigger_mechs_length, State.setWState_mechs]
    rfl

theorem State.channelFail_again {a b : Bool} (t : Nat) (h : (s.warden.chA && s.warden.chB) = false) :
    s.channelFail a b t = s.dropChannels a b := by
  rw [State.channelFail_eq, h]
  rfl

/-- The first channel failure holds every mechanism (R337). -/
theorem State.channelFail_held {a b : Bool} {t m : Nat} (hfirst : (s.warden.chA && s.warden.chB) = true) (hm : m ∈ s.mechNums)
    (hlen : s.warden.mechs.length = 16) : ((s.channelFail a b t).wm m).held = true := by
  rw [State.channelFail_eq, hfirst, if_neg (by decide)]
  have hloader : ((s.dropChannels a b).setWState .channelFail).loader = s.loader := (State.setWState_keeps _ _) .loader (by decide)
  obtain ⟨hm16, hdef⟩ := State.mem_mechNums _ hm
  refine State.trigger_held _ ((State.mechNums_congr (u := s.dropChannels a b) rfl).symm ▸ hm) (by rwa [State.mech?_congr hloader]) ?_
  rw [State.setWState_mechs]
  change m < s.warden.mechs.length
  omega

/-- A channel failure leaves what the warden read, and the failed channels are out. -/
theorem State.channelFail_fields (a b : Bool) (t : Nat) :
    (s.channelFail a b t).warden.chA = (s.warden.chA && !a) ∧ (s.channelFail a b t).warden.chB = (s.warden.chB && !b)
      ∧ (s.channelFail a b t).warden.ossdRead = s.warden.ossdRead ∧ (s.channelFail a b t).warden.disagree = s.warden.disagree := by
  rw [State.channelFail_eq]
  split
  · exact ⟨rfl, rfl, rfl, rfl⟩
  · have hset := (s.dropChannels a b).setWState_base .channelFail
    have htrig := State.trigger_base ((s.dropChannels a b).setWState .channelFail) 9 t (s.dropChannels a b).mechNums (some 0)
    obtain ⟨-, hA, hB, hread, hdis, -⟩ := Warden.fields_of_base htrig
    rw [hA, hB, hread, hdis]
    generalize ((s.dropChannels a b).setWState .channelFail).warden = w at hset
    exact ⟨(congrArg Warden.chA hset : w.base.chA = _), (congrArg Warden.chB hset : w.base.chB = _),
      (congrArg Warden.ossdRead hset : w.base.ossdRead = _), (congrArg Warden.disagree hset : w.base.disagree = _)⟩

/-- The first channel failure's state, and its trigger (R337). -/
theorem State.channelFail_first {a b : Bool} (t : Nat) (hfirst : (s.warden.chA && s.warden.chB) = true) :
    (s.channelFail a b t).warden.state = (if s.warden.state = .locked then .locked else .channelFail)
      ∧ (s.channelFail a b t).warden.trigCause = 9 ∧ (s.channelFail a b t).warden.trigTime = tick t := by
  rw [State.channelFail_eq, hfirst, if_neg (by decide)]
  refine ⟨?_, State.trigger_trigCause _ _ _ _ _, State.trigger_trigTime _ _ _ _ _⟩
  have hset := (s.dropChannels a b).setWState_base .channelFail
  have htrig := State.trigger_base ((s.dropChannels a b).setWState .channelFail) 9 t (s.dropChannels a b).mechNums (some 0)
  obtain ⟨hst, -, -, -, -, -⟩ := Warden.fields_of_base htrig
  rw [hst]
  have hval : ((s.dropChannels a b).setWState .channelFail).warden.state = s.warden.state.changed .channelFail := by
    generalize ((s.dropChannels a b).setWState .channelFail).warden = w at hset
    exact (congrArg Warden.state hset : w.base.state = _)
  rw [hval]
  cases s.warden.state <;> rfl

/-! ### The separation monitor -/

theorem State.ssmAgainst_congr {u s : State} (hloader : u.loader = s.loader) (hread : u.warden.ossdRead = s.warden.ossdRead) (m : Nat) (r : CommitRec) :
    u.ssmAgainst m r = s.ssmAgainst m r := by
  have htHalf : u.tHalf m = s.tHalf m := by rw [State.tHalf, State.mech?_congr hloader, State.tHalf]
  have hocc (z : Zone) : u.occupied z = s.occupied z := by rw [State.occupied, hread, State.occupied]
  have hcfg : u.cfg = s.cfg := by rw [State.cfg, hloader, State.cfg]
  have hmsafe : u.msafe m = s.msafe m := by rw [State.msafe, hcfg, State.msafe]
  unfold State.ssmAgainst
  rw [hcfg]
  cases s.cfg.safety with
  | none => rfl
  | some x => simp only [hmsafe, hocc, htHalf]

theorem State.ssmStop_keeps (m t : Nat) : (s.ssmStop m t).keeps s trigPieces := by
  unfold State.ssmStop
  split
  · exact State.keeps_ite (State.keeps_trans (State.trigger_trigPieces _ _ _ _ _) (s.inc_keeps _ _).widen) (s.keeps_refl _)
  · exact s.keeps_refl _

theorem State.ssmStop_base (m t : Nat) : (s.ssmStop m t).warden.base = s.warden.base := by
  unfold State.ssmStop
  split
  · split
    · rw [State.trigger_base, State.inc_warden]
    · rfl
  · rfl

theorem State.ssmStop_mechs_length (m t : Nat) : (s.ssmStop m t).warden.mechs.length = s.warden.mechs.length := by
  unfold State.ssmStop
  split
  · split
    · rw [State.trigger_mechs_length, State.inc_warden]
    · rfl
  · rfl

theorem State.inForce_of_bare {u s : State} {m : Nat} (h : (u.wm m).bare = (s.wm m).bare) (t : Nat) : u.inForce m t = s.inForce m t := by
  have hnext : (u.wm m).next = (s.wm m).next := (congrArg WMech.next h : (u.wm m).bare.next = (s.wm m).bare.next)
  have hcur : (u.wm m).cur = (s.wm m).cur := (congrArg WMech.cur h : (u.wm m).bare.cur = (s.wm m).bare.cur)
  simp only [State.inForce, hnext, hcur]

/-- Mechanism m is held, or its record in force breaks its separation. -/
def State.heldOrAgainst (s : State) (m t : Nat) (r : CommitRec) : Prop :=
  (s.wm m).held = true ∨ s.inForce m t = some r ∧ s.ssmAgainst m r = true

theorem State.ssmStop_held_mono {m : Nat} (k t : Nat) (h : (s.wm m).held = true) (hlen : m < s.warden.mechs.length) :
    ((s.ssmStop k t).wm m).held = true := by
  unfold State.ssmStop
  split
  · split
    · exact State.trigger_held_mono _ (by rw [State.wm, State.inc_warden]; exact h) (by rw [State.inc_warden]; exact hlen)
    · exact h
  · exact h

variable {s}

/-- Judging a mechanism that breaks its separation holds it. -/
theorem State.heldOrAgainst.stop_same {m t : Nat} {r : CommitRec} (h : s.heldOrAgainst m t r) (hm : m ∈ s.mechNums)
    (hlen : s.warden.mechs.length = 16) : ((s.ssmStop m t).wm m).held = true := by
  obtain ⟨hm16, hdef⟩ := s.mem_mechNums hm
  rcases h with h | ⟨hrec, hagainst⟩
  · exact s.ssmStop_held_mono m t h (by omega)
  · unfold State.ssmStop
    rw [hrec]
    dsimp only
    rw [if_pos hagainst]
    refine State.trigger_held _ (by simp) ?_ (by rw [State.inc_warden]; omega)
    rwa [State.mech?_congr ((s.inc_keeps _ _) .loader (by decide))]

/-- Judging any mechanism leaves it so. -/
theorem State.heldOrAgainst.stop {m t : Nat} {r : CommitRec} (h : s.heldOrAgainst m t r) (hm : m ∈ s.mechNums)
    (hlen : s.warden.mechs.length = 16) (k : Nat) : (s.ssmStop k t).heldOrAgainst m t r := by
  by_cases hk : k = m
  · subst hk
    exact .inl (h.stop_same hm hlen)
  · have hbare : ((s.ssmStop k t).wm m).bare = (s.wm m).bare := by
      unfold State.ssmStop
      split
      · split
        · rw [State.trigger_wm_of_not_mem _ (by simpa using Ne.symm hk), State.wm, State.inc_warden, State.wm]
        · rfl
      · rfl
    refine h.imp (fun h => ?_) fun ⟨hrec, hagainst⟩ => ⟨(State.inForce_of_bare hbare t).trans hrec, ?_⟩
    · exact ((congrArg WMech.held hbare : ((s.ssmStop k t).wm m).bare.held = (s.wm m).bare.held)).trans h
    · obtain ⟨-, -, -, hread, -, -⟩ := Warden.fields_of_base (s.ssmStop_base k t)
      rw [State.ssmAgainst_congr ((s.ssmStop_keeps k t) .loader (by decide)) hread, hagainst]

theorem State.heldOrAgainst.foldl {m t : Nat} {r : CommitRec} {l : List Nat} (h : s.heldOrAgainst m t r) (hm : m ∈ s.mechNums)
    (hlen : s.warden.mechs.length = 16) (hl : m ∈ l ∨ (s.wm m).held = true) : ((l.foldl (fun s m => s.ssmStop m t) s).wm m).held = true := by
  induction l generalizing s with
  | nil => simpa using hl
  | cons k l ih =>
    have hm' : m ∈ (s.ssmStop k t).mechNums := by rwa [State.mechNums_congr ((s.ssmStop_keeps k t) .loader (by decide))]
    refine ih (h.stop hm hlen k) hm' (by rw [State.ssmStop_mechs_length, hlen]) ?_
    rcases hl with hl | hl
    · rcases List.mem_cons.mp hl with rfl | hl
      · exact .inr (h.stop_same hm hlen)
      · exact .inl hl
    · exact .inr (s.ssmStop_held_mono k t hl (by have := (s.mem_mechNums hm).1; omega))

variable (s)

theorem State.foldl_ssmStop_base (t : Nat) (l : List Nat) : (l.foldl (fun s m => s.ssmStop m t) s).warden.base = s.warden.base :=
  foldl_field (·.warden.base) _ (fun v m => v.ssmStop_base m t) _ _

/-- What the warden reads at the start of a monitoring period (R316, R326). -/
def State.monitored (s : State) (dis : Bool) : State :=
  { s with warden := { s.warden with ossdRead := s.warden.ossd.map DualIn.on, disagree := if dis then s.warden.disagree + 1 else 0 } }

/-- The second period of a disagreement fails both channels (R316). -/
def State.judged (s : State) (t : Nat) : State := if s.warden.disagree = 2 then s.channelFail true true t else s

theorem exec_monitoringPeriod {s : State} {t : Nat} (dis : Bool) (hup : s.dev.up = true) (ht : t % 100000 = 0)
    (hch : (s.warden.chA || s.warden.chB) = true) : exec (.monitoringPeriod dis t) s =
      .next ((((s.at t).monitored dis).judged t).mechNums.foldl (fun s m => s.ssmStop m t) (((s.at t).monitored dis).judged t)).finish := by
  have hw := s.at_warden t
  change execMonitoringPeriod dis t s = _
  unfold execMonitoringPeriod State.judged State.monitored
  dsimp only
  rw [if_pos ⟨hup, ht, by simpa using hch⟩, hw]
  rfl

/-- Settles O42. -/
theorem channelsAndSeparation : Obligations.ChannelsAndSeparation := by
  refine ⟨fun dis t s hcalm hup ht hch hmechs => ?_, fun b t s hcalm hup hA hB hmechs => ?_, fun b t s hcalm hup hA hB => ?_⟩
  · intro w
    let v := (s.at t).monitored dis
    let j := v.judged t
    let u := j.mechNums.foldl (fun s m => s.ssmStop m t) j
    have hvw : v.warden = w := by
      change ({ (s.at t).warden with ossdRead := (s.at t).warden.ossd.map DualIn.on, disagree := if dis then (s.at t).warden.disagree + 1 else 0 } : Warden) = w
      rw [State.at_warden]
    have hv : v.keeps (s.at t) trigPieces := ((s.at t).setWarden_keeps _).widen
    have hj : j.keeps v trigPieces := State.keeps_ite (v.channelFail_keeps _ _ _) (v.keeps_refl _)
    have hu : u.keeps j trigPieces := State.keeps_foldl (fun s m => s.ssmStop_keeps m t) (j.keeps_refl _) _
    have hkeeps : u.keeps (s.at t) trigPieces := State.keeps_trans hu (State.keeps_trans hj hv)
    have hfall : u.dev.fall = none := hkeeps.calm (s.at_calm t hcalm)
    obtain ⟨-, huA, huB, hread, hdis, -⟩ := Warden.fields_of_base ((State.finish_base hfall).trans (j.foldl_ssmStop_base t _))
    have hjread : j.warden.ossdRead = w.ossdRead ∧ j.warden.disagree = w.disagree := by
      rw [← hvw]
      simp only [j, State.judged]
      split
      · obtain ⟨-, -, h1, h2⟩ := v.channelFail_fields true true t
        exact ⟨h1, h2⟩
      · exact ⟨rfl, rfl⟩
    have hjlen : j.warden.mechs.length = 16 := by
      have hvlen : v.warden.mechs.length = 16 := by rw [hvw]; exact hmechs
      simp only [j, State.judged]
      split
      · rw [State.channelFail_mechs_length, hvlen]
      · exact hvlen
    have hjload : j.loader = s.loader := (hj .loader (by decide)).trans ((hv .loader (by decide)).trans (s.at_loader t))
    refine ⟨u.finish, exec_monitoringPeriod dis hup ht hch, by rw [hread, hjread.1], by rw [hdis, hjread.2], fun m hm r hrec hagainst => ?_,
      fun hd h1 => ?_, State.finish_keeps_of hfall hkeeps⟩
    · rw [State.finish_held hfall]
      rw [← State.mechNums_congr hjload] at hm
      refine State.heldOrAgainst.foldl (r := r) ?_ hm hjlen (.inl hm)
      have hread : v.heldOrAgainst m t r := by
        refine .inr ⟨?_, ?_⟩
        · rw [← hrec, State.inForce, State.inForce, State.wm, hvw, State.wm]
        · rw [← hagainst]
          exact State.ssmAgainst_congr (s := { s with warden := w }) ((hv .loader (by decide)).trans (s.at_loader t)) (by rw [hvw]) m r
      by_cases hd2 : v.warden.disagree = 2
      · have hjeq : j = v.channelFail true true t := if_pos hd2
        cases hfirst : v.warden.chA && v.warden.chB
        · rw [hjeq, v.channelFail_again t hfirst]
          exact hread
        · left
          rw [hjeq]
          refine State.channelFail_held _ hfirst ?_ (by rw [hvw]; exact hmechs)
          rwa [State.mechNums_congr (hj .loader (by decide))] at hm
      · have hjeq : j = v := if_neg hd2
        rwa [hjeq]
    · have hv2 : v.warden.disagree = 2 := by
        rw [hvw]
        simp only [w, hd, if_true, h1]
      have hj2 : j = v.channelFail true true t := if_pos hv2
      obtain ⟨hfA, hfB, -, -⟩ := v.channelFail_fields true true t
      rw [huA, huB, hj2, hfA, hfB]
      simp
  · let u := (s.at t).channelFail (!b) b t
    have hw := s.at_warden t
    have hfirst : ((s.at t).warden.chA && (s.at t).warden.chB) = true := by rw [hw, hA, hB]; rfl
    have hkeeps : u.keeps (s.at t) trigPieces := (s.at t).channelFail_keeps _ _ _
    have hfall : u.dev.fall = none := hkeeps.calm (s.at_calm t hcalm)
    obtain ⟨hst, huA, huB, -, -, -⟩ := Warden.fields_of_base (State.finish_base hfall)
    obtain ⟨hfA, hfB, -, -⟩ := (s.at t).channelFail_fields (!b) b t
    obtain ⟨hstate, hcause, htime⟩ := (s.at t).channelFail_first t (a := !b) (b := b) hfirst
    have hchA : u.finish.warden.chA = b := by rw [huA, hfA, hw, hA]; simp
    have hchB : u.finish.warden.chB = !b := by rw [huB, hfB, hw, hB]; simp
    refine ⟨u.finish, ?_, hchA, hchB, by rw [hst, hstate, hw], fun m hm => ?_, by rw [State.finish_trigCause hfall, hcause],
      by rw [State.finish_trigTime hfall, htime], fun n hn => ?_, State.finish_keeps_of hfall hkeeps⟩
    · have hgo : (s.dev.up && (if b then s.warden.chB else s.warden.chA)) = true := by
        cases b <;> simp [hup, hA, hB]
      change execChannel b t s = _
      unfold execChannel
      dsimp only
      rw [hgo]
      rfl
    · rw [State.finish_held hfall]
      refine State.channelFail_held _ hfirst ?_ (by rw [hw, hmechs])
      rwa [State.at_mechNums]
    · refine u.finish_pairDark hn ?_
      have hoff : u.finish.allOff = true := by
        rw [State.allOff, hchA, hchB]
        cases b <;> simp
      rw [State.pairOff, hoff]
      rfl
  · refine ⟨s.finish, ?_, s.finish_keeps hcalm⟩
    have hno : (s.dev.up && (if b then s.warden.chB else s.warden.chA)) = false := by
      cases b <;> simp [hA, hB]
    change execChannel b t s = _
    unfold execChannel
    dsimp only
    rw [hno]
    rfl

end Sys2Proof.Machine
end

section
/-! SUPPORT. What a warm reset and a fall-back decision leave of time, the warden and the die-to-die links (14_safety_concept.md R329,
19_reset_and_bringup.md R420), and events that count against nothing (16_fault_handling.md R369). -/

namespace Sys2Proof.Machine

set_option Elab.async false

variable (s : State)

/-- The pieces that a warm reset changes before its trigger. -/
def warmPieces : List Piece := .dev :: .loader :: .round :: .rots :: .traceQ :: clearPieces

/-- A warm reset ends with its trigger, the links down. -/
theorem State.warmReset_after (cause t : Nat) (hold : Bool) (h : s.dev.warm = none) :
    ∃ v : State, v.keeps s warmPieces ∧ bits (v.rd Reg.glbD2dStatus).toNat 2 0 = 0 ∧ s.warmReset cause t hold = v.trigger 6 t v.mechNums := by
  have hend (v : State) : ((v.newInterval 0 t).newInterval 1 t).keeps v [.rots] :=
    (State.newInterval_keeps _ _ _).after (v.newInterval_keeps _ _)
  have hlinks (v : State) : bits (v.linksDown.rd Reg.glbD2dStatus).toNat 2 0 = 0 := by
    unfold State.linksDown
    split
    next h => exact h
    next =>
      rw [State.raise_spares _ _ _ (by decide), State.rd_wrBits_same]
      simp only [setBits, bits, BitVec.toNat_ofNat]
      omega
  have hkettle (v : State) (k : Kettle) (d : Dev) : ({ v with ktl := k, dev := d } : State).keeps v warmPieces :=
    (State.keeps_iff _ _ _).mpr (by simp [warmPieces, clearPieces])
  unfold State.warmReset
  rw [if_neg (by simp [h])]
  extract_lets ended carried unres cleared kettle woken device asserted cut fresh
  have hcleared : cleared.keeps s warmPieces := (State.warmClear_keeps _ t).after (s.warmBegin_keeps cause t).widen
  clear_value cleared
  have hasserted : asserted.keeps cleared warmPieces := hkettle cleared _ _
  clear_value asserted
  have hcut : cut.keeps asserted [.rots, .regs, .ints] := (State.linksDown_keeps _).after <|
    (State.abandonSlice_keeps _ _).after (State.abandonSlice_keeps _ _).widen
  have hbits : bits (cut.rd Reg.glbD2dStatus).toNat 2 0 = 0 := hlinks _
  refine ⟨fresh, (hend cut).after (hcut.after (State.keeps_trans hasserted hcleared)), ?_, rfl⟩
  rw [(hend cut .regs (by decide)) _ (by simp)]
  exact hbits

theorem State.warmReset_time (cause t : Nat) (hold : Bool) : (s.warmReset cause t hold).time = s.time := by
  by_cases h : s.dev.warm = none
  · obtain ⟨v, hv, -, heq⟩ := s.warmReset_after cause t hold h
    rw [heq, State.trigger_keeps _ _ _ _ _ .time (by decide)]
    exact hv .time (by decide)
  · rw [s.warmReset_of_warm cause t hold h]

theorem State.warmReset_base (cause t : Nat) (hold : Bool) : (s.warmReset cause t hold).warden.base = s.warden.base := by
  by_cases h : s.dev.warm = none
  · obtain ⟨v, hv, -, heq⟩ := s.warmReset_after cause t hold h
    rw [heq, State.trigger_base]
    exact Warden.base_of_quiet (hv.quiet (by decide))
  · rw [s.warmReset_of_warm cause t hold h]

/-- What a further warm reset, or a new one, keeps of the device state. -/
theorem State.warmReset_kept (cause t : Nat) (hold : Bool) : (s.warmReset cause t hold).dev.locked = s.dev.locked
    ∧ (s.warmReset cause t hold).dev.hbmLost = s.dev.hbmLost := by
  by_cases h : s.dev.warm = none
  · rw [s.warmReset_dev cause t hold h]
    exact ⟨rfl, rfl⟩
  · rw [s.warmReset_of_warm cause t hold h]
    exact ⟨rfl, rfl⟩

theorem State.warmReset_hold (cause t : Nat) : (s.warmReset cause t true).dev.hold = true := by
  by_cases h : s.dev.warm = none
  · rw [s.warmReset_dev cause t true h]
    rfl
  · rw [s.warmReset_of_warm cause t true h]
    exact Bool.or_true _

/-! ### Fall-back decisions -/

theorem State.fallState_wds (t : Nat) : (s.fallState t).warden.wds = s.warden.wds := by
  have hset (v : State) (x : WState) : (v.setWState x).warden.wds = v.warden.wds := by
    have hb := v.setWState_base x
    generalize (v.setWState x).warden = w at hb
    exact (congrArg Warden.wds hb : w.base.wds = _)
  unfold State.fallState
  dsimp only
  split
  · rfl
  · rfl
  · rfl
  · exact hset _ _

theorem State.taken_time : s.taken.time = s.time := by
  unfold State.taken
  split
  · rw [State.fallBack_eq, State.warmReset_time]
    exact State.fallState_keeps _ _ .time (by decide)
  · rfl

theorem State.taken_wds : s.taken.warden.wds = s.warden.wds := by
  unfold State.taken
  split
  · rw [State.fallBack_eq]
    obtain ⟨-, -, -, -, -, hwds⟩ := Warden.fields_of_base (State.warmReset_base _ _ _ _)
    rw [hwds, State.fallState_wds]
  · rfl

theorem State.taken_hbmLost : s.taken.dev.hbmLost = s.dev.hbmLost := by
  unfold State.taken
  split
  · rw [State.fallBack_eq, (State.warmReset_kept _ _ _ _).2, State.fallState_dev]
  · rfl

/-- Whether or not a decision is taken, the end of a command leaves time and the watchdogs. -/
theorem State.finish_time_always : s.finish.time = s.time := (s.finish_keeps_taken .time (by decide)).trans s.taken_time

theorem State.finish_wds : s.finish.warden.wds = s.warden.wds := by
  obtain ⟨-, -, -, -, -, hwds⟩ := Warden.fields_of_base (Warden.base_of_quiet s.finish_keeps_taken.quiet)
  rw [hwds, s.taken_wds]

theorem State.finish_hbmLost : s.finish.dev.hbmLost = s.dev.hbmLost := by
  rw [s.finish_keeps_taken .dev (by decide), s.taken_hbmLost]

/-- A decision leaves the die-to-die links that were down down. -/
theorem State.finish_linkDown {l : Nat} (hl : l < 3) (h : bit (s.rd Reg.glbD2dStatus).toNat l = false) :
    bit (s.finish.rd Reg.glbD2dStatus).toNat l = false := by
  rw [(s.finish_keeps_taken .regs (by decide)) _ (by simp)]
  unfold State.taken
  split
  · rw [State.fallBack_eq]
    let v := ({ s with dev := { s.dev with fall := none } } : State).fallState ‹Nat›
    have hv : v.rd Reg.glbD2dStatus = s.rd Reg.glbD2dStatus := by
      have hset (u : State) (x : WState) : (u.setWState x).spares u := by
        unfold State.setWState
        split
        · exact u.spares_refl
        · exact u.spares_refl
        · exact State.spares_ite u.spares_refl ((State.raise_spares _ _).trans fun _ _ => rfl)
      simp only [v, State.fallState]
      split
      · rfl
      · rfl
      · rfl
      · exact (hset _ _).trans (u := _) (fun _ _ => rfl) _ (by decide)
    by_cases hw : v.dev.warm = none
    · obtain ⟨u, -, hbits, heq⟩ := v.warmReset_after _ _ _ hw
      rw [heq, State.trigger_spares _ _ _ _ _ _ (by decide)]
      have hmod := Nat.testBit_mod_two_pow (u.rd Reg.glbD2dStatus).toNat 3 l
      have hzero : (u.rd Reg.glbD2dStatus).toNat % 2 ^ 3 = 0 := by simpa [bits] using hbits
      rw [hzero, decide_eq_true hl, Bool.true_and, Nat.zero_testBit] at hmod
      exact hmod.symm
    · rw [v.warmReset_of_warm _ _ _ hw]
      exact hv ▸ h
  · exact h

end Sys2Proof.Machine
end

section
/-! SUPPORT. Tamper events, rail faults and the die-to-die links (12_memory.md R301, R302, 01_architecture.md R18, 16_fault_handling.md
R369, R382). -/

namespace Sys2Proof.Machine

set_option Elab.async false

variable (s : State)

/-! ### Events that count against nothing -/

/-- The record of an event that counts against nothing. -/
def plainRec (e : EventIn) (ref : Nat) : ErrRec :=
  { kind := e.kind, act := actOf e.kind, tag := e.tag, unit := if e.unit = noUnit then noUnit else e.unit + e.sub * 4096, cls := e.cls,
    count := 0, time := tick e.t, aux := e.aux, op := e.op, addr := e.addr, synd := e.synd, ref }

/-- Every event of such a kind writes its record; LINK_DOWN is a fault of the planner dies too (R382). -/
theorem State.event_of_uncounted {e : EventIn} (ref : Nat) (hkey : countKey { e with t := tick e.t } = none) (hkind : e.kind ≠ ekUNATTRIB) :
    s.event e ref = if e.kind = ekLINK_DOWN ∨ (e.kind = ekECC_UE ∧ e.unit ≠ noUnit ∧ e.unit % 512 = 104)
      then (s.log (plainRec e ref)).dieFault (tick e.t) else s.log (plainRec e ref) := by
  unfold State.event
  dsimp only
  rw [if_neg hkind]
  simp only [hkey]
  rfl

theorem countKey_linkDegr (u t : Nat) : countKey { kind := ekLINK_DEGR, unit := u, t } = none := rfl

theorem countKey_linkDown (u t : Nat) : countKey { kind := ekLINK_DOWN, unit := u, t } = none := rfl

theorem State.raiseSlot_errs (src k : Nat) : (s.raiseSlot src k).errs = s.errs := (s.raiseSlot_keeps src k) .errs (by decide)

/-- A record written takes the next SEQ. -/
theorem State.log_seq (r : ErrRec) : (s.log r).errs.seq = s.errs.seq + 1 := by
  have hring (v : State) (log a : Nat) (b : List Byte) : (v.logRing log a b).errs.seq = v.errs.seq := by
    unfold State.logRing
    split <;> rfl
  have hraise (v : State) (lost : Bool) : (v.logRaise lost).errs = v.errs := by
    unfold State.logRaise
    split
    · rw [State.raise_keeps _ _ .errs (by decide), State.inc_keeps _ _ _ .errs (by decide), State.raise_keeps _ _ .errs (by decide)]
    · exact State.raise_keeps _ _ .errs (by decide)
  rw [State.log_eq, hraise, hring]
  rfl

/-- A fault of a planner die: a FAULT trigger and a fall-back decision (R382). -/
theorem State.dieFault_fall (t : Nat) : (s.dieFault t).dev.fall = some (tick t) := rfl

theorem State.dieFault_hbmLost (t : Nat) : (s.dieFault t).dev.hbmLost = s.dev.hbmLost := rfl

theorem State.dieFault_spares (t : Nat) : (s.dieFault t).spares s := (s.trigger_spares 12 t s.mechNums none)

/-! ### The D2D status register -/

/-- One bit of a register replaced. -/
theorem bit_setBits_one (w : Word) {k i v : Nat} (hi : i < 32) (hv : v < 2) :
    bit (setBits w k k v).toNat i = if i = k then decide (v = 1) else bit w.toNat i := by
  have hclear : ∃ x, x.testBit k = false ∧ (∀ j, j ≠ k → x.testBit j = w.toNat.testBit j) ∧ w.toNat - bits w.toNat k k * 2 ^ k = x := by
    have hbits : bits w.toNat k k = (w.toNat.testBit k).toNat := by
      rw [bits, show k + 1 - k = 1 by omega, pow_one, Nat.toNat_testBit]
    cases hw : w.toNat.testBit k
    · exact ⟨w.toNat, hw, fun _ _ => rfl, by rw [hbits, hw]; simp⟩
    · refine ⟨w.toNat - 2 ^ k, by rw [testBit_sub_two_pow hw]; simp, fun j hj => by rw [testBit_sub_two_pow hw]; simp [hj], ?_⟩
      rw [hbits, hw]
      simp
  obtain ⟨x, hxk, hxj, hx⟩ := hclear
  rw [setBits, hx, BitVec.toNat_ofNat, bit, Nat.testBit_mod_two_pow, decide_eq_true hi, Bool.true_and, show k + 1 - k = 1 by omega]
  have hv' : v = 0 ∨ v = 1 := by omega
  rcases hv' with rfl | rfl
  · rw [Nat.zero_mod, Nat.zero_mul, Nat.add_zero]
    split
    next h => rw [h, hxk]; rfl
    next h => exact hxj i h
  · rw [show 1 % 2 ^ 1 = 1 by decide, Nat.one_mul, testBit_add_two_pow hxk]
    split
    next h => simp [h]
    next h => simp [h, hxj i h, bit]

theorem exec_laneRepair {s : State} {l : Nat} (t : Nat) (hl : l < 3) (hup : bit (s.rd Reg.glbD2dStatus).toNat l = true) :
    exec (.laneRepair l t) s =
      let v := if bit ((s.at t).rd Reg.glbD2dStatus).toNat (3 + l) then s.at t
        else ((s.at t).wrBits Reg.glbD2dStatus (3 + l) (3 + l) 1).raise isrcD2D
      .next (v.log (plainRec { kind := ekLINK_DEGR, unit := d2dUnit l, t := v.time } 0)).finish := by
  have hgo : l < 3 ∧ bit ((s.at t).rd Reg.glbD2dStatus).toNat l = true := ⟨hl, by rw [s.at_rd_low t (by decide)]; exact hup⟩
  change execLaneRepair l t s = _
  unfold execLaneRepair
  dsimp only
  rw [if_pos hgo]
  split
  · rw [State.event_of_uncounted _ _ (countKey_linkDegr _ _) (by simp [ekLINK_DEGR, ekUNATTRIB]), if_neg (by simp [ekLINK_DEGR, ekLINK_DOWN, ekECC_UE])]
    rfl
  · rw [State.event_of_uncounted _ _ (countKey_linkDegr _ _) (by simp [ekLINK_DEGR, ekUNATTRIB]), if_neg (by simp [ekLINK_DEGR, ekLINK_DOWN, ekECC_UE])]
    rfl

theorem exec_linkDown {s : State} {l : Nat} (t : Nat) (hl : l < 3) (hup : s.dev.up = true) :
    exec (.linkDown l t) s =
      let v := if bit ((s.at t).rd Reg.glbD2dStatus).toNat l then ((s.at t).wrBits Reg.glbD2dStatus l l 0).raise isrcD2D else s.at t
      .next ((v.log (plainRec { kind := ekLINK_DOWN, unit := d2dUnit l, t := v.time } 0)).dieFault (tick v.time)).finish := by
  have hgo : l < 3 ∧ (s.at t).dev.up = true := ⟨hl, by rw [State.at_dev]; exact hup⟩
  change execLinkDown l t s = _
  unfold execLinkDown
  dsimp only
  rw [if_pos hgo]
  split
  · rw [State.event_of_uncounted _ _ (countKey_linkDown _ _) (by simp [ekLINK_DOWN, ekUNATTRIB]), if_pos (.inl rfl)]
    rfl
  · rw [State.event_of_uncounted _ _ (countKey_linkDown _ _) (by simp [ekLINK_DOWN, ekUNATTRIB]), if_pos (.inl rfl)]
    rfl

/-! ### Tamper -/

/-- What TAMPER does before its warm reset. -/
def State.tamperMark (s : State) (cause : Nat) : State :=
  let s := ((s.wipeSecure (cause + 2)).wrBits Reg.memTamper cause cause 1).wrBits Reg.memSecureStatus 2 2 1
  (s.log { kind := ekTAMPER, time := s.time }).raise isrcTAMPER

theorem State.tamperMark_keeps (cause : Nat) : (s.tamperMark cause).keeps s [.fresh, .errs, .mem, .regs, .ints] :=
  (State.raise_keeps _ _).after <| (State.log_keeps _ _).after <| (State.wrBits_keeps _ _ _ _ _).after <|
    (State.wrBits_keeps _ _ _ _ _).after <| (State.wrBits_keeps _ _ _ _ _).after (State.wrBits_keeps _ _ _ _ _).widen

/-- TAMPER's Saucers, of category 0 for every mechanism. -/
def State.tamperTrigger (s : State) : State := s.trigger 10 s.time s.mechNums (some 0)

/-- The device locked (R302). -/
def State.tamperLock (s : State) : State := ({ s with dev := { s.dev with locked := true } } : State).setWState .locked

/-- The planner dies held. -/
def State.tamperReset (s : State) : State := s.warmReset 3 s.time true

theorem State.tampered_eq (cause : Nat) : s.tampered cause = (s.tamperMark cause).tamperTrigger.tamperLock.tamperReset := rfl

theorem State.tamperTrigger_keeps : s.tamperTrigger.keeps s trigPieces := s.trigger_trigPieces _ _ _ _

theorem State.tamperLock_dev : s.tamperLock.dev = { s.dev with locked := true } := State.setWState_keeps _ .locked .dev (by decide)

theorem State.tamperLock_state : s.tamperLock.warden.state = if s.warden.state = .channelFail then .channelFail else .locked := by
  have h := State.setWState_base { s with dev := { s.dev with locked := true } } .locked
  change s.tamperLock.warden.base = _ at h
  generalize s.tamperLock.warden = w at h
  refine (congrArg Warden.state h : w.base.state = _).trans ?_
  change s.warden.state.changed .locked = _
  cases s.warden.state <;> rfl

theorem State.tamperReset_fall : s.tamperReset.dev.fall = s.dev.fall := s.warmReset_fall 3 s.time true

theorem State.tamperReset_locked : s.tamperReset.dev.locked = s.dev.locked := (s.warmReset_kept 3 s.time true).1

theorem State.tamperReset_state : s.tamperReset.warden.state = s.warden.state :=
  (Warden.fields_of_base (s.warmReset_base 3 s.time true)).1

theorem State.tamperReset_warm_ne : s.tamperReset.dev.warm ≠ none := s.warmReset_warm_ne 3 s.time true

theorem State.tamperReset_hold : s.tamperReset.dev.hold = true := s.warmReset_hold 3 s.time

theorem State.tamperMark_state (cause : Nat) : (s.tamperMark cause).warden.state = s.warden.state :=
  (Warden.fields_of_base (Warden.base_of_quiet (s.tamperMark_keeps cause).quiet)).1

theorem State.tamperTrigger_state : s.tamperTrigger.warden.state = s.warden.state :=
  (Warden.fields_of_base (s.trigger_base 10 s.time s.mechNums (some 0))).1

theorem State.allOff_of_state (h : s.warden.state = .channelFail ∨ s.warden.state = .locked) (n : Nat) : s.pairOff n = true := by
  have hoff : s.allOff = true := by
    rcases h with h | h <;> simp [State.allOff, h]
  rw [State.pairOff, hoff]
  rfl

/-- The device after TAMPER, before its outputs are settled (R301, R302). -/
theorem State.tamper_after (c : Nat) :
    (s.tamperMark c).tamperTrigger.tamperLock.tamperReset.dev.locked = true
    ∧ (s.tamperMark c).tamperTrigger.tamperLock.tamperReset.warden.state = (if s.warden.state = .channelFail then .channelFail else .locked)
    ∧ (s.tamperMark c).tamperTrigger.tamperLock.tamperReset.dev.hold = true
    ∧ (s.tamperMark c).tamperTrigger.tamperLock.tamperReset.dev.warm ≠ none
    ∧ (s.tamperMark c).tamperTrigger.tamperLock.tamperReset.dev.fall = s.dev.fall := by
  have hdev : (s.tamperMark c).tamperTrigger.dev = s.dev :=
    (State.tamperTrigger_keeps _ .dev (by decide)).trans (s.tamperMark_keeps c .dev (by decide))
  refine ⟨?_, ?_, State.tamperReset_hold _, State.tamperReset_warm_ne _, ?_⟩
  · rw [State.tamperReset_locked, State.tamperLock_dev]
  · rw [State.tamperReset_state, State.tamperLock_state, State.tamperTrigger_state, State.tamperMark_state]
  · rw [State.tamperReset_fall, State.tamperLock_dev, hdev]

theorem exec_tamper {s : State} {c : Nat} (t : Nat) (hup : s.dev.up = true) (hc : c < 4) :
    exec (.tamper c t) s = .next ((s.at t).tamperMark c).tamperTrigger.tamperLock.tamperReset.finish := by
  have hgo : (s.at t).dev.up = true ∧ c < 4 := ⟨by rw [State.at_dev]; exact hup, hc⟩
  change execTamper c t s = _
  unfold execTamper
  dsimp only
  rw [if_pos hgo, State.tampered_eq, State.done]

/-! ### Rails -/

/-- The HBM rails out of tolerance lose what the stacks hold (R494, R511). -/
def State.railHbm (s : State) (r : Nat) : State := if r = 1 then { s with dev := { s.dev with hbmLost := [true, true] } } else s

theorem State.railHbm_hbmLost (r : Nat) : (s.railHbm r).dev.hbmLost = if r = 1 then [true, true] else s.dev.hbmLost := by
  unfold State.railHbm
  split <;> rfl

theorem exec_railFault {s : State} {r : Nat} (t : Nat) (hup : s.dev.up = true) (hr : r < 2) :
    exec (.railFault r t) s = .next (((s.at t).railHbm r).dieFault t).finish := by
  have hgo : ¬(!(s.at t).dev.up) = true := by rw [State.at_dev, hup]; decide
  change execRailFault r t s = _
  unfold execRailFault
  dsimp only
  rw [if_neg (by omega), if_neg hgo, if_neg (by omega), State.done]
  rfl

/-- Settles O46. -/
theorem tamperRailsAndLinks : Obligations.TamperRailsAndLinks := by
  refine ⟨fun c t s hcalm hup hc => ?_, fun r t s hcalm hup hr => ?_, fun l t s hcalm hl hbit => ?_, fun l t s hcalm hl hup => ?_⟩
  · obtain ⟨hdev, hstate, hhold, hwarm, hfall⟩ := (s.at t).tamper_after c
    have hcalm' := hfall.trans (s.at_calm t hcalm)
    refine ⟨_, exec_tamper t hup hc, ?_, ?_, ?_, ?_, fun n hn => State.finish_pairDark _ hn (State.allOff_of_state _ ?_ n)⟩
    · rw [State.finish_dev _ hcalm', hdev]
    · rw [State.finish_wstate hcalm', hstate, State.at_warden]
    · rw [State.finish_dev _ hcalm']
      exact hwarm
    · rw [State.finish_dev _ hcalm', hhold]
    · rw [State.finish_wstate hcalm', hstate]
      split <;> simp
  · refine ⟨((((s.at t).railHbm r)).dieFault t).finish, ?_, State.finish_warm_of_fall _ (by rw [State.dieFault_fall]; simp), ?_⟩
    · exact exec_railFault t hup hr
    · rw [State.finish_hbmLost, State.dieFault_hbmLost, State.railHbm_hbmLost, State.at_dev]
  · let v := if bit ((s.at t).rd Reg.glbD2dStatus).toNat (3 + l) then s.at t
        else ((s.at t).wrBits Reg.glbD2dStatus (3 + l) (3 + l) 1).raise isrcD2D
    let u := v.log (plainRec { kind := ekLINK_DEGR, unit := d2dUnit l, t := v.time } 0)
    have hrd : (s.at t).rd Reg.glbD2dStatus = s.rd Reg.glbD2dStatus := s.at_rd_low t (by decide)
    have hv : v.keeps (s.at t) [.regs, .ints, .errs, .fresh, .mem] :=
      State.keeps_ite (State.keeps_refl _ _) ((State.raise_keeps _ _).after ((s.at t).wrBits_keeps _ _ _ _).widen)
    have hkeeps : u.keeps (s.at t) [.regs, .ints, .errs, .fresh, .mem] := (State.log_keeps _ _).after hv
    have hfall : u.dev.fall = none := hkeeps.calm (s.at_calm t hcalm)
    have hbits (i : Nat) (hi : i < 6) : bit (v.rd Reg.glbD2dStatus).toNat i = (bit (s.rd Reg.glbD2dStatus).toNat i || decide (i = 3 + l)) := by
      simp only [v]
      split
      next h =>
        rw [hrd] at h ⊢
        by_cases hil : i = 3 + l
        · rw [hil, h]; simp
        · simp [hil]
      next h =>
        rw [State.raise_spares _ _ _ (by decide), State.rd_wrBits_same, bit_setBits_one _ (by omega) (by omega), hrd]
        split <;> simp_all
    have hurd : u.finish.rd Reg.glbD2dStatus = v.rd Reg.glbD2dStatus := by
      rw [State.finish_rd _ hfall, State.log_spares _ _ _ (by decide)]
    refine ⟨u.finish, exec_laneRepair t hl hbit, ?_, ?_, ?_, State.finish_keeps_of hfall hkeeps⟩
    · rw [hurd, hbits _ (by omega)]; simp
    · rw [hurd, hbits _ (by omega), hbit]; rfl
    · rw [State.finish_errs _ hfall, State.log_seq, show v.errs = (s.at t).errs from ?_, State.at_errs]
      simp only [v]
      split
      · rfl
      · exact ((State.raise_keeps _ _).after (m := [.regs, .ints]) ((s.at t).wrBits_keeps _ _ _ _).widen) .errs (by decide)
  · let v := if bit ((s.at t).rd Reg.glbD2dStatus).toNat l then ((s.at t).wrBits Reg.glbD2dStatus l l 0).raise isrcD2D else s.at t
    refine ⟨_, exec_linkDown t hl hup, State.finish_linkDown _ hl ?_, State.finish_warm_of_fall _ (by rw [State.dieFault_fall]; simp)⟩
    rw [State.dieFault_spares _ _ _ (by decide), State.log_spares _ _ _ (by decide)]
    split
    · rw [State.raise_spares _ _ _ (by decide), State.rd_wrBits_same, bit_setBits_one _ (by omega) (by omega), if_pos rfl]
      rfl
    next h => simpa using h

end Sys2Proof.Machine
end

section
/-! SUPPORT. Watchdog windows that close without a service (14_safety_concept.md R332 to R334). -/

namespace Sys2Proof.Machine

set_option Elab.async false

variable (s : State)

/-! ### A violation -/

theorem State.setWd_wd_same {w : Nat} (x : Watchdog) (h : w < s.warden.wds.length) : (s.setWd w x).wd w = x := getD_listSet_same _ _ h

theorem State.setWd_keeps (w : Nat) (x : Watchdog) : (s.setWd w x).keeps s [.warden] := s.setWarden_keeps _

/-- A watchdog's fault latched, counted and reported. -/
def State.wdLatch (s : State) (w code : Nat) : State := ((s.setWd w { s.wd w with fault := code }).inc Reg.wdnWdViol).raise isrcWATCHDOG

theorem State.wdViolate_stage {w : Nat} (code stamp : Nat) (h : w < 8) : s.wdViolate w code stamp =
    { (s.wdLatch w code).trigger 2 (tick stamp) (s.wdLatch w code).mechNums with dev := { (s.wdLatch w code).dev with fall := some (tick stamp) } } :=
  if_pos h

theorem State.wdViolate_output {w : Nat} (code stamp : Nat) (h : ¬ w < 8) : s.wdViolate w code stamp =
    ((s.wdLatch w code).trigger 2 (tick stamp) ((s.wdLatch w code).portMechs (w - 8)) (some 0)).portHolds ((s.wdLatch w code).portMechs (w - 8)) :=
  if_neg h

theorem State.wdLatch_keeps (w code : Nat) : (s.wdLatch w code).keeps s [.warden, .regs, .ints] :=
  (State.raise_keeps _ _).after <| (State.inc_keeps _ _ _).after (s.setWd_keeps _ _).widen

theorem State.wdLatch_warden (w code : Nat) : (s.wdLatch w code).warden = (s.setWd w { s.wd w with fault := code }).warden := by
  rw [State.wdLatch, State.raise_warden, State.inc_warden]

theorem State.wdLatch_wd {w : Nat} (code : Nat) (h : w < s.warden.wds.length) : (s.wdLatch w code).wd w = { s.wd w with fault := code } := by
  rw [State.wd, State.wdLatch_warden]
  exact s.setWd_wd_same _ h

theorem State.wdLatch_viol (w code : Nat) : (s.wdLatch w code).rd Reg.wdnWdViol = satAdd (s.rd Reg.wdnWdViol) 1 := by
  rw [State.wdLatch, State.raise_spares _ _ _ (by decide), State.rd_inc_same]
  rfl

theorem State.trigger_wd (cause stamp : Nat) (ms : List Nat) (cat : Option Nat) (w : Nat) : (s.trigger cause stamp ms cat).wd w = s.wd w := by
  rw [State.wd, (Warden.fields_of_base (s.trigger_base cause stamp ms cat)).2.2.2.2.2, State.wd]

/-! ### Mechanisms held for their port -/

theorem State.portHolds_keeps (ms : List Nat) : (s.portHolds ms).keeps s [.warden] :=
  State.keeps_foldl (fun v _ => v.setWm_keeps _ _) (s.keeps_refl _) _

theorem State.portHolds_wd (ms : List Nat) (w : Nat) : (s.portHolds ms).wd w = s.wd w :=
  foldl_field (·.wd w) (fun s m => s.setWm m { s.wm m with portHold := true }) (fun _ _ => rfl) ms s

/-- Every mechanism of a list is held for its port, and no mechanism's Saucer hold ends. -/
theorem State.portHolds_wm (ms : List Nat) {m : Nat} (hlen : m < s.warden.mechs.length) (hheld : (s.wm m).held = true)
    (h : m ∈ ms ∨ (s.wm m).portHold = true) : ((s.portHolds ms).wm m).held = true ∧ ((s.portHolds ms).wm m).portHold = true := by
  induction ms generalizing s with
  | nil => exact ⟨hheld, h.resolve_left List.not_mem_nil⟩
  | cons k r ih =>
    by_cases hk : m = k
    · subst hk
      have hsame := s.setWm_wm_same { s.wm m with portHold := true } hlen
      exact ih _ (by rwa [State.setWm_mechs_length]) (by rw [hsame]; exact hheld) (.inr (by rw [hsame]))
    · have hother := s.setWm_wm_of_ne { s.wm k with portHold := true } hk
      refine ih _ (by rwa [State.setWm_mechs_length]) (by rw [hother]; exact hheld) ?_
      rw [hother]
      exact h.imp_left fun h => (List.mem_cons.mp h).resolve_left hk

/-! ### The command -/

/-- A cycle of the port of an output watchdog passed without its service. -/
def State.cycleMissed (s : State) (n : Nat) : State :=
  { s with fif := { s.fif with ports := listSet s.fif.ports n { s.port n with k := (s.port n).k + 1 } } }

theorem State.cycleMissed_k {n : Nat} (h : n < s.fif.ports.length) : ((s.cycleMissed n).port n).k = (s.port n).k + 1 :=
  congrArg FPort.k (getD_listSet_same _ _ h)

theorem State.add64_rd_ne {o i : Nat} (n : Nat) (h : i ≠ o) (h' : i ≠ o + 4) : (s.add64 o n).rd i = s.rd i := by
  unfold State.add64
  split
  · rfl
  · rw [State.wr64, State.rd_wr_ne _ _ _ _ h', State.rd_wr_ne _ _ _ _ h]

theorem exec_watchdog_stage {s : State} {w t : Nat} (hw : w < 8) (hup : s.dev.up = true) (hexp : s.wdExpects w = true)
    (hclose : (s.wdOpen w).2 ≤ t) : exec (.watchdog w t) s =
      .next ((((s.at (s.wdOpen w).2).setWd w { (s.at (s.wdOpen w).2).wd w with expect := ((s.at (s.wdOpen w).2).wd w).expect + 1 })).wdViolate
        w 1 (s.wdOpen w).2).finish := by
  change execWatchdog w t s = _
  unfold execWatchdog
  dsimp only
  rw [if_neg (by simp [hup]), if_pos hw, if_pos ⟨hexp, hclose⟩]
  rfl

theorem exec_watchdog_output {s : State} {w t : Nat} (hw : 8 ≤ w) (hw' : w < 12) (hup : s.dev.up = true) (hexp : s.outExpects w = true)
    (hclose : (s.outOpen w).2 ≤ t) : exec (.watchdog w t) s =
      .next ((((s.at (s.outOpen w).2).cycleMissed (w - 8)).add64 (Reg.fbsCyclesLo (w - 8)) 1).wdViolate w 1 (s.outOpen w).2).finish := by
  change execWatchdog w t s = _
  unfold execWatchdog
  dsimp only
  rw [if_neg (by simp [hup]), if_neg (by omega), if_pos hw', if_pos ⟨hexp, hclose⟩]
  rfl

theorem exec_watchdog_none {s : State} {w t : Nat} (hstage : w < 8 → s.wdExpects w = false ∨ t < (s.wdOpen w).2)
    (hout : 8 ≤ w → s.outExpects w = false ∨ t < (s.outOpen w).2) : exec (.watchdog w t) s = .next s.finish := by
  change execWatchdog w t s = _
  unfold execWatchdog
  dsimp only
  split
  · rfl
  · split
    next hw =>
      rw [if_neg]
      · rfl
      · rintro ⟨hexp, hle⟩
        rcases hstage hw with h | h
        · rw [h] at hexp; exact absurd hexp (by decide)
        · omega
    next hw =>
      split
      · rw [if_neg]
        · rfl
        · rintro ⟨hexp, hle⟩
          rcases hout (by omega) with h | h
          · rw [h] at hexp; exact absurd hexp (by decide)
          · omega
      · rfl

/-- Settles O43. -/
theorem watchdogWindows : Obligations.WatchdogWindows := by
  refine ⟨fun w t s hcalm hw hup hexp hclose => ?_, fun w t s hcalm hw hw' hup hexp hclose hmechs hwds => ?_,
    fun w t s hcalm hstage hout => ⟨_, exec_watchdog_none hstage hout, s.finish_keeps hcalm⟩⟩
  · have harmed : w < s.warden.wds.length := by
      by_contra h
      have hd : s.wd w = {} := List.getD_eq_default _ _ (by omega)
      simp [State.wdExpects, hd] at hexp
    obtain ⟨v, hv⟩ : ∃ v, v = (s.at (s.wdOpen w).2).setWd w
        { (s.at (s.wdOpen w).2).wd w with expect := ((s.at (s.wdOpen w).2).wd w).expect + 1 } := ⟨_, rfl⟩
    have hvlen : w < v.warden.wds.length := by
      rw [hv]
      change w < (listSet (s.at _).warden.wds w _).length
      rw [length_listSet, State.at_warden]
      exact harmed
    have hvwd : v.wd w = { s.wd w with expect := (s.wd w).expect + 1 } := by
      have hat : (s.at (s.wdOpen w).2).wd w = s.wd w := by rw [State.wd, State.at_warden, State.wd]
      rw [hv, State.setWd_wd_same, hat]
      rw [State.at_warden]
      exact harmed
    have hvtime : v.time = (s.at (s.wdOpen w).2).time := by rw [hv]; rfl
    have hexec := exec_watchdog_stage hw hup hexp hclose
    rw [← hv, v.wdViolate_stage 1 _ hw] at hexec
    have hwd : ((v.wdLatch w 1).trigger 2 (tick (s.wdOpen w).2) (v.wdLatch w 1).mechNums).wd w =
        { s.wd w with expect := (s.wd w).expect + 1, fault := 1 } := by
      rw [State.trigger_wd, v.wdLatch_wd 1 hvlen, hvwd]
    have htime : ((v.wdLatch w 1).trigger 2 (tick (s.wdOpen w).2) (v.wdLatch w 1).mechNums).time = (s.at (s.wdOpen w).2).time := by
      rw [State.trigger_keeps _ _ _ _ _ .time (by decide), v.wdLatch_keeps w 1 .time (by decide), hvtime]
    generalize (v.wdLatch w 1).trigger 2 (tick (s.wdOpen w).2) (v.wdLatch w 1).mechNums = x at hexec hwd htime
    generalize (v.wdLatch w 1).dev = d at hexec
    have hfin : ∀ y : State, y.finish.wd w = y.wd w := fun y => by rw [State.wd, State.finish_wds, State.wd]
    refine ⟨_, hexec, ?_, ?_, State.finish_warm_of_fall _ (by simp), (State.finish_time_always _).trans htime⟩
    · rw [hfin]
      exact congrArg Watchdog.fault hwd
    · rw [hfin]
      exact congrArg Watchdog.expect hwd
  · have hport : w - 8 < s.fif.ports.length := by
      by_contra h
      have hd : s.fif.ports.getD (w - 8) {} = {} := List.getD_eq_default _ _ (by omega)
      rw [State.outExpects, hd, Bool.and_eq_true] at hexp
      exact absurd hexp.1 (by decide)
    let v := (s.at (s.outOpen w).2).cycleMissed (w - 8)
    let a := v.add64 (Reg.fbsCyclesLo (w - 8)) 1
    let l := a.wdLatch w 1
    let x := l.trigger 2 (tick (s.outOpen w).2) (l.portMechs (w - 8)) (some 0)
    let u := x.portHolds (l.portMechs (w - 8))
    have hv : v.keeps (s.at (s.outOpen w).2) [.fif] := (State.keeps_iff _ _ _).mpr (by simp [v, State.cycleMissed])
    have ha : a.keeps v [.regs] := v.add64_keeps _ _
    have hl : l.keeps (s.at (s.outOpen w).2) (.fif :: trigPieces) := (a.wdLatch_keeps w 1).after (ha.after hv.widen)
    have hx : x.keeps l trigPieces := l.trigger_trigPieces _ _ _ _
    have hu : u.keeps x [.warden] := x.portHolds_keeps _
    have hkeeps : u.keeps (s.at (s.outOpen w).2) (.fif :: trigPieces) := hu.after (hx.after hl)
    have hfall : u.dev.fall = none := hkeeps.calm (s.at_calm _ hcalm)
    have hfif : u.fif = v.fif := by
      rw [hu .fif (by decide), hx .fif (by decide), a.wdLatch_keeps w 1 .fif (by decide), ha .fif (by decide)]
    have hlw : l.warden.wds = (a.setWd w { a.wd w with fault := 1 }).warden.wds ∧ l.warden.mechs = s.warden.mechs := by
      rw [a.wdLatch_warden w 1]
      refine ⟨rfl, ?_⟩
      change a.warden.mechs = _
      rw [State.add64_warden]
      change (s.at _).warden.mechs = _
      rw [State.at_warden]
    have hwd : u.finish.wd w = { a.wd w with fault := 1 } := by
      have h : u.wd w = { a.wd w with fault := 1 } := by
        rw [x.portHolds_wd, l.trigger_wd, a.wdLatch_wd 1]
        rw [State.add64_warden]
        change _ < (s.at _).warden.wds.length
        rw [State.at_warden]
        omega
      rw [State.wd, State.finish_wds, ← h, State.wd]
    have hlm : l.portMechs (w - 8) = s.portMechs (w - 8) := by
      have hload : l.loader = s.loader := (hl .loader (by decide)).trans (s.at_loader _)
      simp only [State.portMechs, State.mechNums_congr hload, State.mech?_congr hload]
    have hexec := exec_watchdog_output hw hw' hup hexp hclose
    rw [State.wdViolate_output _ _ _ (by omega)] at hexec
    refine ⟨u.finish, hexec, by rw [hwd], fun m hm => ?_, ?_, ?_, State.finish_keeps_of hfall hkeeps⟩
    · obtain ⟨hm16, hdef⟩ := s.mem_mechNums (List.mem_of_mem_filter hm)
      rw [← hlm] at hm
      have hlen : m < l.warden.mechs.length := by rw [hlw.2]; omega
      have hheld : (x.wm m).held = true := l.trigger_held hm
        (by rwa [State.mech?_congr ((hl .loader (by decide)).trans (s.at_loader _))]) hlen
      have hboth := x.portHolds_wm (l.portMechs (w - 8)) (by rw [State.trigger_mechs_length]; exact hlen) hheld (.inl hm)
      rw [State.finish_held hfall, ((u.finish_keeps hfall).portHold m)]
      exact hboth
    · have hat : (s.at (s.outOpen w).2).fif.ports.length = s.fif.ports.length := by rw [State.at_fif]
      have hfin : u.finish.port (w - 8) = v.port (w - 8) :=
        congrArg (fun x : FieldIf => x.ports.getD (w - 8) {}) ((State.finish_fif _ hfall).trans hfif)
      rw [hfin]
      exact (State.cycleMissed_k _ (by rw [hat]; exact hport)).trans (congrArg (fun p : FPort => p.k + 1) (State.at_port _ _ _))
    · have hne : ∀ o, o = Reg.fbsCyclesLo (w - 8) ∨ o = Reg.fbsCyclesLo (w - 8) + 4 → Reg.wdnWdViol ≠ o := by
        rintro o (rfl | rfl) <;> simp only [Reg.wdnWdViol, Reg.fbsCyclesLo] <;> omega
      rw [State.finish_rd _ hfall, (hu .regs (by decide)) _ (by simp), l.trigger_spares _ _ _ _ _ (by decide), a.wdLatch_viol]
      rw [State.add64_rd_ne _ _ (hne _ (.inl rfl)) (hne _ (.inr rfl))]
      rfl

end Sys2Proof.Machine
end

section
/-! SUPPORT. The Saucer at a deadline and its standstill (07_selection_and_commit.md R199, 14_safety_concept.md R320, R322, 02_blend.md
R65). -/

namespace Sys2Proof.Machine

set_option Elab.async false

variable (s : State)

/-! ### One mechanism of the warden -/

/-- Mechanisms that differ in their accepted pairs alone. -/
theorem WMech.fields_of_bare {x y : WMech} (h : x.bare = y.bare) : x.held = y.held ∧ x.issued = y.issued ∧ x.cause = y.cause ∧ x.cat = y.cat
    ∧ x.atRest = y.atRest ∧ x.s1At = y.s1At :=
  ⟨(congrArg WMech.held h : x.bare.held = y.bare.held), (congrArg WMech.issued h : x.bare.issued = y.bare.issued),
    (congrArg WMech.cause h : x.bare.cause = y.bare.cause), (congrArg WMech.cat h : x.bare.cat = y.bare.cat),
    (congrArg WMech.atRest h : x.bare.atRest = y.bare.atRest), (congrArg WMech.s1At h : x.bare.s1At = y.bare.s1At)⟩

theorem State.lt_of_wm_ne {m : Nat} (h : s.wm m ≠ {}) : m < s.warden.mechs.length := by
  by_contra hlen
  exact h (List.getD_eq_default _ _ (by omega))

/-- A record that takes force leaves the hold (R201). -/
theorem State.roll_wm (m t k : Nat) : ((s.roll m t).wm k).held = (s.wm k).held := by
  unfold State.roll
  dsimp only
  split
  · split
    · by_cases hk : k = m
      · subst hk
        by_cases hlen : k < s.warden.mechs.length
        · rw [s.setWm_wm_same _ hlen]
        · rw [State.wm, List.getD_eq_default _ _ (by rw [State.setWm_mechs_length]; omega), State.wm, List.getD_eq_default _ _ (by omega)]
      · rw [s.setWm_wm_of_ne _ hk]
    · rfl
  · rfl

theorem State.roll_keeps (m t : Nat) : (s.roll m t).keeps s [.warden] := by
  unfold State.roll
  dsimp only
  split
  · exact State.keeps_ite (s.setWm_keeps _ _) (s.keeps_refl _)
  · exact s.keeps_refl _

theorem State.roll_mechs_length (m t : Nat) : (s.roll m t).warden.mechs.length = s.warden.mechs.length := by
  unfold State.roll
  dsimp only
  split
  · split
    · exact State.setWm_mechs_length _ _ _
    · rfl
  · rfl

theorem State.roll_base (m t : Nat) : (s.roll m t).warden.base = s.warden.base := by
  unfold State.roll
  dsimp only
  split
  · split <;> rfl
  · rfl

/-- A latch covers a mechanism by the latched inputs and the enabling device alone. -/
theorem State.latched_congr {u s : State} (hloader : u.loader = s.loader) (hbase : u.warden.base = s.warden.base) (m : Nat) :
    u.latched m = s.latched m := by
  have hlat : u.warden.estopLat = s.warden.estopLat := (congrArg Warden.estopLat hbase : u.warden.base.estopLat = s.warden.base.estopLat)
  have hmid : u.warden.enMid = s.warden.enMid := (congrArg Warden.enMid hbase : u.warden.base.enMid = s.warden.base.enMid)
  simp only [State.latched, State.estopOk, State.sglob, State.msafe, State.cfg, hloader, hlat, hmid]

/-- The Saucer of a mechanism that nothing holds (R202, R320). -/
theorem State.issue_fresh {m : Nat} (cause cat stamp : Nat) (hfree : s.held m = false) (hlen : m < s.warden.mechs.length) :
    ((s.issue m cause cat stamp).wm m).issued = true ∧ ((s.issue m cause cat stamp).wm m).cause = cause
      ∧ ((s.issue m cause cat stamp).wm m).cat = cat := by
  have hafter : ∃ x : WMech, x.issued = true ∧ x.cause = cause ∧ x.cat = cat ∧
      (s.issue m cause cat stamp).keeps (s.setWm m x) [.regs, .ints, .tdcSeen] := by
    have hdrop (v : State) (c : Prop) [Decidable c] : (if c then v.dropOuts m else v).keeps v [.regs, .ints, .tdcSeen] :=
      State.keeps_ite (v.dropOuts_keeps m).widen (v.keeps_refl _)
    have hcharge (v : State) : (v.chargeSub m stamp).keeps v [.regs, .ints, .tdcSeen] := by
      unfold State.chargeSub
      split
      · exact v.tdc_keeps _ _ _
      · exact v.keeps_refl _
    unfold State.issue
    rw [if_neg (by rw [hfree]; decide)]
    extract_lets same t0 set2 counted charged
    have hcounted : counted.keeps set2 [.regs, .ints, .tdcSeen] := (set2.inc_keeps _ _).widen
    have hcharged : charged.keeps set2 [.regs, .ints, .tdcSeen] :=
      State.keeps_ite hcounted (State.keeps_trans (hcharge _) ((State.inc_keeps _ _ _).after hcounted))
    exact ⟨{ s.wm m with
        cur := s.inForce m stamp, next := none, held := true, issued := true, t0, iss := stamp, cat, cause,
        drives := if same then (s.wm m).drives else none, causes := 2 ^ cause, atRest := false, commanded := cause == 13,
        s1At := if cat = 1 then some (stamp + 2000 * s.tHalf m) else none }, rfl, rfl, rfl,
      State.keeps_trans (hdrop charged _) hcharged⟩
  obtain ⟨x, hi, hc, hcat, hkeeps⟩ := hafter
  have hx := s.setWm_wm_same x hlen
  have hwm := hkeeps.wm m
  rw [hx] at hwm
  obtain ⟨-, h1, h2, h3, -, -⟩ := WMech.fields_of_bare hwm
  exact ⟨h1.trans hi, h2.trans hc, h3.trans hcat⟩

/-- A trigger for one mechanism of the configuration. -/
theorem State.trigger_one {m : Nat} (cause stamp : Nat) (hdef : (s.mech? m).isSome = true) :
    s.trigger cause stamp [m] none =
      (s.triggered cause stamp [m]).issue m cause ((s.triggered cause stamp [m]).msafe m).cat (tick stamp) := by
  rw [State.trigger_eq]
  simp [hdef]

theorem State.trigger_trigMechs_one {m : Nat} (cause stamp : Nat) (hdef : (s.mech? m).isSome = true) (cat : Option Nat) :
    (s.trigger cause stamp [m] cat).warden.trigMechs = 2 ^ m := by
  have hq := s.trigger_quiet cause stamp [m] cat
  generalize (s.trigger cause stamp [m] cat).warden = w at hq
  refine (congrArg Warden.trigMechs hq : w.quiet.trigMechs = (s.triggerSet cause stamp [m]).warden.quiet.trigMechs).trans ?_
  change maskOf ([m].filter fun m => (s.mech? m).isSome) = _
  simp [hdef, maskOf, List.eraseDups_cons]

variable {s} in
theorem State.finish_trigMechs (h : s.dev.fall = none) : s.finish.warden.trigMechs = s.warden.trigMechs := by
  have hq := State.finish_quiet h
  generalize s.finish.warden = w at hq
  generalize s.warden = v at hq
  exact (congrArg Warden.trigMechs hq : w.quiet.trigMechs = v.quiet.trigMechs)

variable {s} in
theorem State.finish_bare (h : s.dev.fall = none) (k : Nat) : (s.finish.wm k).bare = (s.wm k).bare := (s.finish_keeps h).wm k

/-! ### A partition stopped -/

/-- What stops with a partition beside its run state: its tasks and its pairs. -/
def State.disarmed (s : State) (p : Nat) : State :=
  ((s.pcfg p).mechs.map (·.num)).foldl State.dropOuts { s with sched := s.sched.map fun (d : SchedDie) => d.disarm p }

/-- The run state of a partition that is stopped. -/
def State.stopRun (s : State) (p : Nat) : State :=
  (s.setPRun p { s.prun p with
    lastFrame := none, issued := false, resetting := false, opened := 0, commit := none, started := false }).setPSt p .stopped

theorem State.stopped_eq (p : Nat) : s.stopped p =
    if ((s.disarmed p).stopRun p).master = some p then
      ((((s.disarmed p).stopRun p).newInterval 0 ((s.disarmed p).stopRun p).time)).newInterval 1 ((s.disarmed p).stopRun p).time
    else (s.disarmed p).stopRun p := rfl

theorem State.disarmed_keeps (p : Nat) : (s.disarmed p).keeps s [.sched] :=
  State.keeps_foldl (fun v m => (v.dropOuts_keeps m).widen) ((State.keeps_iff _ _ _).mpr (by simp)) _

theorem State.stopRun_keeps (p : Nat) : (s.stopRun p).keeps s [.parts, .regs, .ints] :=
  (State.setPSt_keeps _ _ _).after (s.setPRun_keeps _ _).widen

theorem State.stopRun_st {p : Nat} (h : p < s.parts.length) : ((s.stopRun p).prun p).st = .stopped := by
  rw [State.stopRun, State.setPSt_prun_same _ _ (by rwa [State.setPRun_parts_length])]

theorem State.stopped_keeps (p : Nat) : (s.stopped p).keeps s [.sched, .parts, .regs, .ints, .rots] := by
  have hrun : ((s.disarmed p).stopRun p).keeps s [.sched, .parts, .regs, .ints, .rots] :=
    (State.stopRun_keeps _ _).after (s.disarmed_keeps p).widen
  rw [State.stopped_eq]
  exact State.keeps_ite ((State.newInterval_keeps _ _ _).after ((State.newInterval_keeps _ _ _).after hrun)) hrun

theorem State.stopped_st {p : Nat} (h : p < s.parts.length) : ((s.stopped p).prun p).st = .stopped := by
  have hst := (s.disarmed p).stopRun_st (p := p) (by rw [s.disarmed_keeps p .parts (by decide)]; exact h)
  have hint (v : State) (t : Nat) : ((v.newInterval 0 t).newInterval 1 t).prun p = v.prun p :=
    congrArg (fun l : List PRun => l.getD p {})
      (((State.newInterval_keeps _ _ _).after (v.newInterval_keeps 0 t) : State.keeps _ v [.rots]) .parts (by decide))
  rw [State.stopped_eq]
  split
  · rw [hint, hst]
  · exact hst

theorem State.stopCheck_keeps (p : Nat) : (s.stopCheck p).keeps s [.sched, .parts, .regs, .ints, .rots] :=
  State.keeps_ite (s.stopped_keeps p) (s.keeps_refl _)

/-! ### The commands -/

/-- The Saucer of a mechanism run to standstill, its pairs dropped for category 1 (R322, R324). -/
def State.standstill (s : State) (m : Nat) (w : WMech) : State :=
  if w.s1At.isSome then (s.setWm m { w with atRest := true, s1At := none }).dropOuts m else s.setWm m { w with atRest := true, s1At := none }

theorem State.standstill_after (m : Nat) (w : WMech) : (s.standstill m w).keeps (s.setWm m { w with atRest := true, s1At := none }) [] :=
  State.keeps_ite (State.dropOuts_keeps _ _) (State.keeps_refl _ _)

theorem exec_standstill {s : State} {m : Nat} {q : PartCfg} {mc : Mech} (hdef : s.mech? m = some (q, mc)) (hi : (s.wm m).issued = true)
    (hr : (s.wm m).atRest = false) : exec (.standstill m) s =
      .next (((s.at ((s.wm m).iss + 2000 * s.tHalf m)).standstill m (s.wm m)).stopCheck q.num).finish := by
  change execStandstill m s = _
  unfold execStandstill
  dsimp only
  rw [hdef]
  dsimp only
  rw [if_pos ⟨hi, by rw [hr]; rfl⟩]
  rfl

/-- Settles O27. -/
theorem deadlineAndStandstill : Obligations.DeadlineAndStandstill := by
  refine ⟨fun m s r hcalm hlast hdef => ?_, fun m s q mc hcalm hdef hissued hrest => ?_⟩
  · intro t
    have hlen : m < s.warden.mechs.length := s.lt_of_wm_ne fun h => by
      rw [State.lastRec, h] at hlast
      exact absurd hlast (by simp)
    by_cases hgo : s.time ≤ t ∧ (s.wm m).held = false
    · let v := (s.at t).roll m t
      let u := v.trigger 1 t [m]
      have hv : v.keeps (s.at t) [.warden] := (s.at t).roll_keeps m t
      have hkeeps : u.keeps (s.at t) [.warden, .regs, .ints, .errs, .fresh, .mem, .tdcSeen] :=
        State.keeps_trans (v.trigger_keeps _ _ _ _).widen hv.widen
      have hfall : u.dev.fall = none := hkeeps.calm (s.at_calm t hcalm)
      have hloader : v.loader = s.loader := (hv .loader (by decide)).trans (s.at_loader t)
      have hvdef : (v.mech? m).isSome = true := by rwa [State.mech?_congr hloader]
      have hvlen : m < v.warden.mechs.length := by rw [State.roll_mechs_length, State.at_warden]; exact hlen
      have hvheld (k : Nat) : (v.wm k).held = (s.wm k).held := by rw [(s.at t).roll_wm m t k, State.at_wm]
      have hexec : exec (.deadline m) s = .next u.finish := by
        change execDeadline m s = _
        unfold execDeadline
        rw [hlast]
        dsimp only
        rw [if_pos ⟨hdef, hgo.1, by rw [hgo.2]; rfl⟩]
        rfl
      refine ⟨u.finish, hexec, ?_⟩
      rw [if_pos hgo]
      refine ⟨?_, fun hlat => ?_, ?_, ?_, ?_, fun n hn => ?_, State.finish_keeps_of hfall hkeeps⟩
      · rw [State.finish_held hfall]
        exact v.trigger_held (by simp) hvdef hvlen
      · let w := v.triggered 1 t [m]
        have hwb : w.warden.base = s.warden.base := by
          rw [v.triggered_warden]
          exact ((s.at t).roll_base m t).trans (congrArg Warden.base (s.at_warden t))
        have hwl : w.loader = s.loader := ((v.triggerSet_keeps 1 t [m]) .loader (by decide)).trans hloader
        have hwheld : w.held m = false := by
          rw [State.held, v.triggered_wm, hvheld, hgo.2, State.latched_congr hwl hwb, hlat]
          rfl
        have hwlen : m < w.warden.mechs.length := by
          rw [v.triggered_warden]
          exact hvlen
        have hu : u = w.issue m 1 (w.msafe m).cat (tick t) := v.trigger_one 1 t hvdef
        have hcat : (w.msafe m).cat = (s.msafe m).cat := by rw [State.msafe, State.cfg, hwl, State.msafe, State.cfg]
        obtain ⟨hi, hc, hk⟩ := w.issue_fresh 1 (w.msafe m).cat (tick t) hwheld hwlen
        rw [← hu] at hi hc hk
        obtain ⟨-, h1, h2, h3, -, -⟩ := WMech.fields_of_bare (State.finish_bare hfall m)
        exact ⟨h1.trans hi, h2.trans hc, (h3.trans hk).trans hcat⟩
      · rw [State.finish_trigCause hfall]
        exact v.trigger_trigCause _ _ _ _
      · rw [State.finish_trigMechs hfall]
        exact v.trigger_trigMechs_one 1 t hvdef none
      · rw [State.finish_trigTime hfall]
        exact v.trigger_trigTime _ _ _ _
      · rw [State.finish_held hfall, ← hvheld n]
        have hbare := v.trigger_wm_of_not_mem (cause := 1) (stamp := t) (ms := [m]) (cat := none) (k := n) (by simpa using hn)
        exact (WMech.fields_of_bare hbare).1
    · have hexec : exec (.deadline m) s = .next s.finish := by
        change execDeadline m s = _
        unfold execDeadline
        rw [hlast]
        dsimp only
        rw [if_neg fun h => hgo ⟨h.2.1, by simpa using h.2.2⟩]
        rfl
      refine ⟨s.finish, hexec, ?_⟩
      rw [if_neg hgo]
      exact s.finish_keeps hcalm
  · let a := s.at ((s.wm m).iss + 2000 * s.tHalf m)
    let x : WMech := { s.wm m with atRest := true, s1At := none }
    let v := a.standstill m (s.wm m)
    let u := v.stopCheck q.num
    have hlen : m < a.warden.mechs.length := by
      rw [State.at_warden]
      exact s.lt_of_wm_ne fun h => by rw [h] at hissued; exact absurd hissued (by decide)
    have hva : v.keeps (a.setWm m x) [] := a.standstill_after m (s.wm m)
    have hv : v.keeps a [.warden] := State.keeps_trans hva.widen (a.setWm_keeps m x)
    have hu : u.keeps v [.sched, .parts, .regs, .ints, .rots] := v.stopCheck_keeps q.num
    have hkeeps : u.keeps a [.warden, .sched, .parts, .regs, .ints, .rots] := State.keeps_trans hu.widen hv.widen
    have hfall : u.dev.fall = none := hkeeps.calm (s.at_calm _ hcalm)
    have hbare (k : Nat) : (u.finish.wm k).bare = ((a.setWm m x).wm k).bare :=
      (State.finish_bare hfall k).trans ((hu.wm k).trans (hva.wm k))
    have hm := hbare m
    rw [a.setWm_wm_same x hlen] at hm
    have hprun (p : Nat) : v.prun p = s.prun p := by
      rw [State.prun, hv .parts (by decide), ← State.prun, State.at_prun]
    obtain ⟨hmheld, -, -, -, hmrest, hms1⟩ := WMech.fields_of_bare hm
    refine ⟨u.finish, exec_standstill hdef hissued hrest, hmrest, hms1, hmheld,
      (State.finish_time _ hfall).trans (hkeeps .time (by decide)), fun ⟨hni, hnr⟩ => ?_, fun hst hstop hheld hall => ?_⟩
    · have hno : u = v := if_neg fun h => by
        rw [hprun, hni, hnr] at h
        exact absurd h.2.1 (by decide)
      rw [hno] at hfall ⊢
      exact State.finish_keeps_of hfall hv
    · have hpl : q.num < v.parts.length := by
        by_contra h
        have := hprun q.num
        rw [State.prun_of_length_le _ (by omega)] at this
        rw [← this] at hst
        exact absurd hst (by decide)
      have hatrest : v.atRest q.num = true := by
        have hpc : v.pcfg q.num = s.pcfg q.num := by
          rw [State.pcfg, State.cfg, hv .loader (by decide), State.at_loader, State.pcfg, State.cfg]
        rw [State.atRest, hpc, List.all_eq_true]
        intro y hy
        have hvw := hva.wm y.num
        by_cases hym : y.num = m
        · rw [hym, a.setWm_wm_same x hlen] at hvw
          rw [hym, Bool.and_eq_true]
          obtain ⟨h1, -, -, -, h2, -⟩ := WMech.fields_of_bare hvw
          exact ⟨h1.trans hheld, h2⟩
        · rw [a.setWm_wm_of_ne x hym, State.at_wm] at hvw
          obtain ⟨h1, h2⟩ := (hall y hy).resolve_left hym
          obtain ⟨k1, -, -, -, k2, -⟩ := WMech.fields_of_bare hvw
          rw [Bool.and_eq_true]
          exact ⟨k1.trans h1, k2.trans h2⟩
      have hyes : u = v.stopped q.num := if_pos ⟨by rw [hprun]; exact hst, by rw [hprun]; exact hstop, hatrest⟩
      rw [State.finish_prun hfall, hyes]
      exact v.stopped_st hpl

end Sys2Proof.Machine
end

section
/-! SUPPORT. Slots of the cores: admission, fetch and the sweep engine's entry (04_candidate_generation.md R110 to R118, R142 to R144,
10_task_scheduling.md R250, R251). -/

namespace Sys2Proof.Machine

set_option Elab.async false

variable (s : State)

/-! ### Counters -/

theorem State.wr_with (o : Nat) (x : Word) : ∃ r, s.wr o x = { s with regs := r } := ⟨_, rfl⟩

theorem State.inc_with (o n : Nat) : ∃ r, s.inc o n = { s with regs := r } := by
  unfold State.inc
  split
  · exact ⟨_, rfl⟩
  · exact s.wr_with _ _

theorem State.add64_with (o n : Nat) : ∃ r, s.add64 o n = { s with regs := r } := by
  unfold State.add64
  split
  · exact ⟨_, rfl⟩
  · exact ⟨_, rfl⟩

/-! ### Slots -/

theorem CoreSt.slot_n {c : CoreSt} {n : Nat} {x : CSlot} (h : c.slot n = some x) : x.n = n := by
  have := List.find?_some h
  simpa using this

theorem State.core_lt_of_slot {k n : Nat} {x : CSlot} (h : (s.core k).slot n = some x) : k < s.cores.length := by
  by_contra hk
  rw [State.core, List.getD_eq_default _ _ (by omega)] at h
  exact absurd h (by simp [CoreSt.slot])

theorem State.setCore_core_same {k : Nat} (c : CoreSt) (h : k < s.cores.length) : (s.setCore k c).core k = c := getD_listSet_same _ _ h

@[simp] theorem State.setCore_length (k : Nat) (c : CoreSt) : (s.setCore k c).cores.length = s.cores.length := length_listSet _ _ _

/-- The first slot of a number, once every slot of that number is replaced. -/
theorem find?_map_replace {l : List CSlot} {x y : CSlot} {n : Nat} (h : l.find? (·.n == n) = some y) (hx : x.n = n) :
    (l.map fun z => if z.n = x.n then x else z).find? (·.n == n) = some x := by
  induction l with
  | nil => exact absurd h (by simp)
  | cons z r ih =>
    rw [List.map_cons]
    by_cases hz : z.n = n
    · rw [if_pos (hz.trans hx.symm), List.find?_cons_of_pos (by simpa using hx)]
    · rw [List.find?_cons_of_neg (by simpa using hz)] at h
      rw [if_neg (by rwa [hx]), List.find?_cons_of_neg (by simpa using hz), ih h]

theorem State.setSlot_slot {k n : Nat} {x y : CSlot} (h : (s.core k).slot n = some y) (hx : x.n = n) : ((s.setSlot k x).core k).slot n = some x := by
  rw [State.setSlot, s.setCore_core_same _ (s.core_lt_of_slot h)]
  exact find?_map_replace h hx

theorem State.setSlot_keeps (k : Nat) (x : CSlot) : (s.setSlot k x).keeps s [.cores] := s.setCore_keeps _ _

theorem State.freeSlot_keeps (k n : Nat) : (s.freeSlot k n).keeps s [.cores] := s.setCore_keeps _ _

theorem State.freeSlot_slot (k n : Nat) : ((s.freeSlot k n).core k).slot n = none := by
  rw [State.freeSlot]
  refine s.setCore_core_of (fun c => c.slot n = none) ?_ fun _ => rfl
  rw [CoreSt.slot, List.find?_eq_none]
  intro x hx
  simpa using (List.mem_filter.mp hx).2

/-! ### Verdicts -/

theorem State.countVerdict_with (k : Nat) (v : Verdict) : ∃ r, s.countVerdict k v = { s with regs := r } := by
  have hfold (l : List (Nat × Nat)) (u : State) : ∃ r, l.foldl (fun s e => if v.has e.1 then s.inc e.2 else s) u = { u with regs := r } := by
    induction l generalizing u with
    | nil => exact ⟨_, rfl⟩
    | cons e r ih =>
      have hstep : ∃ x, (if v.has e.1 then u.inc e.2 else u) = { u with regs := x } := by
        split
        · exact u.inc_with _ _
        · exact ⟨_, rfl⟩
      obtain ⟨a, ha⟩ := hstep
      obtain ⟨b, hb⟩ := ih { u with regs := a }
      exact ⟨b, by rw [List.foldl_cons, ha, hb]⟩
  obtain ⟨a, ha⟩ := s.add64_with (Reg.prbVerdictLo (k / 64)) 1
  obtain ⟨b, hb⟩ := hfold _ { s with regs := a }
  exact ⟨b, by rw [State.countVerdict, ha, hb]⟩

theorem State.countVerdict_keeps (k : Nat) (v : Verdict) : (s.countVerdict k v).keeps s [.regs] := by
  obtain ⟨r, h⟩ := s.countVerdict_with k v
  rw [h]
  exact (State.keeps_iff _ _ _).mpr (by simp)

/-- The counters of a verdict stand on the dispatching die; a register outside them stands. -/
theorem State.countVerdict_rd {k o : Nat} (v : Verdict)
    (h : o ∉ [Reg.prbVerdictLo (k / 64), Reg.prbVerdictLo (k / 64) + 4, Reg.prbCollidedCount (k / 64), Reg.prbTruncCount (k / 64), Reg.prbCapCount (k / 64),
      Reg.prbPlanStale (k / 64), Reg.prbPoisonCount (k / 64), Reg.prbNearCount (k / 64)]) : (s.countVerdict k v).rd o = s.rd o := by
  have hfold (l : List (Nat × Nat)) (u : State) (hl : ∀ e ∈ l, o ≠ e.2) :
      (l.foldl (fun s e => if v.has e.1 then s.inc e.2 else s) u).rd o = u.rd o := by
    induction l generalizing u with
    | nil => rfl
    | cons e r ih =>
      rw [List.foldl_cons, ih _ fun e he => hl e (List.mem_cons_of_mem _ he)]
      split
      · exact u.rd_inc_ne _ _ _ (hl e List.mem_cons_self)
      · rfl
  simp only [List.mem_cons, List.not_mem_nil, or_false, not_or] at h
  obtain ⟨h1, h2, h3, h4, h5, h6, h7, h8⟩ := h
  rw [State.countVerdict, hfold _ _ (by simp [*]), State.add64_rd_ne _ _ h1 h2]

theorem State.writeVerdict_keeps (k : Nat) (x : CSlot) (v : Verdict) : (s.writeVerdict k x v).keeps s [.cores, .regs] :=
  ((s.setSlot k _).countVerdict_keeps k v).after (s.setSlot_keeps k _).widen

theorem State.writeVerdict_slot {k n : Nat} {x y : CSlot} (v : Verdict) (h : (s.core k).slot n = some y) (hx : x.n = n) :
    ((s.writeVerdict k x v).core k).slot n = some { x with ph := .done, verdict := v } := by
  rw [State.writeVerdict, State.core, (State.countVerdict_keeps _ k v) .cores (by decide)]
  exact s.setSlot_slot h hx

/-! ### Poison consumed -/

/-- The record of a class N error that counts against nothing. -/
theorem State.event_plain {e : EventIn} (ref : Nat) (hkey : countKey { e with t := tick e.t } = none)
    (hkind : e.kind ∉ [ekUNATTRIB, ekLINK_DOWN, ekECC_UE]) : s.event e ref = s.log (plainRec e ref) := by
  simp only [List.mem_cons, List.not_mem_nil, or_false, not_or] at hkind
  obtain ⟨hun, hdown, hue⟩ := hkind
  rw [s.event_of_uncounted ref hkey hun, if_neg]
  exact fun h => h.elim hdown fun h => hue h.1

theorem State.event_plain_keeps {e : EventIn} (ref : Nat) (hkey : countKey { e with t := tick e.t } = none)
    (hkind : e.kind ∉ [ekUNATTRIB, ekLINK_DOWN, ekECC_UE]) : (s.event e ref).keeps s [.fresh, .errs, .mem, .regs, .ints] := by
  rw [s.event_plain ref hkey hkind]
  exact s.log_keeps _

theorem countKey_poison {kind : Nat} (h : kind = ekSWP_POISON ∨ kind = ekPOISON) (unit addr cls op t : Nat) :
    countKey { kind, unit, addr, cls, op, t } = none := by
  rcases h with rfl | rfl <;> rfl

theorem State.consume_keeps {k kind addr cls op : Nat} (h : kind = ekSWP_POISON ∨ kind = ekPOISON) :
    (s.consume k kind addr cls op).keeps s [.regs, .ints, .errs, .fresh, .mem] := by
  refine (State.event_plain_keeps _ 0 (countKey_poison h _ _ _ _ _) ?_).after (m := [.regs, .ints, .errs, .fresh, .mem]) (s.inc_keeps _ 1).widen
  rcases h with rfl | rfl <;> simp [ekSWP_POISON, ekPOISON, ekUNATTRIB, ekLINK_DOWN, ekECC_UE]

end Sys2Proof.Machine
end

section
/-! SUPPORT. PRIMITIVE_FETCH and SWEEP_ENTRY (04_candidate_generation.md R104, R111 to R118, R142, R144). -/

namespace Sys2Proof.Machine

set_option Elab.async false

variable (s : State)

theorem State.setCore_rd (k o : Nat) (c : CoreSt) : (s.setCore k c).rd o = s.rd o := rfl

/-! ### The lines of a slot -/

/-- What a poisoned line does before the verdict (R118). -/
def State.fetchPoison (s : State) (k : Nat) (x : CSlot) : State :=
  ((s.inc (Reg.swpPoisonCount (k / 64))).consume k ekSWP_POISON x.addr x.cls (x.candId * 16384 + x.ctx)).tdc x.item.part x.frame 7

theorem State.fetched_eq (k : Nat) (x : CSlot) : s.fetched k x =
    if x.hand.isNone && s.poisoned x.addr (64 * x.lines) then (s.fetchPoison k x).forceVerdict k { x with poison := true } vfPOISON
    else s.setSlot k { x with ph := .bind } := rfl

theorem State.fetchPoison_keeps (k : Nat) (x : CSlot) : (s.fetchPoison k x).keeps s [.regs, .ints, .errs, .fresh, .mem, .tdcSeen] :=
  (State.tdc_keeps _ _ _ _).after ((State.consume_keeps _ (.inl rfl)).after (m := [.regs, .ints, .errs, .fresh, .mem, .tdcSeen]) (s.inc_keeps _ 1).widen)

/-- A frame without the cores leaves every core. -/
theorem State.keeps.core {u s : State} {l : List Piece} (h : u.keeps s l) (k : Nat) (hl : .cores ∉ l := by decide) : u.core k = s.core k := by
  rw [State.core, h .cores hl, State.core]

theorem exec_primitiveFetch {s : State} {core slot : Nat} {x : CSlot} (t : Nat) (hrun : s.coreRuns core = true)
    (hslot : (s.core core).slot slot = some x) (hph : x.ph = .fetch) : exec (.primitiveFetch core slot t) s =
      .next (if (s.core core).fetchesBefore x then s.at t else (s.at t).fetched core x).finish := by
  change execPrimitiveFetch core slot t s = _
  have hcore : (s.at t).core core = s.core core := State.at_core _ _ _
  have hrun' : (s.at t).coreRuns core = true := by
    obtain ⟨_, _, _, _, _, h⟩ := s.at_with t
    rw [h]
    exact hrun
  unfold execPrimitiveFetch
  dsimp only
  rw [hcore, hslot]
  dsimp only
  by_cases hb : (s.core core).fetchesBefore x = true
  · rw [if_neg fun h => by rw [hb] at h; exact absurd h.2.2 (by decide), if_pos hb]
    rfl
  · rw [if_pos ⟨hrun', hph, by simpa using hb⟩, if_neg hb]
    rfl

theorem primitiveFetch_slots (core slot t : Nat) (s : State) (x : CSlot) (hcalm : s.calm) (hrun : s.coreRuns core = true)
    (hslot : (s.core core).slot slot = some x) (hph : x.ph = .fetch) : ∃ u, exec (.primitiveFetch core slot t) s = .next u ∧
      if (s.core core).fetchesBefore x then u.keeps (s.at t) []
      else if x.hand.isNone && (s.at t).poisoned x.addr (64 * x.lines) then
        (u.core core).slot slot = some { x with poison := true, ph := .done, verdict := forcedVerdict vfPOISON x.candId x.ctx x.epoch x.extra }
          ∧ u.keeps (s.at t) [.cores, .regs, .ints, .errs, .fresh, .mem, .tdcSeen]
      else (u.core core).slot slot = some { x with ph := .bind } ∧ u.keeps (s.at t) [.cores] := by
  refine ⟨_, exec_primitiveFetch t hrun hslot hph, ?_⟩
  have hcalm' := s.at_calm t hcalm
  have hat : ((s.at t).core core).slot slot = some x := by rwa [State.at_core]
  by_cases hb : (s.core core).fetchesBefore x = true
  · rw [if_pos hb, if_pos hb]
    exact ((s.at t).keeps_refl _).finish hcalm'
  · rw [if_neg hb, if_neg hb, State.fetched_eq]
    split
    · have hp := (s.at t).fetchPoison_keeps core x
      have hk : (((s.at t).fetchPoison core x).forceVerdict core { x with poison := true } vfPOISON).keeps (s.at t)
          [.cores, .regs, .ints, .errs, .fresh, .mem, .tdcSeen] :=
        (State.writeVerdict_keeps _ _ _ _).after hp.widen
      refine ⟨?_, hk.finish hcalm'⟩
      rw [State.finish_core (hk.calm hcalm')]
      exact State.writeVerdict_slot _ _ (by rwa [hp.core]) (show x.n = slot from CoreSt.slot_n hslot)
    · have hk : ((s.at t).setSlot core { x with ph := .bind }).keeps (s.at t) [.cores] := State.setSlot_keeps _ _ _
      refine ⟨?_, hk.finish hcalm'⟩
      rw [State.finish_core (hk.calm hcalm')]
      exact State.setSlot_slot _ hat (show x.n = slot from CoreSt.slot_n hslot)

/-! ### The sweep engine -/

theorem exec_sweepEntry {s : State} {core slot : Nat} {x : CSlot} {m : Mech} (t : Nat) (hslot : (s.core core).slot slot = some x)
    (hm : (s.pcfg x.item.part).mechOf x.ctx = some m) {u : State}
    (h : (if !((s.at t).coreRuns core) || decide (x.ph ≠ SlotPh.bind) || (s.at t).slicing (core / 64) (core % 64) then s.at t
     else if x.staleHand then ((s.at t).inc (Reg.swpStaleHandoff (core / 64))).freeSlot core slot
     else if (x.confirms || (s.at t).bound x.ctx x.frame) && ((s.at t).prun x.item.part).plan
         && decide (((s.core core).slots.filter fun (y : CSlot) => decide (y.ph = SlotPh.check)).length ≤ 1)
         && (x.cls == clsS || !((s.core core).slots.any fun y => decide (y.ph = SlotPh.bind) && y.cls == clsS && (y.confirms || (s.at t).bound y.ctx y.frame))) then
       (s.at t).swept core x m
     else s.at t) = u) : exec (.sweepEntry core slot t) s = .next u.finish := by
  change execSweepEntry core slot t s = _
  have hcore : (s.at t).core core = s.core core := State.at_core _ _ _
  have hpc : (s.at t).pcfg x.item.part = s.pcfg x.item.part := State.at_pcfg _ _ _
  unfold execSweepEntry
  dsimp only
  rw [hcore, hslot]
  simp only [Option.bind_some, hpc, hm]
  rw [← h]
  rfl

theorem State.at_slicing (t d pos : Nat) : (s.at t).slicing d pos = s.slicing d pos := by rw [State.slicing, State.at_rots, State.slicing]

theorem State.at_coreRuns (t k : Nat) : (s.at t).coreRuns k = s.coreRuns k := by
  obtain ⟨_, _, _, _, _, h⟩ := s.at_with t
  rw [h]
  rfl

theorem sweepEntry_slicing (core slot t : Nat) (s : State) (hcalm : s.calm) (hslice : s.slicing (core / 64) (core % 64) = true) :
    ∃ u, exec (.sweepEntry core slot t) s = .next u ∧ u.keeps (s.at t) [] := by
  refine ⟨(s.at t).finish, ?_, ((s.at t).keeps_refl _).finish (s.at_calm t hcalm)⟩
  have hsl : (s.at t).slicing (core / 64) (core % 64) = true := by rwa [State.at_slicing]
  change execSweepEntry core slot t s = _
  unfold execSweepEntry
  dsimp only
  split
  · rw [hsl, Bool.or_true, if_pos rfl]
    rfl
  · rfl

theorem sweepEntry_stale (core slot t : Nat) (s : State) (x : CSlot) (m : Mech) (hcalm : s.calm) (hrun : s.coreRuns core = true)
    (hslot : (s.core core).slot slot = some x) (hm : (s.pcfg x.item.part).mechOf x.ctx = some m) (hph : x.ph = .bind)
    (hslice : s.slicing (core / 64) (core % 64) = false) (hstale : x.staleHand = true) :
    ∃ u, exec (.sweepEntry core slot t) s = .next u ∧ (u.core core).slot slot = none
      ∧ u.rd (Reg.swpStaleHandoff (core / 64)) = satAdd ((s.at t).rd (Reg.swpStaleHandoff (core / 64))) 1
      ∧ u.regsAs (s.at t) [Reg.swpStaleHandoff (core / 64)] ∧ u.keeps (s.at t) [.cores, .regs] := by
  have hcalm' := s.at_calm t hcalm
  let v := (s.at t).inc (Reg.swpStaleHandoff (core / 64))
  have hk : (v.freeSlot core slot).keeps (s.at t) [.cores, .regs] := (State.freeSlot_keeps _ _ _).after ((s.at t).inc_keeps _ 1).widen
  have hf := hk.calm hcalm'
  refine ⟨(v.freeSlot core slot).finish, exec_sweepEntry t hslot hm ?_, ?_, ?_, fun o ho => ?_, hk.finish hcalm'⟩
  · rw [State.at_coreRuns, hrun, State.at_slicing, hslice, hph, if_neg (by decide), if_pos hstale]
  · rw [State.finish_core hf]
    exact v.freeSlot_slot core slot
  · rw [State.finish_rd _ hf]
    rw [State.freeSlot, State.setCore_rd, State.rd_inc_same]
  · rw [State.finish_rd _ hf]
    rw [State.freeSlot, State.setCore_rd, State.rd_inc_ne _ _ _ _ (by simpa using ho)]

theorem State.countIssue_with (k : Nat) (m : Mech) : ∃ r, s.countIssue k m =
    { s.setCore k { s.core k with ops := (issueCycles (s.core k).ops (8 * laneOps m)).2 } with regs := r } := by
  generalize hv : s.setCore k { s.core k with ops := (issueCycles (s.core k).ops (8 * laneOps m)).2 } = v
  have hthree (n : Nat) : ∃ r, ((v.add64 (Reg.swpCandLo (k / 64)) 1).add64 (Reg.swpCoreCandLo k) 1).add64 (Reg.swpCoreIssueLo k) n = { v with regs := r } := by
    obtain ⟨a, ha⟩ := v.add64_with (Reg.swpCandLo (k / 64)) 1
    obtain ⟨b, hb⟩ := ({ v with regs := a } : State).add64_with (Reg.swpCoreCandLo k) 1
    obtain ⟨c, hc⟩ := ({ v with regs := b } : State).add64_with (Reg.swpCoreIssueLo k) n
    exact ⟨c, by rw [ha, hb, hc]⟩
  obtain ⟨r, hr⟩ := hthree (issueCycles (s.core k).ops (8 * laneOps m)).1
  exact ⟨r, by rw [← hr, ← hv]; rfl⟩

theorem State.countIssue_keeps (k : Nat) (m : Mech) : (s.countIssue k m).keeps s [.cores, .regs] :=
  (State.add64_keeps _ _ _).after ((State.add64_keeps _ _ _).after ((State.add64_keeps _ _ _).after (m := [.cores, .regs]) (s.setCore_keeps _ _).widen))

/-- The sweep engine's count leaves the slots of its core. -/
theorem State.countIssue_slot (k n : Nat) (m : Mech) : ((s.countIssue k m).core k).slot n = (s.core k).slot n := by
  obtain ⟨r, h⟩ := s.countIssue_with k m
  rw [h]
  change ((s.setCore k _).core k).slot n = _
  by_cases hk : k < s.cores.length
  · rw [s.setCore_core_same _ hk]
    rfl
  · have hdef : s.core k = {} := List.getD_eq_default _ _ (by omega)
    have hout : (s.setCore k { s.core k with ops := (issueCycles (s.core k).ops (8 * laneOps m)).2 }).core k = {} :=
      List.getD_eq_default _ _ (by rw [State.setCore_length]; omega)
    rw [hout, hdef]

/-- The counters of the sweep engine leave the limit count. -/
theorem State.countIssue_limit (k : Nat) (m : Mech) : (s.countIssue k m).rd (Reg.swpLimitCount (k / 64)) = s.rd (Reg.swpLimitCount (k / 64)) := by
  rw [State.countIssue]
  have hcore (o : Nat) (ho : o < 0x1000) : Reg.swpLimitCount (k / 64) ≠ Reg.coreBase k + o := by
    simp only [Reg.swpLimitCount, Reg.coreBase]
    omega
  have hcand : Reg.swpLimitCount (k / 64) ≠ Reg.swpCandLo (k / 64) ∧ Reg.swpLimitCount (k / 64) ≠ Reg.swpCandLo (k / 64) + 4 := by
    simp only [Reg.swpLimitCount, Reg.swpCandLo]
    omega
  rw [State.add64_rd_ne (o := Reg.swpCoreIssueLo k) _ _ (hcore 0x10C (by decide)) (hcore 0x110 (by decide)), State.add64_rd_ne (o := Reg.swpCoreCandLo k) _ _ (hcore 0x104 (by decide)) (hcore 0x108 (by decide)),
    State.add64_rd_ne _ _ hcand.1 hcand.2, State.setCore_rd]

/-- A placed candidate's step, where the rules let it in. -/
theorem State.toCheck_eq (k : Nat) (x : CSlot) (m : Mech) : s.toCheck k x m =
    if (s.placeOf { x with ph := .check, at_ := s.time } m).isNone then
      (s.inc (Reg.swpLimitCount (k / 64))).forceVerdict k { x with ph := .check, at_ := s.time } vfLIMIT
    else s.setSlot k { x with ph := .check, at_ := s.time } := rfl

/-- A candidate that enters the tests, or passes straight to the verdict (R118). -/
theorem State.toCheck_slot {k n : Nat} {x y : CSlot} (m : Mech) (hslot : (s.core k).slot n = some y) (hn : x.n = n) :
    (s.toCheck k x m).keeps s [.cores, .regs] ∧
      if (s.placeOf x m).isNone then
        ((s.toCheck k x m).core k).slot n = some { x with ph := .done, at_ := s.time, verdict := forcedVerdict vfLIMIT x.candId x.ctx x.epoch x.extra }
          ∧ (s.toCheck k x m).rd (Reg.swpLimitCount (k / 64)) = satAdd (s.rd (Reg.swpLimitCount (k / 64))) 1
      else ((s.toCheck k x m).core k).slot n = some { x with ph := .check, at_ := s.time } := by
  have hplace : s.placeOf { x with ph := .check, at_ := s.time } m = s.placeOf x m := rfl
  rw [State.toCheck_eq, hplace]
  by_cases hlim : (s.placeOf x m).isNone = true
  · rw [if_pos hlim, if_pos hlim]
    have hinc := s.inc_keeps (Reg.swpLimitCount (k / 64)) 1
    refine ⟨(State.writeVerdict_keeps _ _ _ _).after hinc.widen, State.writeVerdict_slot _ _ (by rwa [hinc.core]) hn, ?_⟩
    rw [State.forceVerdict, State.writeVerdict, State.countVerdict_rd]
    · rw [State.setSlot, State.setCore_rd, State.rd_inc_same]
    · simp only [List.mem_cons, List.not_mem_nil, or_false, not_or, Reg.swpLimitCount, Reg.prbVerdictLo, Reg.prbCollidedCount, Reg.prbTruncCount,
        Reg.prbCapCount, Reg.prbPlanStale, Reg.prbPoisonCount, Reg.prbNearCount]
      omega
  · rw [if_neg hlim, if_neg hlim]
    exact ⟨(s.setSlot_keeps _ _).widen, s.setSlot_slot hslot hn⟩

/-- The candidate as the sweep engine takes it: with its joint values. -/
def State.bindSlot (s : State) (x : CSlot) (m : Mech) : CSlot :=
  if x.confirms then { x with poses := s.confPoses x } else { x with poses := s.posesOf m x, seed := (s.padSeed m x).2 }

theorem State.bindSlot_n (x : CSlot) (m : Mech) : (s.bindSlot x m).n = x.n := by
  unfold State.bindSlot
  split <;> rfl

/-- Counting leaves what a candidate's joint values and spheres are read from. -/
theorem State.countIssue_reads (k : Nat) (m : Mech) (x y : CSlot) : (s.countIssue k m).bindSlot x m = s.bindSlot x m
    ∧ (s.countIssue k m).placeOf y m = s.placeOf y m ∧ (s.countIssue k m).poisoned (ctxBase x.ctx) 128 = s.poisoned (ctxBase x.ctx) 128
    ∧ (s.countIssue k m).time = s.time := by
  obtain ⟨r, h⟩ := s.countIssue_with k m
  rw [h]
  exact ⟨rfl, rfl, rfl, rfl⟩

theorem State.swept_of_good {k : Nat} {x : CSlot} {m : Mech} (h : (x.confirms || !s.poisoned (ctxBase x.ctx) 128) = true) :
    s.swept k x m = (s.countIssue k m).toCheck k (s.bindSlot x m) m := by
  obtain ⟨hbind, -, hpsn, -⟩ := s.countIssue_reads k m x x
  rw [← hbind]
  unfold State.swept State.bindSlot
  dsimp only
  by_cases hc : x.confirms = true
  · rw [if_pos hc, if_pos hc]
  · have hgood : s.poisoned (ctxBase x.ctx) 128 = false := by simpa [hc] using h
    rw [if_neg hc, if_neg hc, hpsn, hgood, if_neg (by decide)]

theorem sweepEntry_enters (core slot t : Nat) (s : State) (x : CSlot) (m : Mech) (hcalm : s.calm) (hrun : s.coreRuns core = true)
    (hslot : (s.core core).slot slot = some x) (hm : (s.pcfg x.item.part).mechOf x.ctx = some m) (hph : x.ph = .bind)
    (hslice : s.slicing (core / 64) (core % 64) = false) (hstale : x.staleHand = false)
    (hbound : (x.confirms || (s.at t).bound x.ctx x.frame) = true) (hplan : (s.prun x.item.part).plan = true)
    (hone : ((s.core core).slots.filter fun (y : CSlot) => decide (y.ph = .check)).length ≤ 1)
    (hcls : x.cls = clsS ∨ ∀ y ∈ (s.core core).slots, y.ph = .bind → y.cls ≠ clsS)
    (hgood : (x.confirms || !(s.at t).poisoned (ctxBase x.ctx) 128) = true) :
    ∃ u, exec (.sweepEntry core slot t) s = .next u ∧ u.keeps (s.at t) [.cores, .regs] ∧
      if ((s.at t).placeOf ((s.at t).bindSlot x m) m).isNone then
        (u.core core).slot slot = some { (s.at t).bindSlot x m with
              ph := .done, at_ := (s.at t).time,
              verdict := forcedVerdict vfLIMIT ((s.at t).bindSlot x m).candId ((s.at t).bindSlot x m).ctx ((s.at t).bindSlot x m).epoch ((s.at t).bindSlot x m).extra }
          ∧ u.rd (Reg.swpLimitCount (core / 64)) = satAdd ((s.at t).rd (Reg.swpLimitCount (core / 64))) 1
      else (u.core core).slot slot = some { (s.at t).bindSlot x m with ph := .check, at_ := (s.at t).time } := by
  have hcalm' := s.at_calm t hcalm
  have hfirst : (x.cls == clsS || !((s.core core).slots.any fun y => decide (y.ph = SlotPh.bind) && y.cls == clsS && (y.confirms || (s.at t).bound y.ctx y.frame))) = true := by
    rcases hcls with h | h
    · simp [h]
    · rw [Bool.or_eq_true]
      refine .inr ?_
      simp only [Bool.not_eq_true', List.any_eq_false]
      intro y hy hbad
      simp only [Bool.and_eq_true, decide_eq_true_eq, beq_iff_eq] at hbad
      exact h y hy hbad.1.1 hbad.1.2
  have hexec : exec (.sweepEntry core slot t) s = .next ((s.at t).swept core x m).finish := by
    refine exec_sweepEntry t hslot hm ?_
    rw [State.at_coreRuns, hrun, State.at_slicing, hslice, hph, if_neg (by decide), hstale, if_neg (by decide), hbound, State.at_prun, hplan,
      decide_eq_true hone, hfirst, if_pos (by decide)]
  obtain ⟨-, hplace, -, htime⟩ := (s.at t).countIssue_reads core m x ((s.at t).bindSlot x m)
  have hcslot : (((s.at t).countIssue core m).core core).slot slot = some x := by rw [State.countIssue_slot, State.at_core, hslot]
  have hn : ((s.at t).bindSlot x m).n = slot := by rw [State.bindSlot_n, CoreSt.slot_n hslot]
  obtain ⟨hkeeps, hres⟩ := ((s.at t).countIssue core m).toCheck_slot m hcslot hn
  have hk := hkeeps.after ((s.at t).countIssue_keeps core m)
  have hf := hk.calm hcalm'
  rw [State.swept_of_good _ hgood] at hexec
  refine ⟨_, hexec, hk.finish hcalm', ?_⟩
  rw [hplace] at hres
  split
  case isTrue hlim =>
    rw [if_pos hlim, htime, State.countIssue_limit] at hres
    rwa [State.finish_core hf, State.finish_rd _ hf]
  case isFalse hlim =>
    rw [if_neg hlim, htime] at hres
    rwa [State.finish_core hf]

/-- Settles O29: fetch and sweep entry of a slot, case by case. -/
theorem fetchAndSweep : Obligations.FetchAndSweep := by
  unfold Obligations.FetchAndSweep
  refine ⟨primitiveFetch_slots, sweepEntry_stale, ?_, sweepEntry_slicing⟩
  intro core slot t s x m hcalm hrun hslot hm hph hslice hstale hbound hplan hone hcls hgood
  obtain ⟨u, hexec, hkeeps, hres⟩ := sweepEntry_enters core slot t s x m hcalm hrun hslot hm hph hslice hstale hbound hplan hone hcls hgood
  refine ⟨u, hexec, hkeeps, ?_⟩
  unfold State.bindSlot at hres
  by_cases hc : x.confirms = true
  · simp only [if_pos hc] at hres ⊢
    exact hres
  · simp only [if_neg hc] at hres ⊢
    exact hres

end Sys2Proof.Machine
end

section
/-! SUPPORT. ADMISSION (04_candidate_generation.md R143, 10_task_scheduling.md R250). -/

namespace Sys2Proof.Machine

set_option Elab.async false

variable (s : State)

/-! ### The head of a dispatch slot -/

theorem State.setSch_sch_same {d : Nat} (x : SchedDie) (h : d < s.sched.length) : (s.setSch d x).sch d = x := getD_listSet_same _ _ h

theorem State.sch_lt_of_slots {d k : Nat} {i : Item} {l : List Item} (h : (s.sch d).slots.getD k [] = i :: l) :
    d < s.sched.length ∧ k < (s.sch d).slots.length := by
  have hk : k < (s.sch d).slots.length := by
    by_contra hk
    rw [List.getD_eq_default _ _ (by omega)] at h
    exact absurd h (by simp)
  refine ⟨?_, hk⟩
  by_contra hd
  have hdef : s.sch d = {} := List.getD_eq_default _ _ (by omega)
  rw [hdef] at h
  have hslots : ∀ n, (({} : SchedDie).slots.getD n []) = [] := fun n => by
    change (List.replicate 64 ([] : List Item)).getD n [] = []
    simp only [List.getD_eq_getElem?_getD, List.getElem?_replicate]
    split <;> rfl
  rw [hslots] at h
  exact absurd h (by simp)

/-- What follows the head entry of core k's slot. -/
theorem State.setHead_slots {k : Nat} {i : Item} {l : List Item} (h : Option Item) (hslot : (s.sch (k / 64)).slots.getD (k % 64) [] = i :: l) :
    ((s.setHead k h).sch (k / 64)).slots.getD (k % 64) [] = h.toList ++ l := by
  obtain ⟨hd, hk⟩ := s.sch_lt_of_slots hslot
  unfold State.setHead
  dsimp only
  rw [s.setSch_sch_same _ hd]
  change (listSet (s.sch (k / 64)).slots (k % 64) _).getD (k % 64) [] = _
  rw [getD_listSet_same _ _ hk, hslot]
  cases h <;> rfl

theorem State.setHead_keeps (k : Nat) (h : Option Item) : (s.setHead k h).keeps s [.sched] := s.setSch_keeps _ _

theorem State.serveHead_keeps (k : Nat) (i : Item) : (s.serveHead k i).keeps s [.sched] :=
  (State.setSch_keeps _ _ _).after (s.setHead_keeps k none)

theorem State.serveHead_slots {k : Nat} {j i : Item} {l : List Item} (hslot : (s.sch (k / 64)).slots.getD (k % 64) [] = i :: l) :
    ((s.serveHead k j).sch (k / 64)).slots.getD (k % 64) [] = l := by
  have hhead := s.setHead_slots none hslot
  obtain ⟨hd, -⟩ := s.sch_lt_of_slots hslot
  have hlen : k / 64 < (s.setHead k none).sched.length := by
    rw [State.setHead, State.setSch]
    simpa using hd
  rw [State.serveHead]
  rw [State.setSch_sch_same _ _ hlen]
  exact hhead

/-! ### Candidates of a LATTICE item -/

theorem State.admitSlot_of_room {k : Nat} {x : CSlot} (hroom : (s.core k).roomFor x.cls = true) (hlines : (s.core k).lines + x.lines ≤ 256) :
    s.admitSlot k x = some (s.setCore k { s.core k with slots := (s.core k).slots ++ [x] }) := by
  unfold State.admitSlot
  dsimp only
  rw [hroom, decide_eq_true hlines, if_pos (by decide)]

/-- What becomes of the head item once one of its candidates has a slot. -/
def State.passHead (s : State) (k : Nat) (i : Item) : State :=
  if 1 < i.n then s.setHead k (some { i with first := i.first + 1, n := i.n - 1, cost := i.cost - 1 })
  else if i.grp = 0xFF then s.setHead k none
  else s.serveHead k { i with first := i.first + 1, n := 0 }

theorem State.passHead_keeps (k : Nat) (i : Item) : (s.passHead k i).keeps s [.sched] :=
  State.keeps_ite (s.setHead_keeps _ _) (State.keeps_ite (s.setHead_keeps _ _) (s.serveHead_keeps _ _))

theorem State.passHead_slots {k : Nat} {i : Item} {l : List Item} (hslot : (s.sch (k / 64)).slots.getD (k % 64) [] = i :: l) :
    ((s.passHead k i).sch (k / 64)).slots.getD (k % 64) [] =
      if 1 < i.n then { i with first := i.first + 1, n := i.n - 1, cost := i.cost - 1 } :: l else l := by
  unfold State.passHead
  split
  · exact s.setHead_slots _ hslot
  · split
    · exact s.setHead_slots _ hslot
    · exact s.serveHead_slots hslot

theorem State.drawLattice_of_room {k id a : Nat} {i : Item} {m : Mech} (hmech : (s.pcfg i.part).mechOf i.ctx = some m)
    (hepoch : i.epoch = s.fld.epoch) (hwin : s.inWindow k i.part i.frame = true) (hadm : (s.prun i.part).nAdm ≤ i.frame)
    (hnext : s.nextCand i (s.pcfg i.part) m = some (id, a)) (hroom : (s.core k).roomFor i.cls = true)
    (hlines : (s.core k).lines + (s.slotFor k i (s.pcfg i.part) m id a).lines ≤ 256) :
    s.drawLattice k i = (s.setCore k { s.core k with slots := (s.core k).slots ++ [s.slotFor k i (s.pcfg i.part) m id a] }).passHead k i := by
  unfold State.drawLattice
  dsimp only
  rw [hmech]
  dsimp only
  rw [decide_eq_true hepoch, hwin, decide_eq_true hadm, if_pos (by decide), hnext]
  dsimp only
  rw [s.admitSlot_of_room (x := s.slotFor k i (s.pcfg i.part) m id a) hroom hlines]
  rfl

theorem State.drawNext_of_lattice {k : Nat} {i : Item} {l : List Item} (hhand : (s.core k).handQ = [])
    (hslot : (s.sch (k / 64)).slots.getD (k % 64) [] = i :: l) (hadmits : s.admits i.cls = true) (htakes : s.takesKind k i.kind = true)
    (hkind : i.kind = tkLATTICE) : s.drawNext k = s.drawLattice k i := by
  unfold State.drawNext
  rw [hhand, hslot]
  simp only [List.head?_nil, Option.bind_none, List.head?_cons]
  rw [hadmits, htakes, if_neg (by decide), if_pos hkind]

theorem State.drawNext_of_none {k : Nat} (hhand : (s.core k).handQ = []) (hslot : (s.sch (k / 64)).slots.getD (k % 64) [] = []) :
    s.drawNext k = s := by
  unfold State.drawNext
  rw [hhand, hslot]
  rfl

theorem exec_admission (core t : Nat) : exec (.admission core t) s =
    .next (if s.coreRuns core then (s.at t).drawNext core else s.at t).finish := by
  change execAdmission core t s = _
  unfold execAdmission
  dsimp only
  rw [State.at_coreRuns]
  rfl

theorem admission_nothing (core t : Nat) (s : State) (hcalm : s.calm)
    (h : s.coreRuns core = false ∨ ((s.core core).handQ = [] ∧ (s.sch (core / 64)).slots.getD (core % 64) [] = [])) :
    ∃ u, exec (.admission core t) s = .next u ∧ u.keeps (s.at t) [] := by
  refine ⟨_, exec_admission s core t, State.keeps.finish ?_ (s.at_calm t hcalm)⟩
  split
  case isFalse => exact State.keeps_refl _ _
  case isTrue hrun =>
    obtain ⟨hhand, hslot⟩ := h.resolve_left (by rw [hrun]; decide)
    rw [(s.at t).drawNext_of_none (by rwa [State.at_core]) (by rwa [State.at_sch])]
    exact State.keeps_refl _ _

theorem admission_lattice (core t a id : Nat) (s : State) (i : Item) (l : List Item) (m : Mech) (hcalm : s.calm) (hrun : s.coreRuns core = true)
    (hlen : s.cores.length = 128) (hhand : (s.core core).handQ = []) (hslot : (s.sch (core / 64)).slots.getD (core % 64) [] = i :: l)
    (hkind : i.kind = tkLATTICE) (hadmits : (s.at t).admits i.cls = true) (htakes : s.takesKind core i.kind = true)
    (hmech : (s.pcfg i.part).mechOf i.ctx = some m) (hepoch : i.epoch = s.fld.epoch) (hwin : (s.at t).inWindow core i.part i.frame = true)
    (hadm : (s.prun i.part).nAdm ≤ i.frame) (hnext : (s.at t).nextCand i (s.pcfg i.part) m = some (id, a))
    (hroom : (s.core core).roomFor i.cls = true)
    (hlines : (s.core core).lines + ((s.at t).slotFor core i (s.pcfg i.part) m id a).lines ≤ 256) :
    ∃ u, exec (.admission core t) s = .next u ∧ (u.core core).slots = (s.core core).slots ++ [(s.at t).slotFor core i (s.pcfg i.part) m id a]
      ∧ (∀ k, k ≠ core → u.core k = s.core k)
      ∧ (u.sch (core / 64)).slots.getD (core % 64) [] =
          (if 1 < i.n then { i with first := i.first + 1, n := i.n - 1, cost := i.cost - 1 } :: l else l)
      ∧ u.keeps (s.at t) [.cores, .sched] := by
  have hcalm' := s.at_calm t hcalm
  let v := s.at t
  let x := v.slotFor core i (s.pcfg i.part) m id a
  have hcore : v.core core = s.core core := State.at_core _ _ _
  have hsch : v.sch (core / 64) = s.sch (core / 64) := State.at_sch _ _ _
  have hpc : v.pcfg i.part = s.pcfg i.part := State.at_pcfg _ _ _
  have htakes' : v.takesKind core i.kind = true := by
    obtain ⟨_, _, _, _, _, h⟩ := s.at_with t
    rw [show v = _ from h]
    exact htakes
  have hlt : core < v.cores.length := by
    have h128 : core < 128 := by
      rw [State.coreRuns, Bool.and_eq_true, Bool.and_eq_true] at hrun
      exact of_decide_eq_true hrun.1.1
    rw [State.at_cores]
    omega
  let w := v.setCore core { v.core core with slots := (v.core core).slots ++ [x] }
  have hdraw : v.drawNext core = w.passHead core i := by
    rw [v.drawNext_of_lattice (by rwa [hcore]) (by rwa [hsch]) hadmits htakes' hkind, v.drawLattice_of_room (by rwa [hpc]) ((State.at_fld s t).symm ▸ hepoch)
      hwin (by rwa [State.at_prun]) (by rwa [hpc]) (by rwa [hcore]) (by rwa [hcore, hpc]), hpc]
  have hk : (w.passHead core i).keeps v [.cores, .sched] := (w.passHead_keeps core i).after (v.setCore_keeps _ _).widen
  have hf := hk.calm hcalm'
  have hpass (k : Nat) : (w.passHead core i).core k = w.core k := (w.passHead_keeps core i).core k
  refine ⟨_, exec_admission s core t, ?_⟩
  rw [if_pos hrun, hdraw]
  refine ⟨?_, fun k hkc => ?_, ?_, hk.finish hcalm'⟩
  · rw [State.finish_core hf, hpass, v.setCore_core_same _ hlt, hcore]
  · rw [State.finish_core hf, hpass, v.setCore_core_of_ne _ _ hkc, State.at_core]
  · rw [State.finish_sch hf]
    exact w.passHead_slots (hsch.trans rfl ▸ hslot)

/-- Settles O28: what a core with nothing to take leaves, and the candidate that a LATTICE item gives. -/
theorem admissions : Obligations.Admissions := by
  unfold Obligations.Admissions
  refine ⟨admission_nothing, ?_⟩
  intro core t a id s i l m hcalm hrun hlen _ hhand hslot hkind hadmits htakes hmech hepoch hwin hadm hnext x hroom hlines
  exact admission_lattice core t a id s i l m hcalm hrun hlen hhand hslot hkind hadmits htakes hmech hepoch hwin hadm hnext hroom hlines

end Sys2Proof.Machine
end

section
/-! SUPPORT. VERDICT and COST_SCORE (05_collision_checking.md R85, R118, R139, R140, 07_selection_and_commit.md R177, R184, R443). -/

namespace Sys2Proof.Machine

set_option Elab.async false

variable (s : State)

/-! ### What the tests count -/

/-- A core replaced by one with the same slots. -/
theorem State.setCore_slots {k : Nat} {c : CoreSt} (h : c.slots = (s.core k).slots) : ((s.setCore k c).core k).slots = (s.core k).slots :=
  s.setCore_core_of (fun x => x.slots = (s.core k).slots) h fun hk => by rw [State.core, List.getD_eq_default _ _ hk]

/-- A look-up may count, and takes a cache entry of its core; the core's slots stand. -/
def State.looked (u s : State) (k : Nat) : Prop := u.keeps s [.cores, .regs, .fresh] ∧ (u.core k).slots = (s.core k).slots

theorem State.looked_refl (k : Nat) : s.looked s k := ⟨s.keeps_refl _, rfl⟩

variable {s} in
theorem State.looked.trans {u v : State} {k : Nat} (h : u.looked v k) (h' : v.looked s k) : u.looked s k :=
  ⟨State.keeps_trans h.1 h'.1, h.2.trans h'.2⟩

theorem State.looked_foldl {k : Nat} {f : State → Nat → State} (hf : ∀ v x, (f v x).looked v k) (l : List Nat) : (l.foldl f s).looked s k := by
  induction l generalizing s with
  | nil => exact s.looked_refl k
  | cons x r ih => exact (ih (f s x)).trans (hf s x)

/-- A cache entry taken, in a state that counting leads to. -/
theorem State.looked_entry {u s : State} (k : Nat) (c : CoreSt) (hslots : c.slots = (s.core k).slots) (hu : u.keeps s [.regs, .fresh]) :
    (u.setCore k c).looked s k :=
  ⟨State.keeps.after (u.setCore_keeps k c) (hu.widen (m := [.cores, .regs, .fresh])), by
    rw [u.setCore_slots (hslots.trans (by rw [hu.core k])), hu.core k]⟩

theorem State.setFresh_keeps' (n : Nat) : ({ s with fresh := n } : State).keeps s [.fresh] := (State.keeps_iff _ _ _).mpr (by simp)

theorem State.slook_looked (k line : Nat) : (s.slook k line).looked s k := by
  unfold State.slook
  dsimp only
  split
  · exact s.looked_refl k
  · split
    · exact State.looked_entry k _ rfl (s.keeps_refl _)
    · exact State.looked_entry k _ rfl (s.setFresh_keeps' _).widen

theorem State.xlat_looked (k mb : Nat) : (s.xlat k mb).looked s k := by
  have hcount : ((s.add64 (Reg.prbXlatMissLo (k / 64)) 1).inc (Reg.prbCoreMiss k)).keeps s [.regs, .fresh] :=
    (State.inc_keeps _ _ _).after (s.add64_keeps _ _).widen
  unfold State.xlat
  dsimp only
  split
  · exact s.looked_refl k
  · split
    · exact State.looked_entry k _ rfl hcount
    · exact State.looked_entry k _ rfl ((State.setFresh_keeps' _ _).after hcount)

/-- The counts of a candidate's tests, before its cache look-ups. -/
def State.countPlain (s : State) (d : Nat) (a : Acc) : State :=
  let s := ((s.add64 (Reg.stnSpheresLo d) a.spheres).add64 (Reg.stnAcceptCLo d) a.acceptC).add64 (Reg.stnAcceptMLo d) a.acceptM
  let s := ((s.add64 (Reg.stnForwardLo d) a.forward).add64 (Reg.prbFineLo d) a.fine).add64 (Reg.prbAnalyticLo d) a.analytic
  if a.negative then { s with fld := { s.fld with fmtErr := s.fld.fmtErr + 1 } } else s

theorem State.countTests_eq (k : Nat) (a : Acc) : s.countTests k a =
    a.lines.reverse.foldl (fun s l => s.slook k l)
      (a.mids.reverse.foldl (fun s b => s.xlat k b) ((s.countPlain (k / 64) a).add64 (Reg.prbCoreFineLo k) a.fine)) := rfl

theorem State.countPlain_keeps (d : Nat) (a : Acc) : (s.countPlain d a).keeps s [.regs, .fld] := by
  have hadds : (((((s.add64 (Reg.stnSpheresLo d) a.spheres).add64 (Reg.stnAcceptCLo d) a.acceptC).add64 (Reg.stnAcceptMLo d) a.acceptM).add64
      (Reg.stnForwardLo d) a.forward).add64 (Reg.prbFineLo d) a.fine).add64 (Reg.prbAnalyticLo d) a.analytic |>.keeps s [.regs] :=
    (State.add64_keeps _ _ _).after <| (State.add64_keeps _ _ _).after <| (State.add64_keeps _ _ _).after <| (State.add64_keeps _ _ _).after <|
      (State.add64_keeps _ _ _).after (s.add64_keeps _ _)
  exact State.keeps_ite ((State.setFld_keeps _ _).after (m := [.regs, .fld]) hadds.widen) hadds.widen

theorem State.countPlain_epoch (d : Nat) (a : Acc) : (s.countPlain d a).fld.epoch = s.fld.epoch := by
  have hadd (v : State) (o n : Nat) : (v.add64 o n).fld = v.fld := (v.add64_keeps o n) .fld (by decide)
  unfold State.countPlain
  dsimp only
  split <;> simp only [hadd]

theorem State.countTests_keeps (k : Nat) (a : Acc) : (s.countTests k a).keeps s [.cores, .regs, .fresh, .fld] := by
  rw [State.countTests_eq]
  exact (State.looked_foldl _ (fun v x => v.slook_looked k x) _).1.after <| (State.looked_foldl _ (fun v x => v.xlat_looked k x) _).1.after <|
    (State.add64_keeps _ _ _).after (s.countPlain_keeps _ a).widen

theorem State.countTests_slots (k : Nat) (a : Acc) : ((s.countTests k a).core k).slots = (s.core k).slots := by
  rw [State.countTests_eq, (State.looked_foldl _ (fun v x => v.slook_looked k x) _).2, (State.looked_foldl _ (fun v x => v.xlat_looked k x) _).2,
    (State.add64_keeps _ _ _).core, (s.countPlain_keeps _ a).core]

theorem State.countTests_epoch (k : Nat) (a : Acc) : (s.countTests k a).fld.epoch = s.fld.epoch := by
  rw [State.countTests_eq, (State.looked_foldl _ (fun v x => v.slook_looked k x) _).1 .fld (by decide),
    (State.looked_foldl _ (fun v x => v.xlat_looked k x) _).1 .fld (by decide), (State.add64_keeps _ _ _) .fld (by decide), State.countPlain_epoch]

/-! ### The verdict -/

/-- The verdict that the tests give (R118, R139). -/
def State.verdictOf (s : State) (k : Nat) (x : CSlot) (m : Mech) : Verdict :=
  match s.placeOf x m with
  | none => forcedVerdict vfLIMIT x.candId x.ctx x.epoch x.extra
  | some l => (runTests (s.chkEnv k x.item.part x.frame) m (s.timed x.item.part x.frame m.durUs l)).verdict x.candId x.ctx s.fld.epoch x.extra

/-- What poison read by the tests does beside the verdict (R140). -/
def State.testPoison (s : State) (k : Nat) (x : CSlot) (bad : Bool) : State :=
  if bad then (s.consume k ekPOISON 0 x.cls).tdc x.item.part x.frame 7 else s

theorem State.testPoison_keeps (k : Nat) (x : CSlot) (bad : Bool) : (s.testPoison k x bad).keeps s [.regs, .ints, .errs, .fresh, .mem, .tdcSeen] :=
  State.keeps_ite ((State.tdc_keeps _ _ _ _).after (m := [.regs, .ints, .errs, .fresh, .mem, .tdcSeen]) (s.consume_keeps (.inr rfl)).widen)
    (s.keeps_refl _)

theorem State.judge_of_none {k : Nat} {x : CSlot} {m : Mech} (h : s.placeOf x m = none) :
    s.judge k x m = (s.inc (Reg.swpLimitCount (k / 64))).forceVerdict k x vfLIMIT := by
  unfold State.judge
  rw [h]

theorem State.judge_of_some {k : Nat} {x : CSlot} {m : Mech} {l : List (List PSph)} {a : Acc} (h : s.placeOf x m = some l)
    (ha : runTests (s.chkEnv k x.item.part x.frame) m (s.timed x.item.part x.frame m.durUs l) = a) :
    s.judge k x m = ((s.countTests k a).testPoison k x a.poison).writeVerdict k x
      (a.verdict x.candId x.ctx ((s.countTests k a).testPoison k x a.poison).fld.epoch x.extra) := by
  unfold State.judge
  rw [h]
  dsimp only
  rw [ha]
  rfl

theorem State.judge_slot {k n : Nat} {x : CSlot} (m : Mech) (hslot : (s.core k).slot n = some x) :
    (s.judge k x m).keeps s [.cores, .regs, .ints, .errs, .fresh, .mem, .tdcSeen, .fld]
      ∧ ((s.judge k x m).core k).slot n = some { x with ph := .done, verdict := s.verdictOf k x m } := by
  have hn := CoreSt.slot_n hslot
  cases hp : s.placeOf x m with
  | none =>
    rw [s.judge_of_none hp, State.verdictOf, hp]
    have hinc := s.inc_keeps (Reg.swpLimitCount (k / 64)) 1
    exact ⟨(State.writeVerdict_keeps _ _ _ _).after hinc.widen, State.writeVerdict_slot _ _ (by rwa [hinc.core]) hn⟩
  | some l =>
    let a := runTests (s.chkEnv k x.item.part x.frame) m (s.timed x.item.part x.frame m.durUs l)
    have hpois := (s.countTests k a).testPoison_keeps k x a.poison
    have hepoch : ((s.countTests k a).testPoison k x a.poison).fld.epoch = s.fld.epoch := by
      rw [hpois .fld (by decide), State.countTests_epoch]
    have hslots : (((s.countTests k a).testPoison k x a.poison).core k).slot n = some x := by
      rw [CoreSt.slot, hpois.core, State.countTests_slots]
      exact hslot
    rw [s.judge_of_some hp rfl, State.verdictOf, hp]
    refine ⟨(State.writeVerdict_keeps _ _ _ _).after (hpois.after (s.countTests_keeps k a).widen), ?_⟩
    rw [State.writeVerdict_slot _ _ hslots hn, hepoch]

/-- The forced verdict of a stale read (R85). -/
def State.staleRead (s : State) (k : Nat) (x : CSlot) : State :=
  ((s.inc (Reg.fldStaleCount (k / 64) (k / 8 % 8))).tdc x.item.part x.frame 0).forceVerdict k x vfTRUNCATED

theorem State.staleRead_keeps (k : Nat) (x : CSlot) : (s.staleRead k x).keeps s [.cores, .regs, .ints, .tdcSeen] :=
  (State.writeVerdict_keeps _ _ _ _).after ((State.tdc_keeps _ _ _ _).after (m := [.cores, .regs, .ints, .tdcSeen]) (s.inc_keeps _ 1).widen)

/-- A register of a planner die outside its poison counter is none of the triggers'. -/
theorem trigReg_of_die {o : Nat} (hlo : 0x200000 ≤ o) (hpoison : o % 0x400000 ≠ 0xB048) : trigReg o = false := by
  have hhigh : ¬ o < 0xB0 := by omega
  have hglobal : ¬ (o = Reg.intUnrouted ∨ o = Reg.intCoalesced ∨ o = Reg.errLost ∨ o = Reg.wdnSaucers ∨ o = Reg.selSaucerSub) := by
    simp only [Reg.intUnrouted, Reg.intCoalesced, Reg.errLost, Reg.wdnSaucers, Reg.selSaucerSub]
    omega
  simp [trigReg, hhigh, hglobal, hpoison]

theorem fldStaleCount_spared {d c : Nat} (hc : c < 8) : trigReg (Reg.fldStaleCount d c) = false := by
  refine trigReg_of_die ?_ ?_ <;> simp only [Reg.fldStaleCount] <;> omega

theorem State.staleRead_rd (k : Nat) (x : CSlot) : (s.staleRead k x).rd (Reg.fldStaleCount (k / 64) (k / 8 % 8)) =
    satAdd (s.rd (Reg.fldStaleCount (k / 64) (k / 8 % 8))) 1 := by
  have hc : k / 8 % 8 < 8 := Nat.mod_lt _ (by decide)
  rw [State.staleRead, State.forceVerdict, State.writeVerdict, State.countVerdict_rd]
  · rw [State.setSlot, State.setCore_rd, State.tdc_spares _ _ _ (by decide) _ (fldStaleCount_spared hc), State.rd_inc_same]
  · simp only [List.mem_cons, List.not_mem_nil, or_false, not_or, Reg.fldStaleCount, Reg.prbVerdictLo, Reg.prbCollidedCount, Reg.prbTruncCount,
      Reg.prbCapCount, Reg.prbPlanStale, Reg.prbPoisonCount, Reg.prbNearCount]
    omega

theorem State.staleRead_slot {k n : Nat} {x : CSlot} (hslot : (s.core k).slot n = some x) : ((s.staleRead k x).core k).slot n =
    some { x with ph := .done, verdict := forcedVerdict vfTRUNCATED x.candId x.ctx x.epoch x.extra } := by
  refine State.writeVerdict_slot (y := x) _ _ ?_ (CoreSt.slot_n hslot)
  rwa [((State.tdc_keeps _ _ _ _).after (m := [.regs, .ints, .tdcSeen]) (s.inc_keeps _ 1).widen).core]

theorem State.at_storeServes (t k : Nat) : (s.at t).storeServes k = s.storeServes k := by
  obtain ⟨_, _, _, _, _, h⟩ := s.at_with t
  rw [h]
  rfl

theorem exec_verdict {s : State} {core slot : Nat} {x : CSlot} {m : Mech} (t : Nat) (hrun : s.coreRuns core = true)
    (hslot : (s.core core).slot slot = some x) (hm : (s.pcfg x.item.part).mechOf x.ctx = some m) (hph : x.ph = .check) :
    exec (.verdict core slot t) s = .next (if s.storeServes core = false ∨ x.epoch ≠ s.fld.epoch then (s.at t).staleRead core x
      else if (s.core core).boxes = some s.fld.epoch then (s.at t).judge core x m else s.at t).finish := by
  have hcore : (s.at t).core core = s.core core := State.at_core _ _ _
  have hpc : (s.at t).pcfg x.item.part = s.pcfg x.item.part := State.at_pcfg _ _ _
  change execVerdict core slot t s = _
  unfold execVerdict
  dsimp only
  rw [hcore, hslot]
  simp only [Option.bind_some, hpc, hm]
  rw [State.at_coreRuns, hrun, hph, State.at_storeServes, State.at_fld, if_neg (by decide)]
  by_cases hstale : s.storeServes core = false ∨ x.epoch ≠ s.fld.epoch
  · rw [if_pos hstale, if_pos]
    · rfl
    · rcases hstale with h | h
      · rw [h]; rfl
      · rw [decide_eq_true h, Bool.or_true]
  · obtain ⟨hserve, hep⟩ := not_or.mp hstale
    rw [if_neg hstale, if_neg]
    · rfl
    · rw [eq_true_of_ne_false hserve, decide_eq_false hep]
      decide

theorem verdict_slots (core slot t : Nat) (s : State) (x : CSlot) (m : Mech) (hcalm : s.calm) (hrun : s.coreRuns core = true)
    (hslot : (s.core core).slot slot = some x) (hm : (s.pcfg x.item.part).mechOf x.ctx = some m) (hph : x.ph = .check) :
    ∃ u, exec (.verdict core slot t) s = .next u ∧
      if s.storeServes core = false ∨ x.epoch ≠ s.fld.epoch then
        (u.core core).slot slot = some { x with ph := .done, verdict := forcedVerdict vfTRUNCATED x.candId x.ctx x.epoch x.extra }
          ∧ u.rd (Reg.fldStaleCount (core / 64) (core / 8 % 8)) = satAdd ((s.at t).rd (Reg.fldStaleCount (core / 64) (core / 8 % 8))) 1
          ∧ u.keeps (s.at t) [.cores, .regs, .ints, .tdcSeen]
      else if (s.core core).boxes = some s.fld.epoch then
        (u.core core).slot slot = some { x with ph := .done, verdict := (s.at t).verdictOf core x m }
          ∧ u.keeps (s.at t) [.cores, .regs, .ints, .errs, .fresh, .mem, .tdcSeen, .fld]
      else u.keeps (s.at t) [] := by
  have hcalm' := s.at_calm t hcalm
  have hat : ((s.at t).core core).slot slot = some x := by rwa [State.at_core]
  refine ⟨_, exec_verdict t hrun hslot hm hph, ?_⟩
  split
  · have hk := (s.at t).staleRead_keeps core x
    have hf := hk.calm hcalm'
    refine ⟨?_, ?_, hk.finish hcalm'⟩
    · rw [State.finish_core hf]
      exact (s.at t).staleRead_slot hat
    · rw [State.finish_rd _ hf]
      exact (s.at t).staleRead_rd core x
  · split
    · obtain ⟨hk, hres⟩ := (s.at t).judge_slot m hat
      refine ⟨?_, hk.finish hcalm'⟩
      rw [State.finish_core (hk.calm hcalm')]
      exact hres
    · exact ((s.at t).keeps_refl _).finish hcalm'

/-! ### The cost engine -/

theorem length_intLE (n : Nat) (v : Int) : (intLE n v).length = n := length_toLE _ _

theorem Verdict.bytes_length (v : Verdict) : v.bytes.length = 16 := by
  simp only [Verdict.bytes, List.length_append, length_toLE, length_intLE]

/-- Without a log ring an error record writes no device memory. -/
theorem State.log_of_noRing {r : ErrRec} (h : s.cfg.faults.log = 0) : (s.log r).keeps s [.fresh, .errs, .regs, .ints] := by
  have hraise (v : State) (lost : Bool) : (v.logRaise lost).keeps v [.regs, .ints] :=
    State.keeps_ite ((State.raise_keeps _ _).after ((State.inc_keeps _ _ _).after (v.raise_keeps _))) (v.raise_keeps _)
  have herrs (v : State) (n : Nat) (e : ErrColl) : (v.withErrs n e).keeps v [.fresh, .errs] := (State.keeps_iff _ _ _).mpr (by simp [State.withErrs])
  rw [State.log_eq, State.logRing, if_pos h]
  exact (hraise _ _).after (herrs s _ _).widen

theorem State.refuse_of_noRing {tag a : Nat} {write : Bool} (h : s.cfg.faults.log = 0) :
    (s.refuse tag a write).keeps s [.fresh, .errs, .regs, .ints] := by
  refine (State.log_of_noRing _ ?_).after <| (State.raise_keeps _ _).after <| (State.wr64_keeps _ _ _).after <| (State.wr_keeps _ _ _).after <|
    (s.inc_keeps Reg.glbFwRefused 1).widen (m := [.fresh, .errs, .regs, .ints])
  have hregs : ∀ v : State, ((v.wr64 Reg.glbFwAddrLo a).raise isrcFW_REFUSED).loader = v.loader := fun v =>
    ((State.raise_keeps _ _).after (m := [.regs, .ints]) (v.wr64_keeps _ _).widen) .loader (by decide)
  rw [← h, State.cfg, hregs, State.wr_loader, State.inc_loader, State.cfg]

theorem State.makeTrace_of_noRing {r : TraceRec} (h : s.cfg.faults.log = 0) : (s.makeTrace r).keeps s [.fresh, .errs, .regs, .ints, .traceQ] := by
  unfold State.makeTrace
  split
  · exact s.keeps_refl _
  · exact State.keeps_ite (s.refuse_of_noRing h).widen (s.setTraceQ_keeps _).widen

end Sys2Proof.Machine
end

section
/-! SUPPORT. COST_SCORE (07_selection_and_commit.md R177, R184, R443). -/

namespace Sys2Proof.Machine

set_option Elab.async false

variable (s : State)

/-- A verdict counted by the cost engine (R177). -/
def State.costed (s : State) (d cost : Nat) : State :=
  let s := s.add64 (Reg.cstScoredLo d) 1
  if cost = 0xFFFFFFFE then s.inc (Reg.cstSatCount d) else s

theorem State.costed_keeps (d cost : Nat) : (s.costed d cost).keeps s [.regs] :=
  State.keeps_ite ((State.inc_keeps _ _ _).after (s.add64_keeps _ _)) (s.add64_keeps _ _)

theorem State.appendScore_keeps (k : Nat) (x : CSlot) (v : Verdict) : (s.appendScore k x v).keeps s [.cores, .mem, .regs] :=
  (State.store_keeps _ _ _).after (s.setCore_keeps k _).widen

theorem State.traceVerdict_keeps (p src m : Nat) (v : Verdict) : (s.traceVerdict p src m v).keeps s [.fresh, .errs, .mem, .regs, .ints, .traceQ] := by
  unfold State.traceVerdict
  dsimp only
  exact State.keeps_ite (s.makeTrace_keeps _) (s.keeps_refl _)

/-- A verdict traced, or not, without a write to device memory (R443). -/
theorem State.traceVerdict_of_quiet {p src m : Nat} {v : Verdict} (h : s.cfg.faults.log = 0 ∨ s.vtOn p src = false) :
    (s.traceVerdict p src m v).keeps s [.fresh, .errs, .regs, .ints, .traceQ] := by
  unfold State.traceVerdict
  dsimp only
  rcases h with h | h
  · exact State.keeps_ite (s.makeTrace_of_noRing h) (s.keeps_refl _)
  · rw [h, Bool.false_and, Bool.false_and, if_neg (by decide)]
    exact s.keeps_refl _

theorem State.vtOn_congr {u s : State} {p src : Nat} (hloader : u.loader = s.loader)
    (hrd : ∀ o ∈ [Reg.hifVtCtrl p, Reg.hifVtBaseLo p, Reg.hifVtBaseLo p + 4], u.rd o = s.rd o) : u.vtOn p src = s.vtOn p src := by
  have hctrl := hrd (Reg.hifVtCtrl p) (by simp)
  have hlo := hrd (Reg.hifVtBaseLo p) (by simp)
  have hhi := hrd (Reg.hifVtBaseLo p + 4) (by simp)
  have hpc : u.pcfg p = s.pcfg p := by rw [State.pcfg, State.cfg, hloader, State.pcfg, State.cfg]
  unfold State.vtOn State.rd64
  rw [hctrl, hlo, hhi, hpc]

/-- Scoring writes no register of the verdict trace. -/
theorem State.scored_vtOn (k cost p src : Nat) (x : CSlot) (v : Verdict) :
    ((s.costed (k / 64) cost).appendScore k x v).vtOn p src = s.vtOn p src := by
  have hkeeps : ((s.costed (k / 64) cost).appendScore k x v).keeps s [.cores, .mem, .regs] :=
    (State.appendScore_keeps _ k x v).after (s.costed_keeps _ cost).widen
  refine State.vtOn_congr (hkeeps .loader (by decide)) fun o ho => ?_
  have hmod : o % 0x400 = 0x208 ∨ o % 0x400 = 0x200 ∨ o % 0x400 = 0x204 := by
    simp only [List.mem_cons, List.not_mem_nil, or_false, Reg.hifVtCtrl, Reg.hifVtBaseLo] at ho
    omega
  have hcost : (s.costed (k / 64) cost).rd o = s.rd o := by
    have hscored : o ≠ Reg.cstScoredLo (k / 64) ∧ o ≠ Reg.cstScoredLo (k / 64) + 4 ∧ o ≠ Reg.cstSatCount (k / 64) := by
      simp only [Reg.cstScoredLo, Reg.cstSatCount]
      omega
    obtain ⟨hlo, hhi, hsat⟩ := hscored
    unfold State.costed
    dsimp only
    split
    · rw [State.rd_inc_ne _ _ _ _ hsat, State.add64_rd_ne _ _ hlo hhi]
    · rw [State.add64_rd_ne _ _ hlo hhi]
  rw [State.appendScore, State.store_rd _ _ _ _ (by simp only [Reg.memPoisonWritten]; omega), State.setCore_rd, hcost]

theorem State.appendScore_peek (k : Nat) (x : CSlot) (v : Verdict) :
    (s.appendScore k x v).peek (halfBase k (x.frame % 2) + 16 * (s.core k).fill.getD (x.frame % 2) 0) 16 = v.bytes := by
  rw [State.appendScore, State.peek, State.store_mem]
  have h := peek_poke_same s.mem (halfBase k (x.frame % 2) + 16 * (s.core k).fill.getD (x.frame % 2) 0) v.bytes
  rwa [Verdict.bytes_length] at h

theorem State.appendScore_memAs (k : Nat) (x : CSlot) (v : Verdict) :
    (s.appendScore k x v).memAs s (halfBase k (x.frame % 2) + 16 * (s.core k).fill.getD (x.frame % 2) 0) 16 := by
  have h := State.store_memAs (s.setCore k { s.core k with
    slots := (s.core k).slots.filter (·.n != x.n)
    fill := listSet (s.core k).fill (x.frame % 2) ((s.core k).fill.getD (x.frame % 2) 0 + 1)
    halfOf := listSet (s.core k).halfOf (x.frame % 2) x.frame }) (halfBase k (x.frame % 2) + 16 * (s.core k).fill.getD (x.frame % 2) 0) v.bytes
  rw [Verdict.bytes_length] at h
  exact State.memAs_trans h ((s.setCore_keeps k _).memAs _ _)

/-- The slot is free, and its half one longer. -/
theorem State.appendScore_core {k : Nat} (x : CSlot) (v : Verdict) (hk : k < s.cores.length) (hfill : (s.core k).fill.length = 2) :
    ((s.appendScore k x v).core k).slot x.n = none
      ∧ ((s.appendScore k x v).core k).fill.getD (x.frame % 2) 0 = (s.core k).fill.getD (x.frame % 2) 0 + 1
      ∧ ((s.appendScore k x v).core k).fill.getD (1 - x.frame % 2) 0 = (s.core k).fill.getD (1 - x.frame % 2) 0 := by
  have hcore : (s.appendScore k x v).core k = { s.core k with
      slots := (s.core k).slots.filter (·.n != x.n)
      fill := listSet (s.core k).fill (x.frame % 2) ((s.core k).fill.getD (x.frame % 2) 0 + 1)
      halfOf := listSet (s.core k).halfOf (x.frame % 2) x.frame } := by
    rw [State.appendScore, (State.store_keeps _ _ _).core, s.setCore_core_same _ hk]
  rw [hcore]
  refine ⟨?_, getD_listSet_same _ _ (by omega), getD_listSet_of_ne _ _ _ (by omega)⟩
  rw [CoreSt.slot, List.find?_eq_none]
  intro y hy
  simpa using (List.mem_filter.mp hy).2

theorem exec_costScore {s : State} {core slot : Nat} {x : CSlot} {m : Mech} {cost : Nat} (t : Nat) (hrun : s.coreRuns core = true)
    (hslot : (s.core core).slot slot = some x) (hm : (s.pcfg x.item.part).mechOf x.ctx = some m) (hph : x.ph = .done) (hrow : x.inRow = true)
    (hroom : (s.core core).takesScore x.frame = true)
    (hcost : costOf (s.goalOf x.item.part x.frame x.mech) x.verdict x.seed m.axes (x.poses.getD 8 []) = cost) :
    exec (.costScore core slot t) s = .next ((((s.at t).costed (core / 64) cost).appendScore core x { x.verdict with cost }).traceVerdict
      x.item.part 0 x.mech { x.verdict with cost }).finish := by
  have hcore : (s.at t).core core = s.core core := State.at_core _ _ _
  have hpc : (s.at t).pcfg x.item.part = s.pcfg x.item.part := State.at_pcfg _ _ _
  have hgoal : (s.at t).goalOf x.item.part x.frame x.mech = s.goalOf x.item.part x.frame x.mech := by
    rw [State.goalOf, State.at_prun, State.goalOf]
  change execCostScore core slot t s = _
  unfold execCostScore
  dsimp only
  rw [hcore, hslot]
  simp only [Option.bind_some, hpc, hm]
  rw [State.at_coreRuns, hrun, decide_eq_true hph, hrow, hroom, if_pos (by decide), hgoal, hcost]
  rfl

theorem costScore_slots (core slot t : Nat) (s : State) (x : CSlot) (m : Mech) (hcalm : s.calm) (hrun : s.coreRuns core = true)
    (hslot : (s.core core).slot slot = some x) (hm : (s.pcfg x.item.part).mechOf x.ctx = some m) (hph : x.ph = .done) (hrow : x.inRow = true)
    (hroom : (s.core core).takesScore x.frame = true) (hfill : (s.core core).fill.length = 2) :
    let h := x.frame % 2
    let f := (s.core core).fill.getD h 0
    let cost := costOf (s.goalOf x.item.part x.frame x.mech) x.verdict x.seed m.axes (x.poses.getD 8 [])
    ∃ u, exec (.costScore core slot t) s = .next u ∧ (u.core core).slot x.n = none ∧ (u.core core).fill.getD h 0 = f + 1
      ∧ (u.core core).fill.getD (1 - h) 0 = (s.core core).fill.getD (1 - h) 0
      ∧ (s.cfg.faults.log = 0 ∨ (s.at t).vtOn x.item.part 0 = false →
          u.peek (halfBase core h + 16 * f) 16 = ({ x.verdict with cost } : Verdict).bytes
          ∧ u.memAs (s.at t) (halfBase core h + 16 * f) 16)
      ∧ u.keeps (s.at t) [.cores, .regs, .mem, .traceQ, .ints, .errs, .fresh] := by
  intro h f cost
  have hcalm' := s.at_calm t hcalm
  let c := (s.at t).costed (core / 64) cost
  let v : Verdict := { x.verdict with cost }
  let w := c.appendScore core x v
  let u := w.traceVerdict x.item.part 0 x.mech v
  have hc : c.keeps (s.at t) [.regs] := (s.at t).costed_keeps _ cost
  have hcore : c.core core = s.core core := by rw [hc.core, State.at_core]
  have htrace : u.keeps w [.fresh, .errs, .mem, .regs, .ints, .traceQ] := w.traceVerdict_keeps _ _ _ _
  have hk : u.keeps (s.at t) [.cores, .regs, .mem, .traceQ, .ints, .errs, .fresh] :=
    htrace.after ((c.appendScore_keeps core x v).after hc.widen)
  have hf := hk.calm hcalm'
  obtain ⟨hfree, hone, hother⟩ := c.appendScore_core x v (by rw [hc .cores (by decide), State.at_cores]; exact s.core_lt_of_slot hslot) (by rwa [hcore])
  rw [hcore] at hone hother
  refine ⟨u.finish, exec_costScore t hrun hslot hm hph hrow hroom rfl, ?_, ?_, ?_, fun hquiet => ?_, hk.finish hcalm'⟩
  · rw [State.finish_core hf, htrace.core]
    exact hfree
  · rw [State.finish_core hf, htrace.core]
    exact hone
  · rw [State.finish_core hf, htrace.core]
    exact hother
  · have hq : w.cfg.faults.log = 0 ∨ w.vtOn x.item.part 0 = false := by
      have hcfg : w.cfg = s.cfg := by
        rw [State.cfg, ((c.appendScore_keeps core x v).after (m := [.cores, .mem, .regs]) hc.widen) .loader (by decide), State.at_loader, State.cfg]
      rwa [hcfg, (s.at t).scored_vtOn core cost]
    have hmem := w.traceVerdict_of_quiet (m := x.mech) (v := v) hq
    have hpeek := c.appendScore_peek core x v
    have hmemAs := c.appendScore_memAs core x v
    rw [hcore] at hpeek hmemAs
    refine ⟨?_, State.memAs_trans (State.finish_memAs hf _ _) (State.memAs_trans (hmem.memAs _ _) (State.memAs_trans hmemAs (hc.memAs _ _)))⟩
    rw [State.peek_finish hf, ← hpeek]
    exact peek_congr fun a _ _ => (hmem .mem (by decide)).1 a (by omega)

/-- Settles O30: the verdict of a slot in CHECK, and its score. -/
theorem verdicts : Obligations.Verdicts := by
  unfold Obligations.Verdicts
  refine ⟨?_, costScore_slots⟩
  intro core slot t s x m hcalm hrun hslot hm hph judged
  have hjudged : (s.at t).verdictOf core x m = judged := by
    simp only [State.verdictOf, State.at_fld] <;> rfl
  rw [← hjudged]
  exact verdict_slots core slot t s x m hcalm hrun hslot hm hph

end Sys2Proof.Machine
end

section
/-! SUPPORT. Candidate work in the queues of the scheduler: what its release, its holds and the end of admission leave there
(10_task_scheduling.md R244, R246, R248, R256). -/

namespace Sys2Proof.Machine

set_option Elab.async false

variable (s : State)

/-! ### What a die holds -/

/-- An item stands somewhere in a die's queues: its commit queue, a group, a dispatch slot or a task's held items. -/
def SchedDie.holds (x : SchedDie) (i : Item) : Prop :=
  i ∈ x.commitQ ∨ (∃ g ∈ x.groups, i ∈ g.items) ∨ (∃ l ∈ x.slots, i ∈ l) ∨ ∃ t ∈ x.tasks, i ∈ t.backlog

/-- A die holds no candidate work of partition p up to frame n. -/
def State.rowless (s : State) (p n d : Nat) : Prop := ∀ i, (s.sch d).holds i → i.ofRow p n = false

theorem SchedDie.latticeLeft_of_rowless {x : SchedDie} {p n : Nat} (h : ∀ i, x.holds i → i.ofRow p n = false) : x.latticeLeft p n = [] := by
  have hno (l : List Item) (hl : ∀ i ∈ l, x.holds i) : l.filter (fun i => i.ofRow p n) = [] := by
    rw [List.filter_eq_nil_iff]
    intro i hi
    rw [h i (hl i hi)]
    decide
  unfold SchedDie.latticeLeft
  dsimp only
  rw [hno _ fun i hi => .inl hi, List.nil_append, List.append_eq_nil_iff, List.append_eq_nil_iff]
  refine ⟨⟨?_, ?_⟩, ?_⟩
  · rw [List.flatMap_eq_nil_iff]
    exact fun g hg => hno _ fun i hi => .inr (.inl ⟨g, hg, hi⟩)
  · rw [List.flatMap_eq_nil_iff]
    exact fun l hl => hno _ fun i hi => .inr (.inr (.inl ⟨l, hl, hi⟩))
  · rw [List.flatMap_eq_nil_iff]
    exact fun t ht => hno _ fun i hi => .inr (.inr (.inr ⟨t, ht, hi⟩))

theorem SchedDie.holds_of_setTask {x : SchedDie} {t : TaskSt} {i : Item} (h : (x.setTask t).holds i) : x.holds i ∨ i ∈ t.backlog := by
  rcases h with h | h | h | ⟨y, hy, hi⟩
  · exact .inl (.inl h)
  · exact .inl (.inr (.inl h))
  · exact .inl (.inr (.inr (.inl h)))
  · obtain ⟨z, hz, rfl⟩ := List.mem_map.mp hy
    split at hi
    · exact .inr hi
    · exact .inl (.inr (.inr (.inr ⟨z, hz, hi⟩)))

theorem SchedDie.holds_of_setGroup {x : SchedDie} {g : GroupSt} {i : Item} (h : (x.setGroup g).holds i) : x.holds i ∨ i ∈ g.items := by
  rcases h with h | ⟨y, hy, hi⟩ | h | h
  · exact .inl (.inl h)
  · obtain ⟨z, hz, rfl⟩ := List.mem_map.mp hy
    split at hi
    · exact .inr hi
    · exact .inl (.inr (.inl ⟨z, hz, hi⟩))
  · exact .inl (.inr (.inr (.inl h)))
  · exact .inl (.inr (.inr (.inr h)))

theorem SchedDie.holds_of_enqueue {x : SchedDie} {j i : Item} (h : (x.enqueue j).holds i) : x.holds i ∨ i = j := by
  unfold SchedDie.enqueue at h
  split at h
  · exact .inl h
  · next g hg =>
    rcases SchedDie.holds_of_setGroup (show (x.setGroup _).holds i from h) with h | hi
    · exact .inl h
    · rcases List.mem_append.mp hi with hi | hi
      · exact .inl (.inr (.inl ⟨g, List.mem_of_find?_eq_some hg, hi⟩))
      · exact .inr (List.mem_singleton.mp hi)

theorem SchedDie.holds_of_enqueueAll (l : List Item) (x : SchedDie) {i : Item} (h : (enqueueAll x l).1.holds i) : x.holds i ∨ i ∈ l := by
  induction l generalizing x with
  | nil => exact .inl h
  | cons j r ih =>
    unfold enqueueAll at h
    split at h
    · exact .inl h
    · split at h
      · rcases ih _ h with h | h
        · rcases SchedDie.holds_of_enqueue h with h | rfl
          · exact .inl h
          · exact .inr List.mem_cons_self
        · exact .inr (List.mem_cons_of_mem _ h)
      · exact .inl h

theorem enqueueAll_rest (l : List Item) (x : SchedDie) {i : Item} (h : i ∈ (enqueueAll x l).2) : i ∈ l := by
  induction l generalizing x with
  | nil => exact h
  | cons j r ih =>
    unfold enqueueAll at h
    split at h
    · exact absurd h List.not_mem_nil
    · split at h
      · exact List.mem_cons_of_mem _ (ih _ h)
      · exact h

theorem SchedDie.holds_of_refill (l : List Item) (a : SchedDie × List Item) {i : Item} :
    ((l.foldl refill a).1.holds i → a.1.holds i ∨ i ∈ l) ∧ (i ∈ (l.foldl refill a).2 → i ∈ a.2 ∨ i ∈ l) := by
  induction l generalizing a with
  | nil => exact ⟨.inl, .inl⟩
  | cons j r ih =>
    have hstep : ((refill a j).1.holds i → a.1.holds i ∨ i = j) ∧ (i ∈ (refill a j).2 → i ∈ a.2 ∨ i = j) := by
      have hkeep : i ∈ a.2 ++ [j] → i ∈ a.2 ∨ i = j := fun h => (List.mem_append.mp h).imp_right List.mem_singleton.mp
      unfold refill
      split
      · exact ⟨.inl, hkeep⟩
      · split
        · exact ⟨.inl, .inl⟩
        · split
          · exact ⟨SchedDie.holds_of_enqueue, .inl⟩
          · exact ⟨.inl, hkeep⟩
    rw [List.foldl_cons]
    refine ⟨fun h => ?_, fun h => ?_⟩
    · rcases (ih (refill a j)).1 h with h | h
      · exact Or.imp_right (fun h : i = j => h ▸ List.mem_cons_self) (hstep.1 h)
      · exact .inr (List.mem_cons_of_mem _ h)
    · rcases (ih (refill a j)).2 h with h | h
      · exact Or.imp_right (fun h : i = j => h ▸ List.mem_cons_self) (hstep.2 h)
      · exact .inr (List.mem_cons_of_mem _ h)

/-! ### Steps that bring no candidate work of the row -/

variable {s} {p n : Nat}

theorem State.keeps.sch {u : State} {l : List Piece} (h : u.keeps s l) (d : Nat) (hl : .sched ∉ l := by decide) : u.sch d = s.sch d := by
  rw [State.sch, h .sched hl, State.sch]

theorem State.keeps.rowless {u : State} {l : List Piece} {e : Nat} (h : u.keeps s l) (hs : s.rowless p n e) (hl : .sched ∉ l := by decide) :
    u.rowless p n e := by
  rw [State.rowless, h.sch e hl]
  exact hs

theorem State.setSch_rowless {d e : Nat} {x : SchedDie} (hs : s.rowless p n e) (hx : d = e → ∀ i, x.holds i → i.ofRow p n = false) :
    (s.setSch d x).rowless p n e := by
  unfold State.rowless
  rw [State.sch, State.setSch, getD_listSet]
  split
  next h => exact hx h.1.symm
  next => exact hs

theorem State.setTask_rowless {d e : Nat} {t : TaskSt} (hs : s.rowless p n e) (ht : d = e → ∀ i ∈ t.backlog, i.ofRow p n = false) :
    (s.setTask d t).rowless p n e :=
  State.setSch_rowless hs fun hde i hi => by
    rcases SchedDie.holds_of_setTask hi with hi | hi
    · exact hs i (hde ▸ hi)
    · exact ht hde i hi

theorem Item.ofRow_at (i : Item) (c : Nat) : ({ i with at_ := c } : Item).ofRow p n = i.ofRow p n := rfl

theorem State.task?_backlog {d e q k : Nat} {t : TaskSt} (h : s.task? d q k = some t) (hs : s.rowless p n e) (hde : d = e) :
    ∀ i ∈ t.backlog, i.ofRow p n = false := fun i hi => hs i (hde ▸ .inr (.inr (.inr ⟨t, List.mem_of_find?_eq_some h, hi⟩)))

theorem State.failItem_rowless {d e : Nat} {i : Item} (hs : s.rowless p n e) : (s.failItem d i).rowless p n e := (s.failItem_keeps d i).rowless hs

theorem State.countHold_rowless {d e : Nat} {i : Item} (hs : s.rowless p n e) : (s.countHold d i).rowless p n e :=
  ((State.raiseP_keeps _ _ _).after (m := [.fresh, .errs, .mem, .regs, .ints, .traceQ])
    ((State.trace_keeps _ _ _ _ _ _).after (s.inc_keeps _ 1).widen)).rowless hs

theorem State.place_rowless {d e : Nat} {t : TaskSt} {is : List Item} (hs : s.rowless p n e) (ht : d = e → ∀ i ∈ t.backlog, i.ofRow p n = false)
    (his : d = e → ∀ i ∈ is, i.ofRow p n = false) : (s.place d t is).rowless p n e := by
  have hnum (c : Nat) (f : Item → Bool) (hde : d = e) :
      ∀ i ∈ (is.zipIdx.map fun (e : Item × Nat) => { e.1 with at_ := c + e.2 }).filter f, i.ofRow p n = false := by
    intro i hi
    obtain ⟨y, hy, rfl⟩ := List.mem_map.mp (List.mem_filter.mp hi).1
    exact his hde y.1 (List.fst_mem_of_mem_zipIdx hy)
  have hfail (l : List Item) (v : State) (hv : v.rowless p n e) : (l.foldl (fun s i => s.failItem d i) v).rowless p n e := by
    induction l generalizing v with
    | nil => exact hv
    | cons j r ih => exact ih _ (State.failItem_rowless hv)
  unfold State.place
  dsimp only
  generalize hr : (if t.held = true then (s.sch d, _) else enqueueAll (s.sch d) _) = r
  have hholds (hde : d = e) : (∀ i, r.1.holds i → i.ofRow p n = false) ∧ ∀ i ∈ r.2, i.ofRow p n = false := by
    rw [← hr]
    split
    · exact ⟨hde ▸ hs, hnum _ _ hde⟩
    · refine ⟨fun i hi => ?_, fun i hi => hnum _ _ hde i (enqueueAll_rest _ _ hi)⟩
      exact (SchedDie.holds_of_enqueueAll _ _ hi).elim (fun h => hs i (hde ▸ h)) (hnum _ _ hde i)
  have hset (c : Nat) (y : TaskSt) (hy : y.backlog = t.backlog ++ r.2) : (s.setSch d ({ r.1 with clock := c }.setTask y)).rowless p n e := by
    refine State.setSch_rowless hs fun hde i hi => ?_
    rcases SchedDie.holds_of_setTask hi with hi | hi
    · exact (hholds hde).1 i hi
    · rw [hy] at hi
      exact (List.mem_append.mp hi).elim (ht hde i) ((hholds hde).2 i)
  split
  · exact hfail _ _ (hset _ _ rfl)
  · split
    · exact hfail _ _ (hset _ _ rfl)
    · exact State.countHold_rowless (hfail _ _ (hset _ _ rfl))

/-- Candidates released now are of a frame whose admission has not ended (R246). -/
theorem State.releaseItems_rowless {d e : Nat} {q : PartCfg} {r : TaskRec} {t : TaskSt} (hadm : n < (s.prun p).nAdm) (hs : s.rowless p n e)
    (ht : d = e → ∀ i ∈ t.backlog, i.ofRow p n = false) : (s.releaseItems d q r t).rowless p n e := by
  unfold State.releaseItems
  extract_lets cls
  split
  · split
    · exact hs
    next f hf =>
      split
      next =>
        dsimp only
        split
        · exact hs
        · exact ((State.tdc_keeps _ _ _ _).after (m := [.regs, .ints, .tdcSeen]) (s.inc_keeps _ _).widen).rowless hs
      next hlate =>
        refine State.place_rowless hs ht fun _ i hi => ?_
        have hitem : i.part = q.num ∧ i.frame = f := by
          unfold State.latticeItems at hi
          dsimp only at hi
          split at hi
          · exact absurd hi List.not_mem_nil
          · obtain ⟨k, -, rfl⟩ := List.mem_map.mp hi
            exact ⟨rfl, rfl⟩
        rw [Item.ofRow, hitem.1, hitem.2]
        by_cases hq : q.num = p
        · rw [hq] at hlate
          rw [decide_eq_false (by omega : ¬ f ≤ n), Bool.and_false]
        · rw [beq_eq_false_iff_ne.mpr hq]
          rfl
  · split
    next hkind =>
      refine State.place_rowless hs ht fun _ i hi => ?_
      have hik : i.kind = r.kind := by rw [List.mem_singleton.mp hi]; rfl
      rw [Item.ofRow, hik]
      rcases hkind with h | h <;> simp [h, tkDMA, tkSELFTEST, tkLATTICE, ikHANDOFF]
    · exact hs

/-! ### One release -/

/-- A task's masked flags make it ready (R244). -/
def TaskSt.ready (t : TaskSt) (r : TaskRec) : Bool := if r.any then t.flags &&& r.mask != 0 else t.flags &&& r.mask == r.mask

/-- A release traced, its task re-armed: the state and the task, whose flags are not yet written (R244, R248). -/
def State.rearmed (s : State) (d : Nat) (q : PartCfg) (r : TaskRec) (t : TaskSt) : State × TaskSt :=
  (s.trace d 0x01 0xFF (taskItem q.num r (match (s.sch d).group q.num r.grp with | some g => g.cls | none => 0) t.seq) (t.flags &&& r.mask)).rearm d
    { t with flags := t.flags - (t.flags &&& r.mask) } r.delay

theorem State.tryRelease_of_none {d : Nat} {q : PartCfg} {r : TaskRec} (h : s.task? d q.num r.task = none) : s.tryRelease d q r = s := by
  unfold State.tryRelease
  rw [h]

theorem State.tryRelease_of_some {d : Nat} {q : PartCfg} {r : TaskRec} {t : TaskSt} (h : s.task? d q.num r.task = some t) :
    s.tryRelease d q r = if t.ready r && !t.held
      then ((s.rearmed d q r t).1.setTask d (s.rearmed d q r t).2).releaseItems d q r (s.rearmed d q r t).2 else s := by
  unfold State.tryRelease
  rw [h]
  rfl

theorem State.rearmed_keeps (d : Nat) (q : PartCfg) (r : TaskRec) (t : TaskSt) :
    (s.rearmed d q r t).1.keeps s [.fresh, .errs, .mem, .regs, .ints, .traceQ] :=
  (State.rearm_keeps _ _ _ _).after (s.trace_keeps _ _ _ _ _)

theorem State.rearmed_backlog (d : Nat) (q : PartCfg) (r : TaskRec) (t : TaskSt) : (s.rearmed d q r t).2.backlog = t.backlog := by
  unfold State.rearmed State.rearm
  split <;> rfl

theorem State.tryRelease_rowless {d e : Nat} {q : PartCfg} {r : TaskRec} (hadm : n < (s.prun p).nAdm) (hs : s.rowless p n e) :
    (s.tryRelease d q r).rowless p n e := by
  cases ht : s.task? d q.num r.task with
  | none => rwa [State.tryRelease_of_none ht]
  | some t =>
    rw [State.tryRelease_of_some ht]
    split
    · have hback : d = e → ∀ i ∈ (s.rearmed d q r t).2.backlog, i.ofRow p n = false := fun hde => by
        rw [State.rearmed_backlog]
        exact State.task?_backlog ht hs hde
      refine State.releaseItems_rowless ?_ (State.setTask_rowless ((State.rearmed_keeps d q r t).rowless hs) hback) hback
      rw [State.prun, ((State.setTask_keeps _ d _).after (m := [.fresh, .errs, .mem, .regs, .ints, .traceQ, .sched])
        (State.rearmed_keeps d q r t).widen) .parts (by decide)]
      exact hadm
    · exact hs

theorem State.rowless_ite {c : Prop} [Decidable c] {a b : State} {e : Nat} (ha : a.rowless p n e) (hb : b.rowless p n e) :
    (if c then a else b).rowless p n e := by
  split
  · exact ha
  · exact hb

theorem State.resumeTask_rowless {d e : Nat} {left : List Item} {t : TaskSt} (hadm : n < (s.prun p).nAdm) (hs : s.rowless p n e)
    (hleft : d = e → ∀ i ∈ left, i.ofRow p n = false) : (s.resumeTask d left t).rowless p n e := by
  let rest := left.filter fun j => j.part == t.part && j.task == t.task
  let y : TaskSt := { t with held := !rest.isEmpty, backlog := rest }
  have hset (i : Item) : ((s.setTask d y).trace d 0x07 0xFF i 0).rowless p n e :=
    (State.trace_keeps _ _ _ _ _ _).rowless (State.setTask_rowless hs fun hde j hj => hleft hde j (List.mem_filter.mp hj).1)
  have hparts (i : Item) : ((s.setTask d y).trace d 0x07 0xFF i 0).parts = s.parts := by
    rw [(State.trace_keeps _ _ _ _ _ _) .parts (by decide), (s.setTask_keeps d y) .parts (by decide)]
  unfold State.resumeTask
  dsimp only
  split
  · exact hs
  · refine State.rowless_ite hs (State.rowless_ite (State.tryRelease_rowless ?_ (hset _)) (State.countHold_rowless (hset _)))
    rw [State.prun, hparts]
    exact hadm

theorem State.resume_rowless {d e : Nat} (hadm : n < (s.prun p).nAdm) (hs : s.rowless p n e) : (s.resume d).rowless p n e := by
  unfold State.resume
  dsimp only
  split
  · exact hs
  · generalize hall : ((((s.sch d).tasks.filter (·.held)).flatMap (·.backlog)).mergeSort fun a b => decide (a.at_ ≤ b.at_)) = all
    have hheld (hde : d = e) : ∀ i ∈ all, i.ofRow p n = false := fun i hi => by
      rw [← hall, List.mem_mergeSort] at hi
      obtain ⟨t, ht, hit⟩ := List.mem_flatMap.mp hi
      exact hs i (hde ▸ .inr (.inr (.inr ⟨t, (List.mem_filter.mp ht).1, hit⟩)))
    have hset : (s.setSch d (all.foldl refill (s.sch d, [])).1).rowless p n e := State.setSch_rowless hs fun hde i hi =>
      ((SchedDie.holds_of_refill all (s.sch d, [])).1 hi).elim (fun h => hs i (hde ▸ h)) (hheld hde i)
    have hleft (hde : d = e) : ∀ i ∈ (all.foldl refill (s.sch d, [])).2, i.ofRow p n = false := fun i hi =>
      ((SchedDie.holds_of_refill all (s.sch d, [])).2 hi).elim (fun h => absurd h List.not_mem_nil) (hheld hde i)
    have hfold (l : List TaskSt) (left : List Item) (hleft : d = e → ∀ i ∈ left, i.ofRow p n = false) (v : State) (hv : v.rowless p n e)
        (hvadm : n < (v.prun p).nAdm) : (l.foldl (fun s t => s.resumeTask d left t) v).rowless p n e := by
      induction l generalizing v with
      | nil => exact hv
      | cons t r ih =>
        refine ih _ (State.resumeTask_rowless hvadm hv hleft) ?_
        rw [State.prun, (v.resumeTask_keeps d left t) .parts (by decide)]
        exact hvadm
    exact hfold _ _ hleft _ hset hadm

end Sys2Proof.Machine
end

section
/-! SUPPORT. Person boxes, store copies and the end of admission (03_clearance_field.md R85, R91, R300, 05_collision_checking.md R132,
10_task_scheduling.md R23, R246). -/

namespace Sys2Proof.Machine

set_option Elab.async false

/-! ### The end of admission -/

section

variable {s : State} {p n : Nat}

theorem SchedDie.not_holds_default {i : Item} : ¬ ({} : SchedDie).holds i := by
  rintro (h | ⟨g, hg, -⟩ | ⟨l, hl, hi⟩ | ⟨t, ht, -⟩)
  · exact absurd h List.not_mem_nil
  · exact absurd hg List.not_mem_nil
  · rw [List.eq_of_mem_replicate hl] at hi
    exact absurd hi List.not_mem_nil
  · exact absurd ht List.not_mem_nil

theorem SchedDie.rowless_dropLattice (x : SchedDie) {i : Item} (h : (x.dropLattice p n).holds i) : i.ofRow p n = false := by
  have hstay {l : List Item} (hi : i ∈ l.filter fun i => !i.ofRow p n) : i.ofRow p n = false := by simpa using (List.mem_filter.mp hi).2
  rcases h with h | ⟨g, hg, hi⟩ | ⟨l, hl, hi⟩ | ⟨t, ht, hi⟩
  · exact hstay h
  · obtain ⟨y, -, rfl⟩ := List.mem_map.mp hg
    exact hstay hi
  · obtain ⟨y, -, rfl⟩ := List.mem_map.mp hl
    exact hstay hi
  · obtain ⟨y, hy, rfl⟩ := List.mem_map.mp ht
    obtain ⟨z, -, rfl⟩ := List.mem_map.mp hy
    exact hstay hi

/-- A die's candidate work dropped and counted, with one trace record for each task that loses items (R246, R261). -/
def State.dropRows (s : State) (p n d : Nat) : State :=
  let l := (s.sch d).latticeLeft p n
  let s := s.setSch d ((s.sch d).dropLattice p n)
  let s := s.inc (Reg.schDiscard d) l.length
  let s := ((l.map (·.task)).eraseDups).foldl (fun s u => s.trace d 0x08 0xFF ((l.filter (·.task == u)).headD {}) (l.filter (·.task == u)).length) s
  if l.isEmpty then s else s.tdc p n 0

/-- The end of admission on one die. -/
def State.discardOn (s : State) (p n d : Nat) : State := (s.dropRows p n d).resume d

theorem State.discardLattice_eq (s : State) (p n : Nat) : s.discardLattice p n = (s.discardOn p n 0).discardOn p n 1 := by
  have h : s.discardLattice p n = [0, 1].foldl (fun (v : State) d => v.discardOn p n d) s := by
    unfold State.discardLattice
    congr 1
  rw [h, List.foldl_cons, List.foldl_cons, List.foldl_nil]

theorem State.dropRows_after (s : State) (p n d : Nat) : (s.dropRows p n d).keeps (s.setSch d ((s.sch d).dropLattice p n))
    [.regs, .ints, .traceQ, .errs, .fresh, .mem, .tdcSeen] := by
  unfold State.dropRows
  extract_lets l v w x
  have hx : x.keeps v [.regs, .ints, .traceQ, .errs, .fresh, .mem, .tdcSeen] :=
    State.keeps_foldl (fun v u => (v.trace_keeps d 0x08 0xFF _ _).widen) (State.inc_keeps _ _ _).widen _
  exact State.keeps_ite hx ((State.tdc_keeps _ _ _ _).after hx)

theorem State.discardOn_keeps (s : State) (p n d : Nat) : (s.discardOn p n d).keeps s relPieces := by
  exact (State.resume_keeps _ d).after ((s.dropRows_after p n d).after (m := relPieces) (s.setSch_keeps _ _).widen)

theorem State.discardOn_rowless {d e : Nat} (hadm : n < (s.prun p).nAdm) (hs : d = e ∨ s.rowless p n e) :
    (s.discardOn p n d).rowless p n e := by
  have hv := s.dropRows_after p n d
  refine State.resume_rowless ?_ (hv.rowless ?_)
  · rw [State.prun, hv .parts (by decide), (s.setSch_keeps d _) .parts (by decide)]
    exact hadm
  · by_cases hde : d = e
    · subst hde
      intro i hi
      by_cases hlen : d < s.sched.length
      · rw [s.setSch_sch_same _ hlen] at hi
        exact (s.sch d).rowless_dropLattice hi
      · rw [State.sch, List.getD_eq_default _ _ (by rw [State.setSch, length_listSet]; omega)] at hi
        exact absurd hi SchedDie.not_holds_default
    · exact State.setSch_rowless (hs.resolve_left hde) fun h => absurd h hde

theorem State.countUnbound_keeps (s : State) (p n : Nat) : (s.countUnbound p n).keeps s [.regs, .ints, .tdcSeen] :=
  State.keeps_foldl (fun v _ => (State.tdc_keeps _ _ _ _).after (m := [.regs, .ints, .tdcSeen]) (v.inc_keeps _ 1).widen) (s.keeps_refl _) _

theorem State.discardLattice_keeps (s : State) (p n : Nat) : (s.discardLattice p n).keeps s relPieces := by
  rw [State.discardLattice_eq]
  exact (State.discardOn_keeps _ p n 1).after (s.discardOn_keeps p n 0)

theorem State.discardLattice_rowless {d : Nat} (hadm : n < (s.prun p).nAdm) (hd : d < 2) :
    (s.discardLattice p n).rowless p n d := by
  have hadm' : n < ((s.discardOn p n 0).prun p).nAdm := by rwa [State.prun, (s.discardOn_keeps p n 0) .parts (by decide)]
  rw [State.discardLattice_eq]
  rcases Nat.lt_or_ge d 1 with h | h
  · obtain rfl : d = 0 := by omega
    exact State.discardOn_rowless hadm' (.inr (State.discardOn_rowless hadm (.inl rfl)))
  · obtain rfl : d = 1 := by omega
    exact State.discardOn_rowless hadm' (.inl rfl)

/-- One frame more whose admission has ended. -/
def State.admEnded (s : State) (p : Nat) : State := s.setPRun p { s.prun p with nAdm := (s.prun p).nAdm + 1 }

theorem exec_lastAdmission {p t : Nat} {s : State} (htail : s.runsTail p (s.prun p).nAdm = true) (hopen : (s.prun p).nAdm < (s.prun p).opened)
    (ht : s.phaseAt p (s.prun p).nAdm ((s.pcfg p).frame.publish + (s.pcfg p).frame.P) - 1000 = t) : exec (.lastAdmission p) s =
      .next ((((s.at t).admEnded p).discardLattice p (s.prun p).nAdm).countUnbound p (s.prun p).nAdm).finish := by
  change execLastAdmission p s = _
  unfold execLastAdmission
  dsimp only
  rw [htail, decide_eq_true hopen, if_pos (by decide), ht, State.admEnded, State.at_prun]
  rfl

theorem lastAdmission_rows (p : Nat) (s : State) (hcalm : s.calm) (htail : s.runsTail p (s.prun p).nAdm = true)
    (hopen : (s.prun p).nAdm < (s.prun p).opened) :
    let n := (s.prun p).nAdm
    let t := s.phaseAt p n ((s.pcfg p).frame.publish + (s.pcfg p).frame.P) - 1000
    ∃ u, exec (.lastAdmission p) s = .next u ∧ u.prun p = { s.prun p with nAdm := n + 1 }
      ∧ (∀ d < 2, (u.sch d).latticeLeft p n = []) ∧ u.time = (s.at t).time ∧ u.keeps (s.at t) ([.parts] ++ relPieces) := by
  intro n t
  have hplen : p < s.parts.length := by
    by_contra h
    rw [State.prun_of_length_le _ (by omega)] at hopen
    exact absurd hopen (Nat.not_lt_zero _)
  have hprun : ((s.at t).admEnded p).prun p = { s.prun p with nAdm := n + 1 } := by
    rw [State.admEnded, State.setPRun_prun_same _ _ (by rwa [State.at_parts]), State.at_prun]
  have hended : ((s.at t).admEnded p).keeps (s.at t) ([.parts] ++ relPieces) := (State.setPRun_keeps _ _ _).widen
  refine ⟨_, exec_lastAdmission htail hopen rfl, ?_⟩
  generalize (s.at t).admEnded p = a at hprun hended
  have hadm : n < (a.prun p).nAdm := by rw [hprun]; exact Nat.lt_succ_self n
  have hw := ((a.discardLattice p n).countUnbound_keeps p n).after (a.discardLattice_keeps p n)
  have hk := hw.after hended
  have hf := hk.calm (s.at_calm t hcalm)
  refine ⟨?_, fun d hd => ?_, (State.finish_time _ hf).trans (hk .time (by decide)), hk.finish (s.at_calm t hcalm)⟩
  · rw [State.finish_prun hf, State.prun, hw .parts (by decide)]
    exact hprun
  · rw [State.finish_sch hf, ((a.discardLattice p n).countUnbound_keeps p n).sch]
    exact SchedDie.latticeLeft_of_rowless (State.discardLattice_rowless hadm hd)

end

/-! ### Tables copied -/

/-- Entries moved from a range to another, in a table where they find the default: a look-up finds what the source had. -/
theorem get_foldl_moved (a b : Nat) (l : Tab Byte) (m : Tab Byte) (i : Nat) (hl : ∀ e ∈ l, a ≤ e.1) (hord : l.Pairwise fun x y => x.1 < y.1)
    (hm : m.get 0#8 (b + i) = 0#8) : (l.foldl (fun (m : Tab Byte) (e : Nat × Byte) => m.set 0#8 (e.1 - a + b) e.2) m).get 0#8 (b + i) =
      l.get 0#8 (a + i) := by
  have hother (r : Tab Byte) (m : Tab Byte) (hr : ∀ e ∈ r, e.1 - a + b ≠ b + i) :
      (r.foldl (fun (m : Tab Byte) (e : Nat × Byte) => m.set 0#8 (e.1 - a + b) e.2) m).get 0#8 (b + i) = m.get 0#8 (b + i) := by
    induction r generalizing m with
    | nil => rfl
    | cons e r ih =>
      rw [List.foldl_cons, ih _ fun x hx => hr x (List.mem_cons_of_mem _ hx), Tab.get_set_ne _ _ _ _ _ _ (hr e List.mem_cons_self).symm]
  induction l generalizing m with
  | nil => exact hm
  | cons e r ih =>
    obtain ⟨k, v⟩ := e
    have hk : a ≤ k := hl (k, v) List.mem_cons_self
    have hr : ∀ e ∈ r, a ≤ e.1 := fun e he => hl e (List.mem_cons_of_mem _ he)
    obtain ⟨hlt, hrord⟩ := List.pairwise_cons.mp hord
    rw [List.foldl_cons]
    by_cases hki : k = a + i
    · rw [hother r _ fun e he => by have := hlt e he; dsimp only at this; omega, show k - a + b = b + i by omega, Tab.get_set_same]
      exact (if_pos hki).symm
    · rw [ih _ hr hrord (by rw [Tab.get_set_ne _ _ _ _ _ _ (by omega), hm])]
      exact (if_neg hki).symm

theorem get_foldl_moved_out {β : Type} [DecidableEq β] (d : β) (f : Nat → Nat) (l : Tab β) (m : Tab β) (x : Nat) (hx : ∀ e ∈ l, f e.1 ≠ x) :
    (l.foldl (fun (m : Tab β) (e : Nat × β) => m.set d (f e.1) e.2) m).get d x = m.get d x := by
  induction l generalizing m with
  | nil => rfl
  | cons e r ih =>
    rw [List.foldl_cons, ih _ fun y hy => hx y (List.mem_cons_of_mem _ hy), Tab.get_set_ne _ _ _ _ _ _ (hx e List.mem_cons_self).symm]

variable (s : State)

theorem State.wf_at (t : Nat) (h : Tab.wf 0#8 s.mem = true) : Tab.wf 0#8 (s.at t).mem = true := by
  have hwrite (v : State) (r : TraceRec) (hv : Tab.wf 0#8 v.mem = true) : Tab.wf 0#8 (v.writeTrace r).mem = true := by
    unfold State.writeTrace
    split
    · exact hv
    · split
      · exact hv
      · rw [State.wr_mem, State.store_mem]
        exact wf_poke _ _ _ hv
  have hfold (l : List TraceRec) (v : State) (hv : Tab.wf 0#8 v.mem = true) : Tab.wf 0#8 (l.foldl State.writeTrace v).mem = true := by
    induction l generalizing v with
    | nil => exact hv
    | cons r l ih => exact ih _ (hwrite v r hv)
  exact hfold _ _ h

/-! ### A store copied -/

theorem length_peek (m : Tab Byte) (a n : Nat) : (peek m a n).length = n := by simp [peek]

theorem storeBase_lines (g : Nat) : storeBase g = 64 * (storeBase g / 64) := by
  simp only [storeBase, dieBase]
  omega

/-- The entries of a range. -/
theorem mem_rangeEntries {β : Type} {l : Tab β} {lo : Nat → Bool} {hi : Nat → Bool} {e : Nat × β}
    (h : e ∈ l.filter fun e => lo e.1 && hi e.1) : lo e.1 = true ∧ hi e.1 = true := by
  simpa using (List.mem_filter.mp h).2

/-- The bytes of a store copied from another's: all but the control word's (R91). -/
theorem State.copyStore_get {src dst i : Nat} (h : Tab.wf 0#8 s.mem = true) (hi : i < 0x1800000) (hword : i < stControl ∨ stControl + 8 ≤ i) :
    (s.copyStore src dst).mem.get 0#8 (storeBase dst + i) = s.mem.get 0#8 (storeBase src + i) := by
  unfold State.copyStore State.poke
  dsimp only
  rw [get_poke_out _ _ _ _ (by rw [State.peek, length_peek]; omega), get_foldl_moved _ _ _ _ _
    (fun e he => of_decide_eq_true (mem_rangeEntries (lo := fun k => decide (storeBase src ≤ k)) (hi := fun k => decide (k < storeBase src + 0x1800000)) he).1)
    (((Tab.wf_iff 0#8 s.mem).mp h).1.filter _) (by rw [Tab.get_clear, if_pos (by omega)]),
    Tab.get_filter _ _ (fun k => decide (storeBase src ≤ k) && decide (k < storeBase src + 0x1800000)), if_pos]
  rw [decide_eq_true (by omega), decide_eq_true (by omega)]
  rfl

/-- The control word of the copy stands. -/
theorem State.copyStore_word {src dst i : Nat} (hi : i < 8) :
    (s.copyStore src dst).mem.get 0#8 (storeBase dst + stControl + i) = s.mem.get 0#8 (storeBase dst + stControl + i) := by
  unfold State.copyStore State.poke
  dsimp only
  rw [get_poke, if_pos (by rw [State.peek, length_peek]; omega), Nat.add_sub_cancel_left, State.peek]
  change ((List.range 8).map fun j => s.mem.get 0#8 (storeBase dst + stControl + j)).getD i 0#8 = _
  simp [hi]

theorem State.copyStore_memAs (src dst : Nat) : (s.copyStore src dst).memAs s (storeBase dst) 0x1800000 := by
  have hsrc := storeBase_lines src
  have hdst := storeBase_lines dst
  have hctl : stControl + 8 ≤ 0x1800000 := by decide
  generalize hm : storeBase src / 64 = a64 at hsrc
  generalize hn : storeBase dst / 64 = b64 at hdst
  unfold State.copyStore State.poke
  refine ⟨fun x hx => ?_, fun l hl => ?_⟩
  · dsimp only
    rw [get_poke_out _ _ _ _ (by rw [State.peek, length_peek]; omega), get_foldl_moved_out 0#8 (fun k => k - storeBase src + storeBase dst),
      Tab.get_clear, if_neg (by omega)]
    intro e he
    obtain ⟨h1, h2⟩ := mem_rangeEntries (lo := fun k => decide (storeBase src ≤ k)) (hi := fun k => decide (k < storeBase src + 0x1800000)) he
    have h1 := of_decide_eq_true h1
    have h2 := of_decide_eq_true h2
    omega
  · dsimp only
    rw [get_foldl_moved_out false (fun k => k - storeBase src / 64 + storeBase dst / 64), Tab.get_clear, if_neg (by omega)]
    intro e he
    obtain ⟨h1, h2⟩ := mem_rangeEntries (lo := fun k => decide (storeBase src ≤ 64 * k)) (hi := fun k => decide (64 * k < storeBase src + 0x1800000)) he
    have h1 := of_decide_eq_true h1
    have h2 := of_decide_eq_true h2
    omega

theorem State.copyStore_keeps (src dst : Nat) : (s.copyStore src dst).keeps s [.mem] := (State.keeps_iff _ _ _).mpr (by simp [State.copyStore, State.poke])

theorem State.setStore_keeps (g : Nat) (x : StoreSt) : (s.setStore g x).keeps s [.fld] := s.setFld_keeps _

/-- A store that receives a copy, and what a digest that matches marks (R91). -/
def State.copied (s : State) (g store : Nat) (ok : Bool) : State :=
  if ok then (s.copyStore g store).setStore store
    { (s.copyStore g store).fstore store with copying := false, copied := true, ready := (s.copyStore g store).fld.build.any (·.sealed) }
  else s.copyStore g store

theorem State.copied_keeps (g store : Nat) (ok : Bool) : (s.copied g store ok).keeps s [.fld, .mem] :=
  State.keeps_ite ((State.setStore_keeps _ _ _).after (s.copyStore_keeps g store).widen) (s.copyStore_keeps g store).widen

theorem State.copied_mem (g store : Nat) (ok : Bool) : (s.copied g store ok).mem = (s.copyStore g store).mem
    ∧ (s.copied g store ok).psn = (s.copyStore g store).psn := by
  unfold State.copied
  split <;> exact ⟨rfl, rfl⟩

theorem State.copied_fstore {g store : Nat} (ok : Bool) (hcopying : (s.fstore store).copying = true) : (s.copied g store ok).fstore store =
    if ok then { s.fstore store with copying := false, copied := true, ready := s.fld.build.any (·.sealed) } else s.fstore store := by
  have hlen : store < s.fld.stores.length := by
    by_contra h
    rw [State.fstore, List.getD_eq_default _ _ (by omega)] at hcopying
    exact absurd hcopying (by decide)
  unfold State.copied
  split
  · exact getD_listSet_same _ _ hlen
  · rfl

theorem exec_storeCopy {s : State} {store g : Nat} (ok : Bool) (t : Nat) (hcopying : (s.fstore store).copying = true) (hup : s.storeUp store = true)
    (href : s.refStore = some g) : exec (.storeCopy store ok t) s = .next ((s.at t).copied g store ok).finish := by
  obtain ⟨_, _, _, _, _, h⟩ := s.at_with t
  have hc : ((s.at t).fstore store).copying = true := by rw [h]; exact hcopying
  have hu : (s.at t).storeUp store = true := by rw [h]; exact hup
  have hr : (s.at t).refStore = some g := by rw [h]; exact href
  change execStoreCopy store ok t s = _
  unfold execStoreCopy
  dsimp only
  rw [hc, hu, if_pos (by decide), hr]
  rfl

theorem storeCopy_bytes (store t g : Nat) (ok : Bool) (s : State) (hcalm : s.calm) (hcopying : (s.fstore store).copying = true)
    (hup : s.storeUp store = true) (href : s.refStore = some g) (hwf : Tab.wf 0#8 s.mem = true) :
    ∃ u, exec (.storeCopy store ok t) s = .next u
      ∧ u.fstore store = (if ok then { s.fstore store with copying := false, copied := true, ready := s.fld.build.any (·.sealed) } else s.fstore store)
      ∧ (∀ i < 0x1800000, (i < stControl ∨ stControl + 8 ≤ i) →
          u.mem.get 0#8 (storeBase store + i) = (s.at t).mem.get 0#8 (storeBase g + i))
      ∧ (∀ i < 8, u.mem.get 0#8 (storeBase store + stControl + i) = (s.at t).mem.get 0#8 (storeBase store + stControl + i))
      ∧ u.memAs (s.at t) (storeBase store) 0x1800000 ∧ u.keeps (s.at t) [.fld, .mem] := by
  have hk := (s.at t).copied_keeps g store ok
  have hf := hk.calm (s.at_calm t hcalm)
  have hfs : (s.at t).fstore store = s.fstore store := by rw [State.fstore, State.at_fld, State.fstore]
  have hres := (s.at t).copied_fstore (g := g) ok (by rwa [hfs])
  obtain ⟨hmem, hpsn⟩ := (s.at t).copied_mem g store ok
  refine ⟨_, exec_storeCopy ok t hcopying hup href, ?_, fun i hi hw => ?_, fun i hi => ?_, ?_, hk.finish (s.at_calm t hcalm)⟩
  · rw [State.fstore, State.finish_fld _ hf, ← State.fstore, hres, hfs, State.at_fld]
  · rw [State.finish_mem hf, hmem]
    exact (s.at t).copyStore_get (s.wf_at t hwf) hi hw
  · rw [State.finish_mem hf, hmem]
    exact (s.at t).copyStore_word hi
  · exact State.memAs_trans (State.finish_memAs hf _ _) (State.memAs_trans (State.memAs_of_mem_eq hmem hpsn _ _) ((s.at t).copyStore_memAs g store))

/-! ### Person boxes -/

theorem exec_personBoxBuild {s : State} {core : Nat} (t : Nat) (hcore : core < 128) (hen : s.coreEn core = true) (hup : s.pdUp (core / 64) = true)
    (hvalid : s.fld.valid = true) : exec (.personBoxBuild core t) s =
      .next (if s.storeServes core then (s.at t).setCore core { (s.at t).core core with boxes := some s.fld.epoch }
        else (s.at t).inc (Reg.fldStaleCount (core / 64) (core / 8 % 8))).finish := by
  obtain ⟨_, _, _, _, _, h⟩ := s.at_with t
  have he : (s.at t).coreEn core = true := by rw [h]; exact hen
  have hu : (s.at t).pdUp (core / 64) = true := by rw [h]; exact hup
  change execPersonBoxBuild core t s = _
  unfold execPersonBoxBuild
  dsimp only
  rw [if_pos ⟨hcore, he, hu, (State.at_fld s t).symm ▸ hvalid⟩, State.at_storeServes, State.at_fld]
  rfl

theorem personBoxBuild_boxes (core t : Nat) (s : State) (hcalm : s.calm) (hcore : core < 128) (hlen : s.cores.length = 128)
    (hen : s.coreEn core = true) (hup : s.pdUp (core / 64) = true) (hvalid : s.fld.valid = true) :
    ∃ u, exec (.personBoxBuild core t) s = .next u ∧
      if s.storeServes core then (u.core core).boxes = some s.fld.epoch ∧ (∀ k, k ≠ core → u.core k = s.core k) ∧ u.keeps (s.at t) [.cores]
      else u.rd (Reg.fldStaleCount (core / 64) (core / 8 % 8)) = satAdd ((s.at t).rd (Reg.fldStaleCount (core / 64) (core / 8 % 8))) 1
        ∧ u.regsAs (s.at t) [Reg.fldStaleCount (core / 64) (core / 8 % 8)] ∧ u.keeps (s.at t) [.regs] := by
  have hcalm' := s.at_calm t hcalm
  refine ⟨_, exec_personBoxBuild t hcore hen hup hvalid, ?_⟩
  split
  · have hk := (s.at t).setCore_keeps core { (s.at t).core core with boxes := some s.fld.epoch }
    have hf := hk.calm hcalm'
    refine ⟨?_, fun k hkc => ?_, hk.finish hcalm'⟩
    · rw [State.finish_core hf, State.setCore_core_same _ _ (by rw [State.at_cores]; omega)]
    · rw [State.finish_core hf, State.setCore_core_of_ne _ _ _ hkc, State.at_core]
  · have hk := (s.at t).inc_keeps (Reg.fldStaleCount (core / 64) (core / 8 % 8)) 1
    have hf := hk.calm hcalm'
    refine ⟨?_, fun o ho => ?_, hk.finish hcalm'⟩
    · rw [State.finish_rd _ hf, State.rd_inc_same]
    · rw [State.finish_rd _ hf, State.rd_inc_ne _ _ _ _ (by simpa using ho)]

/-- Settles O22: person boxes, store copies and the end of admission. -/
theorem storeUse : Obligations.StoreUse := by
  unfold Obligations.StoreUse
  refine ⟨personBoxBuild_boxes, storeCopy_bytes, ?_⟩
  intro p s hcalm _ htail hopen
  exact lastAdmission_rows p s hcalm htail hopen

end Sys2Proof.Machine
end

section
/-! SUPPORT. What the release of tasks leaves: the registers it does not count in, the fault states, and of each die's scheduler the
dispatch slots, the items in service, the commit queue and the partition served last (10_task_scheduling.md R244 to R257). -/

namespace Sys2Proof.Machine

set_option Elab.async false

/-- The registers that a release may write: those of a trigger, of the firewall's last refusal, and the scheduler's counts of skips, holds,
discards and items without a core. -/
def relReg (o : Nat) : Bool :=
  trigReg o || [Reg.glbFwRefused, Reg.glbFwLast, Reg.glbFwAddrLo, Reg.glbFwAddrLo + 4].contains o
  || decide (0x200000 ≤ o) && [0x9010, 0x9014, 0x9018, 0x9028].contains (o % 0x400000)

/-- The error collector without its records. -/
def ErrColl.bare (e : ErrColl) : ErrColl := { e with seq := 0, ring := [], logHead := 0 }

/-- What a release leaves of a die's scheduler. -/
def SchedDie.fixed (x : SchedDie) : List (List Item) × Nat × List (Nat × Item) × List Item := (x.slots, x.rr, x.busy, x.commitQ)

/-- Two states differ as a release makes them differ, in the parts that a frame of pieces does not tell. -/
structure State.relAs (u s : State) : Prop where
  rd : ∀ o, relReg o = false → u.rd o = s.rd o
  errs : u.errs.bare = s.errs.bare
  sched : u.sched.map SchedDie.fixed = s.sched.map SchedDie.fixed

variable {s u v : State}

theorem State.relAs_refl (s : State) : s.relAs s := ⟨fun _ _ => rfl, rfl, rfl⟩

theorem State.relAs.trans (h : u.relAs v) (k : v.relAs s) : u.relAs s :=
  ⟨fun o ho => (h.rd o ho).trans (k.rd o ho), h.errs.trans k.errs, h.sched.trans k.sched⟩

theorem State.relAs_ite {c : Prop} [Decidable c] {a b : State} (ha : a.relAs s) (hb : b.relAs s) : (if c then a else b).relAs s := by
  split
  · exact ha
  · exact hb

theorem State.relAs_foldl {α : Type} {f : State → α → State} (l : List α) (hf : ∀ v, ∀ x ∈ l, (f v x).relAs v) (h : u.relAs s) :
    (l.foldl f u).relAs s := by
  induction l generalizing u with
  | nil => exact h
  | cons x r ih => exact ih (fun v y hy => hf v y (List.mem_cons_of_mem _ hy)) ((hf u x List.mem_cons_self).trans h)

/-- A step that changes neither registers, nor the collector, nor a scheduler. -/
theorem State.keeps.relAs {l : List Piece} (h : u.keeps s l) (hl : .regs ∉ l ∧ .errs ∉ l ∧ .sched ∉ l := by decide) : u.relAs s :=
  ⟨fun o _ => (h .regs hl.1) o (by simp), by rw [h .errs hl.2.1], by rw [h .sched hl.2.2]⟩

/-- A step whose registers are those of a trigger, and which changes neither the collector nor a scheduler. -/
theorem State.spares.relAs {l : List Piece} (h : u.spares s) (hk : u.keeps s l) (hl : .errs ∉ l ∧ .sched ∉ l := by decide) : u.relAs s :=
  ⟨fun o ho => h o (Bool.or_eq_false_iff.mp (Bool.or_eq_false_iff.mp ho).1).1, by rw [hk .errs hl.1], by rw [hk .sched hl.2]⟩

variable (s)

theorem State.wr_relAs {o : Nat} (x : Word) (ho : relReg o = true) : (s.wr o x).relAs s :=
  ⟨fun i hi => s.rd_wr_ne _ _ _ (by rintro rfl; rw [ho] at hi; exact absurd hi (by decide)), rfl, rfl⟩

theorem State.inc_relAs {o : Nat} (n : Nat) (ho : relReg o = true) : (s.inc o n).relAs s :=
  State.relAs_ite s.relAs_refl (s.wr_relAs _ ho)

/-- A counter of the scheduler. -/
theorem relReg_of_sched {o : Nat} (hlo : 0x200000 ≤ o) (h : o % 0x400000 ∈ [0x9010, 0x9014, 0x9018, 0x9028]) : relReg o = true := by
  rw [relReg, decide_eq_true hlo, List.contains_eq_mem, List.contains_eq_mem, decide_eq_true h]
  simp

theorem State.raise_relAs (src : Nat) : (s.raise src).relAs s := (s.raise_spares src).relAs (s.raise_keeps src)

theorem State.raiseP_relAs (p i : Nat) : (s.raiseP p i).relAs s := s.raise_relAs _

theorem State.tdc_relAs (p n : Nat) {cause : Nat} (h : cause < 8) : (s.tdc p n cause).relAs s := (s.tdc_spares p n h).relAs (s.tdc_keeps p n cause)

theorem State.log_errs_bare (r : ErrRec) : (s.log r).errs.bare = s.errs.bare := by
  have hraise (v : State) (lost : Bool) : (v.logRaise lost).errs = v.errs := by
    have hkeeps : (v.logRaise lost).keeps v [.regs, .ints] :=
      State.keeps_ite ((State.raise_keeps _ _).after ((State.inc_keeps _ _ _).after (v.raise_keeps _))) (v.raise_keeps _)
    exact hkeeps .errs (by decide)
  have hring (v : State) (log a : Nat) (b : List Byte) : (v.logRing log a b).errs.bare = v.errs.bare := by
    unfold State.logRing
    split
    · rfl
    · rfl
  rw [State.log_eq, hraise, hring]
  rfl

theorem State.log_relAs (r : ErrRec) : (s.log r).relAs s :=
  ⟨fun o ho => s.log_spares r o (Bool.or_eq_false_iff.mp (Bool.or_eq_false_iff.mp ho).1).1, s.log_errs_bare r, by
    rw [(s.log_keeps r) .sched (by decide)]⟩

theorem State.refuse_relAs (tag a : Nat) (write : Bool) : (s.refuse tag a write).relAs s :=
  (State.log_relAs _ _).trans <| (State.raise_relAs _ _).trans <| (State.wr_relAs _ _ (by decide)).trans <| (State.wr_relAs _ _ (by decide)).trans <|
    (State.wr_relAs _ _ (by decide)).trans (s.inc_relAs 1 (by decide))

theorem State.makeTrace_relAs (r : TraceRec) : (s.makeTrace r).relAs s := by
  unfold State.makeTrace
  split
  · exact s.relAs_refl
  · exact State.relAs_ite (s.refuse_relAs _ _ _) (s.setTraceQ_keeps _).relAs

theorem State.trace_relAs (d ev core : Nat) (i : Item) (arg : Nat) : (s.trace d ev core i arg).relAs s := by
  unfold State.trace
  split
  · exact State.relAs_ite s.relAs_refl (s.makeTrace_relAs _)
  · exact s.relAs_refl

/-! ### A die's scheduler -/

variable {s}

theorem SchedDie.fixed_enqueue (x : SchedDie) (i : Item) : (x.enqueue i).fixed = x.fixed := by
  unfold SchedDie.enqueue
  split <;> rfl

theorem SchedDie.fixed_enqueueAll (l : List Item) (x : SchedDie) : (enqueueAll x l).1.fixed = x.fixed := by
  induction l generalizing x with
  | nil => rfl
  | cons i r ih =>
    unfold enqueueAll
    split
    · rfl
    · split
      · rw [ih, SchedDie.fixed_enqueue]
      · rfl

theorem SchedDie.fixed_refill (l : List Item) (a : SchedDie × List Item) : (l.foldl refill a).1.fixed = a.1.fixed := by
  induction l generalizing a with
  | nil => rfl
  | cons i r ih =>
    rw [List.foldl_cons, ih]
    unfold refill
    split
    · rfl
    · split
      · rfl
      · split
        · exact SchedDie.fixed_enqueue _ _
        · rfl

theorem State.setSch_relAs {d : Nat} {x : SchedDie} (h : x.fixed = (s.sch d).fixed) : (s.setSch d x).relAs s := by
  refine ⟨fun _ _ => rfl, rfl, ?_⟩
  apply List.ext_getElem?
  intro n
  simp only [State.setSch, listSet, List.getElem?_map, List.getElem?_set]
  by_cases hn : d = n
  · subst hn
    rw [if_pos rfl]
    by_cases hlen : d < s.sched.length
    · rw [if_pos hlen, List.getElem?_eq_getElem hlen, Option.map_some, Option.map_some, h, State.sch, List.getD_eq_getElem _ _ hlen]
    · rw [if_neg hlen, List.getElem?_eq_none (by omega)]
  · rw [if_neg hn]

theorem State.setTask_relAs (s : State) (d : Nat) (t : TaskSt) : (s.setTask d t).relAs s := State.setSch_relAs rfl

/-- The fixed parts of a die. -/
theorem State.relAs.fixed (h : u.relAs s) (d : Nat) : (u.sch d).fixed = (s.sch d).fixed := by
  have hd := congrArg (fun l => l[d]?) h.sched
  have hlen : u.sched.length = s.sched.length := by simpa using congrArg List.length h.sched
  simp only [List.getElem?_map] at hd
  rw [State.sch, State.sch, List.getD_eq_getElem?_getD, List.getD_eq_getElem?_getD]
  by_cases hl : d < s.sched.length
  · rw [List.getElem?_eq_getElem hl, List.getElem?_eq_getElem (by omega)] at hd ⊢
    exact Option.some.inj hd
  · rw [List.getElem?_eq_none (by omega), List.getElem?_eq_none (by omega)]

theorem SchedDie.fields_of_fixed {x y : SchedDie} (h : x.fixed = y.fixed) : x.slots = y.slots ∧ x.rr = y.rr ∧ x.busy = y.busy ∧ x.commitQ = y.commitQ := by
  simpa [SchedDie.fixed] using h

/-! ### Releases -/

variable (s)

theorem State.countHold_relAs (d : Nat) (i : Item) : (s.countHold d i).relAs s :=
  (State.raiseP_relAs _ _ _).trans <| (State.trace_relAs _ _ _ _ _ _).trans
    (s.inc_relAs 1 (relReg_of_sched (by simp only [Reg.schHoldCount]; omega) (by simp only [Reg.schHoldCount]; simp; omega)))

theorem State.failItem_relAs (d : Nat) {i : Item} (h : i.kind ≠ tkHOST) : (s.failItem d i).relAs s := by
  simp only [State.failItem, h, if_false]
  exact (State.log_relAs _ _).trans <| (State.trace_relAs _ _ _ _ _ _).trans
    (s.inc_relAs 1 (relReg_of_sched (by simp only [Reg.schNoCore]; omega) (by simp only [Reg.schNoCore]; simp; omega)))

theorem State.place_relAs (d : Nat) (t : TaskSt) {is : List Item} (h : ∀ i ∈ is, i.kind ≠ tkHOST) : (s.place d t is).relAs s := by
  have hset (c : Nat) (x : SchedDie) (y : TaskSt) (bad : List Item) (hx : x.fixed = (s.sch d).fixed) (hbad : ∀ i ∈ bad, i.kind ≠ tkHOST) :
      (bad.foldl (fun s i => s.failItem d i) (s.setSch d ({ x with clock := c }.setTask y))).relAs s :=
    State.relAs_foldl _ (fun v i hi => v.failItem_relAs d (hbad i hi)) (State.setSch_relAs hx)
  have hbad (c : Nat) (f : Item → Bool) :
      ∀ i ∈ (is.zipIdx.map fun (e : Item × Nat) => { e.1 with at_ := c + e.2 }).filter f, i.kind ≠ tkHOST := by
    intro i hi
    obtain ⟨e, he, rfl⟩ := List.mem_map.mp (List.mem_filter.mp hi).1
    exact h e.1 (List.fst_mem_of_mem_zipIdx he)
  unfold State.place
  dsimp only
  generalize hr : (if t.held = true then (s.sch d, _) else enqueueAll (s.sch d) _) = r
  have hfixed : r.1.fixed = (s.sch d).fixed := by
    rw [← hr]
    split
    · rfl
    · exact SchedDie.fixed_enqueueAll _ _
  refine State.relAs_ite (hset _ _ _ _ hfixed (hbad _ _)) ?_
  split
  · exact hset _ _ _ _ hfixed (hbad _ _)
  · exact (State.countHold_relAs _ _ _).trans (hset _ _ _ _ hfixed (hbad _ _))

theorem State.rearm_relAs (d : Nat) (t : TaskSt) (delayUs : Nat) : (s.rearm d t delayUs).1.relAs s := by
  unfold State.rearm
  split
  · exact s.relAs_refl
  · exact s.inc_relAs _ (relReg_of_sched (by simp only [Reg.schSkip]; omega) (by simp only [Reg.schSkip]; simp; omega))

theorem State.releaseItems_relAs (d : Nat) (q : PartCfg) (r : TaskRec) (t : TaskSt) : (s.releaseItems d q r t).relAs s := by
  unfold State.releaseItems
  extract_lets cls
  split
  · split
    · exact s.relAs_refl
    · refine State.relAs_ite (State.relAs_ite s.relAs_refl ((State.tdc_relAs _ _ _ (by decide)).trans
        (s.inc_relAs _ (relReg_of_sched (by simp only [Reg.schDiscard]; omega) (by simp only [Reg.schDiscard]; simp; omega))))) ?_
      exact s.place_relAs d _ fun i hi => by rw [s.latticeItems_kind _ _ _ _ _ _ i hi]; decide
  · split
    next hkind =>
      refine s.place_relAs d _ fun i hi => ?_
      have hik : i.kind = r.kind := by rw [List.mem_singleton.mp hi]; rfl
      rw [hik]
      rcases hkind with h | h <;> rw [h] <;> decide
    · exact s.relAs_refl

theorem State.tryRelease_relAs (d : Nat) (q : PartCfg) (r : TaskRec) : (s.tryRelease d q r).relAs s := by
  cases ht : s.task? d q.num r.task with
  | none => rw [State.tryRelease_of_none ht]; exact s.relAs_refl
  | some t =>
    rw [State.tryRelease_of_some ht]
    exact State.relAs_ite ((State.releaseItems_relAs _ _ _ _ _).trans <| (State.setTask_relAs _ _ _).trans <|
      (State.rearm_relAs _ _ _ _).trans (s.trace_relAs _ _ _ _ _)) s.relAs_refl

theorem State.setFlag_relAs (p task flag : Nat) : (s.setFlag p task flag).relAs s := by
  unfold State.setFlag
  dsimp only
  split
  · exact s.relAs_refl
  · split
    · exact s.relAs_refl
    · exact (State.tryRelease_relAs _ _ _ _).trans (s.setTask_relAs _ _)

theorem State.phaseFlag_relAs (p flag : Nat) : (s.phaseFlag p flag).relAs s :=
  State.relAs_foldl _ (fun v t _ => v.setFlag_relAs p t flag) s.relAs_refl

theorem State.resumeTask_relAs (d : Nat) (left : List Item) (t : TaskSt) : (s.resumeTask d left t).relAs s := by
  have htraced (x : TaskSt) (i : Item) : ((s.setTask d x).trace d 0x07 0xFF i 0).relAs s :=
    (State.trace_relAs _ _ _ _ _ _).trans (s.setTask_relAs d x)
  unfold State.resumeTask
  dsimp only
  split
  · exact s.relAs_refl
  · exact State.relAs_ite s.relAs_refl
      (State.relAs_ite ((State.tryRelease_relAs _ _ _ _).trans (htraced _ _)) ((State.countHold_relAs _ _ _).trans (htraced _ _)))

theorem State.resume_relAs (d : Nat) : (s.resume d).relAs s :=
  State.relAs_ite s.relAs_refl (State.relAs_foldl _ (fun v t _ => v.resumeTask_relAs d _ t) (State.setSch_relAs (SchedDie.fixed_refill _ _)))

end Sys2Proof.Machine
end

section
/-! SUPPORT. Event flags and the releases they lead to (10_task_scheduling.md R244, R247, R256, R262). -/

namespace Sys2Proof.Machine

set_option Elab.async false

variable {s : State}

/-! ### A task of a die -/

theorem SchedDie.find?_setTask {x : SchedDie} {p k : Nat} {t y : TaskSt} (h : x.tasks.find? (fun z => z.part == p && z.task == k) = some t)
    (hp : y.part = p) (hk : y.task = k) : (x.setTask y).tasks.find? (fun z => z.part == p && z.task == k) = some y := by
  unfold SchedDie.setTask
  dsimp only
  generalize x.tasks = l at h
  induction l with
  | nil => exact absurd h (by simp)
  | cons z r ih =>
    rw [List.map_cons]
    by_cases hz : z.part = p ∧ z.task = k
    · rw [if_pos ⟨hz.1.trans hp.symm, hz.2.trans hk.symm⟩, List.find?_cons_of_pos (by simp [hp, hk])]
    · have hno : ¬ (z.part == p && z.task == k) = true := by simpa using hz
      rw [List.find?_cons_of_neg (p := fun z : TaskSt => z.part == p && z.task == k) hno] at h
      rw [if_neg (by rwa [hp, hk]), List.find?_cons_of_neg (p := fun z : TaskSt => z.part == p && z.task == k) hno, ih h]

theorem State.task?_eq {d p k : Nat} {x : TaskSt} (h : s.task? d p k = some x) : x.part = p ∧ x.task = k ∧ d < s.sched.length := by
  have hx := List.find?_some h
  rw [Bool.and_eq_true, beq_iff_eq, beq_iff_eq] at hx
  refine ⟨hx.1, hx.2, ?_⟩
  by_contra hd
  rw [State.task?, State.sch, List.getD_eq_default _ _ (by omega)] at h
  exact absurd h (by simp)

theorem State.setSch_task? {d p k : Nat} {x : SchedDie} {y : TaskSt} (hd : d < s.sched.length)
    (h : x.tasks.find? (fun z => z.part == p && z.task == k) = some y) : (s.setSch d x).task? d p k = some y := by
  rw [State.task?, State.setSch_sch_same _ _ hd]
  exact h

theorem State.setTask_task? {d p k : Nat} {t y : TaskSt} (h : s.task? d p k = some t) (hp : y.part = p) (hk : y.task = k) :
    (s.setTask d y).task? d p k = some y :=
  State.setSch_task? (State.task?_eq h).2.2 (SchedDie.find?_setTask h hp hk)

theorem State.keeps.task? {u : State} {l : List Piece} (h : u.keeps s l) (d p k : Nat) (hl : .sched ∉ l := by decide) : u.task? d p k = s.task? d p k := by
  rw [State.task?, h.sch d hl, State.task?]

theorem SchedDie.tasks_enqueueAll (l : List Item) (x : SchedDie) : (enqueueAll x l).1.tasks = x.tasks := by
  induction l generalizing x with
  | nil => rfl
  | cons i r ih =>
    unfold enqueueAll
    split
    · rfl
    · split
      · rw [ih]
        unfold SchedDie.enqueue
        split <;> rfl
      · rfl

/-! ### What a release leaves of its task's flags -/

/-- Items placed: the tasks of the die stand but for the releasing one, which keeps its flags. -/
theorem State.place_after (d : Nat) (y : TaskSt) (is : List Item) : ∃ (x : SchedDie) (w : TaskSt), x.tasks = (s.sch d).tasks ∧ w.part = y.part
    ∧ w.task = y.task ∧ w.flags = y.flags ∧ (s.place d y is).keeps (s.setSch d (x.setTask w)) [.regs, .ints, .traceQ, .errs, .fresh, .mem, .hqs, .host] := by
  have hfail (v : State) (l : List Item) : (l.foldl (fun s i => s.failItem d i) v).keeps v [.regs, .ints, .traceQ, .errs, .fresh, .mem, .hqs, .host] :=
    State.keeps_foldl (fun v i => (v.failItem_keeps d i).widen) (v.keeps_refl _) _
  have hhold (v w : State) (i : Item) (hw : w.keeps v [.regs, .ints, .traceQ, .errs, .fresh, .mem, .hqs, .host]) :
      (w.countHold d i).keeps v [.regs, .ints, .traceQ, .errs, .fresh, .mem, .hqs, .host] :=
    (State.raiseP_keeps _ _ _).after ((State.trace_keeps _ _ _ _ _ _).after ((w.inc_keeps _ 1).after hw))
  unfold State.place
  extract_lets c js y' good bad
  generalize hr : (if y'.held = true then (s.sch d, good) else enqueueAll (s.sch d) good) = r
  obtain ⟨x, rest⟩ := r
  have htasks : x.tasks = (s.sch d).tasks := by
    split at hr
    · exact congrArg SchedDie.tasks (congrArg Prod.fst hr).symm
    · exact (congrArg SchedDie.tasks (congrArg Prod.fst hr).symm).trans (SchedDie.tasks_enqueueAll _ _)
  refine ⟨{ x with clock := c + js.length }, { y' with held := y'.held || !rest.isEmpty, backlog := y'.backlog ++ rest }, htasks, rfl, rfl, rfl, ?_⟩
  dsimp only
  refine State.keeps_ite (hfail _ _) ?_
  split
  · exact hfail _ _
  · exact hhold _ _ _ (hfail _ _)

theorem State.place_task? {d p k : Nat} {t y : TaskSt} {is : List Item} (h : s.task? d p k = some t) (hp : y.part = p) (hk : y.task = k) :
    ∃ z, (s.place d y is).task? d p k = some z ∧ z.flags = y.flags := by
  obtain ⟨x, w, htasks, hwp, hwk, hflags, hkeeps⟩ := s.place_after d y is
  refine ⟨w, ?_, hflags⟩
  rw [hkeeps.task?]
  refine State.setSch_task? (State.task?_eq h).2.2 (SchedDie.find?_setTask (t := t) ?_ (hwp.trans hp) (hwk.trans hk))
  rw [htasks]
  exact h

theorem State.releaseItems_task? {d p k : Nat} {q : PartCfg} {r : TaskRec} {t : TaskSt} (h : s.task? d p k = some t) :
    ∃ z, (s.releaseItems d q r t).task? d p k = some z ∧ z.flags = t.flags := by
  obtain ⟨hp, hk, -⟩ := State.task?_eq h
  unfold State.releaseItems
  extract_lets cls
  split
  · split
    · exact ⟨t, h, rfl⟩
    · dsimp only
      split
      · refine ⟨t, ?_, rfl⟩
        split
        · exact h
        · rwa [((State.tdc_keeps _ _ _ _).after (m := [.regs, .ints, .tdcSeen]) (s.inc_keeps _ _).widen).task?]
      · exact State.place_task? h hp hk
  · split
    · exact State.place_task? h hp hk
    · exact ⟨t, h, rfl⟩

/-- A task after a try of its release: its masked flags are clear where it was released, and it stands else (R244). -/
theorem State.tryRelease_task? {d p k : Nat} {q : PartCfg} {r : TaskRec} {t : TaskSt} (hq : q.num = p) (hr : r.task = k) (h : s.task? d p k = some t) :
    (t.ready r = true → t.held = false → ∃ z, (s.tryRelease d q r).task? d p k = some z ∧ z.flags = t.flags - (t.flags &&& r.mask))
      ∧ (t.ready r = false ∨ t.held = true → s.tryRelease d q r = s) := by
  obtain ⟨hp, hk, -⟩ := State.task?_eq h
  have htask : s.task? d q.num r.task = some t := by rwa [hq, hr]
  rw [State.tryRelease_of_some htask]
  refine ⟨fun hready hheld => ?_, fun hno => if_neg ?_⟩
  · rw [hready, hheld, if_pos (by decide)]
    have hfields : (s.rearmed d q r t).2.part = t.part ∧ (s.rearmed d q r t).2.task = t.task
        ∧ (s.rearmed d q r t).2.flags = t.flags - (t.flags &&& r.mask) := by
      unfold State.rearmed State.rearm
      split <;> exact ⟨rfl, rfl, rfl⟩
    obtain ⟨hpart, hnum, hflags⟩ := hfields
    have hset : ((s.rearmed d q r t).1.setTask d (s.rearmed d q r t).2).task? d p k = some (s.rearmed d q r t).2 :=
      State.setTask_task? (t := t) (by rwa [(State.rearmed_keeps d q r t).task?]) (hpart.trans hp) (hnum.trans hk)
    obtain ⟨z, hz, hzf⟩ := State.releaseItems_task? (q := q) (r := r) hset
    exact ⟨z, hz, hzf.trans hflags⟩
  · rcases hno with h | h <;> rw [h] <;> simp

/-! ### A flag set -/

theorem PartCfg.task_num {q : PartCfg} {k : Nat} {r : TaskRec} (h : q.task k = some r) : r.task = k := by
  have := List.find?_some h
  simpa using this

theorem State.pcfg_num {p k : Nat} {r : TaskRec} (h : (s.pcfg p).task k = some r) : (s.pcfg p).num = p := by
  unfold State.pcfg at h ⊢
  cases hq : s.cfg.part p with
  | none =>
    rw [hq] at h
    have hnone : (none : Option TaskRec) = some r := h
    exact absurd hnone (by simp)
  | some q =>
    have := List.find?_some hq
    simpa using this

theorem State.setFlag_eq {p k : Nat} (f : Nat) {r : TaskRec} {x : TaskSt} (hr : (s.pcfg p).task k = some r) (hx : s.task? r.die p k = some x) :
    s.setFlag p k f = (s.setTask r.die { x with flags := x.flags ||| 2 ^ f }).tryRelease r.die (s.pcfg p) r := by
  unfold State.setFlag
  dsimp only
  rw [hr]
  dsimp only
  rw [hx]

/-- A flag set: a task that is not released keeps it (R244). -/
theorem State.setFlag_waits {p k f : Nat} {r : TaskRec} {x : TaskSt} (hr : (s.pcfg p).task k = some r) (hx : s.task? r.die p k = some x)
    (hno : ({ x with flags := x.flags ||| 2 ^ f } : TaskSt).ready r = false ∨ x.held = true) :
    s.setFlag p k f = s.setTask r.die { x with flags := x.flags ||| 2 ^ f } := by
  obtain ⟨hp, hk, -⟩ := State.task?_eq hx
  rw [State.setFlag_eq f hr hx]
  have hset : (s.setTask r.die { x with flags := x.flags ||| 2 ^ f }).task? r.die p k = some { x with flags := x.flags ||| 2 ^ f } :=
    State.setTask_task? hx hp hk
  exact (State.tryRelease_task? (State.pcfg_num hr) (PartCfg.task_num hr) hset).2 hno

theorem State.setFlag_released {p k f : Nat} {r : TaskRec} {x : TaskSt} (hr : (s.pcfg p).task k = some r) (hx : s.task? r.die p k = some x)
    (hready : ({ x with flags := x.flags ||| 2 ^ f } : TaskSt).ready r = true) (hheld : x.held = false) :
    ∃ z, (s.setFlag p k f).task? r.die p k = some z ∧ z.flags = (x.flags ||| 2 ^ f) - ((x.flags ||| 2 ^ f) &&& r.mask) := by
  obtain ⟨hp, hk, -⟩ := State.task?_eq hx
  rw [State.setFlag_eq f hr hx]
  have hset : (s.setTask r.die { x with flags := x.flags ||| 2 ^ f }).task? r.die p k = some { x with flags := x.flags ||| 2 ^ f } :=
    State.setTask_task? hx hp hk
  exact (State.tryRelease_task? (State.pcfg_num hr) (PartCfg.task_num hr) hset).1 hready hheld

end Sys2Proof.Machine
end

section
/-! SUPPORT. The scheduler's commands: the flag register, the delay list, the dispatch decision, completion and a trace record dropped
(10_task_scheduling.md R244 to R262). -/

namespace Sys2Proof.Machine

set_option Elab.async false

variable {s : State}

@[simp] theorem State.at_task? (s : State) (t d p k : Nat) : (s.at t).task? d p k = s.task? d p k := by rw [State.task?, State.at_sch, State.task?]

/-! ### SCH_FLAG_SET -/

theorem schFlagSet_die {d : Nat} (hd : d < 2) : Reg.amongDie (Reg.schFlagSet d) (Reg.schFlagSet 0) 1 4 = true
    ∧ (Reg.schFlagSet d - 0x200000) / 0x400000 % 2 = d := by
  have h : d = 0 ∨ d = 1 := by omega
  rcases h with rfl | rfl <;> decide

theorem exec_schFlagSet {a : RegAcc} (v t : Nat) {d : Nat} (hreach : s.takesWrite a) (hbar : a.bar = .bar0) (hd : d < 2) (hoff : a.off = Reg.schFlagSet d) :
    exec (.schFlagSet a v t) s = .next ((s.at t).flagWrite a v).writeEnd.finish := by
  change execSchFlagSet a v t s = _
  unfold execSchFlagSet
  rw [if_pos ⟨hbar, by rw [hoff]; exact (schFlagSet_die hd).1⟩, State.onWrite_of_takesWrite hreach]
  rfl

theorem State.flagWrite_eq {a : RegAcc} {v d : Nat} (hd : d < 2) (hoff : a.off = Reg.schFlagSet d) : s.flagWrite a v =
    if (a.fn ≠ 0 ∧ a.fn ≠ bits v 30 28 + 1) ∨ (s.task? d (bits v 30 28) (bits v 25 16)).isNone then s.inc (Reg.schFlagReject d)
    else if bits v 4 0 < 24 then (s.wr a.off (BitVec.ofNat 32 v &&& flagSetMask)).setFlag (bits v 30 28) (bits v 25 16) (bits v 4 0)
      else s.wr a.off (BitVec.ofNat 32 v &&& flagSetMask) := by
  unfold State.flagWrite
  rw [hoff, (schFlagSet_die hd).2]

theorem schFlagSet_writes (a : RegAcc) (v t d : Nat) (s : State) (hcalm : s.calm) (hreach : s.takesWrite a) (hbar : a.bar = .bar0) (hd : d < 2)
    (hoff : a.off = Reg.schFlagSet d) :
    let p := bits v 30 28
    let task := bits v 25 16
    let flag := bits v 4 0
    ((a.fn ≠ 0 ∧ a.fn ≠ p + 1) ∨ s.task? d p task = none →
        ∃ u, exec (.schFlagSet a v t) s = .next u ∧ u.rd (Reg.schFlagReject d) = satAdd ((s.at t).rd (Reg.schFlagReject d)) 1
          ∧ u.regsAs (s.at t) [Reg.schFlagReject d] ∧ u.keeps (s.at t) [.regs, .compl])
    ∧ (∀ (r : TaskRec) (x : TaskSt), (a.fn = 0 ∨ a.fn = p + 1) → s.task? d p task = some x → (s.pcfg p).task task = some r →
        r.die = d → flag < 24 →
        (x.held = true ∨ if r.any then (x.flags ||| 2 ^ flag) &&& r.mask = 0 else (x.flags ||| 2 ^ flag) &&& r.mask ≠ r.mask) →
        ∃ u, exec (.schFlagSet a v t) s = .next u ∧ u.task? d p task = some { x with flags := x.flags ||| 2 ^ flag }
          ∧ u.rd a.off = (BitVec.ofNat 32 v &&& flagSetMask) ∧ u.regsAs (s.at t) [a.off] ∧ u.keeps (s.at t) [.regs, .compl, .sched]) := by
  intro p task flag
  have hexec := exec_schFlagSet v t hreach hbar hd hoff
  rw [State.flagWrite_eq hd hoff] at hexec
  refine ⟨fun hrej => ?_, fun r x hfn hx hr hrd hflag hno => ?_⟩
  · rw [if_pos (hrej.imp_right fun h => by rw [State.at_task?, h]; rfl)] at hexec
    obtain ⟨-, hrd, hkeeps⟩ := State.finish_writeEnd t hcalm ((s.at t).inc_keeps (Reg.schFlagReject d) 1)
    refine ⟨_, hexec, ?_, fun o ho => ?_, hkeeps.widen⟩
    · rw [hrd, State.rd_inc_same]
    · rw [hrd, State.rd_inc_ne _ _ _ _ (by simpa using ho)]
  · let w := (s.at t).wr a.off (BitVec.ofNat 32 v &&& flagSetMask)
    have hw : w.keeps (s.at t) [.regs] := (s.at t).wr_keeps _ _
    have hrej : ¬((a.fn ≠ 0 ∧ a.fn ≠ p + 1) ∨ ((s.at t).task? d p task).isNone = true) := by
      rw [State.at_task?, hx]
      rintro (⟨h1, h2⟩ | h)
      · exact hfn.elim h1 h2
      · exact absurd h (by simp)
    have hwait : ({ x with flags := x.flags ||| 2 ^ flag } : TaskSt).ready r = false ∨ x.held = true := by
      refine hno.symm.imp_left fun h => ?_
      rw [TaskSt.ready]
      split at h <;> simp [*]
    have hset : w.setFlag p task flag = w.setTask d { x with flags := x.flags ||| 2 ^ flag } := by
      rw [← hrd]
      refine State.setFlag_waits ?_ ?_ hwait
      · rw [State.pcfg, State.cfg, hw .loader (by decide), State.at_loader, ← State.cfg, ← State.pcfg]
        exact hr
      · rw [hw.task?, State.at_task?, hrd]
        exact hx
    rw [if_neg hrej, if_pos hflag] at hexec
    change exec _ s = .next (w.setFlag p task flag).writeEnd.finish at hexec
    rw [hset] at hexec
    have hk := (w.setTask_keeps d { x with flags := x.flags ||| 2 ^ flag }).after (m := [.regs, .sched]) hw.widen
    obtain ⟨-, hrd', hkeeps⟩ := State.finish_writeEnd t hcalm hk
    have htask : (w.setTask d { x with flags := x.flags ||| 2 ^ flag }).task? d p task = some { x with flags := x.flags ||| 2 ^ flag } := by
      refine State.setTask_task? (t := x) ?_ (State.task?_eq hx).1 (State.task?_eq hx).2.1
      rw [hw.task?, State.at_task?]
      exact hx
    have hrdset (o : Nat) : (w.setTask d { x with flags := x.flags ||| 2 ^ flag }).rd o = w.rd o :=
      (w.setTask_keeps d { x with flags := x.flags ||| 2 ^ flag }) .regs (by decide) o (by simp)
    refine ⟨_, hexec, ?_, ?_, fun o ho => ?_, hkeeps.widen⟩
    · have hend : (w.setTask d { x with flags := x.flags ||| 2 ^ flag }).writeEnd.keeps (w.setTask d { x with flags := x.flags ||| 2 ^ flag }) [.compl] :=
        State.setCompl_keeps _ _
      have hfall := (hend.after (hk.widen (m := [.compl, .regs, .sched]))).calm (s.at_calm t hcalm)
      rw [State.task?, State.finish_sch hfall, ← State.task?, hend.task?]
      exact htask
    · rw [hrd', hrdset]
      exact (s.at t).rd_wr_same _ _
    · rw [hrd', hrdset]
      exact (s.at t).rd_wr_ne _ _ _ (by simpa using ho)

/-! ### DUE -/

theorem exec_due {die p k at_ : Nat} {x : TaskSt} (hx : s.task? die p k = some x) (hdue : x.due = some at_)
    (hfirst : ∀ y ∈ (s.sch die).tasks, dueBefore y x = false) : ∃ i, exec (.due die p k) s =
      .next (((((s.at at_).trace die 0x05 0xFF i 0).setTask die { x with due := none }).setFlag p k 31).finish) := by
  have hany : ((s.sch die).tasks.any (dueBefore · x)) = false := by
    rw [List.any_eq_false]
    intro y hy
    rw [hfirst y hy]
    decide
  refine ⟨match ((s.at at_).pcfg p).task k with
    | some r => taskItem p r (match ((s.at at_).sch die).group p r.grp with | some g => g.cls | none => 0) x.seq
    | none => { part := p, task := k }, ?_⟩
  change execDue die p k s = _
  unfold execDue
  rw [hx]
  dsimp only
  rw [hdue]
  dsimp only
  rw [hany, if_neg (by decide)]
  rfl

theorem due_flag (die p task at_ : Nat) (s : State) (x : TaskSt) (r : TaskRec) (hcalm : s.calm) (hx : s.task? die p task = some x)
    (hdue : x.due = some at_) (hr : (s.pcfg p).task task = some r) (hdie : r.die = die)
    (hfirst : ∀ y ∈ (s.sch die).tasks, dueBefore y x = false) :
    let f := x.flags ||| 2 ^ 31
    let hit := f &&& r.mask
    ∃ u y, exec (.due die p task) s = .next u ∧ u.time = (s.at at_).time ∧ u.task? die p task = some y ∧ u.keeps (s.at at_) relPieces ∧
      if (if r.any then hit ≠ 0 else hit = r.mask) ∧ x.held = false then y.flags = f - hit
      else y = { x with due := none, flags := f } := by
  intro f hit
  subst hdie
  obtain ⟨i, hexec⟩ := exec_due hx hdue hfirst
  let v := (s.at at_).trace r.die 0x05 0xFF i 0
  let w := v.setTask r.die { x with due := none }
  have hv : v.keeps (s.at at_) [.fresh, .errs, .mem, .regs, .ints, .traceQ] := (s.at at_).trace_keeps _ _ _ _ _
  have hw : w.keeps (s.at at_) relPieces := (v.setTask_keeps _ _).after hv.widen
  have hk : (w.setFlag p task 31).keeps (s.at at_) relPieces := (w.setFlag_keeps p task 31).after hw
  have hf := hk.calm (s.at_calm at_ hcalm)
  have hwx : w.task? r.die p task = some { x with due := none } :=
    State.setTask_task? (t := x) (by rw [hv.task?, State.at_task?, hx]) (State.task?_eq hx).1 (State.task?_eq hx).2.1
  have hwr : (w.pcfg p).task task = some r := by
    rw [State.pcfg, State.cfg, hw .loader (by decide), State.at_loader, ← State.cfg, ← State.pcfg]
    exact hr
  have hend {y : TaskSt} (h : (w.setFlag p task 31).task? r.die p task = some y) : (w.setFlag p task 31).finish.task? r.die p task = some y := by
    rw [State.task?, State.finish_sch hf]
    exact h
  have hready : ({ x with due := none, flags := f } : TaskSt).ready r = true ↔ if r.any then hit ≠ 0 else hit = r.mask := by
    rw [TaskSt.ready]
    split <;> simp [hit]
  by_cases hgo : (if r.any then hit ≠ 0 else hit = r.mask) ∧ x.held = false
  · obtain ⟨z, hz, hzf⟩ := State.setFlag_released hwr hwx (hready.mpr hgo.1) hgo.2
    refine ⟨_, z, hexec, (State.finish_time _ hf).trans (hk .time (by decide)), hend hz, hk.finish (s.at_calm at_ hcalm), ?_⟩
    rw [if_pos hgo]
    exact hzf
  · refine ⟨_, { x with due := none, flags := f }, hexec, (State.finish_time _ hf).trans (hk .time (by decide)), hend ?_,
      hk.finish (s.at_calm at_ hcalm), ?_⟩
    · rw [State.setFlag_waits hwr hwx]
      · exact State.setTask_task? hwx (State.task?_eq hx).1 (State.task?_eq hx).2.1
      · by_cases hheld : x.held = true
        · exact .inr hheld
        · refine .inl (Bool.eq_false_iff.mpr fun h => hgo ⟨hready.mp h, by simpa using hheld⟩)
    · rw [if_neg hgo]

end Sys2Proof.Machine
end

section
/-! SUPPORT. The dispatch decision, completion, and a trace record dropped (10_task_scheduling.md R249 to R254, R261). -/

namespace Sys2Proof.Machine

set_option Elab.async false

variable (s : State)

/-! ### 64-bit counters -/

theorem State.rd64_wr64 {o x : Nat} (hx : x < 2 ^ 64) : (s.wr64 o x).rd64 o = x := by
  have hlo : (s.wr64 o x).rd o = BitVec.ofNat 32 x := by rw [State.wr64, State.rd_wr_ne _ _ _ _ (by omega), State.rd_wr_same]
  rw [State.rd64, hlo, State.wr64, State.rd_wr_same, BitVec.toNat_ofNat, BitVec.toNat_ofNat]
  omega

theorem State.rd64_add64 (o : Nat) {n : Nat} (hn : n ≠ 0) : (s.add64 o n).rd64 o = (s.rd64 o + n) % 2 ^ 64 := by
  rw [State.add64, if_neg hn]
  exact s.rd64_wr64 (Nat.mod_lt _ (by decide))

/-! ### Domains woken on the way -/

theorem State.touchDom_rd {n o : Nat} (h : o % 0x400000 ≠ 0xB048 ∧ o % 0x400000 ≠ 0xB050) : (s.touchDom n).rd o = s.rd o := by
  have hwake : (s.wakeDom n).rd o = s.rd o := by
    unfold State.wakeDom
    split
    · dsimp only
      split
      · rw [State.shut, State.store_rd _ _ _ _ (by simp only [Reg.memPoisonWritten]; omega)]
        rfl
      · rfl
    · rfl
  unfold State.touchDom
  split
  · rw [State.rd_inc_ne _ _ _ _ (by simp only [Reg.memWakeOnAccess]; omega), hwake]
  · rfl

theorem State.touch_rd {a n o : Nat} (h : o % 0x400000 ≠ 0xB048 ∧ o % 0x400000 ≠ 0xB050) : (s.touch a n).rd o = s.rd o := by
  have hfold (l : List Nat) (v : State) : (l.foldl State.touchDom v).rd o = v.rd o := by
    induction l generalizing v with
    | nil => rfl
    | cons x r ih => rw [List.foldl_cons, ih, v.touchDom_rd h]
  exact hfold _ s

/-! ### A dispatch slot -/

theorem State.setSch_rd (d : Nat) (x : SchedDie) (o : Nat) : (s.setSch d x).rd o = s.rd o := rfl

theorem State.putSlot_keeps (d k : Nat) (l : List Item) : (s.putSlot d k l).keeps s [.ktl, .mem, .regs, .sched] :=
  (State.setSch_keeps _ _ _).after (s.touch_keeps _ _).widen

theorem State.putSlot_sch {d k : Nat} (l : List Item) (hd : d < s.sched.length) :
    (s.putSlot d k l).sch d = { s.sch d with slots := listSet (s.sch d).slots (k % 64) l } := by
  have htouch := s.touch_keeps (padBase k) 1
  unfold State.putSlot
  dsimp only
  rw [State.setSch_sch_same _ _ (by rw [htouch .sched (by decide)]; exact hd), htouch.sch]

theorem State.putSlot_rd {d k o : Nat} (l : List Item) (h : o % 0x400000 ≠ 0xB048 ∧ o % 0x400000 ≠ 0xB050) : (s.putSlot d k l).rd o = s.rd o := by
  unfold State.putSlot
  dsimp only
  rw [State.setSch_rd, State.touch_rd _ h]

theorem State.setSch_length (d : Nat) (x : SchedDie) : (s.setSch d x).sched.length = s.sched.length := length_listSet _ _ _

/-- The counter of dispatches is none that a release writes. -/
theorem schDispatch_kept (d : Nat) : ∀ o ∈ [Reg.schDispatchLo d, Reg.schDispatchLo d + 4],
    relReg o = false ∧ o ≠ Reg.schDisplace d ∧ o % 0x400000 ≠ 0xB048 ∧ o % 0x400000 ≠ 0xB050 := by
  intro o ho
  have hval : 0x409004 ≤ o ∧ (o % 0x400000 = 0x9004 ∨ o % 0x400000 = 0x9008) := by
    simp only [List.mem_cons, List.not_mem_nil, or_false, Reg.schDispatchLo] at ho
    omega
  refine ⟨?_, by simp only [Reg.schDisplace]; omega, by omega, by omega⟩
  have htrig := trigReg_of_die (o := o) (by omega) (by omega)
  have hfw : ¬ (o = Reg.glbFwRefused ∨ o = Reg.glbFwLast ∨ o = Reg.glbFwAddrLo ∨ o = Reg.glbFwAddrLo + 4) := by
    simp only [Reg.glbFwRefused, Reg.glbFwLast, Reg.glbFwAddrLo]
    omega
  have hsched : ¬ (o % 0x400000 = 0x9010 ∨ o % 0x400000 = 0x9014 ∨ o % 0x400000 = 0x9018 ∨ o % 0x400000 = 0x9028) := by omega
  rw [relReg, htrig]
  simp [hfw, hsched]

/-- Two states have the dispatch counter of a die in common. -/
theorem State.rd64_congr {u : State} {o : Nat} (h : ∀ i ∈ [o, o + 4], u.rd i = s.rd i) : u.rd64 o = s.rd64 o := by
  rw [State.rd64, h _ (by simp), h _ (by simp), State.rd64]

/-! ### A commit-queue item dispatched -/

/-- An entry displaced goes back where it came from, and is counted (R252). -/
def State.displaced (s : State) (d k : Nat) (y : Item) : State :=
  ((s.setSch d (if y.grp = 0xFF then { s.sch d with commitQ := y :: (s.sch d).commitQ } else (s.sch d).giveBack y)).inc (Reg.schDisplace d)).trace d 0x03 k y y.seq

/-- The item put at the head of the core's slot. -/
def State.headed (s : State) (d k : Nat) (i : Item) : State :=
  ((s.setSch d { s.sch d with commitQ := (s.sch d).commitQ.erase i }).putSlot d k ((i :: (s.sch d).slots.getD (k % 64) []).take 2)).trace d 0x09 k i i.seq

/-- A third entry of a core's slot, where there is one, is displaced. -/
def State.overflowed (s : State) (d k : Nat) : List Item → State
  | [] => s
  | y :: _ => s.displaced d k y

theorem State.dispatchCommit_eq (d k : Nat) (i : Item) : s.dispatchCommit d k i =
    (s.headed d k i).overflowed d k ((i :: (s.sch d).slots.getD (k % 64) []).drop 2) := by
  unfold State.dispatchCommit State.headed
  dsimp only
  generalize (State.trace _ _ _ _ _ _) = v
  generalize List.drop 2 _ = l
  cases l <;> rfl

theorem SchedDie.giveBack_slots (x : SchedDie) (i : Item) : (x.giveBack i).slots = x.slots := by
  unfold SchedDie.giveBack
  split <;> rfl

/-- What a displaced entry leaves: the dispatch slots, and the counter of dispatches. -/
theorem State.displaced_slots (d k : Nat) (y : Item) : ((s.displaced d k y).sch d).slots = (s.sch d).slots := by
  rw [State.displaced, (State.trace_keeps _ _ _ _ _ _).sch, (State.inc_keeps _ _ _).sch]
  by_cases hd : d < s.sched.length
  · rw [s.setSch_sch_same _ hd]
    split
    · rfl
    · exact SchedDie.giveBack_slots _ _
  · rw [State.sch, List.getD_eq_default _ _ (by rw [State.setSch_length]; omega), State.sch, List.getD_eq_default _ _ (by omega)]

theorem State.displaced_keeps (d k : Nat) (y : Item) : (s.displaced d k y).keeps s relPieces :=
  (State.trace_keeps _ _ _ _ _ _).after ((State.inc_keeps _ _ _).after (m := relPieces) (s.setSch_keeps _ _).widen)

theorem State.displaced_length (d k : Nat) (y : Item) : (s.displaced d k y).sched.length = s.sched.length := by
  rw [State.displaced, (State.trace_keeps _ _ _ _ _ _) .sched (by decide), (State.inc_keeps _ _ _) .sched (by decide), State.setSch_length]

theorem State.displaced_rd {d k : Nat} {y : Item} {o : Nat} (h : relReg o = false) (hne : o ≠ Reg.schDisplace d) : (s.displaced d k y).rd o = s.rd o := by
  rw [State.displaced, (State.trace_relAs _ _ _ _ _ _).rd o h, State.rd_inc_ne _ _ _ _ hne, State.setSch_rd]

theorem State.headed_keeps (d k : Nat) (i : Item) : (s.headed d k i).keeps s (.ktl :: relPieces) :=
  (State.trace_keeps _ _ _ _ _ _).after ((State.putSlot_keeps _ _ _ _).after (m := .ktl :: relPieces) (s.setSch_keeps _ _).widen)

theorem State.headed_slots {d k : Nat} (i : Item) (hd : d < s.sched.length) (hk : k % 64 < (s.sch d).slots.length) :
    ((s.headed d k i).sch d).slots.getD (k % 64) [] = (i :: (s.sch d).slots.getD (k % 64) []).take 2 := by
  rw [State.headed, (State.trace_keeps _ _ _ _ _ _).sch, State.putSlot_sch _ _ (by rwa [State.setSch_length]), s.setSch_sch_same _ hd]
  exact getD_listSet_same _ _ hk

theorem State.headed_length (d k : Nat) (i : Item) : (s.headed d k i).sched.length = s.sched.length := by
  rw [State.headed, (State.trace_keeps _ _ _ _ _ _) .sched (by decide), State.putSlot, State.setSch_length,
    (State.touch_keeps _ _ _) .sched (by decide), State.setSch_length]

theorem State.headed_rd {d k : Nat} {i : Item} {o : Nat} (h : relReg o = false) (hne : o % 0x400000 ≠ 0xB048 ∧ o % 0x400000 ≠ 0xB050) :
    (s.headed d k i).rd o = s.rd o := by
  rw [State.headed, (State.trace_relAs _ _ _ _ _ _).rd o h, State.putSlot_rd _ _ hne, State.setSch_rd]

/-- A commit-queue item taken: its core's slot, and the frame (R252). -/
theorem State.dispatchCommit_after {d k : Nat} (i : Item) (hd : d < s.sched.length) (hk : k % 64 < (s.sch d).slots.length) :
    ((s.dispatchCommit d k i).sch d).slots.getD (k % 64) [] = (i :: (s.sch d).slots.getD (k % 64) []).take 2
      ∧ (s.dispatchCommit d k i).keeps s (.ktl :: relPieces) ∧ (s.dispatchCommit d k i).sched.length = s.sched.length
      ∧ (s.dispatchCommit d k i).rd64 (Reg.schDispatchLo d) = s.rd64 (Reg.schDispatchLo d) := by
  have hrd : (s.headed d k i).rd64 (Reg.schDispatchLo d) = s.rd64 (Reg.schDispatchLo d) := s.rd64_congr fun o ho => by
    obtain ⟨hrel, -, hdie⟩ := schDispatch_kept d o ho
    exact s.headed_rd hrel hdie
  rw [State.dispatchCommit_eq]
  cases (i :: (s.sch d).slots.getD (k % 64) []).drop 2 with
  | nil => exact ⟨s.headed_slots i hd hk, s.headed_keeps d k i, s.headed_length d k i, hrd⟩
  | cons y _ =>
    rw [State.overflowed]
    refine ⟨?_, (State.displaced_keeps _ d k y).after (s.headed_keeps d k i), ?_, ?_⟩
    · rw [State.displaced_slots, s.headed_slots i hd hk]
    · rw [State.displaced_length, State.headed_length]
    · rw [← hrd]
      refine State.rd64_congr _ fun o ho => ?_
      obtain ⟨hrel, hne, -⟩ := schDispatch_kept d o ho
      exact State.displaced_rd _ hrel hne

/-! ### DISPATCH -/

theorem State.nextCore_work {d p k : Nat} (h : s.nextCore d = some (p, k)) : d < s.sched.length := by
  by_contra hd
  have hdef : s.sch d = {} := List.getD_eq_default _ _ (by omega)
  obtain ⟨x, -, hx⟩ := List.exists_of_findSome?_eq_some h
  have hwork : s.hasWork d x = false := by
    rw [State.hasWork, hdef]
    rfl
  rw [hwork, if_neg (by decide)] at hx
  exact absurd hx (by simp)

theorem State.at_pdUp (t d : Nat) : (s.at t).pdUp d = s.pdUp d := by
  obtain ⟨_, _, _, _, _, h⟩ := s.at_with t
  rw [h]
  rfl

theorem exec_dispatch {s : State} {die k p t : Nat} (hup : s.pdUp die = true) (hnext : (s.at t).nextCore die = some (p, k)) :
    exec (.dispatch die k t) s = .next ((s.at t).dispatchOne die p k).finish := by
  change execDispatch die k t s = _
  unfold execDispatch
  dsimp only
  rw [State.at_pdUp, hup, hnext, if_pos ⟨rfl, by simp⟩]
  rfl

/-- The decision counted, and the partition's turn taken. -/
def State.turnTaken (s : State) (d p : Nat) : State :=
  (s.add64 (Reg.schDispatchLo d) 1).setSch d { (s.add64 (Reg.schDispatchLo d) 1).sch d with rr := p }

theorem State.turnTaken_rd64 (d p : Nat) : (s.turnTaken d p).rd64 (Reg.schDispatchLo d) = (s.rd64 (Reg.schDispatchLo d) + 1) % 2 ^ 64 := by
  rw [← s.rd64_add64 _ Nat.one_ne_zero]
  refine State.rd64_congr _ fun o _ => ?_
  rw [State.turnTaken, State.setSch_rd]

theorem State.dispatchOne_of_commit {d p k : Nat} {i : Item} (h : s.commitFor d p k = some i) :
    s.dispatchOne d p k = (s.dispatchCommit d k i).turnTaken d p := by
  unfold State.dispatchOne
  rw [h]
  rfl

theorem dispatch_commit (die t p k : Nat) (s : State) (i : Item) (hcalm : s.calm) (hup : s.pdUp die = true)
    (hnext : (s.at t).nextCore die = some (p, k)) (hcommit : s.commitFor die p k = some i) (hslots : (s.sch die).slots.length = 64) :
    ∃ u, exec (.dispatch die k t) s = .next u
      ∧ (u.sch die).slots.getD (k % 64) [] = (i :: (s.sch die).slots.getD (k % 64) []).take 2
      ∧ (u.sch die).rr = p ∧ u.rd64 (Reg.schDispatchLo die) = ((s.at t).rd64 (Reg.schDispatchLo die) + 1) % 2 ^ 64
      ∧ u.keeps (s.at t) (.ktl :: relPieces) := by
  have hlen := (s.at t).nextCore_work hnext
  have hcommit' : (s.at t).commitFor die p k = some i := by
    obtain ⟨_, _, _, _, _, h⟩ := s.at_with t
    rw [h]
    exact hcommit
  have hsch : (s.at t).sch die = s.sch die := State.at_sch _ _ _
  obtain ⟨hget, hkeeps, hlen', hrd⟩ := (s.at t).dispatchCommit_after (k := k) i hlen (by rw [hsch, hslots]; exact Nat.mod_lt _ (by decide))
  refine ⟨_, exec_dispatch hup hnext, ?_⟩
  rw [(s.at t).dispatchOne_of_commit hcommit']
  generalize (s.at t).dispatchCommit die k i = v at hget hkeeps hlen' hrd
  have hadd := v.add64_keeps (Reg.schDispatchLo die) 1
  have hk : (v.turnTaken die p).keeps (s.at t) (.ktl :: relPieces) := (State.setSch_keeps _ _ _).after (hadd.after hkeeps)
  have hf := hk.calm (s.at_calm t hcalm)
  have hturn : (v.turnTaken die p).sch die = { v.sch die with rr := p } := by
    rw [State.turnTaken, State.setSch_sch_same _ _ (by rw [hadd .sched (by decide)]; omega), hadd.sch]
  refine ⟨?_, ?_, ?_, hk.finish (s.at_calm t hcalm)⟩
  · rw [State.finish_sch hf, hturn, ← hsch]
    exact hget
  · rw [State.finish_sch hf, hturn]
  · rw [State.finish_rd64 hf, ← hrd]
    exact v.turnTaken_rd64 die p

/-- The chosen item put at the end of the core's slot, counted and traced. -/
def State.queued (s : State) (d p k : Nat) (i : Item) (x : SchedDie) : State :=
  (((s.setSch d { x with rr := p }).putSlot d k (x.slots.getD (k % 64) [] ++ [i])).add64 (Reg.schDispatchLo d) 1).trace d 0x02 k i i.seq

theorem State.dispatchOne_of_choose {d p k : Nat} {i : Item} {x : SchedDie} (h : s.commitFor d p k = none) (hc : s.choose d p k = (some i, x)) :
    s.dispatchOne d p k = (s.queued d p k i x).resume d := by
  unfold State.dispatchOne
  rw [h]
  dsimp only
  rw [hc]
  rfl

theorem dispatch_choose (die t p k : Nat) (s : State) (i : Item) (x : SchedDie) (hcalm : s.calm) (hup : s.pdUp die = true)
    (hnext : (s.at t).nextCore die = some (p, k)) (hcommit : s.commitFor die p k = none) (hchoose : (s.at t).choose die p k = (some i, x))
    (hslots : x.slots.length = 64) :
    ∃ u, exec (.dispatch die k t) s = .next u
      ∧ (u.sch die).slots.getD (k % 64) [] = x.slots.getD (k % 64) [] ++ [i] ∧ (u.sch die).rr = p
      ∧ u.rd64 (Reg.schDispatchLo die) = ((s.at t).rd64 (Reg.schDispatchLo die) + 1) % 2 ^ 64
      ∧ u.keeps (s.at t) (.ktl :: relPieces) := by
  have hlen := (s.at t).nextCore_work hnext
  have hcommit' : (s.at t).commitFor die p k = none := by
    obtain ⟨_, _, _, _, _, h⟩ := s.at_with t
    rw [h]
    exact hcommit
  refine ⟨_, exec_dispatch hup hnext, ?_⟩
  rw [(s.at t).dispatchOne_of_choose hcommit' hchoose]
  let v := s.at t
  let a := v.setSch die { x with rr := p }
  let b := a.putSlot die k (x.slots.getD (k % 64) [] ++ [i])
  let c := b.add64 (Reg.schDispatchLo die) 1
  let e := v.queued die p k i x
  have hb : b.keeps v (.ktl :: relPieces) := (a.putSlot_keeps _ _ _).after (m := .ktl :: relPieces) (v.setSch_keeps _ _).widen
  have hc : c.keeps b [.regs] := b.add64_keeps _ _
  have he : e.keeps c [.fresh, .errs, .mem, .regs, .ints, .traceQ] := c.trace_keeps _ _ _ _ _
  have hk : (e.resume die).keeps v (.ktl :: relPieces) := (e.resume_keeps die).after (he.after (hc.after hb))
  have hf := hk.calm (s.at_calm t hcalm)
  have hbsch : b.sch die = { x with rr := p, slots := listSet x.slots (k % 64) (x.slots.getD (k % 64) [] ++ [i]) } := by
    rw [a.putSlot_sch _ (by rw [State.setSch_length]; exact hlen), v.setSch_sch_same _ hlen]
  have hesch : e.sch die = b.sch die := by rw [he.sch, hc.sch]
  obtain ⟨hslot, hrr, -, -⟩ := SchedDie.fields_of_fixed ((e.resume_relAs die).fixed die)
  rw [hesch, hbsch] at hslot hrr
  refine ⟨?_, ?_, ?_, hk.finish (s.at_calm t hcalm)⟩
  · rw [State.finish_sch hf]
    refine (congrArg (fun l : List (List Item) => l.getD (k % 64) []) hslot).trans (getD_listSet_same _ _ ?_)
    rw [hslots]
    exact Nat.mod_lt _ (by decide)
  · rw [State.finish_sch hf]
    exact hrr
  · have hcount : (e.resume die).rd64 (Reg.schDispatchLo die) = c.rd64 (Reg.schDispatchLo die) := c.rd64_congr fun o ho => by
      obtain ⟨hrel, -, -⟩ := schDispatch_kept die o ho
      rw [(e.resume_relAs die).rd o hrel]
      exact (c.trace_relAs _ _ _ _ _).rd o hrel
    have hbefore : b.rd64 (Reg.schDispatchLo die) = v.rd64 (Reg.schDispatchLo die) := v.rd64_congr fun o ho => by
      obtain ⟨-, -, hdie⟩ := schDispatch_kept die o ho
      exact a.putSlot_rd _ hdie
    rw [State.finish_rd64 hf]
    exact hcount.trans ((b.rd64_add64 _ (by decide)).trans (by rw [hbefore]))

/-! ### ITEM_COMPLETE -/

/-- The item out of service, on a die whose cores look for work again. -/
def State.servedOut (s : State) (d : Nat) (e : Nat × Item) : State :=
  { s with sched := (listSet s.sched d { s.sch d with busy := (s.sch d).busy.erase e }).map fun (y : SchedDie) => { y with idle := [] } }

/-- The completion target of an item's task set (R245). -/
def State.targetFlag (s : State) (i : Item) : State :=
  match (s.pcfg i.part).task i.task with
  | none => s
  | some r => match r.target with
    | some (u, f) => if f < 24 ∧ u ≠ i.task then s.setFlag i.part u f else s
    | none => s

theorem State.servedOut_keeps (d : Nat) (e : Nat × Item) : (s.servedOut d e).keeps s [.sched] := s.setSched_keeps _

theorem State.servedOut_busy {d : Nat} (e : Nat × Item) (hd : d < s.sched.length) : ((s.servedOut d e).sch d).busy = (s.sch d).busy.erase e := by
  rw [State.servedOut, State.sch, List.getD_eq_getElem?_getD, List.getElem?_map, listSet, List.getElem?_set_self hd]
  rfl

theorem State.ingestDone_keeps (i : Item) : (s.ingestDone i).keeps s [.fif] := State.keeps_ite (s.setFif_keeps _) (s.keeps_refl _)

theorem State.targetFlag_after (i : Item) : (s.targetFlag i).keeps s relPieces ∧ (s.targetFlag i).relAs s := by
  have hself : s.keeps s relPieces ∧ s.relAs s := ⟨s.keeps_refl _, s.relAs_refl⟩
  unfold State.targetFlag
  split
  · exact hself
  · split
    · split
      · exact ⟨s.setFlag_keeps _ _ _, s.setFlag_relAs _ _ _⟩
      · exact hself
    · exact hself

theorem exec_itemComplete {s : State} {die core t : Nat} {e : Nat × Item}
    (h : ((s.at t).sch die).busy.find? (fun e => e.1 == core && (s.at t).itemDone core e.2) = some e) :
    exec (.itemComplete die core t) s = .next ((((s.at t).servedOut die e).ingestDone e.2).targetFlag e.2).finish := by
  change execItemComplete die core t s = _
  unfold execItemComplete
  dsimp only
  rw [h]
  rfl

theorem itemComplete_busy (die core t : Nat) (s : State) (e : Nat × Item) (hcalm : s.calm)
    (h : (s.sch die).busy.find? (fun e => e.1 == core && s.itemDone core e.2) = some e) :
    ∃ u, exec (.itemComplete die core t) s = .next u ∧ (u.sch die).busy = (s.sch die).busy.erase e ∧ u.keeps (s.at t) (.fif :: relPieces) := by
  have hat : ((s.at t).sch die).busy.find? (fun e => e.1 == core && (s.at t).itemDone core e.2) = some e := by
    obtain ⟨_, _, _, _, _, ha⟩ := s.at_with t
    rw [ha]
    exact h
  have hd : die < (s.at t).sched.length := by
    by_contra hd
    rw [State.sch, List.getD_eq_default _ _ (by omega)] at hat
    exact absurd hat (by simp)
  refine ⟨_, exec_itemComplete hat, ?_⟩
  have hbusy := (s.at t).servedOut_busy e hd
  have hk := (s.at t).servedOut_keeps die e
  generalize (s.at t).servedOut die e = v at hbusy hk
  have hdone := v.ingestDone_keeps e.2
  obtain ⟨hflag, hrel⟩ := (v.ingestDone e.2).targetFlag_after e.2
  have hall : ((v.ingestDone e.2).targetFlag e.2).keeps (s.at t) (.fif :: relPieces) := hflag.after (hdone.after (hk.widen (m := .fif :: relPieces)))
  refine ⟨?_, hall.finish (s.at_calm t hcalm)⟩
  obtain ⟨-, -, hb, -⟩ := SchedDie.fields_of_fixed (hrel.fixed die)
  rw [State.finish_sch (hall.calm (s.at_calm t hcalm)), hb, hdone.sch, hbusy, State.at_sch]

/-! ### TRACE_DROP -/

theorem traceDrop_queue (die p t : Nat) (s : State) (r : TraceRec) (hcalm : s.calm)
    (h : (s.at t).traceQ.find? (fun r => r.die == some die && r.part == p && decide (r.t + 1000 ≤ (s.at t).time)) = some r) :
    ∃ u, exec (.traceDrop die p t) s = .next u ∧ u.traceQ = (s.at t).traceQ.erase r
      ∧ u.rd (Reg.schTraceDrop die) = satAdd ((s.at t).rd (Reg.schTraceDrop die)) 1
      ∧ u.regsAs (s.at t) [Reg.schTraceDrop die] ∧ u.keeps (s.at t) [.traceQ, .regs] := by
  let v : State := { s.at t with traceQ := (s.at t).traceQ.erase r }
  have hexec : exec (.traceDrop die p t) s = .next (v.inc (Reg.schTraceDrop die)).finish := by
    change execTraceDrop die p t s = _
    unfold execTraceDrop
    dsimp only
    rw [h]
    rfl
  have hk : (v.inc (Reg.schTraceDrop die)).keeps (s.at t) [.traceQ, .regs] := (v.inc_keeps _ 1).after ((s.at t).setTraceQ_keeps _).widen
  have hf := hk.calm (s.at_calm t hcalm)
  refine ⟨_, hexec, ?_, ?_, fun o ho => ?_, hk.finish (s.at_calm t hcalm)⟩
  · rw [State.finish_traceQ _ hf, State.inc_traceQ]
  · rw [State.finish_rd _ hf, State.rd_inc_same]
    rfl
  · rw [State.finish_rd _ hf, State.rd_inc_ne _ _ _ _ (by simpa using ho)]
    rfl

/-- Settles O35: the flag register, the delay list, the dispatch decision, completion and a trace record dropped. -/
theorem schedulerEvents : Obligations.SchedulerEvents := by
  unfold Obligations.SchedulerEvents
  exact ⟨schFlagSet_writes, due_flag, dispatch_commit, dispatch_choose, itemComplete_busy, traceDrop_queue⟩

end Sys2Proof.Machine
end

section
/-! SUPPORT. What the phase points of a frame read — the configuration, the runs of the partitions, the stage watchdogs — and a service that
comes in its window (01_architecture.md R20, 14_safety_concept.md R332 to R334). -/

namespace Sys2Proof.Machine

set_option Elab.async false

/-! ### The clock of a partition -/

/-- What the instants of a partition's frames rest on. -/
def PRun.clock (x : PRun) : PSt × Nat × Option Nat × Bool × Bool := (x.st, x.t0, x.lastFrame, x.restart, x.resetting)

/-- Two states have the configuration, the stage watchdogs and the clocks of the partitions in common. -/
structure State.ticksAs (u s : State) : Prop where
  active : u.loader.active = s.loader.active
  wds : u.warden.wds = s.warden.wds
  runs : ∀ q, (u.prun q).clock = (s.prun q).clock

variable {s u v : State}

theorem State.ticksAs_refl (s : State) : s.ticksAs s := ⟨rfl, rfl, fun _ => rfl⟩

theorem State.ticksAs.trans (h : u.ticksAs v) (k : v.ticksAs s) : u.ticksAs s :=
  ⟨h.active.trans k.active, h.wds.trans k.wds, fun q => (h.runs q).trans (k.runs q)⟩

theorem State.keeps.ticksAs {l : List Piece} (h : u.keeps s l) (hl : .loader ∉ l ∧ .warden ∉ l ∧ .parts ∉ l := by decide) : u.ticksAs s := by
  refine ⟨by rw [h .loader hl.1], ?_, fun q => by rw [State.prun, h .parts hl.2.2, State.prun]⟩
  have hw : u.warden.still.wds = s.warden.still.wds := congrArg Warden.wds (h .warden hl.2.1)
  exact hw

theorem State.keeps.prun {l : List Piece} (h : u.keeps s l) (p : Nat) (hl : .parts ∉ l := by decide) : u.prun p = s.prun p := by
  rw [State.prun, h .parts hl, State.prun]

/-- A run replaced by one with the same clock. -/
theorem State.setPRun_ticksAs (p : Nat) {x : PRun} (h : x.clock = (s.prun p).clock) : (s.setPRun p x).ticksAs s := by
  refine ⟨rfl, rfl, fun q => ?_⟩
  by_cases hq : q = p
  · subst hq
    by_cases hlen : q < s.parts.length
    · rw [State.setPRun_prun_same _ _ hlen, h]
    · rw [State.prun, State.setPRun_parts_of_length_le _ _ (by omega), State.prun]
  · rw [State.setPRun_prun_of_ne _ _ hq]

theorem State.at_ticksAs (s : State) (t : Nat) : (s.at t).ticksAs s := by
  refine ⟨by simp, by simp, fun q => by simp⟩

theorem PRun.fields_of_clock {x y : PRun} (h : x.clock = y.clock) :
    x.st = y.st ∧ x.t0 = y.t0 ∧ x.lastFrame = y.lastFrame ∧ x.restart = y.restart ∧ x.resetting = y.resetting := by
  simpa [PRun.clock] using h

namespace State.ticksAs

theorem cfg (h : u.ticksAs s) : u.cfg = s.cfg := by rw [State.cfg, h.active, State.cfg]

theorem pcfg (h : u.ticksAs s) (p : Nat) : u.pcfg p = s.pcfg p := by rw [State.pcfg, h.cfg, State.pcfg]

theorem master (h : u.ticksAs s) : u.master = s.master := by rw [State.master, h.cfg, State.master]

theorem running (h : u.ticksAs s) (p : Nat) : u.running p = s.running p := by
  obtain ⟨hst, -, -, hre, hrs⟩ := PRun.fields_of_clock (h.runs p)
  rw [State.running, hst, hre, hrs, State.running]

theorem runsHead (h : u.ticksAs s) (p n : Nat) : u.runsHead p n = s.runsHead p n := by
  obtain ⟨-, -, hlast, -, -⟩ := PRun.fields_of_clock (h.runs p)
  rw [State.runsHead, h.running, hlast, State.runsHead]

theorem runsTail (h : u.ticksAs s) (p n : Nat) : u.runsTail p n = s.runsTail p n := by
  obtain ⟨-, -, hlast, -, -⟩ := PRun.fields_of_clock (h.runs p)
  rw [State.runsTail, h.running, hlast, State.runsTail]

theorem winStart (h : u.ticksAs s) (p n : Nat) : u.winStart p n = s.winStart p n := by
  obtain ⟨-, ht0, -, -, -⟩ := PRun.fields_of_clock (h.runs p)
  rw [State.winStart, ht0, State.period, h.pcfg, State.winStart, State.period]

theorem phaseAt (h : u.ticksAs s) (p n off : Nat) : u.phaseAt p n off = s.phaseAt p n off := by
  rw [State.phaseAt, h.winStart, State.phaseAt]

theorem wd (h : u.ticksAs s) (w : Nat) : u.wd w = s.wd w := by rw [State.wd, h.wds, State.wd]

theorem wdWin (h : u.ticksAs s) (w : Nat) : u.wdWin w = s.wdWin w := by
  unfold State.wdWin
  rw [h.cfg]

theorem wdExpects (h : u.ticksAs s) (w : Nat) : u.wdExpects w = s.wdExpects w := by
  simp only [State.wdExpects, h.wd, h.master, h.runsHead, h.runsTail]

theorem wdOpen (h : u.ticksAs s) (w : Nat) : u.wdOpen w = s.wdOpen w := by
  simp only [State.wdOpen, h.wd, h.master, h.phaseAt, h.wdWin]

theorem wdDue (h : u.ticksAs s) {w n t : Nat} (hd : s.wdDue w n t) : u.wdDue w n t := by
  rw [State.wdDue, h.wdExpects, h.wd, h.wdOpen]
  exact hd

end State.ticksAs

/-! ### A service in its window -/

/-- A service that is due is noted, and no more. -/
theorem State.wdServe_of_due {w n t : Nat} (h : s.wdDue w n t) :
    s.wdServe w n t = s.setWd w { s.wd w with frame := n % 65536, expect := if (s.wd w).expect = n then n + 1 else (s.wd w).expect } := by
  unfold State.wdServe
  dsimp only
  rcases h with h | ⟨hn, hlo, hhi⟩
  · rw [h]
    rfl
  · cases hexp : s.wdExpects w
    · rfl
    · rw [if_neg (by simp), if_neg (not_not.mpr hn), if_pos ⟨hlo, hhi⟩]

theorem State.wdServe_keeps {w n t : Nat} (h : s.wdDue w n t) : (s.wdServe w n t).keeps s [.warden] := by
  rw [State.wdServe_of_due h]
  exact s.setWd_keeps _ _

/-! ### A counted phase point -/

theorem State.lt_parts_of_running {p : Nat} (h : s.running p = true) : p < s.parts.length := by
  by_contra hlen
  rw [State.running, State.prun_of_length_le _ (by omega)] at h
  exact absurd h (by decide)

theorem State.lt_parts_of_runsHead {p n : Nat} (h : s.runsHead p n = true) : p < s.parts.length :=
  State.lt_parts_of_running (Bool.and_eq_true _ _ ▸ h).1

theorem State.lt_parts_of_runsTail {p n : Nat} (h : s.runsTail p n = true) : p < s.parts.length :=
  State.lt_parts_of_running (Bool.and_eq_true _ _ ▸ h).1

/-- A run with one phase point more counted, and the tasks of the point's flag released. -/
def State.counted (s : State) (p : Nat) (x : PRun) (flag : Nat) : State := (s.setPRun p x).phaseFlag p flag

theorem State.counted_keeps (s : State) (p : Nat) (x : PRun) (flag : Nat) : (s.counted p x flag).keeps s (.parts :: relPieces) :=
  (State.phaseFlag_keeps _ _ _).after (m := .parts :: relPieces) (s.setPRun_keeps p x).widen

theorem State.counted_prun_same {p : Nat} (x : PRun) (flag : Nat) (h : p < s.parts.length) : (s.counted p x flag).prun p = x := by
  rw [State.counted, (State.phaseFlag_keeps _ _ _).prun, State.setPRun_prun_same _ _ h]

theorem State.counted_prun_of_ne {p q : Nat} (x : PRun) (flag : Nat) (h : q ≠ p) : (s.counted p x flag).prun q = s.prun q := by
  rw [State.counted, (State.phaseFlag_keeps _ _ _).prun, State.setPRun_prun_of_ne _ _ h]

theorem State.counted_ticksAs {p : Nat} {x : PRun} (flag : Nat) (h : x.clock = (s.prun p).clock) : (s.counted p x flag).ticksAs s :=
  (State.phaseFlag_keeps _ _ _).ticksAs.trans (s.setPRun_ticksAs p h)

theorem State.counted_relAs (s : State) (p : Nat) (x : PRun) (flag : Nat) : (s.counted p x flag).relAs s :=
  (State.phaseFlag_relAs _ _ _).trans (s.setPRun_keeps p x).relAs

/-- A phase point that only counts and releases: its frame. -/
theorem State.counted_finish {p t : Nat} {x : PRun} (flag : Nat) (hcalm : s.calm) (hp : p < s.parts.length) :
    ((s.at t).counted p x flag).finish.prun p = x ∧ ((s.at t).counted p x flag).finish.time = (s.at t).time
      ∧ (∀ q, q ≠ p → ((s.at t).counted p x flag).finish.prun q = s.prun q)
      ∧ ((s.at t).counted p x flag).finish.keeps (s.at t) ([.parts] ++ relPieces) := by
  have hk : ((s.at t).counted p x flag).keeps (s.at t) ([.parts] ++ relPieces) := (s.at t).counted_keeps p x flag
  have hf := hk.calm (s.at_calm t hcalm)
  refine ⟨?_, (State.finish_time _ hf).trans (hk .time (by decide)), fun q hq => ?_, hk.finish (s.at_calm t hcalm)⟩
  · rw [State.finish_prun hf, State.counted_prun_same x flag (by rwa [State.at_parts])]
  · rw [State.finish_prun hf, State.counted_prun_of_ne x flag hq, State.at_prun]

end Sys2Proof.Machine
end

section
/-! SUPPORT. The build of an epoch (03_clearance_field.md R70 to R91). -/

namespace Sys2Proof.Machine

set_option Elab.async false

variable {s u : State}

/-! ### Builders and banks -/

theorem State.healthy_congr (herrs : u.errs.bare = s.errs.bare) (k : Nat) : u.healthy k = s.healthy k := by
  have hret : u.errs.bare.list ++ u.errs.bare.extra = s.errs.bare.list ++ s.errs.bare.extra := by rw [herrs]
  have hst : u.errs.bare.states = s.errs.bare.states := by rw [herrs]
  have hretired : u.retired = s.retired := hret
  have hstates : u.errs.states = s.errs.states := hst
  have hphase : u.phase k = s.phase k := by
    unfold State.phase State.isRetired State.faultSt
    rw [hretired, hstates]
  rw [State.healthy, hphase, State.healthy]

theorem State.builderOf_congr (hdev : u.dev = s.dev) (hktl : u.ktl.lock = s.ktl.lock) (herrs : u.errs.bare = s.errs.bare) (g : Nat) :
    u.builderOf g = s.builderOf g := by
  have hup : u.builderUp = s.builderUp := by
    funext k
    rw [State.builderUp, State.healthy_congr herrs, State.pdUp, hdev, hktl]
    rfl
  rw [State.builderOf, hup, State.builderOf]

theorem State.doneFired_congr (hsync : u.sync = s.sync) (hcfg : u.cfg = s.cfg) (d q : Nat) : u.doneFired d q = s.doneFired d q := by
  simp only [State.doneFired, hsync, hcfg]

variable (s)

theorem State.countBank_keeps (q : Nat) : (s.countBank q).keeps s [.regs] :=
  State.keeps_foldl (fun v _ => State.keeps_ite (v.inc_keeps _ 1) (v.keeps_refl _)) (s.keeps_refl _) _

theorem State.clearDone_keeps (q : Nat) : (s.clearDone q).keeps s [.sync] := s.setSync_keeps _

/-! ### BUILD_START -/

/-- What the builders find of bank q as the build starts (R86). -/
def State.bankResult (s : State) (q : Nat) : Nat :=
  if !(s.doneFired 0 q && s.doneFired 1 q) then 1 else if s.bankBad 0 q || s.bankBad 1 q then 4 else 0

/-- The bank read: its poison counted where it is invalid, its DONE marks cleared. -/
def State.bankRead (s : State) (q : Nat) : State := (if s.bankResult q = 4 then s.countBank q else s).clearDone q

/-- The build of partition p's frame n. -/
def State.newBuild (s : State) (p n off result : Nat) : FldBuild :=
  { frame := n, b := s.phaseAt p n off, epoch := (s.fld.epoch + 1) % 65536, result }

/-- A build begun: no store is READY. -/
def State.building (s : State) (b : FldBuild) : State :=
  { s with fld := { s.fld with stores := s.fld.stores.map fun (x : StoreSt) => { x with ready := false }, build := some b } }

theorem State.bankRead_keeps (q : Nat) : (s.bankRead q).keeps s [.regs, .sync] :=
  (State.clearDone_keeps _ q).after (m := [.regs, .sync]) (State.keeps_ite (s.countBank_keeps q).widen (s.keeps_refl _))

/-- The result of a build that starts: a missing DONE word, or what the bank holds (R86). -/
theorem State.bankResult_cases (q : Nat) :
    if s.doneFired 0 q && s.doneFired 1 q then s.bankResult q = 0 ∨ s.bankResult q = 4 else s.bankResult q = 1 := by
  unfold State.bankResult
  split
  next h =>
    rw [h, if_neg (by decide)]
    split
    · exact .inr rfl
    · exact .inl rfl
  next h => rw [Bool.not_eq_true] at h; rw [h]; rfl

theorem exec_buildStart {s : State} {p late t : Nat} (hhead : s.runsHead p (s.prun p).nBuild = true) (hopen : (s.prun p).nBuild < (s.prun p).opened)
    (ht : s.phaseAt p (s.prun p).nBuild (s.pcfg p).frame.buildStart + late = t) :
    exec (.buildStart p late) s = .next (
      let a := (s.at t).counted p { s.prun p with nBuild := (s.prun p).nBuild + 1 } 26
      if a.master = some p ∧ (a.builderOf 0).isSome then
        let r := a.bankRead ((s.prun p).nBuild % 2)
        (r.building (r.newBuild p (s.prun p).nBuild (s.pcfg p).frame.publish (a.bankResult ((s.prun p).nBuild % 2)))).wdServe 2 (s.prun p).nBuild t
      else a).finish := by
  change execBuildStart p late s = _
  unfold execBuildStart
  dsimp only
  rw [hhead, decide_eq_true hopen, if_pos (by decide), ht, State.at_prun]
  rfl

theorem buildStart_master (p late : Nat) (s : State) (hcalm : s.calm) (hhead : s.runsHead p (s.prun p).nBuild = true)
    (hopen : (s.prun p).nBuild < (s.prun p).opened) (hmaster : s.master = some p) (hbuilder : (s.builderOf 0).isSome = true) :
    let n := (s.prun p).nBuild
    let t := s.phaseAt p n (s.pcfg p).frame.buildStart + late
    s.wdDue 2 n t →
    ∃ u b, exec (.buildStart p late) s = .next u ∧ u.prun p = { s.prun p with nBuild := n + 1 } ∧ u.fld.build = some b
      ∧ b.frame = n ∧ b.b = s.phaseAt p n (s.pcfg p).frame.publish ∧ b.epoch = (s.fld.epoch + 1) % 65536 ∧ b.sealed = false
      ∧ (if s.doneFired 0 (n % 2) && s.doneFired 1 (n % 2) then b.result = 0 ∨ b.result = 4 else b.result = 1)
      ∧ (∀ x ∈ u.fld.stores, x.ready = false) ∧ u.fld.epoch = s.fld.epoch ∧ u.fld.valid = s.fld.valid := by
  intro n t hdue
  have hexec := exec_buildStart (late := late) hhead hopen rfl
  have ha := (s.at t).counted_keeps p { s.prun p with nBuild := n + 1 } 26
  have hrel := (s.at t).counted_relAs p { s.prun p with nBuild := n + 1 } 26
  have htick := ((s.at t).counted_ticksAs (p := p) (x := { s.prun p with nBuild := n + 1 }) 26 (by rw [State.at_prun]; rfl)).trans (s.at_ticksAs t)
  have hprun := (s.at t).counted_prun_same (p := p) { s.prun p with nBuild := n + 1 } 26 (by rw [State.at_parts]; exact State.lt_parts_of_runsHead hhead)
  dsimp only at hexec
  generalize (s.at t).counted p { s.prun p with nBuild := n + 1 } 26 = a at hexec ha hrel htick hprun
  have hbuilder' : (a.builderOf 0).isSome = true := by
    rw [State.builderOf_congr (s := s) ((ha .dev (by decide)).trans (by simp)) ((ha.lock (by decide)).trans (by simp)) (hrel.errs.trans (by simp))]
    exact hbuilder
  have hdone (d : Nat) : a.doneFired d (n % 2) = s.doneFired d (n % 2) :=
    State.doneFired_congr ((ha .sync (by decide)).trans (by simp)) htick.cfg _ _
  rw [if_pos ⟨htick.master.trans hmaster, hbuilder'⟩] at hexec
  have hresult := a.bankResult_cases (n % 2)
  rw [hdone, hdone] at hresult
  have hr := a.bankRead_keeps (n % 2)
  have hrfld : (a.bankRead (n % 2)).fld = s.fld := (hr .fld (by decide)).trans ((ha .fld (by decide)).trans (s.at_fld t))
  have hrtick : (a.bankRead (n % 2)).ticksAs s := hr.ticksAs.trans htick
  generalize a.bankResult (n % 2) = res at hexec hresult
  generalize a.bankRead (n % 2) = r at hexec hr hrfld hrtick
  have hb : (r.building (r.newBuild p n (s.pcfg p).frame.publish res)).keeps r [.fld] := r.setFld_keeps _
  have hserve := State.wdServe_keeps ((hb.ticksAs.trans hrtick).wdDue hdue)
  have hrk : r.keeps (s.at t) (.warden :: .fld :: .sync :: .parts :: relPieces) := hr.after ha.widen
  have hk := hserve.after (hb.after hrk)
  have hf := hk.calm (s.at_calm t hcalm)
  have hfld := (State.finish_fld _ hf).trans (hserve .fld (by decide))
  refine ⟨_, r.newBuild p n (s.pcfg p).frame.publish res, hexec, ?_, ?_, rfl, hrtick.phaseAt _ _ _, ?_, rfl, hresult, ?_, ?_, ?_⟩
  · rw [State.finish_prun hf, hserve.prun, hb.prun, hr.prun, hprun]
  · rw [hfld]
    rfl
  · rw [State.newBuild, hrfld]
  · rw [hfld]
    intro x hx
    obtain ⟨y, -, rfl⟩ := List.mem_map.mp hx
    rfl
  · rw [hfld, ← hrfld]
    rfl
  · rw [hfld, ← hrfld]
    rfl

/-! ### BUILD_SEAL -/

theorem State.writeItems_keeps (items : List (Nat × List Byte)) (g : Nat) : (s.writeItems items g).keeps s [.mem, .regs] :=
  State.keeps_foldl (fun v _ => v.store_keeps _ _) (s.keeps_refl _) _

/-- The items of a build written to the stores of a list. -/
def State.itemsWritten (s : State) (items : List (Nat × List Byte)) (up : List Nat) : State := up.foldl (State.writeItems · items) s

theorem State.itemsWritten_keeps (items : List (Nat × List Byte)) (up : List Nat) : (s.itemsWritten items up).keeps s [.mem, .regs] :=
  State.keeps_foldl (fun v g => v.writeItems_keeps items g) (s.keeps_refl _) _

/-- A store at the seal: READY where its sum matches and it holds the epoch before (R91). -/
def StoreSt.atSeal (y : StoreSt) (bad : List Nat) (g : Nat) : StoreSt := { y with ready := !bad.contains g && (!y.excluded || y.copied) }

/-- The stores of a list judged at the seal. -/
def State.sealStores (s : State) (bad up : List Nat) : State := up.foldl (fun s g => s.setStore g ((s.fstore g).atSeal bad g)) s

theorem State.sealStores_keeps (bad up : List Nat) : (s.sealStores bad up).keeps s [.fld] :=
  State.keeps_foldl (fun v g => v.setStore_keeps g _) (s.keeps_refl _) _

theorem State.sealStores_fld (bad up : List Nat) : ∃ l, (s.sealStores bad up).fld = { s.fld with stores := l } := by
  unfold State.sealStores
  induction up generalizing s with
  | nil => exact ⟨_, rfl⟩
  | cons g r ih =>
    obtain ⟨l, hl⟩ := ih (s.setStore g ((s.fstore g).atSeal bad g))
    exact ⟨l, hl⟩

theorem State.sealStores_ready (bad up : List Nat) {g : Nat} (hlen : g < s.fld.stores.length) (h : g ∈ up ∨ (s.fstore g).atSeal bad g = s.fstore g) :
    (s.sealStores bad up).fstore g = (s.fstore g).atSeal bad g := by
  unfold State.sealStores
  induction up generalizing s with
  | nil => exact (h.resolve_left List.not_mem_nil).symm
  | cons k r ih =>
    rw [List.foldl_cons]
    have hlen' : g < (s.setStore k ((s.fstore k).atSeal bad k)).fld.stores.length := by
      rw [State.setStore, length_listSet]
      exact hlen
    by_cases hk : k = g
    · subst hk
      have hsame : (s.setStore k ((s.fstore k).atSeal bad k)).fstore k = (s.fstore k).atSeal bad k := getD_listSet_same _ _ hlen
      rw [ih _ hlen' (.inr (by rw [hsame]; rfl)), hsame]
      rfl
    · have hother : (s.setStore k ((s.fstore k).atSeal bad k)).fstore g = s.fstore g := getD_listSet_of_ne _ _ _ (Ne.symm hk)
      rw [ih _ hlen' (by rw [hother]; exact h.imp_left fun hm => (List.mem_cons.mp hm).resolve_left (Ne.symm hk)), hother]

/-- A build shown in the field. -/
def State.showBuild (s : State) (b : FldBuild) : State := { s with fld := { s.fld with build := some b } }

/-- The items of a sealed build written to the stores in service, which are judged. -/
def State.sealed (s : State) (x : Sealed) (bad : List Nat) : State :=
  ((s.showBuild x.build).itemsWritten x.items ((List.range 16).filter s.storeUp)).sealStores bad ((List.range 16).filter s.storeUp)

theorem State.sealed_keeps (x : Sealed) (bad : List Nat) : (s.sealed x bad).keeps s [.fld, .mem, .regs] :=
  (State.sealStores_keeps _ _ _).after <| ((s.showBuild x.build).itemsWritten_keeps x.items _).after
    ((s.setFld_keeps _).widen (m := [.fld, .mem, .regs]))

theorem State.at_storeUp (t g : Nat) : (s.at t).storeUp g = s.storeUp g := by
  obtain ⟨_, _, _, _, _, h⟩ := s.at_with t
  rw [h]
  rfl

theorem State.at_fstore (t g : Nat) : (s.at t).fstore g = s.fstore g := by rw [State.fstore, State.at_fld, State.fstore]

theorem exec_buildSeal {s : State} {b : FldBuild} (bad : List Nat) (t : Nat) (hbuild : s.fld.build = some b) (hseal : b.sealed = false)
    (hres : b.result = 0) (htime : (s.at t).time + 2000 ≤ b.b) :
    exec (.buildSeal bad t) s = .next (
      if (s.at t).bankBad 0 (b.frame % 2) || (s.at t).bankBad 1 (b.frame % 2) then
        (((s.at t).showBuild { b with result := 4 }).countBank (b.frame % 2)).finish
      else ((s.at t).sealed ((s.at t).sealBuild b) bad).finish) := by
  have hbuild' : (s.at t).fld.build = some b := by rwa [State.at_fld]
  have hgo : (b.sealed || b.result != 0 || decide (b.b < (s.at t).time + 2000)) = false := by
    rw [hseal, hres, decide_eq_false (by omega : ¬ b.b < (s.at t).time + 2000)]
    rfl
  change execBuildSeal bad t s = _
  unfold execBuildSeal
  dsimp only
  rw [hbuild']
  dsimp only
  rw [hgo, if_neg (by decide)]
  split
  · rfl
  · rfl

theorem buildSeal_stores (bad : List Nat) (t : Nat) (s : State) (b : FldBuild) (hcalm : s.calm) (hbuild : s.fld.build = some b)
    (hseal : b.sealed = false) (hres : b.result = 0) (htime : (s.at t).time + 2000 ≤ b.b) :
    ∃ u, exec (.buildSeal bad t) s = .next u ∧
      if (s.at t).bankBad 0 (b.frame % 2) || (s.at t).bankBad 1 (b.frame % 2) then
        u.fld = { s.fld with build := some { b with result := 4 } } ∧ u.keeps (s.at t) [.fld, .regs]
      else u.fld.build = some ((s.at t).sealBuild b).build ∧ u.fld.epoch = s.fld.epoch
        ∧ (s.fld.stores.length = 16 → ∀ g < 16, s.storeUp g = true →
            (u.fstore g).ready = (!bad.contains g && (!(s.fstore g).excluded || (s.fstore g).copied)))
        ∧ u.keeps (s.at t) [.fld, .mem, .regs] := by
  rw [exec_buildSeal bad t hbuild hseal hres htime]
  by_cases hbad : ((s.at t).bankBad 0 (b.frame % 2) || (s.at t).bankBad 1 (b.frame % 2)) = true
  · rw [if_pos hbad]
    refine ⟨_, rfl, ?_⟩
    rw [if_pos hbad]
    have hcount := ((s.at t).showBuild { b with result := 4 }).countBank_keeps (b.frame % 2)
    have hk := hcount.after (m := [.fld, .regs]) ((s.at t).setFld_keeps _).widen
    refine ⟨?_, hk.finish (s.at_calm t hcalm)⟩
    rw [State.finish_fld _ (hk.calm (s.at_calm t hcalm)), hcount .fld (by decide), State.showBuild, State.at_fld]
  · rw [if_neg hbad]
    refine ⟨_, rfl, ?_⟩
    rw [if_neg hbad]
    generalize (s.at t).sealBuild b = x
    have hk := (s.at t).sealed_keeps x bad
    have hf := hk.calm (s.at_calm t hcalm)
    have hwfld := ((s.at t).showBuild x.build).itemsWritten_keeps x.items ((List.range 16).filter (s.at t).storeUp) .fld (by decide)
    refine ⟨?_, ?_, fun hlen g hg hup => ?_, hk.finish (s.at_calm t hcalm)⟩
    · rw [State.finish_fld _ hf]
      obtain ⟨l, hl⟩ := State.sealStores_fld _ bad _
      rw [State.sealed, hl, hwfld]
      rfl
    · rw [State.finish_fld _ hf]
      obtain ⟨l, hl⟩ := State.sealStores_fld _ bad _
      rw [State.sealed, hl, hwfld, ← s.at_fld t]
      rfl
    · have hstore : (((s.at t).showBuild x.build).itemsWritten x.items ((List.range 16).filter (s.at t).storeUp)).fstore g = s.fstore g := by
        rw [State.fstore, hwfld, ← s.at_fstore t g]
        rfl
      have hin : g ∈ (List.range 16).filter (s.at t).storeUp := List.mem_filter.mpr ⟨List.mem_range.mpr hg, by rw [State.at_storeUp]; exact hup⟩
      rw [State.fstore, State.finish_fld _ hf, ← State.fstore, State.sealed, State.sealStores_ready _ _ _ ?_ (.inl hin), hstore]
      · rfl
      · have hstores : ((s.at t).showBuild x.build).fld.stores = s.fld.stores := by rw [← s.at_fld t]; rfl
        rw [hwfld, hstores]
        omega

/-! ### SEAL_DEADLINE and READY_DEADLINE -/

theorem sealDeadline_unsealed (s : State) (b : FldBuild) (hcalm : s.calm) (hbuild : s.fld.build = some b) (hseal : b.sealed = false)
    (hres : b.result = 0) :
    ∃ u, exec .sealDeadline s = .next u ∧ u.fld = { s.fld with build := some { b with result := 2 } } ∧ u.keeps (s.at (b.b - 2000)) [.fld] := by
  have hexec : exec .sealDeadline s = .next ((s.at (b.b - 2000)).showBuild { b with result := 2 }).finish := by
    change execSealDeadline s = _
    unfold execSealDeadline
    rw [hbuild]
    dsimp only
    rw [if_neg (by rw [hseal, hres]; decide)]
    rfl
  have hk : ((s.at (b.b - 2000)).showBuild { b with result := 2 }).keeps (s.at (b.b - 2000)) [.fld] := State.setFld_keeps _ _
  refine ⟨_, hexec, ?_, hk.finish (s.at_calm _ hcalm)⟩
  rw [State.finish_fld _ (hk.calm (s.at_calm _ hcalm)), State.showBuild, State.at_fld]

/-- The stores that judging excludes: those that take part, hold the epoch before and are not READY (R91). -/
def State.unready (s : State) : List Nat :=
  (List.range 16).filter fun g => s.storeUp g && !(s.fstore g).ready && !((s.fstore g).excluded && !(s.fstore g).copied)

/-- A store in service is READY. -/
def State.anyReady (s : State) : Bool := (List.range 16).any fun g => s.storeUp g && (s.fstore g).ready

theorem State.judgeStores_of_ready {s : State} {b : FldBuild} (t : Nat) (h : s.unready = []) :
    s.judgeStores b t = s.showBuild { b with judged := true, result := if s.anyReady then b.result else 3 } := by
  unfold State.judgeStores
  dsimp only
  rw [show (List.filter _ _ : List Nat) = [] from h]
  rfl

theorem readyDeadline_judged (s : State) (b : FldBuild) (hcalm : s.calm) (hbuild : s.fld.build = some b) (hseal : b.sealed = true)
    (hres : b.result = 0) (hjudge : b.judged = false)
    (hready : ∀ g < 16, s.storeUp g = true → (s.fstore g).ready = true ∨ ((s.fstore g).excluded = true ∧ (s.fstore g).copied = false)) :
    let any := (List.range 16).any fun g => s.storeUp g && (s.fstore g).ready
    ∃ u, exec .readyDeadline s = .next u
      ∧ u.fld = { s.fld with build := some { b with judged := true, result := if any then 0 else 3 } }
      ∧ u.keeps (s.at (b.b - 1000)) [.fld] := by
  intro any
  have hnone : (s.at (b.b - 1000)).unready = [] := by
    refine List.filter_eq_nil_iff.mpr fun g hg => ?_
    rw [State.at_storeUp, State.at_fstore]
    cases hup : s.storeUp g
    · simp
    · rcases hready g (List.mem_range.mp hg) hup with h | ⟨h, h'⟩
      · simp [h]
      · simp [h, h']
  have hany : (s.at (b.b - 1000)).anyReady = any := by
    unfold State.anyReady
    simp only [State.at_storeUp, State.at_fstore]
    rfl
  have hexec : exec .readyDeadline s = .next ((s.at (b.b - 1000)).showBuild { b with judged := true, result := if any then 0 else 3 }).finish := by
    rw [← hany, ← hres, ← State.judgeStores_of_ready (b.b - 1000) hnone]
    change execReadyDeadline s = _
    unfold execReadyDeadline
    rw [hbuild]
    dsimp only
    rw [if_pos (by rw [hseal, hres, hjudge]; decide)]
    rfl
  have hk : ((s.at (b.b - 1000)).showBuild { b with judged := true, result := if any then 0 else 3 }).keeps (s.at (b.b - 1000)) [.fld] :=
    State.setFld_keeps _ _
  refine ⟨_, hexec, ?_, hk.finish (s.at_calm _ hcalm)⟩
  rw [State.finish_fld _ (hk.calm (s.at_calm _ hcalm)), State.showBuild, State.at_fld]

/-- Settles O20: the start of a build, its seal, and the two deadlines. -/
theorem fieldBuild : Obligations.FieldBuild := by
  unfold Obligations.FieldBuild
  exact ⟨buildStart_master, buildSeal_stores, sealDeadline_unsealed, readyDeadline_judged⟩

end Sys2Proof.Machine
end

section
/-! SUPPORT. What the work of a fault leaves — units that leave service, runs, solvings and host commands that end, partitions stopped
(16_fault_handling.md R372 to R382): interrupt slots that stand, the registers that it does not count in, the field but for its stores,
and the runs of the partitions but for their last frames. -/

namespace Sys2Proof.Machine

set_option Elab.async false

/-! ### The relation -/

/-- The registers that such work may write: those of a release, the counters of the error collector, of verdicts, of solver engines, of
array runs, and of refused tally operations. -/
def asideReg (o : Nat) : Bool :=
  relReg o || decide (0x107100 ≤ o) && decide (o < 0x107120)
  || decide (0x200000 ≤ o) && (decide (0x4018 ≤ o % 0x400000) && decide (o % 0x400000 ≤ 0x4034)
    || decide (0x803C ≤ o % 0x400000) && decide (o % 0x400000 ≤ 0x804C) || [0x5028, 0xA014].contains (o % 0x400000))

/-- A partition's run, or what a stop has made of it: only its last frame is set. -/
def PRun.haltedFrom (x y : PRun) : Prop := x = y ∨ y.lastFrame = none ∧ ∃ l, x = { y with lastFrame := some l }

/-- The field without its stores. -/
def FldSt.bare (f : FldSt) : FldSt := { f with stores := [] }

/-- Two states differ as such work makes them differ, in the parts that a frame of pieces does not tell. -/
structure State.aside (u s : State) : Prop where
  slots : ∀ src, (s.ints.slot src 0).st ≠ .idle → (u.ints.slot src 0).st ≠ .idle
  rd : ∀ o, asideReg o = false → u.rd o = s.rd o
  fld : u.fld.bare = s.fld.bare
  runs : ∀ q, (u.prun q).haltedFrom (s.prun q)

theorem PRun.haltedFrom.trans {x y z : PRun} (h : x.haltedFrom y) (k : y.haltedFrom z) : x.haltedFrom z := by
  rcases h with rfl | ⟨hy, l, rfl⟩
  · exact k
  · rcases k with rfl | ⟨-, m, rfl⟩
    · exact .inr ⟨hy, l, rfl⟩
    · exact absurd hy (by simp)

variable {s u v : State}

theorem State.aside_refl (s : State) : s.aside s := ⟨fun _ h => h, fun _ _ => rfl, rfl, fun _ => .inl rfl⟩

theorem State.aside.trans (h : u.aside v) (k : v.aside s) : u.aside s :=
  ⟨fun i hi => h.slots i (k.slots i hi), fun o ho => (h.rd o ho).trans (k.rd o ho), h.fld.trans k.fld, fun q => (h.runs q).trans (k.runs q)⟩

theorem State.aside_ite {c : Prop} [Decidable c] {a b : State} (ha : a.aside s) (hb : b.aside s) : (if c then a else b).aside s := by
  split
  · exact ha
  · exact hb

theorem State.aside_foldl_mem {α : Type} {f : State → α → State} (l : List α) (hf : ∀ v, ∀ x ∈ l, (f v x).aside v) (h : u.aside s) :
    (l.foldl f u).aside s := by
  induction l generalizing u with
  | nil => exact h
  | cons x r ih => exact ih (fun v y hy => hf v y (List.mem_cons_of_mem _ hy)) ((hf u x List.mem_cons_self).trans h)

theorem State.aside_foldl {α : Type} {f : State → α → State} (l : List α) (hf : ∀ v x, (f v x).aside v) (h : u.aside s) :
    (l.foldl f u).aside s :=
  State.aside_foldl_mem l (fun v x _ => hf v x) h

/-- A step that changes none of these parts. -/
theorem State.keeps.aside {l : List Piece} (h : u.keeps s l) (hl : .ints ∉ l ∧ .regs ∉ l ∧ .fld ∉ l ∧ .parts ∉ l := by decide) : u.aside s :=
  ⟨fun src hs => by rwa [h .ints hl.1], fun o _ => (h .regs hl.2.1) o (by simp), by rw [h .fld hl.2.2.1], fun q => .inl (h.prun q hl.2.2.2)⟩

/-- A step that counts. -/
theorem State.keeps.aside_of_rd {l : List Piece} (h : u.keeps s l) (hrd : ∀ o, asideReg o = false → u.rd o = s.rd o)
    (hl : .ints ∉ l ∧ .fld ∉ l ∧ .parts ∉ l := by decide) : u.aside s :=
  ⟨fun src hs => by rwa [h .ints hl.1], hrd, by rw [h .fld hl.2.1], fun q => .inl (h.prun q hl.2.2)⟩

/-! ### Which registers -/

theorem asideReg_of_rel {o : Nat} (h : relReg o = true) : asideReg o = true := by
  simp only [asideReg, h, Bool.true_or]

theorem asideReg_of_trig {o : Nat} (h : trigReg o = true) : asideReg o = true :=
  asideReg_of_rel (by simp only [relReg, h, Bool.true_or])

theorem relReg_of_aside {o : Nat} (h : asideReg o = false) : relReg o = false := by
  by_contra hc
  rw [Bool.not_eq_false] at hc
  rw [asideReg_of_rel hc] at h
  exact absurd h (by decide)

theorem trigReg_of_aside {o : Nat} (h : asideReg o = false) : trigReg o = false := by
  by_contra hc
  rw [Bool.not_eq_false] at hc
  rw [asideReg_of_trig hc] at h
  exact absurd h (by decide)

/-- A counter of a planner die. -/
theorem asideReg_of_die {o : Nat} (hlo : 0x200000 ≤ o)
    (h : 0x4018 ≤ o % 0x400000 ∧ o % 0x400000 ≤ 0x4034 ∨ 0x803C ≤ o % 0x400000 ∧ o % 0x400000 ≤ 0x804C ∨ o % 0x400000 = 0x5028 ∨ o % 0x400000 = 0xA014) :
    asideReg o = true := by
  rw [asideReg, decide_eq_true hlo]
  rcases h with ⟨h1, h2⟩ | ⟨h1, h2⟩ | h | h <;> simp [*]

variable (s)

theorem State.wr_aside {o : Nat} (x : Word) (ho : asideReg o = true) : (s.wr o x).aside s :=
  (s.wr_keeps o x).aside_of_rd fun i hi => s.rd_wr_ne _ _ _ (by rintro rfl; rw [ho] at hi; exact absurd hi (by decide))

theorem State.inc_aside {o : Nat} (n : Nat) (ho : asideReg o = true) : (s.inc o n).aside s := State.aside_ite s.aside_refl (s.wr_aside _ ho)

/-! ### Interrupts, records, counts -/

theorem State.raiseSlot_aside (src k : Nat) (hk : k < 2) : (s.raiseSlot src k).aside s := by
  have hset (v : State) (x : ISlot) (hx : x.st ≠ .idle) : ({ v with ints := v.ints.setSlot src k x } : State).aside v := by
    refine ⟨fun a ha => ?_, fun _ _ => rfl, rfl, fun _ => .inl rfl⟩
    rw [IntSt.slot_setSlot _ _ _ _ (by decide) hk]
    split
    · exact hx
    · exact ha
  unfold State.raiseSlot
  extract_lets x w
  have hw : w.aside s := State.aside_ite s.aside_refl (s.inc_aside 1 (asideReg_of_trig (by decide)))
  split
  · exact (hset _ _ (by simp)).trans hw
  · exact (State.inc_aside _ _ (asideReg_of_trig (by decide))).trans hw
  next hst => exact State.aside_ite ((State.inc_aside _ _ (asideReg_of_trig (by decide))).trans hw) ((hset _ _ (by rw [hst]; decide)).trans hw)

theorem State.raise_aside (src : Nat) : (s.raise src).aside s := by
  unfold State.raise
  extract_lets ints w v
  have hw : w.aside s := State.aside_ite ⟨fun _ h => h, fun _ _ => rfl, rfl, fun _ => .inl rfl⟩ s.aside_refl
  have hv : v.aside s := (State.raiseSlot_aside _ _ _ (by decide)).trans hw
  exact State.aside_ite ((State.raiseSlot_aside _ _ _ (by decide)).trans hv) hv

theorem State.raiseP_aside (p i : Nat) : (s.raiseP p i).aside s := s.raise_aside _

theorem State.store_aside (a : Nat) (b : List Byte) : (s.store a b).aside s :=
  (s.store_keeps a b).aside_of_rd fun o ho => s.store_spares a b o (trigReg_of_aside ho)

theorem State.log_aside (r : ErrRec) : (s.log r).aside s := by
  have hring (v : State) (log a : Nat) (b : List Byte) : (v.logRing log a b).aside v := by
    unfold State.logRing
    exact State.aside_ite v.aside_refl ((State.setErrs_keeps _ _).aside.trans (v.store_aside _ _))
  have hraise (v : State) (lost : Bool) : (v.logRaise lost).aside v := by
    unfold State.logRaise
    exact State.aside_ite ((State.raise_aside _ _).trans ((State.inc_aside _ 1 (asideReg_of_trig (by decide))).trans (v.raise_aside _))) (v.raise_aside _)
  rw [State.log_eq]
  exact (hraise _ _).trans ((hring _ _ _ _).trans ((State.keeps_iff _ s [.fresh, .errs]).mpr (by simp [State.withErrs])).aside)

theorem State.tdcCount_aside (p frame : Nat) {cause : Nat} (h : cause < 8) : (s.tdcCount p frame cause).aside s := by
  have hadd : (s.add64 Reg.glbTdcLo 1).aside s := (s.add64_keeps _ _).aside_of_rd fun o ho =>
    s.add64_spares 1 (by decide) (by decide) o (trigReg_of_aside ho)
  have hcause : trigReg (Reg.glbTdcCause cause) = true := by
    have h1 : 0x80 ≤ Reg.glbTdcCause cause := by simp only [Reg.glbTdcCause]; omega
    have h2 : Reg.glbTdcCause cause < 0xB0 := by simp only [Reg.glbTdcCause]; omega
    simp [trigReg, h1, h2]
  unfold State.tdcCount
  extract_lets a b c
  have hb : b.aside s := (State.wr_aside _ _ (asideReg_of_trig (by decide))).trans ((State.inc_aside _ 1 (asideReg_of_trig hcause)).trans hadd)
  have hc : c.aside s := State.aside_ite ((State.wr_aside _ _ (asideReg_of_trig (by decide))).trans hb) hb
  exact (State.raise_aside _ _).trans hc

theorem State.tdc_aside (p frame : Nat) {cause : Nat} (h : cause < 8) : (s.tdc p frame cause).aside s := by
  have hseen : ({ s with tdcSeen := (p, frame, cause) :: s.tdcSeen } : State).aside s := ⟨fun _ h => h, fun _ _ => rfl, rfl, fun _ => .inl rfl⟩
  exact State.aside_ite (s.tdcCount_aside p frame h) <| State.aside_ite s.aside_refl ((State.tdcCount_aside _ p frame h).trans hseen)

theorem State.refuse_aside (tag a : Nat) (write : Bool) : (s.refuse tag a write).aside s :=
  (State.log_aside _ _).trans <| (State.raise_aside _ _).trans <| (State.wr_aside _ _ (by decide)).trans <| (State.wr_aside _ _ (by decide)).trans <|
    (State.wr_aside _ _ (by decide)).trans (s.inc_aside 1 (by decide))

theorem State.makeTrace_aside (r : TraceRec) : (s.makeTrace r).aside s := by
  unfold State.makeTrace
  split
  · exact s.aside_refl
  · exact State.aside_ite (s.refuse_aside _ _ _) (s.setTraceQ_keeps _).aside

theorem State.trace_aside (d ev core : Nat) (i : Item) (arg : Nat) : (s.trace d ev core i arg).aside s := by
  unfold State.trace
  split
  · exact State.aside_ite s.aside_refl (s.makeTrace_aside _)
  · exact s.aside_refl

/-! ### Triggers -/

theorem State.issue_aside (m cause cat stamp : Nat) : (s.issue m cause cat stamp).aside s := by
  have hcharge (v : State) : (v.chargeSub m stamp).aside v := by
    unfold State.chargeSub
    split
    · exact v.tdc_aside _ _ (by decide)
    · exact v.aside_refl
  have hdrop (v : State) (c : Prop) [Decidable c] : (if c then v.dropOuts m else v).aside v :=
    State.aside_ite (v.dropOuts_keeps m).aside v.aside_refl
  have hset (x : WMech) : (s.setWm m x).aside s := (State.setWarden_keeps s _).aside
  unfold State.issue
  extract_lets w cat' set1 same t0 set2 counted charged
  have h1 : set1.aside s := hset _
  have h2 : counted.aside s := (State.inc_aside _ 1 (asideReg_of_trig (by decide))).trans (hset _)
  have h3 : charged.aside s := State.aside_ite h2 ((hcharge _).trans ((State.inc_aside _ 1 (asideReg_of_trig (by decide))).trans h2))
  exact State.aside_ite (State.aside_ite ((hdrop _ _).trans h1) h1) ((hdrop _ _).trans h3)

theorem State.trigger_aside (cause stamp : Nat) (ms : List Nat) (cat : Option Nat) : (s.trigger cause stamp ms cat).aside s := by
  rw [State.trigger_eq]
  refine State.aside_foldl _ (fun v m => v.issue_aside _ _ _ _) ?_
  exact (State.raise_aside _ _).trans ((State.log_aside _ _).trans (s.setWarden_keeps _).aside)

/-! ### Runs and solvings ended -/

theorem State.countRun_aside (d : Nat) (r : ARun) (result : Nat) : (s.countRun d r result).aside s := by
  have hinc {o : Nat} (h : 0x200000 ≤ o ∧ 0x803C ≤ o % 0x400000 ∧ o % 0x400000 ≤ 0x804C) : (s.inc o).aside s :=
    s.inc_aside 1 (asideReg_of_die h.1 (.inr (.inl h.2)))
  exact State.aside_ite ((State.tdc_aside _ _ _ (by decide)).trans (hinc (by simp only [Reg.garLateRun]; omega))) <|
    State.aside_ite (s.tdc_aside _ _ (by decide)) <|
    State.aside_ite ((State.tdc_aside _ _ _ (by decide)).trans (hinc (by simp only [Reg.garCmpFail]; omega))) <|
    State.aside_ite ((State.tdc_aside _ _ _ (by decide)).trans (hinc (by simp only [Reg.garPoison]; omega))) <|
    State.aside_ite (hinc (by simp only [Reg.garDescErr]; omega)) s.aside_refl

theorem State.endRun_aside (d : Nat) (r : ARun) (result t : Nat) : (s.endRun d r result t).aside s :=
  State.aside_ite (s.setArr_keeps _ _).aside <| (State.raiseP_aside _ _ _).trans <| (State.countRun_aside _ _ _ _).trans (s.setArr_keeps _ _).aside

theorem State.endRuns_aside (d : Nat) (p : ARun → Bool) (result t : Nat) : (s.endRuns d p result t).aside s :=
  State.aside_foldl _ (fun v r => v.endRun_aside d r result t) s.aside_refl

theorem State.noResult_aside (i : Nat) : (s.noResult i).aside s :=
  State.aside_ite ((State.tdc_aside _ _ _ (by decide)).trans (s.setEng_keeps _ _).aside) s.aside_refl

/-! ### Completions of host queues -/

theorem State.postOne_aside (fn q : Nat) : (s.postOne fn q).aside s := by
  unfold State.postOne
  dsimp only
  split
  · exact s.aside_refl
  · have hposted (a : Nat) (b : List Byte) (x : HQueue) : ((s.toHost a b).setHq fn q x).aside s :=
      (State.setHq_keeps _ _ _ _).aside.trans (s.toHost_keeps _ _).aside
    exact State.aside_ite s.aside_refl <| State.aside_ite ((State.raiseP_aside _ _ _).trans (hposted _ _ _)) (hposted _ _ _)

theorem State.complete_aside (fn q cid status result : Nat) (notify : Bool) : (s.complete fn q cid status result notify).aside s :=
  State.aside_ite s.aside_refl
    ((State.aside_foldl _ (fun v _ => v.postOne_aside fn q) (State.aside_refl _)).trans (s.setHq_keeps _ _ _).aside)

theorem State.copyDone_aside (fn q status result : Nat) : (s.copyDone fn q status result).aside s := by
  unfold State.copyDone
  dsimp only
  split
  · exact s.aside_refl
  · exact State.aside_ite (s.setHq_keeps _ _ _).aside ((State.complete_aside _ _ _ _ _ _ _).trans (s.setHq_keeps _ _ _).aside)

theorem State.abortCopies_aside (fn : Nat) : (s.abortCopies fn).aside s :=
  State.aside_foldl _ (fun v q => v.copyDone_aside fn q _ _) s.aside_refl

theorem State.hqEnd_aside (fn q status result : Nat) : (s.hqEnd fn q status result).aside s := by
  unfold State.hqEnd
  split
  · exact s.aside_refl
  · exact (State.complete_aside _ _ _ _ _ _ _).trans (s.setHq_keeps _ _ _).aside

/-! ### Items that no core can take -/

/-- A counter of the scheduler. -/
theorem State.incSched_aside {o : Nat} (n : Nat) (hlo : 0x200000 ≤ o) (h : o % 0x400000 ∈ [0x9010, 0x9014, 0x9018, 0x9028]) : (s.inc o n).aside s :=
  s.inc_aside n (asideReg_of_rel (relReg_of_sched hlo h))

theorem State.failItem_aside (d : Nat) (i : Item) : (s.failItem d i).aside s := by
  unfold State.failItem
  extract_lets v
  have hv : v.aside s := (State.log_aside _ _).trans <| (State.trace_aside _ _ _ _ _ _).trans
    (s.incSched_aside 1 (by simp only [Reg.schNoCore]; omega) (by simp only [Reg.schNoCore]; simp; omega))
  exact State.aside_ite ((State.copyDone_aside _ _ _ _ _).trans hv) hv

theorem State.failUnserved_aside (d : Nat) : (s.failUnserved d).aside s :=
  State.aside_ite s.aside_refl (State.aside_foldl _ (fun v i => v.failItem_aside d i) (s.setSch_keeps _ _).aside)

/-! ### A unit that leaves service -/

theorem State.unhost_aside (k : Nat) : (s.unhost k).aside s :=
  (State.setCore_keeps _ _ _).aside.trans <| (State.inc_aside _ _ (asideReg_of_die (by simp only [Reg.slvLateHandoff]; omega)
      (.inr (.inr (.inl (by simp only [Reg.slvLateHandoff]; omega)))))).trans <| State.aside_foldl _
    (fun v i => State.aside_ite ((State.setEng_keeps _ _ _).aside.trans (v.noResult_aside i)) v.aside_refl) s.aside_refl

theorem State.returnSlots_aside (k : Nat) : (s.returnSlots k).aside s :=
  State.aside_foldl _ (fun v i => v.trace_aside _ _ _ i _) (s.setSch_keeps _ _).aside

theorem prbTruncCount_aside (d : Nat) : asideReg (Reg.prbTruncCount d) = true :=
  asideReg_of_die (by simp only [Reg.prbTruncCount]; omega) (.inl (by simp only [Reg.prbTruncCount]; omega))

theorem State.discardBuf_aside (k : Nat) : (s.discardBuf k).aside s :=
  (State.setCore_keeps _ _ _).aside.trans <| (State.zero_keeps _ _ _).aside.trans <| State.aside_foldl _
    (fun v _ => State.aside_ite v.aside_refl ((State.tdc_aside _ _ _ (by decide)).trans (v.inc_aside _ (prbTruncCount_aside _)))) s.aside_refl

theorem State.retireOne_aside (u sub ref t : Nat) : (s.retireOne u sub ref t).aside s := by
  unfold State.retireOne
  refine State.aside_ite s.aside_refl ?_
  have hlisted : ((((s.listRetired u sub).log
      { kind := ekRETIRED, act := 7, unit := u + sub * 4096, time := t, ref }).inc Reg.errRetireCount).raise isrcRETIRED).aside s :=
    (State.raise_aside _ _).trans <| (State.inc_aside _ 1 (by decide)).trans <| (State.log_aside _ _).trans (s.listRetired_keeps _ _).aside
  have hout := State.aside_ite (c := sub = 0) ((State.dropSlices_keeps _ u).aside.trans hlisted) hlisted
  refine State.aside_ite ((State.setFault_keeps _ _).aside.trans ((State.replayLane_keeps _ _).aside.trans hout)) <| State.aside_ite ?_ <|
    State.aside_ite ((State.powerOff_keeps _ _).aside.trans ((State.noResult_aside _ _).trans hout)) <|
    State.aside_ite ((State.powerOff_keeps _ _).aside.trans ((State.endRuns_aside _ _ _ _ _).trans hout)) ((State.powerOff_keeps _ _).aside.trans hout)
  have hcore := (State.failUnserved_aside _ (u / 512)).trans <| (State.reissue_keeps _ (u / 512 * 64 + u % 512)).aside.trans <|
    (State.readmit_keeps _ (u / 512 * 64 + u % 512)).aside.trans <| (State.returnSlots_aside _ (u / 512 * 64 + u % 512)).trans <|
    (State.unhost_aside _ (u / 512 * 64 + u % 512)).trans hout
  have hbuf (c : Prop) [Decidable c] := State.aside_ite (c := c) ((State.discardBuf_aside _ (u / 512 * 64 + u % 512)).trans hcore) hcore
  exact State.aside_ite (hbuf _) ((State.powerOff_keeps _ _).aside.trans (hbuf _))

/-! ### Partitions stopped -/

theorem State.stopPart_aside (p t : Nat) : (s.stopPart p t).aside s := by
  unfold State.stopPart
  dsimp only
  split
  next h =>
    have hlast : (s.prun p).lastFrame = none := Option.isNone_iff_eq_none.mp (Bool.and_eq_true _ _ ▸ h).2
    refine ⟨fun _ h => h, fun _ _ => rfl, rfl, fun q => ?_⟩
    by_cases hq : q = p
    · subst hq
      rw [State.setPRun_prun_same _ _ (State.lt_parts_of_running (Bool.and_eq_true _ _ ▸ h).1)]
      exact .inr ⟨hlast, _, rfl⟩
    · exact .inl (State.setPRun_prun_of_ne _ _ hq)
  · exact s.aside_refl

theorem State.stopUnable_aside (ref t : Nat) : (s.stopUnable ref t).aside s :=
  State.aside_foldl _ (fun v p => (State.log_aside _ _).trans (v.stopPart_aside p t)) s.aside_refl

theorem State.setStores_aside (l : List StoreSt) : ({ s with fld := { s.fld with stores := l } } : State).aside s :=
  ⟨fun _ h => h, fun _ _ => rfl, rfl, fun _ => .inl rfl⟩

theorem State.retire_aside (u sub ref t : Nat) : (s.retire u sub ref t).aside s := by
  have hone := s.retireOne_aside u sub ref t
  have hlane := State.aside_ite (c := sub ≠ 0 ∧ (((s.retireOne u sub ref t).lanesOut (u / 512 * 64 + u % 512)
    (if sub ≤ 4 then 1 else 5)).length = 4)) ((State.retireOne_aside _ u 0 ref t).trans hone) hone
  exact (State.stopUnable_aside _ _ _).trans <| State.aside_ite
    (State.aside_foldl _ (fun v _ => v.retireOne_aside _ _ _ _) ((State.setStores_aside _ _).trans hlane)) hlane

theorem State.isolate_aside (u ref t : Nat) : (s.isolate u ref t).aside s := by
  have hcount : (s.inc Reg.errLasting).aside s := s.inc_aside 1 (by decide)
  have hslices (x : FaultSt) (r : List Rotation) : ({ (s.inc Reg.errLasting).setFault x with rots := r } : State).aside s :=
    (State.setRots_keeps _ _).aside.trans ((State.setFault_keeps _ _).aside.trans hcount)
  exact State.aside_ite
    (State.aside_ite
      ((State.failUnserved_aside _ _).trans <| (State.returnSlots_aside _ _).trans <| (State.unhost_aside _ _).trans (hslices _ _))
      (hslices _ _)) <|
    State.aside_ite ((State.retire_aside _ _ _ _ _).trans hcount) hcount

/-! ### Confirmations that do not resolve -/

theorem State.countOf_aside (k kind t : Nat) : (s.countOf k kind t).1.aside s := by
  unfold State.countOf
  dsimp only
  split
  · exact s.aside_refl
  · split
    · exact State.aside_ite (s.setFault_keeps _).aside ((State.inc_aside _ 1 (by decide)).trans (s.setFault_keeps _).aside)
    · exact s.inc_aside 1 (by decide)

theorem State.countCore_aside (c : Confirm) (k t : Nat) : (s.countCore c k t).aside s := by
  have hrecord (v : State) (hv : v.aside s) (r : ErrRec) : (v.record r).2.aside s := (State.log_aside _ _).trans hv
  have hclear := State.aside_ite (c := (s.faultSt (.unit (coreUnit k) 0)).phase = .confirm)
    (s.setFault_keeps { s.faultSt (.unit (coreUnit k) 0) with phase := .watch }).aside s.aside_refl
  have hcount := (State.countOf_aside _ k ekREPLAY_DISAGREE t).trans hclear
  unfold State.countCore
  dsimp only
  refine State.aside_ite s.aside_refl ?_
  generalize State.countOf _ k ekREPLAY_DISAGREE t = r at hcount
  exact State.aside_ite ((State.isolate_aside _ _ _ _).trans (hrecord _ hcount _)) (hrecord _ hcount _)

theorem State.unresolved_aside (c : Confirm) (t : Nat) : (s.unresolved c t).aside s :=
  (State.countCore_aside _ _ _ _).trans <| (State.countCore_aside _ _ _ _).trans <| (State.clearSuspect_keeps _ _).aside.trans
    (s.inc_aside 1 (by decide))

theorem State.allUnresolved_aside (t : Nat) : (s.allUnresolved t).aside s :=
  State.aside_foldl _ (fun v c => v.unresolved_aside c t) (s.setErrs_keeps _).aside

end Sys2Proof.Machine
end

section
/-! SUPPORT. Releases of tasks, and what a warm reset leaves of the interrupt slots and of the count of opened windows
(10_task_scheduling.md R244 to R257, 19_reset_and_bringup.md R420). -/

namespace Sys2Proof.Machine

set_option Elab.async false

variable (s : State)

/-! ### Releases -/

theorem State.countHold_aside (d : Nat) (i : Item) : (s.countHold d i).aside s :=
  (State.raiseP_aside _ _ _).trans <| (State.trace_aside _ _ _ _ _ _).trans
    (s.incSched_aside 1 (by simp only [Reg.schHoldCount]; omega) (by simp only [Reg.schHoldCount]; simp; omega))

theorem State.place_aside (d : Nat) (t : TaskSt) (is : List Item) : (s.place d t is).aside s := by
  have hset (x : SchedDie) (bad : List Item) : (bad.foldl (fun s i => s.failItem d i) (s.setSch d x)).aside s :=
    State.aside_foldl _ (fun v i => v.failItem_aside d i) (s.setSch_keeps _ _).aside
  unfold State.place
  dsimp only
  generalize (if t.held = true then (s.sch d, _) else enqueueAll (s.sch d) _) = r
  refine State.aside_ite (hset _ _) ?_
  split
  · exact hset _ _
  · exact (State.countHold_aside _ _ _).trans (hset _ _)

theorem State.rearm_aside (d : Nat) (t : TaskSt) (delayUs : Nat) : (s.rearm d t delayUs).1.aside s := by
  unfold State.rearm
  split
  · exact s.aside_refl
  · exact s.incSched_aside _ (by simp only [Reg.schSkip]; omega) (by simp only [Reg.schSkip]; simp; omega)

theorem State.releaseItems_aside (d : Nat) (q : PartCfg) (r : TaskRec) (t : TaskSt) : (s.releaseItems d q r t).aside s := by
  unfold State.releaseItems
  extract_lets cls
  split
  · split
    · exact s.aside_refl
    · refine State.aside_ite (State.aside_ite s.aside_refl ((State.tdc_aside _ _ _ (by decide)).trans
        (s.incSched_aside _ (by simp only [Reg.schDiscard]; omega) (by simp only [Reg.schDiscard]; simp; omega)))) ?_
      exact s.place_aside d _ _
  · split
    · exact s.place_aside d _ _
    · exact s.aside_refl

theorem State.tryRelease_aside (d : Nat) (q : PartCfg) (r : TaskRec) : (s.tryRelease d q r).aside s := by
  unfold State.tryRelease
  split
  · exact s.aside_refl
  · exact State.aside_ite ((State.releaseItems_aside _ _ _ _ _).trans <| (State.setTask_keeps _ _ _).aside.trans <|
      (State.rearm_aside _ _ _ _).trans (s.trace_aside _ _ _ _ _)) s.aside_refl

theorem State.setFlag_aside (p task flag : Nat) : (s.setFlag p task flag).aside s := by
  unfold State.setFlag
  dsimp only
  split
  · exact s.aside_refl
  · split
    · exact s.aside_refl
    · exact (State.tryRelease_aside _ _ _ _).trans (s.setTask_keeps _ _).aside

theorem State.phaseFlag_aside (p flag : Nat) : (s.phaseFlag p flag).aside s :=
  State.aside_foldl _ (fun v t => v.setFlag_aside p t flag) s.aside_refl

/-! ### Waits that end -/

theorem State.initCounters_aside (p : Nat) : (s.initCounters p).aside s := by
  have hdrop (keep : Wait → Bool) : (s.dropWaits keep).aside s := by
    refine State.aside_foldl _ (fun v w => ?_) s.aside_refl
    have hsync := (v.setSync_keeps { v.sync with waits := v.sync.waits.filter (· != w) }).aside
    dsimp only
    split
    · exact (State.dmaResume_keeps _ _ _).aside.trans ((State.endLoan_keeps _ _).aside.trans hsync)
    · exact (State.hqEnd_aside _ _ _ _ _).trans hsync
    · exact hsync
  exact (State.armMons_keeps _ _).aside.trans <| State.aside_foldl _ (fun v _ => (v.setTword_keeps _ _).aside) (hdrop _)

theorem State.dropWaits_aside (keep : Wait → Bool) : (s.dropWaits keep).aside s := by
  refine State.aside_foldl _ (fun v w => ?_) s.aside_refl
  have hsync := (v.setSync_keeps { v.sync with waits := v.sync.waits.filter (· != w) }).aside
  dsimp only
  split
  · exact (State.dmaResume_keeps _ _ _).aside.trans ((State.endLoan_keeps _ _).aside.trans hsync)
  · exact (State.hqEnd_aside _ _ _ _ _).trans hsync
  · exact hsync

/-! ### What stands through a warm reset -/

/-- Interrupt slots that stand, and the counts of windows opened. -/
structure State.onward (u s : State) : Prop where
  slots : ∀ src, (s.ints.slot src 0).st ≠ .idle → (u.ints.slot src 0).st ≠ .idle
  opened : ∀ q, (u.prun q).opened = (s.prun q).opened

variable {s} {u v : State}

theorem State.onward_refl (s : State) : s.onward s := ⟨fun _ h => h, fun _ => rfl⟩

theorem State.onward.trans (h : u.onward v) (k : v.onward s) : u.onward s :=
  ⟨fun i hi => h.slots i (k.slots i hi), fun q => (h.opened q).trans (k.opened q)⟩

theorem State.onward_ite {c : Prop} [Decidable c] {a b : State} (ha : a.onward s) (hb : b.onward s) : (if c then a else b).onward s := by
  split
  · exact ha
  · exact hb

theorem State.onward_foldl {α : Type} {f : State → α → State} (l : List α) (hf : ∀ v x, (f v x).onward v) (h : u.onward s) :
    (l.foldl f u).onward s := by
  induction l generalizing u with
  | nil => exact h
  | cons x r ih => exact ih ((hf u x).trans h)

theorem State.aside.onward (h : u.aside s) : u.onward s := by
  refine ⟨h.slots, fun q => ?_⟩
  rcases h.runs q with h | ⟨-, l, h⟩ <;> rw [h]

theorem State.keeps.onward {l : List Piece} (h : u.keeps s l) (hl : .ints ∉ l ∧ .parts ∉ l := by decide) : u.onward s :=
  ⟨fun src hs => by rwa [h .ints hl.1], fun q => by rw [h.prun q hl.2]⟩

variable (s)

theorem State.setPRun_onward {p : Nat} {x : PRun} (h : x.opened = (s.prun p).opened) : (s.setPRun p x).onward s := by
  refine ⟨fun _ h => h, fun q => ?_⟩
  by_cases hq : q = p
  · subst hq
    by_cases hlen : q < s.parts.length
    · rw [s.setPRun_prun_same _ hlen, h]
    · rw [State.prun, s.setPRun_parts_of_length_le _ (by omega), State.prun]
  · rw [s.setPRun_prun_of_ne _ hq]

theorem State.setPSt_onward (p : Nat) (x : PSt) : (s.setPSt p x).onward s :=
  State.onward_ite s.onward_refl ((State.raiseP_aside _ _ _).onward.trans (s.setPRun_onward rfl))

theorem State.endSteep_onward (r : Reject) : (s.endSteep r).onward s := by
  unfold State.endSteep
  split
  · exact s.onward_refl
  · exact (State.raise_aside _ _).onward.trans <| State.onward_foldl _
      (fun v p => State.onward_ite (v.setPSt_onward _ _) v.onward_refl) (s.setLoader_keeps _).onward

theorem State.carryRound_onward : s.carryRound.onward s :=
  State.onward_ite (State.onward_foldl _ (fun v p => (v.raiseP_aside p 3).onward)
    ((State.inc_keeps _ _ _).onward.trans (s.setRound_keeps _).onward)) s.onward_refl

theorem State.warmParts_onward (cause : Nat) : (s.warmParts cause).onward s := by
  refine State.onward_foldl _ (fun v p => ?_) s.onward_refl
  dsimp only
  split
  · exact State.onward_ite (v.setPRun_onward rfl) ((State.setPSt_onward _ _ _).trans (v.setPRun_onward rfl))
  · exact State.onward_ite ((State.setPSt_onward _ _ _).trans (v.setPRun_onward rfl)) (v.setPRun_onward rfl)

theorem State.warmRuns_onward (t : Nat) : (s.warmRuns t).onward s :=
  (State.dropWaits_aside _ _).onward.trans <| State.onward_foldl _ (fun v _ => (v.abortCopies_aside _).onward)
    (State.onward_foldl _ (fun v p => (v.initCounters_aside p).onward)
      ((State.endRuns_aside _ _ _ _ _).onward.trans (s.endRuns_aside _ _ _ _).onward))

theorem State.warmCut_onward : s.warmCut.onward s := by
  refine ⟨fun _ h => h, fun q => ?_⟩
  simp only [State.warmCut, State.prun, List.getD_eq_getElem?_getD, List.getElem?_map]
  cases s.parts[q]? <;> rfl

theorem State.warmClear_onward (t : Nat) : (s.warmClear t).onward s := by
  rw [s.warmClear_eq]
  exact (State.warmWipe_keeps _).onward.trans <| (State.clearCounts_keeps _ _).onward.trans <| (State.warmCut_onward _).trans (s.warmRuns_onward t)

/-- A warm reset clears no interrupt of slot 0, and no count of windows opened. -/
theorem State.warmReset_onward (cause t : Nat) (hold : Bool) : (s.warmReset cause t hold).onward s := by
  have hlinks (v : State) : v.linksDown.onward v :=
    State.onward_ite v.onward_refl ((State.raise_aside _ _).onward.trans (v.wrBits_keeps _ _ _ _).onward)
  have hends (v : State) : ((v.newInterval 0 t).newInterval 1 t).onward v :=
    ((State.newInterval_keeps _ _ _).after (v.newInterval_keeps _ _)).onward
  have hkettle (v : State) (k : Kettle) (d : Dev) : ({ v with ktl := k, dev := d } : State).onward v := ⟨fun _ h => h, fun _ => rfl⟩
  by_cases hwarm : s.dev.warm = none
  · unfold State.warmReset
    rw [if_neg (by simp [hwarm])]
    extract_lets ended carried unres cleared kettle woken device asserted cut fresh
    have hcleared : cleared.onward s := (State.warmClear_onward _ t).trans <| (State.warmParts_onward _ cause).trans <|
      (State.allUnresolved_aside _ t).onward.trans <| (State.carryRound_onward _).trans (s.endSteep_onward _)
    clear_value cleared
    have hasserted : asserted.onward cleared := hkettle cleared _ _
    clear_value asserted
    have hcut : cut.onward asserted := (hlinks _).trans <| (State.abandonSlice_keeps _ _).onward.trans (State.abandonSlice_keeps _ _).onward
    exact (State.trigger_aside _ _ _ _ _).onward.trans <| (hends cut).trans <| hcut.trans <| hasserted.trans hcleared
  · rw [s.warmReset_of_warm cause t hold hwarm]
    exact (s.setDev_keeps _).onward

theorem State.setWState_onward (x : WState) : (s.setWState x).onward s := by
  unfold State.setWState
  split
  · exact s.onward_refl
  · exact s.onward_refl
  · exact State.onward_ite s.onward_refl ((State.raise_aside _ _).onward.trans (s.setWarden_keeps _).onward)

theorem State.fallBack_onward (t : Nat) : (s.fallBack t).onward s := by
  have hstate : (s.fallState t).onward s := by
    unfold State.fallState
    dsimp only
    split
    · exact (s.setWarden_keeps _).onward
    · exact (s.setWarden_keeps _).onward
    · exact (s.setWarden_keeps _).onward
    · exact (State.setWState_onward _ _).trans (s.setWarden_keeps _).onward
  rw [State.fallBack_eq]
  exact (State.warmReset_onward _ _ _ _).trans hstate

/-- Whether or not a decision is taken. -/
theorem State.finish_onward : s.finish.onward s := by
  refine s.finish_keeps_taken.onward.trans ?_
  unfold State.taken
  split
  · exact (State.fallBack_onward _ _).trans (s.setDev_keeps _).onward
  · exact s.onward_refl

theorem State.wdServe_onward (w n t : Nat) : (s.wdServe w n t).onward s := by
  have hviolate (v : State) (code stamp : Nat) : (v.wdViolate w code stamp).onward v := by
    have hlatch : (v.wdLatch w code).onward v :=
      (State.raise_aside _ _).onward.trans ((State.inc_keeps _ _ _).onward.trans (v.setWd_keeps _ _).onward)
    by_cases hw : w < 8
    · rw [v.wdViolate_stage _ _ hw]
      exact (State.setDev_keeps _ _).onward.trans ((State.trigger_aside _ _ _ _ _).onward.trans hlatch)
    · rw [v.wdViolate_output _ _ hw]
      exact (State.portHolds_keeps _ _).onward.trans ((State.trigger_aside _ _ _ _ _).onward.trans hlatch)
  unfold State.wdServe
  extract_lets x was win v
  have hv : v.onward s := (s.setWd_keeps _ _).onward
  exact State.onward_ite hv <| State.onward_ite ((hviolate _ _ _).trans hv) <| State.onward_ite hv ((hviolate _ _ _).trans hv)

end Sys2Proof.Machine
end

section
/-! SUPPORT. The phase points of a frame (01_architecture.md R20, 10_task_scheduling.md R245, 09_array_operations.md R221). -/

namespace Sys2Proof.Machine

set_option Elab.async false

variable {s u v : State}

/-! ### FRAME_WINDOW -/

theorem State.master_congr (h : u.loader = s.loader) : u.master = s.master := by rw [State.master, State.cfg, h, State.master, State.cfg]

/-- The pieces that a service of a watchdog may change. -/
theorem State.wdServe_pieces (s : State) (w n t : Nat) : (s.wdServe w n t).keeps s (.dev :: trigPieces) := by
  have hviolate (v : State) (code stamp : Nat) : (v.wdViolate w code stamp).keeps v (.dev :: trigPieces) := by
    have hlatch : (v.wdLatch w code).keeps v (.dev :: trigPieces) := (v.wdLatch_keeps w code).widen
    by_cases hw : w < 8
    · rw [v.wdViolate_stage _ _ hw]
      exact (State.setDev_keeps _ _).after ((State.trigger_trigPieces _ _ _ _ _).after hlatch)
    · rw [v.wdViolate_output _ _ hw]
      exact (State.portHolds_keeps _ _).after ((State.trigger_trigPieces _ _ _ _ _).after hlatch)
  unfold State.wdServe
  extract_lets x was win v
  have hv : v.keeps s (.dev :: trigPieces) := (s.setWd_keeps _ _).widen
  exact State.keeps_ite hv <| State.keeps_ite (State.keeps_trans (hviolate _ _ _) hv) <|
    State.keeps_ite hv (State.keeps_trans (hviolate _ _ _) hv)

/-- The window of partition p's next frame opened, before the master's services. -/
def State.windowOpened (s : State) (p : Nat) : State :=
  (((s.setPRun p { s.prun p with opened := (s.prun p).opened + 1 }).raiseP p 1).phaseFlag p 24).restartDone

/-- The services of the planner dies that the master's window brings (R332). -/
def State.windowServed (s : State) (p n late : Nat) : State :=
  [0, 1].foldl (fun s d => if s.pdUp d then s.wdServe (4 + d) n (s.winStart p n + late) else s) s

theorem exec_frameWindow {s : State} {p : Nat} (late : Nat) (h : s.runsHead p (s.prun p).opened = true) :
    exec (.frameWindow p late) s = .next (
      let v := (s.at (s.winStart p (s.prun p).opened + late)).windowOpened p
      if v.master = some p then v.windowServed p (s.prun p).opened late else v).finish := by
  change execFrameWindow p late s = _
  unfold execFrameWindow
  dsimp only
  rw [if_pos h, State.windowOpened, State.at_prun]
  rfl

theorem State.windowServed_keeps (s : State) (p n late : Nat) : (s.windowServed p n late).keeps s (.dev :: trigPieces) :=
  State.keeps_foldl (fun v _ => State.keeps_ite (v.wdServe_pieces _ n _) (v.keeps_refl _)) (s.keeps_refl _) _

theorem State.windowServed_onward (s : State) (p n late : Nat) : (s.windowServed p n late).onward s :=
  State.onward_foldl _ (fun v _ => State.onward_ite (v.wdServe_onward _ n _) v.onward_refl) s.onward_refl

theorem State.restartDone_onward (s : State) : s.restartDone.onward s :=
  State.onward_ite ((State.setWState_onward _ _).trans (s.setDev_keeps _).onward) s.onward_refl

theorem State.windowOpened_keeps (s : State) (p : Nat) : (s.windowOpened p).keeps s ([.parts, .dev, .warden] ++ relPieces) :=
  (State.restartDone_keeps _).after <| (State.phaseFlag_keeps _ _ _).after <| (State.raiseP_keeps _ _ _).after (s.setPRun_keeps _ _).widen

theorem State.windowOpened_prun_of_ne {p q : Nat} (h : q ≠ p) : (s.windowOpened p).prun q = s.prun q := by
  rw [State.windowOpened, (State.restartDone_keeps _).prun, (State.phaseFlag_keeps _ _ _).prun, State.raiseP_prun, State.setPRun_prun_of_ne _ _ h]

theorem State.windowOpened_calm {p : Nat} (h : s.calm) : (s.windowOpened p).calm := by
  have hv : (((s.setPRun p { s.prun p with opened := (s.prun p).opened + 1 }).raiseP p 1).phaseFlag p 24).keeps s (.parts :: relPieces) :=
    (State.phaseFlag_keeps _ _ _).after <| (State.raiseP_keeps _ _ _).after (s.setPRun_keeps _ _).widen
  unfold State.windowOpened
  generalize State.phaseFlag _ p 24 = v at hv
  rcases v.restartDone_dev with hd | hd
  · rw [State.calm, hd]
    exact hv.calm h
  · rw [State.calm, hd]
    exact hv.calm h

theorem State.windowOpened_opened {p : Nat} (h : p < s.parts.length) :
    ((s.windowOpened p).prun p).opened = (s.prun p).opened + 1 ∧ ((s.windowOpened p).ints.slot (isrcPart p 1) 0).st ≠ .idle := by
  have hraised : (((s.setPRun p { s.prun p with opened := (s.prun p).opened + 1 }).raiseP p 1).prun p).opened = (s.prun p).opened + 1 := by
    rw [State.raiseP_prun, State.setPRun_prun_same _ _ h]
  have hon : (s.windowOpened p).onward ((s.setPRun p { s.prun p with opened := (s.prun p).opened + 1 }).raiseP p 1) :=
    (State.restartDone_onward _).trans (State.phaseFlag_aside _ _ _).onward
  exact ⟨(hon.opened p).trans hraised, hon.slots _ (State.raise_slot_ne_idle _ _)⟩

theorem frameWindow_opened (p late : Nat) (s : State) (hcalm : s.calm) (hhead : s.runsHead p (s.prun p).opened = true) :
    ∃ u, exec (.frameWindow p late) s = .next u ∧ (u.prun p).opened = (s.prun p).opened + 1
      ∧ u.time = (s.at (s.winStart p (s.prun p).opened + late)).time ∧ (u.ints.slot (isrcPart p 1) 0).st ≠ .idle
      ∧ (s.master ≠ some p → (∀ q, q ≠ p → u.prun q = s.prun q)
          ∧ u.keeps (s.at (s.winStart p (s.prun p).opened + late)) ([.parts, .dev, .warden] ++ relPieces)) := by
  refine ⟨_, exec_frameWindow late hhead, ?_⟩
  dsimp only
  generalize s.winStart p (s.prun p).opened + late = t
  have hk := (s.at t).windowOpened_keeps p
  have hcalm' := State.windowOpened_calm (p := p) (s.at_calm t hcalm)
  have hmaster : ((s.at t).windowOpened p).master = s.master := (State.master_congr (hk .loader (by decide))).trans (by simp)
  obtain ⟨hopened, hslot⟩ := (State.windowOpened_opened (s := s.at t) (p := p) (by rw [State.at_parts]; exact State.lt_parts_of_runsHead hhead))
  have hother {q : Nat} (hq : q ≠ p) := ((s.at t).windowOpened_prun_of_ne hq).trans (by simp : (s.at t).prun q = s.prun q)
  rw [State.at_prun] at hopened
  rw [hmaster]
  generalize (s.at t).windowOpened p = v at hk hcalm' hopened hslot hother
  have hserved : (if s.master = some p then v.windowServed p (s.prun p).opened late else v).onward v :=
    State.onward_ite (v.windowServed_onward _ _ _) v.onward_refl
  have htime : (if s.master = some p then v.windowServed p (s.prun p).opened late else v).time = v.time :=
    State.keeps_ite (v.windowServed_keeps _ _ _) (v.keeps_refl _) .time (by decide)
  have hall := (State.finish_onward _).trans hserved
  refine ⟨(hall.opened p).trans hopened, ?_, hall.slots _ hslot, fun hm => ?_⟩
  · rw [State.finish_time_always, htime]
    exact hk .time (by decide)
  · rw [if_neg hm]
    refine ⟨fun q hq => ?_, ((v.finish_keeps hcalm').widen (m := [.parts, .dev, .warden] ++ relPieces)).after hk⟩
    rw [State.finish_prun hcalm', hother hq]

/-! ### NET_START -/

/-- A run of a network of partition p for frame f, triggered at t, is in progress on die d. -/
def State.hasRun (s : State) (d p net f t : Nat) : Prop := ∃ r ∈ (s.arr d).runs, r.part = p ∧ r.net = net ∧ r.frame = f ∧ r.trig = t

theorem State.keeps.arr {l : List Piece} (h : u.keeps s l) (d : Nat) (hl : .arrs ∉ l := by decide) : u.arr d = s.arr d := by
  rw [State.arr, h .arrs hl, State.arr]

/-- The run of the network that is still in progress, ended (R221). -/
def State.runCleared (s : State) (p net t d : Nat) : State :=
  ((s.arr d).runs.find? fun r => r.part == p && r.net == net).elim s fun r => s.endRun d r rrLATE t

theorem State.startRunOn_eq (p : Nat) (x : Net) (f t d : Nat) : s.startRunOn p x f t d =
    if x.onDie d && s.arrUp d then
      let v := (List.range 8).foldl (fun s g => s.wakeDom (domSeg d g)) (s.runCleared p x.net t d)
      v.setArr d { v.arr d with runs := (v.arr d).runs ++ [{ part := p, net := x.net, cls := x.cls, frame := f, trig := t }] }
    else s := by
  unfold State.startRunOn State.runCleared
  split
  · dsimp only
    cases (s.arr d).runs.find? fun r => r.part == p && r.net == x.net <;> rfl
  · rfl

theorem State.setArr_arr_same {d : Nat} (x : ArrSt) (h : d < s.arrs.length) : (s.setArr d x).arr d = x := getD_listSet_same _ _ h

theorem State.setArr_arr_of_ne {d e : Nat} (x : ArrSt) (h : e ≠ d) : (s.setArr d x).arr e = s.arr e := getD_listSet_of_ne _ _ _ h

theorem State.setArr_length (d : Nat) (x : ArrSt) : (s.setArr d x).arrs.length = s.arrs.length := length_listSet _ _ _

theorem State.endRun_arr (d : Nat) (r : ARun) (result t : Nat) : ∃ x, (s.endRun d r result t).arrs = (s.setArr d x).arrs
    ∧ x.runs = (s.arr d).runs.filter fun y => !(y.part == r.part && y.net == r.net) := by
  unfold State.endRun
  extract_lets a us mx st v
  have hraise : ((v.countRun d r result).raiseP r.part 4).keeps v [.regs, .ints, .tdcSeen] :=
    (State.raiseP_keeps _ _ _).after (v.countRun_keeps d r result)
  split
  · exact ⟨_, rfl, rfl⟩
  · exact ⟨_, hraise .arrs (by decide), rfl⟩

theorem State.runCleared_arrs (p net t d : Nat) : (s.runCleared p net t d).arrs.length = s.arrs.length
    ∧ ∀ e r, r ∈ (s.arr e).runs → r.net ≠ net → r ∈ ((s.runCleared p net t d).arr e).runs := by
  unfold State.runCleared
  cases hfind : (s.arr d).runs.find? fun r => r.part == p && r.net == net with
  | none => exact ⟨rfl, fun _ _ h _ => h⟩
  | some y =>
    obtain ⟨x, harrs, hruns⟩ := s.endRun_arr d y rrLATE t
    have hnet : y.net = net := by
      have := List.find?_some hfind
      simp only [Bool.and_eq_true, beq_iff_eq] at this
      exact this.2
    rw [Option.elim_some]
    refine ⟨by rw [harrs, State.setArr_length], fun e r hr hne => ?_⟩
    rw [State.arr, harrs, ← State.arr]
    by_cases he : e = d
    · subst he
      by_cases hlen : e < s.arrs.length
      · rw [State.setArr_arr_same _ hlen, hruns, List.mem_filter]
        refine ⟨hr, ?_⟩
        simp only [hnet, Bool.not_eq_true', Bool.and_eq_false_iff, beq_eq_false_iff_ne]
        exact .inr hne
      · rw [State.arr, List.getD_eq_default _ _ (by omega)] at hr
        exact absurd hr List.not_mem_nil
    · rw [State.setArr_arr_of_ne _ he]
      exact hr

theorem State.startRunOn_length (p : Nat) (x : Net) (f t d : Nat) : (s.startRunOn p x f t d).arrs.length = s.arrs.length := by
  rw [State.startRunOn_eq]
  split
  · dsimp only
    have hwoken : ((List.range 8).foldl (fun s g => s.wakeDom (domSeg d g)) (s.runCleared p x.net t d)).keeps (s.runCleared p x.net t d)
        [.ktl, .mem, .regs] := State.keeps_foldl (fun v g => v.wakeDom_keeps _) (State.keeps_refl _ _) _
    rw [State.setArr_length, hwoken .arrs (by decide), (s.runCleared_arrs p x.net t d).1]
  · rfl

theorem State.startRunOn_hasRun {p f t d : Nat} {x : Net} (hdie : x.onDie d = true) (hup : s.arrUp d = true) (hlen : d < s.arrs.length) :
    (s.startRunOn p x f t d).hasRun d p x.net f t := by
  have hwoken : ((List.range 8).foldl (fun s g => s.wakeDom (domSeg d g)) (s.runCleared p x.net t d)).keeps (s.runCleared p x.net t d)
      [.ktl, .mem, .regs] := State.keeps_foldl (fun v g => v.wakeDom_keeps _) (State.keeps_refl _ _) _
  rw [State.startRunOn_eq, hdie, hup, if_pos (by decide), State.hasRun]
  dsimp only
  rw [State.setArr_arr_same _ (by rw [hwoken .arrs (by decide), (s.runCleared_arrs p x.net t d).1]; exact hlen)]
  exact ⟨_, List.mem_append_right _ (List.mem_singleton_self _), rfl, rfl, rfl, rfl⟩

theorem State.hasRun.startRunOn {p f t e net : Nat} (h : s.hasRun e p net f t) (x : Net) (d : Nat) : (s.startRunOn p x f t d).hasRun e p net f t := by
  have hlen : e < s.arrs.length := by
    by_contra hc
    obtain ⟨r, hr, -⟩ := h
    rw [State.arr, List.getD_eq_default _ _ (by omega)] at hr
    exact absurd hr List.not_mem_nil
  by_cases hgo : (x.onDie d && s.arrUp d) = true
  · obtain ⟨hdie, hup⟩ := Bool.and_eq_true _ _ ▸ hgo
    by_cases hsame : e = d ∧ x.net = net
    · obtain ⟨rfl, rfl⟩ := hsame
      exact State.startRunOn_hasRun hdie hup hlen
    · obtain ⟨r, hr, hpart, hnet, hframe, htrig⟩ := h
      refine ⟨r, ?_, hpart, hnet, hframe, htrig⟩
      have hwoken : ((List.range 8).foldl (fun s g => s.wakeDom (domSeg d g)) (s.runCleared p x.net t d)).keeps (s.runCleared p x.net t d)
          [.ktl, .mem, .regs] := State.keeps_foldl (fun v g => v.wakeDom_keeps _) (State.keeps_refl _ _) _
      obtain ⟨hlen', hrest⟩ := s.runCleared_arrs p x.net t d
      rw [State.startRunOn_eq, hgo, if_pos (by decide)]
      dsimp only
      by_cases he : e = d
      · subst he
        rw [State.setArr_arr_same _ (by rw [hwoken .arrs (by decide), hlen']; exact hlen), hwoken.arr]
        exact List.mem_append_left _ (hrest _ _ hr fun hn => hsame ⟨rfl, hn.symm.trans hnet⟩)
      · rw [State.setArr_arr_of_ne _ he, hwoken.arr]
        by_cases hn : r.net = x.net
        · have hclear : (s.runCleared p x.net t d).arr e = s.arr e := by
            unfold State.runCleared
            cases (s.arr d).runs.find? fun r => r.part == p && r.net == x.net with
            | none => rfl
            | some y =>
              obtain ⟨z, harrs, -⟩ := s.endRun_arr d y rrLATE t
              rw [Option.elim_some, State.arr, harrs, ← State.arr, State.setArr_arr_of_ne _ he]
          rw [hclear]
          exact hr
        · exact hrest _ _ hr hn
  · rw [State.startRunOn_eq, if_neg hgo]
    exact h

theorem State.hasRun.startRun {p f t e net : Nat} (h : s.hasRun e p net f t) (x : Net) : (s.startRun p x f t).hasRun e p net f t :=
  (h.startRunOn x 0).startRunOn x 1

theorem State.keeps.arrUp {l : List Piece} (h : u.keeps s l) (d : Nat) (hl : .dev ∉ l ∧ .errs ∉ l := by decide) : u.arrUp d = s.arrUp d := by
  rw [State.arrUp, h .dev hl.1, State.healthy_congr (s := s) (by rw [h .errs hl.2]), State.arrUp]

theorem State.startRun_hasRun {p f t d : Nat} {x : Net} (hd : d < 2) (hdie : x.onDie d = true) (hup : s.arrUp d = true) (hlen : s.arrs.length = 2) :
    (s.startRun p x f t).hasRun d p x.net f t := by
  rcases Nat.lt_or_ge d 1 with h | h
  · obtain rfl : d = 0 := by omega
    exact (State.startRunOn_hasRun hdie hup (by omega)).startRunOn x 1
  · obtain rfl : d = 1 := by omega
    refine State.startRunOn_hasRun hdie ?_ (by rw [State.startRunOn_length]; omega)
    rw [(s.startRunOn_keeps p x f t 0).arrUp 1]
    exact hup

/-- The networks of a list started. -/
def State.netsStarted (s : State) (p n t : Nat) (l : List Net) : State := l.foldl (fun s x => s.startRun p x n t) s

theorem State.netsStarted_keeps (s : State) (p n t : Nat) (l : List Net) : (s.netsStarted p n t l).keeps s [.arrs, .regs, .ints, .tdcSeen, .ktl, .mem] :=
  State.keeps_foldl (fun v x => v.startRun_keeps p x n t) (s.keeps_refl _) _

theorem State.netsStarted_hasRun {p n t d : Nat} {l : List Net} {x : Net} (hx : x ∈ l ∨ s.hasRun d p x.net n t) (hd : d < 2)
    (hdie : x.onDie d = true) (hup : s.arrUp d = true) (hlen : s.arrs.length = 2) : (s.netsStarted p n t l).hasRun d p x.net n t := by
  unfold State.netsStarted
  induction l generalizing s with
  | nil => exact hx.resolve_left List.not_mem_nil
  | cons y r ih =>
    refine ih ?_ ?_ ?_
    · rcases hx with hx | hx
      · rcases List.mem_cons.mp hx with rfl | hx
        · exact .inr (State.startRun_hasRun hd hdie hup hlen)
        · exact .inl hx
      · exact .inr (hx.startRun y)
    · rw [(s.startRun_keeps p y n t).arrUp d]
      exact hup
    · have hstart : (s.startRun p y n t).arrs.length = 2 := by rw [State.startRun, State.startRunOn_length, State.startRunOn_length, hlen]
      exact hstart

theorem State.frameView_keeps (s : State) (n : Nat) (c : Ingest) : (s.frameView n c).keeps s [.fif, .mem, .regs, .fresh, .errs, .ints] := by
  unfold State.frameView
  extract_lets w mine slot first last b c' fif v
  have hv : v.keeps s [.fif, .mem, .regs, .fresh, .errs, .ints] := (s.setFif_keeps _).widen
  exact State.keeps_ite ((State.store_keeps _ _ _).after hv) ((State.refuse_keeps _ _ _ _).after hv)

/-- The ingest channels of partition p write their views of frame n (R464). -/
def State.viewed (s : State) (p n : Nat) : State := (s.fif.chans.filter (·.part == p)).foldl (fun s c => s.frameView n c) s

theorem State.viewed_keeps (s : State) (p n : Nat) : (s.viewed p n).keeps s [.fif, .mem, .regs, .fresh, .errs, .ints] :=
  State.keeps_foldl (fun v c => v.frameView_keeps n c) (s.keeps_refl _) _

/-- What NET_START brings before the master's services. -/
def State.netStarted (s : State) (p n t : Nat) : State :=
  (((s.setPRun p { s.prun p with nNet := n + 1 }).netsStarted p n t ((s.pcfg p).nets.filter fun x => !x.tally)).viewed p n).phaseFlag p 25

theorem exec_netStart_other {s : State} {p late t : Nat} (hhead : s.runsHead p (s.prun p).nNet = true) (hopen : (s.prun p).nNet < (s.prun p).opened)
    (ht : s.phaseAt p (s.prun p).nNet (s.pcfg p).frame.netStart + late = t)
    (hm : ((s.at t).netStarted p (s.prun p).nNet t).master ≠ some p) :
    exec (.netStart p late) s = .next ((s.at t).netStarted p (s.prun p).nNet t).finish := by
  have hexec : exec (.netStart p late) s = .next (
      if ((s.at t).netStarted p (s.prun p).nNet t).master = some p then
        [0, 1].foldl (fun v d => if v.arrUp d && ((s.pcfg p).nets.filter fun x => !x.tally).any (fun x => x.cls == clsS && x.onDie d)
          then v.wdServe d (s.prun p).nNet t else v) ((s.at t).netStarted p (s.prun p).nNet t)
      else (s.at t).netStarted p (s.prun p).nNet t).finish := by
    change execNetStart p late s = _
    unfold execNetStart State.netStarted
    dsimp only
    rw [hhead, decide_eq_true hopen, if_pos (by decide), ht, State.at_prun, State.at_pcfg]
    rfl
  rw [hexec, if_neg hm]

theorem netStart_runs (p late : Nat) (s : State) (hcalm : s.calm) (hhead : s.runsHead p (s.prun p).nNet = true)
    (hopen : (s.prun p).nNet < (s.prun p).opened) (hlen : s.arrs.length = 2) (hm : s.master ≠ some p) :
    let n := (s.prun p).nNet
    let t := s.phaseAt p n (s.pcfg p).frame.netStart + late
    ∃ u, exec (.netStart p late) s = .next u ∧ (u.prun p).nNet = n + 1 ∧ u.time = (s.at t).time
      ∧ (∀ x ∈ (s.pcfg p).nets, x.tally = false → ∀ d < 2, x.onDie d = true → s.arrUp d = true →
          ∃ r ∈ (u.arr d).runs, r.part = p ∧ r.net = x.net ∧ r.frame = n ∧ r.trig = t)
      ∧ (∀ q, q ≠ p → u.prun q = s.prun q) ∧ u.keeps (s.at t) ([.parts, .arrs, .ktl, .fif] ++ relPieces) := by
  intro n t
  have ha := (s.at t).setPRun_keeps p { (s.at t).prun p with nNet := n + 1 }
  have hasame := State.setPRun_prun_same (s := s.at t) (p := p) { (s.at t).prun p with nNet := n + 1 }
    (by rw [State.at_parts]; exact State.lt_parts_of_runsHead hhead)
  have haother {q : Nat} (hq : q ≠ p) := State.setPRun_prun_of_ne (s := s.at t) { (s.at t).prun p with nNet := n + 1 } hq
  have hw : ((s.at t).netStarted p n t).keeps ((s.at t).setPRun p { (s.at t).prun p with nNet := n + 1 }) ([.arrs, .ktl, .fif] ++ relPieces) :=
    (State.phaseFlag_keeps _ _ _).after <| (State.viewed_keeps _ _ _).after (State.netsStarted_keeps _ _ _ _ _).widen
  have hnets (x : Net) (hx : x ∈ (s.pcfg p).nets) (htally : x.tally = false) (d : Nat) (hd : d < 2) (hdie : x.onDie d = true) (hup : s.arrUp d = true) :
      ((s.at t).netStarted p n t).hasRun d p x.net n t := by
    have hrest (v : State) : ((v.viewed p n).phaseFlag p 25).arr d = v.arr d := by
      rw [(State.phaseFlag_keeps _ _ _).arr, (State.viewed_keeps _ _ _).arr]
    rw [State.netStarted, State.hasRun, hrest]
    refine State.netsStarted_hasRun (.inl (List.mem_filter.mpr ⟨by rwa [State.at_pcfg], by simp [htally]⟩)) hd hdie ?_ ?_
    · rw [ha.arrUp d, State.arrUp, State.at_dev, State.healthy_congr (s := s) (by rw [State.at_errs]), ← State.arrUp]
      exact hup
    · rw [ha .arrs (by decide), State.at_arrs]
      exact hlen
  have hk := hw.after (m := [.parts, .arrs, .ktl, .fif] ++ relPieces) ha.widen
  have hmaster : ((s.at t).netStarted p n t).master ≠ some p := by
    rw [State.master_congr (hk .loader (by decide)), State.at_master]
    exact hm
  refine ⟨_, exec_netStart_other hhead hopen rfl hmaster, ?_⟩
  generalize (s.at t).netStarted p n t = v at hw hnets hk
  have hf := hk.calm (s.at_calm t hcalm)
  refine ⟨?_, (State.finish_time _ hf).trans (hk .time (by decide)), fun x hx htally d hd hdie hup => ?_, fun q hq => ?_,
    hk.finish (s.at_calm t hcalm)⟩
  · rw [State.finish_prun hf, hw.prun, hasame]
  · rw [State.finish_arr hf]
    exact hnets x hx htally d hd hdie hup
  · rw [State.finish_prun hf, hw.prun, haother hq, State.at_prun]

/-! ### BUILD_START and OUT -/

theorem buildStart_other (p late : Nat) (s : State) (hcalm : s.calm) (hhead : s.runsHead p (s.prun p).nBuild = true)
    (hopen : (s.prun p).nBuild < (s.prun p).opened) (hm : s.master ≠ some p) :
    let t := s.phaseAt p (s.prun p).nBuild (s.pcfg p).frame.buildStart + late
    ∃ u, exec (.buildStart p late) s = .next u ∧ u.prun p = { s.prun p with nBuild := (s.prun p).nBuild + 1 } ∧ u.time = (s.at t).time
      ∧ (∀ q, q ≠ p → u.prun q = s.prun q) ∧ u.keeps (s.at t) ([.parts] ++ relPieces) := by
  intro t
  have hexec := exec_buildStart (late := late) hhead hopen rfl
  have hmaster : ((s.at t).counted p { s.prun p with nBuild := (s.prun p).nBuild + 1 } 26).master ≠ some p := by
    rw [State.master_congr ((State.counted_keeps _ _ _ _) .loader (by decide)), State.at_master]
    exact hm
  dsimp only at hexec
  rw [if_neg (fun h => hmaster h.1)] at hexec
  exact ⟨_, hexec, State.counted_finish 26 hcalm (State.lt_parts_of_runsHead hhead)⟩

theorem exec_out {s : State} {p : Nat} (htail : s.runsTail p (s.prun p).nOut = true) (hopen : (s.prun p).nOut < (s.prun p).opened) :
    exec (.out p) s = .next ((s.at (s.phaseAt p (s.prun p).nOut (s.pcfg p).frame.out)).counted p
      { s.prun p with nOut := (s.prun p).nOut + 1 } 30).finish := by
  change execOut p s = _
  unfold execOut
  dsimp only
  rw [htail, decide_eq_true hopen, if_pos (by decide), State.at_prun]
  rfl

theorem out_counts (p : Nat) (s : State) (hcalm : s.calm) (htail : s.runsTail p (s.prun p).nOut = true) (hopen : (s.prun p).nOut < (s.prun p).opened) :
    let t := s.phaseAt p (s.prun p).nOut (s.pcfg p).frame.out
    ∃ u, exec (.out p) s = .next u ∧ u.prun p = { s.prun p with nOut := (s.prun p).nOut + 1 } ∧ u.time = (s.at t).time
      ∧ (∀ q, q ≠ p → u.prun q = s.prun q) ∧ u.keeps (s.at t) ([.parts] ++ relPieces) := by
  intro t
  exact ⟨_, exec_out htail hopen, State.counted_finish 30 hcalm (State.lt_parts_of_runsTail htail)⟩

/-- Settles O19: the window that opens, the networks that start, and the phase points that count. -/
theorem frameStarts : Obligations.FrameStarts := by
  unfold Obligations.FrameStarts
  exact ⟨frameWindow_opened, netStart_runs, buildStart_other, out_counts⟩

end Sys2Proof.Machine
end

section
/-! SUPPORT. The boundary of a master frame: the check windows turn, and its build is published or skipped (03_clearance_field.md R82 to
R86, 01_architecture.md R22). -/

namespace Sys2Proof.Machine

set_option Elab.async false

variable {s u : State}

/-! ### Check windows that turn -/

theorem State.keeps.wds {l : List Piece} (h : u.keeps s l) (hl : .warden ∉ l := by decide) : u.warden.wds = s.warden.wds := by
  have hw : u.warden.still.wds = s.warden.still.wds := congrArg Warden.wds (h .warden hl)
  exact hw


/-- A stop takes no service back that was due: it can only end what is awaited. -/
theorem State.aside.wdDue {w n t : Nat} (h : u.aside s) (hactive : u.loader.active = s.loader.active) (hwds : u.warden.wds = s.warden.wds)
    (hd : s.wdDue w n t) : u.wdDue w n t := by
  have hcfg : u.cfg = s.cfg := by rw [State.cfg, hactive, State.cfg]
  have hmaster : u.master = s.master := by rw [State.master, hcfg, State.master]
  have hwd : u.wd w = s.wd w := by rw [State.wd, hwds, State.wd]
  have hrun (p : Nat) : u.running p = s.running p ∧ (u.prun p).t0 = (s.prun p).t0
      ∧ ((u.prun p).lastFrame = (s.prun p).lastFrame ∨ (s.prun p).lastFrame = none) := by
    rcases h.runs p with h | ⟨hnone, l, h⟩
    · rw [State.running, h, State.running]
      exact ⟨rfl, rfl, .inl rfl⟩
    · rw [State.running, h, State.running]
      exact ⟨rfl, rfl, .inr hnone⟩
  have hphase (p k off : Nat) : u.phaseAt p k off = s.phaseAt p k off := by
    rw [State.phaseAt, State.winStart, (hrun p).2.1, State.period, State.pcfg, hcfg, State.phaseAt, State.winStart, State.period, State.pcfg]
  have hwin : u.wdWin w = s.wdWin w := by
    unfold State.wdWin
    rw [hcfg]
  have hopen : u.wdOpen w = s.wdOpen w := by simp only [State.wdOpen, hmaster, hwd, hphase, hwin]
  rcases hd with hd | ⟨hn, hlo, hhi⟩
  · refine .inl ?_
    have hless (p k : Nat) : (u.runsHead p k = true → s.runsHead p k = true) ∧ (u.runsTail p k = true → s.runsTail p k = true) := by
      obtain ⟨hr, -, hl⟩ := hrun p
      unfold State.runsHead State.runsTail
      rw [hr]
      rcases hl with hl | hl
      · rw [hl]
        exact ⟨id, id⟩
      · rw [hl]
        simp only [Bool.and_true, Bool.and_eq_true]
        exact ⟨And.left, And.left⟩
    by_contra hc
    rw [Bool.not_eq_false] at hc
    rw [State.wdExpects, hmaster, hwd] at hc
    have : s.wdExpects w = true := by
      rw [State.wdExpects]
      obtain ⟨harmed, hany⟩ := Bool.and_eq_true _ _ ▸ hc
      rw [harmed, Bool.true_and]
      cases hm : s.master with
      | none => rw [hm] at hany; exact hany
      | some p =>
        rw [hm, Option.any_some] at hany
        rw [Option.any_some]
        split
        next hw => rw [if_pos hw] at hany; exact (hless _ _).1 hany
        next hw => rw [if_neg hw] at hany; exact (hless _ _).2 hany
    rw [this] at hd
    exact absurd hd (by decide)
  · refine .inr ⟨hwd ▸ hn, ?_, ?_⟩ <;> rw [hopen] <;> assumption

theorem State.countVerdict_aside (s : State) (k : Nat) (v : Verdict) : (s.countVerdict k v).aside s := by
  have hreg {o : Nat} (h : 0x200000 ≤ o ∧ 0x4018 ≤ o % 0x400000 ∧ o % 0x400000 ≤ 0x4034) : asideReg o = true := asideReg_of_die h.1 (.inl h.2)
  refine (s.countVerdict_keeps k v).aside_of_rd fun o ho => s.countVerdict_rd v fun hm => ?_
  have : asideReg o = true := by
    apply hreg
    simp only [List.mem_cons, List.not_mem_nil, or_false, Reg.prbVerdictLo, Reg.prbCollidedCount, Reg.prbTruncCount, Reg.prbCapCount,
      Reg.prbPlanStale, Reg.prbPoisonCount, Reg.prbNearCount] at hm
    omega
  rw [this] at ho
  exact absurd ho (by decide)

theorem State.closeCore_aside (s : State) (k : Nat) : (s.closeCore k).aside s :=
  State.aside_foldl _ (fun v _ => v.tdc_aside _ _ (by decide)) <| (State.setCore_keeps _ _ _).aside.trans <|
    State.aside_foldl _ (fun v _ => v.countVerdict_aside _ _) s.aside_refl

theorem State.closeCore_keeps (s : State) (k : Nat) : (s.closeCore k).keeps s [.cores, .regs, .ints, .tdcSeen] :=
  State.keeps_foldl (fun v _ => (v.tdc_keeps _ _ _).widen) ((State.setCore_keeps _ _ _).after (m := [.cores, .regs, .ints, .tdcSeen]) <|
    State.keeps_foldl (fun v _ => (v.countVerdict_keeps _ _).widen) (s.keeps_refl _) _) _

theorem State.turnWindows_aside (s : State) (t : Nat) : (s.turnWindows t).aside s :=
  (State.allUnresolved_aside _ _).trans <| (State.setSched_keeps _ _).aside.trans <| State.aside_foldl _ (fun v k => v.closeCore_aside k) s.aside_refl

theorem State.turnWindows_keeps (s : State) (t : Nat) : (s.turnWindows t).keeps s retirePieces := by
  have hclosed : ((List.range 128).foldl State.closeCore s).keeps s retirePieces :=
    State.keeps_foldl (fun v k => (v.closeCore_keeps k).widen) (s.keeps_refl _) _
  unfold State.turnWindows
  dsimp only
  generalize (List.range 128).foldl State.closeCore s = v at hclosed
  exact (State.allUnresolved_keeps _ _).after ((v.setSched_keeps _).after hclosed)

/-! ### The boundary -/

/-- The build of frame n, or none at all with the boundary at b. -/
def State.frameBuild (s : State) (n b : Nat) : FldBuild :=
  let b0 : FldBuild := { frame := n, b, epoch := (s.fld.epoch + 1) % 65536, result := 2 }
  match s.fld.build with | some b => if b.frame = n then b else b0 | none => b0

/-- Unsealed, a build is not to be published. -/
def FldBuild.ifSealed (b : FldBuild) : FldBuild := if b.result = 0 ∧ !b.sealed then { b with result := 2 } else b

/-- The build that the boundary at b of master frame n looks at. -/
def State.chosenBuild (s : State) (n b : Nat) : FldBuild := (s.frameBuild n b).ifSealed

theorem State.frameBuild_of_some {n bAt : Nat} {b : FldBuild} (hbuild : s.fld.build = some b) (hframe : b.frame = n) : s.frameBuild n bAt = b := by
  unfold State.frameBuild
  rw [hbuild]
  exact if_pos hframe

/-- The publish point of frame n counted, with the build it looks at. -/
def State.pubCounted (s : State) (n : Nat) (b : FldBuild) : State := { s with fld := { s.fld with nPub := n + 1, build := some b } }

/-- The windows turned at the boundary, and its watchdog served. -/
def State.turned (s : State) (n : Nat) (b : FldBuild) (bAt t : Nat) : State := ((s.pubCounted n b).turnWindows bAt).wdServe 3 n t

/-- The goal blocks read for the check windows that open at the boundary. -/
def State.goalsRead (s : State) (bAt : Nat) : State :=
  s.mechParts.foldl (fun (s : State) (p : Nat) =>
    match s.openingFrame p bAt with
    | some m => (if s.runsTail p m then s.readGoals p m else s)
    | none => s) s

/-- The tasks that wait for the publish released. -/
def State.pubFlags (s : State) (bAt : Nat) : State := ((List.range 8).filter fun p => s.publishesAt p bAt).foldl (fun s p => s.phaseFlag p 27) s

theorem exec_publish {s : State} {p late n bAt : Nat} {b : FldBuild} (hm : s.master = some p) (hhead : s.runsHead p s.fld.nPub = true)
    (hopen : s.fld.nPub < (s.prun p).opened) (hn : s.fld.nPub = n) (hb : s.phaseAt p n (s.pcfg p).frame.publish = bAt)
    (hbuild : (s.at (bAt + late)).chosenBuild n bAt = b) (hjudged : ¬ (b.result = 0 ∧ (!b.judged) = true)) :
    exec (.publish late) s = .next (
      let v := (s.at (bAt + late)).turned n b bAt (bAt - 8 + late)
      if b.result = 0 then ((v.publishBuild b).goalsRead bAt).pubFlags bAt else v.skipBuild b bAt).finish := by
  subst hn hb
  change execPublish late s = _
  unfold execPublish
  rw [hm]
  dsimp -zeta only
  extract_lets n bAt a src counted b0 b1 b2 src' shown b3
  have hb2 : b2 = b := hbuild
  have hshown : shown = a.pubCounted n b := by
    rw [← hb2] at hjudged ⊢
    exact if_neg hjudged
  have hb3 : b3 = b := by
    have : b3 = shown.fld.build.getD b2 := rfl
    rw [this, hshown]
    rfl
  clear_value b3 shown
  subst hb3 hshown
  rw [hhead, decide_eq_true hopen, if_pos (by decide)]
  rfl

theorem State.pubCounted_keeps (s : State) (n : Nat) (b : FldBuild) : (s.pubCounted n b).keeps s [.fld] := s.setFld_keeps _

/-- What the turn of the windows leaves: the field but for its stores, the registers that no fault counts in, and the frame. -/
theorem State.turned_after {n t bAt : Nat} {b : FldBuild} (hdue : s.wdDue 3 n t) :
    (s.turned n b bAt t).fld.bare = (s.pubCounted n b).fld.bare ∧ (∀ o, asideReg o = false → (s.turned n b bAt t).rd o = s.rd o)
      ∧ (s.turned n b bAt t).keeps s (.warden :: retirePieces) := by
  have ha := (s.pubCounted n b).turnWindows_aside bAt
  have hk := (s.pubCounted n b).turnWindows_keeps bAt
  have hdue' : ((s.pubCounted n b).turnWindows bAt).wdDue 3 n t :=
    ha.wdDue (by rw [hk .loader (by decide)]) (by rw [hk.wds]) hdue
  have hserve := State.wdServe_keeps hdue'
  refine ⟨?_, fun o ho => ?_, hserve.after (hk.after (m := .warden :: retirePieces) (s.pubCounted_keeps n b).widen)⟩
  · rw [State.turned, hserve .fld (by decide)]
    exact ha.fld
  · rw [State.turned, (hserve .regs (by decide)) o (by simp), ha.rd o ho]
    rfl

/-! ### A build published -/

theorem State.setStore_bare (s : State) (g : Nat) (x : StoreSt) : (s.setStore g x).fld.bare = s.fld.bare := rfl

theorem State.publishStore_after (s : State) (e g : Nat) : (s.publishStore e g).fld.bare = s.fld.bare
    ∧ (s.publishStore e g).keeps s [.fld, .mem, .regs] := by
  unfold State.publishStore
  split
  · exact ⟨s.setStore_bare _ _, (s.setStore_keeps _ _).widen⟩
  · split
    · have hs := s.store_keeps (storeBase g + stControl) (toLE 8 (controlWord e))
      exact ⟨by rw [State.setStore_bare, hs .fld (by decide)], (State.setStore_keeps _ _ _).after hs.widen⟩
    · have hs : (s.closeStore g).keeps s [.mem, .regs] := s.shut_keeps g
      exact ⟨by rw [State.setStore_bare, hs .fld (by decide)], (State.setStore_keeps _ _ _).after hs.widen⟩

/-- The stores told of the epoch. -/
def State.storesTold (s : State) (e : Nat) : State := (List.range 16).foldl (fun s g => s.publishStore e g) s

theorem State.storesTold_after (s : State) (e : Nat) : (s.storesTold e).fld.bare = s.fld.bare ∧ (s.storesTold e).keeps s [.fld, .mem, .regs] := by
  refine ⟨?_, State.keeps_foldl (fun v g => (v.publishStore_after e g).2) (s.keeps_refl _) _⟩
  unfold State.storesTold
  generalize List.range 16 = l
  induction l generalizing s with
  | nil => rfl
  | cons g r ih => rw [List.foldl_cons, ih, (s.publishStore_after e g).1]

/-- The field with a build in force. -/
def FldSt.published (f : FldSt) (b : FldBuild) : FldSt :=
  { f with
      epoch := b.epoch, valid := true, closed := false, pubB := b.b, frame := b.frame, total := b.total, new := b.new, cMid := b.cMid,
      cFine := b.cFine, dMid := b.dMid, dFine := b.dFine, humans := b.humans, result := 0, resEpoch := b.epoch, build := none }

theorem State.publishBuild_after (s : State) (b : FldBuild) : (s.publishBuild b).fld = (s.storesTold b.epoch).fld.published b
    ∧ (s.publishBuild b).keeps s [.fld, .mem, .regs, .parts] := by
  let w : State := { s.storesTold b.epoch with fld := (s.storesTold b.epoch).fld.published b }
  have hw : w.keeps s [.fld, .mem, .regs, .parts] := (State.setFld_keeps _ _).after ((s.storesTold_after b.epoch).2.widen)
  have hcount : ((w.inc (Reg.fldCoarsenTotal 0) b.cFine).inc (Reg.fldOccErr 0) b.occErr).keeps w [.regs] :=
    (State.inc_keeps _ _ _).after (w.inc_keeps _ _)
  refine ⟨hcount .fld (by decide), (State.setParts_keeps _ _).after (hcount.after hw)⟩

theorem State.readGoal_keeps (s : State) (p n m : Nat) : (s.readGoal p n m).1.keeps s [.regs] := by
  have hmiss (v : State) (q : PartCfg) : ([0, 1].foldl (fun s d => if (q.coresOn d).isEmpty then s else s.inc (Reg.cstGoalMiss d)) v).keeps v [.regs] :=
    State.keeps_foldl (fun v _ => State.keeps_ite (v.keeps_refl _) (v.inc_keeps _ 1)) (v.keeps_refl _) _
  unfold State.readGoal
  dsimp only
  split
  · exact hmiss _ _
  · split
    · exact (hmiss _ _).after (s.inc_keeps _ 1)
    · split
      · exact s.keeps_refl _
      · exact hmiss _ _

theorem State.readGoals_keeps (s : State) (p n : Nat) : (s.readGoals p n).keeps s [.parts, .regs] := by
  have hfold (l : List Nat) (acc : State × List (Nat × Nat × Goal)) (h : acc.1.keeps s [.regs]) :
      (l.foldl (fun (acc : State × List (Nat × Nat × Goal)) m => ((acc.1.readGoal p n m).1, acc.2 ++ [(n, m, (acc.1.readGoal p n m).2)])) acc).1.keeps s [.regs] := by
    induction l generalizing acc with
    | nil => exact h
    | cons m r ih => exact ih _ ((acc.1.readGoal_keeps p n m).after h)
  exact (State.setPRun_keeps _ _ _).after ((hfold _ (s, []) (s.keeps_refl _)).widen (m := [.parts, .regs]))

theorem State.goalsRead_keeps (s : State) (bAt : Nat) : (s.goalsRead bAt).keeps s [.parts, .regs] := by
  refine State.keeps_foldl (fun v p => ?_) (s.keeps_refl _) _
  split
  · exact State.keeps_ite (v.readGoals_keeps _ _) (v.keeps_refl _)
  · exact v.keeps_refl _

theorem State.pubFlags_keeps (s : State) (bAt : Nat) : (s.pubFlags bAt).keeps s relPieces :=
  State.keeps_foldl (fun v p => v.phaseFlag_keeps p 27) (s.keeps_refl _) _

/-- What a boundary changes. -/
def pubPieces : List Piece := .warden :: retirePieces

theorem publish_inForce (p late : Nat) (s : State) (b : FldBuild) (hcalm : s.calm) (hm : s.master = some p) (hhead : s.runsHead p s.fld.nPub = true)
    (hopen : s.fld.nPub < (s.prun p).opened) (hbuild : s.fld.build = some b) (hframe : b.frame = s.fld.nPub) (hseal : b.sealed = true)
    (hjudged : b.judged = true) (hres : b.result = 0)
    (hdue : s.wdDue 3 s.fld.nPub (s.phaseAt p s.fld.nPub (s.pcfg p).frame.publish - 8 + late)) :
    ∃ u, exec (.publish late) s = .next u ∧ u.fld.epoch = b.epoch ∧ u.fld.valid = true ∧ u.fld.closed = false
      ∧ u.fld.build = none ∧ u.fld.nPub = s.fld.nPub + 1 ∧ u.fld.frame = b.frame ∧ u.fld.total = b.total
      ∧ u.fld.humans = b.humans ∧ u.fld.result = 0
      ∧ u.time = (s.at (s.phaseAt p s.fld.nPub (s.pcfg p).frame.publish + late)).time := by
  generalize hat : s.phaseAt p s.fld.nPub (s.pcfg p).frame.publish = bAt at hdue
  have hchosen : (s.at (bAt + late)).chosenBuild s.fld.nPub bAt = b := by
    rw [State.chosenBuild, State.frameBuild_of_some (by rw [State.at_fld]; exact hbuild) hframe]
    exact if_neg (by simp [hseal])
  have hexec := exec_publish (late := late) hm hhead hopen rfl hat hchosen (by simp [hjudged])
  dsimp only at hexec
  rw [if_pos hres] at hexec
  obtain ⟨hbare, -, hturned⟩ := State.turned_after (b := b) (bAt := bAt) (((s.at_ticksAs (bAt + late))).wdDue hdue)
  generalize (s.at (bAt + late)).turned s.fld.nPub b bAt (bAt - 8 + late) = v at hexec hbare hturned
  obtain ⟨hfld, hpub⟩ := v.publishBuild_after b
  have hrest : ((v.publishBuild b).goalsRead bAt |>.pubFlags bAt).keeps (v.publishBuild b) (.parts :: relPieces) :=
    (State.pubFlags_keeps _ _).after ((State.goalsRead_keeps _ _).widen)
  have hk : ((v.publishBuild b).goalsRead bAt |>.pubFlags bAt).keeps (s.at (bAt + late)) pubPieces := hrest.after (hpub.after (m := pubPieces) hturned)
  have hf := hk.calm (s.at_calm _ hcalm)
  have hnPub : (v.storesTold b.epoch).fld.bare.nPub = s.fld.nPub + 1 := by
    rw [(v.storesTold_after b.epoch).1, hbare]
    rfl
  have hufld : ((v.publishBuild b).goalsRead bAt |>.pubFlags bAt).finish.fld = (v.storesTold b.epoch).fld.published b := by
    rw [State.finish_fld _ hf, hrest .fld (by decide), hfld]
  refine ⟨_, hexec, ?_⟩
  rw [hufld]
  exact ⟨rfl, rfl, rfl, rfl, hnPub, rfl, rfl, rfl, rfl, (State.finish_time _ hf).trans (hk .time (by decide))⟩

/-! ### A boundary without a publish -/

theorem State.chosenBuild_result {n bAt : Nat} (h : ∀ b, s.fld.build = some b → b.frame = n → b.result ≠ 0 ∨ b.sealed = false) :
    (s.chosenBuild n bAt).result ≠ 0 := by
  have hframed : (s.frameBuild n bAt).result ≠ 0 ∨ (s.frameBuild n bAt).sealed = false := by
    unfold State.frameBuild
    dsimp only
    split
    next b hb =>
      split
      next hframe => exact h b hb hframe
      next => exact .inl (Nat.succ_ne_zero 1)
    next => exact .inl (Nat.succ_ne_zero 1)
  rw [State.chosenBuild, FldBuild.ifSealed]
  split
  · exact Nat.succ_ne_zero 1
  next hno => exact fun hz => hno ⟨hz, by rw [hframed.resolve_left (not_not.mpr hz)]; rfl⟩

/-- CLOSED written in every store that is awake. -/
def State.storesClosed (s : State) : State := ((List.range 16).filter s.storeUp).foldl State.closeStore s

/-- The field without a publish. -/
def FldSt.skipped (f : FldSt) (b : FldBuild) : FldSt :=
  { f with closed := true, result := b.result, resEpoch := b.epoch, build := none,
           stores := f.stores.map fun (x : StoreSt) => { x with ready := false } }

/-- The stores closed and the field shown without a publish. -/
def State.skipShown (s : State) (b : FldBuild) : State := { s.storesClosed with fld := s.storesClosed.fld.skipped b }

/-- The frames that lose their admission or their commit charged. -/
def State.skipCharged (s : State) (bAt : Nat) : State :=
  s.mechParts.foldl (fun s p =>
    match s.openingFrame p bAt with
    | none => s
    | some n =>
      let s := if s.runsTail p n then s.tdc p n 1 else s
      if 0 < n ∧ s.runsTail p (n - 1) then s.tdc p (n - 1) 1 else s) s

theorem State.skipBuild_eq (s : State) (b : FldBuild) (t : Nat) : s.skipBuild b t =
    ((((((s.skipShown b).inc (Reg.fldLateCount 0)).inc (Reg.fldOccErr 0) b.occErr).event { kind := ekBUILD_LATE, t }).raise isrcBUILD_LATE).skipCharged b.b) := rfl

theorem State.skipCharged_after (s : State) (bAt : Nat) : (s.skipCharged bAt).keeps s [.regs, .ints, .tdcSeen] ∧ (s.skipCharged bAt).aside s := by
  constructor
  · refine State.keeps_foldl (fun v p => ?_) (s.keeps_refl _) _
    dsimp only
    split
    · exact v.keeps_refl _
    next n _ =>
      have hone : (if v.runsTail p n then v.tdc p n 1 else v).keeps v [.regs, .ints, .tdcSeen] := State.keeps_ite (v.tdc_keeps _ _ _) (v.keeps_refl _)
      exact State.keeps_ite ((State.tdc_keeps _ _ _ _).after hone) hone
  · refine State.aside_foldl _ (fun v p => ?_) s.aside_refl
    dsimp only
    split
    · exact v.aside_refl
    next n _ =>
      have hone : (if v.runsTail p n then v.tdc p n 1 else v).aside v := State.aside_ite (v.tdc_aside _ _ (by decide)) v.aside_refl
      exact State.aside_ite ((State.tdc_aside _ _ _ (by decide)).trans hone) hone

theorem State.storesClosed_after (s : State) : s.storesClosed.keeps s [.mem, .regs] ∧ s.storesClosed.aside s :=
  ⟨State.keeps_foldl (fun v g => v.shut_keeps g) (s.keeps_refl _) _, State.aside_foldl _ (fun v _ => v.store_aside _ _) s.aside_refl⟩

/-- What a boundary without a publish leaves. -/
theorem State.skipBuild_after (s : State) (b : FldBuild) (t : Nat) : (s.skipBuild b t).fld = s.fld.skipped b
    ∧ (s.skipBuild b t).rd (Reg.fldLateCount 0) = satAdd (s.rd (Reg.fldLateCount 0)) 1
    ∧ (s.skipBuild b t).keeps s [.fld, .mem, .regs, .fresh, .errs, .ints, .tdcSeen] := by
  obtain ⟨hclosed, hclosedRd⟩ := s.storesClosed_after
  have hfld : (s.skipShown b).fld = s.fld.skipped b := by
    rw [← hclosed .fld (by decide)]
    rfl
  have hshown : (s.skipShown b).keeps s [.fld, .mem, .regs, .fresh, .errs, .ints, .tdcSeen] := (State.setFld_keeps _ _).after hclosed.widen
  have hrd : (s.skipShown b).rd (Reg.fldLateCount 0) = s.rd (Reg.fldLateCount 0) := hclosedRd.rd _ (by decide)
  rw [State.skipBuild_eq]
  generalize s.skipShown b = v at hfld hshown hrd
  have hcount : ((v.inc (Reg.fldLateCount 0)).inc (Reg.fldOccErr 0) b.occErr).keeps v [.regs] := (State.inc_keeps _ _ _).after (v.inc_keeps _ _)
  have hcountRd : ((v.inc (Reg.fldLateCount 0)).inc (Reg.fldOccErr 0) b.occErr).rd (Reg.fldLateCount 0) = satAdd (v.rd (Reg.fldLateCount 0)) 1 := by
    rw [State.rd_inc_ne _ _ _ _ (by decide), State.rd_inc_same]
  generalize (v.inc (Reg.fldLateCount 0)).inc (Reg.fldOccErr 0) b.occErr = w at hcount hcountRd
  have hevent : w.event { kind := ekBUILD_LATE, t } = w.log (plainRec { kind := ekBUILD_LATE, t } 0) := w.event_plain 0 rfl (by show ekBUILD_LATE ∉ _; decide)
  rw [hevent]
  have hend := (State.skipCharged_after ((w.log (plainRec { kind := ekBUILD_LATE, t } 0)).raise isrcBUILD_LATE) b.b)
  have hlog : ((w.log (plainRec { kind := ekBUILD_LATE, t } 0)).raise isrcBUILD_LATE).keeps w [.fresh, .errs, .mem, .regs, .ints] :=
    (State.raise_keeps _ _).after (w.log_keeps _)
  have hall := hend.1.after (m := [.fresh, .errs, .mem, .regs, .ints, .tdcSeen]) hlog.widen
  refine ⟨?_, ?_, hall.after (hcount.after hshown)⟩
  · rw [hall .fld (by decide), hcount .fld (by decide), hfld]
  · rw [hend.2.rd _ (by decide), ((State.raise_aside _ _).trans (w.log_aside _)).rd _ (by decide), hcountRd, hrd]

theorem publish_skipped (p late : Nat) (s : State) (hcalm : s.calm) (hm : s.master = some p) (hhead : s.runsHead p s.fld.nPub = true)
    (hopen : s.fld.nPub < (s.prun p).opened)
    (hbuild : ∀ b, s.fld.build = some b → b.frame = s.fld.nPub → b.result ≠ 0 ∨ b.sealed = false)
    (hdue : s.wdDue 3 s.fld.nPub (s.phaseAt p s.fld.nPub (s.pcfg p).frame.publish - 8 + late)) :
    ∃ u, exec (.publish late) s = .next u ∧ u.fld.epoch = s.fld.epoch ∧ u.fld.closed = true ∧ u.fld.build = none
      ∧ u.fld.nPub = s.fld.nPub + 1 ∧ u.fld.result ≠ 0
      ∧ u.rd (Reg.fldLateCount 0) = satAdd ((s.at (s.phaseAt p s.fld.nPub (s.pcfg p).frame.publish + late)).rd (Reg.fldLateCount 0)) 1 := by
  generalize hat : s.phaseAt p s.fld.nPub (s.pcfg p).frame.publish = bAt at hdue
  have hres : ((s.at (bAt + late)).chosenBuild s.fld.nPub bAt).result ≠ 0 := State.chosenBuild_result (by rwa [State.at_fld])
  generalize hchosen : (s.at (bAt + late)).chosenBuild s.fld.nPub bAt = b at hres
  have hexec := exec_publish (late := late) hm hhead hopen rfl hat hchosen fun h => hres h.1
  dsimp only at hexec
  rw [if_neg hres] at hexec
  obtain ⟨hbare, hrd, hturned⟩ := State.turned_after (b := b) (bAt := bAt) (((s.at_ticksAs (bAt + late))).wdDue hdue)
  generalize (s.at (bAt + late)).turned s.fld.nPub b bAt (bAt - 8 + late) = v at hexec hbare hrd hturned
  obtain ⟨hfld, hlate, hskip⟩ := v.skipBuild_after b bAt
  have hk : (v.skipBuild b bAt).keeps (s.at (bAt + late)) pubPieces := hskip.after (m := pubPieces) hturned
  have hf := hk.calm (s.at_calm _ hcalm)
  have hepoch : v.fld.bare.epoch = s.fld.epoch := by
    rw [hbare, ← s.at_fld (bAt + late)]
    rfl
  have hnPub : v.fld.bare.nPub = s.fld.nPub + 1 := by
    rw [hbare]
    rfl
  refine ⟨_, hexec, ?_⟩
  rw [State.finish_fld _ hf, State.finish_rd _ hf, hfld, hlate, hrd _ (by decide)]
  exact ⟨hepoch, rfl, rfl, hnPub, hres, rfl⟩

/-- Settles O21: the boundary with a publish and without one. -/
theorem publish : Obligations.Publish := by
  unfold Obligations.Publish
  exact ⟨publish_inForce, publish_skipped⟩

end Sys2Proof.Machine
end

section
/-! SUPPORT. The commit round up to its writes (07_selection_and_commit.md R187 to R194). -/

namespace Sys2Proof.Machine

set_option Elab.async false

/-! ### The round but for its mechanisms and write group -/

/-- The round without its mechanisms and the write group in progress. -/
def Round.head (r : Round) : Round := { r with group := 0, mechs := [] }

/-- Two states have the round, but for its mechanisms and write group, in common. -/
abbrev State.roundAs (u s : State) : Prop := u.round.head = s.round.head

variable {s u v : State}

theorem State.keeps.roundAs {l : List Piece} (h : u.keeps s l) (hl : .round ∉ l := by decide) : u.roundAs s := by rw [State.roundAs, h .round hl]

theorem Round.fields_of_head {x y : Round} (h : x.head = y.head) : x.busy = y.busy ∧ x.frame = y.frame ∧ x.late = y.late ∧ x.noEpoch = y.noEpoch
    ∧ x.abandoned = y.abandoned ∧ x.next = y.next ∧ x.parts = y.parts := by
  have hh : (x.head.busy, x.head.frame, x.head.late, x.head.noEpoch, x.head.abandoned, x.head.next, x.head.parts)
      = (y.head.busy, y.head.frame, y.head.late, y.head.noEpoch, y.head.abandoned, y.head.next, y.head.parts) := by rw [h]
  simpa [Round.head] using hh

variable (s)

theorem State.setMr_keeps (m : Nat) (x : MRound) : (s.setMr m x).keeps s [.round] := s.setRound_keeps _

theorem State.setMr_roundAs (m : Nat) (x : MRound) : (s.setMr m x).roundAs s := rfl

/-! ### A decision of the round kept in frame -/

/-- The pieces that the decisions of a round may change. -/
def roundPieces : List Piece := [.round, .sched, .regs, .ints, .tdcSeen, .mem, .fresh, .errs, .traceQ]

/-- Two states differ as the decisions of a round make them differ. -/
structure State.decides (u s : State) : Prop where
  keeps : u.keeps s roundPieces
  round : u.roundAs s

variable {s}

theorem State.decides_refl (s : State) : s.decides s := ⟨s.keeps_refl _, rfl⟩

theorem State.decides.trans (h : u.decides v) (k : v.decides s) : u.decides s := ⟨State.keeps_trans h.keeps k.keeps, h.round.trans k.round⟩

theorem State.decides_ite {c : Prop} [Decidable c] {a b : State} (ha : a.decides s) (hb : b.decides s) : (if c then a else b).decides s := by
  split
  · exact ha
  · exact hb

theorem State.decides_foldl {α : Type} {f : State → α → State} (l : List α) (hf : ∀ v x, (f v x).decides v) (h : u.decides s) :
    (l.foldl f u).decides s := by
  induction l generalizing u with
  | nil => exact h
  | cons x r ih => exact ih ((hf u x).trans h)

theorem State.keeps.decides {l : List Piece} (h : u.keeps s l) (hl : .round ∉ l ∧ ∀ c ∈ l, c ∈ roundPieces := by decide) : u.decides s :=
  ⟨State.keeps_mono h hl.2, h.roundAs hl.1⟩

variable (s)

theorem State.setMr_decides (m : Nat) (x : MRound) : (s.setMr m x).decides s := ⟨(s.setMr_keeps m x).widen, rfl⟩

theorem State.carry_decides (m outcome : Nat) : (s.carry m outcome).decides s := s.setMr_decides _ _

theorem State.present_decides (m : Nat) (r : CommitRec) : (s.present m r).decides s := (State.store_keeps _ _ _).decides.trans (s.setMr_decides _ _)

theorem State.pushTry_keeps (d : Nat) (i : Item) : (s.pushTry d i).keeps s [.sched] := s.setSch_keeps _ _

/-! ### The writes begin -/

theorem State.barHeld_decides (m : Nat) : (s.barHeld m).decides s := State.decides_ite (s.carry_decides _ _) s.decides_refl

/-- The pair test of one mechanism, behind those of the mechanisms below it. -/
def State.pairStep (acc : State × List (Mech × CommitRec)) (m : Nat) : State × List (Mech × CommitRec) :=
  let x := acc.1.mr m
  match acc.1.mech? m, x.rec_ with
  | some (_, mc), some r =>
    if x.st = CSt.pair then
      if acc.2.any fun e => acc.1.meet e.1 mc e.2 r then
        ((acc.1.setMr m { x with st := .carried, outcome := 3, rec_ := none }).inc Reg.selPairDrop, acc.2)
      else (acc.1, acc.2 ++ [(mc, r)])
    else acc
  | _, _ => acc

theorem State.pairTest_eq : s.pairTest = ((List.range 16).foldl State.pairStep (s, [])).1 := rfl

theorem State.pairStep_decides (acc : State × List (Mech × CommitRec)) (m : Nat) : (State.pairStep acc m).1.decides acc.1 := by
  unfold State.pairStep
  dsimp only
  split
  · split
    · split
      · exact ((acc.1.setMr m _).inc_keeps Reg.selPairDrop 1).decides.trans (acc.1.setMr_decides m _)
      · exact acc.1.decides_refl
    · exact acc.1.decides_refl
  · exact acc.1.decides_refl

theorem State.pairTest_decides : s.pairTest.decides s := by
  have hfold (l : List Nat) (acc : State × List (Mech × CommitRec)) : (l.foldl State.pairStep acc).1.decides acc.1 := by
    induction l generalizing acc with
    | nil => exact acc.1.decides_refl
    | cons m r ih => exact (ih _).trans (State.pairStep_decides acc m)
  rw [State.pairTest_eq]
  exact hfold _ _

theorem State.issueConfirm_keeps (c : Confirm) : (s.issueConfirm c).keeps s [.sched, .regs] := by
  unfold State.issueConfirm
  extract_lets q three d ks
  exact State.keeps_ite (s.keeps_refl _) ((State.pushTry_keeps _ _ _).after (s.inc_keeps _ _).widen)

theorem State.issueConfirms_keeps : s.issueConfirms.keeps s [.sched, .regs] := State.keeps_foldl (fun v c => v.issueConfirm_keeps c) (s.keeps_refl _) _

theorem State.enterWrite_decides (m : Nat) : (s.enterWrite m).decides s := by
  unfold State.enterWrite
  extract_lets x w
  split
  · exact s.decides_refl
  · split
    · exact s.decides_refl
    · split
      · split
        · exact (State.present_decides _ _ _).trans (s.setMr_decides _ _)
        · exact s.decides_refl
      · have hw : w.decides s := s.setMr_decides _ _
        split
        · exact (State.present_decides _ _ _).trans hw
        · exact hw

/-- The decisions complete, and group 1 in progress. -/
def State.decided (s : State) : State :=
  let v := ((List.range 16).foldl State.barHeld s).pairTest.issueConfirms
  { v with round := { v.round with group := 1 } }

theorem State.beginWrites_eq : s.beginWrites = (List.range 16).foldl State.enterWrite s.decided := rfl

theorem State.decided_decides : s.decided.decides s := by
  have hv : ((List.range 16).foldl State.barHeld s).pairTest.issueConfirms.decides s :=
    (State.issueConfirms_keeps _).decides.trans <| (State.pairTest_decides _).trans <| State.decides_foldl _ (fun v m => v.barHeld_decides m) s.decides_refl
  unfold State.decided
  generalize ((List.range 16).foldl State.barHeld s).pairTest.issueConfirms = v at hv
  exact State.decides.trans ⟨(v.setRound_keeps _).widen, rfl⟩ hv

theorem State.beginWrites_decides : s.beginWrites.decides s := by
  rw [State.beginWrites_eq]
  exact State.decides_foldl _ (fun v m => v.enterWrite_decides m) s.decided_decides

theorem State.decide?_decides : s.decide?.decides s := State.decides_ite s.beginWrites_decides s.decides_refl

/-! ### Picks -/

theorem State.tryFails_decides (m d : Nat) : (s.tryFails m d).decides s :=
  ((State.tdc_keeps _ _ _ _).after (m := [.regs, .ints, .tdcSeen, .mem, .fresh, .errs, .traceQ]) <| (State.log_keeps _ _).after <|
    (State.trace_keeps _ _ _ _ _ _).after (s.inc_keeps _ _).widen).decides

theorem State.pick_decides (n m : Nat) (l : List SelEntry) : (State.pick n m l s).decides s := by
  induction l generalizing s with
  | nil => exact s.carry_decides _ _
  | cons e r ih =>
    unfold State.pick
    extract_lets x v w z y q
    have hv : v.decides s := s.setMr_decides _ _
    have hw : w.decides s := State.decides_ite hv ((State.inc_keeps _ _ _).decides.trans hv)
    have hy : y.decides s := (State.setMr_decides _ _ _).trans hw
    refine State.decides_ite ((ih _).trans ((State.tdc_keeps _ _ _ _).decides.trans hv)) (State.decides_ite ((State.carry_decides _ _ _).trans hv) ?_)
    split
    · exact (State.pushTry_keeps _ _ _).decides.trans ((State.pushTry_keeps _ _ _).decides.trans hy)
    · exact (ih _).trans ((State.tryFails_decides _ _ _).trans hy)

theorem State.pickNext_decides (m : Nat) : (s.pickNext m).decides s := s.pick_decides _ _ _

/-! ### The round starts -/

theorem State.sealLists_decides (e : Nat × Nat) : (s.sealLists e).decides s := by
  unfold State.sealLists
  extract_lets ms late v w
  have hv : v.decides s := State.decides_foldl _ (fun v m => (v.store_keeps _ _).decides) s.decides_refl
  have hw : w.decides s := State.decides_ite hv ((State.tdc_keeps _ _ _ _).decides.trans ((State.inc_keeps _ _ _).decides.trans hv))
  exact State.decides_foldl _ (fun v m => State.decides_foldl _ (fun v x => (v.traceVerdict_keeps _ _ _ _).decides) v.decides_refl) hw

theorem State.enterRound_decides (m : Nat) : (s.enterRound m).decides s := by
  unfold State.enterRound
  split
  · exact s.setMr_decides _ _
  · split
    · exact s.setMr_decides _ _
    · extract_lets v
      have hv : v.decides s := s.setMr_decides _ _
      exact State.decides_ite ((State.carry_decides _ _ _).trans hv) <| State.decides_ite ((State.carry_decides _ _ _).trans hv) <|
        State.decides_ite ((State.carry_decides _ _ _).trans hv) ((State.setMr_decides _ _ _).trans hv)

/-- The partitions with a frame whose check window closes at an instant, each with it. -/
def State.closing (s : State) (c : Nat) : List (Nat × Nat) := s.mechParts.filterMap fun p => (s.frameClosing p c).map fun n => (p, n)

/-- b_N of the round that starts. -/
def State.roundB (s : State) (frame c : Nat) : Nat :=
  match s.closing c with
  | (p, n) :: _ => s.bOf p n
  | [] => s.bOf (s.master.getD 0) frame

/-- The round of master frame N begun. -/
def State.begun (s : State) (r : Round) (frame c : Nat) : Round :=
  { r with busy := true, frame, late := false, noEpoch := s.fld.closed || !s.fld.valid, group := 0, b := s.roundB frame c, abandoned := false,
           next := frame + 1, parts := s.closing c }

/-- The round of master frame N begun, its lists sealed and its mechanisms entered. -/
def State.roundEntered (s : State) (frame c : Nat) : State :=
  (List.range 16).foldl State.enterRound ((s.closing c).foldl State.sealLists { s with round := s.begun s.round frame c })

/-- The first picks of a round. -/
def State.firstPicks (s : State) : State := ((List.range 16).foldl (fun s m => if (s.mr m).st = CSt.pick then s.pickNext m else s) s).decide?

theorem State.startRound_eq (frame c t : Nat) : s.startRound frame c t = ((s.roundEntered frame c).wdServe 6 frame t).firstPicks := rfl

theorem State.roundEntered_after (frame c : Nat) : (s.roundEntered frame c).keeps s roundPieces
    ∧ (s.roundEntered frame c).round.head = s.begun s.round.head frame c := by
  have hv : ({ s with round := s.begun s.round frame c } : State).keeps s roundPieces := (s.setRound_keeps _).widen
  have hd : (s.roundEntered frame c).decides { s with round := s.begun s.round frame c } :=
    State.decides_foldl _ (fun v m => v.enterRound_decides m) (State.decides_foldl _ (fun v e => v.sealLists_decides e) (State.decides_refl _))
  exact ⟨State.keeps_trans hd.keeps hv, hd.round⟩

theorem State.firstPicks_decides : s.firstPicks.decides s :=
  (State.decide?_decides _).trans (State.decides_foldl _ (fun v m => State.decides_ite (v.pickNext_decides m) v.decides_refl) s.decides_refl)

/-! ### SELECT_END -/

section

variable {s} {u v : State} {p late t : Nat}

/-- A partition's frame whose selection has ended. -/
def State.selCounted (s : State) (p t : Nat) : State := (s.at t).counted p { s.prun p with nSel := (s.prun p).nSel + 1 } 28

/-- The round that the partition's SELECT_END starts, if any (R188). -/
def State.selTurned (s : State) (p c t : Nat) : State :=
  match s.master with
  | none => s
  | some q =>
    match s.frameClosing q c with
    | some f => if (s.mechParts.contains p || p == q) && s.round.next ≤ f && !s.round.busy then s.startRound f c t else s
    | none => s

theorem exec_selectEnd (htail : s.runsTail p (s.prun p).nSel = true) (hopen : (s.prun p).nSel < (s.prun p).opened)
    (ht : s.phaseAt p (s.prun p).nSel (s.pcfg p).frame.selectEnd + late = t) :
    exec (.selectEnd p late) s = .next ((s.selCounted p t).selTurned p ((s.selCounted p t).closeOf p (s.prun p).nSel) t).finish := by
  change execSelectEnd p late s = _
  unfold execSelectEnd
  dsimp only
  rw [htail, decide_eq_true hopen, if_pos (by decide), ht, State.at_prun]
  rfl

theorem State.selTurned_idle {c : Nat} (h : s.master = none ∨ s.round.busy = true) : s.selTurned p c t = s := by
  unfold State.selTurned
  split
  · rfl
  next q hm =>
    have hbusy := h.resolve_left (by rw [hm]; simp)
    split
    · rw [hbusy, if_neg (by simp)]
    · rfl

theorem State.selTurned_start {q f c : Nat} (hm : s.master = some q) (hf : s.frameClosing q c = some f) (hp : p = q ∨ p ∈ s.mechParts)
    (hnext : s.round.next ≤ f) (hidle : s.round.busy = false) : s.selTurned p c t = s.startRound f c t := by
  unfold State.selTurned
  rw [hm]
  dsimp only
  rw [hf]
  dsimp only
  rw [if_pos]
  rw [hidle, decide_eq_true hnext]
  rcases hp with rfl | hp
  · simp
  · simp [hp]

theorem State.selCounted_keeps (s : State) (p t : Nat) : (s.selCounted p t).keeps (s.at t) (.parts :: relPieces) := State.counted_keeps _ _ _ _

theorem State.selCounted_ticksAs (s : State) (p t : Nat) : (s.selCounted p t).ticksAs s :=
  (State.counted_ticksAs 28 (by rw [State.at_prun]; rfl)).trans (s.at_ticksAs t)

theorem selectEnd_idle (p late : Nat) (s : State) (hcalm : s.calm) (htail : s.runsTail p (s.prun p).nSel = true)
    (hopen : (s.prun p).nSel < (s.prun p).opened) (hidle : s.master = none ∨ s.round.busy = true) :
    let t := s.phaseAt p (s.prun p).nSel (s.pcfg p).frame.selectEnd + late
    ∃ u, exec (.selectEnd p late) s = .next u ∧ u.prun p = { s.prun p with nSel := (s.prun p).nSel + 1 }
      ∧ u.time = (s.at t).time ∧ u.keeps (s.at t) ([.parts] ++ relPieces) := by
  intro t
  have hround : (s.selCounted p t).round = s.round := (s.selCounted_keeps p t .round (by decide)).trans (s.at_round t)
  have hexec := exec_selectEnd (t := t) htail hopen rfl
  rw [State.selTurned_idle (hidle.imp (fun h => (s.selCounted_ticksAs p t).master.trans h) fun h => by rw [hround]; exact h)] at hexec
  obtain ⟨hp, htime, -, hk⟩ := State.counted_finish (x := { s.prun p with nSel := (s.prun p).nSel + 1 }) 28 (t := t) hcalm (State.lt_parts_of_runsTail htail)
  exact ⟨_, hexec, hp, htime, hk⟩

namespace State.ticksAs

theorem closeOf (h : u.ticksAs s) (p n : Nat) : u.closeOf p n = s.closeOf p n := by rw [State.closeOf, h.phaseAt, h.pcfg, State.closeOf]

theorem frameClosing (h : u.ticksAs s) (p c : Nat) : u.frameClosing p c = s.frameClosing p c := by
  have htail : u.runsTail p = s.runsTail p := funext (h.runsTail p)
  rw [State.frameClosing, State.frameAtClose, h.running, h.closeOf, State.period, h.pcfg, htail, ← State.period, ← State.frameAtClose, State.frameClosing]

theorem mechParts (h : u.ticksAs s) : u.mechParts = s.mechParts := by
  have hrun : u.running = s.running := funext h.running
  rw [State.mechParts, h.cfg, hrun, State.mechParts]

theorem closing (h : u.ticksAs s) (c : Nat) : u.closing c = s.closing c := by
  simp only [State.closing, h.mechParts, h.frameClosing]

end State.ticksAs

theorem selectEnd_starts (p q f late : Nat) (s : State) (hcalm : s.calm) (htail : s.runsTail p (s.prun p).nSel = true)
    (hopen : (s.prun p).nSel < (s.prun p).opened) (hm : s.master = some q) (hclose : s.frameClosing q (s.closeOf p (s.prun p).nSel) = some f)
    (hp : p = q ∨ p ∈ s.mechParts) (hnext : s.round.next ≤ f) (hidle : s.round.busy = false) :
    let t := s.phaseAt p (s.prun p).nSel (s.pcfg p).frame.selectEnd + late
    s.wdDue 6 f t →
    ∃ u, exec (.selectEnd p late) s = .next u ∧ (u.prun p).nSel = (s.prun p).nSel + 1 ∧ u.round.busy = true ∧ u.round.frame = f
      ∧ u.round.next = f + 1 ∧ u.round.late = false ∧ u.round.abandoned = false
      ∧ u.round.noEpoch = (s.fld.closed || !s.fld.valid)
      ∧ u.round.parts = s.mechParts.filterMap fun x => (s.frameClosing x (s.closeOf p (s.prun p).nSel)).map fun n => (x, n) := by
  intro t hdue
  have htick := s.selCounted_ticksAs p t
  have hv := s.selCounted_keeps p t
  have hprun : (s.selCounted p t).prun p = { s.prun p with nSel := (s.prun p).nSel + 1 } :=
    (s.at t).counted_prun_same _ 28 (by rw [State.at_parts]; exact State.lt_parts_of_runsTail htail)
  have hround : (s.selCounted p t).round = s.round := (hv .round (by decide)).trans (s.at_round t)
  have hfld : (s.selCounted p t).fld = s.fld := (hv .fld (by decide)).trans (s.at_fld t)
  have hexec := exec_selectEnd (t := t) htail hopen rfl
  generalize s.selCounted p t = v at htick hv hprun hround hfld hexec
  rw [htick.closeOf, State.selTurned_start (htick.master.trans hm) ((htick.frameClosing _ _).trans hclose) (by rw [htick.mechParts]; exact hp)
    (by rw [hround]; exact hnext) (by rw [hround]; exact hidle), State.startRound_eq] at hexec
  obtain ⟨hentered, hhead⟩ := v.roundEntered_after f (s.closeOf p (s.prun p).nSel)
  have hserve := State.wdServe_keeps ((hentered.ticksAs.trans htick).wdDue hdue)
  generalize v.roundEntered f (s.closeOf p (s.prun p).nSel) = r at hexec hentered hhead hserve
  have hpicks := (r.wdServe 6 f t).firstPicks_decides
  have hk : (r.wdServe 6 f t).firstPicks.keeps (s.at t) (.parts :: .warden :: roundPieces) :=
    hpicks.keeps.after (hserve.after (hentered.after (hv.widen (m := .parts :: .warden :: roundPieces))))
  have hf := hk.calm (s.at_calm t hcalm)
  have huround : (r.wdServe 6 f t).firstPicks.finish.round.head = v.begun v.round.head f (s.closeOf p (s.prun p).nSel) := by
    rw [State.finish_round _ hf, hpicks.round, hserve .round (by decide), hhead]
  obtain ⟨hbusy, hframe, hlate, hno, habandoned, hnext, hparts⟩ := Round.fields_of_head (y := v.begun v.round.head f (s.closeOf p (s.prun p).nSel)) huround
  refine ⟨_, hexec, ?_, hbusy, hframe, hnext, hlate, habandoned, ?_, ?_⟩
  · rw [State.finish_prun hf, hpicks.keeps.prun, hserve.prun, hentered.prun, hprun]
  · rw [hno, ← hfld]
    rfl
  · rw [hparts, ← State.closing, ← htick.closing]
    rfl

end

end Sys2Proof.Machine
end

section
/-! SUPPORT. A round that is late (07_selection_and_commit.md R194). -/

namespace Sys2Proof.Machine

set_option Elab.async false

variable (s : State)

/-! ### Mechanisms with nothing left to decide -/

/-- Mechanism m is neither picking nor checking nor pairing. -/
def State.settled (s : State) (m : Nat) : Prop := (s.mr m).st ≠ .pick ∧ (s.mr m).st ≠ .check ∧ (s.mr m).st ≠ .pair

variable {s} {u v : State}

theorem State.keeps.mr {l : List Piece} (h : u.keeps s l) (m : Nat) (hl : .round ∉ l := by decide) : u.mr m = s.mr m := by
  rw [State.mr, h .round hl, State.mr]

theorem State.setMr_mr_of_ne {m k : Nat} (x : MRound) (h : k ≠ m) : (s.setMr m x).mr k = s.mr k := getD_listSet_of_ne _ _ _ h

theorem State.setMr_settled {m k : Nat} {x : MRound} (hx : k = m → x.st ≠ .pick ∧ x.st ≠ .check ∧ x.st ≠ .pair) (h : k = m ∨ s.settled k) :
    (s.setMr m x).settled k := by
  by_cases hk : k = m
  · subst hk
    rw [State.settled, State.mr]
    by_cases hlen : k < s.round.mechs.length
    · rw [State.setMr, getD_listSet_same _ _ hlen]
      exact hx rfl
    · rw [List.getD_eq_default _ _ (by rw [State.setMr, length_listSet]; omega)]
      exact ⟨by decide, by decide, by decide⟩
  · rw [State.settled, State.setMr_mr_of_ne _ hk]
    exact h.resolve_left hk

theorem State.keeps.settled {l : List Piece} {m : Nat} (h : u.keeps s l) (hs : s.settled m) (hl : .round ∉ l := by decide) : u.settled m := by
  rw [State.settled, h.mr m hl]
  exact hs

/-- A mechanism that still picks, checks or pairs is carried (R194). -/
def State.abandon (s : State) (m : Nat) : State :=
  match (s.mr m).st with
  | .pick => s.carry m 1
  | .check => s.carry m 1
  | .pair => s.carry m 1
  | _ => s

theorem State.carry_settled {m outcome k : Nat} (h : k = m ∨ s.settled k) : (s.carry m outcome).settled k :=
  State.setMr_settled (fun _ => ⟨by simp, by simp, by simp⟩) h

theorem State.abandon_settled {m k : Nat} (h : k = m ∨ s.settled k) : (s.abandon m).settled k := by
  unfold State.abandon
  split
  · exact State.carry_settled h
  · exact State.carry_settled h
  · exact State.carry_settled h
  next hpick hcheck hpair =>
    rcases h with rfl | h
    · exact ⟨hpick, hcheck, hpair⟩
    · exact h

theorem State.abandon_decides (s : State) (m : Nat) : (s.abandon m).decides s := by
  unfold State.abandon
  split
  · exact s.carry_decides _ _
  · exact s.carry_decides _ _
  · exact s.carry_decides _ _
  · exact s.decides_refl

theorem State.foldl_abandon_settled (l : List Nat) {k : Nat} (h : k ∈ l ∨ s.settled k) : (l.foldl State.abandon s).settled k := by
  induction l generalizing s with
  | nil => exact h.resolve_left List.not_mem_nil
  | cons m r ih =>
    refine ih ?_
    rcases h with h | h
    · rcases List.mem_cons.mp h with h | h
      · exact .inr (State.abandon_settled (.inl h))
      · exact .inl h
    · exact .inr (State.abandon_settled (.inr h))

/-! ### The writes of a round with nothing left to decide -/

theorem State.barHeld_of_settled {m : Nat} (h : s.settled m) : s.barHeld m = s := if_neg fun hc => h.2.2 hc.1

theorem State.foldl_barHeld_of_settled (l : List Nat) (h : ∀ m ∈ l, s.settled m) : l.foldl State.barHeld s = s := by
  induction l with
  | nil => rfl
  | cons m r ih =>
    rw [List.foldl_cons, State.barHeld_of_settled (h m List.mem_cons_self), ih fun k hk => h k (List.mem_cons_of_mem _ hk)]

theorem State.pairStep_of_settled {m : Nat} {l : List (Mech × CommitRec)} (h : s.settled m) : State.pairStep (s, l) m = (s, l) := by
  unfold State.pairStep
  dsimp only
  split
  · rw [if_neg h.2.2]
  · rfl

theorem State.pairTest_of_settled (h : ∀ m < 16, s.settled m) : s.pairTest = s := by
  have hfold (l : List Nat) (hl : ∀ m ∈ l, s.settled m) : l.foldl State.pairStep (s, []) = (s, []) := by
    induction l with
    | nil => rfl
    | cons m r ih =>
      rw [List.foldl_cons, State.pairStep_of_settled (hl m List.mem_cons_self), ih fun k hk => hl k (List.mem_cons_of_mem _ hk)]
  rw [State.pairTest_eq, hfold _ fun m hm => h m (List.mem_range.mp hm)]

theorem State.decided_of_settled (h : ∀ m < 16, s.settled m) :
    s.decided = { s.issueConfirms with round := { s.issueConfirms.round with group := 1 } } := by
  unfold State.decided
  rw [State.foldl_barHeld_of_settled _ fun m hm => h m (List.mem_range.mp hm), State.pairTest_of_settled h]

theorem State.enterWrite_settled {m k : Nat} (h : s.settled k) : (s.enterWrite m).settled k := by
  have hpresent {w : State} (r : CommitRec) (hw : w.settled k) : (w.present m r).settled k := by
    exact (State.store_keeps _ _ _).settled (State.setMr_settled (fun hk => by subst hk; exact hw) (.inr hw))
  have hset (x : MRound) (hx : x.st = .write) : (s.setMr m x).settled k :=
    State.setMr_settled (fun _ => by rw [hx]; exact ⟨by decide, by decide, by decide⟩) (.inr h)
  unfold State.enterWrite
  extract_lets x w
  split
  · exact h
  · split
    · exact h
    · split
      · split
        · exact hpresent _ (hset _ rfl)
        · exact h
      · have hw : w.settled k := hset _ rfl
        split
        · exact hpresent _ hw
        · exact hw

/-! ### Registers and frame of the writes that begin -/

/-- The pieces that the start of the writes may change. -/
def writePieces : List Piece := [.round, .regs, .sched, .ints, .tdcSeen, .mem]

theorem State.present_keeps (s : State) (m : Nat) (r : CommitRec) : (s.present m r).keeps s writePieces :=
  (State.store_keeps _ _ _).after (m := writePieces) (s.setMr_keeps m _).widen

theorem State.present_selLate (s : State) (m : Nat) (r : CommitRec) : (s.present m r).rd Reg.selLate = s.rd Reg.selLate :=
  State.store_spares _ _ _ _ (by decide)

theorem State.enterWrite_after (s : State) (m : Nat) : (s.enterWrite m).keeps s writePieces ∧ (s.enterWrite m).rd Reg.selLate = s.rd Reg.selLate
    ∧ (s.enterWrite m).round.group = s.round.group := by
  have hset (x : MRound) : (s.setMr m x).keeps s writePieces := (s.setMr_keeps m x).widen
  have hpresent (w : State) (r : CommitRec) : (w.present m r).round.group = w.round.group := by
    rw [State.present, (State.store_keeps _ _ _) .round (by decide), State.setMr]
  unfold State.enterWrite
  extract_lets x w
  split
  · exact ⟨s.keeps_refl _, rfl, rfl⟩
  · split
    · exact ⟨s.keeps_refl _, rfl, rfl⟩
    · split
      · split
        · exact ⟨(State.present_keeps _ _ _).after (hset _), State.present_selLate _ _ _, hpresent _ _⟩
        · exact ⟨s.keeps_refl _, rfl, rfl⟩
      · split
        · exact ⟨(State.present_keeps _ _ _).after (hset _), State.present_selLate _ _ _, hpresent _ _⟩
        · exact ⟨hset _, rfl, rfl⟩

theorem State.foldl_enterWrite_after (s : State) (l : List Nat) : (l.foldl State.enterWrite s).keeps s writePieces
    ∧ (l.foldl State.enterWrite s).rd Reg.selLate = s.rd Reg.selLate ∧ (l.foldl State.enterWrite s).round.group = s.round.group := by
  induction l generalizing s with
  | nil => exact ⟨s.keeps_refl _, rfl, rfl⟩
  | cons m r ih =>
    obtain ⟨hk, hrd, hg⟩ := s.enterWrite_after m
    obtain ⟨hk', hrd', hg'⟩ := ih (s.enterWrite m)
    exact ⟨State.keeps_trans hk' hk, hrd'.trans hrd, hg'.trans hg⟩

theorem State.foldl_enterWrite_settled (l : List Nat) {k : Nat} (h : s.settled k) : (l.foldl State.enterWrite s).settled k := by
  induction l generalizing s with
  | nil => exact h
  | cons m r ih => exact ih (State.enterWrite_settled h)

theorem State.issueConfirms_selLate (s : State) : s.issueConfirms.rd Reg.selLate = s.rd Reg.selLate := by
  have hone (v : State) (c : Confirm) : (v.issueConfirm c).rd Reg.selLate = v.rd Reg.selLate := by
    unfold State.issueConfirm
    extract_lets q three d ks
    split
    · rfl
    · rw [State.pushTry, State.setSch_rd]
      exact v.rd_inc_ne _ _ _ (by decide)
  unfold State.issueConfirms
  generalize List.filter _ _ = l
  induction l generalizing s with
  | nil => rfl
  | cons c r ih => rw [List.foldl_cons, ih, hone]

/-- The writes of a round with nothing left to decide. -/
theorem State.beginWrites_of_settled (s : State) (h : ∀ m < 16, s.settled m) :
    s.beginWrites.keeps s writePieces ∧ s.beginWrites.rd Reg.selLate = s.rd Reg.selLate ∧ s.beginWrites.round.group = 1
      ∧ ∀ m < 16, s.beginWrites.settled m := by
  have hconfirm := s.issueConfirms_keeps
  have hdec : s.decided.keeps s writePieces ∧ s.decided.rd Reg.selLate = s.rd Reg.selLate ∧ s.decided.round.group = 1 ∧ ∀ m < 16, s.decided.settled m := by
    rw [State.decided_of_settled h]
    refine ⟨(State.setRound_keeps _ _).after (hconfirm.widen (m := writePieces)), s.issueConfirms_selLate, rfl, fun m hm => ?_⟩
    exact hconfirm.settled (h m hm)
  rw [State.beginWrites_eq]
  generalize s.decided = v at hdec
  obtain ⟨hk, hrd, hg, hset⟩ := hdec
  obtain ⟨hk', hrd', hg'⟩ := v.foldl_enterWrite_after (List.range 16)
  exact ⟨State.keeps_trans hk' hk, hrd'.trans hrd, hg'.trans hg, fun m hm => State.foldl_enterWrite_settled _ (hset m hm)⟩

/-! ### ROUND_LATE -/

/-- The round late, its frames charged. -/
def State.lateCharged (s : State) : State := s.round.parts.foldl (fun s e => s.tdc e.1 e.2 4) (s.inc Reg.selLate)

/-- The decisions abandoned. -/
def State.lateMarked (s : State) : State :=
  { s with round := { s.round with late := true, abandoned := true }, sched := s.sched.map SchedDie.dropTries }

theorem State.lateMarked_keeps (s : State) : s.lateMarked.keeps s [.round, .sched] := (State.keeps_iff _ _ _).mpr (by simp [State.lateMarked])

theorem exec_roundLate {s : State} (hbusy : s.round.busy = true) (hgroup : s.round.group = 0) : exec .roundLate s =
    .next ((List.range 16).foldl State.abandon ((s.at (s.roundEnd - 12000)).lateCharged.lateMarked)).beginWrites.finish := by
  change execRoundLate s = _
  unfold execRoundLate
  rw [if_pos ⟨hbusy, hgroup⟩]
  rfl

theorem roundLate_abandoned (s : State) (hcalm : s.calm) (hbusy : s.round.busy = true) (hgroup : s.round.group = 0) :
    ∃ u, exec .roundLate s = .next u ∧ u.round.late = true ∧ u.round.abandoned = true ∧ u.round.busy = true ∧ u.round.group = 1
      ∧ (∀ m < 16, (u.mr m).st ≠ .pick ∧ (u.mr m).st ≠ .check ∧ (u.mr m).st ≠ .pair)
      ∧ u.rd Reg.selLate = satAdd ((s.at (s.roundEnd - 12000)).rd Reg.selLate) 1
      ∧ u.keeps (s.at (s.roundEnd - 12000)) [.round, .regs, .sched, .ints, .tdcSeen, .mem] := by
  have hexec := exec_roundLate hbusy hgroup
  generalize s.roundEnd - 12000 = t at hexec
  have hcharge : (s.at t).lateCharged.keeps (s.at t) [.regs, .ints, .tdcSeen] :=
    State.keeps_foldl (fun v e => v.tdc_keeps _ _ _) ((s.at t).inc_keeps _ _).widen _
  have hlate : (s.at t).lateCharged.rd Reg.selLate = satAdd ((s.at t).rd Reg.selLate) 1 := by
    rw [← State.rd_inc_same]
    exact State.spares_foldl (fun v e => v.tdc_spares _ _ (by decide)) (State.spares_refl _) _ _ (by decide)
  have hmark : (s.at t).lateCharged.lateMarked.keeps (s.at t) writePieces :=
    (State.lateMarked_keeps _).after (m := writePieces) hcharge.widen
  have hhead : (s.at t).lateCharged.lateMarked.round.head = { s.round.head with late := true, abandoned := true } := by
    have hround : (s.at t).lateCharged.round = s.round := (hcharge .round (by decide)).trans (s.at_round t)
    rw [← hround]
    rfl
  have hrd : (s.at t).lateCharged.lateMarked.rd Reg.selLate = satAdd ((s.at t).rd Reg.selLate) 1 := hlate
  generalize (s.at t).lateCharged.lateMarked = v at hexec hmark hhead hrd
  have hset : ∀ m < 16, ((List.range 16).foldl State.abandon v).settled m := fun m hm => State.foldl_abandon_settled _ (.inl (List.mem_range.mpr hm))
  have habandon : ((List.range 16).foldl State.abandon v).keeps v [.round] ∧ ((List.range 16).foldl State.abandon v).roundAs v := by
    refine ⟨State.keeps_foldl (fun v m => ?_) (v.keeps_refl _) _, (State.decides_foldl _ (fun v m => v.abandon_decides m) v.decides_refl).round⟩
    unfold State.abandon
    split
    · exact v.setMr_keeps _ _
    · exact v.setMr_keeps _ _
    · exact v.setMr_keeps _ _
    · exact v.keeps_refl _
  generalize (List.range 16).foldl State.abandon v = w at hexec hset habandon
  obtain ⟨hwk, hwround⟩ := habandon
  obtain ⟨hk, hrd', hg, hset'⟩ := w.beginWrites_of_settled hset
  have hbegin := w.beginWrites_decides.round
  have hall : w.beginWrites.keeps (s.at t) writePieces := hk.after (hwk.after hmark)
  have hf := hall.calm (s.at_calm t hcalm)
  obtain ⟨hb, -, hl, -, ha, -, -⟩ := Round.fields_of_head (y := { s.round.head with late := true, abandoned := true }) (hbegin.trans (hwround.trans hhead))
  refine ⟨_, hexec, ?_, ?_, ?_, ?_, fun m hm => ?_, ?_, hall.finish (s.at_calm t hcalm)⟩
  · rw [State.finish_round _ hf, hl]
  · rw [State.finish_round _ hf, ha]
  · rw [State.finish_round _ hf, hb]
    exact hbusy
  · rw [State.finish_round _ hf, hg]
  · rw [State.mr, State.finish_round _ hf]
    exact hset' m hm
  · rw [State.finish_rd _ hf, hrd', (hwk .regs (by decide)) _ (by simp), hrd]

end Sys2Proof.Machine
end

section
/-! SUPPORT. The end of a commit (07_selection_and_commit.md R103, 10_task_scheduling.md R245, 02_blend.md R65). -/

namespace Sys2Proof.Machine

set_option Elab.async false

variable (s : State)

/-! ### What COMMIT_END of a round writes -/

/-- A partition's run but for its commit digest. -/
def PRun.plain (x : PRun) : PRun := { x with crc := 0#32 }

theorem PRun.fields_of_plain {x y : PRun} (h : x.plain = y.plain) : x.nEnd = y.nEnd ∧ x.commit = y.commit ∧ x.lastFrame = y.lastFrame := by
  have hh : (x.plain.nEnd, x.plain.commit, x.plain.lastFrame) = (y.plain.nEnd, y.plain.commit, y.plain.lastFrame) := by rw [h]
  simpa [PRun.plain] using hh

/-- The pieces that COMMIT_END of a round that fails may change. -/
def endPieces : List Piece := [.parts, .warden, .round, .cores, .regs, .ints, .sched, .traceQ, .errs, .fresh, .mem, .tdcSeen]

/-- Two states differ as the end of a round makes them differ: of a partition's run the digest alone. -/
structure State.ends (u s : State) : Prop where
  keeps : u.keeps s endPieces
  runs : ∀ q, (u.prun q).plain = (s.prun q).plain

variable {s} {u v : State}

theorem State.ends_refl (s : State) : s.ends s := ⟨s.keeps_refl _, fun _ => rfl⟩

theorem State.ends.trans (h : u.ends v) (k : v.ends s) : u.ends s := ⟨State.keeps_trans h.keeps k.keeps, fun q => (h.runs q).trans (k.runs q)⟩

theorem State.ends_ite {c : Prop} [Decidable c] {a b : State} (ha : a.ends s) (hb : b.ends s) : (if c then a else b).ends s := by
  split
  · exact ha
  · exact hb

theorem State.ends_foldl {α : Type} {f : State → α → State} (l : List α) (hf : ∀ v x, (f v x).ends v) (h : u.ends s) : (l.foldl f u).ends s := by
  induction l generalizing u with
  | nil => exact h
  | cons x r ih => exact ih ((hf u x).trans h)

theorem State.keeps.ends {l : List Piece} (h : u.keeps s l) (hl : .parts ∉ l ∧ ∀ c ∈ l, c ∈ endPieces := by decide) : u.ends s :=
  ⟨State.keeps_mono h hl.2, fun q => by rw [h.prun q hl.1]⟩

variable (s)

theorem State.setPRun_ends {p : Nat} {x : PRun} (h : x.plain = (s.prun p).plain) : (s.setPRun p x).ends s := by
  refine ⟨(s.setPRun_keeps p x).widen, fun q => ?_⟩
  by_cases hq : q = p
  · subst hq
    by_cases hlen : q < s.parts.length
    · rw [s.setPRun_prun_same _ hlen, h]
    · rw [State.prun, s.setPRun_parts_of_length_le _ (by omega), State.prun]
  · rw [s.setPRun_prun_of_ne _ hq]

theorem State.endMech_ends (m : Nat) : (s.endMech m).ends s := by
  unfold State.endMech
  extract_lets x src v won w
  refine State.ends_ite (State.ends_ite ((State.inc_keeps _ _ _).ends.trans (s.setMr_keeps _ _).ends) s.ends_refl) ?_
  have hv : v.ends s := by
    unfold v
    split
    · exact State.ends_ite (s.setPRun_ends rfl) s.ends_refl
    · exact s.ends_refl
  have hw : w.ends s := (v.setMr_keeps _ _).ends.trans hv
  exact State.ends_ite ((State.add64_keeps _ _ _).ends.trans hw) ((State.raiseP_keeps _ _ _).ends.trans ((State.inc_keeps _ _ _).ends.trans hw))

theorem State.writeStates_keeps (q : PartCfg) (m : Mech) (n : Nat) : (s.writeStates q m n).keeps s (.cores :: relPieces) := by
  unfold State.writeStates
  dsimp only
  split
  · refine State.keeps_foldl (fun v _ => v.writeStart_keeps _ _ _ _ _ _ _ _) ?_ _
    exact State.keeps_ite (s.inc_keeps _ _).widen (s.keeps_refl _)
  · exact s.keeps_refl _

theorem State.writeGroup3_keeps : s.writeGroup3.keeps s (.cores :: relPieces) :=
  State.keeps_foldl (fun v e => (v.bindLast_keeps _ _).widen) (State.keeps_foldl (fun v e => v.writeStates_keeps _ _ _) (s.keeps_refl _) _) _

/-- What COMMIT_END takes back of one mechanism's record. -/
def State.taken0 (s : State) (m : Nat) : State :=
  if (s.undoRec m).inRound m then
    (s.undoRec m).setMr m { (s.undoRec m).mr m with
      outcome := if ((s.undoRec m).mr m).outcome = 0 then 1 else ((s.undoRec m).mr m).outcome, acc := none }
  else s.undoRec m

/-- Every mechanism of the round ended without its record. -/
def State.mechsFailed (s : State) : State :=
  (List.range 16).foldl State.endMech
    ((List.range 16).foldl State.taken0 { s with sched := s.sched.map SchedDie.dropTries }).writeGroup3

/-- The round idle. -/
def State.roundIdle (s : State) : State := { s with round := { s.round with busy := false, group := 0 } }

/-- The round ended without effect. -/
def State.roundFailed (s : State) : State := s.mechsFailed.roundIdle

/-- The interrupts of the partitions of the round. -/
def State.roundTold (s : State) (ps : List (Nat × Nat)) : State := ps.foldl (fun s e => s.raiseP e.1 0) s

/-- The Saucers of the partitions of the round whose last frame it was. -/
def State.roundStops (s : State) (ps : List (Nat × Nat)) (t : Nat) : State :=
  ps.foldl (fun s e => if (s.prun e.1).lastFrame = some e.2 then s.commandStop e.1 t else s) s

theorem State.failRound_eq (t : Nat) : s.failRound t = (s.roundFailed.roundTold s.roundFailed.round.parts).roundStops s.roundFailed.round.parts t := by
  unfold State.failRound
  extract_lets s1 s2 s3 s4 ps s5 s6
  have h4 : s4 = s.mechsFailed := rfl
  clear_value s4
  rw [State.roundFailed]
  generalize s.mechsFailed = w at h4
  subst h4
  rfl

theorem State.taken0_ends (m : Nat) : (s.taken0 m).ends s := by
  have hundo : (s.undoRec m).ends s := State.ends_ite (State.setWm_keeps _ _ _).ends s.ends_refl
  exact State.ends_ite ((State.setMr_keeps _ _ _).ends.trans hundo) hundo

theorem State.roundFailed_ends : s.roundFailed.ends s := by
  have hv : s.mechsFailed.ends s := State.ends_foldl _ (fun v m => v.endMech_ends m) <| (State.writeGroup3_keeps _).ends.trans <|
    State.ends_foldl _ (fun v m => v.taken0_ends m) (s.setSched_keeps _).ends
  exact (s.mechsFailed.setRound_keeps _).ends.trans hv

theorem State.roundTold_keeps (ps : List (Nat × Nat)) : (s.roundTold ps).keeps s [.regs, .ints] :=
  State.keeps_foldl (fun v _ => v.raiseP_keeps _ _) (s.keeps_refl _) _

theorem State.roundStops_of_none (ps : List (Nat × Nat)) (t : Nat) (h : ∀ q, (s.prun q).lastFrame = none) : s.roundStops ps t = s := by
  unfold State.roundStops
  induction ps with
  | nil => rfl
  | cons e r ih => rw [List.foldl_cons, if_neg (by rw [h]; simp), ih]

/-! ### COMMIT_END -/

variable {s} {p : Nat}

/-- A partition's frame whose commit has ended. -/
def State.endCounted (s : State) (p t : Nat) : State := (s.at t).counted p { s.prun p with nEnd := (s.prun p).nEnd + 1 } 29

theorem exec_commitEnd {t : Nat} (htail : s.runsTail p (s.prun p).nEnd = true) (hopen : (s.prun p).nEnd < (s.prun p).opened)
    (ht : s.phaseAt p (s.prun p).nEnd (s.pcfg p).frame.commitEnd = t) : exec (.commitEnd p) s = .next (
      let v := s.endCounted p t
      let w := if v.round.busy ∧ v.round.parts.contains (p, (s.prun p).nEnd) then v.failRound t else v
      if (w.prun p).lastFrame = some (s.prun p).nEnd then w.commandStop p t else w).finish := by
  change execCommitEnd p s = _
  unfold execCommitEnd
  dsimp only
  rw [htail, decide_eq_true hopen, if_pos (by decide), ht, State.at_prun]
  rfl

theorem State.endCounted_after (t : Nat) (htail : s.runsTail p (s.prun p).nEnd = true) :
    (s.endCounted p t).keeps (s.at t) (.parts :: relPieces) ∧ (s.endCounted p t).round = s.round
      ∧ (s.endCounted p t).prun p = { s.prun p with nEnd := (s.prun p).nEnd + 1 } ∧ ∀ q, q ≠ p → (s.endCounted p t).prun q = s.prun q := by
  have hk := (s.at t).counted_keeps p { s.prun p with nEnd := (s.prun p).nEnd + 1 } 29
  refine ⟨hk, (hk .round (by decide)).trans (s.at_round t), ?_, fun q hq => ?_⟩
  · exact (s.at t).counted_prun_same _ 29 (by rw [State.at_parts]; exact State.lt_parts_of_runsTail htail)
  · exact (State.counted_prun_of_ne _ 29 hq).trans (by simp)

theorem commitEnd_fails (p : Nat) (s : State) (hcalm : s.calm) (htail : s.runsTail p (s.prun p).nEnd = true)
    (hopen : (s.prun p).nEnd < (s.prun p).opened) (hbusy : s.round.busy = true) (hpart : (p, (s.prun p).nEnd) ∈ s.round.parts)
    (hlast : ∀ q, (s.prun q).lastFrame = none) :
    ∃ u, exec (.commitEnd p) s = .next u ∧ (u.prun p).nEnd = (s.prun p).nEnd + 1 ∧ u.round.busy = false ∧ u.round.group = 0
      ∧ (∀ q, (u.prun q).commit = (s.prun q).commit)
      ∧ u.time = (s.at (s.phaseAt p (s.prun p).nEnd (s.pcfg p).frame.commitEnd)).time := by
  have hexec := exec_commitEnd htail hopen rfl
  generalize s.phaseAt p (s.prun p).nEnd (s.pcfg p).frame.commitEnd = t at hexec
  obtain ⟨hv, hround, hsame, hother⟩ := State.endCounted_after t htail
  dsimp only at hexec
  generalize s.endCounted p t = v at hexec hv hround hsame hother
  have hvlast (q : Nat) : (v.prun q).lastFrame = none := by
    by_cases hq : q = p
    · subst hq
      rw [hsame]
      exact hlast q
    · rw [hother q hq]
      exact hlast q
  have hvcommit (q : Nat) : (v.prun q).commit = (s.prun q).commit := by
    by_cases hq : q = p
    · subst hq
      rw [hsame]
    · rw [hother q hq]
  rw [if_pos (show v.round.busy = true ∧ v.round.parts.contains (p, (s.prun p).nEnd) = true by rw [hround]; exact ⟨hbusy, by simpa using hpart⟩),
    State.failRound_eq] at hexec
  have hfailed := v.roundFailed_ends
  have hidle : v.roundFailed.round.busy = false ∧ v.roundFailed.round.group = 0 := ⟨rfl, rfl⟩
  generalize v.roundFailed = w at hexec hfailed hidle
  have htold := w.roundTold_keeps w.round.parts
  generalize w.roundTold w.round.parts = x at hexec htold
  have hrun (q : Nat) := PRun.fields_of_plain (x := x.prun q) (y := v.prun q) (by rw [htold.prun]; exact hfailed.runs q)
  have hxlast (q : Nat) : (x.prun q).lastFrame = none := (hrun q).2.2.trans (hvlast q)
  rw [x.roundStops_of_none _ _ hxlast, if_neg (by rw [hxlast]; simp)] at hexec
  have hk : x.keeps (s.at t) endPieces := htold.after (hfailed.keeps.after (hv.widen (m := endPieces)))
  have hf := hk.calm (s.at_calm t hcalm)
  refine ⟨_, hexec, ?_, ?_, ?_, fun q => ?_, (State.finish_time _ hf).trans (hk .time (by decide))⟩
  · rw [State.finish_prun hf, (hrun p).1, hsame]
  · rw [State.finish_round _ hf, htold .round (by decide)]
    exact hidle.1
  · rw [State.finish_round _ hf, htold .round (by decide)]
    exact hidle.2
  · rw [State.finish_prun hf, (hrun q).2.1, hvcommit]

/-! ### The Saucers of a partition that stops -/

theorem State.stopped_nEnd (s : State) (p : Nat) : ((s.stopped p).prun p).nEnd = (s.prun p).nEnd := by
  have hint (v : State) (t : Nat) : ((v.newInterval 0 t).newInterval 1 t).prun p = v.prun p :=
    State.keeps.prun ((State.newInterval_keeps _ _ _).after (v.newInterval_keeps 0 t) : State.keeps _ v [.rots]) p
  have hrun : (((s.disarmed p).stopRun p).prun p).nEnd = (s.prun p).nEnd := by
    have hd := (s.disarmed_keeps p).prun p
    have hlen : (s.disarmed p).parts = s.parts := s.disarmed_keeps p .parts (by decide)
    by_cases h : p < s.parts.length
    · rw [State.stopRun, State.setPSt_prun_same _ _ (by rw [State.setPRun_parts_length, hlen]; exact h), State.setPRun_prun_same _ _ (by rw [hlen]; exact h), hd]
    · have hout : ((s.disarmed p).stopRun p).parts.length = s.parts.length := by
        rw [State.stopRun, State.setPSt_parts_length, State.setPRun_parts_length, hlen]
      rw [State.prun_of_length_le _ (by omega), State.prun_of_length_le _ (by omega)]
  rw [State.stopped_eq]
  split
  · rw [hint, hrun]
  · exact hrun

/-- The pieces that the commanded stop of a partition may change. -/
def stopPieces : List Piece := [.parts, .warden, .regs, .ints, .tdcSeen, .fresh, .errs, .mem, .sched, .rots]

/-- The commanded Saucers of a partition (R65). -/
theorem State.commandStop_after {s : State} {p : Nat} (t : Nat) (h : p < s.parts.length) :
    ((s.commandStop p t).prun p).nEnd = (s.prun p).nEnd
      ∧ (((s.commandStop p t).prun p).issued = true ∨ ((s.commandStop p t).prun p).st = .stopped)
      ∧ (s.commandStop p t).keeps s stopPieces := by
  unfold State.commandStop
  extract_lets x v ms w
  split
  next hi => exact ⟨rfl, .inl hi, s.keeps_refl _⟩
  have hv : v.prun p = { s.prun p with issued := true } := s.setPRun_prun_same _ h
  have hvk : v.keeps s stopPieces := (s.setPRun_keeps _ _).widen
  have htrig : w.keeps v trigPieces := State.keeps_ite (v.keeps_refl _) (v.trigger_trigPieces _ _ _ _)
  have hw : w.prun p = { s.prun p with issued := true } := by rw [htrig.prun, hv]
  have hwlen : p < w.parts.length := by
    rw [htrig .parts (by decide), State.setPRun_parts_length]
    exact h
  refine ⟨?_, ?_, (w.stopCheck_keeps p).after (htrig.after hvk)⟩
  · unfold State.stopCheck
    dsimp only
    split
    · rw [State.stopped_nEnd, hw]
    · rw [hw]
  · unfold State.stopCheck
    dsimp only
    split
    · exact .inr (w.stopped_st hwlen)
    · rw [hw]
      exact .inl rfl

theorem commitEnd_stops (p : Nat) (s : State) (hcalm : s.calm) (htail : s.runsTail p (s.prun p).nEnd = true)
    (hopen : (s.prun p).nEnd < (s.prun p).opened) (hidle : s.round.busy = false) (hlast : (s.prun p).lastFrame = some (s.prun p).nEnd) :
    ∃ u, exec (.commitEnd p) s = .next u ∧ (u.prun p).nEnd = (s.prun p).nEnd + 1
      ∧ ((u.prun p).issued = true ∨ (u.prun p).st = .stopped) ∧ u.round = s.round := by
  have hexec := exec_commitEnd htail hopen rfl
  generalize s.phaseAt p (s.prun p).nEnd (s.pcfg p).frame.commitEnd = t at hexec
  obtain ⟨hv, hround, hsame, -⟩ := State.endCounted_after t htail
  dsimp only at hexec
  generalize s.endCounted p t = v at hexec hv hround hsame
  have hlen : p < v.parts.length := by
    by_contra h
    rw [State.prun_of_length_le _ (by omega)] at hsame
    have := congrArg PRun.nEnd hsame
    exact absurd this (by simp)
  rw [if_neg (show ¬ (v.round.busy = true ∧ v.round.parts.contains (p, (s.prun p).nEnd) = true) by rw [hround, hidle]; simp),
    if_pos (by rw [hsame]; exact hlast)] at hexec
  obtain ⟨hend, hissued, hstop⟩ := State.commandStop_after t hlen
  have hk : (v.commandStop p t).keeps (s.at t) (.traceQ :: stopPieces) := hstop.after (hv.widen)
  have hf := hk.calm (s.at_calm t hcalm)
  refine ⟨_, hexec, ?_, ?_, ?_⟩
  · rw [State.finish_prun hf, hend, hsame]
  · rw [State.finish_prun hf]
    exact hissued
  · rw [State.finish_round _ hf, hstop .round (by decide), hround]

/-- Settles O23: the start of a round, its abandonment, and the end of its commit. -/
theorem commitRoundStarts : Obligations.CommitRoundStarts := by
  unfold Obligations.CommitRoundStarts
  exact ⟨selectEnd_idle, selectEnd_starts, roundLate_abandoned, commitEnd_fails, commitEnd_stops⟩

end Sys2Proof.Machine
end

section
/-! SUPPORT. Cycles of the field ports: what a cycle sends (21_field_interfaces.md R447 to R451). -/

namespace Sys2Proof.Machine

set_option Elab.async false

variable (s : State)

/-! ### What the setpoints read -/

theorem State.setWd_setpoint (w : Nat) (y : Watchdog) (k apply : Nat) (a : AxisRec) : (s.setWd w y).setpoint k apply a = s.setpoint k apply a := rfl

theorem State.setWd_soeData (w : Nat) (y : Watchdog) (r : SoeRec) : (s.setWd w y).soeData r = s.soeData r := rfl

theorem State.add64_setpoint (o n k apply : Nat) (a : AxisRec) : (s.add64 o n).setpoint k apply a = s.setpoint k apply a := by
  obtain ⟨r, h⟩ := s.add64_with o n
  rw [h]
  rfl

theorem State.add64_soeData (o n : Nat) (r : SoeRec) : (s.add64 o n).soeData r = s.soeData r := by
  obtain ⟨f, h⟩ := s.add64_with o n
  rw [h]
  rfl

theorem State.portAxes_congr {u s : State} (h : u.loader = s.loader) (n : Nat) : u.portAxes n = s.portAxes n := by
  rw [State.portAxes, State.portAxes, State.cfg, State.cfg, h]

theorem State.portSoe_congr {u s : State} (h : u.loader = s.loader) (n : Nat) : u.portSoe n = s.portSoe n := by
  rw [State.portSoe, State.portSoe, State.cfg, State.cfg, h]

theorem State.portMechs_congr {u s : State} (h : u.loader = s.loader) (n : Nat) : u.portMechs n = s.portMechs n := by
  simp only [State.portMechs, State.mechNums_congr h, State.mech?_congr h]

/-! ### Ports and triggers beside one another -/

theorem State.setPort_aside (n : Nat) (x : FPort) : (s.setPort n x).aside s := by
  unfold State.setPort
  exact State.aside_ite (State.keeps.aside (l := [.fif]) ((State.keeps_iff _ _ _).mpr (by simp)))
    ((State.raise_aside _ _).trans (State.keeps.aside (l := [.fif]) ((State.keeps_iff _ _ _).mpr (by simp))))

theorem State.setPort_ports_length (n : Nat) (x : FPort) : (s.setPort n x).fif.ports.length = s.fif.ports.length := by
  rw [State.setPort_fif, length_listSet]

theorem State.keeps.port {u s : State} {l : List Piece} (h : u.keeps s l) (n : Nat) (hl : .fif ∉ l := by decide) : u.port n = s.port n := by
  rw [State.port, h .fif hl, State.port]

theorem State.setPort_warden (n : Nat) (x : FPort) : (s.setPort n x).warden = s.warden := by
  unfold State.setPort
  dsimp only
  split
  · rfl
  · rw [State.raise_warden]

theorem State.mechFault_keeps (ms : List Nat) (t : Nat) : (s.mechFault ms t).keeps s trigPieces :=
  State.keeps_ite (s.keeps_refl _) (s.trigger_trigPieces _ _ _ _)

theorem State.mechFault_aside (ms : List Nat) (t : Nat) : (s.mechFault ms t).aside s :=
  State.aside_ite s.aside_refl (s.trigger_aside _ _ _ _)

theorem State.mechFault_wd (ms : List Nat) (t w : Nat) : (s.mechFault ms t).wd w = s.wd w := by
  unfold State.mechFault
  split
  · rfl
  · exact s.trigger_wd _ _ _ _ w

theorem State.mechFault_mechs_length (ms : List Nat) (t : Nat) : (s.mechFault ms t).warden.mechs.length = s.warden.mechs.length := by
  unfold State.mechFault
  split
  · rfl
  · exact s.trigger_mechs_length _ _ _ _

theorem State.mechFault_channels (ms : List Nat) (t : Nat) :
    (s.mechFault ms t).warden.chA = s.warden.chA ∧ (s.mechFault ms t).warden.chB = s.warden.chB
      ∧ (s.mechFault ms t).warden.wds = s.warden.wds := by
  unfold State.mechFault
  split
  · exact ⟨rfl, rfl, rfl⟩
  · obtain ⟨-, hA, hB, -, -, hw⟩ := Warden.fields_of_base (s.trigger_base 12 t ms none)
    exact ⟨hA, hB, hw⟩

theorem State.mechFault_held {ms : List Nat} {m : Nat} (t : Nat) (hm : m ∈ ms) (hdef : (s.mech? m).isSome = true)
    (hlen : m < s.warden.mechs.length) : ((s.mechFault ms t).wm m).held = true := by
  rw [State.mechFault, if_neg (by simp [List.ne_nil_of_mem hm])]
  exact s.trigger_held hm hdef hlen

/-! ### The cycle before -/

/-- A port whose last cycle has been judged. -/
def FPort.judged (x : FPort) : FPort :=
  if x.sent then { x with sent := false, misses := x.misses + 1, err := if x.cfgRec.missMax = x.misses + 1 then 7 else x.err } else x

theorem FPort.judged_fields (x : FPort) : x.judged.k = x.k ∧ x.judged.cycling = x.cycling ∧ x.judged.cfgRec = x.cfgRec ∧ x.judged.misses =
    (if x.sent then x.misses + 1 else x.misses) := by
  unfold FPort.judged
  split
  · exact ⟨rfl, rfl, rfl, rfl⟩
  · exact ⟨rfl, rfl, rfl, rfl⟩

/-- What the judgement of a port's last cycle leaves beside the port. -/
structure State.judges (u s : State) (n : Nat) : Prop where
  keeps : u.keeps s (.fif :: trigPieces)
  port : u.port n = (s.port n).judged
  others : ∀ m, m ≠ n → u.port m = s.port m
  length : u.fif.ports.length = s.fif.ports.length
  wds : u.warden.wds = s.warden.wds
  mechs : u.warden.mechs.length = s.warden.mechs.length
  chans : u.warden.chA = s.warden.chA ∧ u.warden.chB = s.warden.chB

theorem State.judgeCycle_of_idle {n : Nat} (t : Nat) (h : (s.port n).sent = false) : s.judgeCycle n t = s := by
  rw [State.judgeCycle]
  exact if_pos (by simp [h])

/-- The cycle before counted as missed. -/
def State.portMissed (s : State) (n : Nat) : State := (s.inc (Reg.fbsMissed n)).setPort n (s.port n).judged

theorem State.judgeCycle_of_sent {n : Nat} (t : Nat) (h : (s.port n).sent = true) : s.judgeCycle n t =
    if (s.port n).cfgRec.missMax = (s.port n).misses + 1 then (s.portMissed n).mechFault ((s.inc (Reg.fbsMissed n)).portMechs n) t else s.portMissed n := by
  unfold State.judgeCycle State.portMissed
  dsimp only
  rw [if_neg (by simp [h]), FPort.judged, if_pos h]
  split
  · rfl
  · rfl

theorem State.portMissed_judges {n : Nat} (h : n < s.fif.ports.length) : (s.portMissed n).judges s n := by
  have hinc := s.inc_keeps (Reg.fbsMissed n) 1
  have hset := (s.inc (Reg.fbsMissed n)).setPort_keeps n (s.port n).judged
  have hw : (s.portMissed n).warden = s.warden := by rw [State.portMissed, State.setPort_warden, State.inc_warden]
  have hlen : (s.inc (Reg.fbsMissed n)).fif.ports.length = s.fif.ports.length := by rw [hinc .fif (by decide)]
  exact {
    keeps := hset.after hinc.widen
    port := State.setPort_port_same _ _ (by rw [hlen]; exact h)
    others := fun m hm => (State.setPort_port_of_ne _ _ hm).trans (hinc.port m)
    length := (State.setPort_ports_length _ _ _).trans hlen
    wds := by rw [hw]
    mechs := by rw [hw]
    chans := by rw [hw]; exact ⟨rfl, rfl⟩ }

theorem State.judgeCycle_judges {n : Nat} (t : Nat) (h : n < s.fif.ports.length) : (s.judgeCycle n t).judges s n := by
  cases hsent : (s.port n).sent with
  | false =>
    rw [s.judgeCycle_of_idle t hsent]
    exact ⟨s.keeps_refl _, by rw [FPort.judged, hsent]; rfl, fun _ _ => rfl, rfl, rfl, rfl, rfl, rfl⟩
  | true =>
    have hm := s.portMissed_judges h
    rw [s.judgeCycle_of_sent t hsent]
    split
    · generalize (s.inc (Reg.fbsMissed n)).portMechs n = ms
      have hf := (s.portMissed n).mechFault_keeps ms t
      obtain ⟨hA, hB, hw⟩ := (s.portMissed n).mechFault_channels ms t
      exact {
        keeps := hf.after hm.keeps
        port := (hf.port n).trans hm.port
        others := fun m hne => (hf.port m).trans (hm.others m hne)
        length := (congrArg (fun f : FieldIf => f.ports.length) (hf .fif (by decide))).trans hm.length
        wds := hw.trans hm.wds
        mechs := (State.mechFault_mechs_length _ _ _).trans hm.mechs
        chans := ⟨hA.trans hm.chans.1, hB.trans hm.chans.2⟩ }
    · exact hm

theorem fbs_asideReg {n : Nat} (h : n < 4) : asideReg (Reg.fbsMissed n) = false ∧ asideReg (Reg.fbsCyclesLo n) = false
    ∧ asideReg (Reg.fbsCyclesLo n + 4) = false ∧ asideReg (Reg.fbsDcDev n) = false := by
  have hall : ∀ k : Fin 4, asideReg (Reg.fbsMissed k) = false ∧ asideReg (Reg.fbsCyclesLo k) = false
    ∧ asideReg (Reg.fbsCyclesLo k + 4) = false ∧ asideReg (Reg.fbsDcDev k) = false := by decide
  exact hall ⟨n, h⟩

/-- The judgement counts a cycle that has not come back, and no other counter that stands aside. -/
theorem State.judgeCycle_rd {n o : Nat} (t : Nat) (ho : asideReg o = false) :
    (s.judgeCycle n t).rd o = if (s.port n).sent = true ∧ o = Reg.fbsMissed n then satAdd (s.rd o) 1 else s.rd o := by
  cases hsent : (s.port n).sent with
  | false => rw [s.judgeCycle_of_idle t hsent, if_neg (by simp)]
  | true =>
    have hmissed : (s.portMissed n).rd o = if true = true ∧ o = Reg.fbsMissed n then satAdd (s.rd o) 1 else s.rd o := by
      rw [State.portMissed, (State.setPort_aside _ _ _).rd o ho]
      split
      next h => rw [h.2, State.rd_inc_same]
      next h => rw [State.rd_inc_ne _ _ _ _ (by simpa using h)]
    rw [s.judgeCycle_of_sent t hsent, ← hmissed]
    split
    · exact (State.mechFault_aside _ _ _).rd o ho
    · rfl

/-- MISS_MAX cycles in a row stop the port's mechanisms (R451). -/
theorem State.judgeCycle_held {n m : Nat} (t : Nat) (hsent : (s.port n).sent = true) (hmax : (s.port n).cfgRec.missMax = (s.port n).misses + 1)
    (hm : m ∈ s.portMechs n) (hlen : s.warden.mechs.length = 16) : ((s.judgeCycle n t).wm m).held = true := by
  have hload : (s.portMissed n).loader = s.loader :=
    (State.setPort_keeps _ _ _ .loader (by decide)).trans (s.inc_keeps (Reg.fbsMissed n) 1 .loader (by decide))
  have hmechs : (s.portMissed n).warden.mechs.length = s.warden.mechs.length := by
    rw [State.portMissed, State.setPort_warden, State.inc_warden]
  obtain ⟨hm16, hdef⟩ := s.mem_mechNums (List.mem_of_mem_filter hm)
  rw [s.judgeCycle_of_sent t hsent, if_pos hmax]
  refine State.mechFault_held _ t ?_ (by rwa [State.mech?_congr hload]) (by rw [hmechs]; omega)
  rwa [State.portMechs_congr (s.inc_keeps (Reg.fbsMissed n) 1 .loader (by decide))]

/-! ### Channels that fail after a cycle -/

theorem State.channelFail_wds (a b : Bool) (t : Nat) : (s.channelFail a b t).warden.wds = s.warden.wds := by
  rw [State.channelFail_eq]
  split
  · rfl
  · have hset := (s.dropChannels a b).setWState_base .channelFail
    rw [(Warden.fields_of_base (State.trigger_base _ 9 t _ (some 0))).2.2.2.2.2]
    generalize ((s.dropChannels a b).setWState .channelFail).warden = w at hset
    exact (congrArg Warden.wds hset : w.base.wds = _)

theorem State.setWState_aside (x : WState) : (s.setWState x).aside s := by
  have hset : ({ s with warden := { s.warden with state := x } } : State).aside s := (s.setWarden_keeps _).aside
  unfold State.setWState
  split
  · exact s.aside_refl
  · exact s.aside_refl
  · exact State.aside_ite s.aside_refl ((State.raise_aside _ _).trans hset)

theorem State.channelFail_aside (a b : Bool) (t : Nat) : (s.channelFail a b t).aside s := by
  rw [State.channelFail_eq]
  have hdrop : (s.dropChannels a b).aside s := (s.setWarden_keeps _).aside
  exact State.aside_ite hdrop ((State.trigger_aside _ _ _ _ _).trans ((State.setWState_aside _ _).trans hdrop))

/-- A channel failure ends no Saucer hold. -/
theorem State.channelFail_held_mono {a b : Bool} {t m : Nat} (h : (s.wm m).held = true) (hlen : m < s.warden.mechs.length) :
    ((s.channelFail a b t).wm m).held = true := by
  rw [State.channelFail_eq]
  split
  · exact h
  · refine State.trigger_held_mono _ ?_ ?_
    · rw [State.wm, State.setWState_mechs]
      exact h
    · rw [State.setWState_mechs]
      exact hlen

end Sys2Proof.Machine
end

section
/-! SUPPORT. CYCLE of a field port (21_field_interfaces.md R447 to R451). -/

namespace Sys2Proof.Machine

set_option Elab.async false

variable (s : State)

/-! ### The frame of a cycle -/

/-- The output watchdog of a port served with the number of its cycle. -/
def State.served (s : State) (n : Nat) : State := s.setWd (8 + n) { s.wd (8 + n) with frame := (s.port n).k % 65536 }

/-- A port that sends the frame of its next cycle. -/
def FPort.sends (x : FPort) (out : List (Nat × Nat × Nat × Int)) (soe : List (Nat × List Byte)) : FPort :=
  { x with k := x.k + 1, sent := true, sentK := x.k, got := [], stage := [], out, soeOut := soe }

/-- The application time of a port's next cycle. -/
def FPort.applies (x : FPort) : Nat := x.cfgRec.start x.k + x.cfgRec.shift

/-- The setpoints of a port's next cycle. -/
def State.cycleOut (s : State) (n : Nat) : List (Nat × Nat × Nat × Int) := (s.portAxes n).map (s.setpoint (s.port n).k (s.port n).applies)

/-- The SafeData of a port's next cycle, where the channels' datapaths agree. -/
def State.cycleSoe (s : State) (n : Nat) (agree : Bool) : List (Nat × List Byte) :=
  if agree && (s.port n).cfgRec.mode == 1 then (s.portSoe n).map fun e => (e.2, s.soeData e.1) else []

/-- A cycle counted and sent. -/
def State.cycleSent (s : State) (n : Nat) (agree : Bool) : State :=
  let a := s.add64 (Reg.fbsCyclesLo n) 1
  ({ a with fresh := a.fresh + 1 } : State).setPort n ((s.port n).sends (a.cycleOut n) (a.cycleSoe n agree))

theorem State.serveOut_of_open {n t : Nat} (h : s.outExpects (8 + n) = true → (s.outOpen (8 + n)).1 ≤ t ∧ t < (s.outOpen (8 + n)).2) :
    s.serveOut n t = s.served n := by
  unfold State.serveOut
  refine if_neg ?_
  rintro ⟨hexp, hclosed⟩
  have hopen : ((s.served n).outOpen (8 + n)).1 ≤ t ∧ t < ((s.served n).outOpen (8 + n)).2 := h hexp
  change (!decide (((s.served n).outOpen (8 + n)).1 ≤ t ∧ t < ((s.served n).outOpen (8 + n)).2)) = true at hclosed
  rw [decide_eq_true hopen] at hclosed
  exact absurd hclosed (by decide)

theorem exec_cycle {n : Nat} {o : CycleIn} {t : Nat} (hup : s.dev.up = true) (hn : n < 4) (hcyc : (s.port n).cycling = true) (hbus : (s.port n).bus = 4)
    (ht : (s.port n).cfgRec.start (s.port n).k + o.late = t) : exec (.cycle n o) s = .next (
      let v := (((s.at t).judgeCycle n t).serveOut n t).cycleSent n o.agree
      if o.agree = true then v else v.channelFail true true t).finish := by
  change execCycle n o s = _
  unfold execCycle
  dsimp only
  rw [if_pos ⟨hup, hn, hcyc, hbus⟩, ht]
  rfl

/-! ### What a cycle leaves -/

theorem State.served_port (n m : Nat) : (s.served n).port m = s.port m := rfl

theorem State.served_keeps (n : Nat) : (s.served n).keeps s [.warden] := s.setWd_keeps _ _

theorem State.setPort_of_shown {n : Nat} {x : FPort} (h : x.shown = (s.port n).shown) :
    s.setPort n x = { s with fif := { s.fif with ports := listSet s.fif.ports n x } } := if_pos h

/-- A cycle sent changes its port and its count. -/
theorem State.cycleSent_after {n : Nat} (agree : Bool) (h : n < s.fif.ports.length) :
    ((s.cycleSent n agree).port n = (s.port n).sends (s.cycleOut n) (s.cycleSoe n agree))
      ∧ (∀ m, m ≠ n → (s.cycleSent n agree).port m = s.port m) ∧ (s.cycleSent n agree).warden = s.warden
      ∧ (∀ o, (s.cycleSent n agree).rd o = (s.add64 (Reg.fbsCyclesLo n) 1).rd o) ∧ (s.cycleSent n agree).keeps s [.fif, .regs, .fresh] := by
  have hadd := s.add64_keeps (Reg.fbsCyclesLo n) 1
  have hload : (s.add64 (Reg.fbsCyclesLo n) 1).loader = s.loader := hadd .loader (by decide)
  have hport := hadd.port n
  have hlen : n < (s.add64 (Reg.fbsCyclesLo n) 1).fif.ports.length := by rw [hadd .fif (by decide)]; exact h
  have hwarden : (s.add64 (Reg.fbsCyclesLo n) 1).warden = s.warden := by rw [State.add64_warden]
  have hout : (s.add64 (Reg.fbsCyclesLo n) 1).cycleOut n = s.cycleOut n := by
    rw [State.cycleOut, State.cycleOut, hport, State.portAxes_congr hload]
    exact List.map_congr_left fun a _ => s.add64_setpoint _ _ _ _ a
  have hsoe : (s.add64 (Reg.fbsCyclesLo n) 1).cycleSoe n agree = s.cycleSoe n agree := by
    rw [State.cycleSoe, State.cycleSoe, hport, State.portSoe_congr hload]
    simp only [State.add64_soeData]
  unfold State.cycleSent
  dsimp only
  rw [hout, hsoe]
  have hshown : ((s.port n).sends (s.cycleOut n) (s.cycleSoe n agree)).shown = (s.port n).shown := rfl
  generalize (s.port n).sends (s.cycleOut n) (s.cycleSoe n agree) = y at hshown
  generalize s.add64 (Reg.fbsCyclesLo n) 1 = a at hadd hlen hwarden hport
  rw [State.setPort_of_shown { a with fresh := a.fresh + 1 } (hshown.trans (congrArg FPort.shown hport.symm))]
  exact ⟨getD_listSet_same _ _ hlen, fun m hm => (getD_listSet_of_ne _ _ _ hm).trans (hadd.port m), hwarden, fun _ => rfl,
    ((State.keeps_iff _ _ _).mpr (by simp) : State.keeps _ a [.fif, .fresh]).after hadd.widen⟩

theorem State.outExpects_congr {u s : State} {n : Nat} (hload : u.loader = s.loader) (hport : (u.port n).cycling = (s.port n).cycling) :
    u.outExpects (8 + n) = s.outExpects (8 + n) := by
  rw [State.outExpects, State.outExpects, Nat.add_sub_cancel_left, State.portMechs_congr hload]
  exact congrArg (· && _) hport

theorem State.outOpen_congr {u s : State} {n : Nat} (hload : u.loader = s.loader)
    (hport : (u.port n).k = (s.port n).k ∧ (u.port n).cfgRec = (s.port n).cfgRec) : u.outOpen (8 + n) = s.outOpen (8 + n) := by
  have hwin : u.wdWin (8 + n) = s.wdWin (8 + n) := by rw [State.wdWin, State.wdWin, State.cfg, State.cfg, hload]
  have hstart : (u.port n).cfgRec.start (u.port n).k = (s.port n).cfgRec.start (s.port n).k := by rw [hport.1, hport.2]
  rw [State.outOpen, State.outOpen, Nat.add_sub_cancel_left, hwin]
  exact congrArg (fun b => (b + 10 * (s.wdWin (8 + n)).1, b + 10 * (s.wdWin (8 + n)).2)) hstart

/-- CYCLE sends the frame of a port (R447 to R451). -/
theorem cycle_sends {n : Nat} {o : CycleIn} (hcalm : s.calm) (hup : s.dev.up = true) (hn : n < 4) (hports : s.fif.ports.length = 4)
    (hwds : s.warden.wds.length = 12) (hmechs : s.warden.mechs.length = 16) :
      let x := s.port n
      let t := x.cfgRec.start x.k + o.late
      let v := s.at t
      x.cycling = true → x.bus = 4 → (s.outExpects (8 + n) = true → (s.outOpen (8 + n)).1 ≤ t ∧ t < (s.outOpen (8 + n)).2) →
      ∃ u, exec (.cycle n o) s = .next u ∧ u.time = v.time ∧ (u.port n).k = x.k + 1 ∧ (u.port n).sent = true ∧ (u.port n).sentK = x.k
        ∧ (∀ m, m ≠ n → u.port m = s.port m) ∧ (u.wd (8 + n)).frame = x.k % 65536
        ∧ u.rd64 (Reg.fbsCyclesLo n) = (v.rd64 (Reg.fbsCyclesLo n) + 1) % 2 ^ 64
        ∧ (o.agree = false → s.warden.chA = true → s.warden.chB = true → u.warden.chA = false ∧ u.warden.chB = false)
        ∧ (x.sent = false → o.agree = true →
            (u.port n).out = (v.portAxes n).map (v.setpoint x.k (x.cfgRec.start x.k + x.cfgRec.shift))
              ∧ (u.port n).soeOut = (if x.cfgRec.mode = 1 then (v.portSoe n).map (fun e => (e.2, v.soeData e.1)) else [])
              ∧ (u.port n).misses = x.misses ∧ u.keeps v [.fif, .warden, .regs, .fresh])
        ∧ (x.sent = true → (u.port n).misses = x.misses + 1 ∧ u.rd (Reg.fbsMissed n) = satAdd (v.rd (Reg.fbsMissed n)) 1
            ∧ (x.cfgRec.missMax = x.misses + 1 → (u.port n).err = 7 ∧ ∀ m ∈ s.portMechs n, (u.wm m).held = true)) := by
  intro x t v hcyc hbus hopen
  have hexec := exec_cycle s (o := o) (t := t) hup hn hcyc hbus rfl
  have hvp (m : Nat) : v.port m = s.port m := s.at_port t m
  have hvw : v.warden = s.warden := s.at_warden t
  have hvlen : n < v.fif.ports.length := by rw [s.at_fif]; omega
  have hj := v.judgeCycle_judges t hvlen
  have hjrd (i : Nat) (hi : asideReg i = false) := v.judgeCycle_rd (n := n) t hi
  have hjheld (m : Nat) (hsent : x.sent = true) (hmax : x.cfgRec.missMax = x.misses + 1) (hm : m ∈ s.portMechs n) : ((v.judgeCycle n t).wm m).held = true :=
    v.judgeCycle_held t (by rw [hvp]; exact hsent) (by rw [hvp]; exact hmax) (by rw [State.portMechs_congr (s.at_loader t)]; exact hm) (by rw [hvw]; exact hmechs)
  have hjidle (hsent : x.sent = false) : v.judgeCycle n t = v := v.judgeCycle_of_idle t (by rw [hvp]; exact hsent)
  change exec (.cycle n o) s = .next (let w := ((v.judgeCycle n t).serveOut n t).cycleSent n o.agree
      if o.agree = true then w else w.channelFail true true t).finish at hexec
  generalize v.judgeCycle n t = j at hexec hj hjrd hjheld hjidle
  have hjload : j.loader = s.loader := (hj.keeps .loader (by decide)).trans (s.at_loader t)
  have hjport : j.port n = x.judged := hj.port.trans (congrArg FPort.judged (hvp n))
  obtain ⟨hk, hcycling, hrec, hmisses⟩ := x.judged_fields
  rw [j.serveOut_of_open (by
    rw [State.outExpects_congr hjload (by rw [hjport]; exact hcycling), State.outOpen_congr hjload (by rw [hjport]; exact ⟨hk, hrec⟩)]
    exact hopen)] at hexec
  have hjn : n < (j.served n).fif.ports.length := by
    change n < j.fif.ports.length
    rw [hj.length]
    exact hvlen
  obtain ⟨hcport, hcother, hcw, hcrd, hck⟩ := (j.served n).cycleSent_after o.agree hjn
  have hraw : ((j.served n).cycleSent n o.agree).keeps j [.fif, .warden, .regs, .fresh] := hck.after (j.served_keeps n).widen
  have hck : ((j.served n).cycleSent n o.agree).keeps v (.fif :: trigPieces) := hck.after ((j.served_keeps n).after hj.keeps)
  have hcwds : ((j.served n).cycleSent n o.agree).warden.wds = (j.served n).warden.wds := by rw [hcw]
  have hcchan : ((j.served n).cycleSent n o.agree).warden.chA = s.warden.chA ∧ ((j.served n).cycleSent n o.agree).warden.chB = s.warden.chB := by
    rw [hcw, ← hvw]
    exact hj.chans
  have hcheld (m : Nat) : (((j.served n).cycleSent n o.agree).wm m) = j.wm m := by
    rw [State.wm, hcw]
    rfl
  have hclen : ((j.served n).cycleSent n o.agree).warden.mechs.length = 16 := by
    rw [hcw]
    exact hj.mechs.trans (by rw [hvw, hmechs])
  have hcadd (i : Nat) (hi : asideReg i = false) : ((j.served n).cycleSent n o.agree).rd i = (j.add64 (Reg.fbsCyclesLo n) 1).rd i := (hcrd i).trans rfl
  have hout (hsent : x.sent = false) : (j.served n).cycleOut n = (v.portAxes n).map (v.setpoint x.k (x.cfgRec.start x.k + x.cfgRec.shift))
      ∧ (j.served n).cycleSoe n true = if x.cfgRec.mode = 1 then (v.portSoe n).map (fun e => (e.2, v.soeData e.1)) else [] := by
    rw [hjidle hsent]
    refine ⟨?_, ?_⟩
    · change (v.portAxes n).map (v.setpoint (v.port n).k (v.port n).applies) = _
      rw [hvp]
      rfl
    · change (if true && (v.port n).cfgRec.mode == 1 then (v.portSoe n).map (fun e => (e.2, v.soeData e.1)) else []) = _
      rw [hvp]
      simp only [Bool.true_and, beq_iff_eq]
      rfl
  change (((j.served n).cycleSent n o.agree).port n = ((j.port n).sends _ _)) at hcport
  rw [hjport] at hcport
  dsimp only at hexec
  have hjwd : ((j.served n).warden.wds.getD (8 + n) {}).frame = x.k % 65536 := by
    change (((j.setWd (8 + n) _).wd (8 + n)).frame) = _
    rw [State.setWd_wd_same _ _ (by rw [hj.wds, hvw]; omega), hjport, hk]
  generalize (j.served n).cycleSent n o.agree = c at *
  have hfk := c.channelFail_keeps true true t
  have hzk : (if o.agree = true then c else c.channelFail true true t).keeps c trigPieces := State.keeps_ite (c.keeps_refl _) hfk
  have hza : (if o.agree = true then c else c.channelFail true true t).aside c := State.aside_ite c.aside_refl (c.channelFail_aside _ _ _)
  have hzw : (if o.agree = true then c else c.channelFail true true t).warden.wds = c.warden.wds := by
    split
    · rfl
    · exact c.channelFail_wds _ _ _
  have hzheld (m : Nat) (hm : m < 16) (h : (c.wm m).held = true) : ((if o.agree = true then c else c.channelFail true true t).wm m).held = true := by
    split
    · exact h
    · exact c.channelFail_held_mono h (by rw [hclen]; exact hm)
  have hzchan : o.agree = false → (if o.agree = true then c else c.channelFail true true t).warden.chA = false
      ∧ (if o.agree = true then c else c.channelFail true true t).warden.chB = false := by
    intro h
    rw [if_neg (by simp [h])]
    obtain ⟨hA, hB, -, -⟩ := c.channelFail_fields true true t
    exact ⟨by rw [hA]; simp, by rw [hB]; simp⟩
  have hzagree : o.agree = true → (if o.agree = true then c else c.channelFail true true t) = c := fun h => if_pos h
  generalize (if o.agree = true then c else c.channelFail true true t) = z at *
  have hzv : z.keeps v (.fif :: trigPieces) := hzk.after hck
  have hf : z.dev.fall = none := hzv.calm (s.at_calm t hcalm)
  have hport (m : Nat) : z.finish.port m = c.port m := (State.keeps.port (z.finish_keeps_of hf (z.keeps_refl [])) m).trans (hzk.port m)
  have hrd (i : Nat) (hi : asideReg i = false) : z.finish.rd i = (j.add64 (Reg.fbsCyclesLo n) 1).rd i := by
    rw [State.finish_rd _ hf, hza.rd i hi, hcadd i hi]
  obtain ⟨hmiss, hlo, hhi, -⟩ := fbs_asideReg hn
  refine ⟨z.finish, hexec, ?_, ?_, ?_, ?_, ?_, ?_, ?_, ?_, ?_, ?_⟩
  · exact (State.finish_time _ hf).trans (hzv .time (by decide))
  · rw [hport, hcport]
    exact congrArg (· + 1) hk
  · rw [hport, hcport]
    rfl
  · rw [hport, hcport]
    exact hk
  · intro m hm
    rw [hport, hcother m hm]
    exact (hj.others m hm).trans (hvp m)
  · rw [State.wd, State.finish_wds, hzw, hcwds, hjwd]
  · have hsame : z.finish.rd64 (Reg.fbsCyclesLo n) = (j.add64 (Reg.fbsCyclesLo n) 1).rd64 (Reg.fbsCyclesLo n) :=
      State.rd64_congr _ (by simp [hrd _ hlo, hrd _ hhi])
    have hne : Reg.fbsCyclesLo n ≠ Reg.fbsMissed n ∧ Reg.fbsCyclesLo n + 4 ≠ Reg.fbsMissed n := by
      simp only [Reg.fbsCyclesLo, Reg.fbsMissed]
      omega
    have hbefore : j.rd64 (Reg.fbsCyclesLo n) = v.rd64 (Reg.fbsCyclesLo n) :=
      State.rd64_congr _ (by simp [hjrd _ hlo, hjrd _ hhi, hne.1, hne.2])
    rw [hsame, State.rd64_add64 _ _ Nat.one_ne_zero, hbefore]
  · intro h _ _
    have hq := Warden.fields_of_base (State.finish_base hf)
    rw [hq.2.1, hq.2.2.1]
    exact hzchan h
  · intro hsent hagree
    rw [hport, hcport, hagree]
    refine ⟨(hout hsent).1, (hout hsent).2, ?_, ?_⟩
    · exact hmisses.trans (if_neg (by simp [hsent]))
    · refine State.finish_keeps_of hf ?_
      rw [hzagree hagree, ← hjidle hsent]
      exact hraw
  · intro hsent
    rw [hport, hcport]
    refine ⟨hmisses.trans (if_pos hsent), ?_, fun hmax => ⟨?_, fun m hm => ?_⟩⟩
    · rw [hrd _ hmiss, State.add64_rd_ne _ _ (by simp only [Reg.fbsCyclesLo, Reg.fbsMissed]; omega)
        (by simp only [Reg.fbsCyclesLo, Reg.fbsMissed]; omega), hjrd _ hmiss, if_pos ⟨by rw [hvp]; exact hsent, rfl⟩]
    · change x.judged.err = 7
      rw [FPort.judged, if_pos hsent]
      exact if_pos hmax
    · rw [State.finish_held hf]
      refine hzheld m (s.mem_mechNums (List.mem_of_mem_filter hm)).1 ?_
      rw [hcheld]
      exact hjheld m hsent hmax hm

end Sys2Proof.Machine
end

section
/-! SUPPORT. Images of the field ports (21_field_interfaces.md R450 to R457). -/

namespace Sys2Proof.Machine

set_option Elab.async false

variable (s : State)

/-! ### First images -/

theorem State.startWritten_aside (p x n : Nat) : (s.startWritten p x n).aside s := by
  unfold State.startWritten
  dsimp only
  split
  · exact s.aside_refl
  · split
    · split
      · refine State.aside_ite s.aside_refl (State.aside_ite (s.setTask_keeps _ _).aside ?_)
        have hback := (s.withdraw_keeps ‹TaskRec›.die p ‹TaskRec›.task n).aside
        split
        · exact (State.place_aside _ _ _ _).trans hback
        · exact hback
      · exact s.aside_refl
    · exact s.aside_refl

theorem State.writeStart_aside (q : PartCfg) (n cls : Nat) (q0 qd0 a0 : List Nat) (block : List Byte) (x : Nat) :
    (s.writeStart q n cls q0 qd0 a0 block x).aside s := by
  unfold State.writeStart
  extract_lets a w1 w2 w3
  have h1 : w1.aside s := State.aside_foldl _ (fun s _ => s.store_aside _ _) s.aside_refl
  have h2 : w2.aside s := State.aside_ite h1 ((State.store_aside _ _ _).trans h1)
  have h3 : w3.aside s := State.aside_ite ((State.store_aside _ _ _).trans h2) h2
  exact (State.startWritten_aside _ _ _ _).trans h3

theorem State.startMech_aside (q : PartCfg) (m : Mech) (keep : Bool) : (s.startMech q m keep).aside s :=
  State.aside_foldl _ (fun s _ => s.writeStart_aside _ _ _ _ _ _ _ _) (State.aside_ite s.aside_refl (s.setWm_keeps _ _).aside)

theorem State.firstImages_keeps (n t : Nat) : (s.firstImages n t).keeps s startPieces :=
  State.keeps_foldl (fun s q => State.keeps_foldl (fun s m => s.startMech_keeps q m true) (s.keeps_refl _) _) (s.keeps_refl _) _

theorem State.firstImages_aside (n t : Nat) : (s.firstImages n t).aside s :=
  State.aside_foldl _ (fun s q => State.aside_foldl _ (fun s m => s.startMech_aside q m true) s.aside_refl) s.aside_refl

/-- Without a partition that waits for its T0 no image is a first one. -/
theorem State.firstImages_of_none {n t : Nat} (h : ∀ q ∈ s.cfg.parts, ¬(s.running q.num = true ∧ t < (s.prun q.num).t0)) : s.firstImages n t = s := by
  unfold State.firstImages
  rw [List.filter_eq_nil_iff.mpr]
  · rfl
  · intro q hq hall
    simp only [Bool.and_eq_true, decide_eq_true_eq] at hall
    exact h q hq hall.1

/-! ### An image of a port -/

/-- What a port holds of its last image. -/
def FPort.image (x : FPort) : Bool × Nat × Option Nat × Nat × List AxisIn := (x.sent, x.misses, x.imgAt, x.imgK, x.axes)

/-- A port with the image of the cycle it sent. -/
def FPort.taken (x : FPort) (axes : List AxisIn) : FPort :=
  { x with sent := false, misses := 0, imgAt := some (x.cfgRec.start x.sentK), imgK := x.sentK, axes }

/-- Two states differ as an image of port n makes them differ. -/
structure State.images (u s : State) (n : Nat) : Prop where
  image : (u.port n).image = (s.port n).image
  others : ∀ m, m ≠ n → u.port m = s.port m
  aside : u.aside s

theorem State.images.trans {u v s : State} {n : Nat} (h : u.images v n) (k : v.images s n) : u.images s n :=
  ⟨h.image.trans k.image, fun m hm => (h.others m hm).trans (k.others m hm), h.aside.trans k.aside⟩

theorem State.keeps.images {u s : State} {l : List Piece} {n : Nat} (h : u.keeps s l) (ha : u.aside s) (hl : .fif ∉ l := by decide) : u.images s n :=
  ⟨congrArg FPort.image (h.port n hl), fun m _ => h.port m hl, ha⟩

theorem State.driveFaults_keeps (n : Nat) (ready : List Nat) (t : Nat) : (s.driveFaults n ready t).keeps s (.fif :: trigPieces) :=
  State.keeps_ite (s.keeps_refl _) ((State.mechFault_keeps _ _ _).after (s.setPort_keeps _ _).widen)

theorem State.driveFaults_images {n : Nat} (ready : List Nat) (t : Nat) (h : n < s.fif.ports.length) : (s.driveFaults n ready t).images s n := by
  have hset : (s.setPort n { s.port n with err := 8 }).images s n :=
    ⟨by rw [s.setPort_port_same _ h]; rfl, fun m hm => s.setPort_port_of_ne _ hm, s.setPort_aside _ _⟩
  unfold State.driveFaults
  dsimp only
  split
  · exact ⟨rfl, fun _ _ => rfl, s.aside_refl⟩
  · exact ((State.mechFault_keeps _ _ _).images (State.mechFault_aside _ _ _)).trans hset

/-- The image stands in its port, and the work that it starts leaves it there. -/
theorem State.takeImage_after {n : Nat} (axes : List AxisIn) (t : Nat) (h : n < s.fif.ports.length) :
    ((s.takeImage n axes t).port n).image = ((s.port n).taken axes).image ∧ (∀ m, m ≠ n → (s.takeImage n axes t).port m = s.port m)
      ∧ (s.takeImage n axes t).aside s ∧ (s.takeImage n axes t).keeps s (.fif :: startPieces)
      ∧ ((∀ q ∈ s.cfg.parts, ¬(s.running q.num = true ∧ t < (s.prun q.num).t0)) → (s.takeImage n axes t).keeps s (.fif :: trigPieces)) := by
  have hset := s.setPort_keeps n ((s.port n).taken axes)
  have hlen : n < (s.setPort n ((s.port n).taken axes)).fif.ports.length := by rw [State.setPort_ports_length]; exact h
  have hsame := s.setPort_port_same ((s.port n).taken axes) h
  have hother (m : Nat) (hm : m ≠ n) := s.setPort_port_of_ne ((s.port n).taken axes) hm
  have haside := s.setPort_aside n ((s.port n).taken axes)
  rw [show s.takeImage n axes t = ((s.setPort n ((s.port n).taken axes)).driveFaults n ((s.portMechs n).filter s.mechReady) t).firstImages n t from rfl]
  generalize (s.port n).taken axes = y at *
  generalize s.setPort n y = v at *
  have hd := v.driveFaults_images ((s.portMechs n).filter s.mechReady) t hlen
  have hdk := v.driveFaults_keeps n ((s.portMechs n).filter s.mechReady) t
  generalize v.driveFaults n ((s.portMechs n).filter s.mechReady) t = w at *
  have hws : w.keeps s (.fif :: trigPieces) := hdk.after hset.widen
  have hfirst : (w.firstImages n t).images w n := (w.firstImages_keeps n t).images (w.firstImages_aside n t)
  have hall := hfirst.trans hd
  refine ⟨hall.image.trans (congrArg FPort.image hsame), fun m hm => (hall.others m hm).trans (hother m hm), hall.aside.trans haside,
    State.keeps.after (m := .fif :: startPieces) (w.firstImages_keeps n t) hws.widen, fun hnone => ?_⟩
  rw [w.firstImages_of_none]
  · exact hws
  · intro q hq
    have hrun : w.running q.num = s.running q.num := by rw [State.running, State.running, hws.prun]
    rw [hrun, hws.prun]
    exact hnone q (by rwa [State.cfg, hws .loader (by decide), ← State.cfg] at hq)

theorem FPort.fields_of_image {x y : FPort} (h : x.image = y.image) :
    x.sent = y.sent ∧ x.misses = y.misses ∧ x.imgAt = y.imgAt ∧ x.imgK = y.imgK ∧ x.axes = y.axes := by
  simpa [FPort.image] using h

/-! ### FSoE frames and distributed clocks -/

theorem State.soeInput_keeps (c : Nat) (r : SoeRec) (b : List Byte) (t : Nat) : (s.soeInput c r b t).keeps s trigPieces := by
  unfold State.soeInput
  extract_lets x st y src v
  have hv : v.keeps s trigPieces := (s.setWarden_keeps _).widen
  exact State.keeps_ite ((v.trigger_trigPieces _ _ _ _).after hv) hv

theorem State.soeInput_aside (c : Nat) (r : SoeRec) (b : List Byte) (t : Nat) : (s.soeInput c r b t).aside s := by
  unfold State.soeInput
  extract_lets x st y src v
  have hv : v.aside s := (s.setWarden_keeps _).aside
  exact State.aside_ite ((v.trigger_aside _ _ _ _).trans hv) hv

/-- The FSoE frames of an image read. -/
def State.soeRead (s : State) (soe : List (Nat × List Byte)) (t : Nat) (l : List (SoeRec × Nat)) : State :=
  l.foldl (fun s e =>
    match soe.find? fun (f : Nat × List Byte) => f.1 == e.2 with
    | some f => s.soeInput e.2 e.1 f.2 t
    | none => s) s

theorem State.soeRead_keeps (soe : List (Nat × List Byte)) (t : Nat) (l : List (SoeRec × Nat)) : (s.soeRead soe t l).keeps s trigPieces := by
  refine State.keeps_foldl (fun v e => ?_) (s.keeps_refl _) l
  split
  · exact v.soeInput_keeps _ _ _ _
  · exact v.keeps_refl _

theorem State.soeRead_aside (soe : List (Nat × List Byte)) (t : Nat) (l : List (SoeRec × Nat)) : (s.soeRead soe t l).aside s := by
  refine State.aside_foldl l (fun v e => ?_) s.aside_refl
  split
  · exact v.soeInput_aside _ _ _ _
  · exact v.aside_refl

/-- A port whose distributed clocks deviate so. -/
def FPort.dcSeen (x : FPort) (dc : Word) : FPort :=
  { x with dcGood := if dc.toInt.natAbs ≤ 100 then x.dcGood + 1 else 0,
           dcLock := x.dcLock || decide (16 ≤ if dc.toInt.natAbs ≤ 100 then x.dcGood + 1 else 0) }

theorem State.dcLook_eq (n : Nat) (dc : Word) : s.dcLook n dc = (s.wr (Reg.fbsDcDev n) dc).setPort n ((s.port n).dcSeen dc) := rfl

theorem State.dcLook_keeps (n : Nat) (dc : Word) : (s.dcLook n dc).keeps s [.fif, .ints, .regs] :=
  (State.setPort_keeps _ _ _).after (s.wr_keeps _ _).widen

/-! ### The commands -/

theorem exec_inputImage {n : Nat} {o : ImageIn} (hup : s.dev.up = true) (hn : n < 4) (hmode : (s.port n).cfgRec.mode = 1) (hsent : (s.port n).sent = true)
    (hlo : (s.port n).cfgRec.start (s.port n).sentK ≤ o.t) (hhi : o.t < (s.port n).cfgRec.start (s.port n).k) : exec (.inputImage n o) s = .next (
      let v := s.at o.t
      if o.crc = false then v.inc (Reg.fbsRxErr n)
      else if o.wkc < (s.port n).img.wkc then v.inc (Reg.fbsWkcErr n)
      else
        let w := (v.dcLook n o.dc).takeImage n ((v.portAxes n).map (axisOf o.axes)) o.t
        w.soeRead o.soe o.t (w.portSoe n)).finish := by
  change execInputImage n o s = _
  unfold execInputImage
  dsimp only
  rw [if_pos ⟨hup, hn, hmode, hsent, hlo, hhi⟩]
  cases o.crc <;> rfl

/-- A drive's feedback joined to the image of its cycle. -/
def FPort.fed (x : FPort) (d : Nat) (mine : List AxisIn) : FPort := { x with got := d :: x.got, stage := x.stage ++ mine }

theorem exec_feedbackFrame {n d : Nat} {o : FeedIn} (hup : s.dev.up = true) (hn : n < 4) (hmode : (s.port n).cfgRec.mode = 2) (hsent : (s.port n).sent = true)
    (hd : d < (s.port n).img.drives.length) (hk : o.k = (s.port n).sentK % 2 ^ 32)
    (hlo : (s.port n).cfgRec.start (s.port n).sentK ≤ o.t) (hhi : o.t < (s.port n).cfgRec.start (s.port n).k) (hgot : d ∉ (s.port n).got) :
    exec (.feedbackFrame n d o) s = .next (
      let v := s.at o.t
      let y := (s.port n).fed d (((v.portAxes n).filter fun a => a.offs.getD 0 0 == d).map (axisOf o.axes))
      if o.ok = false then v.inc (Reg.fbsRxErr n)
      else if (s.port n).got.length + 1 = (s.port n).img.drives.length then (v.setPort n y).takeImage n y.stage o.t else v.setPort n y).finish := by
  change execFeedbackFrame n d o s = _
  unfold execFeedbackFrame
  dsimp only
  rw [if_pos ⟨hup, hn, hmode, hsent, hd, hk, hlo, hhi, by simpa using hgot⟩]
  cases o.ok <;> rfl

/-- INPUT_IMAGE (R451, R455). -/
theorem inputImage_taken {n : Nat} {o : ImageIn} (hcalm : s.calm) (hup : s.dev.up = true) (hn : n < 4) (hports : s.fif.ports.length = 4) :
      let x := s.port n
      let v := s.at o.t
      x.cfgRec.mode = 1 → x.sent = true → x.cfgRec.start x.sentK ≤ o.t → o.t < x.cfgRec.start x.k →
      ∃ u, exec (.inputImage n o) s = .next u ∧
        if o.crc = false then u.rd (Reg.fbsRxErr n) = satAdd (v.rd (Reg.fbsRxErr n)) 1 ∧ u.regsAs v [Reg.fbsRxErr n] ∧ u.keeps v [.regs]
        else if o.wkc < x.img.wkc then u.rd (Reg.fbsWkcErr n) = satAdd (v.rd (Reg.fbsWkcErr n)) 1 ∧ u.regsAs v [Reg.fbsWkcErr n] ∧ u.keeps v [.regs]
        else (u.port n).sent = false ∧ (u.port n).misses = 0 ∧ (u.port n).imgAt = some (x.cfgRec.start x.sentK) ∧ (u.port n).imgK = x.sentK
          ∧ (u.port n).axes = (v.portAxes n).map (axisOf o.axes) ∧ u.rd (Reg.fbsDcDev n) = o.dc
          ∧ (∀ m, m ≠ n → u.port m = s.port m)
          ∧ ((∀ q ∈ s.cfg.parts, ¬(s.running q.num = true ∧ o.t < (s.prun q.num).t0)) → u.keeps v (.fif :: trigPieces)) := by
  intro x v hmode hsent hlo hhi
  have hexec := exec_inputImage s hup hn hmode hsent hlo hhi
  change exec (.inputImage n o) s = .next (
      if o.crc = false then v.inc (Reg.fbsRxErr n)
      else if o.wkc < x.img.wkc then v.inc (Reg.fbsWkcErr n)
      else
        let w := (v.dcLook n o.dc).takeImage n ((v.portAxes n).map (axisOf o.axes)) o.t
        w.soeRead o.soe o.t (w.portSoe n)).finish at hexec
  have hcounted (r : Nat) : (v.inc r).finish.rd r = satAdd (v.rd r) 1 ∧ (v.inc r).finish.regsAs v [r] ∧ (v.inc r).finish.keeps v [.regs] := by
    have hf : (v.inc r).dev.fall = none := (v.inc_keeps r 1).calm (s.at_calm o.t hcalm)
    refine ⟨?_, fun i hi => ?_, State.finish_keeps_of hf (v.inc_keeps r 1)⟩
    · rw [State.finish_rd _ hf, State.rd_inc_same]
    · rw [State.finish_rd _ hf, State.rd_inc_ne _ _ _ _ (by simpa using hi)]
  refine ⟨_, hexec, ?_⟩
  split
  next => exact hcounted _
  next =>
    split
    next => exact hcounted _
    next =>
      have hvlen : n < v.fif.ports.length := by rw [s.at_fif]; omega
      have hvp (m : Nat) : v.port m = s.port m := s.at_port o.t m
      dsimp only
      generalize (v.portAxes n).map (axisOf o.axes) = axes
      have hdk := v.dcLook_keeps n o.dc
      have hlen : n < (v.dcLook n o.dc).fif.ports.length := by
        rw [State.dcLook_eq, State.setPort_ports_length]
        exact hvlen
      have hdport : ((v.dcLook n o.dc).port n) = x.dcSeen o.dc := by
        rw [State.dcLook_eq]
        exact (State.setPort_port_same (v.wr (Reg.fbsDcDev n) o.dc) _ hvlen).trans (congrArg (FPort.dcSeen · o.dc) (hvp n))
      have hdother (m : Nat) (hm : m ≠ n) : (v.dcLook n o.dc).port m = s.port m := (State.setPort_port_of_ne _ _ hm).trans (hvp m)
      have hdrd : (v.dcLook n o.dc).rd (Reg.fbsDcDev n) = o.dc := by
        rw [State.dcLook_eq, (State.setPort_aside _ _ _).rd _ (fbs_asideReg hn).2.2.2, State.rd_wr_same]
      generalize v.dcLook n o.dc = d at *
      obtain ⟨himage, hother, haside, hkeeps, hquiet⟩ := d.takeImage_after axes o.t hlen
      generalize d.takeImage n axes o.t = w at *
      have hsk := w.soeRead_keeps o.soe o.t (w.portSoe n)
      have hsa := w.soeRead_aside o.soe o.t (w.portSoe n)
      generalize w.soeRead o.soe o.t (w.portSoe n) = z at *
      have hz : z.keeps v (.fif :: startPieces) := hsk.after (hkeeps.after (hdk.widen (m := .fif :: startPieces)))
      have hf : z.dev.fall = none := hz.calm (s.at_calm o.t hcalm)
      have hport (m : Nat) : z.finish.port m = w.port m := (State.keeps.port (z.finish_keeps_of hf (z.keeps_refl [])) m).trans (hsk.port m)
      rw [hdport] at himage
      obtain ⟨h1, h2, h3, h4, h5⟩ := FPort.fields_of_image himage
      refine ⟨(congrArg FPort.sent (hport n)).trans h1, (congrArg FPort.misses (hport n)).trans h2, (congrArg FPort.imgAt (hport n)).trans h3,
        (congrArg FPort.imgK (hport n)).trans h4, (congrArg FPort.axes (hport n)).trans h5, ?_, fun m hm => ?_, fun hnone => ?_⟩
      · rw [State.finish_rd _ hf, hsa.rd _ (fbs_asideReg hn).2.2.2, haside.rd _ (fbs_asideReg hn).2.2.2, hdrd]
      · rw [hport, hother m hm, hdother m hm]
      · refine State.finish_keeps_of hf (hsk.after ((hquiet fun q hq => ?_).after (hdk.widen (m := .fif :: trigPieces))))
        have hrun : d.running q.num = s.running q.num := by rw [State.running, State.running, hdk.prun, s.at_prun]
        rw [hrun, hdk.prun, s.at_prun]
        refine hnone q ?_
        rwa [State.cfg, hdk .loader (by decide), ← State.cfg, s.at_cfg] at hq

/-- FEEDBACK_FRAME (R456, R457). -/
theorem feedbackFrame_joined {n d : Nat} {o : FeedIn} (hcalm : s.calm) (hup : s.dev.up = true) (hn : n < 4) (hports : s.fif.ports.length = 4) :
      let x := s.port n
      let v := s.at o.t
      let mine := ((v.portAxes n).filter fun a => a.offs.getD 0 0 == d).map (axisOf o.axes)
      x.cfgRec.mode = 2 → x.sent = true → d < x.img.drives.length → o.k = x.sentK % 2 ^ 32 → x.cfgRec.start x.sentK ≤ o.t →
      o.t < x.cfgRec.start x.k → d ∉ x.got →
      ∃ u, exec (.feedbackFrame n d o) s = .next u ∧
        if o.ok = false then u.rd (Reg.fbsRxErr n) = satAdd (v.rd (Reg.fbsRxErr n)) 1 ∧ u.keeps v [.regs]
        else if x.got.length + 1 < x.img.drives.length then
          u.port n = { x with got := d :: x.got, stage := x.stage ++ mine } ∧ u.keeps v [.fif]
        else x.got.length + 1 = x.img.drives.length → (u.port n).sent = false ∧ (u.port n).imgAt = some (x.cfgRec.start x.sentK)
          ∧ (u.port n).imgK = x.sentK ∧ (u.port n).axes = x.stage ++ mine := by
  intro x v mine hmode hsent hd hk hlo hhi hgot
  have hexec := exec_feedbackFrame s hup hn hmode hsent hd hk hlo hhi hgot
  change exec (.feedbackFrame n d o) s = .next (
      if o.ok = false then v.inc (Reg.fbsRxErr n)
      else if x.got.length + 1 = x.img.drives.length then (v.setPort n (x.fed d mine)).takeImage n (x.fed d mine).stage o.t
      else v.setPort n (x.fed d mine)).finish at hexec
  have hvlen : n < v.fif.ports.length := by rw [s.at_fif]; omega
  have hvp (m : Nat) : v.port m = s.port m := s.at_port o.t m
  have hvcalm := s.at_calm o.t hcalm
  have hset := v.setPort_of_shown (n := n) (x := x.fed d mine) (by rw [hvp]; rfl)
  have hsk : (v.setPort n (x.fed d mine)).keeps v [.fif] := by
    rw [hset]
    exact (State.keeps_iff _ _ _).mpr (by simp)
  refine ⟨_, hexec, ?_⟩
  split
  next =>
    have hf : (v.inc (Reg.fbsRxErr n)).dev.fall = none := (v.inc_keeps _ 1).calm hvcalm
    exact ⟨by rw [State.finish_rd _ hf, State.rd_inc_same], State.finish_keeps_of hf (v.inc_keeps _ 1)⟩
  next =>
    split
    next hlt =>
      rw [if_neg (by omega)]
      have hf := hsk.calm hvcalm
      refine ⟨?_, State.finish_keeps_of hf hsk⟩
      exact (State.keeps.port (State.finish_keeps_of hf (State.keeps_refl _ [])) n).trans (v.setPort_port_same _ hvlen)
    next =>
      intro heq
      rw [if_pos heq]
      obtain ⟨himage, -, -, hkeeps, -⟩ := (v.setPort n (x.fed d mine)).takeImage_after (x.fed d mine).stage o.t
        (by rw [State.setPort_ports_length]; exact hvlen)
      rw [v.setPort_port_same _ hvlen] at himage
      have hf := State.keeps.calm (hkeeps.after (hsk.widen (m := .fif :: startPieces))) hvcalm
      have hport := State.keeps.port (State.finish_keeps_of hf (State.keeps_refl _ [])) n
      obtain ⟨h1, -, h3, h4, h5⟩ := FPort.fields_of_image himage
      exact ⟨(congrArg FPort.sent hport).trans h1, (congrArg FPort.imgAt hport).trans h3, (congrArg FPort.imgK hport).trans h4,
        (congrArg FPort.axes hport).trans h5⟩

/-- Settles O55: a cycle is sent, judged and its image taken as R447 to R457 say. -/
theorem cycles : Obligations.Cycles := by
  unfold Obligations.Cycles
  exact ⟨fun _ _ s hcalm hup hn hports hwds hmechs => cycle_sends s hcalm hup hn hports hwds hmechs,
    fun _ _ s hcalm hup hn hports => inputImage_taken s hcalm hup hn hports,
    fun _ _ _ s hcalm hup hn hports => feedbackFrame_joined s hcalm hup hn hports⟩

end Sys2Proof.Machine
end

section
/-! SUPPORT. Tally words and the operations that reach them (11_synchronisation.md R263 to R276). -/

namespace Sys2Proof.Machine

set_option Elab.async false

variable {s u v : State} {w : TWord}

/-! ### Words read and written -/

theorem State.wordBad_congr (h : u.psn.get false = s.psn.get false) : u.wordBad w = s.wordBad w := by
  cases w with
  | ctr k n => rfl
  | mem a => simp only [State.wordBad, State.poisoned, h]

theorem State.tword_congr (hmem : ∀ x, u.mem.get 0#8 x = s.mem.get 0#8 x) (hpsn : u.psn.get false = s.psn.get false) : u.tword w = s.tword w := by
  have hword : u.peekN w.addr 8 = s.peekN w.addr 8 := congrArg ofLE (peek_congr fun x _ _ => hmem x)
  rw [State.tword, State.tword, hword, State.wordBad_congr hpsn]

theorem State.tword_lt (s : State) (w : TWord) : (s.tword w).value < 2 ^ 56 ∧ (s.tword w).gen < 128 :=
  ⟨Nat.mod_lt _ (by decide), Nat.mod_lt _ (by decide)⟩

theorem tallyBits_fields (err : Bool) {gen value : Nat} (hv : value < 2 ^ 56) (hg : gen < 128) :
    tallyBits err gen value % 256 ^ 8 % 2 ^ 56 = value ∧ tallyBits err gen value % 256 ^ 8 / 2 ^ 56 % 128 = gen
      ∧ (tallyBits err gen value % 256 ^ 8).testBit 63 = err := by
  rw [Nat.testBit_eq_decide_div_mod_eq]
  unfold tallyBits
  cases err with
  | false => simp only [b2n]; refine ⟨by omega, by omega, by simp; omega⟩
  | true => simp only [b2n]; refine ⟨by omega, by omega, by simp; omega⟩

theorem State.setTword_mem (s : State) (w : TWord) (x : TVal) :
    (s.setTword w x).mem = Machine.poke s.mem w.addr (toLE 8 (tallyBits x.err x.gen x.value)) := by
  rw [State.setTword, State.poke]

theorem State.setTword_psn (s : State) (w : TWord) (x : TVal) : (s.setTword w x).psn = s.psn := by
  rw [State.setTword, State.poke_psn]

/-- A word written reads back, where it is not poisoned. -/
theorem State.setTword_tword {x : TVal} (hx : x.value < 2 ^ 56 ∧ x.gen < 128) (hbad : s.wordBad w = false) : (s.setTword w x).tword w = x := by
  have hb : (s.setTword w x).wordBad w = s.wordBad w := State.wordBad_congr (by rw [State.setTword_psn])
  obtain ⟨hv, hg, he⟩ := tallyBits_fields x.err hx.1 hx.2
  rw [State.tword, State.peekN, State.setTword_mem, peekN_poke_toLE, hb, hbad, Bool.or_false]
  simp only [hv, hg, he]

theorem State.setTword_memAs (s : State) (w : TWord) (x : TVal) : (s.setTword w x).memAs s w.addr 8 := by
  refine ⟨fun i hi => ?_, fun _ _ => by rw [State.setTword_psn]⟩
  rw [State.setTword_mem, get_poke_out]
  rwa [length_toLE]

/-! ### A word reached -/

/-- The domain of a sync counter's home is its core's. -/
theorem domOf_ctr {k n : Nat} (hk : k < 128) (hn : n < 48) : domOf (TWord.ctr k n).addr = some k := by
  have ha : (TWord.ctr k n).addr = 0x10000000000 + k / 64 * 0x100000000 + k % 64 * 0x100000 + 0xD4000 + 8 * n := rfl
  generalize (TWord.ctr k n).addr = a at ha
  unfold domOf
  dsimp only
  rw [if_neg (by rw [not_or]; simp only [dieBase, mailBase]; omega), if_pos (by omega)]
  congr 1
  omega

/-- The addresses that count as HBM lie below the planner dies. -/
theorem lt_dieBase_of_fwTarget {a : Nat} (h : fwTarget a = 0) : a < dieBase 0 := by
  by_contra hge
  have hbase : dieBase 0 = 0x10000000000 := rfl
  unfold fwTarget at h
  rw [if_neg (by omega), if_neg (by omega), if_neg hge] at h
  dsimp only at h
  repeat' split at h
  all_goals exact absurd h (by decide)

theorem domsOf_one (a : Nat) : domsOf a 1 = ((domOf a).toList) := by
  have hmax : max a (a / 0x800000 * 0x800000) = a := by omega
  rw [domsOf, Nat.add_sub_cancel, Nat.sub_self, Nat.zero_add]
  cases h : domOf a with
  | none => simp [List.range_one, hmax, h]
  | some n => simp [List.range_one, hmax, h, List.eraseDups_cons]

/-- A word that a reference names is a sync counter or lies in HBM. -/
theorem State.resolve_word {p tref : Nat} (h : s.resolve p tref = some w) :
    (∃ k n, w = .ctr k n ∧ k < 128 ∧ n < 48) ∨ ∃ a, w = .mem a ∧ fwTarget a = 0 := by
  have hdecl {k n : Nat} (h : s.declared p k n = some w) : ∃ k n, w = .ctr k n ∧ k < 128 ∧ n < 48 := by
    unfold State.declared at h
    split at h
    · split at h
      next hc => exact ⟨k, n, (Option.some.inj h).symm, hc.2⟩
      next => exact absurd h (by simp)
    · exact absurd h (by simp)
  unfold State.resolve at h
  dsimp only at h
  split at h
  · exact absurd h (by simp)
  · split at h
    · exact .inl (hdecl h)
    · split at h
      next hc => exact .inr ⟨_, (Option.some.inj h).symm, hc.2.1⟩
      next => exact absurd h (by simp)
  · split at h
    · exact .inl (hdecl h)
    · exact absurd h (by simp)
  · split at h
    · exact .inl (hdecl h)
    · exact absurd h (by simp)

/-- A request that reaches a tally word wakes a core at most. -/
theorem State.touch_word_keeps {p tref : Nat} (h : s.resolve p tref = some w) : (s.touch w.addr).keeps s [.ktl, .regs] := by
  rw [State.touch, domsOf_one]
  rcases State.resolve_word h with ⟨k, n, rfl, hk, hn⟩ | ⟨a, rfl, ha⟩
  · rw [domOf_ctr hk hn]
    change (s.touchDom k).keeps s _
    have hwake : (s.wakeDom k).keeps s [.ktl, .regs] := by
      unfold State.wakeDom
      split
      · rw [if_neg (by omega)]
        exact (s.setDom_keeps _ _).widen
      · exact s.keeps_refl _
    exact State.keeps_ite ((State.inc_keeps _ _ _).after hwake) (s.keeps_refl _)
  · have hlow : domOf (TWord.mem a).addr = none := if_pos (.inl (lt_dieBase_of_fwTarget ha))
    rw [hlow]
    exact s.keeps_refl _

/-! ### A word that no wait or monitor minds -/

/-- No registered wait of a word ends with the value it has, and no monitor looks at it. -/
def State.unmoved (s : State) (w : TWord) : Prop :=
  (∀ x ∈ s.sync.waits, x.word = w → (s.tword w).err = false ∧ x.holds (s.tword w) = false) ∧ ∀ m ∈ s.sync.mons, m.word ≠ w

/-- An operation on a sync counter counted. -/
def State.opCounted (s : State) (w : TWord) : State := match w with | .ctr k _ => s.add64 (Reg.synOpsLo (k / 64)) 1 | .mem _ => s

theorem State.opCounted_keeps (s : State) (w : TWord) : (s.opCounted w).keeps s [.regs] := by
  cases w with
  | ctr k n => exact s.add64_keeps _ _
  | mem a => exact s.keeps_refl _

theorem State.evalRound_of_unmoved (h : s.unmoved w) : s.evalRound w = (s, false) := by
  have hfold (l : List Wait) (hl : ∀ x ∈ l, (s.tword w).err = false ∧ x.holds (s.tword w) = false) :
      l.foldl (fun (a : State × Bool) x =>
        if (s.tword w).err then (a.1.endWait x true, a.2)
        else if !x.holds (s.tword w) then a
        else if x.op ≠ opTAKE then (a.1.endWait x false, a.2)
        else if a.2 then a
        else ((a.1.setTword w { s.tword w with value := (s.tword w).value - x.operand }).endWait x false, true)) (s, false) = (s, false) := by
    induction l with
    | nil => rfl
    | cons x r ih =>
      obtain ⟨he, hh⟩ := hl x List.mem_cons_self
      rw [List.foldl_cons, if_neg (by rw [he]; decide), if_pos (by rw [hh]; rfl)]
      exact ih fun y hy => hl y (List.mem_cons_of_mem _ hy)
  refine hfold _ fun x hx => ?_
  obtain ⟨hmem, hw⟩ := List.mem_filter.mp hx
  rw [Bool.and_eq_true, beq_iff_eq] at hw
  exact h.1 x hmem hw.1

theorem State.evalWaits_of_unmoved (n : Nat) (h : s.unmoved w) : State.evalWaits n s w = s := by
  cases n with
  | zero => rfl
  | succ n => rw [State.evalWaits, State.evalRound_of_unmoved h]

theorem State.evalMons_of_unmoved (h : s.unmoved w) : s.evalMons w = s := by
  rw [State.evalMons, List.filter_eq_nil_iff.mpr (by simpa using h.2)]
  rfl

theorem State.unmoved_congr (hsync : u.sync = s.sync) (hword : u.tword w = s.tword w) (h : s.unmoved w) : u.unmoved w := by
  rw [State.unmoved, hsync, hword]
  exact h

theorem State.keeps.tword {l : List Piece} (h : u.keeps s l) (w : TWord) (hl : .mem ∉ l := by decide) : u.tword w = s.tword w := by
  obtain ⟨hm, hp⟩ := h.memAs 0 0 hl
  exact State.tword_congr (fun x => hm x (by omega)) (funext fun x => hp x (by omega))

theorem State.applied_of_unmoved (h : s.unmoved w) : s.applied w = s.opCounted w := by
  have hc : (s.opCounted w).unmoved w := State.unmoved_congr (s.opCounted_keeps w .sync (by decide)) ((s.opCounted_keeps w).tword w) h
  change ((State.evalWaits ((s.opCounted w).sync.waits.length + 1) (s.opCounted w) w).evalMons w) = _
  rw [State.evalWaits_of_unmoved _ hc, State.evalMons_of_unmoved hc]

theorem State.unmoved_of_quiet (h : s.quiet w) : s.unmoved w := ⟨fun x hx hw => absurd hw (h.1 x hx), h.2.1⟩

/-! ### What an operation leaves -/

/-- State u is s with word w at x and the registered waits ws. -/
structure State.worded (u s : State) (l : List Piece) (w : TWord) (x : TVal) (ws : List Wait) : Prop where
  value : u.tword w = x
  bytes : u.memAs s w.addr 8
  ctrs : u.sync.ctrs = s.sync.ctrs
  mons : u.sync.mons = s.sync.mons
  chans : u.sync.chans = s.sync.chans
  waits : u.sync.waits = ws
  good : u.wordBad w = s.wordBad w
  keeps : u.keeps s l

variable {l k : List Piece} {x y : TVal} {ws : List Wait}

theorem State.worded_refl (s : State) (l : List Piece) (w : TWord) : s.worded s l w (s.tword w) s.sync.waits :=
  ⟨rfl, s.memAs_refl _ _, rfl, rfl, rfl, rfl, rfl, s.keeps_refl l⟩

/-- Work that leaves memory and the sync units alone leaves the word. -/
theorem State.worded.after (h : v.worded s l w x ws) (hk : u.keeps v k) (hmem : .mem ∉ k := by decide) (hsync : .sync ∉ k := by decide)
    (hsub : ∀ c ∈ k, c ∈ l := by decide) : u.worded s l w x ws := by
  have hs : u.sync = v.sync := hk .sync hsync
  obtain ⟨hm, hp⟩ := hk.memAs 0 0 hmem
  exact ⟨(hk.tword w hmem).trans h.value, State.memAs_trans (hk.memAs _ _ hmem) h.bytes, (congrArg SyncSt.ctrs hs).trans h.ctrs,
    (congrArg SyncSt.mons hs).trans h.mons, (congrArg SyncSt.chans hs).trans h.chans, (congrArg SyncSt.waits hs).trans h.waits,
    (State.wordBad_congr (funext fun x => hp x (by omega))).trans h.good, State.keeps_trans (State.keeps_mono hk hsub) h.keeps⟩

/-- The word written. -/
theorem State.worded.setTword (h : v.worded s l w x ws) (hbad : s.wordBad w = false) (hy : y.value < 2 ^ 56 ∧ y.gen < 128)
    (hl : .mem ∈ l := by decide) : (v.setTword w y).worded s l w y ws := by
  have hk := v.setTword_keeps w y
  have hs : (v.setTword w y).sync = v.sync := hk .sync (by decide)
  exact ⟨State.setTword_tword hy (h.good.trans hbad), State.memAs_trans (v.setTword_memAs w y) h.bytes, (congrArg SyncSt.ctrs hs).trans h.ctrs,
    (congrArg SyncSt.mons hs).trans h.mons, (congrArg SyncSt.chans hs).trans h.chans, (congrArg SyncSt.waits hs).trans h.waits,
    (State.wordBad_congr (by rw [State.setTword_psn])).trans h.good, State.keeps_trans (State.keeps_mono hk (by simpa using hl)) h.keeps⟩

theorem State.worded.finish (h : u.worded s l w x ws) (hf : u.dev.fall = none) : u.finish.worded s l w x ws :=
  h.after (k := []) (State.finish_keeps_of hf (u.keeps_refl [])) (by simp) (by simp) (by simp)

/-- A word whose waits are others' is not moved. -/
theorem State.worded.unmoved (h : u.worded s l w x ws) (hws : ∀ y ∈ ws, y.word = w → x.err = false ∧ y.holds x = false)
    (hmons : ∀ m ∈ s.sync.mons, m.word ≠ w) : u.unmoved w := by
  rw [State.unmoved, h.waits, h.value, h.mons]
  exact ⟨hws, hmons⟩

end Sys2Proof.Machine
end

section
/-! SUPPORT. The operations on a tally word that nothing refuses (11_synchronisation.md R265 to R276). -/

namespace Sys2Proof.Machine

set_option Elab.async false

variable {s u v : State} {w : TWord} {r : TallyIn} {op : Nat}

/-! ### The operation at its word -/

/-- A READ at its word. -/
def State.tallyRead (s : State) (w : TWord) (i : Issuer) : State :=
  { (s.applied w).tallyDone i (tallyBits (s.tword w).err (s.tword w).gen (s.tword w).value) with
    compl := some { data := toLE 8 (tallyBits (s.tword w).err (s.tword w).gen (s.tword w).value) } }

/-- The wait that an operation makes. -/
def State.waitOf (s : State) (op : Nat) (r : TallyIn) (w : TWord) : Wait :=
  { issuer := r.issuer, part := r.part, tref := r.tref, word := w, op, operand := r.operand, since := s.time, cls := r.cls }

/-- An operation at its word. -/
def State.tallyRun (s : State) (op : Nat) (r : TallyIn) (w : TWord) : State :=
  if op = opREAD then s.tallyRead w r.issuer
  else if op = opADD then (s.tallyAdd w r.part r.operand).tallyDone r.issuer 0
  else if op = opSUB then (s.tallySub w r.part r.operand).tallyDone r.issuer 0
  else s.tallyWait (s.waitOf op r w)

theorem State.permitted_congr (h : u.sync = s.sync) (op operand : Nat) : u.permitted w op operand = s.permitted w op operand := by
  have hctr : u.ctrOf w = s.ctrOf w := by
    cases w with
    | ctr k n => rw [State.ctrOf, State.ctrOf, h]
    | mem a => rfl
  rw [State.permitted, State.permitted, hctr]

theorem State.tallyAllowed_congr (h : u.loader = s.loader) (p cls op : Nat) : u.tallyAllowed p cls w op = s.tallyAllowed p cls w op := by
  cases w with
  | ctr k n => rfl
  | mem a => rw [State.tallyAllowed, State.tallyAllowed, State.inS, State.inS, State.cfg, State.cfg, h]

theorem State.keeps.wordBad {l : List Piece} (h : u.keeps s l) (w : TWord) (hl : .mem ∉ l := by decide) : u.wordBad w = s.wordBad w := by
  obtain ⟨-, hp⟩ := h.memAs 0 0 hl
  exact State.wordBad_congr (funext fun x => hp x (by omega))

/-- An operation that nothing refuses reaches its word. -/
theorem State.tally_of_ok (h : s.tallyOk op r w) : s.tally op r = (s.touch w.addr).tallyRun op r w := by
  obtain ⟨-, -, -, hres, hperm, hwaits, hallow, hbad⟩ := h
  have ht := State.touch_word_keeps hres
  have hp := State.permitted_congr (w := w) (ht .sync (by decide)) op r.operand
  have ha := State.tallyAllowed_congr (w := w) (ht .loader (by decide)) r.part r.cls op
  have hb := ht.wordBad w
  unfold State.tally
  rw [hres]
  dsimp only
  generalize s.touch w.addr = t at ht hp ha hb
  rw [if_neg (by rw [hp, hperm]; rcases hwaits with h | h <;> simp [h]), if_neg (by rw [ha, hallow]; decide), if_neg (by rw [hb, hbad]; decide)]
  rfl

theorem State.tallyErr_worded {l : List Piece} {x : TVal} {ws : List Wait} (h : v.worded s l w x ws) (hbad : s.wordBad w = false) (p reg : Nat)
    (hl : Piece.mem ∈ l ∧ ∀ c ∈ [Piece.regs, Piece.ints], c ∈ l := by decide) : (v.tallyErr w p reg).worded s l w { x with err := true } ws := by
  have hx : x.value < 2 ^ 56 ∧ x.gen < 128 := by
    rw [← h.value]
    exact v.tword_lt w
  have hset := (h.setTword (y := { x with err := true }) hbad hx hl.1).after (State.inc_keeps _ reg 1) (hsub := by simpa using hl.2 _ (by simp))
  unfold State.tallyErr
  rw [h.value]
  dsimp only
  split
  · exact hset.after (State.raiseP_keeps _ _ _) (hsub := by simpa using hl.2)
  · exact hset

section
variable {l : List Piece} {x : TVal} {ws : List Wait}

theorem State.worded.bounded (h : v.worded s l w x ws) : x.value < 2 ^ 56 ∧ x.gen < 128 := by
  rw [← h.value]
  exact v.tword_lt w

/-- What follows an operation that moves no wait of its word. -/
theorem State.worded.applied (h : v.worded s l w x ws) (hws : ∀ y ∈ ws, y.word = w → x.err = false ∧ y.holds x = false)
    (hmons : ∀ m ∈ s.sync.mons, m.word ≠ w) (hl : .regs ∈ l := by decide) : (v.applied w).worded s l w x ws := by
  rw [State.applied_of_unmoved (h.unmoved hws hmons)]
  exact h.after (v.opCounted_keeps w) (hsub := by simpa using hl)

/-- ADD of a word that no wait, monitor or channel looks at. -/
theorem State.worded.tallyAdd (h : v.worded s l w x ws) (hbad : s.wordBad w = false) (hws : ∀ y ∈ ws, y.word ≠ w)
    (hmons : ∀ m ∈ s.sync.mons, m.word ≠ w) (hchans : ∀ c ∈ s.sync.chans, c.p ≠ w ∧ c.c ≠ w) (p n : Nat)
    (hl : Piece.mem ∈ l ∧ ∀ c ∈ [Piece.regs, Piece.ints], c ∈ l := by decide) :
    (v.tallyAdd w p n).worded s l w (if 2 ^ 56 ≤ x.value + n then { x with err := true } else { x with value := x.value + n }) ws := by
  have hregs : Piece.regs ∈ l := hl.2 _ (by simp)
  unfold State.tallyAdd
  rw [h.value]
  dsimp only
  split
  next hover => exact (State.tallyErr_worded h hbad p _ hl).applied (fun y hy hw => absurd hw (hws y hy)) hmons hregs
  next hfit =>
    have hset := h.setTword (y := { x with value := x.value + n }) hbad ⟨by dsimp only; omega, h.bounded.2⟩ hl.1
    have hbroken : (v.setTword w { x with value := x.value + n }).broken w = [] := by
      refine List.filter_eq_nil_iff.mpr fun c hc => ?_
      rw [hset.chans] at hc
      obtain ⟨hp, hcc⟩ := hchans c hc
      simp [hp, hcc]
    rw [hbroken]
    exact hset.applied (fun y hy hw => absurd hw (hws y hy)) hmons hregs

/-- SUB of a word that no wait or monitor looks at. -/
theorem State.worded.tallySub (h : v.worded s l w x ws) (hbad : s.wordBad w = false) (hws : ∀ y ∈ ws, y.word ≠ w)
    (hmons : ∀ m ∈ s.sync.mons, m.word ≠ w) (p n : Nat) (hl : Piece.mem ∈ l ∧ ∀ c ∈ [Piece.regs, Piece.ints], c ∈ l := by decide) :
    (v.tallySub w p n).worded s l w (if x.value < n then { x with err := true } else { x with value := x.value - n }) ws := by
  have hregs : Piece.regs ∈ l := hl.2 _ (by simp)
  unfold State.tallySub
  rw [h.value]
  dsimp only
  split
  next => exact (State.tallyErr_worded h hbad p _ hl).applied (fun y hy hw => absurd hw (hws y hy)) hmons hregs
  next =>
    have hbound := h.bounded
    exact (h.setTword (y := { x with value := x.value - n }) hbad ⟨by dsimp only; omega, hbound.2⟩ hl.1).applied
      (fun y hy hw => absurd hw (hws y hy)) hmons hregs

/-- A wait registered. -/
theorem State.worded.register (h : v.worded s l w x ws) (y : Wait) (hl : Piece.cores ∈ l ∧ .sync ∈ l := by decide) :
    ∃ b, (v.register y).worded s l w x (ws ++ [{ y with polled := b }]) := by
  unfold State.register
  extract_lets used polled src z
  have hz : z.worded s l w x (ws ++ [{ y with polled }]) := by
    have hk : z.keeps v [.sync] := v.setSync_keeps _
    obtain ⟨-, hp⟩ := hk.memAs 0 0
    exact ⟨(hk.tword w).trans h.value, State.memAs_trans (hk.memAs _ _) h.bytes, h.ctrs, h.mons, h.chans,
      congrArg (· ++ [{ y with polled }]) h.waits, (hk.wordBad w).trans h.good, State.keeps_trans (State.keeps_mono hk (by simpa using hl.2)) h.keeps⟩
  clear_value z
  refine ⟨polled, ?_⟩
  split
  · exact hz.after (z.setCore_keeps _ _) (hsub := by simpa using hl.1)
  · exact hz

end

end Sys2Proof.Machine
end

section
/-! SUPPORT. Tally operations that wait, and the commands (11_synchronisation.md R265 to R276). -/

namespace Sys2Proof.Machine

set_option Elab.async false

variable {s u v : State} {w : TWord} {l : List Piece} {x : TVal} {ws : List Wait}

/-! ### Waits, TAKE and ARRIVE -/

theorem State.worded.tallyDone (h : v.worded s l w x ws) (i : Issuer) (n : Nat)
    (hl : ∀ c ∈ [Piece.hqs, .host, .regs, .ints], c ∈ l := by decide) : (v.tallyDone i n).worded s l w x ws :=
  h.after (v.tallyDone_keeps i n) (hsub := hl)

/-- An operation that ends at once. -/
theorem State.worded.ended (h : v.worded s l w x ws) (hws : ∀ y ∈ ws, y.word ≠ w) (hmons : ∀ m ∈ s.sync.mons, m.word ≠ w) (i : Issuer) (n : Nat)
    (hl : ∀ c ∈ [Piece.hqs, .host, .regs, .ints], c ∈ l := by decide) : ((v.applied w).tallyDone i n).worded s l w x ws :=
  (h.applied (fun y hy hw => absurd hw (hws y hy)) hmons (hl _ (by simp))).tallyDone i n hl

/-- An operation that waits. -/
theorem State.worded.stays (h : v.worded s l w x ws) (hws : ∀ y ∈ ws, y.word ≠ w) (hmons : ∀ m ∈ s.sync.mons, m.word ≠ w) {y : Wait}
    (herr : x.err = false) (hholds : y.holds x = false) (hl : (Piece.cores ∈ l ∧ .sync ∈ l) ∧ .regs ∈ l := by decide) :
    ∃ b, ((v.register y).applied w).worded s l w x (ws ++ [{ y with polled := b }]) := by
  obtain ⟨b, hb⟩ := h.register y hl.1
  refine ⟨b, hb.applied (fun z hz hw => ?_) hmons hl.2⟩
  rcases List.mem_append.mp hz with hz | hz
  · exact absurd hw (hws z hz)
  · rw [List.mem_singleton.mp hz]
    exact ⟨herr, hholds⟩

/-- The frame of a wait's operation. -/
abbrev waitPiecesOf : List Piece := .cores :: tallyPieces

section
variable (h : v.worded s waitPiecesOf w x ws) (hbad : s.wordBad w = false) (hws : ∀ y ∈ ws, y.word ≠ w) (hmons : ∀ m ∈ s.sync.mons, m.word ≠ w)
  {y : Wait} (hy : y.word = w) (herr : x.err = false)
include h hws hmons hy herr

theorem State.worded.tallyWait_of_holds (hop : y.op ≠ opARRIVE ∧ y.op ≠ opTAKE) (hh : y.holds x = true) :
    (v.tallyWait y).worded s waitPiecesOf w x ws := by
  subst hy
  unfold State.tallyWait
  rw [h.value]
  dsimp only
  rw [if_neg hop.1, if_neg (by simp [hop.2]), if_neg (by simp [herr]), if_pos hh]
  exact h.ended hws hmons _ _

theorem State.worded.tallyWait_of_not_holds (hop : y.op ≠ opARRIVE) (hh : y.holds x = false) :
    ∃ b, (v.tallyWait y).worded s waitPiecesOf w x (ws ++ [{ y with polled := b }]) := by
  have htake : ¬(y.op = opTAKE ∧ y.operand ≤ x.value) := by
    rintro ⟨ht, hle⟩
    rw [Wait.holds, if_pos (.inl ht)] at hh
    simp [hle] at hh
  subst hy
  unfold State.tallyWait
  rw [h.value]
  dsimp only
  rw [if_neg hop, if_neg htake, if_neg (by simp [herr]), if_neg (by simp [hh])]
  exact h.stays hws hmons herr hh

include hbad

omit herr in
theorem State.worded.tallyWait_take (hop : y.op = opTAKE) (hle : y.operand ≤ x.value) :
    (v.tallyWait y).worded s waitPiecesOf w { x with value := x.value - y.operand } ws := by
  have hb := h.bounded
  subst hy
  unfold State.tallyWait
  rw [h.value]
  dsimp only
  rw [if_neg (by rw [hop]; decide), if_pos ⟨hop, hle⟩]
  exact (h.setTword (y := { x with value := x.value - y.operand }) hbad ⟨by dsimp only; omega, hb.2⟩).ended hws hmons _ _

theorem State.worded.tallyWait_arrive {c : Ctr} (hop : y.op = opARRIVE) (hc : v.ctrOf w = some c) :
    (x.value + 1 = c.parties → (v.tallyWait y).worded s waitPiecesOf w { x with value := 0, gen := (x.gen + 1) % 128 } ws)
      ∧ (x.value + 1 ≠ c.parties → ∃ b, (v.tallyWait y).worded s waitPiecesOf w { x with value := (x.value + 1) % 2 ^ 56 }
          (ws ++ [{ y with gen := x.gen, polled := b }])) := by
  have hb := h.bounded
  subst hy
  unfold State.tallyWait
  rw [h.value, hc]
  dsimp only
  rw [if_pos hop]
  refine ⟨fun hlast => ?_, fun hmore => ?_⟩
  · rw [if_pos hlast]
    exact (h.setTword (y := { x with value := 0, gen := (x.gen + 1) % 128 }) hbad ⟨by simp, Nat.mod_lt _ (by decide)⟩).ended hws hmons _ _
  · rw [if_neg hmore]
    refine (h.setTword (y := { x with value := (x.value + 1) % 2 ^ 56 }) hbad ⟨Nat.mod_lt _ (by decide), hb.2⟩).stays hws hmons herr ?_
    rw [Wait.holds, if_neg (by simp only [hop]; decide), if_neg (by simp only [hop]; decide)]
    simp

end

/-! ### The commands -/

section
variable {r : TallyIn} {op : Nat}

theorem State.tallyEvent_of_ok (h : (s.at r.t).tallyOk op r w) : s.tallyEvent op r = ((s.at r.t).touch w.addr).tallyRun op r w := by
  rw [State.tallyEvent, if_pos ⟨h.1, by rw [h.2.1]; rfl, by rw [h.2.2.1]; rfl⟩, State.tally_of_ok h]

/-- A word reached holds what it held. -/
theorem State.touch_worded {p tref : Nat} (s : State) (hres : s.resolve p tref = some w) (l : List Piece)
    (hl : ∀ c ∈ [Piece.ktl, .regs], c ∈ l := by decide) : (s.touch w.addr).worded s l w (s.tword w) s.sync.waits :=
  (s.worded_refl l w).after (State.touch_word_keeps hres) (hsub := hl)

theorem State.worded.kept (h : u.worded v l w x ws) : u.wordAs v w ∧ u.keeps v l := ⟨⟨h.ctrs, h.bytes⟩, h.keeps⟩

theorem State.worded.finish_of (h : u.worded (s.at r.t) l w x ws) (hcalm : s.calm) (hl : .dev ∉ l := by decide) :
    u.finish.worded (s.at r.t) l w x ws := h.finish (h.keeps.calm (s.at_calm r.t hcalm) hl)

/-- READ answers the word. -/
theorem read_answers (hcalm : s.calm) (hq : (s.at r.t).quiet w) (h : (s.at r.t).tallyOk opREAD r w) :
    ∃ u, exec (.read r) s = .next u ∧ u.tword w = (s.at r.t).tword w ∧ u.sync = s.sync
        ∧ u.compl = some { data := toLE 8 (tallyBits ((s.at r.t).tword w).err ((s.at r.t).tword w).gen ((s.at r.t).tword w).value) }
        ∧ u.memAs (s.at r.t) 0 0 ∧ u.keeps (s.at r.t) (.compl :: tallyPieces) := by
  have hcalmv := s.at_calm r.t hcalm
  have hsync : (s.at r.t).sync = s.sync := s.at_sync r.t
  have hexec : exec (.read r) s = .next (s.tallyEvent opREAD r).finish := rfl
  rw [State.tallyEvent_of_ok h, State.tallyRun, if_pos rfl] at hexec
  generalize s.at r.t = v at *
  have ht := State.touch_word_keeps h.2.2.2.1
  have hunmoved : (v.touch w.addr).unmoved w := State.unmoved_congr (ht .sync (by decide)) (ht.tword w) (State.unmoved_of_quiet hq)
  rw [State.tallyRead, State.applied_of_unmoved hunmoved, ht.tword w] at hexec
  generalize hx : v.tword w = x at *
  have hdone := (((v.touch w.addr).opCounted w).tallyDone_keeps r.issuer (tallyBits x.err x.gen x.value)).after
    (((v.touch w.addr).opCounted_keeps w).after (m := [.hqs, .host, .regs, .ints, .ktl]) ht.widen)
  generalize ((v.touch w.addr).opCounted w).tallyDone r.issuer (tallyBits x.err x.gen x.value) = z at hexec hdone
  generalize toLE 8 (tallyBits x.err x.gen x.value) = d at *
  have hc : ({ z with compl := some { data := d } } : State).keeps v [.compl, .hqs, .host, .regs, .ints, .ktl] :=
    ((State.keeps_iff _ _ _).mpr (by simp) : State.keeps _ z [.compl]).after hdone.widen
  have hf : ({ z with compl := some { data := d } } : State).dev.fall = none := hc.calm hcalmv
  have hfin := State.finish_keeps_of hf hc
  refine ⟨_, hexec, ?_, ?_, ?_, ?_, ?_⟩
  · exact (hfin.tword w).trans hx
  · exact (hfin .sync (by decide)).trans hsync
  · exact State.finish_compl _ hf
  · exact hfin.memAs _ _
  · exact hfin.widen

theorem exec_tally_of_ok {c : Instr} (hexec : exec c s = .next (s.tallyEvent op r).finish) (h : (s.at r.t).tallyOk op r w) :
    exec c s = .next (((s.at r.t).touch w.addr).tallyRun op r w).finish := by
  rw [hexec, State.tallyEvent_of_ok h]

/-- The registered waits after an operation that waits. -/
theorem State.worded.waits_of {y : Wait} {b : Bool} (h : u.worded v l w x (s.sync.waits ++ [{ y with polled := b }])) :
    ∃ z, u.sync.waits = s.sync.waits ++ [z] ∧ z.issuer = y.issuer ∧ z.part = y.part ∧ z.word = y.word ∧ z.op = y.op ∧ z.operand = y.operand
      ∧ z.gen = y.gen ∧ z.since = y.since := ⟨_, h.waits, rfl, rfl, rfl, rfl, rfl, rfl, rfl⟩

end

end Sys2Proof.Machine
end

section
/-! SUPPORT. The tally operations of R265 as commands (11_synchronisation.md). -/

namespace Sys2Proof.Machine

set_option Elab.async false

variable {s u v : State} {w : TWord} {r : TallyIn} {op : Nat}

/-- ADD at its word (R265, R268). -/
theorem State.tally_add (h : v.tallyOk opADD r w) (hq : v.quiet w) : (v.tally opADD r).worded v tallyPieces w
    (if 2 ^ 56 ≤ (v.tword w).value + r.operand then { v.tword w with err := true } else { v.tword w with value := (v.tword w).value + r.operand })
    v.sync.waits := by
  rw [State.tally_of_ok h, State.tallyRun, if_neg (by decide), if_pos rfl]
  obtain ⟨-, -, -, hres, -, -, -, hbad⟩ := h
  exact ((v.touch_worded hres tallyPieces).tallyAdd hbad hq.1 hq.2.1 hq.2.2 r.part r.operand).tallyDone r.issuer 0

/-- SUB at its word. -/
theorem State.tally_sub (h : v.tallyOk opSUB r w) (hq : v.quiet w) : (v.tally opSUB r).worded v tallyPieces w
    (if (v.tword w).value < r.operand then { v.tword w with err := true } else { v.tword w with value := (v.tword w).value - r.operand })
    v.sync.waits := by
  rw [State.tally_of_ok h, State.tallyRun, if_neg (by decide), if_neg (by decide), if_pos rfl]
  obtain ⟨-, -, -, hres, -, -, -, hbad⟩ := h
  exact ((v.touch_worded hres tallyPieces).tallySub hbad hq.1 hq.2.1 r.part r.operand).tallyDone r.issuer 0

/-- The wait that an operation registers. -/
def State.waits (u s : State) (op gen : Nat) (r : TallyIn) (w : TWord) : Prop :=
  ∃ y, u.sync.waits = s.sync.waits ++ [y] ∧ y.issuer = r.issuer ∧ y.part = r.part
    ∧ y.word = w ∧ y.op = op ∧ y.operand = r.operand ∧ y.gen = gen ∧ y.since = s.time

section
variable (h : v.tallyOk op r w) (hq : v.quiet w) (herr : (v.tword w).err = false)
include h

theorem State.tally_waits (hop : op ≠ opREAD ∧ op ≠ opADD ∧ op ≠ opSUB) : v.tally op r = (v.touch w.addr).tallyWait ((v.touch w.addr).waitOf op r w) := by
  rw [State.tally_of_ok h, State.tallyRun, if_neg hop.1, if_neg hop.2.1, if_neg hop.2.2]

theorem State.touch_time : (v.touch w.addr).time = v.time := State.touch_word_keeps h.2.2.2.1 .time (by decide)

include hq herr

/-- WAIT_GE, WAIT_EQ, and a TAKE that waits, at their word (R265, R269). -/
theorem State.tally_wait_holds (hop : op = opWAITGE ∨ op = opWAITEQ) (hh : ((v.touch w.addr).waitOf op r w).holds (v.tword w) = true) :
    (v.tally op r).worded v waitPiecesOf w (v.tword w) v.sync.waits := by
  rw [State.tally_waits h (by rcases hop with rfl | rfl <;> decide)]
  exact (v.touch_worded h.2.2.2.1 waitPiecesOf).tallyWait_of_holds hq.1 hq.2.1 rfl herr
    (show op ≠ opARRIVE ∧ op ≠ opTAKE by rcases hop with rfl | rfl <;> decide) hh

theorem State.tally_wait_stays (hop : op = opTAKE ∨ op = opWAITGE ∨ op = opWAITEQ) (hh : ((v.touch w.addr).waitOf op r w).holds (v.tword w) = false) :
    ∃ ws, (v.tally op r).worded v waitPiecesOf w (v.tword w) ws ∧ (v.tally op r).waits v op 0 r w := by
  rw [State.tally_waits h (by rcases hop with rfl | rfl | rfl <;> decide)]
  obtain ⟨b, hb⟩ := (v.touch_worded h.2.2.2.1 waitPiecesOf).tallyWait_of_not_holds hq.1 hq.2.1 (y := (v.touch w.addr).waitOf op r w) rfl herr
    (show op ≠ opARRIVE by rcases hop with rfl | rfl | rfl <;> decide) hh
  exact ⟨_, hb, _, hb.waits, rfl, rfl, rfl, rfl, rfl, rfl, State.touch_time h⟩

end

theorem State.tally_take (h : v.tallyOk opTAKE r w) (hq : v.quiet w) (hle : r.operand ≤ (v.tword w).value) :
    (v.tally opTAKE r).worded v waitPiecesOf w { v.tword w with value := (v.tword w).value - r.operand } v.sync.waits := by
  rw [State.tally_waits h (by decide)]
  exact (v.touch_worded h.2.2.2.1 waitPiecesOf).tallyWait_take h.2.2.2.2.2.2.2 hq.1 hq.2.1 (y := (v.touch w.addr).waitOf opTAKE r w) rfl rfl hle

theorem State.tally_arrive {c : Ctr} (h : v.tallyOk opARRIVE r w) (hq : v.quiet w) (herr : (v.tword w).err = false) (hc : v.ctrOf w = some c) :
    ((v.tword w).value + 1 = c.parties →
        (v.tally opARRIVE r).worded v waitPiecesOf w { v.tword w with value := 0, gen := ((v.tword w).gen + 1) % 128 } v.sync.waits)
      ∧ ((v.tword w).value + 1 ≠ c.parties →
        ∃ ws, (v.tally opARRIVE r).worded v waitPiecesOf w { v.tword w with value := ((v.tword w).value + 1) % 2 ^ 56 } ws
          ∧ (v.tally opARRIVE r).waits v opARRIVE (v.tword w).gen r w) := by
  have hres := h.2.2.2.1
  have hsync : (v.touch w.addr).sync = v.sync := State.touch_word_keeps hres .sync (by decide)
  have hctr : (v.touch w.addr).ctrOf w = some c := by
    rw [← hc]
    cases w with
    | ctr k n => rw [State.ctrOf, State.ctrOf, hsync]
    | mem a => rfl
  rw [State.tally_waits h (by decide)]
  obtain ⟨hlast, hmore⟩ := (v.touch_worded hres waitPiecesOf).tallyWait_arrive h.2.2.2.2.2.2.2 hq.1 hq.2.1
    (y := (v.touch w.addr).waitOf opARRIVE r w) rfl herr rfl hctr
  refine ⟨hlast, fun hne => ?_⟩
  obtain ⟨b, hb⟩ := hmore hne
  exact ⟨_, hb, _, hb.waits, rfl, rfl, rfl, rfl, rfl, rfl, State.touch_time h⟩

/-! ### The commands -/

/-- What a command whose operation leaves such a word leaves. -/
theorem State.worded.command {l : List Piece} {x : TVal} {ws : List Wait} (h : ((s.at r.t).tally op r).worded (s.at r.t) l w x ws)
    (c : Instr) (hcalm : s.calm) (hok : (s.at r.t).tallyOk op r w) (hexec : exec c s = .next (s.tallyEvent op r).finish)
    (hl : l = tallyPieces ∨ l = waitPiecesOf) :
    ∃ u, exec c s = .next u ∧ (u.wordAs (s.at r.t) w ∧ u.keeps (s.at r.t) waitPiecesOf) ∧ u.tword w = x ∧ u.sync.waits = ws := by
  rw [State.tallyEvent_of_ok hok, ← State.tally_of_ok hok] at hexec
  have hf : ((s.at r.t).tally op r).dev.fall = none := h.keeps.calm (s.at_calm r.t hcalm) (by rcases hl with rfl | rfl <;> decide)
  have hfin := h.finish hf
  exact ⟨_, hexec, ⟨⟨hfin.ctrs, hfin.bytes⟩, State.keeps_mono hfin.keeps (by rcases hl with rfl | rfl <;> decide)⟩, hfin.value, hfin.waits⟩

/-- Settles O36: every operation changes its word as R265 and R268 say, and registers where its condition does not hold. -/
theorem tallyOperations : Obligations.TallyOperations := by
  unfold Obligations.TallyOperations
  intro r s w hcalm hq v x waits kept
  have hsync : v.sync = s.sync := s.at_sync r.t
  have hregister (op gen : Nat) (u : State) (h : (v.tally op r).waits v op gen r w) (hu : u.sync.waits = (v.tally op r).sync.waits)
      (hgen : gen = if op = opARRIVE then x.gen else 0) : waits u op := by
    obtain ⟨y, hy, h1, h2, h3, h4, h5, h6, h7⟩ := h
    exact ⟨y, by rw [hu, hy, hsync], h1, h2, h3, h4, h5, h6.trans hgen, h7⟩
  refine ⟨fun h => read_answers hcalm hq h, fun h => ?_, fun h => ?_, fun h herr => ?_, fun h herr => ?_, fun h herr => ?_, fun h herr c hc => ?_⟩
  · obtain ⟨u, hu, hk, hx, hws⟩ := (State.tally_add h hq).command (.add r) hcalm h rfl (.inl rfl)
    exact ⟨u, hu, by rw [hws, hsync], hk, hx⟩
  · obtain ⟨u, hu, hk, hx, hws⟩ := (State.tally_sub h hq).command (.sub r) hcalm h rfl (.inl rfl)
    exact ⟨u, hu, by rw [hws, hsync], hk, hx⟩
  · by_cases hle : r.operand ≤ x.value
    · obtain ⟨u, hu, hk, hx, hws⟩ := (State.tally_take h hq hle).command (.take r) hcalm h rfl (.inr rfl)
      exact ⟨u, hu, hk, by rw [if_pos hle]; exact ⟨hx, by rw [hws, hsync]⟩⟩
    · obtain ⟨ws, hw, hreg⟩ := State.tally_wait_stays h hq herr (.inl rfl) (by
        rw [Wait.holds, if_pos (.inl rfl)]; exact decide_eq_false hle)
      obtain ⟨u, hu, hk, hx, hws⟩ := hw.command (.take r) hcalm h rfl (.inr rfl)
      exact ⟨u, hu, hk, by rw [if_neg hle]; exact ⟨hx, hregister _ _ u hreg (hws.trans hw.waits.symm) rfl⟩⟩
  · by_cases hle : r.operand ≤ x.value
    · obtain ⟨u, hu, hk, hx, hws⟩ := (State.tally_wait_holds h hq herr (.inl rfl) (by
        rw [Wait.holds, if_pos (.inr rfl)]; exact decide_eq_true hle)).command (.waitGe r) hcalm h rfl (.inr rfl)
      exact ⟨u, hu, hk, hx, by rw [if_pos hle, hws, hsync]⟩
    · obtain ⟨ws, hw, hreg⟩ := State.tally_wait_stays h hq herr (.inr (.inl rfl)) (by
        rw [Wait.holds, if_pos (.inr rfl)]; exact decide_eq_false hle)
      obtain ⟨u, hu, hk, hx, hws⟩ := hw.command (.waitGe r) hcalm h rfl (.inr rfl)
      exact ⟨u, hu, hk, hx, by rw [if_neg hle]; exact hregister _ _ u hreg (hws.trans hw.waits.symm) rfl⟩
  · have hholds : ((v.touch w.addr).waitOf opWAITEQ r w).holds x = (x.value == r.operand) := by
      unfold Wait.holds
      exact (if_neg (show ¬(opWAITEQ = opTAKE ∨ opWAITEQ = opWAITGE) by decide)).trans (if_pos rfl)
    by_cases heq : x.value = r.operand
    · obtain ⟨u, hu, hk, hx, hws⟩ := (State.tally_wait_holds h hq herr (.inr rfl) (hholds.trans (by simpa using heq))).command (.waitEq r) hcalm h rfl (.inr rfl)
      exact ⟨u, hu, hk, hx, by rw [if_pos heq, hws, hsync]⟩
    · obtain ⟨ws, hw, hreg⟩ := State.tally_wait_stays h hq herr (.inr (.inr rfl)) (hholds.trans (by simpa using heq))
      obtain ⟨u, hu, hk, hx, hws⟩ := hw.command (.waitEq r) hcalm h rfl (.inr rfl)
      exact ⟨u, hu, hk, hx, by rw [if_neg heq]; exact hregister _ _ u hreg (hws.trans hw.waits.symm) rfl⟩
  · obtain ⟨hlast, hmore⟩ := State.tally_arrive h hq herr hc
    by_cases heq : x.value + 1 = c.parties
    · obtain ⟨u, hu, hk, hx, hws⟩ := (hlast heq).command (.arrive r) hcalm h rfl (.inr rfl)
      exact ⟨u, hu, hk, by rw [if_pos heq]; exact ⟨hx, by rw [hws, hsync]⟩⟩
    · obtain ⟨ws, hw, hreg⟩ := hmore heq
      obtain ⟨u, hu, hk, hx, hws⟩ := hw.command (.arrive r) hcalm h rfl (.inr rfl)
      exact ⟨u, hu, hk, by rw [if_neg heq]; exact ⟨hx, hregister _ _ u hreg (hws.trans hw.waits.symm) rfl⟩⟩

end Sys2Proof.Machine
end

section
/-! SUPPORT. Events that count against a unit (16_fault_handling.md R369 to R373). -/

namespace Sys2Proof.Machine

set_option Elab.async false

variable (s : State)

/-! ### A counted event -/

/-- The record of an event with what was done and its count. -/
def eventRec (e : EventIn) (ref act n : Nat) : ErrRec :=
  { kind := e.kind, act, tag := e.tag, unit := if e.unit = noUnit then noUnit else e.unit + e.sub * 4096, cls := e.cls,
    count := n, time := tick e.t, aux := e.aux, op := e.op, addr := e.addr, synd := e.synd, ref }

/-- An event, of any kind but UNATTRIB, is the last of a lasting fault. -/
def State.lasts (s : State) (k : FKey) (e : EventIn) : Bool :=
  (s.count k e.kind (tick e.t)).2.2
    && (e.kind == ekCHK_FAIL || decide ((s.cfg.faults.limits e.kind).1 ≤ (s.count k e.kind (tick e.t)).2.1))
    && decide ((s.count k e.kind (tick e.t)).1.phase ≠ .isolate)

/-- An event in its fault state, or coalesced with another of its frame. -/
def State.tallied (s : State) (k : FKey) (e : EventIn) : State :=
  if (s.count k e.kind (tick e.t)).2.2 then s.setFault (s.count k e.kind (tick e.t)).1 else s.inc Reg.errCoalesced

/-- A counted event with its record. -/
def State.recorded (s : State) (k : FKey) (e : EventIn) (ref : Nat) : Nat × State :=
  (s.tallied k e).record (eventRec e ref (if s.lasts k e then 6 else actOf e.kind) (s.count k e.kind (tick e.t)).2.1)

/-- What a counted event does. -/
def State.countedEvent (s : State) (k : FKey) (e : EventIn) (ref : Nat) : State :=
  if s.lasts k e then (s.recorded k e ref).2.lasting k (s.recorded k e ref).1 (tick e.t)
  else if (s.count k e.kind (tick e.t)).2.2 then (s.recorded k e ref).2.inc Reg.errTransient else (s.recorded k e ref).2

/-- An event that counts and is no fault of a planner die. -/
theorem State.event_of_key {e : EventIn} {k : FKey} (ref : Nat) (hkey : countKey e = some k) (hun : e.kind ≠ ekUNATTRIB)
    (hdie : ¬(e.kind = ekLINK_DOWN ∨ (e.kind = ekECC_UE ∧ e.unit ≠ noUnit ∧ e.unit % 512 = 104))) :
    s.event e ref = if k.gone s then s.log (eventRec e ref (actOf e.kind) 0) else s.countedEvent k e ref := by
  have hkey' : countKey { e with t := tick e.t } = some k := hkey
  unfold State.event
  dsimp only
  rw [if_neg hdie, if_neg hun]
  simp only [hkey']
  split
  · rfl
  · rfl

/-! ### What a counted event leaves -/

theorem State.tallied_keeps (k : FKey) (e : EventIn) : (s.tallied k e).keeps s [.errs, .regs] :=
  State.keeps_ite (s.setFault_keeps _).widen (s.inc_keeps _ _).widen

theorem State.recorded_keeps (k : FKey) (e : EventIn) (ref : Nat) : (s.recorded k e ref).2.keeps s [.fresh, .errs, .mem, .regs, .ints] :=
  ((s.tallied k e).record_keeps _).after (s.tallied_keeps k e).widen

theorem State.tallied_aside (k : FKey) (e : EventIn) : (s.tallied k e).aside s :=
  State.aside_ite (s.setFault_keeps _).aside (s.inc_aside _ (by decide))

theorem State.recorded_aside (k : FKey) (e : EventIn) (ref : Nat) : (s.recorded k e ref).2.aside s :=
  ((s.tallied k e).log_aside _).trans (s.tallied_aside k e)

/-- A unit that is no core and has no retirement of its own. -/
theorem State.isolate_keeps_of_far {u : Nat} (ref t : Nat) (h : 64 ≤ u % 512 ∧ u % 512 ≤ 88) : (s.isolate u ref t).keeps s [.regs, .errs, .rots] := by
  have hslices (x : FaultSt) (r : List Rotation) : ({ (s.inc Reg.errLasting).setFault x with rots := r } : State).keeps s [.regs, .errs, .rots] :=
    (State.setRots_keeps _ _).after ((State.setFault_keeps _ _).after (m := [.regs, .errs, .rots]) (s.inc_keeps _ _).widen)
  unfold State.isolate
  dsimp only
  rw [if_pos h.2, if_neg (by omega)]
  exact hslices _ _

theorem State.isolate_keeps_of_plain {u : Nat} (ref t : Nat) (h : 104 ≤ u % 512) : (s.isolate u ref t).keeps s [.regs] := by
  unfold State.isolate
  dsimp only
  rw [if_neg (by omega), if_neg (by omega)]
  exact s.inc_keeps _ _

/-- What an event of a unit may change: the rotations where the unit has slices. -/
def eventPieces : List Piece := [.fresh, .errs, .mem, .regs, .ints, .rots]

theorem State.event_unit_keeps {e : EventIn} {u b : Nat} (ref : Nat) (hkey : countKey e = some (.unit u b)) (hun : e.kind ≠ ekUNATTRIB)
    (hdie : ¬(e.kind = ekLINK_DOWN ∨ (e.kind = ekECC_UE ∧ e.unit ≠ noUnit ∧ e.unit % 512 = 104))) {l : List Piece}
    (hiso : ∀ (v : State) (ref t : Nat), (v.isolate u ref t).keeps v l) (hl : ∀ c ∈ [Piece.fresh, .errs, .mem, .regs, .ints], c ∈ l := by decide) :
    (s.event e ref).keeps s l := by
  rw [s.event_of_key ref hkey hun hdie]
  have hrec : (s.recorded (.unit u b) e ref).2.keeps s l := State.keeps_mono (s.recorded_keeps _ e ref) hl
  refine State.keeps_ite (State.keeps_mono (s.log_keeps _) hl) (State.keeps_ite ?_ (State.keeps_ite ?_ hrec))
  · exact State.keeps_trans (hiso _ _ _) hrec
  · exact State.keeps_trans (State.keeps_mono (State.inc_keeps _ _ _) (by simpa using hl _ (by simp))) hrec

theorem State.event_unit_aside {e : EventIn} {u b : Nat} (ref : Nat) (hkey : countKey e = some (.unit u b)) (hun : e.kind ≠ ekUNATTRIB)
    (hdie : ¬(e.kind = ekLINK_DOWN ∨ (e.kind = ekECC_UE ∧ e.unit ≠ noUnit ∧ e.unit % 512 = 104))) : (s.event e ref).aside s := by
  rw [s.event_of_key ref hkey hun hdie]
  have hrec := s.recorded_aside (.unit u b) e ref
  exact State.aside_ite (s.log_aside _) (State.aside_ite ((State.isolate_aside _ _ _ _).trans hrec)
    (State.aside_ite ((State.inc_aside _ 1 (by decide)).trans hrec) hrec))

end Sys2Proof.Machine
end

section
/-! SUPPORT. Runs of the Great Arrays and how they end (09_array_operations.md R219 to R224, R240). -/

namespace Sys2Proof.Machine

set_option Elab.async false

variable {s u v : State} {d : Nat} {r y : ARun}

/-! ### Memory at the end of a command -/

theorem State.lookIdle_bytes (s : State) (n : Nat) : (s.lookIdle n).mem = s.mem ∧ (s.lookIdle n).psn = s.psn := by
  unfold State.lookIdle
  dsimp only
  split
  · exact ⟨rfl, rfl⟩
  · split <;> split <;> exact ⟨rfl, rfl⟩

theorem State.settlePair_bytes (s : State) (n : Nat) : (s.settlePair n).mem = s.mem ∧ (s.settlePair n).psn = s.psn := by
  unfold State.settlePair
  dsimp only
  split
  · split <;> exact ⟨rfl, rfl⟩
  · split <;> exact ⟨rfl, rfl⟩

/-- Without a fall-back decision the end of a command leaves memory as it is. -/
theorem State.finish_bytes (h : s.dev.fall = none) : s.finish.mem = s.mem ∧ s.finish.psn = s.psn := by
  have hidle (v : State) (l : List Nat) : (l.foldl State.lookIdle v).mem = v.mem ∧ (l.foldl State.lookIdle v).psn = v.psn :=
    ⟨foldl_field (·.mem) _ (fun v n => (v.lookIdle_bytes n).1) l v, foldl_field (·.psn) _ (fun v n => (v.lookIdle_bytes n).2) l v⟩
  have hwaits (v : State) : v.lookWaits.mem = v.mem ∧ v.lookWaits.psn = v.psn := by
    unfold State.lookWaits
    dsimp only
    split <;> exact ⟨rfl, rfl⟩
  have hrelink (v : State) : v.relink.mem = v.mem ∧ v.relink.psn = v.psn := by
    unfold State.relink
    split <;> exact ⟨rfl, rfl⟩
  have hsettle (v : State) : v.settle.mem = v.mem ∧ v.settle.psn = v.psn :=
    ⟨foldl_field (·.mem) _ (fun v n => (v.settlePair_bytes n).1) _ v, foldl_field (·.psn) _ (fun v n => (v.settlePair_bytes n).2) _ v⟩
  have htaken : s.taken = s := by
    rw [State.taken, h]
  rw [State.finish_eq, htaken]
  exact ⟨(hsettle _).1.trans ((hrelink _).1.trans ((hwaits _).1.trans (hidle _ _).1)),
    (hsettle _).2.trans ((hrelink _).2.trans ((hwaits _).2.trans (hidle _ _).2))⟩

/-! ### Runs -/

theorem State.keeps.runOf {l : List Piece} (h : u.keeps s l) (d p n : Nat) (hl : .arrs ∉ l := by decide) : u.runOf d p n = s.runOf d p n := by
  rw [State.runOf, State.arr, h .arrs hl, State.runOf, State.arr]

theorem State.runOf_fields {p n : Nat} (h : s.runOf d p n = some r) : r.part = p ∧ r.net = n := by
  have := List.find?_some h
  simpa only [Bool.and_eq_true, beq_iff_eq] using this

theorem State.lt_arrs_of_runOf {p n : Nat} (h : s.runOf d p n = some r) : d < s.arrs.length := by
  by_contra hd
  rw [State.runOf, State.arr, List.getD_eq_default _ _ (by omega)] at h
  exact absurd h (by simp)

theorem State.setRun_keeps (s : State) (d : Nat) (r : ARun) : (s.setRun d r).keeps s [.arrs] := s.setArr_keeps _ _

/-- A run replaced is found in its place. -/
theorem State.setRun_runOf {p n : Nat} (h : s.runOf d p n = some y) (hp : r.part = p) (hn : r.net = n) : (s.setRun d r).runOf d p n = some r := by
  have hlen := State.lt_arrs_of_runOf h
  rw [State.runOf, State.setRun, State.setArr_arr_same _ hlen]
  rw [State.runOf] at h
  dsimp only
  generalize (s.arr d).runs = l at h
  induction l with
  | nil => exact absurd h (by simp)
  | cons x l ih =>
    rw [List.map_cons, List.find?_cons]
    by_cases hx : x.part = r.part ∧ x.net = r.net
    · rw [if_pos hx, hp, hn]
      simp
    · have hmiss : (x.part == p && x.net == n) = false := by
        rw [← hp, ← hn]
        simpa using hx
      rw [if_neg hx, hmiss]
      rw [List.find?_cons, hmiss] at h
      exact ih h

theorem State.setRun_arr_of_ne {e : Nat} (s : State) (r : ARun) (h : e ≠ d) : (s.setRun d r).arr e = s.arr e := State.setArr_arr_of_ne _ h

/-! ### The end of a run -/

/-- The status of a network slot's last run. -/
def State.statusOf (s : State) (d p n : Nat) : Option Nat := ((s.arr d).stat p n).map (·.1)

theorem State.keeps.statusOf {l : List Piece} (h : u.keeps s l) (d p n : Nat) (hl : .arrs ∉ l := by decide) : u.statusOf d p n = s.statusOf d p n := by
  rw [State.statusOf, State.arr, h .arrs hl, State.statusOf, State.arr]

/-- A run that ends leaves its die's list, and its status stands. -/
theorem State.endRun_after (s : State) (r : ARun) (result t : Nat) (h : d < s.arrs.length) :
    (s.endRun d r result t).runOf d r.part r.net = none
      ∧ (s.endRun d r result t).statusOf d r.part r.net = some (result * 65536 + r.frame % 65536)
      ∧ (s.endRun d r result t).arrs.length = s.arrs.length ∧ ∀ e, e ≠ d → (s.endRun d r result t).arr e = s.arr e := by
  have hset (x : ArrSt) (hruns : x.runs = (s.arr d).runs.filter fun y => !(y.part == r.part && y.net == r.net))
      (hlast : ∃ w l, x.last = (r.part, r.net, result * 65536 + r.frame % 65536, w) :: l) (z : State) (hz : z.arrs = (s.setArr d x).arrs) :
      z.runOf d r.part r.net = none ∧ z.statusOf d r.part r.net = some (result * 65536 + r.frame % 65536) ∧ z.arrs.length = s.arrs.length
        ∧ ∀ e, e ≠ d → z.arr e = s.arr e := by
    have harr (e : Nat) : z.arr e = (s.setArr d x).arr e := by rw [State.arr, hz, State.arr]
    obtain ⟨w, l, hl⟩ := hlast
    refine ⟨?_, ?_, ?_, fun e he => ?_⟩
    · rw [State.runOf, harr, State.setArr_arr_same _ h, hruns, List.find?_eq_none]
      intro y hy
      have := (List.mem_filter.mp hy).2
      simpa [← not_and_or] using this
    · rw [State.statusOf, harr, State.setArr_arr_same _ h, ArrSt.stat, hl]
      simp
    · rw [hz, State.setArr_length]
    · rw [harr, State.setArr_arr_of_ne _ he]
  unfold State.endRun
  extract_lets a us mx st w
  have hraise : ((w.countRun d r result).raiseP r.part 4).keeps w [.regs, .ints, .tdcSeen] :=
    (State.raiseP_keeps _ _ _).after (w.countRun_keeps d r result)
  split
  · exact hset _ rfl ⟨_, _, rfl⟩ _ rfl
  · exact hset _ rfl ⟨_, _, rfl⟩ _ (hraise .arrs (by decide))

/-- A run that ends OK changes the arrays alone. -/
theorem State.endRun_ok_keeps (s : State) (d : Nat) (r : ARun) (t : Nat) : (s.endRun d r rrOK t).keeps s [.arrs] := by
  unfold State.endRun
  dsimp only
  rw [if_pos rfl]
  exact s.setArr_keeps _ _

/-- A run whose descriptor fails its checks is no timing-dependent choice. -/
theorem State.endRun_desc_keeps (s : State) (d : Nat) (r : ARun) (t : Nat) : (s.endRun d r rrDESC t).keeps s [.arrs, .regs, .ints] := by
  unfold State.endRun
  dsimp only
  rw [if_neg (by decide), State.countRun, if_neg (by decide), if_neg (by decide), if_neg (by decide), if_neg (by decide), if_pos rfl]
  exact (State.raiseP_keeps _ _ _).after ((State.inc_keeps _ _ _).after (s.setArr_keeps _ _).widen)

theorem State.runEndOk_keeps (s : State) (d : Nat) (r : ARun) : (s.runEndOk d r).keeps s [.arrs] :=
  State.keeps_ite (s.keeps_refl _) (s.endRun_ok_keeps _ _ _)

/-- A run goes on, or ends OK. -/
theorem State.runEndOk_after (s : State) (r : ARun) (h : d < s.arrs.length) :
    (s.runEndOk d r = s ∨ (s.runEndOk d r).statusOf d r.part r.net = some (rrOK * 65536 + r.frame % 65536))
      ∧ ∀ e, e ≠ d → (s.runEndOk d r).arr e = s.arr e := by
  obtain ⟨-, hstat, -, hother⟩ := s.endRun_after r rrOK s.time h
  unfold State.runEndOk
  split
  · exact ⟨.inl rfl, fun _ _ => rfl⟩
  · exact ⟨.inr hstat, hother⟩

/-! ### A descriptor's turn -/

/-- What a descriptor's turn says of its run. -/
theorem State.descTurn_fields {c : Bool} {a : ArrIn} {n : Net} {i : Nat} {x : Desc} (h : s.descTurn c a = some (n, r, i, x)) :
    s.runOf a.die r.part r.net = some r ∧ a.die < 2 := by
  unfold State.descTurn at h
  split at h
  · exact absurd h (by simp)
  next hw =>
    split at h
    · exact absurd h (by simp)
    next y hy =>
      split at h
      · exact absurd h (by simp)
      · split at h
        · exact absurd h (by simp)
        · split at h
          · exact absurd h (by simp)
          · simp only [Option.some.injEq, Prod.mk.injEq] at h
            obtain ⟨-, rfl, -⟩ := h
            obtain ⟨hp, hn⟩ := State.runOf_fields hy
            refine ⟨by rw [hp, hn]; exact hy, ?_⟩
            simp only [State.arrWorks, Bool.not_eq_true', Bool.not_eq_false, Bool.and_eq_true, decide_eq_true_eq] at hw
            exact hw.1.1.1.1.1

end Sys2Proof.Machine
end

section
/-! SUPPORT. Compute descriptors (09_array_operations.md R208 to R218, R223, R224, R237, R238). -/

namespace Sys2Proof.Machine

set_option Elab.async false

variable {s u v : State} {d : Nat} {r : ARun} {l k : List Piece}

/-! ### Changes that take no fall-back decision -/

/-- State u is s but for the pieces l, with the fall-back decision of s. -/
structure State.leaves (u s : State) (l : List Piece) : Prop where
  keeps : u.keeps s l
  fall : u.dev.fall = s.dev.fall

theorem State.leaves_refl (s : State) (l : List Piece) : s.leaves s l := ⟨s.keeps_refl l, rfl⟩

theorem State.leaves.trans (h : u.leaves v l) (k : v.leaves s l) : u.leaves s l := ⟨State.keeps_trans h.keeps k.keeps, h.fall.trans k.fall⟩

theorem State.leaves.mono (h : u.leaves s k) (hk : ∀ c ∈ k, c ∈ l := by decide) : u.leaves s l := ⟨State.keeps_mono h.keeps hk, h.fall⟩

theorem State.keeps.leaves (h : u.keeps s k) (hdev : .dev ∉ k := by decide) (hk : ∀ c ∈ k, c ∈ l := by decide) : u.leaves s l :=
  ⟨State.keeps_mono h hk, congrArg Dev.fall (h .dev hdev)⟩

theorem State.leaves_ite {c : Prop} [Decidable c] {a b : State} (ha : a.leaves s l) (hb : b.leaves s l) : (if c then a else b).leaves s l := by
  split
  · exact ha
  · exact hb

theorem State.leaves_foldl {α : Type} {f : State → α → State} (xs : List α) (hf : ∀ v x, (f v x).leaves v l) (h : u.leaves s l) :
    (xs.foldl f u).leaves s l := by
  induction xs generalizing u with
  | nil => exact h
  | cons x xs ih => exact ih ((hf u x).trans h)

theorem State.leaves.calm (h : u.leaves s l) (hs : s.calm) : u.dev.fall = none := h.fall.trans hs

/-- The end of a command that takes no fall-back decision. -/
theorem State.leaves.finish (h : u.leaves s l) (hs : s.calm) : u.finish.keeps s l := State.finish_keeps_of (h.calm hs) h.keeps

/-! ### Array buffers read and written -/

theorem State.defBuf_leaves (s : State) (a n : Nat) : (s.defBuf a n).leaves s [.dev] :=
  State.leaves_ite ⟨s.setDev_keeps _, rfl⟩ (s.leaves_refl _)

theorem State.defBuf_bytes (s : State) (a n : Nat) : (s.defBuf a n).mem = s.mem ∧ (s.defBuf a n).psn = s.psn := by
  unfold State.defBuf
  split <;> exact ⟨rfl, rfl⟩

theorem State.settleBuf_leaves (s : State) (a n : Nat) : (s.settleBuf a n).leaves s [.mem, .dev] := by
  unfold State.settleBuf
  extract_lets x w
  have hw : w.leaves s [.mem, .dev] := State.leaves_foldl _ (fun v i => (v.poke_keeps _ _).leaves) (s.leaves_refl _)
  clear_value w
  exact State.leaves_ite (s.leaves_refl _) (State.leaves.trans ⟨(w.setDev_keeps _).widen, rfl⟩ hw)

theorem State.spoil_leaves (s : State) (a n : Nat) : (s.spoil a n).leaves s [.mem, .dev] :=
  (State.mark_keeps _ _ _ _).leaves.trans (s.defBuf_leaves a n).mono

theorem State.move_leaves (s : State) (src dst n : Nat) : (s.move src dst n).leaves s [.mem, .dev] := by
  unfold State.move
  extract_lets w bad x
  have hw : w.leaves s [.mem, .dev] := (State.defBuf_leaves _ _ _).mono.trans (s.settleBuf_leaves _ _)
  have hx : x.leaves s [.mem, .dev] := (w.poke_keeps _ _).leaves.trans hw
  clear_value x
  exact (x.setMem_keeps x.mem _).leaves.trans hx

/-- Outputs written to the array buffer. -/
def State.wrote (s : State) (ws : List (Nat × List Byte)) : State := ws.foldl (fun s w => (s.defBuf w.1 w.2.length).store w.1 w.2) s

theorem State.wrote_leaves (s : State) (ws : List (Nat × List Byte)) : (s.wrote ws).leaves s [.regs, .mem, .dev] :=
  State.leaves_foldl _ (fun v w => (State.store_keeps _ _ _).leaves.trans (v.defBuf_leaves _ _).mono) (s.leaves_refl _)

/-- Memory after the outputs is what the writes alone make of it. -/
theorem State.wrote_mem (s v : State) (ws : List (Nat × List Byte)) (h : s.mem = v.mem) :
    (s.wrote ws).mem = (ws.foldl (fun (s : State) w => s.store w.1 w.2) v).mem := by
  unfold State.wrote
  induction ws generalizing s v with
  | nil => exact h
  | cons w ws ih =>
    refine ih _ _ ?_
    rw [State.store_mem, State.store_mem, State.poke, State.poke]
    dsimp only
    rw [(s.defBuf_bytes _ _).1, h]

/-! ### A compute descriptor executed -/

/-- What a compute descriptor counts, and GAR_DESC. -/
def State.computeCounts (s : State) (d i : Nat) (x : Desc) (o : ArrOut) : State :=
  ((((((s.inc (Reg.garChkSkip d) o.skip).inc (Reg.garGatherRange d) o.ranges_).lastFlags d i o.flags).add64 (Reg.garOpsLo d) 1).add64
    (Reg.garBusyLo d) (x.time + (o.retry.length + o.fail.length) * x.tileCycles))).wr (Reg.garDesc d) (BitVec.ofNat 32 i)

theorem State.lastFlags_keeps (s : State) (d i : Nat) (fl : List ElFlags) : (s.lastFlags d i fl).keeps s [.regs] :=
  State.keeps_foldl (fun v _ => v.wr_keeps _ _) (s.wr_keeps _ _) _

theorem State.computeCounts_keeps (s : State) (d i : Nat) (x : Desc) (o : ArrOut) : (s.computeCounts d i x o).keeps s [.regs] :=
  (State.wr_keeps _ _ _).after <| (State.add64_keeps _ _ _).after <| (State.add64_keeps _ _ _).after <| (State.lastFlags_keeps _ _ _ _).after <|
    (State.inc_keeps _ _ _).after (s.inc_keeps _ _)

/-- The array-buffer ranges that a compute descriptor reads, each byte with a value. -/
def State.readSettled (s : State) (d : Nat) (x : Desc) : State := x.reads.foldl (fun s g => s.settleBuf (bufBase d + g.1) g.2) s

/-- The run of a compute descriptor past it. -/
def ARun.computed (r : ARun) (i : Nat) : ARun := { r with comp := i + 1, begun := true }

/-- What a compute descriptor writes and flags. -/
def State.outputs (s : State) (a : ArrIn) (x : Desc) : ArrOut := x.run (s.readSettled a.die x).mem (bufBase a.die) a.upset

/-- A compute descriptor with good operands executed, up to its tile checks. -/
def State.computed (s : State) (a : ArrIn) (r : ARun) (i : Nat) (x : Desc) : State :=
  (((s.readSettled a.die x).wrote (s.outputs a x).writes).computeCounts a.die i x (s.outputs a x)).setRun a.die (r.computed i)

/-- A run after its compute descriptor. -/
def State.runChecked (s : State) (d : Nat) (failed : Bool) (y : Option ARun) : State :=
  y.elim s fun r => if failed then s.endRun d r rrCHK s.time else s.runEndOk d r

theorem State.compute_of_good {a : ArrIn} {i : Nat} {x : Desc}
    (hgood : (x.reads.any fun g => (s.readSettled a.die x).poisoned (bufBase a.die + g.1) g.2) = false) :
    s.compute a r i x = ((s.computed a r i x).tileChecks a.die (r.computed i) i x (s.outputs a x).retry (s.outputs a x).fail).runChecked a.die
      (!(s.outputs a x).fail.isEmpty)
      (((s.computed a r i x).tileChecks a.die (r.computed i) i x (s.outputs a x).retry (s.outputs a x).fail).runOf a.die r.part r.net) := by
  unfold State.readSettled at hgood
  unfold State.compute
  dsimp only
  rw [hgood]
  simp only [Bool.false_eq_true, if_false]
  split
  next h =>
    have h' : ((s.computed a r i x).tileChecks a.die (r.computed i) i x (s.outputs a x).retry (s.outputs a x).fail).runOf a.die r.part r.net = none := h
    rw [h']
    rfl
  next y h =>
    have h' : ((s.computed a r i x).tileChecks a.die (r.computed i) i x (s.outputs a x).retry (s.outputs a x).fail).runOf a.die r.part r.net = some y := h
    rw [h']
    rfl

end Sys2Proof.Machine
end

section
/-! SUPPORT. The compute commands of the Great Arrays (09_array_operations.md R208 to R218, R224, R238, R240). -/

namespace Sys2Proof.Machine

set_option Elab.async false

variable {s u v : State} {d i : Nat} {r : ARun} {x : Desc}

/-! ### Tile checks -/

/-- What tile checks may change. -/
def tilePieces : List Piece := [.fresh, .errs, .mem, .regs, .ints, .rots, .dev]

theorem State.arrEvent_leaves (s : State) (e : EventIn) (hd : d < 2) (hunit : e.unit = unitId d 88) (hkind : e.kind = ekCHK_RECOMPUTE ∨ e.kind = ekCHK_FAIL) :
    (s.event e).leaves s tilePieces := by
  have hne : unitId d 88 ≠ noUnit ∧ unitId d 88 % 512 = 88 := by
    rw [unitId, noUnit]
    omega
  have hkey : countKey e = some (.unit (unitId d 88) e.sub) := by
    have hce : e.kind ≠ ekECC_CE := by rcases hkind with h | h <;> rw [h] <;> decide
    have hmem : [ekECC_UE, ekCRC_RETRY, ekCRC_ERR, ekDUP_DISAGREE, ekCHK_RECOMPUTE, ekCHK_FAIL, ekREPLICA].contains e.kind = true := by
      rcases hkind with h | h <;> rw [h] <;> decide
    rw [countKey, if_neg hce, if_pos hmem, hunit, if_pos (by simpa using hne.1)]
  have hdie : ¬(e.kind = ekLINK_DOWN ∨ (e.kind = ekECC_UE ∧ e.unit ≠ noUnit ∧ e.unit % 512 = 104)) := by
    rcases hkind with h | h <;> rw [h] <;> simp [ekCHK_RECOMPUTE, ekCHK_FAIL, ekLINK_DOWN, ekECC_UE]
  exact (s.event_unit_keeps (l := [.fresh, .errs, .mem, .regs, .ints, .rots]) 0 hkey (by rcases hkind with h | h <;> rw [h] <;> decide) hdie
    fun v ref t => (v.isolate_keeps_of_far ref t (by omega)).widen).leaves

theorem State.tileChecks_leaves (s : State) (r : ARun) (i : Nat) (x : Desc) (retry fail : List Nat) (hd : d < 2) :
    (s.tileChecks d r i x retry fail).leaves s tilePieces := by
  unfold State.tileChecks
  refine State.leaves_foldl _ (fun v t => ?_) (State.leaves_foldl _ (fun v t => ?_) (s.leaves_refl _))
  · exact (State.arrEvent_leaves _ _ hd rfl (.inr rfl)).trans <| (State.inc_keeps _ _ _).leaves.trans <|
      State.leaves_foldl _ (fun w l => (w.spoil_leaves _ _).mono) (v.leaves_refl _)
  · exact (State.arrEvent_leaves _ _ hd rfl (.inl rfl)).trans (v.inc_keeps _ _).leaves

/-! ### A descriptor computed -/

theorem State.readSettled_leaves (s : State) (d : Nat) (x : Desc) : (s.readSettled d x).leaves s [.mem, .dev] :=
  State.leaves_foldl _ (fun v _ => v.settleBuf_leaves _ _) (s.leaves_refl _)

/-- What a compute descriptor changes until its run goes on. -/
def computePieces : List Piece := [.arrs, .regs, .mem, .dev]

theorem State.computed_leaves (s : State) (a : ArrIn) (r : ARun) (i : Nat) (x : Desc) : (s.computed a r i x).leaves s computePieces :=
  (State.setRun_keeps _ _ _).leaves.trans <| (State.computeCounts_keeps _ _ _ _ _).leaves.trans <| (State.wrote_leaves _ _).mono.trans (s.readSettled_leaves _ _).mono

theorem State.computeCounts_mem (s : State) (d i : Nat) (x : Desc) (o : ArrOut) : (s.computeCounts d i x o).mem = s.mem := by
  have hflags (v : State) (fl : List ElFlags) : (v.lastFlags d i fl).mem = v.mem := by
    unfold State.lastFlags
    exact (foldl_field (·.mem) _ (fun v e => v.wr_mem _ _) _ _).trans (v.wr_mem _ _)
  have hadd (v : State) (o n : Nat) : (v.add64 o n).mem = v.mem := by
    obtain ⟨q, h⟩ := v.add64_with o n
    rw [h]
  rw [State.computeCounts, State.wr_mem, hadd, hadd, hflags, State.inc_mem, State.inc_mem]

theorem State.setRun_mem (s : State) (d : Nat) (r : ARun) : (s.setRun d r).mem = s.mem := rfl

theorem State.setRun_rd (s : State) (d : Nat) (r : ARun) (o : Nat) : (s.setRun d r).rd o = s.rd o := rfl

theorem State.computed_mem (s : State) (a : ArrIn) (r : ARun) (i : Nat) (x : Desc) : (s.computed a r i x).mem =
    ((s.outputs a x).writes.foldl (fun (s : State) w => s.store w.1 w.2) (s.readSettled a.die x)).mem := by
  rw [State.computed, State.setRun_mem, State.computeCounts_mem, State.wrote_mem _ _ _ rfl]

theorem State.computed_desc (s : State) (a : ArrIn) (r : ARun) (i : Nat) (x : Desc) :
    (s.computed a r i x).rd (Reg.garDesc a.die) = BitVec.ofNat 32 i := by
  rw [State.computed, State.setRun_rd, State.computeCounts, State.rd_wr_same]

theorem State.computed_runOf {a : ArrIn} (h : s.runOf a.die r.part r.net = some r) (i : Nat) (x : Desc) :
    (s.computed a r i x).runOf a.die r.part r.net = some (r.computed i) := by
  refine State.setRun_runOf (y := r) ?_ rfl rfl
  rw [(State.computeCounts_keeps _ _ _ _ _).runOf _ _ _, (State.wrote_leaves _ _).keeps.runOf _ _ _, (s.readSettled_leaves _ _).keeps.runOf _ _ _]
  exact h

theorem State.computed_arr (s : State) (a : ArrIn) (r : ARun) (i : Nat) (x : Desc) {e : Nat} (he : e ≠ a.die) : (s.computed a r i x).arr e = s.arr e := by
  refine (State.setRun_arr_of_ne _ _ he).trans ?_
  rw [State.arr, (State.computeCounts_keeps _ _ _ _ _) .arrs (by decide), (State.wrote_leaves _ _).keeps .arrs (by decide),
    (s.readSettled_leaves _ _).keeps .arrs (by decide), State.arr]

theorem State.runEndOk_bytes (s : State) (d : Nat) (r : ARun) : (s.runEndOk d r).mem = s.mem ∧ (s.runEndOk d r).psn = s.psn := by
  unfold State.runEndOk State.endRun
  dsimp only
  split
  · exact ⟨rfl, rfl⟩
  · rw [if_pos rfl]
    exact ⟨rfl, rfl⟩

/-! ### The commands -/

theorem exec_compute {a : ArrIn} {k : Nat} {c : Instr} (s : State)
    (h : (k, c) ∈ [(kGEMM, Instr.gemm a), (kCONV, .conv a), (kATTN, .attn a), (kGATHER, .gather a), (kVECTOR, .vector a), (kPOOL, .pool a)]) :
    exec c s = .next (s.arrCompute k a).finish := by
  simp only [List.mem_cons, Prod.mk.injEq, List.not_mem_nil, or_false] at h
  rcases h with ⟨rfl, rfl⟩ | ⟨rfl, rfl⟩ | ⟨rfl, rfl⟩ | ⟨rfl, rfl⟩ | ⟨rfl, rfl⟩ | ⟨rfl, rfl⟩
  all_goals rfl

theorem State.arrCompute_of_turn {a : ArrIn} {n : Net} (hturn : (s.at a.t).descTurn true a = some (n, r, i, x))
    (hloads : (s.at a.t).loadsDone n r i = true) : s.arrCompute x.kind a =
      if (s.at a.t).poisoned (n.descAddr i) 128 then (s.at a.t).endRun a.die r rrPOISON (s.at a.t).time
      else if !(s.at a.t).issueOk r n x then (s.at a.t).endRun a.die r rrDESC (s.at a.t).time
      else (s.at a.t).compute a r i x := by
  unfold State.arrCompute
  dsimp only
  rw [hturn]
  dsimp only
  rw [if_neg (by rw [hloads]; simp)]

/-- Settles O33: a compute descriptor does what R208 to R240 say of it. -/
theorem arrayCompute : Obligations.ArrayCompute := by
  unfold Obligations.ArrayCompute
  intro a s n r i k x c hcalm harrs hc hturn hkind hloads d v o
  subst hkind
  obtain ⟨hrun, hd⟩ := State.descTurn_fields hturn
  have hcalmv : (s.at a.t).calm := s.at_calm a.t hcalm
  have hlen := State.lt_arrs_of_runOf hrun
  have hexec := exec_compute s hc
  rw [State.arrCompute_of_turn hturn hloads] at hexec
  have hother : (s.at a.t).arr (1 - d) = s.arr (1 - d) := s.at_arr _ _
  have hgoodrun := (s.at a.t).compute_of_good (a := a) (r := r) (i := i) (x := x)
  have hv : v = (s.at a.t).readSettled d x := rfl
  have ho : o = (s.at a.t).outputs a x := rfl
  clear_value o v
  subst hv ho
  generalize s.at a.t = w at *
  refine ⟨_, hexec, fun hpoison => ?_, fun hok hbad => ?_, fun hok hissue hretry hfail hgood => ?_, fun hok hissue hfail hgood => ?_⟩
  · rw [if_pos hpoison]
    have hk := w.endRun_keeps d r rrPOISON w.time
    have hf := hk.calm hcalmv
    refine ⟨?_, State.finish_keeps_of hf hk⟩
    rw [State.finish_arr hf]
    exact (w.endRun_after r rrPOISON w.time hlen).2.1
  · rw [if_neg (by simp [hok]), if_pos (by simp [hbad])]
    have hk := w.endRun_desc_keeps d r w.time
    have hf := hk.calm hcalmv
    refine ⟨?_, State.finish_keeps_of hf hk⟩
    rw [State.finish_arr hf]
    exact (w.endRun_after r rrDESC w.time hlen).2.1
  · rw [if_neg (by simp [hok]), if_neg (by simp [hissue]), hgoodrun hgood, hretry, hfail]
    have hk := w.computed_leaves a r i x
    have hmem := w.computed_mem a r i x
    have hdesc := w.computed_desc a r i x
    have hnow : (w.computed a r i x).runOf d r.part r.net = some (r.computed i) := State.computed_runOf hrun i x
    have harr (e : Nat) (he : e ≠ d) := w.computed_arr a r i x he
    have hnone (z : State) : z.tileChecks a.die (r.computed i) i x [] [] = z := rfl
    have hgoes (z : State) : z.runChecked a.die (!([] : List Nat).isEmpty) (some (r.computed i)) = z.runEndOk d (r.computed i) := rfl
    rw [hnone, hnow, hgoes]
    generalize w.computed a r i x = z at *
    have hend := (z.runEndOk_keeps d (r.computed i)).leaves.trans hk
    have hf := hend.calm hcalmv
    obtain ⟨hstay, hrest⟩ := z.runEndOk_after (r.computed i) (State.lt_arrs_of_runOf hnow)
    refine ⟨?_, ?_, ?_, ?_, State.finish_keeps_of hf hend.keeps⟩
    · rw [(State.finish_bytes hf).1, (State.runEndOk_bytes _ _ _).1, hmem]
    · rw [State.finish_rd _ hf, State.runEndOk_keeps _ _ _ .regs (by decide) _ (by simp), hdesc]
    · rw [State.keeps.runOf (State.finish_keeps_of hf (State.keeps_refl _ [])) _ _ _, State.finish_arr hf]
      rcases hstay with h | h
      · left
        rw [h, hnow]
        rfl
      · exact .inr h
    · have hne : 1 - d ≠ d := by omega
      rw [State.finish_arr hf, hrest _ hne, harr _ hne, hother]
  · rw [if_neg (by simp [hok]), if_neg (by simp [hissue]), hgoodrun hgood]
    have hk := w.computed_leaves a r i x
    have hnow : (w.computed a r i x).runOf d r.part r.net = some (r.computed i) := State.computed_runOf hrun i x
    have htile := (w.computed a r i x).tileChecks_leaves (r.computed i) i x (w.outputs a x).retry (w.outputs a x).fail hd
    have hsame : ((w.computed a r i x).tileChecks d (r.computed i) i x (w.outputs a x).retry (w.outputs a x).fail).runOf d r.part r.net
        = some (r.computed i) := (htile.keeps.runOf _ _ _).trans hnow
    have hfails : (!(w.outputs a x).fail.isEmpty) = true := by simpa using hfail
    have hgoes (z : State) : z.runChecked a.die true (some (r.computed i)) = z.endRun d (r.computed i) rrCHK z.time := rfl
    rw [hfails, hsame, hgoes]
    generalize (w.computed a r i x).tileChecks d (r.computed i) i x (w.outputs a x).retry (w.outputs a x).fail = z at *
    have hend : (z.endRun d (r.computed i) rrCHK z.time).dev.fall = none :=
      (congrArg Dev.fall (z.endRun_keeps _ _ _ _ .dev (by decide))).trans (htile.fall.trans (hk.fall.trans hcalmv))
    rw [State.finish_arr hend]
    exact (z.endRun_after (r.computed i) rrCHK z.time (State.lt_arrs_of_runOf hsame)).2.1

end Sys2Proof.Machine
end

section
/-! SUPPORT. The load unit of the Great Arrays and the twin compare (09_array_operations.md R219, R226, R239, R274). -/

namespace Sys2Proof.Machine

set_option Elab.async false

variable {s u v : State} {d i : Nat} {r : ARun} {x : Desc} {n : Net} {a : ArrIn}

/-! ### A descriptor of the load unit done -/

/-- The run of a load-unit descriptor past it. -/
def ARun.loaded (r : ARun) (i : Nat) : ARun := { r with load := i + 1, wait := none, begun := true }

theorem State.loadNext_eq (s : State) (d : Nat) (r : ARun) (i : Nat) : s.loadNext d r i = (s.setRun d (r.loaded i)).runEndOk d (r.loaded i) := rfl

theorem State.loadNext_keeps (s : State) (d : Nat) (r : ARun) (i : Nat) : (s.loadNext d r i).keeps s [.arrs] :=
  (State.runEndOk_keeps _ _ _).after (s.setRun_keeps _ _)

/-- The run goes on behind the descriptor, or ends OK. -/
theorem State.loadNext_after (i : Nat) (h : s.runOf d r.part r.net = some r) :
    (s.loadNext d r i).mem = s.mem ∧ (s.loadNext d r i).psn = s.psn
      ∧ (((s.loadNext d r i).runOf d r.part r.net).map (·.load) = some (i + 1)
          ∨ (s.loadNext d r i).statusOf d r.part r.net = some (rrOK * 65536 + r.frame % 65536)) := by
  have hset : (s.setRun d (r.loaded i)).runOf d r.part r.net = some (r.loaded i) := State.setRun_runOf h rfl rfl
  obtain ⟨hstay, -⟩ := (s.setRun d (r.loaded i)).runEndOk_after (r.loaded i) (State.lt_arrs_of_runOf hset)
  obtain ⟨hmem, hpsn⟩ := (s.setRun d (r.loaded i)).runEndOk_bytes d (r.loaded i)
  rw [State.loadNext_eq]
  refine ⟨hmem, hpsn, ?_⟩
  rcases hstay with h | h
  · left
    rw [h, hset]
    rfl
  · exact .inr h

/-- A transfer whose blocks match, and the run behind it. -/
def State.transferred (s : State) (d src dst n : Nat) (r : ARun) (i : Nat) : State := (s.move src dst n).loadNext d r i

theorem State.transferred_moved (src dst len i : Nat) (hcalm : s.calm) (h : s.runOf d r.part r.net = some r) :
    (s.transferred d src dst len r i).finish.mem = (s.move src dst len).mem ∧ (s.transferred d src dst len r i).finish.psn = (s.move src dst len).psn
      ∧ (((s.transferred d src dst len r i).finish.runOf d r.part r.net).map (·.load) = some (i + 1)
          ∨ (((s.transferred d src dst len r i).finish.arr d).stat r.part r.net).map (·.1) = some (rrOK * 65536 + r.frame % 65536))
      ∧ (s.transferred d src dst len r i).finish.keeps s [.arrs, .mem, .dev] := by
  have hmove := s.move_leaves src dst len
  have hnow : (s.move src dst len).runOf d r.part r.net = some r := (hmove.keeps.runOf _ _ _).trans h
  obtain ⟨hmem, hpsn, hgo⟩ := State.loadNext_after i hnow
  have hall : (s.transferred d src dst len r i).leaves s [.arrs, .mem, .dev] :=
    ((s.move src dst len).loadNext_keeps d r i).leaves.trans hmove.mono
  have hf := hall.calm hcalm
  have hfin := State.finish_keeps_of hf (State.keeps_refl _ [])
  refine ⟨(State.finish_bytes hf).1.trans hmem, (State.finish_bytes hf).2.trans hpsn, ?_, State.finish_keeps_of hf hall.keeps⟩
  rw [hfin.runOf, State.finish_arr hf]
  exact hgo

/-! ### LOAD and STORE -/

theorem exec_load (hturn : (s.at a.t).descTurn false a = some (n, r, i, x)) (hok : (s.at a.t).poisoned (n.descAddr i) 128 = false)
    (hissue : (s.at a.t).issueOk r n x = true) (hretry : a.retry = []) (hfail : a.fail = []) (hkind : x.kind = kLOAD)
    (hfw : (s.at a.t).fwOk (.part r.part r.cls a.die) false (x.extAt r.frame) x.M = true)
    (hopen : ∀ j, r.comp ≤ j → j < i → (decDesc ((s.at a.t).peek (n.descAddr j) 128)).compute = true →
      (decDesc ((s.at a.t).peek (n.descAddr j) 128)).ranges.any (rangesMeet (x.aAddr, x.M)) = false) :
    exec (.load a) s = .next ((s.at a.t).transferred a.die (x.extAt r.frame) (bufBase a.die + x.aAddr) x.M r i).finish := by
  obtain ⟨hrun, -⟩ := State.descTurn_fields hturn
  change execLoad a s = _
  unfold execLoad
  dsimp only
  rw [hturn]
  dsimp only
  generalize s.at a.t = v at *
  rw [if_neg (by simp [hkind]), if_neg (by simp [hok]), if_neg (by simp [hissue]), if_neg]
  · have hnow : (v.move (x.extAt r.frame) (bufBase a.die + x.aAddr) x.M).runOf a.die r.part r.net = some r :=
      ((v.move_leaves _ _ _).keeps.runOf _ _ _).trans hrun
    have hchecks (w : State) : w.blockChecks (arrTag r a.die true) r.cls (x.extAt r.frame) (bufBase a.die + x.aAddr) x.M [] [] = w := rfl
    unfold State.doLoad
    dsimp only
    rw [if_pos hfw, hretry, hfail, hchecks, hnow]
    rfl
  · simp only [List.any_eq_true, List.mem_filter, List.mem_map, List.mem_range, not_exists, not_and]
    rintro j ⟨⟨k, hk, rfl⟩, hc⟩
    exact List.any_eq_false.mp (hopen _ (by omega) (by omega) hc)

theorem exec_store (hturn : (s.at a.t).descTurn false a = some (n, r, i, x)) (hok : (s.at a.t).poisoned (n.descAddr i) 128 = false)
    (hissue : (s.at a.t).issueOk r n x = true) (hretry : a.retry = []) (hfail : a.fail = []) (hkind : x.kind = kSTORE)
    (hdone : (s.at a.t).compsDone n r i = true) (hcmp : x.compare = false)
    (hfw : (s.at a.t).fwOk (.part r.part r.cls a.die) true (x.extAt r.frame) x.M = true) :
    exec (.store a) s = .next ((s.at a.t).transferred a.die (bufBase a.die + x.aAddr) (x.extAt r.frame) x.M r i).finish := by
  obtain ⟨hrun, -⟩ := State.descTurn_fields hturn
  change execStore a s = _
  unfold execStore
  dsimp only
  rw [hturn]
  dsimp only
  generalize s.at a.t = v at *
  have hnow : (v.move (bufBase a.die + x.aAddr) (x.extAt r.frame) x.M).runOf a.die r.part r.net = some r :=
    ((v.move_leaves _ _ _).keeps.runOf _ _ _).trans hrun
  have hchecks (w : State) : w.blockChecks (arrTag r a.die true) r.cls (bufBase a.die + x.aAddr) (x.extAt r.frame) x.M [] [] = w := rfl
  rw [if_neg (by simp [hkind, hdone]), if_neg (by simp [hok]), if_neg (by simp [hissue]), if_pos (by simp [hcmp])]
  unfold State.doStore
  dsimp only
  rw [if_pos hfw, hretry, hfail, hchecks, hnow]
  rfl

/-- The first twin at a COMPARE STORE waits for the other. -/
theorem exec_store_waits (hturn : (s.at a.t).descTurn false a = some (n, r, i, x)) (hok : (s.at a.t).poisoned (n.descAddr i) 128 = false)
    (hissue : (s.at a.t).issueOk r n x = true) (hkind : x.kind = kSTORE) (hdone : (s.at a.t).compsDone n r i = true) (hcmp : x.compare = true)
    (hwait : r.wait = none) (htwin : ∀ y, (s.at a.t).runOf (1 - a.die) r.part r.net = some y → y.wait = none) :
    exec (.store a) s = .next ((s.at a.t).setRun a.die { r with wait := some (s.at a.t).time, begun := true }).finish := by
  change execStore a s = _
  unfold execStore
  dsimp only
  rw [hturn]
  dsimp only
  generalize s.at a.t = v at *
  rw [if_neg (by simp [hkind, hdone]), if_neg (by simp [hok]), if_neg (by simp [hissue]), if_neg (by simp [hcmp])]
  cases hrun : v.runOf (1 - a.die) r.part r.net with
  | none =>
    dsimp only
    rw [if_neg (by simp [hwait])]
    rfl
  | some y =>
    have hy := htwin y hrun
    dsimp only
    rw [if_neg (by simp [hy]), if_neg (by simp [hy]), if_neg (by simp [hwait])]
    rfl

/-! ### SIGNAL -/

theorem exec_signal (hturn : (s.at a.t).descTurn false a = some (n, r, i, x)) (hok : (s.at a.t).poisoned (n.descAddr i) 128 = false)
    (hissue : (s.at a.t).issueOk r n x = true) (hkind : x.kind = kSIGNAL) (hdone : (s.at a.t).compsDone n r i = true)
    (hnear : (s.at a.t).farPkg (x.extAt r.frame) = none) :
    exec (.signal a) s = .next (
      let v := (s.at a.t).loadNext a.die r i
      { v.tally opADD { issuer := .array a.die, part := r.part, tref := x.extAt r.frame, operand := 1, cls := r.cls, t := a.t } with
        compl := (s.at a.t).compl } : State).finish := by
  change execSignal a s = _
  unfold execSignal
  dsimp only
  rw [hturn]
  dsimp only
  generalize s.at a.t = v at *
  have hfar : (v.loadNext a.die r i).farPkg (x.extAt r.frame) = none := by
    rw [← hnear, State.farPkg, State.farPkg, v.loadNext_keeps _ _ _ .dev (by decide)]
  rw [if_neg (by simp [hkind, hdone]), if_neg (by simp [hok]), if_neg (by simp [hissue]), hfar]
  rfl

theorem State.resolve_congr (hload : u.loader = s.loader) (hsync : u.sync = s.sync) (hdev : u.dev = s.dev) (p tref : Nat) :
    u.resolve p tref = s.resolve p tref := by
  have hcfg (p : Nat) : u.pcfg p = s.pcfg p := by rw [State.pcfg, State.pcfg, State.cfg, State.cfg, hload]
  have hnear (a : Nat) : u.near a = s.near a := by rw [State.near, State.near, hdev]
  have hdecl (p k n : Nat) : u.declared p k n = s.declared p k n := by rw [State.declared, State.declared, hsync]
  simp only [State.resolve, hcfg, hnear, hdecl, hsync]

/-- Work that leaves the sync units, the device, the configuration and memory alone refuses no operation. -/
theorem State.keeps.tallyOk {l : List Piece} {op : Nat} {r : TallyIn} {w : TWord} (h : u.keeps s l) (hs : s.tallyOk op r w)
    (hl : .sync ∉ l ∧ .dev ∉ l ∧ .loader ∉ l ∧ .mem ∉ l := by decide) : u.tallyOk op r w := by
  obtain ⟨hsl, hdl, hll, hml⟩ := hl
  obtain ⟨hup, hwarm, hstall, hres, hperm, hwaits, hallow, hbad⟩ := hs
  have hsync : u.sync = s.sync := h .sync hsl
  have hdev : u.dev = s.dev := h .dev hdl
  have hload : u.loader = s.loader := h .loader hll
  exact ⟨by rw [hdev]; exact hup, by rw [hdev]; exact hwarm, by rw [State.stalled, hsync]; exact hstall,
    by rw [State.resolve_congr hload hsync hdev]; exact hres, by rw [State.permitted_congr hsync]; exact hperm, hwaits,
    by rw [State.tallyAllowed_congr hload]; exact hallow, by rw [h.wordBad w hml]; exact hbad⟩

theorem State.keeps.quietWord {l : List Piece} {w : TWord} (h : u.keeps s l) (hq : s.quiet w) (hl : .sync ∉ l := by decide) : u.quiet w := by
  have hsync : u.sync = s.sync := h .sync hl
  rw [State.quiet, hsync]
  exact hq

/-- SIGNAL adds one to its tally word. -/
theorem signal_adds {w : TWord} (hcalm : s.calm) (hturn : (s.at a.t).descTurn false a = some (n, r, i, x))
    (hok : (s.at a.t).poisoned (n.descAddr i) 128 = false) (hissue : (s.at a.t).issueOk r n x = true) (hkind : x.kind = kSIGNAL)
    (hdone : (s.at a.t).compsDone n r i = true) (hnear : (s.at a.t).farPkg (x.extAt r.frame) = none) (hq : (s.at a.t).quiet w)
    (htally : (s.at a.t).tallyOk opADD { issuer := .array a.die, part := r.part, tref := x.extAt r.frame, operand := 1, cls := r.cls } w)
    (hfit : ((s.at a.t).tword w).value + 1 < 2 ^ 56) :
    ∃ u, exec (.signal a) s = .next u ∧ u.tword w = { (s.at a.t).tword w with value := ((s.at a.t).tword w).value + 1 } ∧ u.wordAs (s.at a.t) w
      ∧ u.compl = s.compl ∧ u.keeps (s.at a.t) (.arrs :: tallyPieces) := by
  have hexec := exec_signal hturn hok hissue hkind hdone hnear
  have hcalmv := s.at_calm a.t hcalm
  have hcompl : (s.at a.t).compl = s.compl := s.at_compl a.t
  generalize s.at a.t = v at *
  have hnext := v.loadNext_keeps a.die r i
  dsimp only at hexec
  generalize v.loadNext a.die r i = z at *
  have hadd := State.tally_add (r := { issuer := .array a.die, part := r.part, tref := x.extAt r.frame, operand := 1, cls := r.cls, t := a.t })
    (hnext.tallyOk htally) (hnext.quietWord hq)
  dsimp only at hadd
  rw [hnext.tword w, if_neg (by omega), hnext .sync (by decide)] at hadd
  generalize z.tally opADD { issuer := .array a.die, part := r.part, tref := x.extAt r.frame, operand := 1, cls := r.cls, t := a.t } = y at *
  have hcompl' : y.compl = v.compl := (hadd.keeps .compl (by decide)).trans (hnext .compl (by decide))
  have hsame : ({ y with compl := v.compl } : State) = y := by rw [← hcompl']
  rw [hsame] at hexec
  have hy : y.keeps v (.arrs :: tallyPieces) := hadd.keeps.after hnext.widen
  have hf := hy.calm hcalmv
  have hfin := hadd.finish hf
  have hsync : z.sync = v.sync := hnext .sync (by decide)
  exact ⟨_, hexec, hfin.value, ⟨hfin.ctrs.trans (congrArg SyncSt.ctrs hsync), State.memAs_trans hfin.bytes (hnext.memAs _ _)⟩,
    (State.finish_compl _ hf).trans (hcompl'.trans hcompl), State.finish_keeps_of hf hy⟩

/-! ### The twin compare -/

/-- The run of a network on one die stopped, if there is one. -/
def State.runCut (s : State) (d p n : Nat) : State := (s.runOf d p n).elim s fun r => s.endRun d r rrCMP s.time

theorem State.cmpFail_eq (s : State) (p n i cls : Nat) : s.cmpFail p n i cls =
    (((s.log { kind := ekCMP_FAIL, act := actOf ekCMP_FAIL, cls, time := s.time, op := n * 65536 + i }).runCut 0 p n).runCut 1 p n).suspectArrays := by
  have hstop (v : State) (d : Nat) : v.runCut d p n = match v.runOf d p n with | some r => v.endRun d r rrCMP v.time | none => v := by
    unfold State.runCut
    cases v.runOf d p n <;> rfl
  rw [hstop, hstop]
  rfl

theorem State.runCut_keeps (s : State) (d p n : Nat) : (s.runCut d p n).keeps s [.arrs, .regs, .ints, .tdcSeen] := by
  unfold State.runCut
  cases s.runOf d p n with
  | none => exact s.keeps_refl _
  | some r => exact s.endRun_keeps d r rrCMP s.time

/-- The stop of a network's run on one die. -/
theorem State.runCut_after (s : State) {d : Nat} (p n : Nat) (h : d < s.arrs.length) : (s.runCut d p n).runOf d p n = none
    ∧ (∀ y, s.runOf d p n = some y → (s.runCut d p n).statusOf d p n = some (rrCMP * 65536 + y.frame % 65536))
    ∧ (s.runCut d p n).arrs.length = s.arrs.length ∧ ∀ e, e ≠ d → (s.runCut d p n).arr e = s.arr e := by
  unfold State.runCut
  cases hrun : s.runOf d p n with
  | none => exact ⟨hrun, fun y hy => absurd hy (by simp), rfl, fun _ _ => rfl⟩
  | some r =>
    obtain ⟨hp, hn⟩ := State.runOf_fields hrun
    obtain ⟨hgone, hstat, hlen, hother⟩ := s.endRun_after r rrCMP s.time h
    rw [hp, hn] at hgone hstat
    refine ⟨hgone, fun y hy => ?_, hlen, hother⟩
    obtain rfl := Option.some.inj hy
    exact hstat

theorem State.suspectArrays_keeps (s : State) : s.suspectArrays.keeps s [.rots] := s.setRots_keeps _

/-- Both twins of a network end CMP_FAIL, and both arrays' slices are offered first. -/
theorem State.cmpFail_after (s : State) (p n i cls : Nat) (h : s.arrs.length = 2) :
    (∀ e < 2, (s.cmpFail p n i cls).runOf e p n = none)
      ∧ (∀ e < 2, ∀ y, s.runOf e p n = some y → (s.cmpFail p n i cls).statusOf e p n = some (rrCMP * 65536 + y.frame % 65536))
      ∧ (∀ x ∈ (s.cmpFail p n i cls).rots, x.first.head? = some (88, 7))
      ∧ (s.cmpFail p n i cls).keeps s [.fresh, .errs, .mem, .regs, .ints, .arrs, .tdcSeen, .rots] := by
  rw [State.cmpFail_eq]
  have hlog := s.log_keeps { kind := ekCMP_FAIL, act := actOf ekCMP_FAIL, cls, time := s.time, op := n * 65536 + i }
  generalize s.log { kind := ekCMP_FAIL, act := actOf ekCMP_FAIL, cls, time := s.time, op := n * 65536 + i } = v at *
  have hvlen : v.arrs.length = 2 := by rw [hlog .arrs (by decide), h]
  obtain ⟨hgone0, hstat0, hlen0, hother0⟩ := v.runCut_after (d := 0) p n (by omega)
  have hk0 := v.runCut_keeps 0 p n
  generalize v.runCut 0 p n = w at *
  obtain ⟨hgone1, hstat1, hlen1, hother1⟩ := w.runCut_after (d := 1) p n (by omega)
  have hk1 := w.runCut_keeps 1 p n
  generalize w.runCut 1 p n = z at *
  have hk := z.suspectArrays_keeps
  have h01 : z.arr 0 = w.arr 0 := hother1 0 (by omega)
  have h10 : w.arr 1 = v.arr 1 := hother0 1 (by omega)
  refine ⟨fun e he => ?_, fun e he y hy => ?_, fun x hx => ?_, ?_⟩
  · rw [hk.runOf]
    obtain rfl | rfl : e = 0 ∨ e = 1 := by omega
    · rw [State.runOf, h01]
      exact hgone0
    · exact hgone1
  · rw [← hlog.runOf e p n] at hy
    rw [hk.statusOf]
    obtain rfl | rfl : e = 0 ∨ e = 1 := by omega
    · rw [State.statusOf, h01]
      exact hstat0 y hy
    · refine hstat1 y ?_
      rw [State.runOf, h10]
      exact hy
  · obtain ⟨y, -, rfl⟩ := List.mem_map.mp hx
    rfl
  · exact hk.after (hk1.after (hk0.after (m := [.fresh, .errs, .mem, .regs, .ints, .arrs, .tdcSeen, .rots]) hlog.widen))

theorem exec_twinTimeout {p n t : Nat} (h : s.runOf d p n = some r) (hd : d < 2) (hwait : r.wait = some t)
    (hfirst : ∀ y, s.runOf 0 p n = some y → y.wait = none ∨ y.wait = some t) :
    ∃ i cls, exec (.twinTimeout p n) s = .next ((s.at (t + 20000)).cmpFail p n i cls).finish := by
  have hwaiting : ∃ y l, ([0, 1].filterMap fun d => (s.runOf d p n).bind fun r => r.wait.map fun w => (w, r)) = (t, y) :: l := by
    cases h0 : s.runOf 0 p n with
    | none =>
      obtain rfl : d = 1 := by
        rcases (by omega : d = 0 ∨ d = 1) with rfl | rfl
        · exact absurd h (by simp [h0])
        · rfl
      exact ⟨r, [], by simp [h0, h, hwait]⟩
    | some y =>
      rcases hfirst y h0 with hy | hy
      · obtain rfl : d = 1 := by
          rcases (by omega : d = 0 ∨ d = 1) with rfl | rfl
          · rw [h0] at h
            obtain rfl := Option.some.inj h
            exact absurd hwait (by simp [hy])
          · rfl
        exact ⟨r, [], by simp [h0, h, hwait, hy]⟩
      · exact ⟨y, _, by rw [List.filterMap_cons_some (b := (t, y)) (by simp [h0, hy])]⟩
  obtain ⟨y, l, hl⟩ := hwaiting
  refine ⟨y.load, y.cls, ?_⟩
  change execTwinTimeout p n s = _
  unfold execTwinTimeout
  rw [hl]
  rfl

/-- Settles O34: the load unit's transfers, its SIGNAL and the twin compare. -/
theorem arrayTransfers : Obligations.ArrayTransfers := by
  unfold Obligations.ArrayTransfers
  refine ⟨fun a s n r i x hcalm harrs hturn hok hissue hretry hfail => ?_, fun p n d t s r hcalm hd harrs hrun hwait hfirst => ?_⟩
  · obtain ⟨hrun, -⟩ := State.descTurn_fields hturn
    have hcalmv := s.at_calm a.t hcalm
    refine ⟨fun hkind hfw hopen => ⟨_, exec_load hturn hok hissue hretry hfail hkind hfw hopen, State.transferred_moved _ _ _ _ hcalmv hrun⟩,
      fun hkind hdone hcmp hfw => ⟨_, exec_store hturn hok hissue hretry hfail hkind hdone hcmp hfw, State.transferred_moved _ _ _ _ hcalmv hrun⟩,
      fun hkind hdone hcmp hwait htwin => ⟨_, exec_store_waits hturn hok hissue hkind hdone hcmp hwait htwin, ?_⟩,
      fun w hkind hdone hnear hq htally hfit => signal_adds hcalm hturn hok hissue hkind hdone hnear hq htally hfit⟩
    have hk := (s.at a.t).setRun_keeps a.die { r with wait := some (s.at a.t).time, begun := true }
    have hf := hk.calm hcalmv
    refine ⟨?_, State.finish_keeps_of hf hk⟩
    have hset := State.setRun_runOf (r := { r with wait := some (s.at a.t).time, begun := true }) hrun rfl rfl
    rw [(State.finish_keeps_of hf (State.keeps_refl _ [])).runOf, hset]
    rfl
  · obtain ⟨i, cls, hexec⟩ := exec_twinTimeout hrun hd hwait hfirst
    have hcalmv := s.at_calm (t + 20000) hcalm
    obtain ⟨hgone, hstat, hrots, hk⟩ := (s.at (t + 20000)).cmpFail_after p n i cls (by rw [State.at_arrs, harrs])
    have hf := hk.calm hcalmv
    refine ⟨_, hexec, (State.finish_time _ hf).trans (hk .time (by decide)), fun e he => ?_, fun e he y hy => ?_, ?_⟩
    · rw [(State.finish_keeps_of hf (State.keeps_refl _ [])).runOf]
      exact hgone e he
    · rw [State.finish_arr hf]
      refine hstat e he y ?_
      rw [State.runOf, State.at_arr]
      exact hy
    · rw [State.finish_rots _ hf]
      exact hrots

end Sys2Proof.Machine
end

section
/-! SUPPORT. What the work of a fault leaves of the fault states: a unit that leaves service ends runs, solvings and items, which
changes no fault state, counts no lasting fault and gives no unit back (16_fault_handling.md R372 to R381). -/

namespace Sys2Proof.Machine

set_option Elab.async false

/-! ### The relation -/

/-- The fault states stand, as does the count of lasting faults, and what is retired stays so. -/
structure State.faultsAs (u s : State) : Prop where
  states : u.errs.states = s.errs.states
  lasting : u.rd Reg.errLasting = s.rd Reg.errLasting
  retired : ∀ x ∈ s.retired, x ∈ u.retired

variable {s u v : State}

theorem State.faultsAs_refl (s : State) : s.faultsAs s := ⟨rfl, rfl, fun _ h => h⟩

theorem State.faultsAs.trans (h : u.faultsAs v) (k : v.faultsAs s) : u.faultsAs s :=
  ⟨h.states.trans k.states, h.lasting.trans k.lasting, fun x hx => h.retired x (k.retired x hx)⟩

theorem State.faultsAs_ite {c : Prop} [Decidable c] {a b : State} (ha : a.faultsAs s) (hb : b.faultsAs s) : (if c then a else b).faultsAs s := by
  split
  · exact ha
  · exact hb

theorem State.faultsAs_foldl {α : Type} {f : State → α → State} (l : List α) (hf : ∀ v x, (f v x).faultsAs v) (h : u.faultsAs s) :
    (l.foldl f u).faultsAs s := by
  induction l generalizing u with
  | nil => exact h
  | cons x r ih => exact ih ((hf u x).trans h)

theorem State.faultsAs.faultSt (h : u.faultsAs s) (k : FKey) : u.faultSt k = s.faultSt k := by rw [State.faultSt, State.faultSt, h.states]

theorem State.faultsAs.isRetired (h : u.faultsAs s) {n b : Nat} (hr : s.isRetired n b = true) : u.isRetired n b = true :=
  List.elem_eq_true_of_mem (h.retired _ (List.mem_of_elem_eq_true hr))

/-- A step that changes neither registers nor the collector. -/
theorem State.keeps.faultsAs {l : List Piece} (h : u.keeps s l) (hl : .regs ∉ l ∧ .errs ∉ l := by decide) : u.faultsAs s := by
  have herrs : u.errs = s.errs := h .errs hl.2
  exact ⟨by rw [herrs], h .regs hl.1 _ (by simp), fun x hx => by rwa [State.retired, herrs]⟩

/-- A step that counts elsewhere. -/
theorem State.keeps.faultsAs_of_rd {l : List Piece} (h : u.keeps s l) (hrd : u.rd Reg.errLasting = s.rd Reg.errLasting)
    (hl : .errs ∉ l := by decide) : u.faultsAs s := by
  have herrs : u.errs = s.errs := h .errs hl
  exact ⟨by rw [herrs], hrd, fun x hx => by rwa [State.retired, herrs]⟩

/-- A step that changes of the collector its records alone. -/
theorem State.relAs.faultsAs (h : u.relAs s) : u.faultsAs s := by
  have hstates : u.errs.bare.states = s.errs.bare.states := by rw [h.errs]
  have hret : u.errs.bare.list ++ u.errs.bare.extra = s.errs.bare.list ++ s.errs.bare.extra := by rw [h.errs]
  exact ⟨hstates, h.rd _ (by decide), fun x hx => by rw [State.retired]; exact (show _ = _ from hret) ▸ hx⟩

variable (s)

theorem State.inc_faultsAs {o : Nat} (n : Nat) (ho : o ≠ Reg.errLasting) : (s.inc o n).faultsAs s :=
  (s.inc_keeps o n).faultsAs_of_rd (s.rd_inc_ne _ _ _ ho.symm)

theorem State.incDie_faultsAs {o : Nat} (n : Nat) (ho : 0x200000 ≤ o) : (s.inc o n).faultsAs s :=
  s.inc_faultsAs n (by rintro rfl; exact absurd ho (by decide))

/-! ### Runs, solvings and items that end -/

theorem State.countRun_faultsAs (d : Nat) (r : ARun) (result : Nat) : (s.countRun d r result).faultsAs s := by
  have hinc {o : Nat} (h : 0x200000 ≤ o) : (s.inc o).faultsAs s := s.incDie_faultsAs 1 h
  exact State.faultsAs_ite ((State.tdc_relAs _ _ _ (by decide)).faultsAs.trans (hinc (by simp only [Reg.garLateRun]; omega))) <|
    State.faultsAs_ite (s.tdc_relAs _ _ (by decide)).faultsAs <|
    State.faultsAs_ite ((State.tdc_relAs _ _ _ (by decide)).faultsAs.trans (hinc (by simp only [Reg.garCmpFail]; omega))) <|
    State.faultsAs_ite ((State.tdc_relAs _ _ _ (by decide)).faultsAs.trans (hinc (by simp only [Reg.garPoison]; omega))) <|
    State.faultsAs_ite (hinc (by simp only [Reg.garDescErr]; omega)) s.faultsAs_refl

theorem State.endRun_faultsAs (d : Nat) (r : ARun) (result t : Nat) : (s.endRun d r result t).faultsAs s :=
  State.faultsAs_ite (s.setArr_keeps _ _).faultsAs <| (State.raiseP_relAs _ _ _).faultsAs.trans <| (State.countRun_faultsAs _ _ _ _).trans
    (s.setArr_keeps _ _).faultsAs

theorem State.endRuns_faultsAs (d : Nat) (p : ARun → Bool) (result t : Nat) : (s.endRuns d p result t).faultsAs s :=
  State.faultsAs_foldl _ (fun v r => v.endRun_faultsAs d r result t) s.faultsAs_refl

theorem State.noResult_faultsAs (i : Nat) : (s.noResult i).faultsAs s :=
  State.faultsAs_ite ((State.tdc_relAs _ _ _ (by decide)).faultsAs.trans (s.setEng_keeps _ _).faultsAs) s.faultsAs_refl

theorem State.postOne_faultsAs (fn q : Nat) : (s.postOne fn q).faultsAs s := by
  unfold State.postOne
  dsimp only
  split
  · exact s.faultsAs_refl
  · have hposted (a : Nat) (b : List Byte) (x : HQueue) : ((s.toHost a b).setHq fn q x).faultsAs s :=
      (State.setHq_keeps _ _ _ _).faultsAs.trans (s.toHost_keeps _ _).faultsAs
    exact State.faultsAs_ite s.faultsAs_refl <| State.faultsAs_ite ((State.raiseP_relAs _ _ _).faultsAs.trans (hposted _ _ _)) (hposted _ _ _)

theorem State.complete_faultsAs (fn q cid status result : Nat) (notify : Bool) : (s.complete fn q cid status result notify).faultsAs s :=
  State.faultsAs_ite s.faultsAs_refl
    ((State.faultsAs_foldl _ (fun v _ => v.postOne_faultsAs fn q) (State.faultsAs_refl _)).trans (s.setHq_keeps _ _ _).faultsAs)

theorem State.copyDone_faultsAs (fn q status result : Nat) : (s.copyDone fn q status result).faultsAs s := by
  unfold State.copyDone
  dsimp only
  split
  · exact s.faultsAs_refl
  · exact State.faultsAs_ite (s.setHq_keeps _ _ _).faultsAs ((State.complete_faultsAs _ _ _ _ _ _ _).trans (s.setHq_keeps _ _ _).faultsAs)

theorem State.failItem_faultsAs (d : Nat) (i : Item) : (s.failItem d i).faultsAs s := by
  unfold State.failItem
  extract_lets v
  have hv : v.faultsAs s := (State.log_relAs _ _).faultsAs.trans <| (State.trace_relAs _ _ _ _ _ _).faultsAs.trans
    (s.incDie_faultsAs 1 (by simp only [Reg.schNoCore]; omega))
  exact State.faultsAs_ite ((State.copyDone_faultsAs _ _ _ _ _).trans hv) hv

theorem State.failUnserved_faultsAs (d : Nat) : (s.failUnserved d).faultsAs s :=
  State.faultsAs_ite s.faultsAs_refl (State.faultsAs_foldl _ (fun v i => v.failItem_faultsAs d i) (s.setSch_keeps _ _).faultsAs)

theorem State.unhost_faultsAs (k : Nat) : (s.unhost k).faultsAs s :=
  (State.setCore_keeps _ _ _).faultsAs.trans <| (State.incDie_faultsAs _ _ (by simp only [Reg.slvLateHandoff]; omega)).trans <|
    State.faultsAs_foldl _ (fun v i => State.faultsAs_ite ((State.setEng_keeps _ _ _).faultsAs.trans (v.noResult_faultsAs i)) v.faultsAs_refl)
      s.faultsAs_refl

theorem State.returnSlots_faultsAs (k : Nat) : (s.returnSlots k).faultsAs s :=
  State.faultsAs_foldl _ (fun v i => (v.trace_relAs _ _ _ i _).faultsAs) (s.setSch_keeps _ _).faultsAs

theorem State.discardBuf_faultsAs (k : Nat) : (s.discardBuf k).faultsAs s :=
  (State.setCore_keeps _ _ _).faultsAs.trans <| (State.zero_keeps _ _ _).faultsAs.trans <| State.faultsAs_foldl _
    (fun v _ => State.faultsAs_ite v.faultsAs_refl ((State.tdc_relAs _ _ _ (by decide)).faultsAs.trans
      (v.incDie_faultsAs _ (by simp only [Reg.prbTruncCount]; omega)))) s.faultsAs_refl

/-! ### Fault states read back -/

theorem State.faultSt_key (k : FKey) : (s.faultSt k).key = k := by
  unfold State.faultSt
  cases h : s.errs.states.find? (·.key == k) with
  | none => rfl
  | some x => simpa using List.find?_some h

theorem State.faultSt_setFault_same {x : FaultSt} {k : FKey} (h : x.key = k) : (s.setFault x).faultSt k = x := by
  simp [State.faultSt, State.setFault, h]

theorem State.faultSt_setFault_of_ne {x : FaultSt} {k : FKey} (h : k ≠ x.key) : (s.setFault x).faultSt k = s.faultSt k := by
  have hfind (l : List FaultSt) : (l.filter (·.key != x.key)).find? (·.key == k) = l.find? (·.key == k) := by
    rw [List.find?_filter]
    congr 1
    funext y
    by_cases hy : y.key = k
    · simp [hy, h]
    · simp [hy]
  have hx : (x.key == k) = false := by simpa using Ne.symm h
  rw [State.faultSt, State.faultSt, State.setFault, List.find?_cons, hx]
  exact congrArg (Option.getD · _) (hfind _)

/-! ### A unit isolated -/

/-- A unit with slices, in ISOLATE once a lasting fault is found (R372, R373). -/
theorem State.isolate_after {n : Nat} (ref t : Nat) (h : n % 512 ≤ 88) :
    ((s.isolate n ref t).faultSt (.unit n 0)).phase = .isolate
    ∧ (s.isolate n ref t).rd Reg.errLasting = satAdd (s.rd Reg.errLasting) 1 := by
  unfold State.isolate
  rw [if_pos h]
  generalize hset : (s.inc Reg.errLasting).setFault _ = v
  have hphase : (v.faultSt (.unit n 0)).phase = .isolate := by
    rw [← hset]
    rw [State.faultSt_setFault_same]
    exact s.faultSt_key _
  have hrd : v.rd Reg.errLasting = satAdd (s.rd Reg.errLasting) 1 := by
    rw [← hset]
    exact s.rd_inc_same _ _
  have hrots (r : List Rotation) := (v.setRots_keeps r).faultsAs
  have hcore (r : List Rotation) (k d : Nat) := (State.failUnserved_faultsAs _ d).trans <| (State.returnSlots_faultsAs _ k).trans <|
    (State.unhost_faultsAs _ k).trans (hrots r)
  dsimp only
  split
  · exact ⟨by rw [(hcore _ _ _).faultSt]; exact hphase, (hcore _ _ _).lasting.trans hrd⟩
  · exact ⟨by rw [(hrots _).faultSt]; exact hphase, (hrots _).lasting.trans hrd⟩

/-! ### A unit retired -/

theorem State.listRetired_faultsAs (n b : Nat) : (s.listRetired n b).faultsAs s ∧ (s.listRetired n b).isRetired n b = true := by
  unfold State.listRetired
  dsimp only
  split
  · exact ⟨⟨rfl, rfl, fun x hx => by simp only [State.retired, List.mem_append] at hx ⊢; tauto⟩, by simp [State.isRetired, State.retired]⟩
  · exact ⟨⟨rfl, rfl, fun x hx => by simp only [State.retired, List.mem_append] at hx ⊢; tauto⟩, by simp [State.isRetired, State.retired]⟩

theorem State.dropSlices_faultsAs (n : Nat) : (s.dropSlices n).faultsAs s := (s.dropSlices_keeps n).faultsAs

/-- A whole unit retired: it is in the list, and no fault state changes. -/
theorem State.retireOne_after (n ref t : Nat) : (s.retireOne n 0 ref t).faultsAs s ∧ (s.retireOne n 0 ref t).isRetired n = true := by
  by_cases hr : s.isRetired n = true
  · unfold State.retireOne
    rw [if_pos hr]
    exact ⟨s.faultsAs_refl, hr⟩
  obtain ⟨hl, hin⟩ := s.listRetired_faultsAs n 0
  have hout : (((((s.listRetired n 0).log
      { kind := ekRETIRED, act := 7, unit := n + 0 * 4096, time := t, ref }).inc Reg.errRetireCount).raise isrcRETIRED).dropSlices n).faultsAs
      (s.listRetired n 0) :=
    (State.dropSlices_faultsAs _ n).trans <| (State.raise_relAs _ _).faultsAs.trans <| (State.inc_faultsAs _ 1 (by decide)).trans
      (State.log_relAs _ _).faultsAs
  suffices hone : (s.retireOne n 0 ref t).faultsAs (s.listRetired n 0) from ⟨hone.trans hl, hone.isRetired hin⟩
  unfold State.retireOne
  rw [if_neg hr]
  dsimp only
  rw [if_pos rfl, if_neg (by simp)]
  generalize (((((s.listRetired n 0).log _).inc Reg.errRetireCount).raise isrcRETIRED).dropSlices n) = w at hout ⊢
  have hoff (x : State) (hx : x.faultsAs w) : (x.powerOff n).faultsAs (s.listRetired n 0) := (x.powerOff_keeps n).faultsAs.trans (hx.trans hout)
  refine State.faultsAs_ite ?_ <| State.faultsAs_ite (hoff _ (w.noResult_faultsAs _)) <|
    State.faultsAs_ite (hoff _ (w.endRuns_faultsAs _ _ _ _)) (hoff _ w.faultsAs_refl)
  have hcore (k d : Nat) := (State.failUnserved_faultsAs _ d).trans <| (State.reissue_keeps _ k).faultsAs.trans <|
    (State.readmit_keeps _ k).faultsAs.trans <| (State.returnSlots_faultsAs _ k).trans (w.unhost_faultsAs k)
  have hbuf (c : Prop) [Decidable c] (k d : Nat) := State.faultsAs_ite (c := c) ((State.discardBuf_faultsAs _ k).trans (hcore k d)) (hcore k d)
  exact State.faultsAs_ite ((hbuf _ _ _).trans hout) (hoff _ (hbuf _ _ _))

theorem State.stopPart_faultsAs (p t : Nat) : (s.stopPart p t).faultsAs s := (s.stopPart_keeps p t).faultsAs

theorem State.stopUnable_faultsAs (ref t : Nat) : (s.stopUnable ref t).faultsAs s :=
  State.faultsAs_foldl _ (fun v p => (State.log_relAs _ _).faultsAs.trans (v.stopPart_faultsAs p t)) s.faultsAs_refl

/-- A whole unit retired with what follows from it. -/
theorem State.retire_after (n ref t : Nat) : (s.retire n 0 ref t).faultsAs s ∧ (s.retire n 0 ref t).isRetired n = true := by
  obtain ⟨hone, hin⟩ := s.retireOne_after n ref t
  suffices h : (s.retire n 0 ref t).faultsAs (s.retireOne n 0 ref t) from ⟨h.trans hone, h.isRetired hin⟩
  unfold State.retire
  simp only [ne_eq, not_true_eq_false, false_and, if_false]
  refine (State.stopUnable_faultsAs _ _ _).trans (State.faultsAs_ite ?_ (State.faultsAs_refl _))
  exact State.faultsAs_foldl _ (fun v i => (v.retireOne_after _ ref t).1) (State.setFld_keeps _ _).faultsAs

end Sys2Proof.Machine
end

section
/-! SUPPORT. Error events, and what of memory each meets before it counts (16_fault_handling.md R369 to R374, R381, R384). -/

namespace Sys2Proof.Machine

set_option Elab.async false

variable {s u v : State}

/-! ### Counts in states that agree -/

theorem State.keeps.faultSt {l : List Piece} (h : u.keeps s l) (k : FKey) (hl : .errs ∉ l := by decide) : u.faultSt k = s.faultSt k := by
  have herrs : u.errs = s.errs := h .errs hl
  rw [State.faultSt, State.faultSt, herrs]

theorem State.keeps.gone {l : List Piece} (h : u.keeps s l) (k : FKey) (hl : .errs ∉ l := by decide) : k.gone u = k.gone s := by
  have herrs : u.errs = s.errs := h .errs hl
  cases k <;> simp only [FKey.gone, State.isRetired, State.retired, herrs]

theorem State.keeps.count {l : List Piece} (h : u.keeps s l) (k : FKey) (kind t : Nat) (hl : .errs ∉ l ∧ .parts ∉ l ∧ .loader ∉ l := by decide) :
    u.count k kind t = s.count k kind t := by
  have hcfg : u.cfg = s.cfg := congrArg (fun x : Loader => x.active.getD {}) (h .loader hl.2.2)
  have hprun (p : Nat) : u.prun p = s.prun p := h.prun p hl.2.1
  have hrun (p : Nat) : u.running p = s.running p := by rw [State.running, State.running, hprun]
  have hperiod (p : Nat) : u.period p = s.period p := by rw [State.period, State.period, State.pcfg, State.pcfg, hcfg]
  have hframe (p : Nat) : u.frameAt p t = s.frameAt p t := by rw [State.frameAt, State.frameAt, hperiod, hprun]
  have hmaster : u.masterFrame t = s.masterFrame t := by
    simp only [State.masterFrame, State.master, hcfg, hprun, hrun, hframe]
  simp only [State.count, h.faultSt k hl.1, hmaster, hcfg]

theorem State.count_key (s : State) (k : FKey) (kind t : Nat) : (s.count k kind t).1.key = k := by
  unfold State.count
  dsimp only
  split
  · exact s.faultSt_key k
  · exact s.faultSt_key k

/-! ### What an event meets in memory -/

/-- The registers below the planner dies' stand. -/
def State.lowAs (u s : State) : Prop := ∀ o < 0x200000, u.rd o = s.rd o

theorem State.lowAs.trans (h : u.lowAs v) (k : v.lowAs s) : u.lowAs s := fun o ho => (h o ho).trans (k o ho)

theorem State.keeps.lowAs {l : List Piece} (h : u.keeps s l) (hl : .regs ∉ l := by decide) : u.lowAs s := fun o _ => h .regs hl o (by simp)

variable (s)

theorem State.wr_lowAs {o : Nat} (x : Word) (ho : 0x200000 ≤ o) : (s.wr o x).lowAs s := fun i hi => s.rd_wr_ne _ _ _ (by omega)

theorem State.inc_lowAs {o : Nat} (n : Nat) (ho : 0x200000 ≤ o) : (s.inc o n).lowAs s := fun i hi => s.rd_inc_ne _ _ _ (by omega)

theorem State.coreEcc_keeps (a : Nat) (ue : Bool) : (s.coreEcc a ue).keeps s [.regs] :=
  State.keeps_ite (State.keeps_ite (s.wrBits_keeps _ _ _ _) (s.wrBits_keeps _ _ _ _)) (s.keeps_refl _)

theorem State.coreEcc_lowAs (a : Nat) (ue : Bool) : (s.coreEcc a ue).lowAs s := by
  unfold State.coreEcc
  dsimp only
  split
  · split
    · exact s.wr_lowAs _ (by simp only [Reg.memCoreEcc, Reg.coreBase]; omega)
    · exact s.wr_lowAs _ (by simp only [Reg.memCoreEcc, Reg.coreBase]; omega)
  · exact fun _ _ => rfl

theorem State.eccMet_keeps (a : Nat) (double : Bool) : (s.eccMet a double).keeps s [.regs, .mem] :=
  State.keeps_ite ((State.wr64_keeps _ _ _).after <| (State.coreEcc_keeps _ _ _).after <| (State.inc_keeps _ _ _).after (s.mark_keeps _ _ _).widen)
    ((State.coreEcc_keeps _ _ _).after (s.inc_keeps _ _).widen)

theorem State.eccMet_lowAs (a : Nat) (double : Bool) : (s.eccMet a double).lowAs s := by
  unfold State.eccMet
  dsimp only
  split
  · refine ((State.wr_lowAs _ _ ?_).trans (State.wr_lowAs _ _ ?_)).trans ((State.coreEcc_lowAs _ _ _).trans ((State.inc_lowAs _ _ ?_).trans
      (s.mark_keeps _ _ _).lowAs)) <;> simp only [Reg.memUeAddrLo, Reg.memUe] <;> omega
  · exact (State.coreEcc_lowAs _ _ _).trans (s.inc_lowAs _ (by simp only [Reg.memCe]; omega))

theorem State.blockLost_keeps (a n : Nat) : (s.blockLost a n).keeps s [.fld, .engs] := by
  unfold State.blockLost
  split
  · exact State.keeps_ite (State.setStore_keeps _ _ _).widen (s.keeps_refl _)
  · exact (s.setEngs_keeps _).widen

theorem State.memMeets_keeps {e : EventIn} (h : e.kind ≠ ekCRC_ERR) : (s.memMeets e).keeps s [.regs, .mem] := by
  unfold State.memMeets
  rw [if_neg h]
  exact State.keeps_ite (s.eccMet_keeps _ _) <| State.keeps_ite (s.eccMet_keeps _ _) <| State.keeps_ite (s.keeps_refl _) <|
    State.keeps_ite (s.inc_keeps _ _).widen (s.keeps_refl _)

/-- A block that mismatched twice, poisoned and counted. -/
theorem State.spoilt_leaves (a n o : Nat) : ((s.spoil a n).inc o).leaves s [.regs, .mem, .dev, .fld, .engs] :=
  ((s.spoil a n).inc_keeps o 1).leaves.trans (s.spoil_leaves a n).mono

theorem State.memMeets_leaves (e : EventIn) : (s.memMeets e).leaves s [.regs, .mem, .dev, .fld, .engs] := by
  by_cases h : e.kind = ekCRC_ERR
  · unfold State.memMeets
    rw [h, if_neg (fun hc => absurd hc.1 (by decide)), if_neg (fun hc => absurd hc.1 (by decide)), if_neg (c := ekCRC_ERR = ekCRC_RETRY) (by decide), if_pos rfl]
    exact State.leaves_ite (s.leaves_refl _) ((State.blockLost_keeps _ _ _).leaves.trans (s.spoilt_leaves _ _ _))
  · exact (s.memMeets_keeps h).leaves

theorem State.memMeets_lowAs (e : EventIn) : (s.memMeets e).lowAs s := by
  have hspoil (a n : Nat) : (s.spoil a n).lowAs s := (s.spoil_leaves a n).keeps.lowAs
  unfold State.memMeets
  split
  · exact s.eccMet_lowAs _ _
  split
  · exact s.eccMet_lowAs _ _
  split
  · exact fun _ _ => rfl
  split
  · exact s.inc_lowAs _ (by simp only [Reg.memCrcRetry]; omega)
  split
  · exact (State.blockLost_keeps _ _ _).lowAs.trans ((State.inc_lowAs _ _ (by simp only [Reg.memCrcErr]; omega)).trans (hspoil _ _))
  · exact fun _ _ => rfl

/-! ### Events that prove no lasting fault -/

variable {s}

/-- An event that counts in its fault state, below its limit. -/
theorem State.event_of_transient {e : EventIn} {k : FKey} (hkey : countKey e = some k) (hun : e.kind ≠ ekUNATTRIB)
    (hdie : ¬(e.kind = ekLINK_DOWN ∨ (e.kind = ekECC_UE ∧ e.unit ≠ noUnit ∧ e.unit % 512 = 104))) (hgone : k.gone s = false)
    (hlasts : s.lasts k e = false) :
    s.event e = if (s.count k e.kind (tick e.t)).2.2 then (s.recorded k e 0).2.inc Reg.errTransient else (s.recorded k e 0).2 := by
  rw [s.event_of_key 0 hkey hun hdie, if_neg (by simp [hgone]), State.countedEvent, if_neg (by simp [hlasts])]

theorem State.recorded_states (k : FKey) (e : EventIn) (ref : Nat) : (s.recorded k e ref).2.errs.states = (s.tallied k e).errs.states :=
  ((s.tallied k e).log_relAs _).faultsAs.states

theorem State.tallied_seq (k : FKey) (e : EventIn) : (s.tallied k e).errs.seq = s.errs.seq := by
  unfold State.tallied
  split
  · rfl
  · rw [(s.inc_keeps _ _ : State.keeps _ _ _) .errs (by decide)]

theorem State.tallied_faultSt (k : FKey) (e : EventIn) :
    (s.tallied k e).faultSt k = if (s.count k e.kind (tick e.t)).2.2 then (s.count k e.kind (tick e.t)).1 else s.faultSt k := by
  unfold State.tallied
  split
  · exact s.faultSt_setFault_same (s.count_key _ _ _)
  · exact (s.inc_keeps _ _).faultSt k

/-- What an event below its limit leaves: one record, its fault state, and its count as transient or coalesced. -/
theorem State.event_of_transient_after {e : EventIn} {k : FKey} (hkey : countKey e = some k) (hun : e.kind ≠ ekUNATTRIB)
    (hdie : ¬(e.kind = ekLINK_DOWN ∨ (e.kind = ekECC_UE ∧ e.unit ≠ noUnit ∧ e.unit % 512 = 104))) (hgone : k.gone s = false)
    (hlasts : s.lasts k e = false) :
    (s.event e).errs.seq = s.errs.seq + 1
    ∧ (s.event e).faultSt k = (if (s.count k e.kind (tick e.t)).2.2 then (s.count k e.kind (tick e.t)).1 else s.faultSt k)
    ∧ (s.event e).rd (if (s.count k e.kind (tick e.t)).2.2 then Reg.errTransient else Reg.errCoalesced)
      = satAdd (s.rd (if (s.count k e.kind (tick e.t)).2.2 then Reg.errTransient else Reg.errCoalesced)) 1
    ∧ (s.event e).keeps s [.errs, .regs, .ints, .fresh, .mem] := by
  have hseq : (s.recorded k e 0).2.errs.seq = s.errs.seq + 1 := by
    rw [← s.tallied_seq k e]
    exact State.log_seq _ _
  have hfault : (s.recorded k e 0).2.faultSt k = (s.tallied k e).faultSt k := by rw [State.faultSt, State.faultSt, State.recorded_states]
  have hrd (o : Nat) (ho : trigReg o = false) : (s.recorded k e 0).2.rd o = (s.tallied k e).rd o := State.log_spares _ _ o ho
  have hk : (s.recorded k e 0).2.keeps s [.errs, .regs, .ints, .fresh, .mem] := (s.recorded_keeps k e 0).widen
  rw [State.tallied_faultSt] at hfault
  rw [State.event_of_transient hkey hun hdie hgone hlasts]
  by_cases hc : (s.count k e.kind (tick e.t)).2.2 = true
  · rw [if_pos hc] at hfault
    simp only [hc, if_true]
    have hinc := State.inc_keeps (s.recorded k e 0).2 Reg.errTransient 1
    refine ⟨?_, (hinc.faultSt k).trans hfault, ?_, State.keeps.after hinc hk⟩
    · rw [hinc .errs (by decide), hseq]
    · rw [State.rd_inc_same, hrd _ (by decide), State.tallied, if_pos hc]
      rfl
  · rw [if_neg hc] at hfault
    simp only [hc, Bool.false_eq_true, if_false]
    refine ⟨hseq, hfault, ?_, hk⟩
    rw [hrd _ (by decide), State.tallied, if_neg hc, State.rd_inc_same]

/-- An event that counts against nothing. -/
theorem State.event_of_plain_after {e : EventIn} (hkey : countKey e = none) (hlink : e.kind ≠ ekLINK_DOWN) :
    (s.event e).errs.seq = s.errs.seq + 1 ∧ (s.event e).errs.states = s.errs.states ∧ (s.event e).keeps s [.errs, .regs, .ints, .fresh, .mem] := by
  have hun : e.kind ≠ ekUNATTRIB := by
    intro h
    rw [countKey, h] at hkey
    simp [ekUNATTRIB, ekECC_CE, ekECC_UE, ekCRC_RETRY, ekCRC_ERR, ekDUP_DISAGREE, ekCHK_RECOMPUTE, ekCHK_FAIL, ekREPLICA] at hkey
  have hdie : ¬(e.kind = ekLINK_DOWN ∨ (e.kind = ekECC_UE ∧ e.unit ≠ noUnit ∧ e.unit % 512 = 104)) := by
    rintro (h | ⟨h, hunit, -⟩)
    · exact hlink h
    · rw [countKey, h] at hkey
      simp [ekECC_CE, ekECC_UE, hunit] at hkey
  rw [s.event_of_uncounted 0 hkey hun, if_neg hdie]
  exact ⟨s.log_seq _, (s.log_relAs _).faultsAs.states, (s.log_keeps _).widen⟩

end Sys2Proof.Machine
end

section
/-! SUPPORT. Fault states and the collector's commands (16_fault_handling.md R369 to R374, R381, R384). -/

namespace Sys2Proof.Machine

set_option Elab.async false

variable {s u v : State}

/-! ### Error events -/

theorem exec_errorEvent {e : EventIn} (hup : s.dev.up = true) (hunit : e.unit ≠ unitId 1 113) :
    exec (.errorEvent e) s = .next (((s.at e.t).memMeets e).event e).finish := by
  have hone : oneLink e = e := by rw [oneLink, if_neg hunit]
  have hrep : (s.at e.t).reported e = false := by rw [State.reported, beq_eq_false_iff_ne.mpr hunit, Bool.false_and]
  change execErrorEvent e s = _
  unfold execErrorEvent
  dsimp only
  rw [hrep, hone, if_pos ⟨by rw [State.at_dev]; exact hup, rfl⟩]
  rfl

/-- DIE 1's second report of an event of the PD0–PD1 link. -/
theorem exec_errorEvent_reported {e : EventIn} (h : (s.at e.t).reported e = true) : exec (.errorEvent e) s = .next (s.at e.t).finish := by
  change execErrorEvent e s = _
  unfold execErrorEvent
  dsimp only
  rw [h, if_neg (fun hc => absurd hc.2 (by decide))]
  rfl

/-- DIE 1's report, where DIE 0 has none. -/
theorem exec_errorEvent_far {e : EventIn} (hup : s.dev.up = true) (hunit : e.unit = unitId 1 113) (h : (s.at e.t).reported e = false) :
    exec (.errorEvent e) s = exec (.errorEvent { e with unit := unitId 0 113 }) s := by
  have hone : oneLink e = { e with unit := unitId 0 113 } := by rw [oneLink, if_pos hunit]
  rw [exec_errorEvent (e := { e with unit := unitId 0 113 }) hup (show unitId 0 113 ≠ unitId 1 113 by decide)]
  change execErrorEvent e s = _
  unfold execErrorEvent
  dsimp only
  rw [h, hone, if_pos ⟨by rw [State.at_dev]; exact hup, rfl⟩]
  rfl

/-- What an error event may change. -/
def errorPieces : List Piece := [.errs, .regs, .ints, .fresh, .mem, .dev, .fld, .engs]

/-- The frame of an error event that proves no lasting fault. -/
theorem State.met_finish {e : EventIn} (hcalm : s.calm)
    (h : (((s.at e.t).memMeets e).event e).keeps ((s.at e.t).memMeets e) [.errs, .regs, .ints, .fresh, .mem]) :
    (((s.at e.t).memMeets e).event e).finish.keeps (s.at e.t) errorPieces
    ∧ (((s.at e.t).memMeets e).event e).dev.fall = none
    ∧ (e.kind ≠ ekCRC_ERR → (((s.at e.t).memMeets e).event e).finish.dev = s.dev ∧ (((s.at e.t).memMeets e).event e).finish.fld = s.fld
      ∧ (((s.at e.t).memMeets e).event e).finish.engs = s.engs) := by
  have hcalmv := s.at_calm e.t hcalm
  have hl : (((s.at e.t).memMeets e).event e).leaves (s.at e.t) errorPieces :=
    (State.keeps.leaves h).trans ((s.at e.t).memMeets_leaves e).mono
  refine ⟨hl.finish hcalmv, hl.calm hcalmv, fun hne => ?_⟩
  have hk : (((s.at e.t).memMeets e).event e).finish.keeps (s.at e.t) [.errs, .regs, .ints, .fresh, .mem] :=
    State.finish_keeps_of (hl.calm hcalmv) (State.keeps_trans h ((s.at e.t).memMeets_keeps hne).widen)
  exact ⟨(hk .dev (by decide)).trans (s.at_dev _), (hk .fld (by decide)).trans (s.at_fld _), (hk .engs (by decide)).trans (s.at_engs _)⟩

/-- An event with a key other than those of a planner die is no fault of one. -/
theorem not_dieFault {e : EventIn} {k : FKey} (hkey : countKey e = some k) (h : ¬(e.kind = ekECC_UE ∧ e.unit % 512 = 104)) :
    ¬(e.kind = ekLINK_DOWN ∨ (e.kind = ekECC_UE ∧ e.unit ≠ noUnit ∧ e.unit % 512 = 104)) := by
  rintro (hlink | ⟨hue, -, hpos⟩)
  · rw [countKey, hlink] at hkey
    simp [ekLINK_DOWN, ekUNATTRIB, ekECC_CE, ekECC_UE, ekCRC_RETRY, ekCRC_ERR, ekDUP_DISAGREE, ekCHK_RECOMPUTE, ekCHK_FAIL, ekREPLICA] at hkey
  · exact h ⟨hue, hpos⟩

/-- An error event that counts against nothing. -/
theorem State.errorEvent_plain {e : EventIn} (hcalm : s.calm) (hup : s.dev.up = true) (hunit : e.unit ≠ unitId 1 113)
    (hkey : countKey e = none) (hlink : e.kind ≠ ekLINK_DOWN) :
    ∃ u, exec (.errorEvent e) s = .next u ∧ u.errs.seq = s.errs.seq + 1 ∧ u.errs.states = s.errs.states ∧ u.keeps (s.at e.t) errorPieces
      ∧ (e.kind ≠ ekCRC_ERR → u.dev = s.dev ∧ u.fld = s.fld ∧ u.engs = s.engs) := by
  obtain ⟨hseq, hstates, hk⟩ := ((s.at e.t).memMeets e).event_of_plain_after hkey hlink
  obtain ⟨hframe, hf, hmild⟩ := State.met_finish hcalm hk
  have herrs : ((s.at e.t).memMeets e).errs = s.errs := (((s.at e.t).memMeets_leaves e).keeps .errs (by decide)).trans (s.at_errs _)
  refine ⟨_, exec_errorEvent hup hunit, ?_, ?_, hframe, hmild⟩
  · rw [State.finish_errs _ hf, hseq, herrs]
  · rw [State.finish_errs _ hf, hstates, herrs]

/-- An error event counted below its limit. -/
theorem State.errorEvent_counted {e : EventIn} {k : FKey} (hcalm : s.calm) (hup : s.dev.up = true) (hunit : e.unit ≠ unitId 1 113)
    (hkey : countKey e = some k) (hchk : e.kind ≠ ekCHK_FAIL) (hun : e.kind ≠ ekUNATTRIB) (hue : ¬(e.kind = ekECC_UE ∧ e.unit % 512 = 104))
    (hgone : k.gone s = false) (hlim : ((s.at e.t).count k e.kind (tick e.t)).2.1 < (s.cfg.faults.limits e.kind).1) :
    ∃ u, exec (.errorEvent e) s = .next u ∧ u.errs.seq = s.errs.seq + 1
      ∧ u.faultSt k = (if ((s.at e.t).count k e.kind (tick e.t)).2.2 then ((s.at e.t).count k e.kind (tick e.t)).1 else s.faultSt k)
      ∧ u.rd (if ((s.at e.t).count k e.kind (tick e.t)).2.2 then Reg.errTransient else Reg.errCoalesced)
        = satAdd ((s.at e.t).rd (if ((s.at e.t).count k e.kind (tick e.t)).2.2 then Reg.errTransient else Reg.errCoalesced)) 1
      ∧ u.keeps (s.at e.t) errorPieces ∧ (e.kind ≠ ekCRC_ERR → u.dev = s.dev ∧ u.fld = s.fld ∧ u.engs = s.engs) := by
  have hmet := ((s.at e.t).memMeets_leaves e).keeps
  have hcount : ((s.at e.t).memMeets e).count k e.kind (tick e.t) = (s.at e.t).count k e.kind (tick e.t) := hmet.count _ _ _
  have hfault : ((s.at e.t).memMeets e).faultSt k = s.faultSt k := (hmet.faultSt k).trans ((s.at_keeps e.t).faultSt k)
  have herrs : ((s.at e.t).memMeets e).errs = s.errs := (hmet .errs (by decide)).trans (s.at_errs _)
  have hgonev : k.gone ((s.at e.t).memMeets e) = false := (hmet.gone k).trans (((s.at_keeps e.t).gone k).trans hgone)
  have hcfg : ((s.at e.t).memMeets e).cfg = s.cfg :=
    congrArg (fun x : Loader => x.active.getD {}) ((hmet .loader (by decide)).trans (s.at_loader e.t))
  have hlasts : ((s.at e.t).memMeets e).lasts k e = false := by
    rw [State.lasts, hcount, hcfg, beq_eq_false_iff_ne.mpr hchk, decide_eq_false (by omega)]
    simp
  obtain ⟨hseq, hst, hrd, hk⟩ := State.event_of_transient_after hkey hun (not_dieFault hkey hue) hgonev hlasts
  obtain ⟨hframe, hf, hmild⟩ := State.met_finish hcalm hk
  rw [hcount] at hst hrd
  refine ⟨_, exec_errorEvent hup hunit, ?_, ?_, ?_, hframe, hmild⟩
  · rw [State.finish_errs _ hf, hseq, herrs]
  · rw [(State.finish_keeps _ hf).faultSt, hst, hfault]
  · rw [State.finish_rd _ hf, hrd, (s.at e.t).memMeets_lowAs e _ (by split <;> decide)]

/-- An error event that reaches the limit at a unit with slices. -/
theorem State.errorEvent_lasting {e : EventIn} {n b : Nat} (hcalm : s.calm) (hup : s.dev.up = true) (hunit : e.unit ≠ unitId 1 113)
    (hkey : countKey e = some (.unit n b)) (hun : e.kind ≠ ekUNATTRIB) (hue : ¬(e.kind = ekECC_UE ∧ e.unit % 512 = 104))
    (hpos : n % 512 ≤ 88) (hret : s.isRetired n b = false) (hlast : (s.at e.t).lasts (.unit n b) e = true) :
    ∃ u, exec (.errorEvent e) s = .next u ∧ (u.faultSt (.unit n 0)).phase = .isolate
      ∧ u.rd Reg.errLasting = satAdd ((s.at e.t).rd Reg.errLasting) 1 := by
  have hcalmv := s.at_calm e.t hcalm
  have hmet := (s.at e.t).memMeets_leaves e
  have hlow := (s.at e.t).memMeets_lowAs e
  have hexec := exec_errorEvent hup hunit
  have hgone : (FKey.unit n b).gone ((s.at e.t).memMeets e) = false := (hmet.keeps.gone _).trans (((s.at_keeps e.t).gone _).trans hret)
  have hlasts : ((s.at e.t).memMeets e).lasts (.unit n b) e = true := by
    have hcfg : ((s.at e.t).memMeets e).cfg = (s.at e.t).cfg :=
      congrArg (fun x : Loader => x.active.getD {}) (hmet.keeps .loader (by decide))
    rw [State.lasts, hmet.keeps.count, hcfg]
    exact hlast
  generalize (s.at e.t).memMeets e = v at *
  have hevent : v.event e = (v.recorded (.unit n b) e 0).2.isolate n (v.recorded (.unit n b) e 0).1 (tick e.t) := by
    rw [v.event_of_key 0 hkey hun (not_dieFault hkey hue), if_neg (by simp [hgone]), State.countedEvent, if_pos hlasts]
    rfl
  rw [hevent] at hexec
  have hrec := v.recorded_keeps (.unit n b) e 0
  have hf : ((v.recorded (.unit n b) e 0).2.isolate n (v.recorded (.unit n b) e 0).1 (tick e.t)).dev.fall = none :=
    (State.isolate_keeps _ n _ _).calm (hrec.calm (hmet.calm hcalmv))
  obtain ⟨hphase, hrd⟩ := (v.recorded (.unit n b) e 0).2.isolate_after (v.recorded (.unit n b) e 0).1 (tick e.t) hpos
  refine ⟨_, hexec, ?_, ?_⟩
  · rw [(State.finish_keeps _ hf).faultSt]
    exact hphase
  · have htallied : (v.tallied (.unit n b) e).rd Reg.errLasting = v.rd Reg.errLasting := by
      unfold State.tallied
      split
      · rfl
      · exact v.rd_inc_ne _ _ _ (by decide)
    rw [State.finish_rd _ hf, hrd, ← hlow Reg.errLasting (by decide), ← htallied]
    exact congrArg (satAdd · 1) (State.log_spares _ _ _ (by decide))

/-! ### States that time ends -/

theorem exec_faultWindowExpiry {n b t : Nat} (hphase : (s.faultSt (.unit n b)).phase = .watch) (hret : s.isRetired n b = false)
    (hold : ∀ e ∈ (s.faultSt (.unit n b)).evs, e.1 + (s.cfg.faults.limits e.2).2 ≤ (s.at t).time) :
    exec (.faultWindowExpiry n b t) s
      = .next ((s.at t).setFault { s.faultSt (.unit n b) with phase := .healthy, evs := [] }).finish := by
  have hf : (s.at t).faultSt (.unit n b) = s.faultSt (.unit n b) := (s.at_keeps t).faultSt _
  have hr : (s.at t).isRetired n b = false := by rw [State.isRetired, State.retired, State.at_errs]; exact hret
  change execFaultWindowExpiry n b t s = _
  unfold execFaultWindowExpiry
  dsimp only
  rw [hf, hr, if_pos ⟨hphase, rfl, List.all_eq_true.mpr fun e he => decide_eq_true (by rw [State.at_cfg]; exact hold e he)⟩]
  rfl

theorem exec_isolationTimeout {n t : Nat} (hphase : (s.faultSt (.unit n 0)).phase = .isolate) (hret : s.isRetired n = false)
    (hold : (s.faultSt (.unit n 0)).since + 2000000 ≤ (s.at t).time) :
    exec (.isolationTimeout n t) s = .next (((s.at t).setFault { s.faultSt (.unit n 0) with slices := [] }).retire n 0
      (s.faultSt (.unit n 0)).ref (s.at t).time).finish := by
  have hf : (s.at t).faultSt (.unit n 0) = s.faultSt (.unit n 0) := (s.at_keeps t).faultSt _
  have hr : (s.at t).isRetired n = false := by rw [State.isRetired, State.retired, State.at_errs]; exact hret
  change execIsolationTimeout n t s = _
  unfold execIsolationTimeout
  dsimp only
  rw [hf, hr, if_pos ⟨hphase, rfl, hold⟩]
  rfl

/-! ### The collector's commands -/

/-- CLEAR_RETIRED may be taken: in DEVELOP or RETURN, and nothing runs. -/
def State.mayClear (s : State) : Bool :=
  decide (s.fuses.lc = .develop ∨ s.fuses.lc = .ret) && s.parts.all fun x => decide (x.st ≠ .running)

theorem State.errCommand_clear (s : State) : s.errCommand 1
    = { s.wr Reg.errCmd 1 with errs := { s.errs with clear := s.errs.clear || s.mayClear } } := by
  have hrun : (s.parts.any fun x => decide (x.st = .running)) = !(s.parts.all fun x => decide (x.st ≠ .running)) := by
    rw [List.any_eq_not_all_not]
    simp only [decide_not]
  unfold State.errCommand
  dsimp only
  by_cases hc : s.mayClear = true
  · obtain ⟨hlc, hall⟩ := Bool.and_eq_true_iff.mp hc
    rw [if_pos ⟨rfl, of_decide_eq_true hlc, by rw [Bool.not_eq_true']; exact hrun.trans (by rw [hall]; rfl)⟩, hc, Bool.or_true]
    rfl
  · rw [if_neg fun h => hc ?_]
    · rw [Bool.not_eq_true _ |>.mp hc, Bool.or_false]
      rfl
    · obtain ⟨-, hlc, hno⟩ := h
      rw [Bool.not_eq_true'] at hno
      have hlcs : s.fuses.lc = .develop ∨ s.fuses.lc = .ret := hlc
      rw [State.mayClear, decide_eq_true hlcs, Bool.true_and]
      simpa using hrun.symm.trans hno

/-- Settles O48: an event meets memory, is recorded and counted, and proves a lasting fault at its limit; the commands of the collector
and the ends of WATCH and ISOLATE do what the section says. -/
theorem faultStates : Obligations.FaultStates := by
  unfold Obligations.FaultStates
  refine ⟨fun e s hcalm hup hunit => ?_, fun e s hcalm hup hunit => ⟨fun hkey hlink => State.errorEvent_plain hcalm hup hunit hkey hlink,
      fun k hkey hchk hun hue hgone hlim => State.errorEvent_counted hcalm hup hunit hkey hchk hun hue hgone hlim,
      fun n b hkey hun hpos hret hcounted hphase hlim => ?_⟩,
    fun n b t s hcalm hphase hret hold => ?_, fun n t s hcalm hphase hret hold => ?_, fun fn t s hcalm hreach => ?_,
    fun fn v t s hcalm hreach => ?_⟩
  · split
    next hrep =>
      exact ⟨_, exec_errorEvent_reported hrep, State.finish_keeps_of (s.at_calm _ hcalm) (State.keeps_refl _ _)⟩
    next hrep => exact exec_errorEvent_far hup hunit (by simpa using hrep)
  · have hue : ¬(e.kind = ekECC_UE ∧ e.unit % 512 = 104) := by
      rintro ⟨hk, hu⟩
      rw [countKey, hk] at hkey
      by_cases hno : e.unit = noUnit
      · simp [ekECC_CE, ekECC_UE, ekCRC_RETRY, ekCRC_ERR, hno] at hkey
      · simp [ekECC_CE, ekECC_UE, hno] at hkey
        omega
    refine State.errorEvent_lasting hcalm hup hunit hkey hun hue hpos hret ?_
    rw [State.lasts, hcounted, State.at_cfg, decide_eq_true hlim, decide_eq_true hphase, Bool.or_true]
    rfl
  · have hk := (s.at t).setFault_keeps { s.faultSt (.unit n b) with phase := .healthy, evs := [] }
    have hf := hk.calm (s.at_calm t hcalm)
    refine ⟨_, exec_faultWindowExpiry hphase hret hold, ?_, fun k hne => ?_, State.finish_keeps_of hf hk⟩
    · rw [(State.finish_keeps _ hf).faultSt]
      exact State.faultSt_setFault_same _ (s.faultSt_key _)
    · rw [(State.finish_keeps _ hf).faultSt, State.faultSt_setFault_of_ne _ (by rw [s.faultSt_key]; exact hne), (s.at_keeps t).faultSt]
  · have hset := (s.at t).setFault_keeps { s.faultSt (.unit n 0) with slices := [] }
    obtain ⟨-, hin⟩ := ((s.at t).setFault { s.faultSt (.unit n 0) with slices := [] }).retire_after n (s.faultSt (.unit n 0)).ref (s.at t).time
    have hk := ((s.at t).setFault { s.faultSt (.unit n 0) with slices := [] }).retire_keeps n 0 (s.faultSt (.unit n 0)).ref (s.at t).time
    have hexec := exec_isolationTimeout hphase hret hold
    generalize ((s.at t).setFault { s.faultSt (.unit n 0) with slices := [] }).retire n 0 (s.faultSt (.unit n 0)).ref (s.at t).time = v at *
    have hf := hk.calm (hset.calm (s.at_calm t hcalm))
    have hgone : v.finish.isRetired n = true := by rw [State.isRetired, State.retired, State.finish_errs _ hf]; exact hin
    refine ⟨_, hexec, hgone, by rw [State.phase, if_pos hgone], ?_⟩
    rw [State.finish_time _ hf, hk .time (by decide), hset .time (by decide)]
  · have hk : ((s.at t).errCommand 1).keeps (s.at t) [.errs, .regs] := by
      rw [State.errCommand_clear]
      exact (State.setErrs_keeps _ _).after ((s.at t).wr_keeps Reg.errCmd 1).widen
    have hw : ((s.at t).errCommand 1).writeEnd.keeps (s.at t) [.errs, .regs, .compl] := (State.setCompl_keeps _ _).after hk.widen
    have hf := hw.calm (s.at_calm t hcalm)
    refine ⟨((s.at t).errCommand 1).writeEnd.finish, ?_, ?_, fun o ho => ?_, State.finish_keeps_of hf hw⟩
    · change (s.onWrite { fn, off := Reg.errCmd } t fun s => s.errCommand 1).done = _
      rw [State.onWrite_of_takesWrite hreach]
      rfl
    · rw [State.finish_errs _ hf, State.errCommand_clear]
      change { (s.at t).errs with clear := (s.at t).errs.clear || (s.at t).mayClear } = _
      rw [State.mayClear, State.at_errs, State.at_fuses, State.at_parts]
    · rw [State.finish_rd _ hf, State.errCommand_clear]
      exact (s.at t).rd_wr_ne Reg.errCmd 1 o (by simpa using ho)
  · have hk : ((s.at t).wr Reg.errRead (BitVec.ofNat 32 v)).writeEnd.keeps (s.at t) [.regs, .compl] :=
      (State.setCompl_keeps _ _).after ((s.at t).wr_keeps _ _).widen
    have hf := hk.calm (s.at_calm t hcalm)
    refine ⟨((s.at t).wr Reg.errRead (BitVec.ofNat 32 v)).writeEnd.finish, ?_, ?_, fun o ho => ?_, State.finish_keeps_of hf hk⟩
    · change (s.onWrite { fn, off := Reg.errRead } t fun s => s.wr Reg.errRead (BitVec.ofNat 32 v)).done = _
      rw [State.onWrite_of_takesWrite hreach]
      rfl
    · rw [State.finish_rd _ hf]
      exact (s.at t).rd_wr_same _ _
    · rw [State.finish_rd _ hf]
      exact (s.at t).rd_wr_ne _ _ _ (by simpa using ho)

end Sys2Proof.Machine
end

section
/-! SUPPORT. Self-test slices: windows, starts, ends and intervals (15_safety_evidence.md R352 to R363, 16_fault_handling.md R373). -/

namespace Sys2Proof.Machine

set_option Elab.async false

variable {s u v : State} {d : Nat}

/-! ### Rotations -/

theorem State.setRot_rot_same (r : Rotation) (h : d < s.rots.length) : (s.setRot d r).rot d = r := getD_listSet_same _ _ h

theorem State.setRot_rot_of_ne {e : Nat} (r : Rotation) (h : e ≠ d) : (s.setRot d r).rot e = s.rot e := getD_listSet_of_ne _ _ _ h

theorem State.setRot_rots_length (r : Rotation) : (s.setRot d r).rots.length = s.rots.length := length_listSet _ _ _

theorem State.setRot_keeps (s : State) (d : Nat) (r : Rotation) : (s.setRot d r).keeps s [.rots] := s.setRots_keeps _

theorem State.lt_rots_of_run {x : Slice} (h : (s.rot d).run = some x) : d < s.rots.length := by
  by_contra hc
  rw [State.rot, List.getD_eq_getElem?_getD, List.getElem?_eq_none (by omega)] at h
  exact absurd h (by simp)

theorem State.keeps.rot {l : List Piece} (h : u.keeps s l) (d : Nat) (hl : .rots ∉ l := by decide) : u.rot d = s.rot d :=
  congrArg (fun x : List Rotation => x.getD d {}) (h .rots hl)

/-- The slices that a die offers depend on its rotation's queues and on the collector. -/
theorem State.offered_congr (hrot : (u.rot d).first = (s.rot d).first ∧ (u.rot d).pend = (s.rot d).pend ∧ (u.rot d).late = (s.rot d).late)
    (herrs : u.errs = s.errs) : u.offered d = s.offered d := by
  obtain ⟨hfirst, hpend, hlate⟩ := hrot
  have hiso : u.isoSlices d = s.isoSlices d := by
    have hfault (k : FKey) : u.faultSt k = s.faultSt k := by rw [State.faultSt, State.faultSt, herrs]
    have hret (n : Nat) : u.isRetired n = s.isRetired n := by rw [State.isRetired, State.isRetired, State.retired, State.retired, herrs]
    simp only [State.isoSlices, hfault, hret]
  simp only [State.offered, hiso, hfirst, hpend, hlate]

/-! ### A slice begun -/

/-- The domains that a slice wakes. -/
def State.wakeUnit (s : State) (d p : Nat) : State :=
  if p = 88 then (List.range 8).foldl (fun s g => s.wakeDom (domSeg d g)) s else s.wakeDom (domOfUnit d p)

theorem State.wakeUnit_keeps (s : State) (d p : Nat) : (s.wakeUnit d p).keeps s [.ktl, .mem, .regs] :=
  State.keeps_ite (State.keeps_foldl (fun v _ => v.wakeDom_keeps _) (s.keeps_refl _) _) (s.wakeDom_keeps _)

/-- A slice in a die's rotation. -/
def State.withSlice (s : State) (d : Nat) (x : Slice) : State := s.setRot d { s.rot d with run := some x, unit := x.unit, kind := x.kind }

/-- A forced slice counted. -/
def State.forcedCount (s : State) (d p t : Nat) (extra : Bool) : State :=
  if s.sliceForced d p t && !extra then s.inc Reg.glbStForced else s

theorem State.forcedCount_keeps (s : State) (d p t : Nat) (extra : Bool) : (s.forcedCount d p t extra).keeps s [.regs] :=
  State.keeps_ite (s.inc_keeps _ _) (s.keeps_refl _)

theorem State.beginSlice_eq (s : State) (d p k t : Nat) (extra : Bool) : s.beginSlice d p k t extra
    = ((s.forcedCount d p t extra).wakeUnit d p).withSlice d { unit := p, kind := k, t, stop := s.sliceStop d p k t, extra } := rfl

/-- A slice that runs, as it was begun; the other die's rotation stands. -/
structure State.sliceBegun (u s : State) (d p k t : Nat) (l : List Piece) : Prop where
  run : ∃ x, (u.rot d).run = some x ∧ x.unit = p ∧ x.kind = k ∧ x.t = t ∧ x.stop = s.sliceStop d p k t
  other : u.rot (1 - d) = s.rot (1 - d)
  keeps : u.keeps s l

theorem State.dom_st_congr {l : List Piece} (h : u.keeps s l) (n : Nat) (hl : .ktl ∉ l := by decide) : (u.dom n).st = (s.dom n).st := by
  have hmap := congrArg (fun k : Kettle => (k.doms[n]?).map (·.st)) (h .ktl hl)
  simp only [Kettle.still, List.getElem?_map, Option.map_map] at hmap
  rw [State.dom, State.dom, List.getD_eq_getElem?_getD, List.getD_eq_getElem?_getD]
  cases hu : u.ktl.doms[n]? with
  | none =>
    cases hs : s.ktl.doms[n]? with
    | none => rfl
    | some y => rw [hu, hs] at hmap; simp at hmap
  | some x =>
    cases hs : s.ktl.doms[n]? with
    | none => rw [hu, hs] at hmap; simp at hmap
    | some y => rw [hu, hs] at hmap; simpa using hmap

theorem State.sliceStop_congr {l : List Piece} (h : u.keeps s l) (d p k t : Nat) (hl : .ktl ∉ l := by decide) :
    u.sliceStop d p k t = s.sliceStop d p k t := by
  have hclks : u.ktl.clks = s.ktl.clks := by
    have hstill := congrArg Kettle.clks (show u.ktl.still = s.ktl.still from h .ktl hl)
    exact hstill
  simp only [State.sliceStop, State.unitDiv, hclks, State.dom_st_congr h _ hl]

theorem State.beginSlice_after {l : List Piece} (h : v.keeps s l) (hlen : v.rots.length = 2) (hd : d < 2) (hother : v.rot (1 - d) = s.rot (1 - d))
    (hstop : v.sliceStop d p k t = s.sliceStop d p k t) (extra : Bool) :
    (v.beginSlice d p k t extra).sliceBegun s d p k t ([.rots, .ktl, .mem, .regs] ++ l) := by
  have hcount := v.forcedCount_keeps d p t extra
  have hwake := (v.forcedCount d p t extra).wakeUnit_keeps d p
  have hmid : ((v.forcedCount d p t extra).wakeUnit d p).keeps v [.ktl, .mem, .regs] := hwake.after hcount.widen
  rw [State.beginSlice_eq]
  generalize (v.forcedCount d p t extra).wakeUnit d p = w at hmid
  have hw : w.rots = v.rots := hmid .rots (by decide)
  refine ⟨⟨_, congrArg Rotation.run (State.setRot_rot_same _ (by rw [hw]; omega)), rfl, rfl, rfl, hstop⟩, ?_, ?_⟩
  · rw [State.withSlice, State.setRot_rot_of_ne _ (by omega), hmid.rot]
    exact hother
  · exact State.keeps_trans (State.keeps_mono (w.setRot_keeps d _) (by simp))
      (State.keeps_trans (State.keeps_mono hmid (by simp)) (State.keeps_mono h (by simp +contextual)))

end Sys2Proof.Machine
end

section
/-! SUPPORT. Which slice starts, and the windows that admit one (15_safety_evidence.md R352, R357 to R359, R362). -/

namespace Sys2Proof.Machine

set_option Elab.async false

variable {s u v : State} {d p k t : Nat}

/-! ### Turns among the class N groups -/

/-- A rotation without its deficit. -/
def Rotation.queues (r : Rotation) : Rotation := { r with deficit := 0, fresh := false }

/-- Only a die's list of groups and the deficit of its rotation differ. -/
structure State.roundOf (u s : State) (d : Nat) : Prop where
  queues : (u.rot d).queues = (s.rot d).queues
  other : u.rot (1 - d) = s.rot (1 - d)
  length : u.rots.length = s.rots.length
  keeps : u.keeps s [.rots, .sched]

theorem State.roundOf_refl (s : State) (d : Nat) : s.roundOf s d := ⟨rfl, rfl, rfl, s.keeps_refl _⟩

theorem State.roundOf.trans (h : u.roundOf v d) (k : v.roundOf s d) : u.roundOf s d :=
  ⟨h.queues.trans k.queues, h.other.trans k.other, h.length.trans k.length, State.keeps_trans h.keeps k.keeps⟩

theorem State.setSch_roundOf (s : State) (e : Nat) (x : SchedDie) : (s.setSch e x).roundOf s d := ⟨rfl, rfl, rfl, (s.setSch_keeps _ _).widen⟩

theorem State.setRot_roundOf {r : Rotation} (hd : d < 2) (hlen : d < s.rots.length) (h : r.queues = (s.rot d).queues) : (s.setRot d r).roundOf s d :=
  ⟨by rw [State.setRot_rot_same _ hlen]; exact h, State.setRot_rot_of_ne _ (by omega), State.setRot_rots_length _, (s.setRot_keeps _ _).widen⟩

/-- A die's list of groups and the deficit of its rotation set. -/
theorem State.setOrder_roundOf {r : Rotation} (hd : d < 2) (hlen : s.rots.length = 2) (x : SchedDie) (h : r.queues = (s.rot d).queues) :
    ((s.setSch d x).setRot d r).roundOf s d := by
  have hlt : d < (s.setSch d x).rots.length := Nat.lt_of_lt_of_eq hd hlen.symm
  exact (State.setRot_roundOf hd hlt h).trans (s.setSch_roundOf d x)

/-- The rotation placed in its die's list. -/
theorem State.placeRot_after (hd : d < 2) (hlen : s.rots.length = 2) (hsch : s.sched.length = 2) (tail : Bool) :
    (s.placeRot d tail).roundOf s d ∧ sliceRef ∈ ((s.placeRot d tail).sch d).order ∧ (s.placeRot d tail).sched.length = 2 := by
  unfold State.placeRot
  dsimp only
  split
  next h =>
    exact ⟨s.roundOf_refl d, by simpa using (Bool.and_eq_true_iff.mp h).2, hsch⟩
  · refine ⟨State.setOrder_roundOf hd hlen _ rfl, ?_, ?_⟩
    · have hsame (x : SchedDie) (r : Rotation) : ((s.setSch d x).setRot d r).sch d = x := s.setSch_sch_same x (by omega)
      rw [hsame]
      simp
    · exact (length_listSet _ _ _).trans hsch

theorem State.takeTurn_roundOf (hd : d < 2) (hlen : s.rots.length = 2) (hsch : s.sched.length = 2) (q : Nat) : (s.takeTurn d q).roundOf s d := by
  unfold State.takeTurn
  split
  · exact State.setOrder_roundOf hd hlen _ rfl
  · obtain ⟨hplaced, -, -⟩ := State.placeRot_after hd hlen hsch false
    exact (State.setRot_roundOf (r := { s.rot d with deficit := q, fresh := false }) hd (by rw [hplaced.length]; omega) hplaced.queues.symm).trans hplaced

theorem State.displaceN_keeps (s : State) (d k : Nat) : (s.displaceN d k).keeps s relPieces := by
  unfold State.displaceN
  dsimp only
  split
  · exact s.keeps_refl _
  · exact (State.trace_keeps _ _ _ _ _ _).after <| (State.inc_keeps _ _ _).after (s.setSch_keeps _ _).widen

/-! ### SLICE_START -/

/-- The slice that a die offers, or that a SELFTEST item asks for, fits. -/
structure State.mayStart (s : State) (d p k : Nat) : Prop where
  die : d < 2
  offered : (s.offered d).head? = some (p, k) ∨ (s.rot d).asked.contains (p, k) = true
  fits : s.sliceFits d p k s.time = true

theorem exec_sliceStart_ahead (h : (s.at t).mayStart d p k)
    (hfirst : ((s.at t).rot d).asked.contains (p, k) = true ∨ (s.at t).sliceAhead d p k = true) :
    exec (.sliceStart d p k t) s
      = .next ((s.at t).beginSlice d p k (s.at t).time (((s.at t).rot d).asked.contains (p, k))).finish := by
  change execSliceStart d p k t s = _
  unfold execSliceStart
  dsimp only
  rw [if_pos ⟨h.die, h.offered, h.fits⟩, if_pos (Bool.or_eq_true_iff.mpr hfirst)]
  rfl

theorem exec_sliceStart_forced (h : (s.at t).mayStart d p k) (hasked : ((s.at t).rot d).asked.contains (p, k) = false)
    (hahead : (s.at t).sliceAhead d p k = false) (hforced : (s.at t).sliceForced d p (s.at t).time = true) :
    exec (.sliceStart d p k t) s = .next ((if p < 64 then (s.at t).displaceN d (d * 64 + p) else s.at t).beginSlice d p k (s.at t).time false).finish := by
  change execSliceStart d p k t s = _
  unfold execSliceStart
  dsimp only
  rw [if_pos ⟨h.die, h.offered, h.fits⟩, hasked, hahead, if_neg (by decide), if_pos hforced]
  rfl

theorem exec_sliceStart_starts {q : Nat} (h : (s.at t).mayStart d p k) (hasked : ((s.at t).rot d).asked.contains (p, k) = false)
    (hahead : (s.at t).sliceAhead d p k = false) (hforced : (s.at t).sliceForced d p (s.at t).time = false)
    (hturn : (s.at t).sliceTurn d (sliceLen k) = .starts q) :
    exec (.sliceStart d p k t) s = .next (((s.at t).takeTurn d q).beginSlice d p k (s.at t).time false).finish := by
  change execSliceStart d p k t s = _
  unfold execSliceStart
  dsimp only
  rw [if_pos ⟨h.die, h.offered, h.fits⟩, hasked, hahead, if_neg (by decide), hforced, if_neg (by decide), hturn]
  rfl

theorem exec_sliceStart_waits (h : (s.at t).mayStart d p k) (hasked : ((s.at t).rot d).asked.contains (p, k) = false)
    (hahead : (s.at t).sliceAhead d p k = false) (hforced : (s.at t).sliceForced d p (s.at t).time = false)
    (hturn : (s.at t).sliceTurn d (sliceLen k) = .waits) :
    exec (.sliceStart d p k t) s = .next ((s.at t).placeRot d false).finish := by
  change execSliceStart d p k t s = _
  unfold execSliceStart
  dsimp only
  rw [if_pos ⟨h.die, h.offered, h.fits⟩, hasked, hahead, if_neg (by decide), hforced, if_neg (by decide), hturn]
  rfl

theorem exec_sliceStart_passes {q : Nat} (h : (s.at t).mayStart d p k) (hasked : ((s.at t).rot d).asked.contains (p, k) = false)
    (hahead : (s.at t).sliceAhead d p k = false) (hforced : (s.at t).sliceForced d p (s.at t).time = false)
    (hturn : (s.at t).sliceTurn d (sliceLen k) = .passes q) :
    exec (.sliceStart d p k t) s
      = .next (((s.at t).placeRot d true).setRot d { (s.at t).rot d with deficit := q, fresh := true }).finish := by
  change execSliceStart d p k t s = _
  unfold execSliceStart
  dsimp only
  rw [if_pos ⟨h.die, h.offered, h.fits⟩, hasked, hahead, if_neg (by decide), hforced, if_neg (by decide), hturn]
  rfl

theorem State.sliceBegun.finish {l : List Piece} (h : u.sliceBegun s d p k t l) (hs : s.calm) (hl : .dev ∉ l) :
    u.finish.sliceBegun s d p k t l := by
  have hf := h.keeps.calm hs hl
  have hrot (e : Nat) : u.finish.rot e = u.rot e := (State.finish_keeps _ hf).rot e
  exact ⟨by rw [hrot]; exact h.run, (hrot _).trans h.other, State.finish_keeps_of hf h.keeps⟩

theorem State.sliceBegun.mono {l m : List Piece} (h : u.sliceBegun s d p k t l) (hl : ∀ c ∈ l, c ∈ m := by decide) : u.sliceBegun s d p k t m :=
  ⟨h.run, h.other, State.keeps_mono h.keeps hl⟩

/-- What the start of a slice may change. -/
def slicePieces : List Piece := [.rots, .ktl] ++ relPieces

/-- A slice that starts: asked for, of a unit in ISOLATE, forced, or in its turn. -/
theorem State.sliceStart_begun (hcalm : s.calm) (h : (s.at t).mayStart d p k) (hlen : s.rots.length = 2) (hsch : s.sched.length = 2)
    (hgo : (((s.at t).rot d).asked.contains (p, k) || (s.at t).sliceAhead d p k || (s.at t).sliceForced d p (s.at t).time) = true
      ∨ ∃ q, (s.at t).sliceTurn d (sliceLen k) = .starts q) :
    ∃ u, exec (.sliceStart d p k t) s = .next u ∧ u.sliceBegun (s.at t) d p k (s.at t).time slicePieces := by
  have hcalmv := s.at_calm t hcalm
  have hd := h.die
  have hlenv : (s.at t).rots.length = 2 := by rw [State.at_rots, hlen]
  have hschv : (s.at t).sched.length = 2 := by rw [State.at_sched, hsch]
  have hrest (hasked : ((s.at t).rot d).asked.contains (p, k) = false) (hahead : (s.at t).sliceAhead d p k = false) :
      ∃ u, exec (.sliceStart d p k t) s = .next u ∧ u.sliceBegun (s.at t) d p k (s.at t).time slicePieces := by
    cases hforced : (s.at t).sliceForced d p (s.at t).time with
    | true =>
      have hk : (if p < 64 then (s.at t).displaceN d (d * 64 + p) else s.at t).keeps (s.at t) relPieces :=
        State.keeps_ite ((s.at t).displaceN_keeps _ _) ((s.at t).keeps_refl _)
      have hbegun := State.beginSlice_after (p := p) (k := k) (t := (s.at t).time) hk (by rw [hk .rots (by decide), hlenv]) hd (hk.rot _)
        (State.sliceStop_congr hk d p k _) false
      exact ⟨_, exec_sliceStart_forced h hasked hahead hforced, (hbegun.mono (m := slicePieces)).finish hcalmv (by decide)⟩
    | false =>
      obtain ⟨q, hturn⟩ : ∃ q, (s.at t).sliceTurn d (sliceLen k) = .starts q := by
        refine hgo.resolve_left ?_
        rw [hasked, hahead, hforced]
        decide
      have hturned := State.takeTurn_roundOf hd hlenv hschv q
      have hbegun := State.beginSlice_after (p := p) (k := k) (t := (s.at t).time) hturned.keeps (hturned.length.trans hlenv) hd hturned.other
        (State.sliceStop_congr hturned.keeps d p k _) false
      exact ⟨_, exec_sliceStart_starts h hasked hahead hforced hturn, (hbegun.mono (m := slicePieces)).finish hcalmv (by decide)⟩
  have hnow (hfirst : ((s.at t).rot d).asked.contains (p, k) = true ∨ (s.at t).sliceAhead d p k = true) :
      ∃ u, exec (.sliceStart d p k t) s = .next u ∧ u.sliceBegun (s.at t) d p k (s.at t).time slicePieces := by
    have hbegun := State.beginSlice_after (p := p) (k := k) (t := (s.at t).time) ((s.at t).keeps_refl []) hlenv hd rfl rfl
      (((s.at t).rot d).asked.contains (p, k))
    exact ⟨_, exec_sliceStart_ahead h hfirst, (hbegun.mono (m := slicePieces)).finish hcalmv (by decide)⟩
  cases hasked : ((s.at t).rot d).asked.contains (p, k) with
  | true => exact hnow (.inl hasked)
  | false =>
    cases hahead : (s.at t).sliceAhead d p k with
    | true => exact hnow (.inr hahead)
    | false => exact hrest hasked hahead

/-- A slice whose turn has not come. -/
theorem State.sliceStart_waits (hcalm : s.calm) (h : (s.at t).mayStart d p k) (hlen : s.rots.length = 2) (hsch : s.sched.length = 2)
    (hno : (((s.at t).rot d).asked.contains (p, k) || (s.at t).sliceAhead d p k || (s.at t).sliceForced d p (s.at t).time) = false)
    (hturn : ∀ q, (s.at t).sliceTurn d (sliceLen k) ≠ .starts q) :
    ∃ u, exec (.sliceStart d p k t) s = .next u ∧ u.roundOf (s.at t) d ∧ sliceRef ∈ (u.sch d).order := by
  have hcalmv := s.at_calm t hcalm
  have hd := h.die
  have hlenv : (s.at t).rots.length = 2 := by rw [State.at_rots, hlen]
  have hschv : (s.at t).sched.length = 2 := by rw [State.at_sched, hsch]
  obtain ⟨hfirst, hforced⟩ := Bool.or_eq_false_iff.mp hno
  obtain ⟨hasked, hahead⟩ := Bool.or_eq_false_iff.mp hfirst
  have hend (w : State) (hw : w.roundOf (s.at t) d) (hin : sliceRef ∈ (w.sch d).order) :
      w.finish.roundOf (s.at t) d ∧ sliceRef ∈ (w.finish.sch d).order := by
    have hf := hw.keeps.calm hcalmv
    have hrot (e : Nat) : w.finish.rot e = w.rot e := (State.finish_keeps _ hf).rot e
    refine ⟨⟨by rw [hrot]; exact hw.queues, (hrot _).trans hw.other, by rw [State.finish_rots _ hf]; exact hw.length,
      State.finish_keeps_of hf hw.keeps⟩, ?_⟩
    rw [State.sch, State.finish_sched _ hf]
    exact hin
  cases ht : (s.at t).sliceTurn d (sliceLen k) with
  | waits =>
    obtain ⟨hplaced, hin, -⟩ := State.placeRot_after hd hlenv hschv false
    exact ⟨_, exec_sliceStart_waits h hasked hahead hforced ht, hend _ hplaced hin⟩
  | passes q =>
    obtain ⟨hplaced, hin, -⟩ := State.placeRot_after hd hlenv hschv true
    have hset : (((s.at t).placeRot d true).setRot d { (s.at t).rot d with deficit := q, fresh := true }).roundOf ((s.at t).placeRot d true) d :=
      State.setRot_roundOf hd (by rw [hplaced.length]; omega) hplaced.queues.symm
    exact ⟨_, exec_sliceStart_passes h hasked hahead hforced ht, hend _ (hset.trans hplaced) hin⟩
  | starts q => exact absurd ht (hturn q)

/-! ### TIME_WINDOW -/

/-- Every core looks for work again. -/
def State.looking (s : State) : State := { s with sched := s.sched.map fun (x : SchedDie) => { x with idle := [] } }

theorem State.abandonSlice_run (s : State) (d : Nat) : ((s.abandonSlice d).rot d).run = none := by
  cases h : (s.rot d).run with
  | none =>
    have hsame : s.abandonSlice d = s := by
      unfold State.abandonSlice
      simp only [show (s.rots.getD d {}).run = none from h]
    rw [hsame, h]
  | some x =>
    have hlt := State.lt_rots_of_run h
    unfold State.abandonSlice
    simp only [show (s.rots.getD d {}).run = some x from h]
    rw [(State.inc_keeps _ _ _).rot]
    exact congrArg Rotation.run (getD_listSet_same _ _ hlt)

theorem State.abandonSlice_rot_of_ne (s : State) {e : Nat} (h : e ≠ d) : (s.abandonSlice d).rot e = s.rot e := by
  unfold State.abandonSlice
  dsimp only
  split
  · rfl
  · rw [(State.inc_keeps _ _ _).rot]
    exact getD_listSet_of_ne _ _ _ h

/-- The window that begins. -/
def State.windowBegun (s : State) : State :=
  if (s.looking.sliceLimit s.time).1 then s.looking else (s.looking.abandonSlice 0).abandonSlice 1

theorem exec_timeWindow : exec (.timeWindow t) s = .next (s.at t).windowBegun.finish := rfl

theorem State.looking_sliceLimit (s : State) (t : Nat) : s.looking.sliceLimit t = s.sliceLimit t := rfl

theorem State.windowBegun_after (s : State) : (∀ x ∈ s.windowBegun.sched, x.idle = [])
    ∧ (if (s.sliceLimit s.time).1 = true then s.windowBegun.rots = s.rots else (s.windowBegun.rot 0).run = none ∧ (s.windowBegun.rot 1).run = none)
    ∧ s.windowBegun.keeps s [.sched, .rots, .regs] := by
  have hidle : ∀ x ∈ s.looking.sched, x.idle = [] := by
    intro x hx
    obtain ⟨y, -, rfl⟩ := List.mem_map.mp hx
    rfl
  have hk : s.looking.keeps s [.sched, .rots, .regs] := (s.setSched_keeps _).widen
  unfold State.windowBegun
  rw [State.looking_sliceLimit]
  split
  · exact ⟨hidle, rfl, hk⟩
  · have hcut : ((s.looking.abandonSlice 0).abandonSlice 1).keeps s.looking [.rots, .regs] :=
      State.keeps_trans ((s.looking.abandonSlice 0).abandonSlice_keeps 1) (s.looking.abandonSlice_keeps 0)
    refine ⟨by rw [hcut .sched (by decide)]; exact hidle, ⟨?_, State.abandonSlice_run _ 1⟩, State.keeps_trans hcut.widen hk⟩
    rw [State.abandonSlice_rot_of_ne _ (by decide), State.abandonSlice_run]

end Sys2Proof.Machine
end

section
/-! SUPPORT. Slices that end, and the diagnostic test interval (15_safety_evidence.md R355, R356, R360, R361; 16_fault_handling.md R373). -/

namespace Sys2Proof.Machine

set_option Elab.async false

variable {s u v : State} {d p k t : Nat}

/-! ### A slice that passes -/

/-- The slice that ran taken out of its rotation. -/
def State.unrun (s : State) (d : Nat) (x : Slice) : State :=
  s.setRot d { s.rot d with run := none, asked := if x.extra then (s.rot d).asked.erase (x.unit, x.kind) else (s.rot d).asked }

theorem exec_sliceEnd_pass {x : Slice} {o : SliceIn} (h : ((s.at t).rot d).run = some x)
    (hphase : (((s.at t).unrun d x).faultSt (.unit (unitId d x.unit) 0)).phase ≠ .isolate) (hpass : o.pass = true) :
    exec (.sliceEnd d o t) s = .next (((s.at t).unrun d x).slicePass d x.unit x.kind).finish := by
  unfold State.unrun at hphase
  change execSliceEnd d o t s = _
  unfold execSliceEnd
  dsimp only
  rw [h]
  dsimp only
  rw [if_neg hphase, hpass, if_pos rfl]
  rfl

theorem exec_sliceEnd_fail {x : Slice} {o : SliceIn} (h : ((s.at t).rot d).run = some x)
    (hphase : (((s.at t).unrun d x).faultSt (.unit (unitId d x.unit) 0)).phase ≠ .isolate) (hpass : o.pass = false) :
    exec (.sliceEnd d o t) s = .next (((s.at t).unrun d x).sliceFail d x.unit x.kind o).finish := by
  unfold State.unrun at hphase
  change execSliceEnd d o t s = _
  unfold execSliceEnd
  dsimp only
  rw [h]
  dsimp only
  rw [if_neg hphase, hpass, if_neg (by decide)]
  rfl

/-- A transient fault that a passed repeat ends. -/
def State.repeatPassed (s : State) (f : FaultSt) (k : Nat) : State :=
  if f.stSig.any (·.1 == k) then (s.setFault { f with stSig := none }).inc Reg.errTransient else s

/-- A passed slice out of the pending ones, and counted. -/
def State.passCounted (s : State) (d p k : Nat) : State :=
  (s.setRot d { s.rot d with
    pend := (s.rot d).pend.filter (· != (p, k)),
    late := if ((s.rot d).pend.filter (· != (p, k))).any (·.1 == p) then (s.rot d).late else (s.rot d).late.filter (· != p),
    cmp := if p = 88 ∧ (s.rot d).cmp = 1 then 2 else if p = 88 ∧ (s.rot d).cmp = 3 then 0 else (s.rot d).cmp,
    first := (s.rot d).first.erase (p, k) }).add64 Reg.glbStPassLo 1

theorem State.slicePass_eq (s : State) (d k : Nat) (h : p < 88) : s.slicePass d p k
    = (s.passCounted d p k).repeatPassed ((s.passCounted d p k).faultSt (.unit (unitId d p) 0)) k := by
  unfold State.slicePass
  extract_lets r pend late cmp v f w
  rw [if_neg (by omega)]
  change w = v.repeatPassed f k
  simp only [w]
  clear_value v f
  unfold State.repeatPassed
  cases f.stSig with
  | none => rfl
  | some e =>
    by_cases hk : e.1 = k
    · simp [hk]
    · simp [hk]

theorem State.repeatPassed_keeps (s : State) (f : FaultSt) (k : Nat) : (s.repeatPassed f k).keeps s [.regs, .errs] :=
  State.keeps_ite ((State.inc_keeps _ _ _).after (s.setFault_keeps _).widen) (s.keeps_refl _)

theorem State.slicePass_after (hp : p < 88) (hlen : d < s.rots.length) : ((s.slicePass d p k).rot d).run = (s.rot d).run
    ∧ (p, k) ∉ ((s.slicePass d p k).rot d).pend ∧ (s.slicePass d p k).rd64 Reg.glbStPassLo = (s.rd64 Reg.glbStPassLo + 1) % 2 ^ 64
    ∧ (s.slicePass d p k).keeps s [.rots, .regs, .errs] := by
  have hcount : (s.passCounted d p k).keeps s [.rots, .regs, .errs] := (State.add64_keeps _ _ _).after (s.setRot_keeps d _).widen
  have hpass := (s.passCounted d p k).repeatPassed_keeps ((s.passCounted d p k).faultSt (.unit (unitId d p) 0)) k
  have hrd : ((s.passCounted d p k).repeatPassed ((s.passCounted d p k).faultSt (.unit (unitId d p) 0)) k).rd64 Reg.glbStPassLo
      = (s.passCounted d p k).rd64 Reg.glbStPassLo := by
    unfold State.repeatPassed
    split
    · refine State.rd64_congr _ fun i hi => ?_
      have hne : i ≠ Reg.errTransient := by rcases List.mem_pair.mp hi with rfl | rfl <;> decide
      rw [State.rd_inc_ne _ _ _ _ hne]
      rfl
    · rfl
  have hrot := (hpass.rot d).trans ((State.add64_keeps _ Reg.glbStPassLo 1).rot d |>.trans (State.setRot_rot_same _ hlen))
  rw [s.slicePass_eq d k hp, hrot, hrd]
  refine ⟨rfl, by simp, ?_, State.keeps_trans hpass.widen hcount⟩
  rw [State.passCounted, State.rd64_add64 _ _ (by decide)]
  rfl

/-! ### A slice that fails -/

/-- The key of a failed slice. -/
def failKey (d p k : Nat) (o : SliceIn) : FKey := .unit (unitId d p) (laneOf k o.lanes)

/-- The failed slice counted. -/
def State.failCount (s : State) (d p k : Nat) (o : SliceIn) : FaultSt × Nat × Bool :=
  (s.inc Reg.glbStFail).count (failKey d p k o) ekST_FAIL (s.inc Reg.glbStFail).time

/-- A failed slice in its fault state, or coalesced. -/
def State.failTallied (s : State) (d p k : Nat) (o : SliceIn) : State :=
  if (s.failCount d p k o).2.2 then (s.inc Reg.glbStFail).setFault (s.failCount d p k o).1 else (s.inc Reg.glbStFail).inc Reg.errCoalesced

/-- A failed slice with its record. -/
def State.failRecorded (s : State) (d p k : Nat) (o : SliceIn) (act : Nat) : Nat × State :=
  (s.failTallied d p k o).record ((s.failTallied d p k o).sliceRec (unitId d p) k o act (s.failCount d p k o).2.1)

/-- The repeat of a failed slice offered next. -/
def State.offerNext (s : State) (d p k : Nat) (o : SliceIn) (r : Rotation) : State :=
  (s.setFault { s.faultSt (.unit (unitId d p) 0) with stSig := some (k, o.sig) }).setRot d
    { (s.setFault { s.faultSt (.unit (unitId d p) 0) with stSig := some (k, o.sig) }).rot d with
      first := (p, k) :: r.first.filter (· != (p, k)), cmp := if p = 88 ∧ r.cmp = 1 then 3 else r.cmp }

theorem State.sliceFail_first {o : SliceIn} (hp : p < 88) (hold : ((s.inc Reg.glbStFail).faultSt (.unit (unitId d p) 0)).stSig = none)
    (hlim : (s.failCount d p k o).2.1 < ((s.failTallied d p k o).cfg.faults.limits ekST_FAIL).1)
    (hcfg : (s.failTallied d p k o).cfg = (s.inc Reg.glbStFail).cfg) :
    s.sliceFail d p k o = (s.failRecorded d p k o 4).2.offerNext d p k o ((s.inc Reg.glbStFail).rot d) := by
  have hlasts : ((false || p == 88 && ((s.inc Reg.glbStFail).rot d).cmp == 3) || (s.failCount d p k o).2.2
      && decide (((s.inc Reg.glbStFail).cfg.faults.limits ekST_FAIL).1 ≤ (s.failCount d p k o).2.1)) = false := by
    rw [← hcfg, beq_eq_false_iff_ne.mpr (by omega), decide_eq_false (by omega)]
    simp
  unfold State.failCount failKey at hlasts
  unfold State.sliceFail
  dsimp only
  rw [hold]
  dsimp only
  rw [hlasts]
  rfl

/-- A rotation whose slice has failed for good. -/
def Rotation.failedLast (x r : Rotation) (p k : Nat) : Rotation :=
  { x with first := r.first.filter (· != (p, k)), cmp := if p = 88 then 0 else r.cmp }

/-- A failed slice proved lasting. -/
def State.failLasts (s : State) (d p k : Nat) (r : Rotation) (ref : Nat) : State :=
  (s.setRot d ((s.rot d).failedLast r p k)).isolate (unitId d p) ref s.time

theorem State.sliceFail_again {o : SliceIn} (hold : ((s.inc Reg.glbStFail).faultSt (.unit (unitId d p) 0)).stSig = some (k, o.sig)) :
    s.sliceFail d p k o = (s.failRecorded d p k o 6).2.failLasts d p k ((s.inc Reg.glbStFail).rot d) (s.failRecorded d p k o 6).1 := by
  unfold State.sliceFail
  dsimp only
  rw [hold]
  dsimp only
  simp only [beq_self_eq_true, Bool.and_self, Bool.true_or, Bool.not_true, Bool.false_eq_true, and_false, if_true, if_false]
  rfl

/-- A unit isolated runs on what it runs: its slices only join its rotation. -/
theorem State.isolate_run (s : State) {n : Nat} (ref t : Nat) (h : n % 512 ≤ 88) (e : Nat) : ((s.isolate n ref t).rot e).run = (s.rot e).run := by
  have hset (v : State) (i : Nat) (f : List (Nat × Nat)) :
      (({ v with rots := listSet v.rots i { v.rots.getD i {} with first := f } } : State).rot e).run = (v.rot e).run := by
    by_cases hi : e = i ∧ i < v.rots.length
    · obtain ⟨rfl, hlt⟩ := hi
      rw [State.rot]
      exact (congrArg Rotation.run (getD_listSet_same _ _ hlt)).trans rfl
    · by_cases he : e = i
      · have hlen : v.rots.length ≤ i := by omega
        subst he
        simp [State.rot, listSet, List.set_eq_of_length_le hlen]
      · exact congrArg Rotation.run (getD_listSet_of_ne _ _ _ he)
  have hcore (v : State) (k d : Nat) : (((v.unhost k).returnSlots k).failUnserved d).rot e = v.rot e := by
    rw [(State.failUnserved_keeps _ d).rot, (State.returnSlots_keeps _ k).rot, (State.unhost_keeps v k).rot]
  unfold State.isolate
  rw [if_pos h]
  dsimp only
  split
  · rw [hcore, hset]
    exact congrArg Rotation.run ((s.inc_keeps _ _).rot e)
  · rw [hset]
    exact congrArg Rotation.run ((s.inc_keeps _ _).rot e)

theorem State.failTallied_keeps (s : State) (d p k : Nat) (o : SliceIn) : (s.failTallied d p k o).keeps s [.errs, .regs] :=
  State.keeps_ite ((State.setFault_keeps _ _).after (m := [.errs, .regs]) (s.inc_keeps _ _).widen)
    ((State.inc_keeps _ _ _).after (m := [.errs, .regs]) (s.inc_keeps _ _).widen)

theorem State.failRecorded_keeps (s : State) (d p k : Nat) (o : SliceIn) (act : Nat) :
    (s.failRecorded d p k o act).2.keeps s [.fresh, .errs, .mem, .regs, .ints] :=
  (State.record_keeps _ _).after (s.failTallied_keeps d p k o).widen

theorem State.failRecorded_rd (s : State) (d p k : Nat) (o : SliceIn) (act : Nat) {i : Nat} (hi : trigReg i = false) (hc : i ≠ Reg.errCoalesced) :
    (s.failRecorded d p k o act).2.rd i = (s.inc Reg.glbStFail).rd i := by
  refine (State.log_spares _ _ i hi).trans ?_
  unfold State.failTallied
  split
  · rfl
  · exact State.rd_inc_ne _ _ _ _ hc

/-- A first failure offers the slice next and keeps its signature. -/
theorem State.sliceFail_first_after {o : SliceIn} (hp : p < 88) (hlen : d < s.rots.length) (hold : (s.faultSt (.unit (unitId d p) 0)).stSig = none)
    (hlim : (s.count (failKey d p k o) ekST_FAIL s.time).2.1 < (s.cfg.faults.limits ekST_FAIL).1) :
    ((s.sliceFail d p k o).rot d).run = (s.rot d).run ∧ ((s.sliceFail d p k o).rot d).first.head? = some (p, k)
    ∧ ((s.sliceFail d p k o).faultSt (.unit (unitId d p) 0)).stSig = some (k, o.sig)
    ∧ (s.sliceFail d p k o).rd Reg.glbStFail = satAdd (s.rd Reg.glbStFail) 1
    ∧ (s.sliceFail d p k o).keeps s [.rots, .regs, .errs, .fresh, .ints, .mem] := by
  have hinc := s.inc_keeps Reg.glbStFail 1
  have hcount : s.failCount d p k o = s.count (failKey d p k o) ekST_FAIL s.time := by
    rw [State.failCount, hinc.count, hinc .time (by decide)]
  have hcfg : (s.failTallied d p k o).cfg = s.cfg :=
    congrArg (fun x : Loader => x.active.getD {}) (s.failTallied_keeps d p k o .loader (by decide))
  have hcfgi : (s.inc Reg.glbStFail).cfg = s.cfg := congrArg (fun x : Loader => x.active.getD {}) (hinc .loader (by decide))
  rw [State.sliceFail_first hp (by rw [hinc.faultSt]; exact hold) (by rw [hcount, hcfg]; exact hlim) (hcfg.trans hcfgi.symm)]
  have hk := s.failRecorded_keeps d p k o 4
  have hrd := s.failRecorded_rd d p k o 4 (i := Reg.glbStFail) (by decide) (by decide)
  generalize (s.failRecorded d p k o 4).2 = v at *
  have hset := v.setFault_keeps { v.faultSt (.unit (unitId d p) 0) with stSig := some (k, o.sig) }
  have hsig : ((v.setFault { v.faultSt (.unit (unitId d p) 0) with stSig := some (k, o.sig) }).faultSt (.unit (unitId d p) 0)).stSig
      = some (k, o.sig) := by
    rw [State.faultSt_setFault_same]
    exact v.faultSt_key _
  have hrds : (v.setFault { v.faultSt (.unit (unitId d p) 0) with stSig := some (k, o.sig) }).rd Reg.glbStFail = v.rd Reg.glbStFail := rfl
  unfold State.offerNext
  generalize v.setFault { v.faultSt (.unit (unitId d p) 0) with stSig := some (k, o.sig) } = w at *
  have hw : w.keeps s [.regs, .errs, .fresh, .ints, .mem] := State.keeps_trans hset.widen hk.widen
  have hlenw : d < w.rots.length := by rw [hw .rots (by decide)]; exact hlen
  rw [State.setRot_rot_same _ hlenw]
  refine ⟨show (w.rot d).run = _ from congrArg Rotation.run (hw.rot d), rfl, hsig, ?_, (w.setRot_keeps d _).after hw.widen⟩
  change w.rd Reg.glbStFail = _
  rw [hrds, hrd, State.rd_inc_same]

/-- A failure of the repeat with the same signature isolates the unit. -/
theorem State.sliceFail_again_after {o : SliceIn} (hp : p < 88) (hlen : d < s.rots.length) (hold : (s.faultSt (.unit (unitId d p) 0)).stSig = some (k, o.sig)) :
    ((s.sliceFail d p k o).rot d).run = (s.rot d).run ∧ ((s.sliceFail d p k o).faultSt (.unit (unitId d p) 0)).phase = .isolate
    ∧ (s.sliceFail d p k o).rd Reg.errLasting = satAdd (s.rd Reg.errLasting) 1
    ∧ (s.sliceFail d p k o).keeps s retirePieces := by
  have hinc := s.inc_keeps Reg.glbStFail 1
  rw [State.sliceFail_again (by rw [hinc.faultSt]; exact hold)]
  have hk := s.failRecorded_keeps d p k o 6
  have hrd := s.failRecorded_rd d p k o 6 (i := Reg.errLasting) (by decide) (by decide)
  generalize (s.failRecorded d p k o 6).2 = v at *
  unfold State.failLasts
  have hlenv : d < v.rots.length := by rw [hk .rots (by decide)]; exact hlen
  have hrot := State.setRot_rot_same ((v.rot d).failedLast ((s.inc Reg.glbStFail).rot d) p k) hlenv
  have hset := v.setRot_keeps d ((v.rot d).failedLast ((s.inc Reg.glbStFail).rot d) p k)
  generalize v.setRot d ((v.rot d).failedLast ((s.inc Reg.glbStFail).rot d) p k) = w at *
  have hpos : unitId d p % 512 ≤ 88 := by unfold unitId; omega
  obtain ⟨hphase, hlasting⟩ := w.isolate_after (n := unitId d p) (s.failRecorded d p k o 6).1 v.time hpos
  refine ⟨?_, hphase, ?_, ?_⟩
  · rw [w.isolate_run _ _ hpos, hrot]
    exact show (v.rot d).run = _ from congrArg Rotation.run (hk.rot d)
  · rw [hlasting, hset .regs (by decide) _ (by simp), hrd, State.rd_inc_ne _ _ _ _ (by decide)]
  · exact State.keeps_trans (w.isolate_keeps _ _ _) (State.keeps_trans hset.widen hk.widen)

end Sys2Proof.Machine
end

section
/-! SUPPORT. The diagnostic test interval, and the self-test slices together (15_safety_evidence.md R355 to R363). -/

namespace Sys2Proof.Machine

set_option Elab.async false

variable {s u v : State} {d p k t : Nat}

/-! ### INTERVAL_END -/

/-- A unit whose slices have not all run in the interval: counted and recorded. -/
def State.missed (s : State) (d e p : Nat) : State :=
  ((s.inc Reg.glbStMissed).event { kind := ekST_MISSED, unit := unitId d p, cls := clsN, t := e }).raise isrcST_MISSED

/-- The units of a die with slices pending. -/
def Rotation.behind (r : Rotation) : List Nat := dieUnits.filter fun p => r.pend.any (·.1 == p)

/-- The units behind, each counted and recorded. -/
def State.missedAll (s : State) (d e : Nat) : State := (s.rot d).behind.foldl (fun s p => s.missed d e p) s

/-- The units of a die in service. -/
def State.inService (s : State) (d : Nat) : List Nat :=
  dieUnits.filter fun p => (decide (64 ≤ p) || s.coreEn (d * 64 + p)) && !s.isRetired (unitId d p)

/-- The rotation of a new interval. -/
def Rotation.renewed (x r : Rotation) (units : List Nat) (e : Nat) : Rotation :=
  { x with pend := units.flatMap fun p => (sliceKinds p).map fun k => (p, k), start := e, late := (r.late ++ r.behind).eraseDups }

/-- A new interval on a die. -/
def State.renewed (s : State) (d e : Nat) : State :=
  (s.missedAll d e).setRot d (((s.missedAll d e).rot d).renewed (s.rot d) ((s.missedAll d e).inService d) e)

theorem exec_intervalEnd (hd : d < 2) (hup : s.pdUp d = true) (h : s.dtiEnd d ≤ t) :
    exec (.intervalEnd d t) s = .next ((s.at (s.dtiEnd d)).renewed d (s.dtiEnd d)).finish := by
  change execIntervalEnd d t s = _
  unfold execIntervalEnd
  dsimp only
  rw [if_pos ⟨hd, hup, h⟩]
  rfl

theorem State.missed_after (s : State) (d e p : Nat) : (s.missed d e p).relAs (s.inc Reg.glbStMissed)
    ∧ (s.missed d e p).keeps s [.regs, .ints, .errs, .fresh, .mem] := by
  have hdie : ¬(ekST_MISSED = ekLINK_DOWN ∨ (ekST_MISSED = ekECC_UE ∧ unitId d p ≠ noUnit ∧ unitId d p % 512 = 104)) := by
    rintro (h | ⟨h, -⟩)
    · exact absurd h (by decide)
    · exact absurd h (by decide)
  unfold State.missed
  rw [State.event_of_uncounted _ 0 (show countKey _ = none by rfl) (show ekST_MISSED ≠ ekUNATTRIB by decide), if_neg hdie]
  exact ⟨(State.raise_relAs _ _).trans (State.log_relAs _ _), (State.raise_keeps _ _).after <| (State.log_keeps _ _).after (s.inc_keeps _ _).widen⟩

/-- Units in service depend on the fuses and on what is retired. -/
theorem State.missed_inService (s : State) (d e p n : Nat) : (s.missed d e p).inService n = s.inService n := by
  obtain ⟨hrel, hk⟩ := s.missed_after d e p
  have hbare : (s.missed d e p).errs.bare = s.errs.bare := hrel.errs.trans (by rw [(s.inc_keeps _ _) .errs (by decide)])
  have hlist : (s.missed d e p).errs.bare.list ++ (s.missed d e p).errs.bare.extra = s.errs.bare.list ++ s.errs.bare.extra := by rw [hbare]
  have hret (m : Nat) : (s.missed d e p).isRetired m = s.isRetired m := congrArg (fun l : List (Nat × Nat) => l.contains (m, 0)) hlist
  have hen (m : Nat) : (s.missed d e p).coreEn m = s.coreEn m := by rw [State.coreEn, State.coreEn, hk .fuses (by decide)]
  simp only [State.inService, hret, hen]

theorem State.missedAll_after (s : State) (d e : Nat) : (s.missedAll d e).keeps s [.regs, .ints, .errs, .fresh, .mem]
    ∧ ∀ n, (s.missedAll d e).inService n = s.inService n := by
  refine ⟨State.keeps_foldl (fun v p => (v.missed_after d e p).2) (s.keeps_refl _) _, fun n => ?_⟩
  unfold State.missedAll
  exact foldl_field (fun v => v.inService n) _ (fun v p => v.missed_inService d e p n) _ _

theorem State.renewed_after (s : State) (e : Nat) (hlen : d < s.rots.length) :
    (s.renewed d e).keeps s [.rots, .regs, .ints, .errs, .fresh, .mem]
    ∧ ((s.renewed d e).rot d).start = e
    ∧ (∀ p ∈ s.inService d, ∀ k ∈ sliceKinds p, (p, k) ∈ ((s.renewed d e).rot d).pend)
    ∧ (∀ p ∈ (s.rot d).behind, p ∈ ((s.renewed d e).rot d).late) := by
  obtain ⟨hk, hin⟩ := s.missedAll_after d e
  unfold State.renewed
  rw [State.setRot_rot_same _ (by rw [hk .rots (by decide)]; exact hlen), hin]
  refine ⟨(State.setRot_keeps _ _ _).after hk.widen, rfl, fun p hp k hkind => ?_, fun p hp => ?_⟩
  · exact List.mem_flatMap.mpr ⟨p, hp, List.mem_map.mpr ⟨k, hkind, rfl⟩⟩
  · exact List.mem_eraseDups.mpr (List.mem_append_right _ hp)

/-! ### The slices that end -/

theorem State.unrun_keeps (s : State) (d : Nat) (x : Slice) : (s.unrun d x).keeps s [.rots] := s.setRot_keeps _ _

/-- Settles O47: a slice starts where it is first or its turn has come; a window without slices ends those that run; the end of a slice
counts it, and the end of an interval makes every unit in service pending. -/
theorem selfTestSlices : Obligations.SelfTestSlices := by
  unfold Obligations.SelfTestSlices
  refine ⟨fun d p k t s hcalm hd hlen hsch hoff hfits => ?_, fun t s hcalm hlen => ?_, fun d t o s x hcalm hd hrun hunit hphase => ?_,
    fun d t s hcalm hd hlen hup hend => ?_⟩
  · have hoffered : (s.at t).offered d = s.offered d := State.offered_congr (by simp [State.rot]) (s.at_errs t)
    have hrot (e : Nat) : (s.at t).rot e = s.rot e := (s.at_keeps t).rot e
    have hmay : (s.at t).mayStart d p k := ⟨hd, by rwa [hoffered, hrot], hfits⟩
    refine ⟨fun hgo => ?_, fun hno hturn => ?_⟩
    · obtain ⟨u, hexec, ⟨x, hx, hp, hk, ht, hstop⟩, hother, hkeeps⟩ := State.sliceStart_begun hcalm hmay hlen hsch (by rwa [hrot])
      exact ⟨u, x, hexec, hx, hp, hk, ht, hstop, hother.trans (hrot _), hkeeps⟩
    · obtain ⟨u, hexec, hround, hin⟩ := State.sliceStart_waits hcalm hmay hlen hsch (by rwa [hrot]) hturn
      have hq := hround.queues
      refine ⟨u, hexec, ?_, hin, ?_, hround.other.trans (hrot _), hround.keeps⟩
      · have hidle : ((s.at t).rot d).run = none := by
          have hfit := hfits
          unfold State.sliceFits at hfit
          simp only [Bool.and_eq_true, Option.isNone_iff_eq_none] at hfit
          exact hfit.1.1.2
        exact (show (u.rot d).queues.run = _ by rw [hq]; rfl).trans hidle
      · rw [← hoffered]
        have hfirst : (u.rot d).first = ((s.at t).rot d).first := show (u.rot d).queues.first = _ by rw [hq]; rfl
        have hpend : (u.rot d).pend = ((s.at t).rot d).pend := show (u.rot d).queues.pend = _ by rw [hq]; rfl
        have hlate : (u.rot d).late = ((s.at t).rot d).late := show (u.rot d).queues.late = _ by rw [hq]; rfl
        exact State.offered_congr ⟨hfirst, hpend, hlate⟩
          (hround.keeps .errs (by decide))
  · obtain ⟨hidle, hslice, hk⟩ := (s.at t).windowBegun_after
    have hf := hk.calm (s.at_calm t hcalm)
    refine ⟨_, exec_timeWindow, by rw [State.finish_sched _ hf]; exact hidle, ?_, State.finish_keeps_of hf hk⟩
    have hrot (e : Nat) : (s.at t).windowBegun.finish.rot e = (s.at t).windowBegun.rot e := (State.finish_keeps _ hf).rot e
    rw [hrot, hrot, State.finish_rots _ hf, ← s.at_rots t]
    exact hslice
  · have hrunv : ((s.at t).rot d).run = some x := by rw [(s.at_keeps t).rot]; exact hrun
    have hlen := State.lt_rots_of_run hrunv
    have hcut := (s.at t).unrun_keeps d x
    have hrot : (((s.at t).unrun d x).rot d).run = none := congrArg Rotation.run (State.setRot_rot_same _ hlen)
    have hfault (f : FKey) : ((s.at t).unrun d x).faultSt f = s.faultSt f := (hcut.faultSt f).trans ((s.at_keeps t).faultSt f)
    have hlenv : d < ((s.at t).unrun d x).rots.length := by rw [State.unrun, State.setRot_rots_length]; exact hlen
    have hphasev : (((s.at t).unrun d x).faultSt (.unit (unitId d x.unit) 0)).phase ≠ .isolate := by rw [hfault]; exact hphase
    have hcalmv := hcut.calm (s.at_calm t hcalm)
    have hpass := exec_sliceEnd_pass (o := o) hrunv hphasev
    have hfail := exec_sliceEnd_fail (o := o) hrunv hphasev
    have hcfg : ((s.at t).unrun d x).cfg = s.cfg := s.at_cfg t
    have hrd (i : Nat) : ((s.at t).unrun d x).rd i = (s.at t).rd i := rfl
    have hcount (key : FKey) (n : Nat) : ((s.at t).unrun d x).count key ekST_FAIL n = (s.at t).count key ekST_FAIL n := hcut.count _ _ _
    have htime : ((s.at t).unrun d x).time = (s.at t).time := rfl
    have hpass64 : ((s.at t).unrun d x).rd64 Reg.glbStPassLo = (s.at t).rd64 Reg.glbStPassLo := rfl
    generalize (s.at t).unrun d x = v at *
    refine ⟨fun ho => ?_, fun ho hsig hlim => ?_, fun ho hsig => ?_⟩
    · obtain ⟨hr, hpend, hn, hk⟩ := State.slicePass_after (k := x.kind) hunit hlenv
      have hf := hk.calm hcalmv
      refine ⟨_, hpass ho, ?_, ?_, ?_, State.finish_keeps_of hf (State.keeps_trans hk hcut.widen)⟩
      · rw [(State.finish_keeps _ hf).rot, hr, hrot]
      · rw [(State.finish_keeps _ hf).rot]
        exact hpend
      · rw [State.finish_rd64 hf, hn, hpass64]
    · obtain ⟨hr, hfirst, hst, hn, hk⟩ := State.sliceFail_first_after (k := x.kind) (o := o) hunit hlenv (by rw [hfault]; exact hsig)
        (by rw [hcount, htime, hcfg]; exact hlim)
      have hf := hk.calm hcalmv
      refine ⟨_, hfail ho, ?_, ?_, ?_, ?_, State.finish_keeps_of hf (State.keeps_trans hk hcut.widen)⟩
      · rw [(State.finish_keeps _ hf).rot, hr, hrot]
      · rw [(State.finish_keeps _ hf).rot]
        exact hfirst
      · rw [(State.finish_keeps _ hf).faultSt]
        exact hst
      · rw [State.finish_rd _ hf, hn, hrd]
    · obtain ⟨hr, hst, hn, hk⟩ := State.sliceFail_again_after (k := x.kind) (o := o) hunit hlenv (by rw [hfault]; exact hsig)
      have hf := hk.calm hcalmv
      refine ⟨_, hfail ho, ?_, ?_, ?_⟩
      · rw [(State.finish_keeps _ hf).rot, hr, hrot]
      · rw [(State.finish_keeps _ hf).faultSt]
        exact hst
      · rw [State.finish_rd _ hf, hn, hrd]
  · obtain ⟨hk, hstart, hpend, hlate⟩ := (s.at (s.dtiEnd d)).renewed_after (d := d) (s.dtiEnd d) (by rw [State.at_rots, hlen]; exact hd)
    have hf := hk.calm (s.at_calm _ hcalm)
    have hrot : ((s.at (s.dtiEnd d)).renewed d (s.dtiEnd d)).finish.rot d = ((s.at (s.dtiEnd d)).renewed d (s.dtiEnd d)).rot d :=
      (State.finish_keeps _ hf).rot d
    refine ⟨_, exec_intervalEnd hd hup hend, by rw [hrot]; exact hstart, (State.finish_time _ hf).trans (hk .time (by decide)),
      fun p hp hen hret k hkind => ?_, fun p hp hany => ?_, State.finish_keeps_of hf hk⟩
    · rw [hrot]
      refine hpend p (List.mem_filter.mpr ⟨hp, ?_⟩) k hkind
      have hretv : (s.at (s.dtiEnd d)).isRetired (unitId d p) = false := by rw [State.isRetired, State.retired, State.at_errs]; exact hret
      have henv : (s.at (s.dtiEnd d)).coreEn (d * 64 + p) = s.coreEn (d * 64 + p) := by rw [State.coreEn, State.coreEn, State.at_fuses]
      rw [hretv, henv, hen]
      rfl
    · rw [hrot]
      refine hlate p (List.mem_filter.mpr ⟨hp, ?_⟩)
      rw [(s.at_keeps _).rot]
      exact hany

end Sys2Proof.Machine
end

section
/-! SUPPORT. Ranges of device addresses, and the power domains that a request for one wakes (12_memory.md R288, R290, R299). -/

namespace Sys2Proof.Machine

set_option Elab.async false

variable {s u v : State} {a n : Nat}

/-! ### Targets of addresses -/

theorem lt_hbm_of_fwTarget (h : fwTarget a = 0) : a < 0xC00000000 := by
  by_contra hge
  unfold fwTarget at h
  rw [if_neg (by omega), if_neg hge] at h
  dsimp only at h
  repeat' split at h
  all_goals exact absurd h (by decide)

/-- Where on a planner die the targets lie. -/
theorem fwTarget_die (h : fwTarget a ∈ [1, 2, 3, 4]) : 0x10000000000 ≤ a ∧ a < 0x10200000000
    ∧ (fwTarget a = 1 → a % 0x100000000 < 0x4000000)
    ∧ (fwTarget a = 2 → 0x10000000 ≤ a % 0x100000000 ∧ a % 0x100000000 < 0x20000000)
    ∧ (fwTarget a = 3 → 0x28000000 ≤ a % 0x100000000 ∧ a % 0x100000000 < 0x28400000)
    ∧ (fwTarget a = 4 → 0x20000000 ≤ a % 0x100000000 ∧ a % 0x100000000 < 0x24000000) := by
  have hbase : dieBase 0 = 0x10000000000 ∧ dieBase 2 = 0x10200000000 := ⟨rfl, rfl⟩
  obtain ⟨h0, h2⟩ := hbase
  unfold fwTarget at h ⊢
  dsimp only at h ⊢
  rw [h0, h2] at h ⊢
  split at h
  · exact absurd h (by decide)
  split at h
  · exact absurd h (by decide)
  split at h
  · exact absurd h (by decide)
  split at h
  · rename_i hw hh hd hd2
    rw [if_neg hw, if_neg hh, if_neg hd, if_pos hd2]
    refine ⟨by omega, by omega, ?_⟩
    split
    · exact ⟨fun _ => by assumption, fun h => absurd h (by decide), fun h => absurd h (by decide), fun h => absurd h (by decide)⟩
    split
    · exact ⟨fun h => absurd h (by decide), fun _ => by omega, fun h => absurd h (by decide), fun h => absurd h (by decide)⟩
    split
    · exact ⟨fun h => absurd h (by decide), fun h => absurd h (by decide), fun h => absurd h (by decide), fun _ => by assumption⟩
    split
    · exact ⟨fun h => absurd h (by decide), fun h => absurd h (by decide), fun _ => by assumption, fun h => absurd h (by decide)⟩
    · exact ⟨fun h => absurd h (by decide), fun h => absurd h (by decide), fun h => absurd h (by decide), fun h => absurd h (by decide)⟩
  split at h
  · exact absurd h (by decide)
  · exact absurd h (by decide)

/-- A range that a part of the package may be admitted to: one target, and within one field store. -/
structure Fits (a n : Nat) : Prop where
  same : fwTarget a = fwTarget (a + n - 1)
  target : fwTarget a ∈ [0, 1, 2, 3, 4]
  length : 1 ≤ n ∧ n ≤ 0x40000000
  store : fwTarget a = 2 → a / 0x2000000 = (a + n - 1) / 0x2000000

theorem State.fits_of_fwOk {p c d : Nat} {write : Bool} (h : s.fwOk (.part p c d) write a n = true) (hn : 1 ≤ n ∧ n ≤ 0x40000000) :
    Fits a n ∧ (write = true → fwTarget a ≠ 2) := by
  unfold State.fwOk at h
  obtain ⟨hsame, h⟩ := Bool.and_eq_true_iff.mp h
  have hsame := of_decide_eq_true hsame
  split at h
  next ht => exact ⟨⟨hsame, by rw [ht]; decide, hn, by rw [ht]; intro h; exact absurd h (by decide)⟩, fun _ => by rw [ht]; decide⟩
  next ht => exact ⟨⟨hsame, by rw [ht]; decide, hn, by rw [ht]; intro h; exact absurd h (by decide)⟩, fun _ => by rw [ht]; decide⟩
  next ht =>
    simp only [Bool.and_eq_true, Bool.not_eq_true', beq_iff_eq] at h
    exact ⟨⟨hsame, by rw [ht]; decide, hn, fun _ => h.1.2⟩, fun hw => by rw [hw] at h; exact absurd h.1.1 (by decide)⟩
  next ht => exact ⟨⟨hsame, by rw [ht]; decide, hn, by rw [ht]; intro h; exact absurd h (by decide)⟩, fun _ => by rw [ht]; decide⟩
  next ht => exact ⟨⟨hsame, by rw [ht]; decide, hn, by rw [ht]; intro h; exact absurd h (by decide)⟩, fun _ => by rw [ht]; decide⟩
  next ht =>
    exfalso
    obtain ⟨-, hpf⟩ := Bool.and_eq_true_iff.mp h
    exact Who.noConfusion (LawfulBEq.eq_of_beq hpf)
  · exact absurd h (by decide)

/-- Where the addresses of such a range lie. -/
theorem Fits.inside {x : Nat} (h : Fits a n) (hlo : a ≤ x) (hhi : x ≤ a + n - 1) :
    (fwTarget a = 0 ∧ x < 0xC00000000) ∨ (0x10000000000 ≤ x ∧ x < 0x10200000000
      ∧ (fwTarget a = 1 ∧ x % 0x100000000 < 0x4000000
        ∨ fwTarget a = 2 ∧ 0x10000000 ≤ x % 0x100000000 ∧ x % 0x100000000 < 0x20000000 ∧ x / 0x2000000 = a / 0x2000000
        ∨ fwTarget a = 3 ∧ 0x28000000 ≤ x % 0x100000000 ∧ x % 0x100000000 < 0x28400000
        ∨ fwTarget a = 4 ∧ 0x20000000 ≤ x % 0x100000000 ∧ x % 0x100000000 < 0x24000000)) := by
  obtain ⟨hsame, htarget, hn, hstore⟩ := h
  by_cases h0 : fwTarget a = 0
  · have hend := lt_hbm_of_fwTarget (hsame.symm.trans h0)
    exact .inl ⟨h0, by omega⟩
  · have hdie : fwTarget a ∈ [1, 2, 3, 4] := by
      simp only [List.mem_cons, List.not_mem_nil, or_false] at htarget ⊢
      omega
    obtain ⟨ha0, ha2, h1, h2, h3, h4⟩ := fwTarget_die hdie
    obtain ⟨he0, he2, k1, k2, k3, k4⟩ := fwTarget_die (a := a + n - 1) (by rwa [← hsame])
    rw [← hsame] at k1 k2 k3 k4
    refine .inr ⟨by omega, by omega, ?_⟩
    simp only [List.mem_cons, List.not_mem_nil, or_false] at hdie
    rcases hdie with ht | ht | ht | ht
    · have := h1 ht
      have := k1 ht
      exact .inl ⟨ht, by omega⟩
    · have := h2 ht
      have := k2 ht
      have := hstore ht
      exact .inr (.inl ⟨ht, by omega, by omega, by omega⟩)
    · have := h3 ht
      have := k3 ht
      exact .inr (.inr (.inl ⟨ht, by omega, by omega⟩))
    · have := h4 ht
      have := k4 ht
      exact .inr (.inr (.inr ⟨ht, by omega, by omega⟩))

/-- An array buffer's address in such a range: the range begins in one. -/
theorem Fits.target_buf {x : Nat} (h : Fits a n) (hlo : a ≤ x) (hhi : x ≤ a + n - 1) (hx : fwTarget x = 4) : fwTarget a = 4 := by
  obtain ⟨h0, h2, -, -, -, h4⟩ := fwTarget_die (a := x) (by rw [hx]; decide)
  have hx4 := h4 hx
  rcases h.inside hlo hhi with ⟨-, hlt⟩ | ⟨-, -, ⟨-, hlt⟩ | ⟨-, hlt⟩ | ⟨-, hlt⟩ | ⟨ht, -⟩⟩
  · omega
  · omega
  · omega
  · omega
  · exact ht

/-- The power domains of such a range: never a field store's but where it lies in that store. -/
theorem Fits.dom {x m : Nat} (h : Fits a n) (hlo : a ≤ x) (hhi : x ≤ a + n - 1) (hm : domOf x = some m) :
    ¬(144 ≤ m ∧ m < 160) ∨ ∃ g, storeAt a = some g ∧ m = domStore g := by
  unfold domOf at hm
  have hbase : dieBase 0 = 0x10000000000 ∧ mailBase = 0x11000000000 := ⟨rfl, rfl⟩
  rw [hbase.1, hbase.2] at hm
  dsimp only at hm
  split at hm
  · exact absurd hm (by simp)
  rcases h.inside hlo hhi with ⟨-, hlt⟩ | ⟨-, -, ⟨-, hlt⟩ | ⟨ht, h1, h2, h3⟩ | ⟨-, h1, h2⟩ | ⟨-, h1, h2⟩⟩
  · omega
  · rw [if_pos hlt, Option.some.injEq] at hm
    omega
  · rw [if_neg (by omega), if_pos ⟨h1, h2⟩, Option.some.injEq] at hm
    refine .inr ⟨_, by rw [storeAt, if_pos ht], ?_⟩
    obtain ⟨ha0, ha2, -, hs, -⟩ := fwTarget_die (a := a) (by rw [ht]; decide)
    have := hs ht
    simp only [domStore] at hm ⊢
    omega
  · rw [if_neg (by omega), if_neg (by omega), if_neg (by omega)] at hm
    exact absurd hm (by simp)
  · rw [if_neg (by omega), if_neg (by omega), if_pos ⟨h1, h2⟩, Option.some.injEq] at hm
    simp only [domSeg] at hm
    omega

/-! ### Domains woken -/

/-- Requests have woken domains, no field store among them. -/
structure State.woken (u s : State) : Prop where
  keeps : u.keeps s [.ktl, .regs]
  mem : u.mem = s.mem
  psn : u.psn = s.psn
  stores : ∀ m, 144 ≤ m → m < 160 → u.dom m = s.dom m
  lock : u.ktl.lock = s.ktl.lock

theorem State.woken_refl (s : State) : s.woken s := ⟨s.keeps_refl _, rfl, rfl, fun _ _ _ => rfl, rfl⟩

theorem State.woken.trans (h : u.woken v) (k : v.woken s) : u.woken s :=
  ⟨State.keeps_trans h.keeps k.keeps, h.mem.trans k.mem, h.psn.trans k.psn, fun m h1 h2 => (h.stores m h1 h2).trans (k.stores m h1 h2),
    h.lock.trans k.lock⟩

/-- A domain that is no field store's, or ON. -/
def State.mild (s : State) (m : Nat) : Prop := ¬(144 ≤ m ∧ m < 160) ∨ (s.dom m).st = .on

theorem State.woken.mild (h : u.woken s) {m : Nat} (hm : s.mild m) : u.mild m := by
  by_cases hst : 144 ≤ m ∧ m < 160
  · rw [State.mild, h.stores m hst.1 hst.2]
    exact hm
  · exact .inl hst

theorem State.touchDom_woken {m : Nat} (h : s.mild m) : (s.touchDom m).woken s := by
  unfold State.touchDom
  split
  next hc =>
    have hno : ¬(144 ≤ m ∧ m < 160) := by
      rcases h with h | h
      · exact h
      · rw [h] at hc
        exact absurd hc (by decide)
    unfold State.wakeDom
    rw [if_pos hc]
    dsimp only
    rw [if_neg hno]
    have hset := s.setDom_keeps m { s.dom m with st := .waking, wakes := (s.dom m).wakes + 1 }
    have hinc := (s.setDom m { s.dom m with st := .waking, wakes := (s.dom m).wakes + 1 }).inc_keeps (Reg.memWakeOnAccess (dieOfDom m)) 1
    refine ⟨hinc.after (m := [.ktl, .regs]) hset.widen, ?_, ?_, fun j h1 h2 => ?_, by rw [State.inc_ktl]; rfl⟩
    · rw [State.inc_mem]
      rfl
    · rw [State.inc_psn]
      rfl
    · have hd := congrArg (fun k : Kettle => k.doms.getD j {})
        (State.inc_ktl (s.setDom m { s.dom m with st := .waking, wakes := (s.dom m).wakes + 1 }) (Reg.memWakeOnAccess (dieOfDom m)) 1)
      exact hd.trans (getD_listSet_of_ne _ _ _ (by omega))
  · exact s.woken_refl

theorem State.woken_foldl (l : List Nat) (h : ∀ m ∈ l, s.mild m) : (l.foldl State.touchDom s).woken s := by
  suffices hgo : ∀ v : State, v.woken s → (l.foldl State.touchDom v).woken s from hgo s s.woken_refl
  intro v hv
  induction l generalizing v with
  | nil => exact hv
  | cons m l ih =>
    exact ih (fun j hj => h j (List.mem_cons_of_mem _ hj)) _ ((State.touchDom_woken (hv.mild (h m List.mem_cons_self))).trans hv)

/-- A request for a range. -/
theorem State.touch_woken (hn : 1 ≤ n) (h : ∀ x, a ≤ x → x ≤ a + n - 1 → ∀ m, domOf x = some m → s.mild m) : (s.touch a n).woken s := by
  refine State.woken_foldl _ fun m hm => ?_
  obtain ⟨i, hi, hdom⟩ := List.mem_filterMap.mp (List.mem_eraseDups.mp hm)
  have hi := List.mem_range.mp hi
  exact h _ (by omega) (by omega) m hdom

theorem Fits.touch_woken (h : Fits a n) (hs : ∀ g, storeAt a = some g → (s.dom (domStore g)).st = .on) : (s.touch a n).woken s := by
  refine State.touch_woken h.length.1 fun x hlo hhi m hm => ?_
  rcases h.dom hlo hhi hm with hno | ⟨g, hg, rfl⟩
  · exact .inl hno
  · exact .inr (hs g hg)

end Sys2Proof.Machine
end

section
/-! SUPPORT. Transfers in blocks: every byte of the destination is the source's (12_memory.md R241, R294). -/

namespace Sys2Proof.Machine

set_option Elab.async false

variable {s u v : State} {a n src dst len : Nat}

/-! ### Bytes of the array buffers with a value -/

/-- Every byte of a range has a value. -/
def State.valued (s : State) (a n : Nat) : Prop := ∀ x, a ≤ x → x < a + n → s.known x = true

/-- The bytes with a value stay so, in this package. -/
structure State.knownAs (u s : State) : Prop where
  gen : u.dev.bufGen = s.dev.bufGen
  defs : ∀ r ∈ s.dev.bufDef, r ∈ u.dev.bufDef
  pkg : u.dev.pkgSel = s.dev.pkgSel

theorem State.knownAs_refl (s : State) : s.knownAs s := ⟨rfl, fun _ h => h, rfl⟩

theorem State.knownAs.trans (h : u.knownAs v) (k : v.knownAs s) : u.knownAs s :=
  ⟨h.gen.trans k.gen, fun r hr => h.defs r (k.defs r hr), h.pkg.trans k.pkg⟩

theorem State.keeps.knownAs {l : List Piece} (h : u.keeps s l) (hl : .dev ∉ l := by decide) : u.knownAs s := by
  have hdev : u.dev = s.dev := h .dev hl
  exact ⟨by rw [hdev], fun r hr => by rwa [hdev], by rw [hdev]⟩

theorem State.knownAs.known (h : u.knownAs s) {x : Nat} (hx : s.known x = true) : u.known x = true := by
  unfold State.known at hx ⊢
  rw [h.gen]
  simp only [Bool.or_eq_true, List.any_eq_true] at hx ⊢
  rcases hx with hx | ⟨r, hr, hin⟩
  · exact .inl hx
  · exact .inr ⟨r, h.defs r hr, hin⟩

theorem State.knownAs.valued (h : u.knownAs s) (hs : s.valued a n) : u.valued a n := fun x h1 h2 => h.known (hs x h1 h2)

theorem State.knownAs.near (h : u.knownAs s) (x : Nat) : u.near x = s.near x := by rw [State.near, State.near, h.pkg]

theorem State.knownAs.farPkg (h : u.knownAs s) (x : Nat) : u.farPkg x = s.farPkg x := by rw [State.farPkg, State.farPkg, h.pkg]

theorem State.defBuf_knownAs (s : State) (a n : Nat) : (s.defBuf a n).knownAs s := by
  unfold State.defBuf
  split
  · exact ⟨rfl, fun r hr => List.mem_cons_of_mem _ hr, rfl⟩
  · exact s.knownAs_refl

/-- The bytes of a range that have no value yet. -/
def State.openBytes (s : State) (a n : Nat) : List Nat := ((List.range n).map (· + a)).filter fun i => !s.known i

/-- Bytes given their values. -/
def State.pokeFree (s : State) (l : List Nat) : State := l.foldl (fun v i => v.poke i [Config.bufByte v.dev.bufGen i]) s

theorem State.pokeFree_dev (s : State) (l : List Nat) : (s.pokeFree l).dev = s.dev :=
  foldl_field (·.dev) (fun (v : State) i => v.poke i [Config.bufByte v.dev.bufGen i]) (fun _ _ => rfl) l s

theorem State.pokeFree_congr (hdev : u.dev = s.dev) (h : u.mem = s.mem ∧ u.psn = s.psn) (l : List Nat) :
    (u.pokeFree l).mem = (s.pokeFree l).mem ∧ (u.pokeFree l).psn = (s.pokeFree l).psn := by
  unfold State.pokeFree
  induction l generalizing u s with
  | nil => exact h
  | cons i l ih => exact ih hdev ⟨show Machine.poke u.mem i [Config.bufByte u.dev.bufGen i] = _ by rw [h.1, hdev]; rfl, h.2⟩

theorem State.settleBuf_eq (s : State) (a n : Nat) : s.settleBuf a n =
    if s.dev.bufGen = 0 ∨ !(fwTarget a = 4 ∨ fwTarget (a + n - 1) = 4) then s
    else { s.pokeFree (s.openBytes a n) with
      dev := { (s.pokeFree (s.openBytes a n)).dev with bufDef := (a, n) :: (s.pokeFree (s.openBytes a n)).dev.bufDef } } := rfl

theorem State.settleBuf_knownAs (s : State) (a n : Nat) : (s.settleBuf a n).knownAs s := by
  rw [State.settleBuf_eq]
  split
  · exact s.knownAs_refl
  · have hdev := s.pokeFree_dev (s.openBytes a n)
    exact ⟨show (s.pokeFree (s.openBytes a n)).dev.bufGen = _ by rw [hdev], fun r hr => List.mem_cons_of_mem _ (by rw [hdev]; exact hr),
      show (s.pokeFree (s.openBytes a n)).dev.pkgSel = _ by rw [hdev]⟩

theorem State.settleBuf_valued (h : Fits a n) : (s.settleBuf a n).valued a n := by
  intro x hlo hhi
  rw [State.settleBuf_eq]
  split
  next hno =>
    unfold State.known
    rcases hno with hgen | hno
    · simp [hgen]
    · have hx : fwTarget x ≠ 4 := by
        intro hx
        have := h.target_buf hlo (by omega) hx
        simp [this] at hno
      simp [hx]
  · unfold State.known
    simp only [Bool.or_eq_true, List.any_eq_true]
    exact .inr ⟨(a, n), List.mem_cons_self, by simp; omega⟩

/-- Nothing is left to settle. -/
theorem State.settleBuf_bytes (h : s.valued a n) : (s.settleBuf a n).mem = s.mem ∧ (s.settleBuf a n).psn = s.psn := by
  rw [State.settleBuf_eq]
  split
  · exact ⟨rfl, rfl⟩
  · have hnone : s.openBytes a n = [] := by
      refine List.filter_eq_nil_iff.mpr fun x hx => ?_
      obtain ⟨i, hi, rfl⟩ := List.mem_map.mp hx
      have hi := List.mem_range.mp hi
      simp [h (i + a) (by omega) (by omega)]
    rw [hnone]
    exact ⟨rfl, rfl⟩

/-- What a range settles to depends on memory and on the buffers alone. -/
theorem State.settleBuf_congr (hdev : u.dev = s.dev) (hmem : u.mem = s.mem) (hpsn : u.psn = s.psn) :
    (u.settleBuf a n).mem = (s.settleBuf a n).mem ∧ (u.settleBuf a n).psn = (s.settleBuf a n).psn := by
  have hknown (x : Nat) : u.known x = s.known x := by rw [State.known, State.known, hdev]
  have hopen : u.openBytes a n = s.openBytes a n := by simp only [State.openBytes, hknown]
  rw [State.settleBuf_eq, State.settleBuf_eq, hdev, hopen]
  split
  · exact ⟨hmem, hpsn⟩
  · exact State.pokeFree_congr hdev ⟨hmem, hpsn⟩ _

/-! ### One block -/

theorem State.move_knownAs (s : State) (src dst n : Nat) : (s.move src dst n).knownAs s := by
  have h := ((s.settleBuf src n).defBuf_knownAs dst n).trans (s.settleBuf_knownAs src n)
  exact ⟨h.gen, h.defs, h.pkg⟩

theorem State.move_bytes (h : s.valued src n) (x : Nat) :
    (s.move src dst n).mem.get 0#8 x = if dst ≤ x ∧ x < dst + n then s.mem.get 0#8 (src + (x - dst)) else s.mem.get 0#8 x := by
  have hmem : ((s.settleBuf src n).defBuf dst n).mem = s.mem := ((State.defBuf_bytes _ _ _).1).trans (State.settleBuf_bytes h).1
  have hmove : (s.move src dst n).mem = Machine.poke s.mem dst (Machine.peek s.mem src n) := by
    rw [← hmem]
    rfl
  have hlen : (Machine.peek s.mem src n).length = n := by simp [Machine.peek]
  rw [hmove, get_poke, hlen]
  split
  next hin => rw [Machine.peek, List.getD_eq_getElem _ _ (by simp; omega), List.getElem_map, List.getElem_range]
  · rfl

theorem foldl_set_outside (l : List (Bool × Nat)) (b : Nat) (t : Tab Bool) {x : Nat} (h : ∀ e ∈ l, b + e.2 ≠ x) :
    (l.foldl (fun t e => t.set false (b + e.2) e.1) t).get false x = t.get false x := by
  induction l generalizing t with
  | nil => rfl
  | cons e l ih =>
    rw [List.foldl_cons, ih _ fun y hy => h y (List.mem_cons_of_mem _ hy)]
    exact Tab.get_set_ne _ _ _ _ _ _ (Ne.symm (h e List.mem_cons_self))

/-- The marks of the lines outside the destination stand. -/
theorem State.move_marks (h : s.valued src n) {l : Nat} (hl : 64 * l + 64 ≤ dst ∨ dst + n ≤ 64 * l) :
    (s.move src dst n).psn.get false l = s.psn.get false l := by
  have hpsn : ((s.settleBuf src n).defBuf dst n).psn = s.psn := ((State.defBuf_bytes _ _ _).2).trans (State.settleBuf_bytes h).2
  have hmove : (s.move src dst n).psn =
      (((List.range (n / 64)).map fun i => s.psn.get false (src / 64 + i)).zipIdx).foldl (fun t e => t.set false (dst / 64 + e.2) e.1) s.psn := by
    rw [← hpsn]
    rfl
  rw [hmove]
  refine foldl_set_outside _ _ _ fun e he => ?_
  have hlt := List.snd_lt_of_mem_zipIdx he
  simp only [List.length_map, List.length_range] at hlt
  omega

theorem State.move_memAs (h : s.valued src n) : (s.move src dst n).memAs s dst n :=
  ⟨fun x hx => by rw [State.move_bytes h, if_neg (by omega)], fun _ hl => State.move_marks h hl⟩

/-! ### The blocks of a transfer -/

/-- The blocks of a transfer settled at their destination. -/
def State.moves (s : State) (src dst : Nat) (bs : List (Nat × Nat)) : State := bs.foldl (fun s e => s.move (src + e.1) (dst + e.1) e.2) s

theorem State.moves_leaves (s : State) (src dst : Nat) (bs : List (Nat × Nat)) : (s.moves src dst bs).leaves s [.mem, .dev] :=
  State.leaves_foldl _ (fun v _ => v.move_leaves _ _ _) (s.leaves_refl _)

theorem State.moves_knownAs (s : State) (src dst : Nat) (bs : List (Nat × Nat)) : (s.moves src dst bs).knownAs s := by
  unfold State.moves
  induction bs generalizing s with
  | nil => exact s.knownAs_refl
  | cons e bs ih => exact (ih _).trans (s.move_knownAs _ _ _)

theorem memAs_sub {o m : Nat} (h : u.memAs s (a + o) m) (hle : o + m ≤ n) : u.memAs s a n :=
  ⟨fun x hx => h.1 x (by omega), fun l hl => h.2 l (by omega)⟩

/-- A byte stands at its destination once a block with it has been moved; the source keeps its bytes. -/
theorem State.moves_after {f : Nat → Byte} (bs : List (Nat × Nat)) (hle : ∀ e ∈ bs, e.1 + e.2 ≤ len) (hset : s.valued src len)
    (hsrc : ∀ i < len, s.mem.get 0#8 (src + i) = f i) (hover : ∀ i < len, src + i < dst ∨ dst + len ≤ src + i) :
    (s.moves src dst bs).memAs s dst len
    ∧ ∀ i < len, (s.mem.get 0#8 (dst + i) = f i ∨ ∃ e ∈ bs, e.1 ≤ i ∧ i < e.1 + e.2) → (s.moves src dst bs).mem.get 0#8 (dst + i) = f i := by
  induction bs generalizing s with
  | nil => exact ⟨s.memAs_refl _ _, fun i hi h => h.resolve_right (by simp)⟩
  | cons e bs ih =>
    have hfit := hle e List.mem_cons_self
    have hsub : s.valued (src + e.1) e.2 := fun x h1 h2 => hset x (by omega) (by omega)
    have hmem : (s.move (src + e.1) (dst + e.1) e.2).memAs s dst len := memAs_sub (State.move_memAs hsub) hfit
    obtain ⟨hbytes, hgood⟩ := ih (s := s.move (src + e.1) (dst + e.1) e.2) (fun x hx => hle x (List.mem_cons_of_mem _ hx))
      ((s.move_knownAs _ _ _).valued hset) (fun i hi => by rw [hmem.1 _ (hover i hi)]; exact hsrc i hi)
    refine ⟨State.memAs_trans hbytes hmem, fun i hi h => hgood i hi ?_⟩
    by_cases hin : e.1 ≤ i ∧ i < e.1 + e.2
    · refine .inl ?_
      rw [State.move_bytes hsub, if_pos (by omega), show src + e.1 + (dst + i - (dst + e.1)) = src + i by omega]
      exact hsrc i hi
    · rcases h with h | ⟨x, hx, hxi⟩
      · refine .inl ?_
        rw [State.move_bytes hsub, if_neg (by omega)]
        exact h
      · rcases List.mem_cons.mp hx with rfl | hx
        · exact absurd hxi hin
        · exact .inr ⟨x, hx, hxi⟩

theorem mem_blocksOf {e : Nat × Nat} : e ∈ blocksOf dst len ↔ len ≠ 0 ∧ ∃ i < (dst + len - 1) / 4096 - dst / 4096 + 1,
    e = ((if i = 0 then dst else (dst / 4096 + i) * 4096) - dst,
      min (dst + len) ((dst / 4096 + i + 1) * 4096) - (if i = 0 then dst else (dst / 4096 + i) * 4096)) := by
  unfold blocksOf
  split
  next h => simp [h]
  next h =>
    simp only [List.mem_map, List.mem_range]
    exact ⟨fun ⟨i, hi, he⟩ => ⟨h, i, hi, he.symm⟩, fun ⟨_, i, hi, he⟩ => ⟨i, hi, he.symm⟩⟩

theorem blocksOf_bound : ∀ e ∈ blocksOf dst len, e.1 + e.2 ≤ len := by
  intro e he
  obtain ⟨hlen, i, hi, rfl⟩ := mem_blocksOf.mp he
  dsimp only
  split <;> omega

theorem blocksOf_cover {i : Nat} (hi : i < len) : ∃ e ∈ blocksOf dst len, e.1 ≤ i ∧ i < e.1 + e.2 := by
  refine ⟨_, mem_blocksOf.mpr ⟨by omega, (dst + i) / 4096 - dst / 4096, by omega, rfl⟩, ?_, ?_⟩
  · dsimp only
    split <;> omega
  · dsimp only
    split <;> omega

/-- A transfer in blocks. -/
theorem State.moves_all (hset : s.valued src len) (hover : overlap src len dst len = false) :
    (s.moves src dst (blocksOf dst len)).memAs s dst len
    ∧ ∀ i < len, (s.moves src dst (blocksOf dst len)).mem.get 0#8 (dst + i) = s.mem.get 0#8 (src + i) := by
  have hno : ∀ i < len, src + i < dst ∨ dst + len ≤ src + i := by
    intro i hi
    rw [overlap, ← Bool.decide_and, decide_eq_false_iff_not] at hover
    omega
  obtain ⟨hmem, hbytes⟩ := State.moves_after (f := fun i => s.mem.get 0#8 (src + i)) (blocksOf dst len) blocksOf_bound hset (fun _ _ => rfl) hno
  exact ⟨hmem, fun i hi => hbytes i hi (.inr (blocksOf_cover hi))⟩

end Sys2Proof.Machine
end

section
/-! SUPPORT. Descriptors of a DMA chain: what an engine meets, and FILL and COPY (12_memory.md R288 to R297). -/

namespace Sys2Proof.Machine

set_option Elab.async false

variable {s u v : State} {k t a n : Nat} {d : DmaDesc}

/-! ### What an engine meets -/

/-- The engine of a core at a well-formed descriptor. -/
structure State.atDesc (s : State) (k : Nat) (d : DmaDesc) : Prop where
  item : ∃ i, (s.core k).dma.item = some i ∧ s.chainAt k i.part (s.core k).dma.desc = true
  wait : (s.core k).dma.wait = false
  retry : (s.core k).dma.retry = []
  desc : d = decDma (s.peek (s.core k).dma.desc 32)
  ok : d.ok = true

theorem State.atDesc_of_meet (h : s.dmaMeet k = .desc d) : s.atDesc k d := by
  unfold State.dmaMeet at h
  dsimp only at h
  split at h
  · exact absurd h (by simp)
  next i hi =>
    split at h
    · exact absurd h (by simp)
    next hbusy =>
      split at h
      · exact absurd h (by simp)
      next hchain =>
        split at h
        · exact absurd h (by simp)
        · split at h
          next hok =>
            obtain rfl := DmaMeet.desc.inj h
            simp only [Bool.or_eq_true, not_or, Bool.not_eq_true, Bool.not_eq_false', List.isEmpty_iff] at hbusy
            simp only [not_or, Bool.not_eq_true, Bool.not_eq_false'] at hchain
            exact ⟨⟨i, hi, hchain.2⟩, hbusy.1.1, hbusy.1.2, rfl, hok⟩
          · exact absurd h (by simp)

theorem State.lt_cores_of_item {i : Item} (h : (s.core k).dma.item = some i) : k < s.cores.length := by
  by_contra hc
  rw [State.core, List.getD_eq_default _ _ (by omega)] at h
  exact absurd h (by simp)

theorem State.atDesc.lt_cores (h : s.atDesc k d) : k < s.cores.length := by
  obtain ⟨i, hi, -⟩ := h.item
  exact State.lt_cores_of_item hi

/-- The lengths of a FILL or a COPY. -/
theorem State.atDesc.length (h : s.atDesc k d) (hop : d.op = dmCOPY ∨ d.op = dmFILL) : d.len % 64 = 0 ∧ 1 ≤ d.len ∧ d.len ≤ 0x40000000 := by
  have hok := h.ok
  unfold DmaDesc.ok at hok
  rw [if_pos hop] at hok
  simp only [Bool.and_eq_true, decide_eq_true_eq, beq_iff_eq] at hok
  omega

/-- A descriptor lies in a scratchpad or in HBM: a read of it wakes no field store. -/
theorem State.atDesc.touch_woken (h : s.atDesc k d) : (s.touch (s.core k).dma.desc 32).woken s := by
  obtain ⟨i, -, hchain⟩ := h.item
  generalize (s.core k).dma.desc = a at hchain
  have hbase : dieBase 0 = 0x10000000000 ∧ mailBase = 0x11000000000 := ⟨rfl, rfl⟩
  obtain ⟨halign, hplace⟩ := Bool.and_eq_true_iff.mp hchain
  refine State.touch_woken (by decide) fun x hlo hhi m hm => .inl ?_
  unfold domOf at hm
  rw [hbase.1, hbase.2] at hm
  dsimp only at hm
  split at hm
  · exact absurd hm (by simp)
  · rcases Bool.or_eq_true_iff.mp hplace with hpad | hunits
    · obtain ⟨hfrom, hto⟩ := Bool.and_eq_true_iff.mp hpad
      have hfrom := of_decide_eq_true hfrom
      have hto := of_decide_eq_true hto
      simp only [padBase, dieBase] at hfrom hto
      rw [if_pos (by omega), Option.some.injEq] at hm
      omega
    · simp only [PartCfg.inUnits, Bool.and_eq_true, decide_eq_true_eq] at hunits
      omega

theorem State.woken.core (h : u.woken s) (k : Nat) : u.core k = s.core k := h.keeps.core k

/-- A descriptor of the command's kind runs. -/
theorem State.dmaRun_of_desc (hup : s.coreUp k = true) (h : s.dmaMeet k = .desc d) (f : State → DmaDesc → State) :
    s.dmaRun k d.op f = f (s.touch (s.core k).dma.desc 32) d := by
  unfold State.dmaRun
  rw [hup, h]
  dsimp only
  rw [if_neg (by decide), if_pos rfl]

/-- Another kind of descriptor is left alone. -/
theorem State.dmaRun_of_other {op : Nat} (h : s.dmaMeet k = .desc d) (hop : d.op ≠ op) (f : State → DmaDesc → State) : s.dmaRun k op f = s := by
  unfold State.dmaRun
  rw [h]
  dsimp only
  rw [if_neg hop]
  split <;> rfl

/-! ### The engine goes on -/

theorem State.setDma_keeps (s : State) (k : Nat) (x : DmaSt) : (s.setCore k { s.core k with dma := x }).keeps s [.cores] := s.setCore_keeps _ _

theorem State.setDma_core (x : DmaSt) (h : k < s.cores.length) : ((s.setCore k { s.core k with dma := x }).core k).dma = x :=
  congrArg CoreSt.dma (State.setCore_core_same _ _ h)

theorem State.dmaNext_keeps (s : State) (k : Nat) (l : List (Option Nat)) : (s.dmaNext k l).keeps s [.cores] := s.setDma_keeps _ _

theorem State.dmaNext_core (l : List (Option Nat)) (h : k < s.cores.length) :
    ((s.dmaNext k l).core k).dma = { (s.core k).dma.next ((s.core k).dma.desc + 32) with wrote := l ++ (s.core k).dma.wrote } :=
  State.setDma_core _ h

theorem State.dmaNext_bytes (s : State) (k : Nat) (l : List (Option Nat)) : (s.dmaNext k l).mem = s.mem ∧ (s.dmaNext k l).psn = s.psn := ⟨rfl, rfl⟩

/-! ### The firewall and the field stores through a wake -/

theorem State.keeps.fwOk {l : List Piece} (h : u.keeps s l) (w : Who) (write : Bool) (a n : Nat)
    (hl : .loader ∉ l ∧ .fuses ∉ l := by decide) : u.fwOk w write a n = s.fwOk w write a n := by
  have hload : u.loader = s.loader := h .loader hl.1
  have hfuses : u.fuses = s.fuses := h .fuses hl.2
  have hcfg : u.cfg = s.cfg := by rw [State.cfg, State.cfg, hload]
  have hpcfg (p : Nat) : u.pcfg p = s.pcfg p := by rw [State.pcfg, State.pcfg, hcfg]
  have hdef (p : Nat) : u.defined p = s.defined p := by rw [State.defined, State.defined, hcfg]
  have hen (j : Nat) : u.coreEn j = s.coreEn j := by rw [State.coreEn, State.coreEn, hfuses]
  have himage : u.inImage a n = s.inImage a n := by rw [State.inImage, State.inImage, hcfg, hload]
  have hinS : u.inS a n = s.inS a n := by rw [State.inS, State.inS, hcfg]
  have hhbm : u.fwHbm w write a n = s.fwHbm w write a n := by
    cases w <;> simp only [State.fwHbm, himage, hinS, hpcfg, hdef]
  have hpad : u.fwPad w write a n = s.fwPad w write a n := by
    cases w <;> simp only [State.fwPad, hen, hpcfg, hdef]
  unfold State.fwOk
  rw [hhbm, hpad]
  cases w <;> simp only [hpcfg]

theorem State.woken.storeOpen (h : u.woken s) {g : Nat} (hg : g < 16) : u.storeOpen g = s.storeOpen g := by
  have hfld : u.fld = s.fld := h.keeps .fld (by decide)
  have hdev : u.dev = s.dev := h.keeps .dev (by decide)
  have hhealthy := State.healthy_congr (u := u) (s := s) (by rw [h.keeps .errs (by decide)]) (unitId (g / 8) (96 + g % 8))
  have hdom := h.stores (domStore g) (by simp only [domStore]; omega) (by simp only [domStore]; omega)
  rw [State.storeOpen, State.storeOpen, State.storeUp, State.storeUp, State.pdUp, State.pdUp, State.fstore, State.fstore, hfld, hdev, h.lock, hhealthy, hdom]

end Sys2Proof.Machine
end

section
/-! SUPPORT. FILL and COPY of a DMA chain (12_memory.md R291, R294). -/

namespace Sys2Proof.Machine

set_option Elab.async false

variable {s u v : State} {k t a n : Nat} {d : DmaDesc}

/-! ### FILL -/

/-- The pattern of a FILL. -/
def DmaDesc.pattern (d : DmaDesc) : List Byte := (List.replicate (d.len / 8) (toLE 8 d.src)).flatten

theorem DmaDesc.pattern_length (h : d.len % 64 = 0) : d.pattern.length = d.len := by
  simp only [DmaDesc.pattern, List.length_flatten, List.map_replicate, List.sum_replicate, length_toLE, smul_eq_mul]
  omega

theorem getD_flatten_replicate (b : List Byte) (m i : Nat) (hi : i < m * b.length) :
    ((List.replicate m b).flatten).getD i 0#8 = b.getD (i % b.length) 0#8 := by
  induction m generalizing i with
  | zero => omega
  | succ m ih =>
    rw [List.replicate_succ, List.flatten_cons]
    by_cases hlt : i < b.length
    · rw [List.getD_append _ _ _ _ hlt, Nat.mod_eq_of_lt hlt]
    · rw [List.getD_append_right _ _ _ _ (by omega), ih _ (by rw [Nat.succ_mul] at hi; omega), Nat.mod_eq_sub_mod (a := i) (by omega)]

theorem DmaDesc.pattern_getD (h : d.len % 64 = 0) {i : Nat} (hi : i < d.len) : d.pattern.getD i 0#8 = (toLE 8 d.src).getD (i % 8) 0#8 := by
  have hget := getD_flatten_replicate (toLE 8 d.src) (d.len / 8) i (by rw [length_toLE]; omega)
  rw [length_toLE] at hget
  exact hget

/-- A FILL's bytes stored. -/
def State.filled (s : State) (d : DmaDesc) (dst : Nat) : State := ((s.touch dst d.len).defBuf dst d.len).store dst d.pattern

theorem State.dmaFill_near (far : FarIn) (hfar : s.farPkg (s.near d.dst) = none)
    (hfw : s.fwOk (dmaWho k (s.dmaItem k)) true (s.near d.dst) d.len = true) :
    s.dmaFill k d far = ((s.filled d (s.near d.dst)).add64 (Reg.memDmaBytesLo k) d.len).dmaNext k
      [(s.filled d (s.near d.dst)).farPkg (s.near d.dst)] := by
  unfold State.dmaFill
  dsimp only
  rw [hfar, if_neg (by simp), hfw, if_neg (by decide)]
  rfl

theorem storeAt_of_ne (h : fwTarget a ≠ 2) : storeAt a = none := if_neg h

theorem State.filled_after {dst : Nat} (hfits : Fits dst d.len) (hstore : fwTarget dst ≠ 2) (hlen : d.len % 64 = 0) :
    (s.filled d dst).leaves s [.ktl, .regs, .mem, .dev] ∧ (s.filled d dst).knownAs s ∧ (s.filled d dst).memAs s dst d.len
    ∧ ∀ i < d.len, (s.filled d dst).mem.get 0#8 (dst + i) = (toLE 8 d.src).getD (i % 8) 0#8 := by
  have hw := hfits.touch_woken (s := s) fun g hg => by rw [storeAt_of_ne hstore] at hg; exact absurd hg (by simp)
  have hdef := (s.touch dst d.len).defBuf_leaves dst d.len
  obtain ⟨hmem, hpsn⟩ := (s.touch dst d.len).defBuf_bytes dst d.len
  have hstored := ((s.touch dst d.len).defBuf dst d.len).store_keeps dst d.pattern
  have hbytes := ((s.touch dst d.len).defBuf dst d.len).store_memAs dst d.pattern
  rw [DmaDesc.pattern_length hlen] at hbytes
  refine ⟨hstored.leaves.trans (hdef.mono.trans hw.keeps.leaves), hstored.knownAs.trans ((State.defBuf_knownAs _ _ _).trans hw.keeps.knownAs),
    State.memAs_trans hbytes (State.memAs_of_mem_eq (hmem.trans hw.mem) (hpsn.trans hw.psn) _ _), fun i hi => ?_⟩
  rw [State.filled, State.store_mem]
  change (Machine.poke _ dst d.pattern).get 0#8 (dst + i) = _
  rw [get_poke, DmaDesc.pattern_length hlen, if_pos (by omega), Nat.add_sub_cancel_left, DmaDesc.pattern_getD hlen hi]

/-! ### COPY -/

/-- The ends of a COPY requested, and the source's bytes with their values. -/
def State.copyReady (s : State) (src dst len : Nat) : State := ((s.touch src len).settleBuf src len).touch dst len

theorem State.storeOpen_of_fresh {i : Item} {g : Nat} (h : s.storeStale i a = none) (hg : storeAt a = some g) : (s.dom (domStore g)).st = .on := by
  rw [State.storeStale, hg] at h
  simp only [Option.filter_eq_none_iff, Option.some.injEq, forall_eq', Bool.not_eq_true, Bool.or_eq_false_iff,
    Bool.not_eq_false'] at h
  have hopen := h.2
  unfold State.storeOpen State.storeUp at hopen
  simp only [Bool.and_eq_true, decide_eq_true_eq] at hopen
  exact hopen.1.2.2

theorem State.woken.storeStale (h : u.woken s) {i : Item} (hs : s.storeStale i a = none) : u.storeStale i a = none := by
  rw [State.storeStale] at hs ⊢
  cases hg : storeAt a with
  | none => rfl
  | some g =>
    have hlt : g < 16 := by
      unfold storeAt at hg
      split at hg
      next ht =>
        obtain ⟨-, -, -, h2, -⟩ := fwTarget_die (a := a) (by rw [ht]; decide)
        have := h2 ht
        rw [Option.some.injEq] at hg
        omega
      · exact absurd hg (by simp)
    have hfld : u.fld = s.fld := h.keeps .fld (by decide)
    rw [hg] at hs
    rw [Option.filter_some] at hs ⊢
    rw [h.storeOpen hlt, hfld]
    exact hs

theorem State.copyReady_after {src dst len : Nat} (hsrc : Fits src len) (hdst : Fits dst len) (hstore : fwTarget dst ≠ 2)
    (hfresh : ∀ g, storeAt src = some g → (s.dom (domStore g)).st = .on) :
    (s.copyReady src dst len).leaves s [.ktl, .regs, .mem, .dev] ∧ (s.copyReady src dst len).knownAs s
    ∧ (s.copyReady src dst len).mem = (s.settleBuf src len).mem ∧ (s.copyReady src dst len).psn = (s.settleBuf src len).psn
    ∧ (s.copyReady src dst len).valued src len := by
  have hw := hsrc.touch_woken hfresh
  have hset := (s.touch src len).settleBuf_leaves src len
  have hwd := hdst.touch_woken (s := (s.touch src len).settleBuf src len) fun g hg => by
    rw [storeAt_of_ne hstore] at hg
    exact absurd hg (by simp)
  obtain ⟨hmem, hpsn⟩ := State.settleBuf_congr (a := src) (n := len) (hw.keeps .dev (by decide)) hw.mem hw.psn
  exact ⟨hwd.keeps.leaves.trans (hset.mono.trans hw.keeps.leaves),
    hwd.keeps.knownAs.trans ((State.settleBuf_knownAs _ _ _).trans hw.keeps.knownAs), hwd.mem.trans hmem, hwd.psn.trans hpsn,
    hwd.keeps.knownAs.valued (State.settleBuf_valued hsrc)⟩

/-- The blocks of a COPY at their destination, counted, the engine going on. -/
def State.dmaCopied (s : State) (k : Nat) (d : DmaDesc) (src dst : Nat) : State :=
  let x := (s.moves src dst (blocksOf dst d.len)).add64 (Reg.memDmaBytesLo k) d.len
  (x.setCore k { x.core k with dma := { (x.core k).dma with retry := [], fail := false } }).dmaNext k [s.farPkg dst]

theorem State.copyBlocks_eq (s : State) (k src dst : Nat) (bs : List (Nat × Nat)) (hs : s.farPkg src = none) (hd : s.farPkg dst = none) :
    bs.zipIdx.foldl (fun s e => if ([] : List Nat).contains e.2 then s else s.copyBlock k src dst e.1.1 e.1.2) s = s.moves src dst bs := by
  have hgo (l : List (Nat × Nat)) (j : Nat) (v : State) (hv : v.knownAs s) :
      (l.zipIdx j).foldl (fun s e => if ([] : List Nat).contains e.2 then s else s.copyBlock k src dst e.1.1 e.1.2) v = v.moves src dst l := by
    induction l generalizing j v with
    | nil => rfl
    | cons e l ih =>
      have hblock : v.copyBlock k src dst e.1 e.2 = v.move (src + e.1) (dst + e.1) e.2 := by
        rw [State.copyBlock, hv.farPkg, hv.farPkg, hs, hd]
        rfl
      rw [List.zipIdx_cons, List.foldl_cons]
      dsimp only
      rw [if_neg (by simp), hblock, ih _ _ ((v.move_knownAs _ _ _).trans hv)]
      rfl
  exact hgo bs 0 s s.knownAs_refl

theorem State.copyRun_near (data : List Byte) (poison : Bool) {src dst : Nat} (hs : s.farPkg src = none) (hd : s.farPkg dst = none)
    (hcheck : d.check = false) (hk : k < s.cores.length) : s.copyRun k d src dst data poison [] = s.dmaCopied k d src dst := by
  have hmoves := s.moves_leaves src dst (blocksOf dst d.len)
  have hknown := s.moves_knownAs src dst (blocksOf dst d.len)
  have hadd := (s.moves src dst (blocksOf dst d.len)).add64_keeps (Reg.memDmaBytesLo k) d.len
  have hfar : ((s.moves src dst (blocksOf dst d.len)).add64 (Reg.memDmaBytesLo k) d.len).farPkg dst = s.farPkg dst :=
    (hadd.knownAs.farPkg dst).trans (hknown.farPkg dst)
  unfold State.copyRun State.dmaCopied
  extract_lets wrong bs retry v w x c m y
  have hretry : retry = [] := by simp [retry]
  have hwrong : wrong = false := by simp only [wrong, hcheck, Bool.false_and]
  have hv : v = s.moves src dst (blocksOf dst d.len) := by
    simp only [v, hretry]
    exact State.copyBlocks_eq s k src dst (blocksOf dst d.len) hs hd
  have hy : y = (s.moves src dst (blocksOf dst d.len)).add64 (Reg.memDmaBytesLo k) d.len := rfl
  have hx : x = y := by simp only [x, w, hv, hcheck, Bool.false_and, Bool.false_eq_true, if_false, y]
  simp only [m, c, hx, hretry, hwrong, List.eraseDups_nil]
  have hky : k < y.cores.length := by rw [hy, hadd .cores (by decide), hmoves.keeps .cores (by decide)]; exact hk
  rw [← hy] at hfar
  clear_value y
  have hcore := State.setDma_core { (y.core k).dma with retry := [], fail := false } hky
  unfold State.copyEnd
  dsimp only
  rw [hcore]
  dsimp only
  rw [if_neg (by simp), if_neg (by simp), ← hfar]
  rfl

theorem State.dmaCopy_near (far : FarIn) (hs : s.farPkg (s.near d.src) = none) (hd : s.farPkg (s.near d.dst) = none)
    (hfs : s.fwOk (dmaWho k (s.dmaItem k)) false (s.near d.src) d.len = true) (hfd : s.fwOk (dmaWho k (s.dmaItem k)) true (s.near d.dst) d.len = true)
    (hover : overlap (s.near d.src) d.len (s.near d.dst) d.len = false) (hfresh : s.storeStale (s.dmaItem k) (s.near d.src) = none) :
    ∃ data poison, s.dmaCopy k d [] far = (s.copyReady (s.near d.src) (s.near d.dst) d.len).copyRun k d (s.near d.src) (s.near d.dst) data poison [] := by
  refine ⟨(s.copyReady (s.near d.src) (s.near d.dst) d.len).peek (s.near d.src) d.len,
    (s.copyReady (s.near d.src) (s.near d.dst) d.len).poisoned (s.near d.src) d.len, ?_⟩
  unfold State.dmaCopy
  dsimp only
  rw [hs, hd, hfs, hfd, hover, hfresh]
  rfl

/-- What a COPY leaves. -/
theorem State.dmaCopied_after {src dst : Nat} (hset : s.valued src d.len) (hover : overlap src d.len dst d.len = false) (hk : k < s.cores.length) :
    (s.dmaCopied k d src dst).leaves s [.cores, .regs, .mem, .dev]
    ∧ ((s.dmaCopied k d src dst).core k).dma = { (s.core k).dma.next ((s.core k).dma.desc + 32) with wrote := s.farPkg dst :: (s.core k).dma.wrote }
    ∧ (s.dmaCopied k d src dst).memAs s dst d.len
    ∧ ∀ i < d.len, (s.dmaCopied k d src dst).mem.get 0#8 (dst + i) = s.mem.get 0#8 (src + i) := by
  have hmoves := s.moves_leaves src dst (blocksOf dst d.len)
  obtain ⟨hbytes, hcopied⟩ := State.moves_all hset hover
  have hadd := (s.moves src dst (blocksOf dst d.len)).add64_keeps (Reg.memDmaBytesLo k) d.len
  have haddm : ((s.moves src dst (blocksOf dst d.len)).add64 (Reg.memDmaBytesLo k) d.len).mem = (s.moves src dst (blocksOf dst d.len)).mem
      ∧ ((s.moves src dst (blocksOf dst d.len)).add64 (Reg.memDmaBytesLo k) d.len).psn = (s.moves src dst (blocksOf dst d.len)).psn := by
    obtain ⟨r, hr⟩ := State.add64_with (s.moves src dst (blocksOf dst d.len)) (Reg.memDmaBytesLo k) d.len
    rw [hr]
    exact ⟨rfl, rfl⟩
  unfold State.dmaCopied
  dsimp only
  generalize (s.moves src dst (blocksOf dst d.len)).add64 (Reg.memDmaBytesLo k) d.len = x at *
  have hx : x.leaves s [.cores, .regs, .mem, .dev] := hadd.leaves.trans hmoves.mono
  have hcorex : x.core k = s.core k := (hadd.core k).trans (hmoves.keeps.core k)
  have hkx : k < x.cores.length := by rw [hadd .cores (by decide), hmoves.keeps .cores (by decide)]; exact hk
  have hdma := State.setDma_core { (x.core k).dma with retry := [], fail := false } hkx
  have hsetk := x.setDma_keeps k { (x.core k).dma with retry := [], fail := false }
  have hmem : (x.setCore k { x.core k with dma := { (x.core k).dma with retry := [], fail := false } }).mem = x.mem := rfl
  have hpsn : (x.setCore k { x.core k with dma := { (x.core k).dma with retry := [], fail := false } }).psn = x.psn := rfl
  have hlen : (x.setCore k { x.core k with dma := { (x.core k).dma with retry := [], fail := false } }).cores.length = x.cores.length :=
    length_listSet _ _ _
  generalize x.setCore k { x.core k with dma := { (x.core k).dma with retry := [], fail := false } } = y at *
  have hnext := y.dmaNext_keeps k [s.farPkg dst]
  obtain ⟨hnmem, hnpsn⟩ := y.dmaNext_bytes k [s.farPkg dst]
  refine ⟨hnext.leaves.trans (hsetk.leaves.trans hx), ?_, ?_, fun i hi => ?_⟩
  · rw [State.dmaNext_core _ (by rw [hlen]; exact hkx), hdma, hcorex]
    rfl
  · exact State.memAs_trans (State.memAs_of_mem_eq (hnmem.trans (hmem.trans haddm.1)) (hnpsn.trans (hpsn.trans haddm.2)) _ _) hbytes
  · rw [hnmem, hmem, haddm.1]
    exact hcopied i hi

end Sys2Proof.Machine
end

section
/-! SUPPORT. The commands of a DMA chain, its tally commands and the repeat of a block (12_memory.md R288 to R297; R265, R271). -/

namespace Sys2Proof.Machine

set_option Elab.async false

variable {s u v : State} {k t : Nat} {d : DmaDesc} {far : FarIn}

/-! ### The commands -/

theorem State.at_coreUp (s : State) (t k : Nat) : (s.at t).coreUp k = s.coreUp k := by rw [State.coreUp, State.coreUp, State.at_pdUp, State.at_ktl]

/-- No ADD goes ahead where the descriptor is no transfer. -/
theorem State.aheadTo_of_tally (h : s.dmaMeet k = .desc d) (hop : d.op = dmTALLY) : s.aheadTo k = none := by
  have hdesc := (State.atDesc_of_meet h).desc
  obtain ⟨i, hi, -⟩ := (State.atDesc_of_meet h).item
  unfold State.aheadTo
  dsimp only
  rw [hi]
  dsimp only
  rw [← hdesc, hop, if_neg]
  simp [dmTALLY, dmFILL, dmCOPY]

section
variable (hup : s.coreUp k = true) (h : (s.at t).dmaMeet k = .desc d)
include hup h

theorem exec_end (hop : d.op = dmEND) : exec (.end_ k t) s = .next
    (((s.at t).touch ((s.at t).core k).dma.desc 32).setCore k
      { ((s.at t).touch ((s.at t).core k).dma.desc 32).core k with dma := (((s.at t).touch ((s.at t).core k).dma.desc 32).core k).dma.free }).finish := by
  have hrun := State.dmaRun_of_desc (by rw [State.at_coreUp]; exact hup) h
    (fun s _ => s.setCore k { s.core k with dma := (s.core k).dma.free })
  rw [hop] at hrun
  change execEnd k t s = _
  unfold execEnd
  dsimp only
  rw [hrun]
  rfl

theorem exec_link (hop : d.op = dmLINK) : exec (.link k t) s = .next
    (((s.at t).touch ((s.at t).core k).dma.desc 32).setCore k
      { ((s.at t).touch ((s.at t).core k).dma.desc 32).core k with
        dma := (((s.at t).touch ((s.at t).core k).dma.desc 32).core k).dma.next (((s.at t).touch ((s.at t).core k).dma.desc 32).near d.src) }).finish := by
  have hrun := State.dmaRun_of_desc (by rw [State.at_coreUp]; exact hup) h
    (fun s d => s.setCore k { s.core k with dma := (s.core k).dma.next (s.near d.src) })
  rw [hop] at hrun
  change execLink k t s = _
  unfold execLink
  dsimp only
  rw [hrun]
  rfl

theorem exec_fill (hop : d.op = dmFILL) (far : FarIn) :
    exec (.fill k far t) s = .next (((s.at t).touch ((s.at t).core k).dma.desc 32).dmaFill k d far).finish := by
  have hrun := State.dmaRun_of_desc (by rw [State.at_coreUp]; exact hup) h (fun s d => s.dmaFill k d far)
  rw [hop] at hrun
  change execFill k far t s = _
  unfold execFill
  dsimp only
  rw [hrun]
  rfl

theorem exec_copy (hop : d.op = dmCOPY) (far : FarIn) :
    exec (.copy k [] far t) s = .next (((s.at t).touch ((s.at t).core k).dma.desc 32).dmaCopy k d [] far).finish := by
  have hrun := State.dmaRun_of_desc (by rw [State.at_coreUp]; exact hup) h (fun s d => s.dmaCopy k d [] far)
  rw [hop] at hrun
  change execCopy k [] far t s = _
  unfold execCopy
  dsimp only
  rw [hrun]
  rfl

theorem exec_dmaTally (hop : d.op = dmTALLY) (far : FarIn) :
    exec (.tally k far t) s = .next (((s.at t).touch ((s.at t).core k).dma.desc 32).dmaTally k d far).finish := by
  have hrun := State.dmaRun_of_desc (by rw [State.at_coreUp]; exact hup) h (fun s d => s.dmaTally k d far)
  rw [hop] at hrun
  change execTally k far t s = _
  unfold execTally
  dsimp only
  rw [State.aheadTo_of_tally h hop, ite_self]
  dsimp only
  rw [hrun]
  rfl

end

/-! ### END, LINK, FILL and COPY -/

/-- A step that sets an engine's place in its chain. -/
theorem State.woken.goOn {l : List Piece} (h : u.woken s) (x : DmaSt) (hk : k < s.cores.length) (hcalm : s.calm)
    (hl : ∀ c ∈ [Piece.cores, .ktl, .regs], c ∈ l := by decide) :
    ((u.setCore k { u.core k with dma := x }).finish.core k).dma = x ∧ (u.setCore k { u.core k with dma := x }).finish.keeps s l := by
  have hku : k < u.cores.length := by rw [h.keeps .cores (by decide)]; exact hk
  have hset := (u.setDma_keeps k x).after (m := [.cores, .ktl, .regs]) h.keeps.widen
  have hf := hset.calm hcalm
  refine ⟨?_, State.finish_keeps_of hf (State.keeps_mono hset hl)⟩
  rw [State.finish_core hf]
  exact State.setDma_core _ hku

/-- The end of a transfer whose state is known. -/
theorem State.leaves.transfer {l : List Piece} {w : State} {x : DmaSt} {f : Nat → Byte} {a n : Nat} (h : u.leaves s l) (hcalm : s.calm)
    (hcore : (u.core k).dma = x) (hbytes : u.memAs w a n) (hf : ∀ i < n, u.mem.get 0#8 (a + i) = f i) :
    (u.finish.core k).dma = x ∧ (∀ i < n, u.finish.mem.get 0#8 (a + i) = f i) ∧ u.finish.memAs w a n ∧ u.finish.keeps s l := by
  have hfall := h.calm hcalm
  obtain ⟨hmem, hpsn⟩ := State.finish_bytes hfall
  exact ⟨by rw [State.finish_core hfall]; exact hcore, fun i hi => by rw [hmem]; exact hf i hi,
    State.memAs_trans (State.memAs_of_mem_eq hmem hpsn _ _) hbytes, State.finish_keeps_of hfall h.keeps⟩

theorem State.keeps.dmaItem {l : List Piece} (h : u.keeps s l) (k : Nat) (hl : .cores ∉ l := by decide) : u.dmaItem k = s.dmaItem k := by
  rw [State.dmaItem, State.dmaItem, h.core k hl]

theorem State.fill_after (hw : u.woken s) (hdesc : s.atDesc k d) (hop : d.op = dmFILL) (hcalm : s.calm)
    (hfar : s.farPkg (s.near d.dst) = none) (hfw : s.fwOk (dmaWho k (s.dmaItem k)) true (s.near d.dst) d.len = true) (far : FarIn) :
    ((u.dmaFill k d far).finish.core k).dma = { (s.core k).dma.next ((s.core k).dma.desc + 32) with wrote := none :: (s.core k).dma.wrote }
    ∧ (∀ i < d.len, (u.dmaFill k d far).finish.mem.get 0#8 (s.near d.dst + i) = (toLE 8 d.src).getD (i % 8) 0#8)
    ∧ (u.dmaFill k d far).finish.memAs s (s.near d.dst) d.len ∧ (u.dmaFill k d far).finish.keeps s [.cores, .ktl, .regs, .mem, .dev] := by
  obtain ⟨hlen, hpos⟩ := hdesc.length (.inr hop)
  obtain ⟨hfits, hstore⟩ := State.fits_of_fwOk hfw hpos
  have hk := hdesc.lt_cores
  have hnear := hw.keeps.knownAs.near d.dst
  have hfaru : u.farPkg (u.near d.dst) = none := by rw [hnear, hw.keeps.knownAs.farPkg]; exact hfar
  have hfwu : u.fwOk (dmaWho k (u.dmaItem k)) true (u.near d.dst) d.len = true := by
    rw [hnear, hw.keeps.dmaItem, hw.keeps.fwOk]
    exact hfw
  rw [State.dmaFill_near far hfaru hfwu, hnear]
  obtain ⟨hfill, hknown, hbytes, hpattern⟩ := State.filled_after (s := u) hfits (hstore rfl) hlen
  have hfarw : (u.filled d (s.near d.dst)).farPkg (s.near d.dst) = none := by
    rw [hknown.farPkg, hw.keeps.knownAs.farPkg]
    exact hfar
  rw [hfarw]
  obtain ⟨r, hr⟩ := State.add64_with (u.filled d (s.near d.dst)) (Reg.memDmaBytesLo k) d.len
  have hadd := (u.filled d (s.near d.dst)).add64_keeps (Reg.memDmaBytesLo k) d.len
  have hmem : ((u.filled d (s.near d.dst)).add64 (Reg.memDmaBytesLo k) d.len).mem = (u.filled d (s.near d.dst)).mem := by rw [hr]
  have hpsn : ((u.filled d (s.near d.dst)).add64 (Reg.memDmaBytesLo k) d.len).psn = (u.filled d (s.near d.dst)).psn := by rw [hr]
  generalize (u.filled d (s.near d.dst)).add64 (Reg.memDmaBytesLo k) d.len = x at *
  have hx : x.leaves s [.ktl, .regs, .mem, .dev] := hadd.leaves.trans (hfill.trans hw.keeps.leaves)
  have hkx : k < x.cores.length := by rw [hx.keeps .cores (by decide)]; exact hk
  have hall : (x.dmaNext k [none]).leaves s [.cores, .ktl, .regs, .mem, .dev] := (x.dmaNext_keeps k _).leaves.trans hx.mono
  obtain ⟨hnmem, hnpsn⟩ := x.dmaNext_bytes k [none]
  refine hall.transfer hcalm ?_ ?_ fun i hi => ?_
  · rw [State.dmaNext_core _ hkx, hx.keeps.core]
    rfl
  · exact State.memAs_trans (State.memAs_of_mem_eq (hnmem.trans hmem) (hnpsn.trans hpsn) _ _)
      (State.memAs_trans hbytes (State.memAs_of_mem_eq hw.mem hw.psn _ _))
  · rw [hnmem, hmem]
    exact hpattern i hi

theorem State.copy_after (hw : u.woken s) (hdesc : s.atDesc k d) (hop : d.op = dmCOPY) (hcalm : s.calm)
    (hfs : s.farPkg (s.near d.src) = none) (hfd : s.farPkg (s.near d.dst) = none)
    (hws : s.fwOk (dmaWho k (s.dmaItem k)) false (s.near d.src) d.len = true) (hwd : s.fwOk (dmaWho k (s.dmaItem k)) true (s.near d.dst) d.len = true)
    (hover : overlap (s.near d.src) d.len (s.near d.dst) d.len = false) (hfresh : s.storeStale (s.dmaItem k) (s.near d.src) = none)
    (hcheck : d.check = false) (far : FarIn) :
    ((u.dmaCopy k d [] far).finish.core k).dma = { (s.core k).dma.next ((s.core k).dma.desc + 32) with wrote := none :: (s.core k).dma.wrote }
    ∧ (∀ i < d.len, (u.dmaCopy k d [] far).finish.mem.get 0#8 (s.near d.dst + i) = (s.settleBuf (s.near d.src) d.len).mem.get 0#8 (s.near d.src + i))
    ∧ (u.dmaCopy k d [] far).finish.memAs (s.settleBuf (s.near d.src) d.len) (s.near d.dst) d.len
    ∧ (u.dmaCopy k d [] far).finish.keeps s [.cores, .ktl, .regs, .mem, .dev] := by
  obtain ⟨hlen, hpos⟩ := hdesc.length (.inl hop)
  obtain ⟨hsfits, -⟩ := State.fits_of_fwOk hws hpos
  obtain ⟨hdfits, hstore⟩ := State.fits_of_fwOk hwd hpos
  have hk := hdesc.lt_cores
  have hns := hw.keeps.knownAs.near d.src
  have hnd := hw.keeps.knownAs.near d.dst
  have hitem := hw.keeps.dmaItem k
  obtain ⟨data, poison, hcopy⟩ := State.dmaCopy_near (s := u) (k := k) (d := d) far
    (by rw [hns, hw.keeps.knownAs.farPkg]; exact hfs) (by rw [hnd, hw.keeps.knownAs.farPkg]; exact hfd)
    (by rw [hns, hitem, hw.keeps.fwOk]; exact hws) (by rw [hnd, hitem, hw.keeps.fwOk]; exact hwd) (by rw [hns, hnd]; exact hover)
    (by rw [hns, hitem]; exact hw.storeStale hfresh)
  rw [hcopy, hns, hnd]
  obtain ⟨hready, hknown, hmem, hpsn, hval⟩ := State.copyReady_after (s := u) hsfits hdfits (hstore rfl)
    (fun g hg => by rw [← hns] at hg; exact State.storeOpen_of_fresh (hw.storeStale hfresh) (by rw [← hns]; exact hg))
  obtain ⟨hsmem, hspsn⟩ := State.settleBuf_congr (a := s.near d.src) (n := d.len) (hw.keeps .dev (by decide)) hw.mem hw.psn
  have hknowns := hknown.trans hw.keeps.knownAs
  generalize u.copyReady (s.near d.src) (s.near d.dst) d.len = x at *
  have hx : x.leaves s [.ktl, .regs, .mem, .dev] := hready.trans hw.keeps.leaves
  have hkx : k < x.cores.length := by rw [hx.keeps .cores (by decide)]; exact hk
  rw [State.copyRun_near data poison (by rw [hknowns.farPkg]; exact hfs) (by rw [hknowns.farPkg]; exact hfd) hcheck hkx]
  obtain ⟨hcopied, hcore, hbytes, hmoved⟩ := State.dmaCopied_after hval hover hkx
  refine (hcopied.mono.trans (l := [.cores, .ktl, .regs, .mem, .dev]) hx.mono).transfer hcalm ?_ ?_ fun i hi => ?_
  · rw [hcore, hx.keeps.core, hknowns.farPkg, hfd]
  · exact State.memAs_trans hbytes (State.memAs_of_mem_eq (hmem.trans hsmem) (hpsn.trans hspsn) _ _)
  · rw [hmoved i hi, hmem, hsmem]

end Sys2Proof.Machine
end

section
/-! SUPPORT. The tally commands of a chain and the repeat of a block (11_synchronisation.md R265, R271; 12_memory.md R294). -/

namespace Sys2Proof.Machine

set_option Elab.async false

variable {s u v : State} {k t : Nat} {d : DmaDesc} {far : FarIn} {w : TWord}

/-! ### TALLY -/

/-- The operation of a chain's tally command. -/
def State.dmaOp (s : State) (k tref operand : Nat) : TallyIn :=
  { issuer := .dma k, part := (s.dmaItem k).part, tref, operand, cls := (s.dmaItem k).cls, t := s.time }

/-- Behind its tally command an engine that does not wait goes on. -/
def State.behindTally (u s : State) (k : Nat) : State :=
  if (u.core k).dma.item == (s.core k).dma.item && (u.core k).dma.desc == (s.core k).dma.desc && !(u.core k).dma.wait then u.dmaResume k false else u

theorem State.dmaTally_near {tref operand op : Nat} (far : FarIn) (hcmd : tallyCmd (d.bytes.drop 16) = (tref, operand, op))
    (hfar : s.farPkg tref = none) :
    s.dmaTally k d far = { (s.tally op (s.dmaOp k tref operand)).behindTally s k with compl := s.compl } := by
  have hnone : (if tref < farBase * 2 then s.farOf [tref] else []) = [] := by
    split
    · simp [State.farOf, hfar]
    · rfl
  unfold State.dmaTally
  rw [hcmd]
  dsimp only
  rw [hnone, if_neg (by simp)]
  rfl

/-- The engine of a wait that stays. -/
theorem State.tally_wait_core {r : TallyIn} (h : v.tallyOk opWAITGE r w) (hq : v.quiet w) (herr : (v.tword w).err = false)
    (hlt : (v.tword w).value < r.operand) (hi : r.issuer = .dma k) (hk : k < v.cores.length) :
    ((v.tally opWAITGE r).core k).dma = { (v.core k).dma with wait := true } := by
  have htouch := State.touch_word_keeps h.2.2.2.1
  have hw := v.touch_worded h.2.2.2.1 waitPiecesOf
  rw [State.tally_waits h (by decide)]
  have hissuer : ((v.touch w.addr).waitOf opWAITGE r w).issuer = .dma k := hi
  have hop : ((v.touch w.addr).waitOf opWAITGE r w).op = opWAITGE := rfl
  have hword : ((v.touch w.addr).waitOf opWAITGE r w).word = w := rfl
  have hh : ((v.touch w.addr).waitOf opWAITGE r w).holds (v.tword w) = false := by
    rw [Wait.holds, if_pos (.inr hop)]
    exact decide_eq_false (by rw [show ((v.touch w.addr).waitOf opWAITGE r w).operand = r.operand from rfl]; omega)
  generalize (v.touch w.addr).waitOf opWAITGE r w = y at *
  have hkt : k < (v.touch w.addr).cores.length := by rw [htouch .cores (by decide)]; exact hk
  have hcore := htouch.core k
  generalize v.touch w.addr = z at *
  obtain ⟨b, hb⟩ := hw.register y
  have hunmoved := hb.unmoved (fun x hx hxw => by
    rcases List.mem_append.mp hx with hx | hx
    · exact absurd hxw (hq.1 x hx)
    · rw [List.mem_singleton.mp hx]
      exact ⟨herr, hh⟩) hq.2.1
  unfold State.tallyWait
  rw [hword, hw.value]
  dsimp only
  rw [if_neg (by rw [hop]; decide), if_neg (by rw [hop]; exact fun hc => absurd hc.1 (by decide)), if_neg (by simp [herr]), if_neg (by simp [hh]),
    State.applied_of_unmoved hunmoved, (State.opCounted_keeps _ w).core]
  unfold State.register
  dsimp only
  rw [hissuer]
  dsimp only
  refine (State.setDma_core _ hkt).trans ?_
  rw [hop, if_neg (by decide)]
  exact congrArg (fun x : CoreSt => { x.dma with wait := true }) hcore

/-! ### BLOCK_REPEAT -/

/-- The event of a block's repeat. -/
def State.crcEvent (s : State) (k : Nat) (i : Item) (ok : Bool) (src dst o : Nat) : EventIn :=
  { kind := if ok then ekCRC_RETRY else ekCRC_ERR, unit := (crcUnit src dst).1, sub := (crcUnit src dst).2, cls := i.cls,
    tag := coreTag i.part i.cls k, addr := dst + o, t := s.time }

/-- A block sent again: it stands or is lost, counted and reported. -/
def State.repeated (s : State) (k : Nat) (i : Item) (ok : Bool) (src dst : Nat) (b : Nat × Nat) : State :=
  ((if ok then (s.copyBlock k src dst b.1 b.2).inc (Reg.memCrcRetry (memDie dst)) else (s.spoil (dst + b.1) b.2).inc (Reg.memCrcErr (memDie dst))).event
    (s.crcEvent k i ok src dst b.1))

/-- The engine behind a block's repeat. -/
def State.repeatDone (s : State) (k : Nat) (i : Item) (l : List Nat) (ok : Bool) (dst : Nat) : State :=
  if (s.core k).dma.item = some i then
    (s.setCore k { s.core k with dma := { (s.core k).dma with retry := l, fail := (s.core k).dma.fail || !ok } }).copyEnd k dst
  else s

theorem State.copyBlock_leaves (s : State) (k src dst o n : Nat) : (s.copyBlock k src dst o n).leaves s [.mem, .dev] := by
  unfold State.copyBlock
  split
  · exact s.leaves_refl _
  · split
    · have hdef := s.defBuf_leaves (dst + o) (slice (s.core k).dma.got o n).length
      exact (State.setMem_keeps _ _ _).leaves.trans ((State.poke_keeps _ _ _).leaves.trans hdef.mono)
    · exact s.move_leaves _ _ _

theorem memDie_lt_two (a : Nat) : memDie a < 2 := by
  unfold memDie stackOf
  split
  · split <;> omega
  · omega

/-- The counters of blocks are no fault's. -/
theorem asideReg_memCrc (a : Nat) : asideReg (Reg.memCrcRetry (memDie a)) = false ∧ asideReg (Reg.memCrcErr (memDie a)) = false := by
  have := memDie_lt_two a
  generalize memDie a = j at *
  obtain rfl | rfl : j = 0 ∨ j = 1 := by omega
  · decide
  · decide

theorem State.crc_event (s : State) {e : EventIn} {src dst : Nat} (hkind : e.kind = ekCRC_RETRY ∨ e.kind = ekCRC_ERR) (hunit : e.unit = (crcUnit src dst).1) :
    (s.event e).keeps s [.fresh, .errs, .mem, .regs, .ints] ∧ (s.event e).aside s := by
  have hpos : 104 ≤ e.unit % 512 := by
    rw [hunit]
    unfold crcUnit
    split
    · decide
    · exact show 104 ≤ noUnit % 512 by decide
  have hkey : ∃ n, countKey e = some (.unit n e.sub) ∧ 104 ≤ n % 512 := by
    unfold countKey
    rw [if_neg (by rcases hkind with h | h <;> rw [h] <;> decide), if_pos (by rcases hkind with h | h <;> rw [h] <;> decide)]
    by_cases hno : e.unit = noUnit
    · rw [if_neg (by simp [hno]), if_pos hkind]
      exact ⟨noUnit, rfl, by decide⟩
    · rw [if_pos (by simpa using hno)]
      exact ⟨e.unit, rfl, hpos⟩
  obtain ⟨n, hkey, hn⟩ := hkey
  have hun : e.kind ≠ ekUNATTRIB := by rcases hkind with h | h <;> rw [h] <;> decide
  have hdie : ¬(e.kind = ekLINK_DOWN ∨ (e.kind = ekECC_UE ∧ e.unit ≠ noUnit ∧ e.unit % 512 = 104)) := by
    rintro (h' | ⟨h', -⟩)
    · rcases hkind with h | h <;> rw [h] at h' <;> exact absurd h' (by decide)
    · rcases hkind with h | h <;> rw [h] at h' <;> exact absurd h' (by decide)
  exact ⟨s.event_unit_keeps 0 hkey hun hdie (fun v ref t => (v.isolate_keeps_of_plain ref t hn).widen), s.event_unit_aside 0 hkey hun hdie⟩

theorem State.repeated_after (s : State) (k : Nat) (i : Item) (ok : Bool) (src dst : Nat) (b : Nat × Nat) :
    (s.repeated k i ok src dst b).leaves s [.mem, .dev, .regs, .ints, .errs, .fresh]
    ∧ (s.repeated k i ok src dst b).rd (if ok then Reg.memCrcRetry (memDie dst) else Reg.memCrcErr (memDie dst))
      = satAdd (s.rd (if ok then Reg.memCrcRetry (memDie dst) else Reg.memCrcErr (memDie dst))) 1 := by
  obtain ⟨hretry, herr⟩ := asideReg_memCrc dst
  unfold State.repeated
  cases ok with
  | true =>
    obtain ⟨hk, ha⟩ := ((s.copyBlock k src dst b.1 b.2).inc (Reg.memCrcRetry (memDie dst))).crc_event (e := s.crcEvent k i true src dst b.1) (src := src) (dst := dst)
      (.inl rfl) rfl
    have hinc := (s.copyBlock k src dst b.1 b.2).inc_keeps (Reg.memCrcRetry (memDie dst)) 1
    have hblock := s.copyBlock_leaves k src dst b.1 b.2
    refine ⟨hk.leaves.trans (hinc.leaves.trans hblock.mono), ?_⟩
    refine (ha.rd _ hretry).trans ((State.rd_inc_same _ _ _).trans ?_)
    rw [hblock.keeps .regs (by decide) _ (by simp)]
    rfl
  | false =>
    obtain ⟨hk, ha⟩ := ((s.spoil (dst + b.1) b.2).inc (Reg.memCrcErr (memDie dst))).crc_event (e := s.crcEvent k i false src dst b.1) (src := src) (dst := dst)
      (.inr rfl) rfl
    have hinc := (s.spoil (dst + b.1) b.2).inc_keeps (Reg.memCrcErr (memDie dst)) 1
    have hblock := s.spoil_leaves (dst + b.1) b.2
    refine ⟨hk.leaves.trans (hinc.leaves.trans hblock.mono), ?_⟩
    refine (ha.rd _ herr).trans ((State.rd_inc_same _ _ _).trans ?_)
    rw [hblock.keeps .regs (by decide) _ (by simp)]
    rfl

theorem exec_blockRepeat {i : Item} {b : Nat} {l : List Nat} {ok : Bool} (hitem : ((s.at t).core k).dma.item = some i)
    (hretry : ((s.at t).core k).dma.retry = b :: l) : ∃ src blk, exec (.blockRepeat k ok t) s = .next
      (((s.at t).repeated k i ok src ((s.at t).near (decDma ((s.at t).peek ((s.at t).core k).dma.desc 32)).dst) blk).repeatDone k i l ok
        ((s.at t).near (decDma ((s.at t).peek ((s.at t).core k).dma.desc 32)).dst)).finish := by
  refine ⟨(s.at t).near (decDma ((s.at t).peek ((s.at t).core k).dma.desc 32)).src,
    (blocksOf ((s.at t).near (decDma ((s.at t).peek ((s.at t).core k).dma.desc 32)).dst)
      (decDma ((s.at t).peek ((s.at t).core k).dma.desc 32)).len).getD b (0, 0), ?_⟩
  change execBlockRepeat k ok t s = _
  unfold execBlockRepeat
  dsimp only
  rw [hitem, hretry]
  rfl

/-- The engine while more blocks await their repeat. -/
theorem State.repeatDone_more {i : Item} {l : List Nat} (ok : Bool) (dst : Nat) (hitem : (s.core k).dma.item = some i) (hl : l ≠ []) :
    s.repeatDone k i l ok dst = s.setCore k { s.core k with dma := { (s.core k).dma with retry := l, fail := (s.core k).dma.fail || !ok } } := by
  have hcore := State.setDma_core { (s.core k).dma with retry := l, fail := (s.core k).dma.fail || !ok } (State.lt_cores_of_item hitem)
  unfold State.repeatDone State.copyEnd
  dsimp only
  rw [if_pos hitem, hcore]
  dsimp only
  rw [if_pos (by simpa using hl)]

/-! ### The obligation -/

/-- An engine behind its tally command. -/
def DmaSt.behind (m : DmaSt) : DmaSt := { m.next (m.desc + 32) with from_ := m.desc + 32, wrote := [] }

theorem State.behindTally_goes (s : State) (hcore : u.core k = s.core k) (hwait : (s.core k).dma.wait = false) :
    u.behindTally s k = u.setCore k { u.core k with dma := (u.core k).dma.behind } := by
  unfold State.behindTally
  rw [hcore, hwait, if_pos (by simp), ← hcore]
  rfl

theorem State.behindTally_waits (s : State) (hwait : (u.core k).dma.wait = true) : u.behindTally s k = u := by
  unfold State.behindTally
  rw [hwait, if_neg (by simp)]

/-- The operation that a chain's tally command asks for. -/
def State.dmaReq (s : State) (k tref operand : Nat) : TallyIn :=
  { issuer := .dma k, part := (s.dmaItem k).part, tref, operand, cls := (s.dmaItem k).cls }

/-- The operation of a chain is not refused behind the read of its descriptor. -/
theorem State.woken.dmaOp_ok {tref operand op : Nat} (h : u.woken s) (hok : s.tallyOk op (s.dmaReq k tref operand) w) :
    u.tallyOk op (u.dmaOp k tref operand) w := by
  have hup : u.tallyOk op (u.dmaReq k tref operand) w := by
    unfold State.dmaReq
    rw [h.keeps.dmaItem k]
    exact h.keeps.tallyOk hok
  exact hup

/-- The answer of a chain's command stands as it was. -/
theorem State.setCompl_pieces {l : List Piece} {z : State} {c : Option Compl} (h : z.keeps s l) (hl : Piece.compl ∈ l) :
    ({ z with compl := c } : State).keeps s l :=
  State.keeps_trans (State.keeps_mono ((State.keeps_iff _ z [.compl]).mpr (by simp)) (by simpa using hl)) h

section
variable {tref operand : Nat} (hcalm : s.calm) (hw : u.woken s) (hdesc : s.atDesc k d) (hfar : s.farPkg tref = none) (hq : s.quiet w)
include hcalm hw hdesc hfar hq

/-- An ADD of a chain. -/
theorem dmaTally_adds (hcmd : tallyCmd (d.bytes.drop 16) = (tref, operand, opADD))
    (hok : s.tallyOk opADD (s.dmaReq k tref operand) w)
    (hfit : (s.tword w).value + operand < 2 ^ 56) (far : FarIn) :
    (u.dmaTally k d far).finish.tword w = { s.tword w with value := (s.tword w).value + operand }
    ∧ ((u.dmaTally k d far).finish.core k).dma = (s.core k).dma.behind
    ∧ (u.dmaTally k d far).finish.wordAs s w ∧ (u.dmaTally k d far).finish.compl = s.compl := by
  have hadd := State.tally_add (hw.dmaOp_ok hok) (hw.keeps.quietWord hq)
  rw [State.dmaTally_near far hcmd (by rw [hw.keeps.knownAs.farPkg]; exact hfar)]
  have hoper : (u.dmaOp k tref operand).operand = operand := rfl
  rw [hoper, hw.keeps.tword, if_neg (by omega)] at hadd
  generalize u.tally opADD (u.dmaOp k tref operand) = y at *
  have hcore : y.core k = u.core k := hadd.keeps.core k
  have hky : k < y.cores.length := by rw [hadd.keeps .cores (by decide), hw.keeps .cores (by decide)]; exact hdesc.lt_cores
  rw [State.behindTally_goes u hcore (by rw [hw.core]; exact hdesc.wait)]
  have hset := y.setDma_keeps k (y.core k).dma.behind
  have hdma := State.setDma_core (y.core k).dma.behind hky
  generalize y.setCore k { y.core k with dma := (y.core k).dma.behind } = z at *
  have hz : ({ z with compl := u.compl } : State).keeps y [.cores, .compl] := State.setCompl_pieces hset.widen (by simp)
  have hzcore : ({ z with compl := u.compl } : State).core k = z.core k := rfl
  have hzcompl : ({ z with compl := u.compl } : State).compl = u.compl := rfl
  generalize ({ z with compl := u.compl } : State) = x at *
  have hf : x.dev.fall = none := hz.calm (hadd.keeps.calm (hw.keeps.calm hcalm))
  have hfin : x.finish.keeps y [.cores, .compl] := State.finish_keeps_of hf hz
  refine ⟨(hfin.tword w).trans hadd.value, ?_, ⟨?_, ?_⟩, ?_⟩
  · rw [State.finish_core hf, hzcore, hdma, hcore, hw.core]
  · rw [hfin .sync (by decide), hadd.ctrs, hw.keeps .sync (by decide)]
  · exact State.memAs_trans (hfin.memAs _ _) (State.memAs_trans hadd.bytes (State.memAs_of_mem_eq hw.mem hw.psn _ _))
  · rw [State.finish_compl _ hf, hzcompl, hw.keeps .compl (by decide)]

/-- A wait of a chain that is not met. -/
theorem dmaTally_waits (hcmd : tallyCmd (d.bytes.drop 16) = (tref, operand, opWAITGE))
    (hok : s.tallyOk opWAITGE (s.dmaReq k tref operand) w)
    (herr : (s.tword w).err = false) (hlt : (s.tword w).value < operand) (far : FarIn) :
    (u.dmaTally k d far).finish.tword w = s.tword w
    ∧ ((u.dmaTally k d far).finish.core k).dma = { (s.core k).dma with wait := true }
    ∧ ∃ y, (u.dmaTally k d far).finish.sync.waits = s.sync.waits ++ [y] ∧ y.issuer = .dma k ∧ y.word = w ∧ y.operand = operand := by
  have hoku := hw.dmaOp_ok hok
  have hqu := hw.keeps.quietWord hq
  have hwordu : u.tword w = s.tword w := hw.keeps.tword w
  have hku : k < u.cores.length := by rw [hw.keeps .cores (by decide)]; exact hdesc.lt_cores
  have hcore := State.tally_wait_core hoku hqu (by rw [hwordu]; exact herr) (by rw [hwordu]; exact hlt) rfl hku
  have hholds : ((u.touch w.addr).waitOf opWAITGE (u.dmaOp k tref operand) w).holds (u.tword w) = false := by
    rw [Wait.holds, if_pos (.inr rfl), hwordu]
    exact decide_eq_false (by rw [show ((u.touch w.addr).waitOf opWAITGE (u.dmaOp k tref operand) w).operand = operand from rfl]; omega)
  obtain ⟨ws, hstays, y, hwaits, hissuer, -, hyw, -, hoper, -, -⟩ :=
    State.tally_wait_stays hoku hqu (by rw [hwordu]; exact herr) (.inr (.inl rfl)) hholds
  rw [State.dmaTally_near far hcmd (by rw [hw.keeps.knownAs.farPkg]; exact hfar)]
  generalize u.tally opWAITGE (u.dmaOp k tref operand) = z at *
  rw [State.behindTally_waits u (by rw [hcore])]
  have hz : ({ z with compl := u.compl } : State).keeps z [.compl] := State.setCompl_pieces (z.keeps_refl _) (by simp)
  generalize ({ z with compl := u.compl } : State) = x at *
  have hf : x.dev.fall = none := hz.calm (hstays.keeps.calm (hw.keeps.calm hcalm))
  have hfin : x.finish.keeps z [.compl] := State.finish_keeps_of hf hz
  refine ⟨(hfin.tword w).trans (hstays.value.trans hwordu), ?_, y, ?_, hissuer, hyw, hoper⟩
  · rw [hfin.core, hcore, hw.core]
  · rw [hfin .sync (by decide), hwaits, hw.keeps .sync (by decide)]

end

section
variable {core t : Nat} (hcalm : s.calm) (hup : s.coreUp core = true) (hmeet : (s.at t).dmaMeet core = .desc d)
include hcalm hup hmeet

/-- END frees the engine. -/
theorem chain_end (hop : d.op = dmEND) : ∃ u, exec (.end_ core t) s = .next u ∧ (u.core core).dma = ((s.at t).core core).dma.free
    ∧ u.keeps (s.at t) [.cores, .ktl, .regs] := by
  have hdesc := State.atDesc_of_meet hmeet
  have hw := hdesc.touch_woken
  obtain ⟨hdma, hkeeps⟩ := hw.goOn (k := core) (l := [.cores, .ktl, .regs])
    (((s.at t).touch ((s.at t).core core).dma.desc 32).core core).dma.free hdesc.lt_cores (s.at_calm t hcalm)
  exact ⟨_, exec_end hup hmeet hop, hdma.trans (by rw [hw.core]), hkeeps⟩

/-- LINK goes on at its target. -/
theorem chain_link (hop : d.op = dmLINK) : ∃ u, exec (.link core t) s = .next u
    ∧ (u.core core).dma = ((s.at t).core core).dma.next ((s.at t).near d.src) ∧ u.keeps (s.at t) [.cores, .ktl, .regs] := by
  have hdesc := State.atDesc_of_meet hmeet
  have hw := hdesc.touch_woken
  have hnear := hw.keeps.knownAs.near d.src
  obtain ⟨hdma, hkeeps⟩ := hw.goOn (k := core) (l := [.cores, .ktl, .regs])
    ((((s.at t).touch ((s.at t).core core).dma.desc 32).core core).dma.next (((s.at t).touch ((s.at t).core core).dma.desc 32).near d.src))
    hdesc.lt_cores (s.at_calm t hcalm)
  exact ⟨_, exec_link hup hmeet hop, hdma.trans (by rw [hw.core, hnear]), hkeeps⟩

variable {w : TWord} {tref operand : Nat} (hop : d.op = dmTALLY) (hfar : (s.at t).farPkg tref = none) (hq : (s.at t).quiet w)
include hop hfar hq

/-- TALLY with an ADD. -/
theorem chain_adds (hcmd : tallyCmd (d.bytes.drop 16) = (tref, operand, opADD))
    (hok : (s.at t).tallyOk opADD ((s.at t).dmaReq core tref operand) w) (hfit : ((s.at t).tword w).value + operand < 2 ^ 56) (far : FarIn) :
    ∃ u, exec (.tally core far t) s = .next u ∧ u.tword w = { (s.at t).tword w with value := ((s.at t).tword w).value + operand }
      ∧ (u.core core).dma = ((s.at t).core core).dma.behind ∧ u.wordAs (s.at t) w ∧ u.compl = (s.at t).compl := by
  have hdesc := State.atDesc_of_meet hmeet
  obtain ⟨hval, hdma, hword, hcompl⟩ := dmaTally_adds (s.at_calm t hcalm) hdesc.touch_woken hdesc hfar hq hcmd hok hfit far
  exact ⟨_, exec_dmaTally hup hmeet hop far, hval, hdma, hword, hcompl⟩

/-- TALLY with a wait that is not met. -/
theorem chain_waits (hcmd : tallyCmd (d.bytes.drop 16) = (tref, operand, opWAITGE))
    (hok : (s.at t).tallyOk opWAITGE ((s.at t).dmaReq core tref operand) w)
    (herr : ((s.at t).tword w).err = false) (hlt : ((s.at t).tword w).value < operand) (far : FarIn) :
    ∃ u, exec (.tally core far t) s = .next u ∧ u.tword w = (s.at t).tword w
      ∧ (u.core core).dma = { ((s.at t).core core).dma with wait := true }
      ∧ ∃ y, u.sync.waits = (s.at t).sync.waits ++ [y] ∧ y.issuer = .dma core ∧ y.word = w ∧ y.operand = operand := by
  have hdesc := State.atDesc_of_meet hmeet
  obtain ⟨hval, hdma, hwait⟩ := dmaTally_waits (s.at_calm t hcalm) hdesc.touch_woken hdesc hfar hq hcmd hok herr hlt far
  exact ⟨_, exec_dmaTally hup hmeet hop far, hval, hdma, hwait⟩

end

/-- A descriptor of another kind is left alone. -/
theorem chain_other {core t op : Nat} {c : Instr} {far : FarIn} {bad : List Nat} (hmeet : (s.at t).dmaMeet core = .desc d) (hop : d.op ≠ op)
    (hahead : op = dmTALLY → (s.at t).aheadTo core = none) (hc : (op, c) ∈ [(dmEND, Instr.end_ core t), (dmCOPY, .copy core bad far t),
      (dmFILL, .fill core far t), (dmTALLY, .tally core far t), (dmLINK, .link core t)]) : exec c s = .next (s.at t).finish := by
  have hother := fun f => State.dmaRun_of_other hmeet hop f
  simp only [List.mem_cons, List.not_mem_nil, or_false, Prod.mk.injEq] at hc
  rcases hc with ⟨rfl, rfl⟩ | ⟨rfl, rfl⟩ | ⟨rfl, rfl⟩ | ⟨rfl, rfl⟩ | ⟨rfl, rfl⟩
  · change ((s.at t).dmaRun core dmEND fun s _ => s.setCore core { s.core core with dma := (s.core core).dma.free }).done = _
    rw [hother]
    rfl
  · change ((s.at t).dmaRun core dmCOPY fun s d => s.dmaCopy core d bad far).done = _
    rw [hother]
    rfl
  · change ((s.at t).dmaRun core dmFILL fun s d => s.dmaFill core d far).done = _
    rw [hother]
    rfl
  · change execTally core far t s = _
    unfold execTally
    dsimp only
    rw [hahead rfl, ite_self]
    dsimp only
    rw [hother]
    rfl
  · change ((s.at t).dmaRun core dmLINK fun s d => s.setCore core { s.core core with dma := (s.core core).dma.next (s.near d.src) }).done = _
    rw [hother]
    rfl

/-- The first block that awaits its repeat is settled, with more to come. -/
theorem chain_repeat {core t b : Nat} {i : Item} {l : List Nat} (hcalm : s.calm) (hitem : (s.core core).dma.item = some i)
    (hretry : (s.core core).dma.retry = b :: l) (hl : l ≠ []) (ok : Bool) (dst : Nat)
    (hdst : dst = (s.at t).near (decDma ((s.at t).peek (s.core core).dma.desc 32)).dst) :
    ∃ u, exec (.blockRepeat core ok t) s = .next u ∧ (u.core core).dma.retry = l ∧ (u.core core).dma.fail = ((s.core core).dma.fail || !ok)
      ∧ u.rd (if ok then Reg.memCrcRetry (memDie dst) else Reg.memCrcErr (memDie dst))
        = satAdd ((s.at t).rd (if ok then Reg.memCrcRetry (memDie dst) else Reg.memCrcErr (memDie dst))) 1
      ∧ u.keeps (s.at t) [.cores, .mem, .dev, .regs, .ints, .errs, .fresh] := by
  have hcore : (s.at t).core core = s.core core := s.at_core t core
  have hcalmv := s.at_calm t hcalm
  obtain ⟨src, blk, hexec⟩ := exec_blockRepeat (s := s) (t := t) (k := core) (ok := ok) (by rw [hcore]; exact hitem) (by rw [hcore]; exact hretry)
  rw [hcore, ← hdst] at hexec
  obtain ⟨hrep, hrd⟩ := (s.at t).repeated_after core i ok src dst blk
  generalize (s.at t).repeated core i ok src dst blk = v at *
  have hcv : v.core core = s.core core := (hrep.keeps.core core).trans hcore
  have hiv : (v.core core).dma.item = some i := by rw [hcv]; exact hitem
  rw [State.repeatDone_more ok dst hiv hl] at hexec
  have hset := v.setDma_keeps core { (v.core core).dma with retry := l, fail := (v.core core).dma.fail || !ok }
  have hdma := State.setDma_core { (v.core core).dma with retry := l, fail := (v.core core).dma.fail || !ok } (State.lt_cores_of_item hiv)
  generalize v.setCore core { v.core core with dma := { (v.core core).dma with retry := l, fail := (v.core core).dma.fail || !ok } } = z at *
  have hall : z.leaves (s.at t) [.cores, .mem, .dev, .regs, .ints, .errs, .fresh] := hset.leaves.trans hrep.mono
  have hf := hall.calm hcalmv
  refine ⟨_, hexec, ?_, ?_, ?_, hall.finish hcalmv⟩
  · rw [State.finish_core hf, hdma]
  · rw [State.finish_core hf, hdma, hcv]
  · rw [State.finish_rd _ hf, hset .regs (by decide) _ (by simp), hrd]

/-- Settles O38: each descriptor of a chain does what its kind says, another kind is left alone, and a block's repeat settles the first that
waits for one. -/
theorem dmaChains : Obligations.DmaChains := by
  unfold Obligations.DmaChains
  refine ⟨fun core t s d hcalm hup hmeet => ?_,
    fun core t op c far bad s d hcalm hmeet hop hahead hc => ?_, fun core t b ok s i l hcalm hitem hretry hl => ?_⟩
  · dsimp only
    rw [← s.at_core t core, ← (s.at_keeps t).dmaItem core]
    have hdesc := State.atDesc_of_meet hmeet
    refine ⟨chain_end hcalm hup hmeet, chain_link hcalm hup hmeet, fun far hop hfar hfw => ?_,
      fun far hop hfs hfd hws hwd hover hfresh hcheck => ?_, fun far x tref operand op hop hcmd hfar hq hok herr => ⟨?_, ?_⟩⟩
    · exact ⟨_, exec_fill hup hmeet hop far, State.fill_after hdesc.touch_woken hdesc hop (s.at_calm t hcalm) hfar hfw far⟩
    · exact ⟨_, exec_copy hup hmeet hop far,
        State.copy_after hdesc.touch_woken hdesc hop (s.at_calm t hcalm) hfs hfd hws hwd hover hfresh hcheck far⟩
    · rintro rfl hfit
      rw [← s.at_compl t]
      exact chain_adds hcalm hup hmeet hop hfar hq hcmd hok hfit far
    · rintro rfl hlt
      rw [← s.at_sync t]
      exact chain_waits hcalm hup hmeet hop hfar hq hcmd hok herr hlt far
  · exact ⟨_, chain_other hmeet hop hahead hc, State.finish_keeps_of (s.at_calm t hcalm) (State.keeps_refl _ _)⟩
  · exact chain_repeat hcalm hitem hretry hl ok _ rfl

end Sys2Proof.Machine
end

section
/-! SUPPORT. Solver engines: what a step leaves of the other engines, and the start of a frame's solving (06_trajectory_solver.md R158, R159,
R174 to R176). -/

namespace Sys2Proof.Machine

set_option Elab.async false

variable {s u w : State} {i n k t : Nat} {v : Solving} {q : PartCfg} {c : SolverCtx} {l m : List Piece}

/-! ### One engine at work -/

/-- Nothing but engine i and the pieces of l changes. -/
def State.drives (u s : State) (i : Nat) (l : List Piece) : Prop :=
  u.keeps s (.engs :: l) ∧ u.engs.length = s.engs.length ∧ ∀ j, j ≠ i → u.eng j = s.eng j

theorem State.drives.trans (h : u.drives w i l) (hw : w.drives s i l) : u.drives s i l := by
  obtain ⟨hk, hlen, hother⟩ := h
  obtain ⟨hk', hlen', hother'⟩ := hw
  exact ⟨State.keeps_trans hk hk', hlen.trans hlen', fun j hj => (hother j hj).trans (hother' j hj)⟩

theorem State.drives.mono (h : u.drives s i l) (hl : ∀ p ∈ l, p ∈ m := by decide) : u.drives s i m := by
  obtain ⟨hk, hrest⟩ := h
  exact ⟨State.keeps_mono hk (List.cons_subset_cons _ hl), hrest⟩

theorem State.keeps.eng (h : u.keeps s l) (j : Nat) (hl : .engs ∉ l := by decide) : u.eng j = s.eng j := by
  rw [State.eng, h .engs hl, State.eng]

theorem State.keeps.drives (h : u.keeps s l) (i : Nat) (hl : .engs ∉ l := by decide) : u.drives s i l :=
  ⟨State.keeps_mono h fun _ => List.mem_cons_of_mem _, by rw [h .engs hl], fun j _ => h.eng j hl⟩

theorem State.setEng_eng_same (x : EngSt) (hi : i < s.engs.length) : (s.setEng i x).eng i = x := getD_listSet_same _ _ hi

theorem State.setEng_drives (x : EngSt) : (s.setEng i x).drives s i l :=
  ⟨State.keeps_mono (s.setEng_keeps i x) (by simp), s.setEng_engs_length i x, fun j hj => getD_listSet_of_ne _ _ _ hj⟩

theorem State.drives.calm (h : u.drives s i l) (hcalm : s.calm) (hl : .dev ∉ l := by decide) : u.calm :=
  State.keeps.calm h.1 hcalm (by simp [hl])

theorem State.drives.finish_keeps (h : u.drives s i l) (hcalm : s.calm) (hl : .dev ∉ l := by decide) : u.finish.keeps s (.engs :: l) :=
  State.finish_keeps_of (h.calm hcalm hl) h.1

/-- The deadline of a frame does not depend on what an engine does. -/
theorem State.keeps.solveBy (h : u.keeps s l) (v : Solving) (n : Nat) (hl : .loader ∉ l ∧ .parts ∉ l := by decide) :
    u.solveBy v n = s.solveBy v n := by
  unfold State.solveBy State.phaseAt State.winStart State.period State.pcfg State.cfg State.prun
  rw [h .loader hl.1, h .parts hl.2]

/-! ### Time does not touch what an engine solves -/

section
variable (s) (t i n k p x : Nat)

theorem State.at_privOf : (s.at t).privOf i = s.privOf i := by obtain ⟨_, _, _, _, _, h⟩ := s.at_with t; rw [h]; rfl
theorem State.at_nextHost (q : PartCfg) : (s.at t).nextHost q i = s.nextHost q i := by obtain ⟨_, _, _, _, _, h⟩ := s.at_with t; rw [h]; rfl
theorem State.at_engRuns : (s.at t).engRuns i = s.engRuns i := by obtain ⟨_, _, _, _, _, h⟩ := s.at_with t; rw [h]; rfl
theorem State.at_stageRuns : (s.at t).stageRuns i = s.stageRuns i := by obtain ⟨_, _, _, _, _, h⟩ := s.at_with t; rw [h]; rfl
theorem State.at_runsTail : (s.at t).runsTail p n = s.runsTail p n := by obtain ⟨_, _, _, _, _, h⟩ := s.at_with t; rw [h]; rfl
theorem State.at_solved : (s.at t).solved x n = s.solved x n := by obtain ⟨_, _, _, _, _, h⟩ := s.at_with t; rw [h]; rfl
theorem State.at_checkFrame : (s.at t).checkFrame p k = s.checkFrame p k := by obtain ⟨_, _, _, _, _, h⟩ := s.at_with t; rw [h]; rfl
theorem State.at_epochOf : (s.at t).epochOf p n = s.epochOf p n := by obtain ⟨_, _, _, _, _, h⟩ := s.at_with t; rw [h]; rfl

end

theorem State.lt_of_engRuns (h : s.engRuns i = true) : i < 32 := by
  unfold State.engRuns at h
  simp only [Bool.and_eq_true, decide_eq_true_eq] at h
  exact h.1.1.1

/-! ### SOLVE_START -/

/-- An engine that takes up frame n of context x for its host core k. -/
def EngSt.takesUp (e : EngSt) (p x n epoch k : Nat) : EngSt :=
  { e with busy := true, wait := true, part := p, ctx := x, frame := n, epoch, host := some k,
           tallies := if (e.tallyOf x n).isSome then e.tallies else { ctx := x, frame := n, host := k } :: e.tallies.take 2 }

theorem exec_solveStart (hpriv : s.privOf i = some (q, c)) (hframe : s.checkFrame q.num (s.at t).time = some n)
    (hsolving : (s.at t).solving c.ctx = some v) (hruns : s.engRuns i = true) (hhost : s.nextHost q i = some k)
    (htail : s.runsTail q.num n = true) (hfree : (s.eng i).busy = false ∨ (s.eng i).wait = true) (hnew : s.solved c.ctx n = false) :
    exec (.solveStart i t) s = .next (if (s.at t).bound c.ctx n then
      ((s.at t).setEng i (((s.at t).eng i).takesUp q.num c.ctx n ((s.at t).epochOf q.num n) k)).beginSeed v i 0 (s.at t).time
      else (s.at t).setEng i (((s.at t).eng i).takesUp q.num c.ctx n ((s.at t).epochOf q.num n) k)).finish := by
  have hbusy : (((s.at t).eng i).busy && !((s.at t).eng i).wait) = false := by
    rw [State.at_eng]
    rcases hfree with h | h <;> simp [h]
  rw [← s.at_privOf t] at hpriv
  rw [← s.at_checkFrame t] at hframe
  rw [← s.at_engRuns t] at hruns
  rw [← s.at_nextHost t] at hhost
  rw [← s.at_runsTail t] at htail
  rw [← s.at_solved t] at hnew
  change execSolveStart i t s = _
  unfold execSolveStart
  dsimp only
  rw [hpriv]
  dsimp only
  rw [hframe, hsolving]
  dsimp only
  rw [hhost]
  dsimp only
  rw [hruns, htail, hbusy, hnew]
  rfl

/-- The seed of a frame: where it starts does not depend on the state it is counted in. -/
theorem State.seed_setEng (x : EngSt) (kind : Nat) : ((s.setEng i x).seed v kind n).2.1 = (s.seed v kind n).2.1 := by
  have hknot : (s.setEng i x).knot0 v = s.knot0 v := rfl
  have hpeek (a b : Nat) : (s.setEng i x).peek a b = s.peek a b := rfl
  have hpeekN (a b : Nat) : (s.setEng i x).peekN a b = s.peekN a b := rfl
  have hjerks (a : Nat) : (s.setEng i x).recJerks v a = s.recJerks v a := rfl
  unfold State.seed
  simp only [hknot, hpeek, hpeekN, hjerks]
  split
  · split <;> rfl
  · split
    · split <;> rfl
    · rfl

theorem State.seed_keeps (kind : Nat) : (s.seed v kind n).1.keeps s [.regs] := by
  have hself : s.keeps s [.regs] := s.keeps_refl _
  unfold State.seed
  dsimp only
  split
  · split <;> exact hself
  · split
    · split
      · exact hself
      · exact s.inc_keeps _ _
    · exact hself

/-- An engine in INIT of a seed before the deadline. -/
theorem State.beginSeed_after {kind : Nat} (hkind : v.c.seeds[k]? = some kind) (ht : t < s.solveBy v (s.eng i).frame) (hi : i < s.engs.length) :
    (s.beginSeed v i k t).drives s i [.regs] ∧ ∃ y, (s.beginSeed v i k t).eng i = y ∧ y.busy = (s.eng i).busy ∧ y.wait = false ∧ y.step = .init
      ∧ y.seed = k ∧ y.iter = 0 ∧ y.ctx = (s.eng i).ctx ∧ y.frame = (s.eng i).frame ∧ y.host = (s.eng i).host
      ∧ y.cur.x = (s.seed v kind (s.eng i).frame).2.1 := by
  have hseed := s.seed_keeps (v := v) (n := (s.eng i).frame) kind
  unfold State.beginSeed
  dsimp only
  rw [hkind]
  dsimp only
  rw [if_neg (by omega)]
  generalize s.seed v kind (s.eng i).frame = r at *
  have hr : (if ((r.2.2 || s.knot0Bad v) && (s.knot0Bad v || decide (kind = 1))) = true then r.1.inc (Reg.memPoisonConsumed (i / 16)) else r.1).keeps
      s [.regs] := State.keeps_ite ((r.1.inc_keeps _ _).after hseed) hseed
  generalize (if ((r.2.2 || s.knot0Bad v) && (s.knot0Bad v || decide (kind = 1))) = true then r.1.inc (Reg.memPoisonConsumed (i / 16)) else r.1) = x at *
  exact ⟨(State.setEng_drives _).trans (hr.drives i),
    _, State.setEng_eng_same _ (by rw [hr .engs (by decide)]; exact hi), rfl, rfl, rfl, rfl, rfl, rfl, rfl, rfl, rfl⟩

end Sys2Proof.Machine
end

section
/-! SUPPORT. The steps of a seed with the deadline test behind each (06_trajectory_solver.md R163 to R167). -/

namespace Sys2Proof.Machine

set_option Elab.async false

variable {s u w : State} {i n k t cols : Nat} {v : Solving} {q : PartCfg} {c : SolverCtx} {l m : List Piece}

/-! ### The start of a frame -/

theorem solveStart_waits (hcalm : s.calm) (hpriv : s.privOf i = some (q, c)) (hframe : s.checkFrame q.num (s.at t).time = some n)
    (hsolving : (s.at t).solving c.ctx = some v) (hruns : s.engRuns i = true) (hhost : s.nextHost q i = some k)
    (htail : s.runsTail q.num n = true) (hfree : (s.eng i).busy = false ∨ (s.eng i).wait = true) (hnew : s.solved c.ctx n = false)
    (hlen : s.engs.length = 32) (hbound : (s.at t).bound c.ctx n = false) {u : State} (hu : exec (.solveStart i t) s = .next u) :
    (u.eng i).busy = true ∧ (u.eng i).wait = true ∧ (u.eng i).part = q.num ∧ (u.eng i).ctx = c.ctx ∧ (u.eng i).frame = n
      ∧ (u.eng i).host = some k ∧ (u.eng i).epoch = s.epochOf q.num n ∧ (∀ j, j ≠ i → u.eng j = s.eng j) ∧ u.keeps (s.at t) [.engs] := by
  have hi : i < (s.at t).engs.length := by rw [State.at_engs, hlen]; exact State.lt_of_engRuns hruns
  rw [exec_solveStart hpriv hframe hsolving hruns hhost htail hfree hnew, hbound, if_neg (by simp), s.at_epochOf] at hu
  injection hu with hu
  have hd := State.setEng_drives (s := s.at t) (i := i) (l := []) (((s.at t).eng i).takesUp q.num c.ctx n (s.epochOf q.num n) k)
  have hsame := State.setEng_eng_same (((s.at t).eng i).takesUp q.num c.ctx n (s.epochOf q.num n) k) hi
  have hf := hd.calm (s.at_calm t hcalm)
  rw [← State.finish_eng hf, hu] at hsame
  refine ⟨?_, ?_, ?_, ?_, ?_, ?_, ?_, fun j hj => ?_, ?_⟩
  iterate 7 rw [hsame]; rfl
  · rw [← hu, State.finish_eng hf, hd.2.2 j hj, State.at_eng]
  · rw [← hu]
    exact hd.finish_keeps (s.at_calm t hcalm)

theorem solveStart_begins (hcalm : s.calm) (hpriv : s.privOf i = some (q, c)) (hframe : s.checkFrame q.num (s.at t).time = some n)
    (hsolving : (s.at t).solving c.ctx = some v) (hruns : s.engRuns i = true) (hhost : s.nextHost q i = some k)
    (htail : s.runsTail q.num n = true) (hfree : (s.eng i).busy = false ∨ (s.eng i).wait = true) (hnew : s.solved c.ctx n = false)
    (hlen : s.engs.length = 32) (hbound : (s.at t).bound c.ctx n = true) (hseeds : v.c.seeds ≠ [])
    (htime : (s.at t).time < (s.at t).solveBy v n) {u : State} (hu : exec (.solveStart i t) s = .next u) :
    (u.eng i).busy = true ∧ (u.eng i).wait = false ∧ (u.eng i).step = .init ∧ (u.eng i).seed = 0 ∧ (u.eng i).iter = 0
      ∧ (u.eng i).ctx = c.ctx ∧ (u.eng i).frame = n ∧ (u.eng i).host = some k
      ∧ (u.eng i).cur.x = ((s.at t).seed v (v.c.seeds.getD 0 0) n).2.1 ∧ (∀ j, j ≠ i → u.eng j = s.eng j) ∧ u.keeps (s.at t) [.engs, .regs] := by
  have hi : i < (s.at t).engs.length := by rw [State.at_engs, hlen]; exact State.lt_of_engRuns hruns
  have hcalmv := s.at_calm t hcalm
  have hkind : v.c.seeds[0]? = some (v.c.seeds.getD 0 0) := by
    obtain ⟨a, r, hseed⟩ := List.exists_cons_of_ne_nil hseeds
    rw [hseed]
    rfl
  rw [exec_solveStart hpriv hframe hsolving hruns hhost htail hfree hnew, hbound, if_pos rfl] at hu
  injection hu with hu
  have hother (j : Nat) : (s.at t).eng j = s.eng j := State.at_eng _ _ _
  generalize s.at t = x at *
  generalize x.epochOf q.num n = ep at *
  have hd := State.setEng_drives (s := x) (i := i) (l := [.regs]) ((x.eng i).takesUp q.num c.ctx n ep k)
  have hsame := State.setEng_eng_same ((x.eng i).takesUp q.num c.ctx n ep k) hi
  have hby := (x.setEng_keeps i ((x.eng i).takesUp q.num c.ctx n ep k)).solveBy v n
  have hseed := State.seed_setEng (s := x) (v := v) (n := n) (i := i) ((x.eng i).takesUp q.num c.ctx n ep k) (v.c.seeds.getD 0 0)
  have hframe : ((x.eng i).takesUp q.num c.ctx n ep k).frame = n := rfl
  obtain ⟨hb, y, hy, hbusy, hwait, hstep, hseedk, hiter, hctx, hfr, hhost', hcur⟩ :=
    State.beginSeed_after (s := x.setEng i ((x.eng i).takesUp q.num c.ctx n ep k)) (i := i) (t := x.time) hkind
      (by rw [hsame, hframe, hby]; exact htime) (by rw [State.setEng_engs_length]; exact hi)
  rw [hsame] at hbusy hctx hfr hhost' hcur
  rw [hframe, hseed] at hcur
  have hall := hb.trans hd
  have hf := hall.calm hcalmv
  rw [← State.finish_eng hf, hu] at hy
  refine ⟨?_, ?_, ?_, ?_, ?_, ?_, ?_, ?_, ?_, fun j hj => ?_, ?_⟩
  · rw [hy, hbusy]; rfl
  · rw [hy, hwait]
  · rw [hy, hstep]
  · rw [hy, hseedk]
  · rw [hy, hiter]
  · rw [hy, hctx]; rfl
  · rw [hy, hfr]; rfl
  · rw [hy, hhost']; rfl
  · rw [hy, hcur]
  · rw [← hu, State.finish_eng hf, hall.2.2 j hj, hother]
  · rw [← hu]
    exact hall.finish_keeps hcalmv

/-! ### A step before its boundary -/

/-- What an engine keeps of its iteration while a step computes. -/
structure EngSt.onWay (y e : EngSt) : Prop where
  iter : y.iter = e.iter
  busy : y.busy = e.busy
  ctx : y.ctx = e.ctx
  frame : y.frame = e.frame
  best : y.best = e.best
  bestIt : y.bestIt = e.bestIt
  results : y.results = e.results

theorem EngSt.onWay.trans {x y e : EngSt} (h : x.onWay y) (hy : y.onWay e) : x.onWay e :=
  ⟨h.iter.trans hy.iter, h.busy.trans hy.busy, h.ctx.trans hy.ctx, h.frame.trans hy.frame, h.best.trans hy.best, h.bestIt.trans hy.bestIt,
    h.results.trans hy.results⟩

/-- A step computes on engine i. -/
def State.computes (u s : State) (i : Nat) : Prop := u.drives s i [.regs, .mem, .fld, .fresh] ∧ (u.eng i).onWay (s.eng i)

theorem State.computes.trans (h : u.computes w i) (hw : w.computes s i) : u.computes s i := ⟨h.1.trans hw.1, h.2.trans hw.2⟩

theorem State.keeps.computes (h : u.keeps s l) (i : Nat) (hl : .engs ∉ l := by decide)
    (hm : ∀ p ∈ l, p ∈ [Piece.regs, .mem, .fld, .fresh] := by decide) : u.computes s i := by
  refine ⟨(h.drives i hl).mono hm, ?_⟩
  rw [h.eng i hl]
  exact ⟨rfl, rfl, rfl, rfl, rfl, rfl, rfl⟩

theorem State.setEng_computes {x : EngSt} (hi : i < s.engs.length) (hx : x.onWay (s.eng i)) : (s.setEng i x).computes s i := by
  refine ⟨State.setEng_drives x, ?_⟩
  rw [State.setEng_eng_same x hi]
  exact hx

theorem State.computes.lt (h : u.computes s i) (hi : i < s.engs.length) : i < u.engs.length := by rw [h.1.2.1]; exact hi

theorem EngSt.mark_onWay (e : EngSt) (bad : Bool) (fl : Nat) : (e.mark bad fl).onWay e := ⟨rfl, rfl, rfl, rfl, rfl, rfl, rfl⟩

theorem State.slvReads_keeps (use : Nat) (x : List Nat) : (s.slvReads v i use x).1.keeps s [.regs, .fld] := by
  have hself : s.keeps s [.regs, .fld] := s.keeps_refl _
  unfold State.slvReads
  extract_lets rs g y f z
  have hz : z.keeps s [.regs, .fld] := State.keeps_ite (s.setFld_keeps _).widen hself
  refine (apply_ite (fun r : State × Bool => r.1.keeps s [.regs, .fld]) _ _ _).mpr ?_
  split
  · exact hself
  · refine (apply_ite (fun r : State × Bool => r.1.keeps s [.regs, .fld]) _ _ _).mpr ?_
    split
    · exact (s.inc_keeps _ _).widen
    · refine (apply_ite (fun r : State × Bool => r.1.keeps s [.regs, .fld]) _ _ _).mpr ?_
      split
      · exact (State.inc_keeps _ _ _).after hz
      · exact hz

theorem State.progUse_computes (use : Nat) (hi : i < s.engs.length) : (s.progUse v i use).computes s i := by
  unfold State.progUse
  dsimp only
  have hr := (s.slvReads_keeps (v := v) (i := i) use ((s.eng i).cur.x.elems.map D.bits)).computes i
  generalize s.slvReads v i use ((s.eng i).cur.x.elems.map D.bits) = r at *
  refine ⟨(State.setEng_drives _).trans hr.1, ?_⟩
  rw [State.setEng_eng_same _ (hr.lt hi)]
  exact EngSt.mark_onWay _ _ _

theorem State.workWrite_computes (i : Nat) : (s.workWrite v).computes s i := by
  have hfresh : ({ s with fresh := s.fresh + 1 } : State).keeps s [.fresh] := (State.keeps_iff _ _ _).mpr (by simp)
  exact State.keeps.computes (l := [.mem, .regs, .fresh]) ((State.store_keeps _ _ _).after hfresh.widen) i

/-! ### The boundary behind a step -/

/-- The boundary of a step that has computed: in time the engine goes on, at the deadline its best iterate returns. -/
theorem State.computes.boundary (h : u.computes s i) (next : EngSt → EngSt) :
    u.slvBoundary v i next t = if t < s.solveBy v (s.eng i).frame then u.setEng i (next (u.eng i))
      else u.slvReturn v i (u.eng i).best (u.eng i).bestIt 2 t := by
  have hby : u.solveBy v (u.eng i).frame = s.solveBy v (s.eng i).frame := by
    rw [h.2.frame]
    exact h.1.1.solveBy v _
  unfold State.slvBoundary
  dsimp only
  rw [hby]
  by_cases ht : t < s.solveBy v (s.eng i).frame
  · rw [if_pos ht, if_neg (by omega)]
  · rw [if_neg ht, if_pos (by omega)]

theorem State.solverReturn_keeps (x n returned : Nat) : (s.solverReturn x n returned).keeps s [.mem, .regs] := by
  unfold State.solverReturn
  dsimp only
  exact (State.store_keeps _ _ _).after (State.keeps_ite ((State.store_keeps _ _ _).after (s.store_keeps _ _)) (s.keeps_refl _))

/-- A result returned at the deadline: the frame's solving ends with it. -/
theorem State.slvReturn_late (ev : Eval) (iters : Nat) (hi : i < s.engs.length) :
    (s.slvReturn v i ev iters 2 t).drives s i [.regs, .ints, .tdcSeen, .mem, .fld, .fresh]
    ∧ ((s.slvReturn v i ev iters 2 t).eng i).busy = false
    ∧ ((s.slvReturn v i ev iters 2 t).eng i).ended = some ((s.eng i).ctx, (s.eng i).frame)
    ∧ ∃ r, ((s.slvReturn v i ev iters 2 t).eng i).results = (s.eng i).results ++ [r] ∧ r.ev = ev ∧ r.iters = iters ∧ r.flags.testBit 2 = true := by
  unfold State.slvReturn
  extract_lets e d fl res y x f z z64 zdeg zlate
  have hx : x.drives s i [.mem, .regs] := (State.solverReturn_keeps _ _ _).drives i
  rw [if_pos (Or.inl rfl)]
  have hxi : i < x.engs.length := by rw [hx.2.1]; exact hi
  have hz : z.drives s i [.regs, .ints, .tdcSeen, .mem, .fld, .fresh] := (State.setEng_drives _).trans hx.mono
  have hzi : i < z.engs.length := by rw [hz.2.1]; exact hi
  have hlate : zlate.keeps z [.regs, .ints, .tdcSeen] := (State.tdc_keeps _ _ _ _).after <| (State.inc_keeps _ _ _).after (m := [.regs, .ints, .tdcSeen]) <|
    (State.keeps_ite ((State.inc_keeps _ _ _).after (z.add64_keeps _ _)) (z.add64_keeps _ _)).widen
  have heng : zlate.eng i = z.eng i := hlate.eng i
  have hli : i < zlate.engs.length := by rw [hlate .engs (by decide)]; exact hzi
  have hzres : (z.eng i).results = e.results ++ [res] := by
    change ((x.setEng i _).eng i).results = _
    rw [State.setEng_eng_same _ hxi]
  refine ⟨(State.setEng_drives _).trans ((hlate.drives i).mono.trans hz), ?_, ?_, res, ?_, rfl, rfl, ?_⟩
  · rw [State.setEng_eng_same _ hli]
  · rw [State.setEng_eng_same _ hli]
  · rw [State.setEng_eng_same _ hli]
    exact (congrArg EngSt.results heng).trans hzres
  · change fl.testBit 2 = true
    rw [Nat.testBit_or, Nat.testBit_or, Nat.testBit_two_pow_self]
    simp

/-! ### The steps -/

/-- The system that ASSEMBLE leaves on its engine. -/
def State.assembled (w : State) (v : Solving) (i : Nat) : State :=
  let e := w.eng i
  let bits := e.cur.x.elems.map D.bits
  let at_ (r c : Nat) : D := dOf (Config.progMatrix v.img.prog bits e.lam (w.slvField i) (r, c))
  let mat : Band := (List.range v.img.n).map fun r => (List.range (v.img.w + 1)).map fun o => if v.img.w ≤ r + o then at_ r (r + o - v.img.w) else {}
  w.setEng i { e with mat, rhs := (List.range v.img.n).map fun r => at_ r v.img.n }

theorem State.assembled_computes (hi : i < w.engs.length) : (w.assembled v i).computes w i :=
  State.setEng_computes hi ⟨rfl, rfl, rfl, rfl, rfl, rfl, rfl⟩

theorem State.slvAssemble_eq : s.slvAssemble v i t
    = (((s.progUse v i 2).workWrite v).assembled v i).slvBoundary v i (fun e => { e with step := .factor }) t := by
  unfold State.slvAssemble State.assembled
  rfl

theorem State.factorTo_computes (hi : i < s.engs.length) : (s.factorTo v i cols).1.computes s i := by
  unfold State.factorTo
  dsimp only
  exact ((State.inc_keeps _ _ _).computes i).trans
    (State.setEng_computes hi ((EngSt.mark_onWay _ _ _).trans ⟨rfl, rfl, rfl, rfl, rfl, rfl, rfl⟩))

/-- The factor that FACTOR leaves on its engine. -/
def State.factored (w : State) (f : Factor) (i : Nat) : State := w.setEng i { w.eng i with fac := f, pivot := f.flags.first }

theorem State.factored_computes (f : Factor) (hi : i < w.engs.length) : (w.factored f i).computes w i :=
  State.setEng_computes hi ⟨rfl, rfl, rfl, rfl, rfl, rfl, rfl⟩

theorem State.slvFactor_eq : s.slvFactor v i t = (((s.factorTo v i v.img.n).1.workWrite v).factored (s.factorTo v i v.img.n).2 i).slvBoundary v i
    (fun e => { e with step := .solve }) t := by
  unfold State.slvFactor State.factored
  rfl

theorem State.slvSolve_computes (hi : i < s.engs.length) : ∃ u : State, u.computes s i
    ∧ s.slvSolve v i t = u.slvBoundary v i (fun e => { e with step := .trial }) t := by
  unfold State.slvSolve
  dsimp only
  refine ⟨_, ?_, rfl⟩
  exact State.setEng_computes hi ((EngSt.mark_onWay _ _ _).trans ⟨rfl, rfl, rfl, rfl, rfl, rfl, rfl⟩)

/-- The four steps that only compute: each is work on the engine with its boundary behind it. -/
theorem State.slvStep_computes {a b : SStep} (hi : i < s.engs.length) (hstep : (s.eng i).step = a)
    (hab : (a, b) ∈ [(SStep.eval, SStep.assemble), (.assemble, .factor), (.factor, .solve), (.solve, .trial)]) (hcols : 2 * v.img.n ≤ cols) :
    ∃ u : State, u.computes s i ∧ s.slvStep v i cols t = u.slvBoundary v i (fun e => { e with step := b }) t := by
  simp only [List.mem_cons, List.not_mem_nil, or_false, Prod.mk.injEq] at hab
  unfold State.slvStep
  dsimp only
  rw [hstep]
  rcases hab with ⟨rfl, rfl⟩ | ⟨rfl, rfl⟩ | ⟨rfl, rfl⟩ | ⟨rfl, rfl⟩
  · exact ⟨_, State.progUse_computes 1 hi, rfl⟩
  · have hw := (State.workWrite_computes (s := s.progUse v i 2) (v := v) i).trans (State.progUse_computes 2 hi)
    exact ⟨_, (State.assembled_computes (hw.lt hi)).trans hw, State.slvAssemble_eq⟩
  · dsimp only
    rw [if_pos (by omega)]
    have hw := (State.workWrite_computes (s := (s.factorTo v i v.img.n).1) (v := v) i).trans (State.factorTo_computes hi)
    exact ⟨_, (State.factored_computes _ (hw.lt hi)).trans hw, State.slvFactor_eq⟩
  · dsimp only
    rw [if_pos hcols]
    exact State.slvSolve_computes hi

theorem exec_solverStep (hsolving : (s.at t).solving (s.eng i).ctx = some v) (hruns : s.engRuns i = true) (hbusy : (s.eng i).busy = true)
    (hwait : (s.eng i).wait = false) : exec (.solverStep i cols t) s = .next ((s.at t).slvStep v i cols (s.at t).time).finish := by
  rw [← s.at_engRuns t] at hruns
  change execSolverStep i cols t s = _
  unfold execSolverStep
  dsimp only
  rw [State.at_eng, hsolving]
  dsimp only
  rw [hruns, hbusy, hwait]
  rfl

theorem solverStep_after {a b : SStep} (hcalm : s.calm) (hsolving : (s.at t).solving (s.eng i).ctx = some v) (hruns : s.engRuns i = true)
    (hbusy : (s.eng i).busy = true) (hwait : (s.eng i).wait = false) (hlen : s.engs.length = 32) (hstep : (s.eng i).step = a)
    (hab : (a, b) ∈ [(SStep.eval, SStep.assemble), (.assemble, .factor), (.factor, .solve), (.solve, .trial)]) (hcols : 2 * v.img.n ≤ cols) :
    ∃ u, exec (.solverStep i cols t) s = .next u ∧ (∀ j, j ≠ i → u.eng j = s.eng j) ∧
      if (s.at t).time < (s.at t).solveBy v (s.eng i).frame then
        (u.eng i).step = b ∧ (u.eng i).iter = (s.eng i).iter ∧ (u.eng i).busy = true ∧ (u.eng i).results = (s.eng i).results
          ∧ u.keeps (s.at t) [.engs, .regs, .mem, .fld, .fresh]
      else (u.eng i).busy = false ∧ (u.eng i).ended = some ((s.eng i).ctx, (s.eng i).frame)
          ∧ (∃ r, (u.eng i).results = (s.eng i).results ++ [r] ∧ r.ev = (s.eng i).best ∧ r.iters = (s.eng i).bestIt
              ∧ r.flags.testBit 2 = true) ∧ u.keeps (s.at t) [.engs, .regs, .ints, .tdcSeen, .mem, .fld, .fresh] := by
  have hother (j : Nat) : (s.at t).eng j = s.eng j := State.at_eng _ _ _
  have hi : i < (s.at t).engs.length := by rw [State.at_engs, hlen]; exact State.lt_of_engRuns hruns
  have hcalmv := s.at_calm t hcalm
  obtain ⟨w, hw, hgo⟩ := State.slvStep_computes (s := s.at t) (v := v) (t := (s.at t).time) hi ((congrArg EngSt.step (hother i)).trans hstep) hab hcols
  rw [hw.boundary] at hgo
  refine ⟨_, exec_solverStep hsolving hruns hbusy hwait, ?_⟩
  rw [hgo, hother]
  have hon := hw.2
  rw [hother] at hon
  generalize s.at t = x at *
  have hwi := hw.lt hi
  by_cases ht : x.time < x.solveBy v (s.eng i).frame
  · rw [if_pos ht, if_pos ht]
    have hd : (w.setEng i { w.eng i with step := b }).drives x i [.regs, .mem, .fld, .fresh] := (State.setEng_drives _).trans hw.1
    have hf := hd.calm hcalmv
    have heng := State.setEng_eng_same (s := w) (i := i) { w.eng i with step := b } hwi
    refine ⟨fun j hj => ?_, ?_⟩
    · rw [State.finish_eng hf, hd.2.2 j hj, hother]
    · rw [State.finish_eng hf, heng]
      exact ⟨rfl, hon.iter, hon.busy.trans hbusy, hon.results, hd.finish_keeps hcalmv⟩
  · rw [if_neg ht, if_neg ht]
    obtain ⟨hr, hfree, hended, r, hres, hev, hiters, hflag⟩ := State.slvReturn_late (v := v) (t := x.time) (w.eng i).best (w.eng i).bestIt hwi
    have hd := hr.trans (hw.1.mono)
    have hf := hd.calm hcalmv
    refine ⟨fun j hj => ?_, ?_⟩
    · rw [State.finish_eng hf, hd.2.2 j hj, hother]
    · rw [State.finish_eng hf]
      refine ⟨hfree, ?_, ⟨r, ?_, ?_, ?_, hflag⟩, hd.finish_keeps hcalmv⟩
      · rw [hended, hon.ctx, hon.frame]
      · rw [hres, hon.results]
      · rw [hev, hon.best]
      · rw [hiters, hon.bestIt]

end Sys2Proof.Machine
end

section
/-! SUPPORT. Smoothing and the hand-off to the host core (06_trajectory_solver.md R111, R152, R168 to R173). -/

namespace Sys2Proof.Machine

set_option Elab.async false

variable {s u w : State} {i k t : Nat} {v : Solving} {r : SResult} {j : STraj}

theorem State.lt_of_eng (h : s.eng i ≠ {}) : i < s.engs.length := by
  by_contra hi
  exact h (List.getD_eq_default _ _ (by omega))

theorem length_padTo (n : Nat) (b : List Byte) : (padTo n b).length = n := by
  simp only [padTo, zeros, List.length_take, List.length_append, List.length_replicate]
  omega

/-! ### Smoothing -/

/-- The shaping of a result and the padding of its sweep. -/
def Solving.shape (v : Solving) (r : SResult) : Smooth :=
  smoothFrom (axLims v.m) v.h r.k0 (bySegment v.m.axes v.img.kseg r.ev.x.jerks)

/-- A result that gives no trajectory is counted; any other becomes one. -/
theorem State.smooth_after (hi : i < s.engs.length) :
    (s.smooth v i r).drives s i [.regs, .mem] ∧ ((s.smooth v i r).eng i).results = (s.eng i).results
    ∧ (if (v.shape r).failed ∨ 65535 < smoothPad v.m.axes v.img.kseg v.h (axLims v.m) v.img.lever (v.shape r).knots then
         ((s.smooth v i r).eng i).trajs = (s.eng i).trajs
           ∧ (s.smooth v i r).rd (Reg.slvSmoothFail (i / 16)) = satAdd (s.rd (Reg.slvSmoothFail (i / 16))) 1
       else ∃ j, ((s.smooth v i r).eng i).trajs = (s.eng i).trajs ++ [j] ∧ j.ctx = r.ctx ∧ j.frame = r.frame ∧ j.merit = r.ev.phi.bits
         ∧ j.at_ = v.trajAt r.frame j.rec_.seq) := by
  unfold State.smooth
  extract_lets h lims k0 f pad e x y seq record b
  have hx : x.drives s i [.regs, .mem] ∧ (x.eng i).results = (s.eng i).results ∧ (x.eng i).trajs = (s.eng i).trajs
      ∧ x.rd (Reg.slvSmoothFail (i / 16)) = s.rd (Reg.slvSmoothFail (i / 16)) := by
    unfold x
    split
    · have hinc := (s.setEng i { s.eng i with lastFlags := (s.eng i).lastFlags ||| 2 ^ 12 }).inc_keeps (Reg.slvShapedCount (i / 16)) 1
      refine ⟨(hinc.drives i).mono.trans (State.setEng_drives _), ?_, ?_, ?_⟩
      · rw [hinc.eng, State.setEng_eng_same _ hi]
      · rw [hinc.eng, State.setEng_eng_same _ hi]
      · exact State.rd_inc_ne _ _ _ _ (by simp only [Reg.slvSmoothFail, Reg.slvShapedCount]; omega)
    · exact ⟨(s.keeps_refl _).drives i, rfl, rfl, rfl⟩
  obtain ⟨hd, hres, htraj, hrd⟩ := hx
  have hxi : i < x.engs.length := by rw [hd.2.1]; exact hi
  clear_value x
  change _ ∧ _ ∧ if f.failed ∨ 65535 < pad then _ else _
  by_cases hbad : f.failed ∨ 65535 < pad
  · rw [if_pos hbad, if_pos hbad]
    have hinc := (x.setEng i { x.eng i with lastFlags := (x.eng i).lastFlags ||| 2 ^ 13 }).inc_keeps (Reg.slvSmoothFail (i / 16)) 1
    have heng := State.setEng_eng_same { x.eng i with lastFlags := (x.eng i).lastFlags ||| 2 ^ 13 } hxi
    refine ⟨((hinc.drives i).mono.trans (State.setEng_drives _)).trans hd, ?_, ?_, ?_⟩
    · rw [State.dropTraj, hinc.eng, heng]
      exact hres
    · rw [State.dropTraj, hinc.eng, heng]
      exact htraj
    · rw [State.dropTraj, State.rd_inc_same, ← hrd]
      rfl
  · rw [if_neg hbad, if_neg hbad]
    have hstore := x.store_keeps (v.trajAt r.frame seq) b
    have hyi : i < (x.store (v.trajAt r.frame seq) b).engs.length := by rw [hstore .engs (by decide)]; exact hxi
    refine ⟨((State.setEng_drives _).trans (hstore.drives i).mono).trans hd, ?_, ?_⟩
    · rw [State.setEng_eng_same _ hyi]
      exact hres
    · rw [State.setEng_eng_same _ hyi]
      exact ⟨_, congrArg (· ++ _) htraj, rfl, rfl, rfl, rfl⟩

theorem exec_smoothing {l : List SResult} (hres : (s.eng i).results = r :: l) (hsolving : (s.at t).solving r.ctx = some v)
    (hruns : s.stageRuns i = true) :
    exec (.smoothing i t) s = .next (((s.at t).setEng i { (s.at t).eng i with results := l }).smooth v i r).finish := by
  rw [← s.at_stageRuns t] at hruns
  rw [← State.at_eng] at hres
  change execSmoothing i t s = _
  unfold execSmoothing
  dsimp only
  rw [hres]
  dsimp only
  rw [hsolving]
  dsimp only
  rw [if_pos hruns]
  rfl

theorem smoothing_after {l : List SResult} (hcalm : s.calm) (hres : (s.eng i).results = r :: l) (hsolving : (s.at t).solving r.ctx = some v)
    (hruns : s.stageRuns i = true) :
    ∃ u, exec (.smoothing i t) s = .next u ∧ (u.eng i).results = l
      ∧ (if (v.shape r).failed ∨ 65535 < smoothPad v.m.axes v.img.kseg v.h (axLims v.m) v.img.lever (v.shape r).knots then
           (u.eng i).trajs = (s.eng i).trajs
             ∧ u.rd (Reg.slvSmoothFail (i / 16)) = satAdd ((s.at t).rd (Reg.slvSmoothFail (i / 16))) 1
         else ∃ j, (u.eng i).trajs = (s.eng i).trajs ++ [j] ∧ j.ctx = r.ctx ∧ j.frame = r.frame ∧ j.merit = r.ev.phi.bits
           ∧ j.at_ = v.trajAt r.frame j.rec_.seq)
      ∧ (∀ j, j ≠ i → u.eng j = s.eng j) ∧ u.keeps (s.at t) [.engs, .regs, .mem] := by
  have hcalmv := s.at_calm t hcalm
  have hi : i < (s.at t).engs.length := by
    rw [State.at_engs]
    exact State.lt_of_eng fun h => by rw [h] at hres; exact absurd hres (by simp)
  refine ⟨_, exec_smoothing hres hsolving hruns, ?_⟩
  have hother (j : Nat) : (s.at t).eng j = s.eng j := State.at_eng _ _ _
  generalize s.at t = x at *
  rw [hother]
  have heng := State.setEng_eng_same { s.eng i with results := l } hi
  have hd0 : (x.setEng i { s.eng i with results := l }).drives x i [.regs, .mem] := State.setEng_drives _
  obtain ⟨hd, hleft, htraj⟩ := State.smooth_after (v := v) (r := r) (hd0.2.1 ▸ hi : i < (x.setEng i { s.eng i with results := l }).engs.length)
  have hrd (o : Nat) : (x.setEng i { s.eng i with results := l }).rd o = x.rd o := rfl
  rw [heng] at hleft htraj
  rw [hrd] at htraj
  have hall := hd.trans hd0
  have hf := hall.calm hcalmv
  rw [State.finish_eng hf, State.finish_rd _ hf]
  exact ⟨hleft, htraj, fun j hj => by rw [State.finish_eng hf, hall.2.2 j hj, hother], hall.finish_keeps hcalmv⟩

/-! ### Hand-off -/

theorem State.solverBlock_keeps (x n seq returned merit : Nat) : (s.solverBlock x n seq returned merit).keeps s [.mem, .regs] := by
  unfold State.solverBlock
  extract_lets a fresh better y
  have hy : y.keeps s [.mem, .regs] := s.store_keeps _ _
  exact State.keeps_ite ((State.store_keeps _ _ _).after ((State.store_keeps _ _ _).after hy)) hy

theorem State.solverBlock_rd (x n seq returned merit o : Nat) (ho : ∀ d, o ≠ Reg.memPoisonWritten d) :
    (s.solverBlock x n seq returned merit).rd o = s.rd o := by
  unfold State.solverBlock
  dsimp only
  split
  · rw [State.store_rd _ _ _ _ (ho _), State.store_rd _ _ _ _ (ho _), State.store_rd _ _ _ _ (ho _)]
  · rw [State.store_rd _ _ _ _ (ho _)]

theorem slvLateHandoff_ne (d e : Nat) : Reg.slvLateHandoff d ≠ Reg.memPoisonWritten e := by
  simp only [Reg.slvLateHandoff, Reg.memPoisonWritten]
  omega

/-- An engine's trajectory written off its stage, and the solver block of its context. -/
def State.handing (s : State) (i : Nat) (j : STraj) : State :=
  let e := s.eng i
  let y := (e.tallyOf j.ctx j.frame).getD { ctx := j.ctx, frame := j.frame, host := e.host.getD 0 }
  (s.setEng i { e.setTally { y with seq := y.seq + 1 } with lastSeq := j.rec_.seq }).solverBlock j.ctx j.frame j.rec_.seq y.returned j.merit

theorem State.handing_after (hi : i < s.engs.length) : (s.handing i j).keeps s [.engs, .mem, .regs]
    ∧ ((s.handing i j).eng i).trajs = (s.eng i).trajs ∧ ((s.handing i j).eng i).lastSeq = j.rec_.seq
    ∧ ∀ d, (s.handing i j).rd (Reg.slvLateHandoff d) = s.rd (Reg.slvLateHandoff d) := by
  unfold State.handing
  extract_lets e y f
  have hk := State.solverBlock_keeps (s := s.setEng i { f with lastSeq := j.rec_.seq }) j.ctx j.frame j.rec_.seq y.returned j.merit
  have heng := State.setEng_eng_same { f with lastSeq := j.rec_.seq } hi
  refine ⟨hk.after (m := [.engs, .mem, .regs]) (s.setEng_keeps _ _).widen, ?_, ?_, fun d => State.solverBlock_rd _ _ _ _ _ _ (slvLateHandoff_ne d)⟩
  · rw [hk.eng, heng]
    rfl
  · rw [hk.eng, heng]

/-- The hand-off record in the host core's scratchpad. -/
def State.handed (s : State) (a : Nat) (b : List Byte) : State := (s.touch a).store a b

theorem State.handed_after (a : Nat) (j : STraj) : (s.handed a j.rec_.bytes).keeps s [.ktl, .mem, .regs]
    ∧ (∀ x < 512, (s.handed a j.rec_.bytes).mem.get 0#8 (a + x) = j.rec_.bytes.getD x 0#8)
    ∧ ∀ d, (s.handed a j.rec_.bytes).rd (Reg.slvLateHandoff d) = s.rd (Reg.slvLateHandoff d) := by
  have hlen : j.rec_.bytes.length = 512 := length_padTo _ _
  refine ⟨(State.store_keeps _ _ _).after (s.touch_keeps _ _), fun x hx => ?_, fun d => ?_⟩
  · rw [State.handed, State.store_mem, State.poke]
    dsimp only
    rw [get_poke, if_pos ⟨by omega, by omega⟩, Nat.add_sub_cancel_left]
  · rw [State.handed, State.store_rd _ _ _ _ (slvLateHandoff_ne d _), State.touch_rd]
    simp only [Reg.slvLateHandoff]
    omega

theorem exec_handoff {l : List STraj} (htrajs : (s.eng i).trajs = j :: l) (hsolving : (s.at t).solving j.ctx = some v)
    (hruns : s.stageRuns i = true) :
    exec (.handoff i t) s = .next (((s.at t).setEng i { (s.at t).eng i with trajs := l }).handOff v i j).finish := by
  rw [← s.at_stageRuns t] at hruns
  rw [← State.at_eng] at htrajs
  change execHandoff i t s = _
  unfold execHandoff
  dsimp only
  rw [htrajs]
  dsimp only
  rw [hsolving]
  dsimp only
  rw [if_pos hruns]
  rfl

theorem State.handOff_none (hhost : (s.eng i).host = none) : s.handOff v i j = (s.handing i j).inc (Reg.slvLateHandoff (i / 16)) := by
  unfold State.handOff
  extract_lets e y f z x
  have hx : s.handing i j = x := rfl
  have he : e.host = _ := hhost
  rw [hx, he]

theorem State.handOff_some {a : Nat} (hhost : (s.eng i).host = some k) (ha : handAddr k i j.frame j.rec_.seq = a) : s.handOff v i j =
    if j.frame < (((s.handing i j).handed a j.rec_.bytes).prun v.q.num).nAdm
    then ((s.handing i j).handed a j.rec_.bytes).inc (Reg.slvLateHandoff (i / 16))
    else ((s.handing i j).handed a j.rec_.bytes).setCore k
      { ((s.handing i j).handed a j.rec_.bytes).core k with handQ := (((s.handing i j).handed a j.rec_.bytes).core k).handQ ++ [a] } := by
  unfold State.handOff State.handed
  extract_lets e y f z x
  have hx : s.handing i j = x := rfl
  have he : e.host = some k := hhost
  rw [he]
  clear_value x
  subst hx
  dsimp only
  rw [ha]

section
variable {l : List STraj} (hcalm : s.calm) (htrajs : (s.eng i).trajs = j :: l) (hsolving : (s.at t).solving j.ctx = some v)
  (hruns : s.stageRuns i = true)
include hcalm htrajs hsolving hruns

/-- A hand-off without a host core is late. -/
theorem handoff_hostless (hhost : (s.eng i).host = none) : ∃ u, exec (.handoff i t) s = .next u ∧ (u.eng i).trajs = l
    ∧ (u.eng i).lastSeq = j.rec_.seq
    ∧ u.rd (Reg.slvLateHandoff (i / 16)) = satAdd ((s.at t).rd (Reg.slvLateHandoff (i / 16))) 1 ∧ u.keeps (s.at t) [.engs, .mem, .regs, .cores, .ktl] := by
  have hcalmv := s.at_calm t hcalm
  have hi : i < (s.at t).engs.length := by
    rw [State.at_engs]
    exact State.lt_of_eng fun h => by rw [h] at htrajs; exact absurd htrajs (by simp)
  refine ⟨_, exec_handoff htrajs hsolving hruns, ?_⟩
  have hother (j : Nat) : (s.at t).eng j = s.eng j := State.at_eng _ _ _
  generalize s.at t = x at *
  rw [hother]
  have heng := State.setEng_eng_same { s.eng i with trajs := l } hi
  have hset := x.setEng_keeps i { s.eng i with trajs := l }
  have hrd (o : Nat) : (x.setEng i { s.eng i with trajs := l }).rd o = x.rd o := rfl
  have hxi := (x.setEng_engs_length i { s.eng i with trajs := l }).symm ▸ hi
  generalize x.setEng i { s.eng i with trajs := l } = w at *
  obtain ⟨hk, htraj, hseq, hlate⟩ := State.handing_after (j := j) hxi
  rw [State.handOff_none (by rw [heng]; exact hhost)]
  generalize w.handing i j = z at *
  have hinc := z.inc_keeps (Reg.slvLateHandoff (i / 16)) 1
  have hall : (z.inc (Reg.slvLateHandoff (i / 16))).keeps x [.engs, .mem, .regs] := hinc.after (hk.after hset.widen)
  have hf := hall.calm hcalmv
  rw [State.finish_eng hf, State.finish_rd _ hf, hinc.eng, State.rd_inc_same, hlate, hrd]
  exact ⟨htraj.trans (by rw [heng]), hseq, rfl, (State.finish_keeps_of hf hall).widen⟩

/-- A hand-off to a host core: the record stands in its scratchpad, and waits for admission where it comes in time. -/
theorem handoff_hosted (hhost : (s.eng i).host = some k) (hcores : s.cores.length = 128) (hk : k < 128) :
    ∃ u, exec (.handoff i t) s = .next u ∧ (u.eng i).trajs = l ∧ (u.eng i).lastSeq = j.rec_.seq
      ∧ ((∀ x < 512, u.mem.get 0#8 (handAddr k i j.frame j.rec_.seq + x) = j.rec_.bytes.getD x 0#8)
        ∧ (if j.frame < (s.prun v.q.num).nAdm then
             u.rd (Reg.slvLateHandoff (i / 16)) = satAdd ((s.at t).rd (Reg.slvLateHandoff (i / 16))) 1 ∧ (u.core k).handQ = (s.core k).handQ
           else (u.core k).handQ = (s.core k).handQ ++ [handAddr k i j.frame j.rec_.seq]))
      ∧ u.keeps (s.at t) [.engs, .mem, .regs, .cores, .ktl] := by
  have hcalmv := s.at_calm t hcalm
  have hi : i < (s.at t).engs.length := by
    rw [State.at_engs]
    exact State.lt_of_eng fun h => by rw [h] at htrajs; exact absurd htrajs (by simp)
  refine ⟨_, exec_handoff htrajs hsolving hruns, ?_⟩
  have hother (j : Nat) : (s.at t).eng j = s.eng j := State.at_eng _ _ _
  have hprun : (s.at t).prun v.q.num = s.prun v.q.num := State.at_prun _ _ _
  have hcore : (s.at t).core k = s.core k := s.at_core t k
  have hkt : k < (s.at t).cores.length := by rw [State.at_cores, hcores]; exact hk
  generalize s.at t = x at *
  rw [hother]
  have heng := State.setEng_eng_same { s.eng i with trajs := l } hi
  have hset := x.setEng_keeps i { s.eng i with trajs := l }
  have hrd (o : Nat) : (x.setEng i { s.eng i with trajs := l }).rd o = x.rd o := rfl
  have hxi := (x.setEng_engs_length i { s.eng i with trajs := l }).symm ▸ hi
  generalize x.setEng i { s.eng i with trajs := l } = w at *
  obtain ⟨hhand, htraj, hseq, hlate⟩ := State.handing_after (j := j) hxi
  generalize ha : handAddr k i j.frame j.rec_.seq = a
  rw [State.handOff_some (by rw [heng]; exact hhost) ha]
  generalize w.handing i j = z at *
  obtain ⟨hpad, hbytes, hlate'⟩ := State.handed_after (s := z) a j
  generalize z.handed a j.rec_.bytes = y at *
  have hy : y.keeps x [.engs, .mem, .regs, .ktl] := hpad.after (hhand.after (m := [.engs, .mem, .regs, .ktl]) hset.widen)
  have hyeng : y.eng i = z.eng i := hpad.eng i
  rw [hy.prun, hprun]
  by_cases ht : j.frame < (s.prun v.q.num).nAdm
  · rw [if_pos ht, if_pos ht]
    have hinc := y.inc_keeps (Reg.slvLateHandoff (i / 16)) 1
    have hmem : (y.inc (Reg.slvLateHandoff (i / 16))).mem = y.mem := State.inc_mem _ _ _
    have hall : (y.inc (Reg.slvLateHandoff (i / 16))).keeps x [.engs, .mem, .regs, .ktl] := hinc.after hy
    have hf := hall.calm hcalmv
    rw [State.finish_eng hf, State.finish_rd _ hf, State.finish_core hf, hinc.eng, hinc.core, State.rd_inc_same, hlate', hlate, hrd, hyeng]
    refine ⟨htraj.trans (by rw [heng]), hseq, ⟨fun n hn => ?_, rfl, ?_⟩, (State.finish_keeps_of hf hall).widen⟩
    · rw [State.finish_mem hf, hmem]
      exact hbytes n hn
    · rw [hy.core, hcore]
  · rw [if_neg ht, if_neg ht]
    have hky : k < y.cores.length := by rw [hy .cores (by decide)]; exact hkt
    have hsetc := y.setCore_keeps k { y.core k with handQ := (y.core k).handQ ++ [a] }
    have hsame := y.setCore_core_same { y.core k with handQ := (y.core k).handQ ++ [a] } hky
    have hmem := y.setCore_mem k { y.core k with handQ := (y.core k).handQ ++ [a] }
    generalize y.setCore k { y.core k with handQ := (y.core k).handQ ++ [a] } = c at *
    have hall : c.keeps x [.engs, .mem, .regs, .cores, .ktl] := hsetc.after hy.widen
    have hf := hall.calm hcalmv
    rw [State.finish_eng hf, State.finish_core hf, hsetc.eng, hyeng, hsame]
    refine ⟨htraj.trans (by rw [heng]), hseq, ⟨fun n hn => ?_, ?_⟩, State.finish_keeps_of hf hall⟩
    · rw [State.finish_mem hf, hmem]
      exact hbytes n hn
    · rw [hy.core, hcore]

end

/-! ### The obligation -/

/-- Settles O32: the start of a frame's solving, its steps with their deadline, smoothing and hand-off, each by what it changes of its
engine. -/
theorem solverRuns : Obligations.SolverRuns := by
  unfold Obligations.SolverRuns
  refine ⟨fun i t n k s q c v hcalm hpriv hframe hsolving hruns hhost htail hfree hnew hlen => ?_,
    fun i cols t s v a b hcalm hsolving hruns hbusy hwait hlen hstep hab hcols => ?_,
    fun i t s r l v hcalm hres hsolving hruns => ?_, fun i t s j l v hcalm htrajs hsolving hruns hcores hk => ?_⟩
  · have hexec := exec_solveStart hpriv hframe hsolving hruns hhost htail hfree hnew
    exact ⟨_, hexec,
      fun hbound => solveStart_waits hcalm hpriv hframe hsolving hruns hhost htail hfree hnew hlen hbound hexec,
      fun hbound hseeds htime => solveStart_begins hcalm hpriv hframe hsolving hruns hhost htail hfree hnew hlen hbound hseeds htime hexec⟩
  · exact solverStep_after hcalm hsolving hruns hbusy hwait hlen hstep hab hcols
  · exact smoothing_after hcalm hres hsolving hruns
  · rcases hhost : (s.eng i).host with _ | k
    · exact handoff_hostless hcalm htrajs hsolving hruns hhost
    · exact handoff_hosted hcalm htrajs hsolving hruns hhost hcores (hk k hhost)

end Sys2Proof.Machine
end

section
/-! SUPPORT. The duplicates of a merge (07_selection_and_commit.md R183; 16_fault_handling.md R376): what their events change of the package. -/

namespace Sys2Proof.Machine

set_option Elab.async false

variable {s u v : State} {l m : List Piece}

/-! ### What the events of duplicates change -/

/-- The pieces that the events of duplicates change: the collector's own, and those of a core that leaves service. -/
def dupPieces : List Piece := [.cores, .mem, .regs, .ints, .errs, .fresh, .tdcSeen, .sched, .engs, .rots, .traceQ, .hqs, .host]

/-- Only those pieces change, no verdict buffer does, and without an error log ring no byte of memory. -/
structure State.dupAs (u s : State) : Prop where
  keeps : u.keeps s dupPieces
  fill : ∀ k, (u.core k).fill = (s.core k).fill
  size : u.cores.length = s.cores.length
  bytes : s.cfg.faults.log = 0 → ∀ x, u.mem.get 0#8 x = s.mem.get 0#8 x

theorem State.keeps.cfg (h : u.keeps s l) (hl : .loader ∉ l := by decide) : u.cfg = s.cfg := by rw [State.cfg, h .loader hl, State.cfg]

theorem State.keeps.bytes (h : u.keeps s l) (x : Nat) (hl : .mem ∉ l := by decide) : u.mem.get 0#8 x = s.mem.get 0#8 x :=
  (h .mem hl).1 x (by omega)

theorem State.dupAs_refl (s : State) : s.dupAs s := ⟨s.keeps_refl _, fun _ => rfl, rfl, fun _ _ => rfl⟩

theorem State.dupAs.trans (h : u.dupAs v) (hv : v.dupAs s) : u.dupAs s :=
  ⟨State.keeps_trans h.keeps hv.keeps, fun k => (h.fill k).trans (hv.fill k), h.size.trans hv.size,
    fun h0 x => (h.bytes (by rw [hv.keeps.cfg]; exact h0) x).trans (hv.bytes h0 x)⟩

theorem State.dupAs_ite {c : Prop} [Decidable c] {a b : State} (ha : a.dupAs s) (hb : b.dupAs s) : (if c then a else b).dupAs s := by
  split
  · exact ha
  · exact hb

theorem State.dupAs_foldl {α : Type} {f : State → α → State} (xs : List α) (hf : ∀ v x, (f v x).dupAs v) (h : u.dupAs s) : (xs.foldl f u).dupAs s := by
  induction xs generalizing u with
  | nil => exact h
  | cons x r ih => exact ih ((hf u x).trans h)

/-- A frame without the cores, whose bytes stand where there is no log ring. -/
theorem State.dupAs_of_keeps (h : u.keeps s l) (h0 : s.cfg.faults.log = 0 → u.keeps s m) (hl : ∀ c ∈ l, c ∈ dupPieces := by decide)
    (hcores : .cores ∉ l := by decide) (hm : .mem ∉ m := by decide) : u.dupAs s :=
  ⟨State.keeps_mono h hl, fun k => by rw [h.core k hcores], by rw [h .cores hcores], fun hz x => (h0 hz).bytes x hm⟩

/-- A frame without the cores and the memory. -/
theorem State.keeps.dupAs (h : u.keeps s l) (hl : ∀ c ∈ l, c ∈ dupPieces := by decide) (hcores : .cores ∉ l := by decide)
    (hm : .mem ∉ l := by decide) : u.dupAs s :=
  State.dupAs_of_keeps h (fun _ => h) hl hcores hm

variable (s)

theorem State.log_dupAs (r : ErrRec) : (s.log r).dupAs s := State.dupAs_of_keeps (s.log_keeps r) (fun h => State.log_of_noRing s h)

theorem State.trace_dupAs (d ev core : Nat) (i : Item) (arg : Nat) : (s.trace d ev core i arg).dupAs s := by
  have hself := s.dupAs_refl
  unfold State.trace
  split
  · exact State.dupAs_ite hself (State.dupAs_of_keeps (s.makeTrace_keeps _) (fun h => State.makeTrace_of_noRing s h))
  · exact hself

/-! ### A core that goes to isolation -/

theorem State.failItem_dupAs (d : Nat) (i : Item) : (s.failItem d i).dupAs s := by
  unfold State.failItem
  extract_lets x
  have hx : x.dupAs s := (State.log_dupAs _ _).trans ((State.trace_dupAs _ _ _ _ _ _).trans (s.inc_keeps _ _).dupAs)
  exact State.dupAs_ite ((State.copyDone_keeps _ _ _ _ _).dupAs.trans hx) hx

theorem State.failUnserved_dupAs (d : Nat) : (s.failUnserved d).dupAs s :=
  State.dupAs_ite s.dupAs_refl (State.dupAs_foldl _ (fun v i => v.failItem_dupAs d i) (s.setSch_keeps _ _).dupAs)

theorem State.returnSlots_dupAs (k : Nat) : (s.returnSlots k).dupAs s :=
  State.dupAs_foldl _ (fun v i => v.trace_dupAs _ _ _ i _) (s.setSch_keeps _ _).dupAs

theorem State.unhost_dupAs (k : Nat) : (s.unhost k).dupAs s := by
  have hengs (xs : List Nat) : (xs.foldl (fun (s : State) i => if (s.eng i).host = some k then
      (s.noResult i).setEng i { (s.noResult i).eng i with host := none } else s) s).dupAs s :=
    State.dupAs_foldl xs (fun v i => State.dupAs_ite ((State.setEng_keeps _ _ _).dupAs.trans (v.noResult_keeps i).dupAs) v.dupAs_refl) s.dupAs_refl
  have hfill (v : State) (o n : Nat) : ((v.inc o n).setCore k { v.core k with handQ := [] }).dupAs v := by
    have hinc := v.inc_keeps o n
    have hset := (v.inc o n).setCore_keeps k { v.core k with handQ := [] }
    refine ⟨State.keeps_mono (hset.after (m := [.cores, .regs]) hinc.widen) (by decide), fun j => ?_, ?_, fun _ x => ?_⟩
    · rw [State.core, State.setCore, getD_listSet]
      split
      case isTrue h =>
        rw [h.1]
      case isFalse => exact congrArg CoreSt.fill (hinc.core j)
    · rw [State.setCore_length, hinc .cores (by decide)]
    · exact (hset.bytes x).trans (hinc.bytes x)
  exact (hfill _ _ _).trans (hengs _)

theorem coreUnit_pos (k : Nat) : coreUnit k % 512 < 64 := by
  unfold coreUnit unitId
  omega

theorem State.isolate_dupAs (k ref t : Nat) : (s.isolate (coreUnit k) ref t).dupAs s := by
  have hpos := coreUnit_pos k
  unfold State.isolate
  dsimp only
  rw [if_pos (by omega), if_pos hpos]
  exact (State.failUnserved_dupAs _ _).trans <| (State.returnSlots_dupAs _ _).trans <| (State.unhost_dupAs _ _).trans <|
    (State.setRots_keeps _ _).dupAs.trans <| (State.setFault_keeps _ _).dupAs.trans (s.inc_keeps _ _).dupAs

/-! ### Duplicates -/

theorem State.dupPair_dupAs (epoch : Nat) (e : SelEntry × SelEntry) : (s.dupPair epoch e).dupAs s := by
  have hcount (v : State) (k : Nat) : (v.countOf k ekDUP_DISAGREE v.time).1.dupAs v := (v.countOf_keeps k _ _).dupAs
  have hrec (v : State) (r : ErrRec) : (v.record r).2.dupAs v := v.log_dupAs r
  unfold State.dupPair
  generalize ha : s.countOf e.1.source ekDUP_DISAGREE s.time = a
  obtain ⟨x, n, lasts⟩ := a
  have hx : x.dupAs s := by
    have h := hcount s e.1.source
    rwa [ha] at h
  dsimp only
  generalize hb : (if e.2.source = e.1.source then (x, false) else
    ((x.countOf e.2.source ekDUP_DISAGREE x.time).1, (x.countOf e.2.source ekDUP_DISAGREE x.time).2.2)) = b
  obtain ⟨y, both⟩ := b
  have hy : y.dupAs x := by
    split at hb
    · injection hb with hb
      exact hb ▸ x.dupAs_refl
    · injection hb with hb
      exact hb ▸ hcount x e.2.source
  dsimp only
  generalize hr : y.record _ = r
  have hz : r.2.dupAs s := by
    rw [← hr]
    exact ((hrec y _).trans hy).trans hx
  clear hr
  have hfirst := State.dupAs_ite (c := lasts = true) ((State.isolate_dupAs _ e.1.source r.1 r.2.time).trans hz) hz
  exact State.dupAs_ite ((State.isolate_dupAs _ e.2.source _ _).trans hfirst) hfirst

theorem State.countDups_dupAs (d p n : Nat) (c : DupCount) : (s.countDups d p n c).dupAs s := by
  unfold State.countDups
  extract_lets x y
  have hx : x.dupAs s := (State.inc_keeps _ _ _).dupAs.trans (s.inc_keeps _ _).dupAs
  have hy : y.dupAs s := State.dupAs_foldl _ (fun v e => v.dupPair_dupAs _ e) hx
  exact State.dupAs_ite hy ((State.tdc_keeps _ _ _ _).dupAs.trans hy)

end Sys2Proof.Machine
end

section
/-! SUPPORT. Lists written one after another, each into a block of its own, and the reduction of a half of a verdict buffer
(07_selection_and_commit.md R180 to R184). -/

namespace Sys2Proof.Machine

set_option Elab.async false

variable {s u v : State} {l m : List Piece} {k n p : Nat} {q : PartCfg}

/-! ### One block of 512 bytes -/

/-- A byte address outside the 512 bytes at a. -/
def offBlock (a x : Nat) : Prop := x < a ∨ a + 512 ≤ x

/-- Only the pieces of l change, no verdict buffer does, and without an error log ring no byte outside the 512 at a. -/
structure State.blockAs (u s : State) (l : List Piece) (a : Nat) : Prop where
  keeps : u.keeps s l
  fill : ∀ k, (u.core k).fill = (s.core k).fill
  size : u.cores.length = s.cores.length
  bytes : s.cfg.faults.log = 0 → ∀ x, offBlock a x → u.mem.get 0#8 x = s.mem.get 0#8 x

theorem State.dupAs.blockAs (h : u.dupAs s) (a : Nat) (hl : ∀ c ∈ dupPieces, c ∈ l := by decide) : u.blockAs s l a :=
  ⟨State.keeps_mono h.keeps hl, h.fill, h.size, fun h0 x _ => h.bytes h0 x⟩

/-- A list stored in its block, and what the duplicates of its merge change behind it. -/
theorem State.dupAs.stored {a : Nat} {b : List Byte} (h : u.dupAs (s.store a b)) (hb : b.length = 512) :
    u.blockAs s dupPieces a ∧ (s.cfg.faults.log = 0 → u.peek a 512 = b) := by
  have hstore := s.store_keeps a b
  have hmem (x : Nat) : (s.store a b).mem.get 0#8 x = (Machine.poke s.mem a b).get 0#8 x := by rw [State.store_mem, State.poke]
  refine ⟨⟨State.keeps_trans h.keeps (State.keeps_mono hstore (by decide)), fun j => ?_, ?_, fun h0 x hx => ?_⟩, fun h0 => ?_⟩
  · rw [h.fill, hstore.core]
  · rw [h.size, hstore .cores (by decide)]
  · rw [h.bytes (by rw [hstore.cfg]; exact h0), hmem, get_poke_out _ _ _ _ (by rw [hb]; exact hx)]
  · have hpeek := peek_poke_same s.mem a b
    rw [hb] at hpeek
    exact (peek_congr fun x _ _ => (h.bytes (by rw [hstore.cfg]; exact h0) x).trans (hmem x)).trans hpeek

theorem length_listBytes (frame mech epoch : Nat) (g : Goal) (late : Bool) (r : SelList) : (listBytes frame mech epoch g late r).length = 512 := by
  simp only [listBytes, List.length_append, length_toLE, length_padTo, zeros, List.length_replicate]

/-! ### Blocks in turn -/

section
variable {f : State → Mech → State} {base : Nat → Nat} {val : State → Mech → Option (List Byte)} {nums : List Nat}

/-- Every step of a fold changes its own block alone. -/
theorem State.foldl_blocks (hl : .loader ∉ l) (hf : ∀ v m, (f v m).blockAs v l (base m.num)) (ms : List Mech) (v : State) :
    (ms.foldl f v).keeps v l ∧ (∀ k, ((ms.foldl f v).core k).fill = (v.core k).fill) ∧ (ms.foldl f v).cores.length = v.cores.length
    ∧ (v.cfg.faults.log = 0 → ∀ x, (∀ m ∈ ms, offBlock (base m.num) x) → (ms.foldl f v).mem.get 0#8 x = v.mem.get 0#8 x) := by
  induction ms generalizing v with
  | nil => exact ⟨v.keeps_refl _, fun _ => rfl, rfl, fun _ _ _ => rfl⟩
  | cons m r ih =>
    have h := hf v m
    obtain ⟨hk, hfill, hsize, hbytes⟩ := ih (f v m)
    refine ⟨State.keeps_trans hk h.keeps, fun k => (hfill k).trans (h.fill k), hsize.trans h.size, fun h0 x hx => ?_⟩
    refine (hbytes (by rw [h.keeps.cfg hl]; exact h0) x fun j hj => hx j (List.mem_cons_of_mem _ hj)).trans ?_
    exact h.bytes h0 x (hx m List.mem_cons_self)

/-- What each step of a fold writes in its block stands there behind the fold, where the blocks lie apart and what a step writes does not
depend on the blocks of the others. -/
theorem State.foldl_blocks_value (hl : .loader ∉ l) (hf : ∀ v m, (f v m).blockAs v l (base m.num))
    (hapart : ∀ i j x, i ≠ j → ¬ offBlock (base i) x → offBlock (base j) x)
    (hval : ∀ v m b, m.num ∈ nums → v.cfg.faults.log = 0 → val v m = some b → (f v m).peek (base m.num) 512 = b)
    (hcongr : ∀ u v m, m.num ∈ nums → u.keeps v l → v.cfg.faults.log = 0 →
      (∀ x, (∀ j ∈ nums, j ≠ m.num → offBlock (base j) x) → u.mem.get 0#8 x = v.mem.get 0#8 x) → val u m = val v m)
    (ms : List Mech) (v : State) (h0 : v.cfg.faults.log = 0) (hnodup : (ms.map (·.num)).Nodup) (hnums : ∀ m ∈ ms, m.num ∈ nums) :
    ∀ m ∈ ms, ∀ b, val v m = some b → (ms.foldl f v).peek (base m.num) 512 = b := by
  induction ms generalizing v with
  | nil => exact fun m hm => absurd hm (by simp)
  | cons y r ih =>
    have hy := hf v y
    have h0y : (f v y).cfg.faults.log = 0 := by rw [hy.keeps.cfg hl]; exact h0
    rw [List.map_cons, List.nodup_cons] at hnodup
    obtain ⟨hnew, hnodup⟩ := hnodup
    have hne : ∀ m ∈ r, m.num ≠ y.num := fun m hm h => hnew (by rw [← h]; exact List.mem_map_of_mem hm)
    intro m hm b hb
    rw [List.foldl_cons]
    rcases List.mem_cons.mp hm with rfl | hm
    · have hrest := (State.foldl_blocks hl hf r (f v m)).2.2.2 h0y
      refine (peek_congr fun x hx hx' => hrest x fun j hj => ?_).trans (hval v m b (hnums m List.mem_cons_self) h0 hb)
      exact hapart m.num j.num x (hne j hj).symm (by unfold offBlock; omega)
    · refine ih (f v y) h0y hnodup (fun j hj => hnums j (List.mem_cons_of_mem _ hj)) m hm b ?_
      rw [hcongr (f v y) v m (hnums m (List.mem_cons_of_mem _ hm)) hy.keeps h0 fun x hx => hy.bytes h0 x
        (hx y.num (hnums y List.mem_cons_self) (hne m hm).symm)]
      exact hb

end

/-! ### Reduction -/

theorem State.partList_congr {j : Nat} (h : ∀ x, partBase k n j ≤ x → x < partBase k n j + 512 → u.mem.get 0#8 x = s.mem.get 0#8 x) :
    u.partList k n j = s.partList k n j := by
  have hpeek : u.peek (partBase k n j) 512 = s.peek (partBase k n j) 512 := peek_congr h
  unfold State.partList
  rw [hpeek]

theorem State.keeps.goalOf (h : u.keeps s l) (p n j : Nat) (hl : .parts ∉ l := by decide) : u.goalOf p n j = s.goalOf p n j := by
  unfold State.goalOf
  rw [h.prun p hl]

theorem State.keeps.epochOf (h : u.keeps s l) (p n : Nat) (hl : .parts ∉ l ∧ .fld ∉ l := by decide) : u.epochOf p n = s.epochOf p n := by
  unfold State.epochOf
  rw [h.prun p hl.1, h .fld hl.2]

/-- The entries of a piece that are a mechanism's. -/
def Mech.mine (m : Mech) (es : List SelEntry) : List SelEntry := es.filter fun e => decide (m.ctxFirst ≤ e.v.ctx) && decide (e.v.ctx < m.ctxFirst + m.ctxCount)

/-- The partial list that a reduction leaves, where the mechanism has entries in the piece. -/
def State.reducedBytes (s : State) (k p n : Nat) (es : List SelEntry) (m : Mech) : Option (List Byte) :=
  if (m.mine es).isEmpty then none else
    some (listBytes (n % 2 ^ 32) m.num (s.epochOf p n) (s.goalOf p n m.num) false
      (mergeLists (s.goalOf p n m.num) (pieceLists (m.mine es) ++ (s.partList k n m.num).toList)).1)

theorem State.reduceMech_empty {es : List SelEntry} {m : Mech} (h : (m.mine es).isEmpty = true) : s.reduceMech k p n es m = s := by
  unfold State.reduceMech
  exact if_pos h

theorem State.reduceMech_eq {es : List SelEntry} {m : Mech} {b : List Byte} (h : s.reducedBytes k p n es m = some b) :
    ∃ c, s.reduceMech k p n es m = (s.store (partBase k n m.num) b).countDups (k / 64) p n c := by
  unfold State.reducedBytes at h
  split at h
  · exact absurd h (by simp)
  · next hmine =>
    injection h with h
    rw [← h]
    unfold State.reduceMech
    exact ⟨_, if_neg hmine⟩

theorem State.reducedBytes_length {es : List SelEntry} {m : Mech} {b : List Byte} (h : s.reducedBytes k p n es m = some b) : b.length = 512 := by
  unfold State.reducedBytes at h
  split at h
  · exact absurd h (by simp)
  · injection h with h
    rw [← h, length_listBytes]

theorem State.reduceMech_blockAs (k p n : Nat) (es : List SelEntry) (v : State) (m : Mech) :
    (v.reduceMech k p n es m).blockAs v dupPieces (partBase k n m.num) := by
  rcases hb : v.reducedBytes k p n es m with _ | b
  · rw [State.reduceMech_empty (by unfold State.reducedBytes at hb; by_contra h; rw [if_neg h] at hb; exact absurd hb (by simp))]
    exact v.dupAs_refl.blockAs _
  · obtain ⟨c, hc⟩ := State.reduceMech_eq hb
    rw [hc]
    exact ((State.countDups_dupAs _ _ _ _ c).stored (State.reducedBytes_length hb)).1

theorem partBase_apart (k n i j x : Nat) (h : i ≠ j) (hx : ¬ offBlock (partBase k n i) x) : offBlock (partBase k n j) x := by
  unfold offBlock partBase at *
  omega

/-- The partial lists behind a reduction. -/
theorem State.reduceAll_after (es : List SelEntry) (ms : List Mech) (h0 : s.cfg.faults.log = 0) (hnodup : (ms.map (·.num)).Nodup) :
    ∀ m ∈ ms, ∀ b, s.reducedBytes k p n es m = some b →
      (ms.foldl (fun (s : State) (m : Mech) => s.reduceMech k p n es m) s).peek (partBase k n m.num) 512 = b := by
  refine State.foldl_blocks_value (l := dupPieces) (base := partBase k n) (nums := ms.map (·.num)) (val := fun s m => s.reducedBytes k p n es m)
    (by decide) (State.reduceMech_blockAs k p n es) (partBase_apart k n) (fun v m b _ h0 hb => ?_) (fun u v m _ huv h0 hx => ?_) ms s h0 hnodup
    fun m hm => List.mem_map_of_mem hm
  · obtain ⟨c, hc⟩ := State.reduceMech_eq hb
    rw [hc]
    exact ((State.countDups_dupAs _ _ _ _ c).stored (State.reducedBytes_length hb)).2 h0
  · have hlist := State.partList_congr (u := u) (s := v) (k := k) (n := n) (j := m.num) fun x hge hlt => hx x fun j _ hj =>
      partBase_apart k n m.num j x hj.symm (by unfold offBlock; omega)
    unfold State.reducedBytes
    rw [huv.epochOf, huv.goalOf, hlist]

end Sys2Proof.Machine
end

section
/-! SUPPORT. REDUCTION of a half of a verdict buffer (07_selection_and_commit.md R184). -/

namespace Sys2Proof.Machine

set_option Elab.async false

variable {s u v : State} {l m : List Piece} {core half k n p t : Nat} {q : PartCfg}

/-- The verdicts of a half of a core's buffer. -/
def State.halfEntries (s : State) (core half : Nat) : List SelEntry :=
  (List.range ((s.core core).fill.getD half 0)).map fun i => { v := decVerdict (s.peek (halfBase core half + 16 * i) 16), source := core }

theorem State.halfFor_eq (m : Mech) : s.halfFor core half m = m.mine (s.halfEntries core half) := rfl

/-- Every partial list of a partition reduced. -/
def State.reduceAll (s : State) (core half p : Nat) (ms : List Mech) : State :=
  ms.foldl (fun (u : State) (m : Mech) => u.reduceMech core p ((s.core core).halfOf.getD half 0) (s.halfEntries core half) m) s

/-- A half emptied: the core owes a merge. -/
def State.emptied (s : State) (core half : Nat) : State :=
  (s.setCore core { s.core core with fill := listSet (s.core core).fill half 0, owes := true }).add64 (Reg.selReduceLo (core / 64)) 1

theorem State.at_coreOwner (t k : Nat) : (s.at t).cfg.coreOwner k = s.cfg.coreOwner k := by rw [State.at_cfg]

theorem exec_reduction (howner : s.cfg.coreOwner core = some q) (hruns : s.coreRuns core = true) (hhalf : half < 2) :
    exec (.reduction core half t) s = .next (if 0 < (s.core core).fill.getD half 0
        ∧ ((s.core core).fill.getD half 0 = 12288 ∨ (s.at t).closedWindow q.num ((s.core core).halfOf.getD half 0) = true)
      then ((s.at t).reduceAll core half q.num q.mechs).emptied core half else s.at t).finish := by
  rw [← State.at_coreOwner t] at howner
  rw [← State.at_coreRuns s t] at hruns
  rw [← s.at_core t core]
  change execReduction core half t s = _
  unfold execReduction
  dsimp only
  rw [howner]
  dsimp only
  rw [hruns, decide_eq_true hhalf]
  by_cases h : 0 < ((s.at t).core core).fill.getD half 0
      ∧ (((s.at t).core core).fill.getD half 0 = 12288 ∨ (s.at t).closedWindow q.num (((s.at t).core core).halfOf.getD half 0) = true)
  · rw [if_pos h, if_pos (by simpa using h)]
    rfl
  · rw [if_neg h, if_neg (by simpa using h)]
    rfl

theorem State.lt_cores_of_fill (h : 0 < (s.core core).fill.getD half 0) : core < s.cores.length := by
  by_contra hc
  have hnone : s.core core = {} := List.getD_eq_default _ _ (by omega)
  rw [hnone] at h
  rcases half with _ | _ | half <;> simp at h

/-- The core behind the emptying of a half. -/
theorem State.emptied_after (hk : core < s.cores.length) (hhalf : half < 2) :
    ((s.emptied core half).core core).fill.getD half 0 = 0
    ∧ ((s.emptied core half).core core).fill.getD (1 - half) 0 = (s.core core).fill.getD (1 - half) 0
    ∧ ((s.emptied core half).core core).owes = true ∧ (s.emptied core half).keeps s [.cores, .regs] := by
  have hset := s.setCore_keeps core { s.core core with fill := listSet (s.core core).fill half 0, owes := true }
  have hsame := s.setCore_core_same { s.core core with fill := listSet (s.core core).fill half 0, owes := true } hk
  have hadd := (s.setCore core { s.core core with fill := listSet (s.core core).fill half 0, owes := true }).add64_keeps
    (Reg.selReduceLo (core / 64)) 1
  unfold State.emptied
  rw [hadd.core, hsame]
  refine ⟨?_, getD_listSet_of_ne _ _ _ (by omega), rfl, hadd.after hset.widen⟩
  change (listSet (s.core core).fill half 0).getD half 0 = 0
  rw [getD_listSet]
  split
  · rfl
  · next h => exact List.getD_eq_default _ _ (by by_contra hlt; exact h ⟨rfl, by omega⟩)

theorem reduction_empties (hcalm : s.calm) (howner : s.cfg.coreOwner core = some q) (hruns : s.coreRuns core = true) (hhalf : half < 2)
    (hdue : 0 < (s.core core).fill.getD half 0
      ∧ ((s.core core).fill.getD half 0 = 12288 ∨ (s.at t).closedWindow q.num ((s.core core).halfOf.getD half 0) = true)) :
    ∃ u, exec (.reduction core half t) s = .next u ∧ (u.core core).fill.getD half 0 = 0
      ∧ (u.core core).fill.getD (1 - half) 0 = (s.core core).fill.getD (1 - half) 0 ∧ (u.core core).owes = true
      ∧ (s.cfg.faults.log = 0 → (q.mechs.map (·.num)).Nodup → ∀ m ∈ q.mechs, (s.at t).halfFor core half m ≠ [] →
          u.peek (partBase core ((s.core core).halfOf.getD half 0) m.num) 512 =
            listBytes (((s.core core).halfOf.getD half 0) % 2 ^ 32) m.num (s.epochOf q.num ((s.core core).halfOf.getD half 0))
              (s.goalOf q.num ((s.core core).halfOf.getD half 0) m.num) false ((s.at t).reducedList core half q.num m))
      ∧ u.keeps (s.at t) [.cores, .mem, .regs, .ints, .errs, .fresh, .tdcSeen, .sched, .engs, .rots, .traceQ, .hqs, .host] := by
  have hexec := exec_reduction (t := t) howner hruns hhalf
  rw [if_pos hdue] at hexec
  have hepoch (n : Nat) : s.epochOf q.num n = (s.at t).epochOf q.num n := (State.at_epochOf s t n q.num).symm
  have hgoal (n j : Nat) : s.goalOf q.num n j = (s.at t).goalOf q.num n j := by rw [State.goalOf, State.goalOf, State.at_prun]
  have h0 (h : s.cfg.faults.log = 0) : (s.at t).cfg.faults.log = 0 := by rwa [State.at_cfg]
  have hcalmv := s.at_calm t hcalm
  have hk := State.lt_cores_of_fill hdue.1
  rw [← s.at_cores t] at hk
  rw [← s.at_core t core]
  generalize s.at t = x at *
  have hn : (x.core core).halfOf.getD half 0 = (x.core core).halfOf.getD half 0 := rfl
  obtain ⟨hkeeps, hfill, hsize, -⟩ := State.foldl_blocks (l := dupPieces) (by decide)
    (State.reduceMech_blockAs core q.num ((x.core core).halfOf.getD half 0) (x.halfEntries core half)) q.mechs x
  have hvalue := State.reduceAll_after (s := x) (k := core) (p := q.num) (n := (x.core core).halfOf.getD half 0) (x.halfEntries core half) q.mechs
  change (x.reduceAll core half q.num q.mechs).keeps x dupPieces at hkeeps
  change ∀ k, ((x.reduceAll core half q.num q.mechs).core k).fill = (x.core k).fill at hfill
  change (x.reduceAll core half q.num q.mechs).cores.length = x.cores.length at hsize
  change _ → _ → ∀ m ∈ q.mechs, ∀ b, _ → (x.reduceAll core half q.num q.mechs).peek _ 512 = b at hvalue
  generalize x.reduceAll core half q.num q.mechs = y at *
  obtain ⟨hzero, hother, howes, hset⟩ := State.emptied_after (s := y) (hsize ▸ hk) hhalf
  have hall : (y.emptied core half).keeps x dupPieces := State.keeps_trans (hset.widen) hkeeps
  have hf := hall.calm hcalmv
  refine ⟨_, hexec, ?_, ?_, ?_, fun hlog hnodup m hm hmine => ?_, State.finish_keeps_of hf hall⟩
  · rw [State.finish_core hf, hzero]
  · rw [State.finish_core hf, hother, hfill]
  · rw [State.finish_core hf, howes]
  · rw [hepoch, hgoal, State.peek_finish hf]
    refine (peek_congr fun z _ _ => hset.bytes z).trans (hvalue (h0 hlog) hnodup m hm _ ?_)
    rw [State.halfFor_eq] at hmine
    unfold State.reducedBytes
    rw [if_neg (by simpa using hmine)]
    rfl

end Sys2Proof.Machine
end

section
/-! SUPPORT. The merge of the partial lists of a frame over both dies (07_selection_and_commit.md R185, R186). -/

namespace Sys2Proof.Machine

set_option Elab.async false

variable {s u v : State} {l : List Piece} {k n p t c d m : Nat} {q : PartCfg}

/-! ### The lists of a merge, without the events of its duplicates -/

theorem State.keeps.dom_st (h : u.keeps s l) (k : Nat) (hl : .ktl ∉ l := by decide) : (u.dom k).st = (s.dom k).st := by
  have hstill : u.ktl.still.doms = s.ktl.still.doms := congrArg Kettle.doms (h .ktl hl)
  have hst (w : State) : (w.dom k).st = ((w.ktl.still.doms).getD k {}).st := by
    rw [State.dom, Kettle.still]
    dsimp only
    rw [List.getD_eq_getElem?_getD, List.getD_eq_getElem?_getD, List.getElem?_map]
    cases w.ktl.doms[k]? <;> rfl
  rw [hst u, hst s, hstill]

theorem State.keeps.mergeCores (h : u.keeps s l) (g : Nat) (hl : .ktl ∉ l := by decide) : u.mergeCores q g = s.mergeCores q g := by
  unfold State.mergeCores
  exact List.filter_congr fun k _ => by rw [h.dom_st k hl]

/-- The partial lists of a cluster. -/
def State.clusterLists (s : State) (q : PartCfg) (g n m : Nat) : List SelList := (s.mergeCores q g).filterMap fun k => s.partList k n m

/-- The lists of clusters that hold one, merged cluster by cluster. -/
def State.clusterRows (s : State) (q : PartCfg) (d n m : Nat) (cs : List Nat) : List SelList :=
  cs.flatMap fun c => if (s.clusterLists q (d * 8 + c) n m).isEmpty then [] else
    [(mergeLists (s.goalOf q.num n m) (s.clusterLists q (d * 8 + c) n m)).1]

/-- The list of a die. -/
def State.dieRow (s : State) (q : PartCfg) (d n m : Nat) : SelList := (mergeLists (s.goalOf q.num n m) (s.clusterRows q d n m (List.range 8))).1

/-- The list of the package. -/
def State.packageRow (s : State) (q : PartCfg) (n m : Nat) : SelList :=
  (mergeLists (s.goalOf q.num n m) [s.dieRow q 0 n m, s.dieRow q 1 n m]).1

/-- What the lists of a row are merged from is the same. -/
structure State.rowAs (u s : State) (q : PartCfg) (n m : Nat) : Prop where
  goal : u.goalOf q.num n m = s.goalOf q.num n m
  lists : ∀ g, u.clusterLists q g n m = s.clusterLists q g n m

theorem State.rowAs.dieRow (h : u.rowAs s q n m) (d : Nat) : u.dieRow q d n m = s.dieRow q d n m := by
  unfold State.dieRow State.clusterRows
  simp only [h.goal, h.lists]

theorem State.rowAs.packageRow (h : u.rowAs s q n m) : u.packageRow q n m = s.packageRow q n m := by
  unfold State.packageRow
  rw [h.goal, h.dieRow, h.dieRow]

theorem State.dupAs.rowAs (h : u.dupAs s) (h0 : s.cfg.faults.log = 0) : u.rowAs s q n m := by
  refine ⟨h.keeps.goalOf _ _ _, fun g => ?_⟩
  unfold State.clusterLists
  rw [h.keeps.mergeCores g]
  exact congrFun (congrArg _ (funext fun k => State.partList_congr fun x _ _ => h.bytes h0 x)) _

/-! ### The three levels -/

/-- One cluster of a die's level. -/
def mergeCluster (q : PartCfg) (g : Goal) (d n m : Nat) (acc : State × List SelList) (c : Nat) : State × List SelList :=
  if (acc.1.clusterLists q (d * 8 + c) n m).isEmpty then acc else
    (acc.1.countDups d q.num n (mergeLists g (acc.1.clusterLists q (d * 8 + c) n m)).2,
      acc.2 ++ [(mergeLists g (acc.1.clusterLists q (d * 8 + c) n m)).1])

/-- A die's level. -/
def mergeDie (q : PartCfg) (g : Goal) (n m : Nat) (s : State) (d : Nat) : State × SelList :=
  let cl := (List.range 8).foldl (mergeCluster q g d n m) (s, [])
  (cl.1.countDups d q.num n (mergeLists g cl.2).2, (mergeLists g cl.2).1)

theorem State.mergeRow_eq : s.mergeRow q n m =
    let a := mergeDie q (s.goalOf q.num n m) n m s 0
    let b := mergeDie q (s.goalOf q.num n m) n m a.1 1
    (b.1.countDups 0 q.num n (mergeLists (s.goalOf q.num n m) [a.2, b.2]).2, (mergeLists (s.goalOf q.num n m) [a.2, b.2]).1) := rfl

theorem mergeClusters_after (cs : List Nat) (acc : State × List SelList) (hacc : acc.1.dupAs s) :
    (cs.foldl (mergeCluster q (s.goalOf q.num n m) d n m) acc).1.dupAs s
    ∧ (s.cfg.faults.log = 0 → (cs.foldl (mergeCluster q (s.goalOf q.num n m) d n m) acc).2 = acc.2 ++ s.clusterRows q d n m cs) := by
  induction cs generalizing acc with
  | nil => exact ⟨hacc, fun _ => by simp [State.clusterRows]⟩
  | cons c r ih =>
    rw [List.foldl_cons]
    have hstep : (mergeCluster q (s.goalOf q.num n m) d n m acc c).1.dupAs s := by
      unfold mergeCluster
      split
      · exact hacc
      · exact (State.countDups_dupAs _ _ _ _ _).trans hacc
    obtain ⟨hdup, hrows⟩ := ih _ hstep
    refine ⟨hdup, fun h0 => (hrows h0).trans ?_⟩
    have hlists := (hacc.rowAs (q := q) (n := n) (m := m) h0).lists (d * 8 + c)
    unfold State.clusterRows mergeCluster
    rw [List.flatMap_cons, hlists]
    split
    · rw [List.nil_append]
    · rw [List.append_assoc]

theorem mergeDie_after (hv : v.dupAs s) (d : Nat) : (mergeDie q (s.goalOf q.num n m) n m v d).1.dupAs s
    ∧ (s.cfg.faults.log = 0 → (mergeDie q (s.goalOf q.num n m) n m v d).2 = s.dieRow q d n m) := by
  obtain ⟨hdup, hrows⟩ := mergeClusters_after (q := q) (d := d) (n := n) (m := m) (List.range 8) (v, []) hv
  refine ⟨(State.countDups_dupAs _ _ _ _ _).trans hdup, fun h0 => ?_⟩
  unfold mergeDie State.dieRow
  dsimp only
  rw [hrows h0, List.nil_append]

/-- A merge changes what the events of its duplicates change, and answers the row. -/
theorem State.mergeRow_after (q : PartCfg) (n m : Nat) : (s.mergeRow q n m).1.dupAs s
    ∧ (s.cfg.faults.log = 0 → (s.mergeRow q n m).2 = s.packageRow q n m) := by
  obtain ⟨ha, hrowa⟩ := mergeDie_after (q := q) (n := n) (m := m) s.dupAs_refl 0
  obtain ⟨hb, hrowb⟩ := mergeDie_after (q := q) (n := n) (m := m) ha 1
  rw [State.mergeRow_eq]
  dsimp only
  refine ⟨(State.countDups_dupAs _ _ _ _ _).trans hb, fun h0 => ?_⟩
  rw [hrowa h0, hrowb h0]
  rfl

end Sys2Proof.Machine
end

section
/-! SUPPORT. MERGE of a frame's partial lists (07_selection_and_commit.md R185 to R187), and the obligation. -/

namespace Sys2Proof.Machine

set_option Elab.async false

variable {s u v : State} {l : List Piece} {k n p t c : Nat} {q : PartCfg}

/-! ### One retained list -/

/-- The bytes of the list that a row answers without the events of its duplicates. -/
def State.packageBytes (s : State) (q : PartCfg) (n m : Nat) : List Byte :=
  listBytes (n % 2 ^ 32) m (s.epochOf q.num n) (s.goalOf q.num n m) false (s.packageRow q n m)

/-- The pieces that the retained lists of a frame change. -/
def retainPieces : List Piece := .round :: dupPieces

/-- The bytes of a retained list. -/
def State.retainedBytes (s : State) (q : PartCfg) (n m : Nat) : List Byte :=
  listBytes (n % 2 ^ 32) m (s.epochOf q.num n) (s.goalOf q.num n m) false (s.mergeRow q n m).2

/-- The counts of a retained list. -/
def State.retainCounts (s : State) (g : Goal) (r : SelList) : State :=
  let s := if r.ties = 0 then s else s.inc (Reg.selTieCount 0)
  if r.entries.length < g.k then s.inc (Reg.selPadCount 0) else s

theorem State.retainCounts_keeps (g : Goal) (r : SelList) : (s.retainCounts g r).keeps s [.regs] := by
  have hties : (if r.ties = 0 then s else s.inc (Reg.selTieCount 0)).keeps s [.regs] := State.keeps_ite (s.keeps_refl _) (s.inc_keeps _ _)
  exact State.keeps_ite ((State.inc_keeps _ _ _).after hties) hties

/-- A mechanism's list stands for a frame. -/
def State.standing (s : State) (m n : Nat) : State :=
  { s with round := { s.round with stands := (m, n) :: s.round.stands.filter fun e => e.1 != m || e.2 + 1 == n } }

theorem State.retain_eq (m : Nat) : s.retain q n m = (((s.mergeRow q n m).1.store (listBase m n) (s.retainedBytes q n m)).retainCounts
    (s.goalOf q.num n m) (s.mergeRow q n m).2).standing m n := rfl

theorem State.retain_after (m : Nat) : (s.retain q n m).blockAs s retainPieces (listBase m n)
    ∧ (s.cfg.faults.log = 0 → (s.retain q n m).peek (listBase m n) 512 = s.retainedBytes q n m)
    ∧ (s.retain q n m).round = { s.round with stands := (m, n) :: s.round.stands.filter fun e => e.1 != m || e.2 + 1 == n } := by
  obtain ⟨hrow, -⟩ := s.mergeRow_after q n m
  have hretain := s.retain_eq (q := q) (n := n) m
  have hw := ((s.mergeRow q n m).1.store (listBase m n) (s.retainedBytes q n m)).retainCounts_keeps (s.goalOf q.num n m) (s.mergeRow q n m).2
  rw [hretain]
  generalize State.retainCounts _ _ _ = w at *
  have hlen : (s.retainedBytes q n m).length = 512 := length_listBytes _ _ _ _ _ _
  obtain ⟨hblock, hpeek⟩ := State.dupAs.stored hw.dupAs hlen
  have hround := w.setRound_keeps { w.round with stands := (m, n) :: w.round.stands.filter fun e => e.1 != m || e.2 + 1 == n }
  have hwround : w.round = s.round := (hblock.keeps .round (by decide)).trans (hrow.keeps .round (by decide))
  have h0 (h : s.cfg.faults.log = 0) : (s.mergeRow q n m).1.cfg.faults.log = 0 := by rw [hrow.keeps.cfg]; exact h
  refine ⟨⟨?_, fun k => ?_, ?_, fun h x hx => ?_⟩, fun h => ?_, ?_⟩
  · exact hround.after (m := retainPieces) (State.keeps_trans (State.keeps_mono hblock.keeps (by decide)) (State.keeps_mono hrow.keeps (by decide)))
  · exact (congrArg CoreSt.fill (hround.core k)).trans ((hblock.fill k).trans (hrow.fill k))
  · exact hblock.size.trans hrow.size
  · exact (hblock.bytes (h0 h) x hx).trans (hrow.bytes h x)
  · exact hpeek (h0 h)
  · rw [State.standing, hwround]

/-! ### The retained lists of a partition -/

/-- The list of every mechanism retained. -/
def State.retainAll (s : State) (q : PartCfg) (n : Nat) (ms : List Mech) : State := ms.foldl (fun (s : State) (m : Mech) => s.retain q n m.num) s

theorem listBase_apart (n i j x : Nat) (h : i ≠ j) (hx : ¬ offBlock (listBase i n) x) : offBlock (listBase j n) x := by
  unfold offBlock listBase at *
  omega

/-- A partial list of a core lies outside every retained list. -/
theorem offBlock_of_partBase {j m x : Nat} (hk : k < 128) (hm : m < 16) (hx : partBase k n m ≤ x) (hx' : x < partBase k n m + 512) :
    offBlock (listBase j n) x := by
  unfold offBlock listBase mailBase
  unfold partBase padBase dieBase at *
  omega

/-- The lists behind a merge: each stands in its own block. -/
theorem State.retainAll_bytes (ms : List Mech) (h0 : s.cfg.faults.log = 0) (hnodup : (ms.map (·.num)).Nodup) (hnum : ∀ m ∈ ms, m.num < 16)
    (hcores : ∀ k ∈ q.cores, k < 128) : ∀ m ∈ ms, (s.retainAll q n ms).peek (listBase m.num n) 512 = s.retainedBytes q n m.num := by
  have hvalue := State.foldl_blocks_value (l := retainPieces) (base := fun m => listBase m n) (nums := ms.map (·.num))
    (f := fun (s : State) (m : Mech) => s.retain q n m.num)
    (val := fun s m => some (s.packageBytes q n m.num))
    (by decide) (fun v m => (v.retain_after m.num).1) (listBase_apart n) (fun v m b _ h0 hb => ?_) (fun u v m hm huv h0 hx => ?_) ms s h0 hnodup
    (fun m hm => List.mem_map_of_mem hm)
  · intro m hm
    have h := hvalue m hm (s.packageBytes q n m.num) rfl
    rw [State.retainAll, h]
    unfold State.packageBytes State.retainedBytes
    rw [(s.mergeRow_after q n m.num).2 h0]
  · have hpeek := (v.retain_after (q := q) (n := n) m.num).2.1 h0
    have hb := Option.some.inj hb
    rw [← hb, hpeek, State.packageBytes, State.retainedBytes, (v.mergeRow_after q n m.num).2 h0]
  · obtain ⟨y, hy, hynum⟩ := List.mem_map.mp hm
    have hm16 : m.num < 16 := hynum ▸ hnum y hy
    have hrow : u.rowAs v q n m.num := by
      refine ⟨huv.goalOf _ _ _, fun g => ?_⟩
      unfold State.clusterLists
      rw [huv.mergeCores g]
      refine List.filterMap_congr fun k hk => State.partList_congr fun x hge hlt => hx x fun j _ _ => ?_
      exact offBlock_of_partBase (hcores k (List.mem_filter.mp hk).1) hm16 hge hlt
    refine congrArg some ?_
    unfold State.packageBytes
    rw [huv.epochOf, huv.goalOf, hrow.packageRow]

/-- The standing lists behind a merge: nothing else of the round changes. -/
theorem State.retainAll_round (ms : List Mech) (s : State) : (s.retainAll q n ms).round = { s.round with stands := (s.retainAll q n ms).round.stands }
    ∧ (∀ e ∈ s.round.stands, e.2 = n → e ∈ (s.retainAll q n ms).round.stands) ∧ ∀ m ∈ ms, (m.num, n) ∈ (s.retainAll q n ms).round.stands := by
  induction ms generalizing s with
  | nil => exact ⟨rfl, fun _ he _ => he, fun m hm => absurd hm (by simp)⟩
  | cons y r ih =>
    obtain ⟨hround, hold, hnew⟩ := ih (s.retain q n y.num)
    have hy := (s.retain_after (q := q) (n := n) y.num).2.2
    change (s.retainAll q n (y :: r)).round = _ at hround
    change ∀ e ∈ (s.retain q n y.num).round.stands, e.2 = n → e ∈ (s.retainAll q n (y :: r)).round.stands at hold
    change ∀ m ∈ r, (m.num, n) ∈ (s.retainAll q n (y :: r)).round.stands at hnew
    rw [hy] at hold
    have hfirst : (y.num, n) ∈ (s.retainAll q n (y :: r)).round.stands := hold _ List.mem_cons_self rfl
    refine ⟨?_, fun e he hen => ?_, fun m hm => ?_⟩
    · rw [hy] at hround
      exact hround
    · by_cases hnum : e.1 = y.num
      · rw [show e = (y.num, n) from Prod.ext hnum hen]
        exact hfirst
      · exact hold e (List.mem_cons_of_mem _ (List.mem_filter.mpr ⟨he, by simp [hnum]⟩)) hen
    · rcases List.mem_cons.mp hm with rfl | hm
      · exact hfirst
      · exact hnew m hm

/-! ### The cores of the partition -/

/-- A core owes its merge no more, and is powered off where it has only waited for that. -/
def State.paidOff (s : State) (k : Nat) : State :=
  let v := s.setCore k { s.core k with owes := false }
  if v.isRetired (coreUnit k) ∧ !(v.core k).owing then v.powerOff (coreUnit k) else v

theorem State.paidOff_keeps (k : Nat) : (s.paidOff k).keeps s [.cores, .ktl] := by
  have hset := (s.setCore_keeps k { s.core k with owes := false }).widen (m := [.cores, .ktl])
  exact State.keeps_ite ((State.powerOff_keeps _ _).after hset) hset

theorem State.paidOff_core (k j : Nat) : ((s.paidOff k).core j).owes = if j = k then false else (s.core j).owes := by
  have hset : ((s.setCore k { s.core k with owes := false }).core j).owes = if j = k then false else (s.core j).owes := by
    rw [State.core, State.setCore, getD_listSet]
    by_cases hj : j = k
    · subst hj
      rw [if_pos rfl]
      split
      · rfl
      · next h => rw [List.getD_eq_default _ _ (by by_contra hlt; exact h ⟨rfl, by omega⟩)]
    · rw [if_neg hj, if_neg fun h => hj h.1]
      rfl
  unfold State.paidOff
  dsimp only
  split
  · rw [(State.powerOff_keeps _ _).core, hset]
  · exact hset

theorem State.paidOffAll_after (ks : List Nat) (s : State) : (ks.foldl State.paidOff s).keeps s [.cores, .ktl]
    ∧ (∀ k, (s.core k).owes = false → ((ks.foldl State.paidOff s).core k).owes = false)
    ∧ ∀ k ∈ ks, ((ks.foldl State.paidOff s).core k).owes = false := by
  induction ks generalizing s with
  | nil => exact ⟨s.keeps_refl _, fun _ h => h, fun k hk => absurd hk (by simp)⟩
  | cons y r ih =>
    obtain ⟨hk, hold, hnew⟩ := ih (s.paidOff y)
    have hcore := s.paidOff_core y
    refine ⟨State.keeps_trans hk (s.paidOff_keeps y), fun k h => hold k ?_, fun k hkm => ?_⟩
    · rw [hcore, h, ite_self]
    · rcases List.mem_cons.mp hkm with rfl | hkm
      · exact hold k (by rw [hcore, if_pos rfl])
      · exact hnew k hkm

/-! ### MERGE -/

theorem exec_merge (hframe : s.checkFrame p (s.at t).time = some c) (hpos : 0 < c) (hsel : (s.prun p).nSel ≤ c - 1)
    (htail : s.runsTail p (c - 1) = true) (hmechs : (s.pcfg p).mechs ≠ []) (hreduced : ∀ k ∈ (s.pcfg p).cores, (s.core k).reduced (c - 1) = true) :
    exec (.merge p t) s = .next
      ((s.pcfg p).cores.foldl State.paidOff ((s.at t).retainAll (s.pcfg p) (c - 1) (s.pcfg p).mechs)).finish := by
  rw [← State.at_checkFrame s t] at hframe
  rw [← State.at_runsTail s t] at htail
  rw [← State.at_prun s t] at hsel
  have hcfg : (s.at t).pcfg p = s.pcfg p := State.at_pcfg _ _ _
  change execMerge p t s = _
  unfold execMerge
  dsimp only
  rw [hframe, hcfg]
  dsimp only
  rw [if_pos ⟨hpos, hsel, htail, by simpa using hmechs, List.all_eq_true.mpr fun k hk => by rw [State.at_core]; exact hreduced k hk⟩]
  rfl

theorem merge_after (hcalm : s.calm) (hframe : s.checkFrame p (s.at t).time = some c) (hpos : 0 < c) (hsel : (s.prun p).nSel ≤ c - 1)
    (htail : s.runsTail p (c - 1) = true) (hmechs : (s.pcfg p).mechs ≠ []) (hreduced : ∀ k ∈ (s.pcfg p).cores, (s.core k).reduced (c - 1) = true)
    (hq : q = s.pcfg p) : ∃ u, exec (.merge p t) s = .next u ∧ (∀ m ∈ q.mechs, (m.num, c - 1) ∈ u.round.stands)
      ∧ (s.cfg.faults.log = 0 → (q.mechs.map (·.num)).Nodup → (∀ m ∈ q.mechs, m.num < 16) → (∀ k ∈ q.cores, k < 128) →
          ∀ m ∈ q.mechs, u.peek (listBase m.num (c - 1)) 512 = listBytes ((c - 1) % 2 ^ 32) m.num (s.epochOf q.num (c - 1))
            (s.goalOf q.num (c - 1) m.num) false ((s.at t).mergeRow q (c - 1) m.num).2)
      ∧ (∀ k ∈ q.cores, (u.core k).owes = false) ∧ u.round = { s.round with stands := u.round.stands }
      ∧ u.keeps (s.at t) [.cores, .mem, .regs, .ints, .errs, .fresh, .tdcSeen, .sched, .engs, .rots, .round, .ktl, .traceQ, .hqs, .host] := by
  have hexec := exec_merge hframe hpos hsel htail hmechs hreduced
  rw [← hq] at hexec
  have hepoch (n : Nat) : s.epochOf q.num n = (s.at t).epochOf q.num n := (State.at_epochOf s t n q.num).symm
  have hgoal (n j : Nat) : s.goalOf q.num n j = (s.at t).goalOf q.num n j := by rw [State.goalOf, State.goalOf, State.at_prun]
  have h0 (h : s.cfg.faults.log = 0) : (s.at t).cfg.faults.log = 0 := by rwa [State.at_cfg]
  have hround : (s.at t).round = s.round := s.at_keeps t .round (by decide)
  have hcalmv := s.at_calm t hcalm
  generalize s.at t = x at *
  obtain ⟨hkeeps, -, -, -⟩ := State.foldl_blocks (l := retainPieces) (base := fun m => listBase m (c - 1))
    (f := fun (s : State) (m : Mech) => s.retain q (c - 1) m.num) (by decide) (fun v m => (v.retain_after m.num).1) q.mechs x
  change (x.retainAll q (c - 1) q.mechs).keeps x retainPieces at hkeeps
  obtain ⟨hstays, -, hstands⟩ := State.retainAll_round (q := q) (n := c - 1) q.mechs x
  have hbytes := State.retainAll_bytes (s := x) (q := q) (n := c - 1) q.mechs
  generalize x.retainAll q (c - 1) q.mechs = y at *
  obtain ⟨hset, -, howes⟩ := State.paidOffAll_after q.cores y
  generalize q.cores.foldl State.paidOff y = z at *
  have hall : z.keeps x [.cores, .mem, .regs, .ints, .errs, .fresh, .tdcSeen, .sched, .engs, .rots, .round, .ktl, .traceQ, .hqs, .host] :=
    State.keeps_trans hset.widen (State.keeps_mono hkeeps (by decide))
  have hf := hall.calm hcalmv
  have hzround : z.finish.round = y.round := (State.finish_round _ hf).trans (hset .round (by decide))
  refine ⟨_, hexec, fun m hm => ?_, fun hlog hnodup hnum hcores m hm => ?_, fun k hk => ?_, ?_, State.finish_keeps_of hf hall⟩
  · rw [hzround]
    exact hstands m hm
  · rw [State.peek_finish hf, hepoch, hgoal]
    exact (peek_congr fun n _ _ => hset.bytes n).trans (hbytes (h0 hlog) hnodup hnum hcores m hm)
  · rw [State.finish_core hf]
    exact howes k hk
  · rw [hzround, ← hround]
    exact hstays

/-! ### The obligation -/

/-- Settles O31: a reduction empties a half into the partial lists, and a merge makes the retained lists of them. -/
theorem reduceAndMerge : Obligations.ReduceAndMerge := by
  unfold Obligations.ReduceAndMerge
  refine ⟨fun core half t s q hcalm howner hruns hhalf => ?_,
    fun p t c s hcalm hframe hpos hsel htail hmechs hreduced => merge_after hcalm hframe hpos hsel htail hmechs hreduced rfl⟩
  dsimp only
  by_cases hdue : 0 < (s.core core).fill.getD half 0
      ∧ ((s.core core).fill.getD half 0 = 12288 ∨ (s.at t).closedWindow q.num ((s.core core).halfOf.getD half 0) = true)
  · simp only [if_pos hdue]
    exact reduction_empties hcalm howner hruns hhalf hdue
  · simp only [if_neg hdue]
    refine ⟨_, exec_reduction howner hruns hhalf, ?_⟩
    rw [if_neg hdue]
    exact State.finish_keeps_of (s.at_calm t hcalm) (State.keeps_refl _ _)

end Sys2Proof.Machine
end

section
/-! SUPPORT. The completion of a host command on a queue with room, and the registers of the queues (20_host_interface.md R438, R440). -/

namespace Sys2Proof.Machine

set_option Elab.async false

variable {s u v w : State} {l : List Piece} {fn q cid status result : Nat} {notify : Bool} {c : HostIn}

/-! ### The registers of the queues -/

/-- The registers of the host queues stand. -/
def State.ringAs (u s : State) : Prop := ∀ o, 0x10A000 ≤ o → o < 0x10C400 → u.rd o = s.rd o

theorem State.ringAs_refl (s : State) : s.ringAs s := fun _ _ _ => rfl

theorem State.ringAs.trans (h : u.ringAs v) (k : v.ringAs s) : u.ringAs s := fun o h1 h2 => (h o h1 h2).trans (k o h1 h2)

theorem State.keeps.ringAs (h : u.keeps s l) (hl : .regs ∉ l := by decide) : u.ringAs s := fun o _ _ => h .regs hl o (by simp)

theorem State.lowAs.ringAs (h : u.lowAs s) : u.ringAs s := fun o _ h2 => h o (by omega)

theorem trigReg_of_ring {o : Nat} (h1 : 0x10A000 ≤ o) (h2 : o < 0x10C400) : trigReg o = false := by
  simp only [trigReg, List.contains_cons, List.contains_nil, Bool.or_false, Bool.or_eq_false_iff, Bool.and_eq_false_iff, decide_eq_false_iff_not, beq_eq_false_iff_ne,
    Reg.intUnrouted, Reg.intCoalesced, Reg.errLost, Reg.wdnSaucers, Reg.selSaucerSub]
  omega

theorem State.spares.ringAs (h : u.spares s) : u.ringAs s := fun o h1 h2 => h o (trigReg_of_ring h1 h2)

theorem State.inc_ringAs (s : State) {o : Nat} (n : Nat) (ho : o < 0x10A000 ∨ 0x10C400 ≤ o) : (s.inc o n).ringAs s :=
  fun i _ _ => s.rd_inc_ne _ _ _ (by omega)

theorem State.ringAs_ite {p : Prop} [Decidable p] {a b : State} (ha : a.ringAs s) (hb : b.ringAs s) : (if p then a else b).ringAs s := by
  split
  · exact ha
  · exact hb

theorem State.ringAs.cqBase (h : u.ringAs s) (hfn : fn ≤ 8) (hq : q < 8) : u.rd64 (Reg.hifCqBaseLo fn q) = s.rd64 (Reg.hifCqBaseLo fn q) := by
  unfold State.rd64
  rw [h _ (by unfold Reg.hifCqBaseLo; omega) (by unfold Reg.hifCqBaseLo; omega), h _ (by unfold Reg.hifCqBaseLo; omega) (by unfold Reg.hifCqBaseLo; omega)]

/-! ### A completion posted -/

/-- A queue that has posted one completion. -/
def HQueue.posted (x : HQueue) : HQueue :=
  { x with cqTail := (x.cqTail + 1) % 2 ^ x.cqSize, phase := if (x.cqTail + 1) % 2 ^ x.cqSize = 0 then !x.phase else x.phase }

/-- A queue that has posted the only completion it had. -/
def HQueue.drained (x : HQueue) : HQueue := { x.posted with ready := [] }

/-- A completion in its place, and the queue behind it. -/
def State.postedAs (s : State) (fn q : Nat) (y : HComp) : State :=
  (s.toHost (s.rd64 (Reg.hifCqBaseLo fn q) + 16 * (s.hq fn q).cqTail) (y.bytes (s.hq fn q).phase)).setHq fn q (s.hq fn q).drained

theorem State.postOne_eq {y : HComp} (hready : (s.hq fn q).ready = [y]) (hfull : (s.hq fn q).cqFull = false) :
    s.postOne fn q = if ((s.hq fn q).irq && fn != 0) = true then (s.postedAs fn q y).raiseP (fn - 1) (8 + q) else s.postedAs fn q y := by
  unfold State.postOne
  dsimp only
  rw [hready]
  dsimp only
  rw [hfull, if_neg (by decide)]
  rfl

/-- The one completion of a queue with room. -/
theorem State.postOne_after {y : HComp} (hlen : 8 * fn + q < s.hqs.length) (hready : (s.hq fn q).ready = [y]) (hfull : (s.hq fn q).cqFull = false) :
    (s.postOne fn q).hq fn q = (s.hq fn q).drained
    ∧ (∀ i, i ≠ 8 * fn + q → (s.postOne fn q).hqs.getD i {} = s.hqs.getD i {})
    ∧ (s.postOne fn q).hostW = { addr := s.rd64 (Reg.hifCqBaseLo fn q) + 16 * (s.hq fn q).cqTail, data := y.bytes (s.hq fn q).phase } :: s.hostW := by
  have hsame : (s.postedAs fn q y).hq fn q = (s.hq fn q).drained := State.setHq_hq_same _ _ hlen
  have hrest (i : Nat) (hi : i ≠ 8 * fn + q) : (s.postedAs fn q y).hqs.getD i {} = s.hqs.getD i {} := State.setHq_hqs_of_ne _ _ hi
  rw [State.postOne_eq hready hfull]
  split
  · have hr := (s.postedAs fn q y).raiseP_keeps (fn - 1) (8 + q)
    refine ⟨?_, fun i hi => ?_, hr .host (by decide)⟩
    · rw [State.hq, hr .hqs (by decide)]
      exact hsame
    · rw [hr .hqs (by decide)]
      exact hrest i hi
  · exact ⟨hsame, hrest, rfl⟩

/-- A command's completion on a queue with room and nothing else to post. -/
theorem State.complete_after (hlen : 8 * fn + q < s.hqs.length) (hready : (s.hq fn q).ready = []) (hfull : (s.hq fn q).cqFull = false) :
    (∀ i, i ≠ 8 * fn + q → (s.complete fn q cid status result notify).hqs.getD i {} = s.hqs.getD i {})
    ∧ if status = hsOK ∧ notify = false then s.complete fn q cid status result notify = s
      else (s.complete fn q cid status result notify).hq fn q = (s.hq fn q).posted
        ∧ (s.complete fn q cid status result notify).hostW =
          { addr := s.rd64 (Reg.hifCqBaseLo fn q) + 16 * (s.hq fn q).cqTail
            data := HComp.bytes { cid, status, head := (s.hq fn q).head, result } (s.hq fn q).phase } :: s.hostW := by
  unfold State.complete
  by_cases hno : status = hsOK ∧ notify = false
  · rw [if_pos (by simpa using hno), if_pos hno]
    exact ⟨fun _ _ => rfl, rfl⟩
  · rw [if_neg (by simpa using hno), if_neg hno]
    dsimp only
    rw [hready, List.nil_append]
    generalize hx : ({ s.hq fn q with ready := [{ cid, status, head := (s.hq fn q).head, result }] } : HQueue) = x
    have hsame := s.setHq_hq_same x hlen
    have hrest := fun i hi => s.setHq_hqs_of_ne (fn := fn) (q := q) x (i := i) hi
    have hpost : (s.setHq fn q x).postReady fn q = (s.setHq fn q x).postOne fn q := by
      rw [State.postReady, hsame, ← hx]
      rfl
    have hafter := State.postOne_after (s := s.setHq fn q x) (fn := fn) (q := q) (y := { cid, status, head := (s.hq fn q).head, result })
      (by rw [State.setHq_hqs_length]; exact hlen) (by rw [hsame, ← hx]) (by rw [hsame, ← hx]; exact hfull)
    rw [hpost]
    obtain ⟨hq, hothers, hhost⟩ := hafter
    rw [hsame] at hq hhost
    refine ⟨fun i hi => (hothers i hi).trans (hrest i hi), hq.trans ?_, hhost.trans ?_⟩
    · rw [← hx]
      exact congrArg (fun r => ({ (s.hq fn q).posted with ready := r } : HQueue)) hready.symm
    · rw [← hx]
      rfl

/-! ### A command taken -/

/-- The state behind the taking of a queue's next command. -/
def State.popped (s : State) (fn q : Nat) : State := s.setHq fn q (s.hq fn q).taken

/-- A state that has done a command's work but for its completion: the command taken, the registers of the queues as they were. -/
structure State.worked (u s : State) (c : HostIn) : Prop where
  queue : u.hq c.fn c.q = (s.hq c.fn c.q).taken
  rest : ∀ i, i ≠ 8 * c.fn + c.q → u.hqs.getD i {} = s.hqs.getD i {}
  length : u.hqs.length = s.hqs.length
  ring : u.ringAs s

theorem State.worked_popped (hlen : 8 * c.fn + c.q < s.hqs.length) : (s.popped c.fn c.q).worked s c :=
  ⟨s.setHq_hq_same _ hlen, fun _ hi => s.setHq_hqs_of_ne _ hi, s.setHq_hqs_length _ _ _, fun _ _ _ => rfl⟩


end Sys2Proof.Machine
end

section
/-! SUPPORT. NOP, FLAG and TALLY of a host queue (20_host_interface.md R436, R437, R439). -/

namespace Sys2Proof.Machine

set_option Elab.async false

variable {s u v w z : State} {l : List Piece} {c : HostIn} {op status result : Nat}

/-! ### A queue that may take a command -/

/-- What a queue's next command meets. -/
structure State.ripe (s : State) (c : HostIn) (op : Nat) : Prop where
  takes : s.hqTakes c.fn c.q = true
  room : (s.hq c.fn c.q).cqFull = false
  ready : (s.hq c.fn c.q).ready = []
  size : 64 ≤ c.bytes.length
  ok : (decHCmd (c.bytes.take 64)).ok = true
  kind : (decHCmd (c.bytes.take 64)).op = op

theorem State.ripe_of_takesHost (h : s.takesHost c op) : s.ripe c op := by
  obtain ⟨h1, h2, h3, h4, h5, h6⟩ := h
  exact ⟨h1, h2, h3, h4, h5, h6⟩

/-- The conditions of a queue that takes commands, one by one. -/
theorem State.ripe.parts (h : s.ripe c op) : s.pcieUp = true ∧ c.fn ≤ 8 ∧ c.q < 8 ∧ (s.hq c.fn c.q).en = true ∧ (s.hq c.fn c.q).wait = none
    ∧ (s.hq c.fn c.q).copy = none ∧ s.vfReset c.fn = false := by
  have hh := h.takes
  unfold State.hqTakes at hh
  simp only [Bool.and_eq_true, decide_eq_true_eq, Bool.not_eq_true', Option.isNone_iff_eq_none] at hh
  obtain ⟨⟨⟨⟨⟨⟨⟨⟨⟨⟨h1, h2⟩, h3⟩, h4⟩, -⟩, -⟩, -⟩, h5⟩, h6⟩, -⟩, h7⟩ := hh
  exact ⟨h1, h2, h3, h4, h5, h6, h7⟩

theorem State.ripe.fn_le (h : s.ripe c op) : c.fn ≤ 8 := h.parts.2.1

theorem State.ripe.q_lt (h : s.ripe c op) : c.q < 8 := h.parts.2.2.1

theorem State.ripe.length (h : s.ripe c op) : 8 * c.fn + c.q < s.hqs.length := by
  by_contra hlen
  have hnone : s.hq c.fn c.q = {} := List.getD_eq_default _ _ (by omega)
  have hen := h.parts.2.2.2.1
  rw [hnone] at hen
  exact absurd hen (by decide)

/-- A command of a kind that may run is taken and run. -/
theorem State.ripe.hostTake (h : (s.at c.t).ripe c op) {may : HCmd → Bool} {f : State → HCmd → State}
    (hmay : may (decHCmd (c.bytes.take 64)) = true) :
    s.hostTake c op may f = f ((s.at c.t).popped c.fn c.q) (decHCmd (c.bytes.take 64)) := by
  unfold State.hostTake
  dsimp only
  rw [h.takes, if_neg (by decide), h.room, if_neg (by decide), if_neg (by have := h.size; omega), h.kind, if_neg (by rintro ⟨-, -, hne⟩; exact hne rfl), h.ok,
    if_neg (by decide), hmay, if_pos rfl]
  rfl

/-! ### The answer to a command -/

theorem State.answered.congr (h : u.answered s c status result) (hqs : w.hqs = u.hqs) (hhost : w.hostW = u.hostW) : w.answered s c status result := by
  unfold State.answered at h ⊢
  have hq : w.hq c.fn c.q = u.hq c.fn c.q := by rw [State.hq, hqs, State.hq]
  rw [hqs, hq, hhost]
  exact h

/-- Work done and completed. -/
theorem State.worked.answered (hw : w.worked s c) (h : s.ripe c op) :
    (w.complete c.fn c.q (decHCmd (c.bytes.take 64)).cid status result (decHCmd (c.bytes.take 64)).notify).answered s c status result := by
  have hlen : 8 * c.fn + c.q < w.hqs.length := by rw [hw.length]; exact h.length
  have hready : (w.hq c.fn c.q).ready = [] := by rw [hw.queue]; exact h.ready
  have hroom : (w.hq c.fn c.q).cqFull = false := by rw [hw.queue]; exact h.room
  have hbase := hw.ring.cqBase h.fn_le h.q_lt
  obtain ⟨hrest, hpost⟩ := State.complete_after (cid := (decHCmd (c.bytes.take 64)).cid) (status := status) (result := result)
    (notify := (decHCmd (c.bytes.take 64)).notify) hlen hready hroom
  unfold State.answered
  refine ⟨fun i hi => (hrest i hi).trans (hw.rest i hi), ?_⟩
  by_cases hno : status = hsOK ∧ (decHCmd (c.bytes.take 64)).notify = false
  · rw [if_pos hno] at hpost ⊢
    rw [hpost, hw.queue]
  · rw [if_neg hno] at hpost ⊢
    obtain ⟨hq, hhost⟩ := hpost
    rw [hw.queue] at hq hhost
    rw [hbase] at hhost
    refine ⟨hq, ?_⟩
    rw [hhost]
    rfl

/-- A command's work done, its completion, and the end of its step. -/
theorem State.worked.ends (hw : w.worked s c) (h : s.ripe c op) (hk : w.keeps s l) (hcalm : s.calm)
    (hdev : .dev ∉ l := by decide) (hl : ∀ p ∈ [Piece.hqs, .host, .regs, .ints], p ∈ l := by decide) :
    (w.complete c.fn c.q (decHCmd (c.bytes.take 64)).cid status result (decHCmd (c.bytes.take 64)).notify).finish.answered s c status result
    ∧ (w.complete c.fn c.q (decHCmd (c.bytes.take 64)).cid status result (decHCmd (c.bytes.take 64)).notify).finish.keeps s l := by
  have hc := w.complete_keeps c.fn c.q (decHCmd (c.bytes.take 64)).cid status result (decHCmd (c.bytes.take 64)).notify
  have hall := State.keeps_trans (State.keeps_mono hc hl) hk
  have hf := hall.calm hcalm hdev
  exact ⟨(hw.answered h).congr (State.finish_hqs _ hf) (State.finish_hostW _ hf), State.finish_keeps_of hf hall⟩

/-- Work that leaves the queues alone. -/
theorem State.worked.after (h : v.worked s c) (hqs : u.hqs = v.hqs) (hring : u.ringAs v) : u.worked s c := by
  have hq : u.hq c.fn c.q = v.hq c.fn c.q := by rw [State.hq, hqs, State.hq]
  exact ⟨hq.trans h.queue, fun i hi => by rw [hqs]; exact h.rest i hi, by rw [hqs]; exact h.length, hring.trans h.ring⟩

theorem State.popped_keeps (s : State) (fn q : Nat) : (s.popped fn q).keeps s [.hqs] := s.setHq_keeps _ _ _

/-! ### NOP -/

theorem host_nop (hcalm : s.calm) (h : (s.at c.t).takesHost c 5) :
    ∃ u, exec (.nop c) s = .next u ∧ u.answered (s.at c.t) c hsOK 0 ∧ u.keeps (s.at c.t) [.hqs, .host, .ints, .regs] := by
  have hripe := State.ripe_of_takesHost h
  have hexec : exec (.nop c) s = .next (((s.at c.t).popped c.fn c.q).complete c.fn c.q (decHCmd (c.bytes.take 64)).cid hsOK 0
      (decHCmd (c.bytes.take 64)).notify).finish := by
    change (s.hostTake c 5 (fun _ => true) fun s h => s.complete c.fn c.q h.cid hsOK 0 h.notify).done = _
    rw [hripe.hostTake rfl]
    rfl
  have hend := (State.worked_popped hripe.length).ends (status := hsOK) (result := 0) (l := [.hqs, .host, .ints, .regs]) hripe
    ((s.at c.t).popped_keeps _ _).widen (s.at_calm c.t hcalm)
  exact ⟨_, hexec, hend⟩

/-! ### FLAG -/

theorem exec_flag (h : (s.at c.t).ripe c 4) (hwarm : s.dev.warm = none) : exec (.flag c) s = .next
    ((((s.at c.t).popped c.fn c.q).hostFlag c.fn (leAt (decHCmd (c.bytes.take 64)).arg 0 2) (leAt (decHCmd (c.bytes.take 64)).arg 2 1)).complete
      c.fn c.q (decHCmd (c.bytes.take 64)).cid hsOK 0 (decHCmd (c.bytes.take 64)).notify).finish := by
  change (s.hostTake c 4 (fun _ => s.dev.warm.isNone) fun s h =>
    (s.hostFlag c.fn (leAt h.arg 0 2) (leAt h.arg 2 1)).complete c.fn c.q h.cid hsOK 0 h.notify).done = _
  rw [h.hostTake (by rw [hwarm]; rfl)]
  rfl

theorem State.popped_pcfg (s : State) (fn q p : Nat) : (s.popped fn q).pcfg p = s.pcfg p := rfl

theorem host_flag_undefined (hcalm : s.calm) (h : (s.at c.t).takesHost c 4) (hwarm : s.dev.warm = none)
    (hnone : (s.pcfg (c.fn - 1)).task (leAt (decHCmd (c.bytes.take 64)).arg 0 2) = none) :
    ∃ u, exec (.flag c) s = .next u ∧ u.rd (Reg.schFlagReject 0) = satAdd ((s.at c.t).rd (Reg.schFlagReject 0)) 1
      ∧ u.answered (s.at c.t) c hsOK 0 ∧ u.keeps (s.at c.t) [.hqs, .host, .ints, .regs] := by
  have hripe := State.ripe_of_takesHost h
  have hexec := exec_flag hripe hwarm
  have hcalmv := s.at_calm c.t hcalm
  have hpop : ((s.at c.t).popped c.fn c.q).pcfg (c.fn - 1) = s.pcfg (c.fn - 1) := by rw [State.popped_pcfg, State.at_pcfg]
  generalize s.at c.t = x at *
  have hrej : (x.popped c.fn c.q).hostFlag c.fn (leAt (decHCmd (c.bytes.take 64)).arg 0 2) (leAt (decHCmd (c.bytes.take 64)).arg 2 1)
      = (x.popped c.fn c.q).inc (Reg.schFlagReject 0) := by
    unfold State.hostFlag
    dsimp only
    rw [hpop, hnone]
  rw [hrej] at hexec
  have hinc := (x.popped c.fn c.q).inc_keeps (Reg.schFlagReject 0) 1
  have hw : ((x.popped c.fn c.q).inc (Reg.schFlagReject 0)).worked x c :=
    (State.worked_popped hripe.length).after (hinc .hqs (by decide)) (State.inc_ringAs _ _ (by decide))
  have hrd : ((x.popped c.fn c.q).inc (Reg.schFlagReject 0)).rd (Reg.schFlagReject 0) = satAdd (x.rd (Reg.schFlagReject 0)) 1 := State.rd_inc_same _ _ _
  have hk : ((x.popped c.fn c.q).inc (Reg.schFlagReject 0)).keeps x [.hqs, .host, .ints, .regs] := hinc.after (x.popped_keeps _ _).widen
  generalize (x.popped c.fn c.q).inc (Reg.schFlagReject 0) = y at *
  obtain ⟨hans, hkeeps⟩ := hw.ends (status := hsOK) (result := 0) (l := [.hqs, .host, .ints, .regs]) hripe hk hcalmv
  refine ⟨_, hexec, ?_, hans, hkeeps⟩
  have hall := (y.complete_keeps c.fn c.q (decHCmd (c.bytes.take 64)).cid hsOK 0 (decHCmd (c.bytes.take 64)).notify).after
    (m := [.hqs, .host, .ints, .regs]) hk
  have haside := y.complete_aside c.fn c.q (decHCmd (c.bytes.take 64)).cid hsOK 0 (decHCmd (c.bytes.take 64)).notify
  rw [State.finish_rd _ (hall.calm hcalmv), ← hrd]
  exact haside.rd _ (by decide)

theorem leAt_slice (b : List Byte) (o n i k : Nat) (h : i + k ≤ n) : leAt (slice b o n) i k = leAt b (o + i) k := by
  unfold leAt slice
  rw [List.drop_take, List.take_take, List.drop_drop, min_eq_left (by omega)]

/-- A well-formed FLAG command names a flag below 24. -/
theorem State.ripe.flag_lt (h : s.ripe c 4) : leAt (decHCmd (c.bytes.take 64)).arg 2 1 < 24 := by
  have hok := h.ok
  have hop := h.kind
  generalize c.bytes.take 64 = b at hok hop ⊢
  have harg : leAt (decHCmd b).arg 2 1 = leAt b 0x22 1 := leAt_slice b 0x20 16 2 1 (by omega)
  have hop' : leAt b 0 1 = 4 := hop
  unfold decHCmd at hok
  dsimp only at hok
  rw [hop'] at hok
  simp only [Bool.and_eq_true] at hok
  obtain ⟨-, h1⟩ := hok
  rw [if_neg (by decide)] at h1
  simp only [Bool.and_eq_true] at h1
  obtain ⟨-, h2⟩ := h1
  rw [if_neg (by decide), if_pos trivial] at h2
  simp only [Bool.and_eq_true, decide_eq_true_eq] at h2
  have h3 := h2.1
  omega

theorem host_flag_kept {r : TaskRec} {y : TaskSt} (hcalm : s.calm) (h : (s.at c.t).takesHost c 4) (hwarm : s.dev.warm = none)
    (hr : (s.pcfg (c.fn - 1)).task (leAt (decHCmd (c.bytes.take 64)).arg 0 2) = some r)
    (hy : s.task? r.die (c.fn - 1) (leAt (decHCmd (c.bytes.take 64)).arg 0 2) = some y)
    (hno : y.held = true ∨ if r.any then (y.flags ||| 2 ^ leAt (decHCmd (c.bytes.take 64)).arg 2 1) &&& r.mask = 0
      else (y.flags ||| 2 ^ leAt (decHCmd (c.bytes.take 64)).arg 2 1) &&& r.mask ≠ r.mask) :
    ∃ u, exec (.flag c) s = .next u ∧ u.task? r.die (c.fn - 1) (leAt (decHCmd (c.bytes.take 64)).arg 0 2)
        = some { y with flags := y.flags ||| 2 ^ leAt (decHCmd (c.bytes.take 64)).arg 2 1 }
      ∧ u.answered (s.at c.t) c hsOK 0 ∧ u.keeps (s.at c.t) [.hqs, .host, .ints, .regs, .sched] := by
  have hripe := State.ripe_of_takesHost h
  have hexec := exec_flag hripe hwarm
  have hflag := hripe.flag_lt
  have hcalmv := s.at_calm c.t hcalm
  rw [← State.at_pcfg s c.t] at hr
  rw [← State.at_task? s c.t] at hy
  generalize s.at c.t = x at *
  generalize leAt (decHCmd (c.bytes.take 64)).arg 0 2 = k at *
  generalize leAt (decHCmd (c.bytes.take 64)).arg 2 1 = f at *
  have hwait : ({ y with flags := y.flags ||| 2 ^ f } : TaskSt).ready r = false ∨ y.held = true := by
    refine hno.symm.imp_left fun h => ?_
    rw [TaskSt.ready]
    split at h <;> simp [*]
  have hset : (x.popped c.fn c.q).hostFlag c.fn k f = (x.popped c.fn c.q).setTask r.die { y with flags := y.flags ||| 2 ^ f } := by
    unfold State.hostFlag
    dsimp only
    rw [State.popped_pcfg, hr]
    dsimp only
    rw [if_pos hflag]
    exact State.setFlag_waits hr hy hwait
  rw [hset] at hexec
  have hkt := (x.popped c.fn c.q).setTask_keeps r.die { y with flags := y.flags ||| 2 ^ f }
  have hw : ((x.popped c.fn c.q).setTask r.die { y with flags := y.flags ||| 2 ^ f }).worked x c :=
    (State.worked_popped hripe.length).after (hkt .hqs (by decide)) hkt.ringAs
  obtain ⟨hyp, hyk, -⟩ := State.task?_eq hy
  have htask : ((x.popped c.fn c.q).setTask r.die { y with flags := y.flags ||| 2 ^ f }).task? r.die (c.fn - 1) k
      = some { y with flags := y.flags ||| 2 ^ f } := State.setTask_task? (t := y) hy hyp hyk
  have hk : ((x.popped c.fn c.q).setTask r.die { y with flags := y.flags ||| 2 ^ f }).keeps x [.hqs, .host, .ints, .regs, .sched] :=
    hkt.after (x.popped_keeps _ _).widen
  generalize (x.popped c.fn c.q).setTask r.die { y with flags := y.flags ||| 2 ^ f } = z at *
  obtain ⟨hans, hkeeps⟩ := hw.ends (status := hsOK) (result := 0) (l := [.hqs, .host, .ints, .regs, .sched]) hripe hk hcalmv
  refine ⟨_, hexec, ?_, hans, hkeeps⟩
  have hall := (z.complete_keeps c.fn c.q (decHCmd (c.bytes.take 64)).cid hsOK 0 (decHCmd (c.bytes.take 64)).notify)
  have hf := (hall.after (m := [.hqs, .host, .ints, .regs, .sched]) hk).calm hcalmv
  rw [(State.finish_keeps _ hf).task?, hall.task?, htask]

end Sys2Proof.Machine
end

section
/-! SUPPORT. TALLY of a host queue: an ADD at a word that nothing looks at (20_host_interface.md R437; 11_synchronisation.md R265). -/

namespace Sys2Proof.Machine

set_option Elab.async false

variable {s u v z : State} {c : HostIn} {w : TWord} {tref operand : Nat} {r : TallyIn}

/-! ### What an ADD leaves of the registers of the queues -/

theorem State.touchDom_ringAs (s : State) (n : Nat) : (s.touchDom n).ringAs s := fun o h1 h2 => s.touchDom_rd (by omega)

theorem State.touch_ringAs (s : State) (a n : Nat) : (s.touch a n).ringAs s := fun o h1 h2 => State.touch_rd _ (by omega)

theorem State.opCounted_ringAs (s : State) (w : TWord) : (s.opCounted w).ringAs s := by
  cases w with
  | ctr k n =>
    intro o h1 h2
    exact State.add64_rd_ne _ _ (by unfold Reg.synOpsLo; omega) (by unfold Reg.synOpsLo; omega)
  | mem a => exact s.ringAs_refl

theorem State.tallyErr_ringAs (s : State) (w : TWord) (p : Nat) {reg : Nat} (hreg : 0x10C400 ≤ reg) : (s.tallyErr w p reg).ringAs s := by
  have hinc : ((s.setTword w { s.tword w with err := true }).inc reg).ringAs s :=
    (State.inc_ringAs _ _ (.inr hreg)).trans (State.setTword_keeps s w _).ringAs
  exact State.ringAs_ite ((State.raise_spares _ _).ringAs.trans hinc) hinc

/-- An ADD of a word that no wait, monitor or channel looks at. -/
theorem State.tallyAdd_ringAs (hq : v.quiet w) (hbad : v.wordBad w = false) (p : Nat) : (v.tallyAdd w p operand).ringAs v := by
  obtain ⟨hws, hmons, hchans⟩ := hq
  have happlied {y : State} {x : TVal} (h : y.worded v tallyPieces w x v.sync.waits) (hy : y.ringAs v) : (y.applied w).ringAs v := by
    rw [State.applied_of_unmoved (h.unmoved (fun y hy hw => absurd hw (hws y hy)) hmons)]
    exact (y.opCounted_ringAs w).trans hy
  have h := v.worded_refl tallyPieces w
  unfold State.tallyAdd
  dsimp only
  split
  · exact happlied (State.tallyErr_worded h hbad p _) (v.tallyErr_ringAs w p (by unfold Reg.synOverflow; omega))
  next hfit =>
    have hset := h.setTword (y := { v.tword w with value := (v.tword w).value + operand }) hbad ⟨by dsimp only; omega, h.bounded.2⟩
    have hbroken : (v.setTword w { v.tword w with value := (v.tword w).value + operand }).broken w = [] := by
      refine List.filter_eq_nil_iff.mpr fun x hx => ?_
      rw [hset.chans] at hx
      obtain ⟨hp, hcc⟩ := hchans x hx
      simp [hp, hcc]
    rw [hbroken]
    exact happlied hset (State.setTword_keeps v w _).ringAs

/-! ### The command -/

/-- The command in progress on its queue. -/
def State.stalls (s : State) (c : HostIn) : State := s.setHq c.fn c.q { s.hq c.fn c.q with wait := some (c.bytes.take 64) }

/-- The operation of a host command. -/
def hostReq (c : HostIn) (tref operand : Nat) : TallyIn :=
  { issuer := .hostq c.fn c.q, part := if c.fn = 0 then 8 else c.fn - 1, tref, operand, cls := if c.fn = 0 then clsN else clsQ, t := c.t }

theorem exec_tallyCommand (h : (s.at c.t).ripe c 3) (hwarm : s.dev.warm = none) (hcmd : tallyCmd (decHCmd (c.bytes.take 64)).arg = (tref, operand, opADD))
    (hfn : ¬(c.fn = 0 ∧ bit tref 63 = true)) : exec (.tallyCommand c) s = .next
      ({ (((s.at c.t).popped c.fn c.q).stalls c).tally opADD (hostReq c tref operand) with compl := (s.at c.t).compl } : State).finish := by
  have hno : ¬(opADD = 0 ∨ 7 < opADD ∨ (c.fn = 0 ∧ bit tref 63 = true)) := by
    rintro (h | h | h)
    · exact absurd h (by decide)
    · exact absurd h (by decide)
    · exact hfn h
  change execTallyCommand c s = _
  unfold execTallyCommand
  rw [h.hostTake (by rw [hwarm]; rfl)]
  dsimp only
  rw [hcmd]
  dsimp only
  rw [if_neg hno]
  rfl

/-- The completion of an ADD is the queue's. -/
theorem State.tallyDone_host (h : (z.hq c.fn c.q).wait = some (c.bytes.take 64)) : z.tallyDone (.hostq c.fn c.q) 0 =
    (z.setHq c.fn c.q { z.hq c.fn c.q with wait := none }).complete c.fn c.q (decHCmd (c.bytes.take 64)).cid hsOK 0 (decHCmd (c.bytes.take 64)).notify := by
  change z.hqEnd c.fn c.q hsOK 0 = _
  unfold State.hqEnd
  rw [h]

/-- The queue behind the command: as it was taken. -/
theorem State.unstalled_worked {x : State} (hripe : x.ripe c 3) (hqs : z.hqs = ((x.popped c.fn c.q).stalls c).hqs) (hring : z.ringAs x) :
    (z.hq c.fn c.q).wait = some (c.bytes.take 64) ∧ (z.setHq c.fn c.q { z.hq c.fn c.q with wait := none }).worked x c := by
  have hpop := State.worked_popped (s := x) (c := c) hripe.length
  have hplen : 8 * c.fn + c.q < (x.popped c.fn c.q).hqs.length := by rw [hpop.length]; exact hripe.length
  have hstall : ((x.popped c.fn c.q).stalls c).hq c.fn c.q = { (x.hq c.fn c.q).taken with wait := some (c.bytes.take 64) } := by
    rw [State.stalls, State.setHq_hq_same _ _ hplen, hpop.queue]
  have hz : z.hq c.fn c.q = { (x.hq c.fn c.q).taken with wait := some (c.bytes.take 64) } := by
    rw [State.hq, hqs]
    exact hstall
  have hlen : z.hqs.length = x.hqs.length := by
    rw [hqs, State.stalls, State.setHq_hqs_length]
    exact hpop.length
  have hzlen : 8 * c.fn + c.q < z.hqs.length := by rw [hlen]; exact hripe.length
  obtain ⟨-, -, -, -, hwait, -, -⟩ := hripe.parts
  refine ⟨by rw [hz], ?_, fun i hi => ?_, ?_, fun o h1 h2 => hring o h1 h2⟩
  · rw [State.setHq_hq_same _ _ hzlen, hz]
    change ({ (x.hq c.fn c.q).taken with wait := none } : HQueue) = _
    rw [← hwait]
    rfl
  · rw [State.setHq_hqs_of_ne _ _ hi, hqs, State.stalls, State.setHq_hqs_of_ne _ _ hi]
    exact hpop.rest i hi
  · rw [State.setHq_hqs_length, hlen]

theorem host_tally (hcalm : s.calm) (h : (s.at c.t).takesHost c 3)
    (hcmd : tallyCmd (decHCmd (c.bytes.take 64)).arg = (tref, operand, opADD)) (hfn : ¬(c.fn = 0 ∧ bit tref 63 = true))
    (hq : (s.at c.t).quiet w) (hok : (s.at c.t).tallyOk opADD (hostReq c tref operand) w) :
    ∃ u, exec (.tallyCommand c) s = .next u
      ∧ u.tword w = (if 2 ^ 56 ≤ ((s.at c.t).tword w).value + operand then { (s.at c.t).tword w with err := true }
                     else { (s.at c.t).tword w with value := ((s.at c.t).tword w).value + operand })
      ∧ u.answered (s.at c.t) c hsOK 0 ∧ u.sync.waits = s.sync.waits ∧ u.wordAs (s.at c.t) w ∧ u.keeps (s.at c.t) tallyPieces := by
  have hripe := State.ripe_of_takesHost h
  have hexec := exec_tallyCommand hripe (by have := hok.2.1; rwa [State.at_dev] at this) hcmd hfn
  have hcalmv := s.at_calm c.t hcalm
  have hsync : (s.at c.t).sync = s.sync := s.at_sync c.t
  rw [← hsync]
  generalize s.at c.t = x at *
  have hstalls : ((x.popped c.fn c.q).stalls c).keeps x [.hqs] := (State.setHq_keeps _ _ _ _).after (x.popped_keeps _ _)
  have hokp := hstalls.tallyOk hok
  have hqp := hstalls.quietWord hq
  have hwaits : ((x.popped c.fn c.q).stalls c).sync.waits = x.sync.waits := by rw [hstalls .sync (by decide)]
  have hring0 : ((x.popped c.fn c.q).stalls c).ringAs x := hstalls.ringAs
  have hqs0 : ∀ z : State, z.hqs = ((x.popped c.fn c.q).stalls c).hqs → z.ringAs x → _ := fun z => State.unstalled_worked (z := z) hripe
  generalize hp : (x.popped c.fn c.q).stalls c = p at *
  have hadd := State.tally_add hokp hqp
  have hself : ({ p.tally opADD (hostReq c tref operand) with compl := x.compl } : State) = p.tally opADD (hostReq c tref operand) := by
    rw [← hstalls .compl (by decide), ← hadd.keeps .compl (by decide)]
  rw [hself] at hexec
  have htword : p.tword w = x.tword w := hstalls.tword w
  rw [htword, hwaits] at hadd
  have hf : (p.tally opADD (hostReq c tref operand)).dev.fall = none := hadd.keeps.calm (hstalls.calm hcalmv)
  have hdone := hadd.finish hf
  have hans : (p.tally opADD (hostReq c tref operand)).finish.answered x c hsOK 0 := by
    refine State.answered.congr ?_ (State.finish_hqs _ hf) (State.finish_hostW _ hf)
    have hokp' := hokp
    obtain ⟨-, -, -, hres, -, -, -, hbad⟩ := hokp
    have htouch := State.touch_word_keeps hres
    have hz := (p.touch_worded hres [.sync, .mem, .regs, .ktl, .ints]).tallyAdd hbad hqp.1 hqp.2.1 hqp.2.2 (hostReq c tref operand).part operand
    have hzring := ((State.tallyAdd_ringAs (operand := operand) (htouch.quietWord hqp) (by rw [htouch.wordBad]; exact hbad)
      (hostReq c tref operand).part).trans (p.touch_ringAs w.addr 1)).trans hring0
    obtain ⟨hwait, hworked⟩ := hqs0 _ (hz.keeps .hqs (by decide)) hzring
    rw [State.tally_of_ok hokp', State.tallyRun, if_neg (by decide), if_pos rfl]
    change (((p.touch w.addr).tallyAdd w (hostReq c tref operand).part operand).tallyDone (.hostq c.fn c.q) 0).answered x c hsOK 0
    rw [State.tallyDone_host hwait]
    exact hworked.answered hripe
  refine ⟨_, hexec, hdone.value, hans, hdone.waits, ⟨?_, ?_⟩, ?_⟩
  · exact hdone.ctrs.trans (congrArg SyncSt.ctrs (hstalls .sync (by decide)))
  · exact State.memAs_trans hdone.bytes (hstalls.memAs _ _)
  · exact State.keeps_trans hdone.keeps hstalls.widen

end Sys2Proof.Machine
end

section
/-! SUPPORT. The bytes of a COPY of a host queue: written in blocks at their device address (20_host_interface.md R437; 12_memory.md R294, R296). -/

namespace Sys2Proof.Machine

set_option Elab.async false

variable {s u v w : State} {c : HostIn} {h : HCmd} {m : Mover} {data : List Byte} {a n b k dst len : Nat}

/-! ### What a request that wakes field stores leaves of memory -/

/-- The control word that the waking of a domain sets lies in a range. -/
def wakesIn (b k d : Nat) : Prop := 144 ≤ d → d < 160 → b ≤ storeBase (d - 144) + stControl ∧ storeBase (d - 144) + stControl + 8 ≤ b + k

theorem State.touchDom_memAs {d : Nat} (hd : wakesIn b k d) : (s.touchDom d).memAs s b k := by
  unfold State.touchDom
  split
  next hc =>
    refine State.memAs_trans (State.memAs_of_mem_eq (State.inc_mem _ _ _) (State.inc_psn _ _ _) _ _) ?_
    unfold State.wakeDom
    rw [if_pos hc]
    dsimp only
    have hset : (s.setDom d { s.dom d with st := .waking, wakes := (s.dom d).wakes + 1 }).memAs s b k := (s.setDom_keeps _ _).memAs _ _
    split
    next hst =>
      obtain ⟨hlo, hhi⟩ := hd hst.1 hst.2
      obtain ⟨o, ho⟩ := Nat.exists_eq_add_of_le hlo
      have hshut := (s.setDom d { s.dom d with st := .waking, wakes := (s.dom d).wakes + 1 }).shut_memAs (d - 144)
      rw [ho] at hshut
      exact State.memAs_trans (memAs_sub hshut (by omega)) hset
    · exact hset
  · exact s.memAs_refl _ _

/-- A request for a range changes no byte but the control words of the field stores in it. -/
theorem State.touch_memAs (h : ∀ x d, a ≤ x → x ≤ a + (n - 1) → domOf x = some d → wakesIn b k d) : (s.touch a n).memAs s b k := by
  have hall : ∀ d ∈ domsOf a n, wakesIn b k d := by
    intro d hd
    obtain ⟨i, hi, hdom⟩ := List.mem_filterMap.mp (List.mem_eraseDups.mp hd)
    have hi := List.mem_range.mp hi
    exact h _ d (by omega) (by omega) hdom
  unfold State.touch
  generalize domsOf a n = l at hall
  induction l generalizing s with
  | nil => exact s.memAs_refl _ _
  | cons d l ih =>
    exact State.memAs_trans (ih fun e he => hall e (List.mem_cons_of_mem _ he)) (State.touchDom_memAs (hall d List.mem_cons_self))

/-! ### Blocks written -/

/-- The blocks that host memory gave, written. -/
def State.puts (s : State) (dst : Nat) (data : List Byte) (bs : List (Nat × Nat)) : State :=
  bs.foldl (fun s e => (s.defBuf (dst + e.1) e.2).store (dst + e.1) (slice data e.1 e.2)) s

theorem State.puts_leaves (s : State) (dst : Nat) (data : List Byte) (bs : List (Nat × Nat)) : (s.puts dst data bs).leaves s [.mem, .regs, .dev] :=
  State.leaves_foldl _ (fun v e => (State.store_keeps _ _ _).leaves.trans (v.defBuf_leaves _ _).mono) (s.leaves_refl _)

theorem State.defBuf_ringAs (s : State) (a n : Nat) : (s.defBuf a n).ringAs s := (s.defBuf_leaves a n).keeps.ringAs

theorem State.puts_ringAs (s : State) (dst : Nat) (data : List Byte) (bs : List (Nat × Nat)) : (s.puts dst data bs).ringAs s := by
  unfold State.puts
  induction bs generalizing s with
  | nil => exact s.ringAs_refl
  | cons e bs ih => exact (ih _).trans ((State.store_spares _ _ _).ringAs.trans (s.defBuf_ringAs _ _))

theorem mem_linesOf {l : Nat} (hn : n ≠ 0) : l ∈ linesOf a n ↔ a / 64 ≤ l ∧ l ≤ (a + n - 1) / 64 := by
  rw [linesOf, if_neg hn]
  simp only [List.mem_map, List.mem_range]
  exact ⟨fun ⟨i, hi, he⟩ => by omega, fun hl => ⟨l - a / 64, by omega, by omega⟩⟩

theorem foldl_set_false (l : List Nat) (f : Nat → Bool) (t : Tab Bool) {x : Nat} (h : t.get false x = false ∨ x ∈ l ∧ f x = true) :
    (l.foldl (fun t y => if f y = true then t.set false y false else t) t).get false x = false := by
  induction l generalizing t with
  | nil => exact h.resolve_right (by simp)
  | cons y l ih =>
    refine ih _ ?_
    dsimp only
    by_cases hxy : x = y ∧ f y = true
    · rw [if_pos hxy.2, hxy.1]
      exact .inl (Tab.get_set_same _ _ _ _)
    · rcases h with h | ⟨hmem, hf⟩
      · refine .inl ?_
        split
        next hy => rw [Tab.get_set_ne _ _ _ _ _ _ fun e => hxy ⟨e, hy⟩]; exact h
        · exact h
      · rcases List.mem_cons.mp hmem with rfl | hmem
        · exact absurd ⟨rfl, hf⟩ hxy
        · exact .inr ⟨hmem, hf⟩

/-- A line is not poisoned once a store has covered it. -/
theorem State.store_mark {l : Nat} (h : s.psn.get false l = false ∨ a ≤ 64 * l ∧ 64 * l + 64 ≤ a + data.length) :
    (s.store a data).psn.get false l = false := by
  have hget := foldl_set_false (linesOf a data.length) (fun y => decide (a ≤ 64 * y ∧ 64 * y + 64 ≤ a + data.length)) s.psn (x := l)
    (h.imp_right fun hl => ⟨(mem_linesOf (by omega)).mpr (by omega), by simpa using hl⟩)
  rw [State.store_psn]
  simpa [State.heal] using hget

theorem length_slice {o : Nat} (h : o + n ≤ data.length) : (slice data o n).length = n := by
  rw [slice, List.length_take, List.length_drop]
  omega

theorem getD_slice {o i : Nat} (hi : i < n) : (slice data o n).getD i 0#8 = data.getD (o + i) 0#8 := by
  rw [slice, List.getD_eq_getElem?_getD, List.getD_eq_getElem?_getD, List.getElem?_take_of_lt hi, List.getElem?_drop]

/-- A byte stands once a block with it has been written, and a line is good once a block that holds it whole has been. -/
theorem State.puts_after (bs : List (Nat × Nat)) (hle : ∀ e ∈ bs, e.1 + e.2 ≤ len) (hdata : len ≤ data.length) :
    (s.puts dst data bs).memAs s dst len
    ∧ (∀ i < len, (s.mem.get 0#8 (dst + i) = data.getD i 0#8 ∨ ∃ e ∈ bs, e.1 ≤ i ∧ i < e.1 + e.2) →
        (s.puts dst data bs).mem.get 0#8 (dst + i) = data.getD i 0#8)
    ∧ ∀ l, (s.psn.get false l = false ∨ ∃ e ∈ bs, dst + e.1 ≤ 64 * l ∧ 64 * l + 64 ≤ dst + e.1 + e.2) →
        (s.puts dst data bs).psn.get false l = false := by
  induction bs generalizing s with
  | nil => exact ⟨s.memAs_refl _ _, fun i hi h => h.resolve_right (by simp), fun l h => h.resolve_right (by simp)⟩
  | cons e bs ih =>
    have hfit := hle e List.mem_cons_self
    have hlen : (slice data e.1 e.2).length = e.2 := length_slice (by omega)
    obtain ⟨hdmem, hdpsn⟩ := s.defBuf_bytes (dst + e.1) e.2
    have hstore := (s.defBuf (dst + e.1) e.2).store_memAs (dst + e.1) (slice data e.1 e.2)
    rw [hlen] at hstore
    have hone : ((s.defBuf (dst + e.1) e.2).store (dst + e.1) (slice data e.1 e.2)).memAs s dst len :=
      State.memAs_trans (memAs_sub hstore hfit) (State.memAs_of_mem_eq hdmem hdpsn _ _)
    have hbyte (i : Nat) : ((s.defBuf (dst + e.1) e.2).store (dst + e.1) (slice data e.1 e.2)).mem.get 0#8 (dst + i)
        = if e.1 ≤ i ∧ i < e.1 + e.2 then data.getD i 0#8 else s.mem.get 0#8 (dst + i) := by
      rw [State.store_mem]
      change (Machine.poke (s.defBuf (dst + e.1) e.2).mem (dst + e.1) (slice data e.1 e.2)).get 0#8 (dst + i) = _
      rw [get_poke, hlen, hdmem]
      by_cases hin : e.1 ≤ i ∧ i < e.1 + e.2
      · rw [if_pos hin, if_pos (by omega), getD_slice (by omega)]
        congr 1
        omega
      · rw [if_neg hin, if_neg (by omega)]
    have hmark (l : Nat) (hl : s.psn.get false l = false ∨ dst + e.1 ≤ 64 * l ∧ 64 * l + 64 ≤ dst + e.1 + e.2) :
        ((s.defBuf (dst + e.1) e.2).store (dst + e.1) (slice data e.1 e.2)).psn.get false l = false :=
      State.store_mark (by rw [hdpsn, hlen]; exact hl)
    generalize hz : (s.defBuf (dst + e.1) e.2).store (dst + e.1) (slice data e.1 e.2) = z at *
    have hstep : s.puts dst data (e :: bs) = z.puts dst data bs := by rw [← hz]; rfl
    rw [hstep]
    obtain ⟨hrest, hgood, hwhole⟩ := ih (s := z) fun x hx => hle x (List.mem_cons_of_mem _ hx)
    refine ⟨State.memAs_trans hrest hone, fun i hi h => hgood i hi ?_, fun l h => hwhole l ?_⟩
    · rw [hbyte]
      by_cases hin : e.1 ≤ i ∧ i < e.1 + e.2
      · exact .inl (if_pos hin)
      · rw [if_neg hin]
        refine h.imp_right fun ⟨x, hx, hxi⟩ => ?_
        rcases List.mem_cons.mp hx with rfl | hx
        · exact absurd hxi hin
        · exact ⟨x, hx, hxi⟩
    · rcases h with h | ⟨x, hx, hxl⟩
      · exact .inl (hmark l (.inl h))
      · rcases List.mem_cons.mp hx with rfl | hx
        · exact .inl (hmark l (.inr hxl))
        · exact .inr ⟨x, hx, hxl⟩

/-- A line of a transfer in whole lines lies in one block. -/
theorem blocksOf_line {l : Nat} (hdst : dst % 64 = 0) (hlen : len % 64 = 0) (hlo : dst ≤ 64 * l) (hhi : 64 * l < dst + len) :
    ∃ e ∈ blocksOf dst len, dst + e.1 ≤ 64 * l ∧ 64 * l + 64 ≤ dst + e.1 + e.2 := by
  obtain ⟨e, he, h1, h2⟩ := blocksOf_cover (dst := dst) (len := len) (i := 64 * l - dst) (by omega)
  refine ⟨e, he, ?_⟩
  obtain ⟨-, i, hi, rfl⟩ := mem_blocksOf.mp he
  dsimp only at h1 h2 ⊢
  split at h1 <;> simp_all <;> omega

/-- The bytes that a whole transfer leaves. -/
theorem State.puts_all (hdata : len ≤ data.length) :
    (s.puts dst data (blocksOf dst len)).memAs s dst len ∧ (s.puts dst data (blocksOf dst len)).peek dst len = data.take len
    ∧ (dst % 64 = 0 → len % 64 = 0 → (s.puts dst data (blocksOf dst len)).poisoned dst len = false) := by
  obtain ⟨hmem, hbytes, hmarks⟩ := State.puts_after (s := s) (dst := dst) (blocksOf dst len) blocksOf_bound hdata
  refine ⟨hmem, ?_, fun hd hl => ?_⟩
  · refine List.ext_getElem (by simp [State.peek, Machine.peek, hdata]) fun i hi _ => ?_
    have hi' : i < len := by simpa [State.peek, Machine.peek] using hi
    have hb := hbytes i hi' (.inr (blocksOf_cover hi'))
    simp only [State.peek, Machine.peek, List.getElem_map, List.getElem_range, List.getElem_take]
    rw [hb, List.getD_eq_getElem _ _ (by omega)]
  · refine List.any_eq_false.mpr fun l hmeml => ?_
    by_cases hzero : len = 0
    · subst hzero
      exact absurd hmeml (by simp [linesOf])
    · obtain ⟨h1, h2⟩ := (mem_linesOf hzero).mp hmeml
      rw [hmarks l (.inr (blocksOf_line hd hl (by omega) (by omega)))]
      decide

/-! ### COPY_IN -/

theorem foldl_zipIdx {α β : Type} (f : β → α → β) (l : List α) (y : β) (i : Nat) : (l.zipIdx i).foldl (fun y e => f y e.1) y = l.foldl f y := by
  induction l generalizing y i with
  | nil => rfl
  | cons x l ih => exact ih _ _

theorem State.copyIn_eq (hpcie : c.pcie = true) (hretry : c.retry = []) (hfail : c.fail = []) (hcheck : h.check = false)
    (hfw : s.fwOk m.who true (s.near h.dev) h.len = true) :
    s.copyIn m c h = ((s.touch (s.near h.dev) h.len).puts (s.near h.dev) c.data (blocksOf (s.near h.dev) h.len), hsOK) := by
  have hfold := foldl_zipIdx (fun (v : State) (e : Nat × Nat) => (v.defBuf (s.near h.dev + e.1) e.2).store (s.near h.dev + e.1) (slice c.data e.1 e.2))
    (blocksOf (s.near h.dev) h.len) (s.touch (s.near h.dev) h.len) 0
  unfold State.copyIn State.puts
  dsimp only
  rw [← hfold, hfw, hpcie, hretry, hfail, hcheck]
  rfl

/-- What a COPY_IN leaves: the bytes at their device address, and no other byte changed. -/
structure State.broughtIn (u s : State) (dst len : Nat) (data : List Byte) : Prop where
  leaves : u.leaves s [.regs, .mem, .ktl, .dev]
  ring : u.ringAs s
  bytes : u.memAs s dst len
  value : u.peek dst len = data.take len
  good : dst % 64 = 0 → len % 64 = 0 → u.poisoned dst len = false

theorem State.puts_touched (hdata : len ≤ data.length) (hdom : ∀ x d, dst ≤ x → x ≤ dst + (len - 1) → domOf x = some d → wakesIn dst len d) :
    ((s.touch dst len).puts dst data (blocksOf dst len)).broughtIn s dst len data := by
  obtain ⟨hmem, hpeek, hgood⟩ := State.puts_all (s := s.touch dst len) (dst := dst) hdata
  exact ⟨(State.puts_leaves _ _ _ _).mono.trans (State.touch_keeps _ _ _).leaves, (State.puts_ringAs _ _ _ _).trans (s.touch_ringAs _ _),
    State.memAs_trans hmem (State.touch_memAs hdom), hpeek, hgood⟩

end Sys2Proof.Machine
end

section
/-! SUPPORT. The physical function's COPY commands (20_host_interface.md R437, R438). -/

namespace Sys2Proof.Machine

set_option Elab.async false

variable {s u v w x : State} {l : List Piece} {c : HostIn} {h : HCmd} {data : List Byte} {a n dst len op status result : Nat}

/-! ### What a command leaves of memory -/

theorem State.keeps.peek (h : u.keeps v l) (a n : Nat) (hl : .mem ∉ l := by decide) : u.peek a n = v.peek a n :=
  peek_congr fun y _ _ => h.bytes y hl

theorem State.keeps.poisoned (h : u.keeps v l) (a n : Nat) (hl : .mem ∉ l := by decide) : u.poisoned a n = v.poisoned a n := by
  have hpsn (y : Nat) : u.psn.get false y = v.psn.get false y := (h .mem hl).2 y (by omega)
  simp only [State.poisoned, hpsn]

/-! ### The form of a COPY -/

structure HCmd.wellFormed (h : HCmd) : Prop where
  lines : h.len % 64 = 0
  length : 64 ≤ h.len ∧ h.len ≤ 0x40000000
  dev : h.dev % 64 = 0

theorem State.ripe.copy (h : s.ripe c op) (hop : op = 1 ∨ op = 2) : (decHCmd (c.bytes.take 64)).wellFormed := by
  have hok := h.ok
  have hkind := h.kind
  generalize c.bytes.take 64 = b at hok hkind ⊢
  have hcopy : (leAt b 0 1 == 1 || leAt b 0 1 == 2) = true := by
    change leAt b 0 1 = op at hkind
    rw [hkind]
    rcases hop with rfl | rfl <;> rfl
  unfold decHCmd at hok
  dsimp only at hok
  rw [hcopy, if_pos rfl] at hok
  simp only [Bool.and_eq_true, decide_eq_true_eq, beq_iff_eq] at hok
  obtain ⟨-, ⟨⟨⟨⟨⟨h1, h2⟩, h3⟩, -⟩, h4⟩, -⟩, -⟩ := hok
  exact ⟨h1, ⟨h2, h3⟩, h4⟩

theorem State.near_aligned (s : State) (ha : a % 64 = 0) : s.near a % 64 = 0 := by
  unfold State.near window?
  by_cases hw : farBase ≤ a ∧ a < farBase + 8 * 2 ^ 43
  · rw [if_pos hw]
    dsimp only
    split <;> omega
  · rw [if_neg hw]
    exact ha

/-! ### COPY_IN -/

/-- The physical function writes HBM alone. -/
theorem State.hbm_of_pf_write (h : s.fwOk .pf true a n = true) : fwTarget a = 0 ∧ a + n ≤ 0xC00000000 := by
  unfold State.fwOk at h
  obtain ⟨-, h⟩ := Bool.and_eq_true_iff.mp h
  split at h
  next ht =>
    refine ⟨ht, ?_⟩
    unfold State.fwHbm at h
    simp only [Bool.and_eq_true, decide_eq_true_eq] at h
    exact h.2.1.1
  · unfold State.fwPad at h
    simp at h
  all_goals simp at h

theorem domOf_hbm (h : a < 0x10000000000) : domOf a = none := if_pos (.inl h)

theorem exec_copyIn_pf (hfn : c.fn = 0) (hwarm : s.dev.warm = none) (hripe : (s.at c.t).ripe c 1) (hpcie : c.pcie = true) (hretry : c.retry = [])
    (hfail : c.fail = []) (hcheck : (decHCmd (c.bytes.take 64)).check = false) (hlen : (decHCmd (c.bytes.take 64)).len ≤ c.data.length)
    (hnear : ((s.at c.t).popped c.fn c.q).near (decHCmd (c.bytes.take 64)).dev = dst)
    (hfw : ((s.at c.t).popped c.fn c.q).fwOk .pf true dst (decHCmd (c.bytes.take 64)).len = true) :
    exec (.copyIn c) s = .next (((((s.at c.t).popped c.fn c.q).touch dst (decHCmd (c.bytes.take 64)).len).puts dst c.data
      (blocksOf dst (decHCmd (c.bytes.take 64)).len)).complete c.fn c.q (decHCmd (c.bytes.take 64)).cid hsOK 0 (decHCmd (c.bytes.take 64)).notify).finish := by
  have hgives : (s.dev.warm.isNone && hostGives c (decHCmd (c.bytes.take 64)) true) = true := by
    rw [hwarm, hostGives, decide_eq_true hlen, Bool.or_true]
    rfl
  have hcopy := State.copyIn_eq (m := { who := .pf, tag := hostTag 0 }) hpcie hretry hfail hcheck (by rw [hnear]; exact hfw)
  rw [hnear] at hcopy
  change (s.takeCopy c true).done = _
  unfold State.takeCopy
  dsimp only
  rw [if_pos hfn, if_pos rfl, hripe.hostTake hgives]
  unfold State.hostCopy
  dsimp only
  rw [if_pos rfl, hcopy, hcheck]
  rfl

theorem host_copyIn_pf (hcalm : s.calm) (hfn : c.fn = 0) (hwarm : s.dev.warm = none) (hretry : c.retry = []) (hfail : c.fail = [])
    (hcheck : (decHCmd (c.bytes.take 64)).check = false) (h : (s.at c.t).takesHost c 1) (hpcie : c.pcie = true)
    (hlen : (decHCmd (c.bytes.take 64)).len ≤ c.data.length)
    (hfw : (s.at c.t).fwOk .pf true ((s.at c.t).near (decHCmd (c.bytes.take 64)).dev) (decHCmd (c.bytes.take 64)).len = true) :
    ∃ u, exec (.copyIn c) s = .next u
      ∧ u.peek ((s.at c.t).near (decHCmd (c.bytes.take 64)).dev) (decHCmd (c.bytes.take 64)).len = c.data.take (decHCmd (c.bytes.take 64)).len
      ∧ u.poisoned ((s.at c.t).near (decHCmd (c.bytes.take 64)).dev) (decHCmd (c.bytes.take 64)).len = false
      ∧ u.memAs (s.at c.t) ((s.at c.t).near (decHCmd (c.bytes.take 64)).dev) (decHCmd (c.bytes.take 64)).len
      ∧ u.answered (s.at c.t) c hsOK 0 ∧ u.keeps (s.at c.t) [.hqs, .host, .ints, .regs, .mem, .ktl, .dev] := by
  have hripe := State.ripe_of_takesHost h
  have hform := hripe.copy (.inl rfl)
  have hpop := (s.at c.t).popped_keeps c.fn c.q
  have hexec := exec_copyIn_pf hfn hwarm hripe hpcie hretry hfail hcheck hlen (hpop.knownAs.near _) (by rw [hpop.fwOk]; exact hfw)
  have halign := (s.at c.t).near_aligned hform.dev
  have hcalmv := s.at_calm c.t hcalm
  generalize (s.at c.t).near (decHCmd (c.bytes.take 64)).dev = dst at *
  generalize s.at c.t = x at *
  obtain ⟨-, hend⟩ := State.hbm_of_pf_write hfw
  have hin := State.puts_touched (s := x.popped c.fn c.q) (dst := dst) hlen fun y d _ hy hd => by
    have := hform.length
    rw [domOf_hbm (by omega)] at hd
    exact absurd hd (by simp)
  generalize ((x.popped c.fn c.q).touch dst (decHCmd (c.bytes.take 64)).len).puts dst c.data (blocksOf dst (decHCmd (c.bytes.take 64)).len) = z at *
  have hw : z.worked x c := (State.worked_popped hripe.length).after (hin.leaves.keeps .hqs (by decide)) hin.ring
  have hc := z.complete_keeps c.fn c.q (decHCmd (c.bytes.take 64)).cid hsOK 0 (decHCmd (c.bytes.take 64)).notify
  have hans := hw.answered (status := hsOK) (result := 0) hripe
  have hall : (z.complete c.fn c.q (decHCmd (c.bytes.take 64)).cid hsOK 0 (decHCmd (c.bytes.take 64)).notify).leaves x
      [.hqs, .host, .ints, .regs, .mem, .ktl, .dev] := hc.leaves.trans (hin.leaves.mono.trans hpop.leaves)
  have hmem := State.memAs_trans (hc.memAs dst (decHCmd (c.bytes.take 64)).len) (State.memAs_trans hin.bytes (hpop.memAs _ _))
  have hpeek := (hc.peek dst (decHCmd (c.bytes.take 64)).len).trans hin.value
  have hgood := (hc.poisoned dst (decHCmd (c.bytes.take 64)).len).trans (hin.good halign hform.lines)
  generalize z.complete c.fn c.q (decHCmd (c.bytes.take 64)).cid hsOK 0 (decHCmd (c.bytes.take 64)).notify = y at *
  have hf := hall.calm hcalmv
  obtain ⟨hfmem, hfpsn⟩ := State.finish_bytes hf
  refine ⟨_, hexec, (State.peek_finish hf _ _).trans hpeek, ?_, State.memAs_trans (State.memAs_of_mem_eq hfmem hfpsn _ _) hmem,
    hans.congr (State.finish_hqs _ hf) (State.finish_hostW _ hf), State.finish_keeps_of hf hall.keeps⟩
  rw [State.poisoned, hfpsn]
  exact hgood

end Sys2Proof.Machine
end

section
/-! SUPPORT. The physical function's COPY_OUT: the blocks read, posted to host memory (20_host_interface.md R437, R438). -/

namespace Sys2Proof.Machine

set_option Elab.async false

variable {s u v w x z : State} {l : List Piece} {c : HostIn} {h : HCmd} {m : Mover} {a n src len host cid status result : Nat} {notify : Bool}

/-! ### Poison while a range is read -/

theorem State.touchDom_mark (s : State) (d : Nat) {y : Nat} (h : s.psn.get false y = false) : (s.touchDom d).psn.get false y = false := by
  unfold State.touchDom
  split
  next hc =>
    rw [State.inc_psn]
    unfold State.wakeDom
    rw [if_pos hc]
    dsimp only
    split
    · exact State.store_mark (.inl h)
    · exact h
  · exact h

theorem State.touch_mark (s : State) (a n : Nat) {y : Nat} (h : s.psn.get false y = false) : (s.touch a n).psn.get false y = false := by
  unfold State.touch
  generalize domsOf a n = ds
  induction ds generalizing s with
  | nil => exact h
  | cons d ds ih => exact ih _ (s.touchDom_mark d h)

theorem State.settleBuf_psn (s : State) (a n : Nat) : (s.settleBuf a n).psn = s.psn := by
  rw [State.settleBuf_eq]
  split
  · rfl
  · exact foldl_field (·.psn) (fun (v : State) i => v.poke i [Config.bufByte v.dev.bufGen i]) (fun _ _ => rfl) _ s

theorem State.poisoned_iff : s.poisoned a n = false ↔ ∀ y ∈ linesOf a n, s.psn.get false y = false := by
  simp [State.poisoned]

theorem State.read_unpoisoned (h : s.poisoned a n = false) : ((s.touch a n).settleBuf a n).poisoned a n = false := by
  rw [State.poisoned_iff] at h ⊢
  intro y hy
  rw [State.settleBuf_psn]
  exact s.touch_mark a n (h y hy)

theorem State.poisoned_sub (h : s.poisoned src len = false) {o : Nat} (hle : o + n ≤ len) : s.poisoned (src + o) n = false := by
  rw [State.poisoned_iff] at h ⊢
  intro y hy
  by_cases hn : n = 0
  · subst hn
    exact absurd hy (by simp [linesOf])
  · obtain ⟨h1, h2⟩ := (mem_linesOf hn).mp hy
    exact h y ((mem_linesOf (by omega)).mpr ⟨by omega, by omega⟩)

/-! ### Blocks posted -/

/-- The blocks of a range posted to host memory. -/
def State.sends (s : State) (src host : Nat) (bs : List (Nat × Nat)) : State :=
  bs.foldl (fun s e => s.toHost (host + e.1) (s.peek (src + e.1) e.2)) s

theorem State.sends_keeps (s : State) (src host : Nat) (bs : List (Nat × Nat)) : (s.sends src host bs).keeps s [.host] :=
  State.keeps_foldl (fun _ _ => State.toHost_keeps _ _ _) (s.keeps_refl _) _

theorem State.mem_sends (bs : List (Nat × Nat)) : (∀ y ∈ s.hostW, y ∈ (s.sends src host bs).hostW)
    ∧ ∀ e ∈ bs, ({ addr := host + e.1, data := s.peek (src + e.1) e.2 } : HostWrite) ∈ (s.sends src host bs).hostW := by
  induction bs generalizing s with
  | nil => exact ⟨fun _ hy => hy, fun e he => absurd he (by simp)⟩
  | cons e bs ih =>
    obtain ⟨hold, hnew⟩ := ih (s := s.toHost (host + e.1) (s.peek (src + e.1) e.2))
    refine ⟨fun y hy => hold y (List.mem_cons_of_mem _ hy), fun f hf => ?_⟩
    rcases List.mem_cons.mp hf with rfl | hf
    · exact hold _ List.mem_cons_self
    · exact hnew f hf

/-! ### COPY_OUT -/

/-- One block of a COPY_OUT. -/
def State.sendBlock (s : State) (m : Mover) (c : HostIn) (src host : Nat) (e : (Nat × Nat) × Nat) : State :=
  let a := src + e.1.1
  if c.fail.contains e.2 then s.hostBlock m a false
  else
    let s := if s.poisoned a e.1.2 then
        (linesOf a e.1.2).foldl (fun s l => if s.psn.get false l then s else s.toHost (host + (64 * l - src)) (s.peek (64 * l) 64)) s
      else s.toHost (host + e.1.1) (s.peek a e.1.2)
    if c.retry.contains e.2 then s.hostBlock m a true else s

theorem State.sendBlock_eq {e : (Nat × Nat) × Nat} (hretry : c.retry = []) (hfail : c.fail = []) (hok : s.poisoned (src + e.1.1) e.1.2 = false) :
    s.sendBlock m c src host e = s.toHost (host + e.1.1) (s.peek (src + e.1.1) e.1.2) := by
  unfold State.sendBlock
  dsimp only
  rw [hretry, hfail, hok]
  rfl

theorem State.sendBlocks_eq (hretry : c.retry = []) (hfail : c.fail = []) (bs : List (Nat × Nat)) (i : Nat)
    (hok : ∀ e ∈ bs, s.poisoned (src + e.1) e.2 = false) :
    (bs.zipIdx i).foldl (fun s e => s.sendBlock m c src host e) s = s.sends src host bs := by
  induction bs generalizing s i with
  | nil => rfl
  | cons e bs ih =>
    have hone : s.sendBlock m c src host (e, i) = s.toHost (host + e.1) (s.peek (src + e.1) e.2) :=
      State.sendBlock_eq hretry hfail (hok e List.mem_cons_self)
    change (bs.zipIdx (i + 1)).foldl (fun s e => s.sendBlock m c src host e) (s.sendBlock m c src host (e, i)) = _
    rw [hone]
    exact ih _ fun f hf => hok f (List.mem_cons_of_mem _ hf)

/-- A range read by the host interface. -/
def State.readBy (s : State) (src len : Nat) : State := (s.touch src len).settleBuf src len

theorem State.copyOut_eq (hitem : m.item = none) (hretry : c.retry = []) (hfail : c.fail = []) (hcheck : h.check = false) (hnear : s.near h.dev = src)
    (hfw : s.fwOk m.who false src h.len = true) (hok : s.poisoned src h.len = false) :
    s.copyOut m c h = ((s.readBy src h.len).sends src h.host (blocksOf h.host h.len), hsOK) := by
  have hread : (s.readBy src h.len).poisoned src h.len = false := State.read_unpoisoned hok
  have hfold := State.sendBlocks_eq (s := s.readBy src h.len) (m := m) (src := src) (host := h.host) hretry hfail (blocksOf h.host h.len) 0
    fun e he => State.poisoned_sub hread (blocksOf_bound e he)
  have hread' : ((s.touch src h.len).settleBuf src h.len).poisoned src h.len = false := hread
  have hbad : c.fail.any (decide <| · < (blocksOf h.host h.len).length) = false := by
    rw [hfail]
    rfl
  unfold State.copyOut
  dsimp only
  rw [hnear, hfw, hitem, hread', ← hfold, hcheck, hbad]
  rfl

theorem exec_copyOut_pf (hfn : c.fn = 0) (hwarm : s.dev.warm = none) (hripe : (s.at c.t).ripe c 2) (hretry : c.retry = [])
    (hfail : c.fail = []) (hcheck : (decHCmd (c.bytes.take 64)).check = false)
    (hnear : ((s.at c.t).popped c.fn c.q).near (decHCmd (c.bytes.take 64)).dev = src)
    (hfw : ((s.at c.t).popped c.fn c.q).fwOk .pf false src (decHCmd (c.bytes.take 64)).len = true)
    (hok : ((s.at c.t).popped c.fn c.q).poisoned src (decHCmd (c.bytes.take 64)).len = false) :
    exec (.copyOut c) s = .next (((((s.at c.t).popped c.fn c.q).readBy src (decHCmd (c.bytes.take 64)).len).sends src (decHCmd (c.bytes.take 64)).host
      (blocksOf (decHCmd (c.bytes.take 64)).host (decHCmd (c.bytes.take 64)).len)).complete c.fn c.q (decHCmd (c.bytes.take 64)).cid hsOK 0
      (decHCmd (c.bytes.take 64)).notify).finish := by
  have hgives : (s.dev.warm.isNone && hostGives c (decHCmd (c.bytes.take 64)) false) = true := by
    rw [hwarm]
    rfl
  have hcopy := State.copyOut_eq (m := { who := .pf, tag := hostTag 0 }) rfl hretry hfail hcheck hnear hfw hok
  change (s.takeCopy c false).done = _
  unfold State.takeCopy
  dsimp only
  rw [if_pos hfn, if_neg (by decide), hripe.hostTake hgives]
  unfold State.hostCopy
  dsimp only
  rw [if_neg (by decide), hcopy, hcheck]
  rfl

/-- A completion takes no write to host memory back. -/
theorem State.complete_hostW (hlen : 8 * c.fn + c.q < s.hqs.length) (hready : (s.hq c.fn c.q).ready = []) (hfull : (s.hq c.fn c.q).cqFull = false)
    {y : HostWrite} (hy : y ∈ s.hostW) : y ∈ (s.complete c.fn c.q cid status result notify).hostW := by
  have hafter := (State.complete_after (cid := cid) (status := status) (result := result) (notify := notify) hlen hready hfull).2
  split at hafter
  · rw [hafter]
    exact hy
  · rw [hafter.2]
    exact List.mem_cons_of_mem _ hy

/-! ### Bytes that a read changes -/

/-- The physical function's read of another memory than a field store wakes no field store. -/
theorem State.wakesIn_of_pf_read (h : s.fwOk .pf false a n = true) (hn : 1 ≤ n ∧ n ≤ 0x40000000) (ht : fwTarget a ≠ 2) (y d : Nat) (hlo : a ≤ y)
    (hhi : y ≤ a + (n - 1)) (hd : domOf y = some d) : wakesIn 0 0 d := by
  unfold State.fwOk at h
  obtain ⟨hsame, h⟩ := Bool.and_eq_true_iff.mp h
  have hsame := of_decide_eq_true hsame
  have hfits (hin : fwTarget a ∈ [0, 1, 2, 3, 4]) : wakesIn 0 0 d := by
    rcases (Fits.mk hsame hin hn fun h2 => absurd h2 ht).dom hlo (by omega) hd with hno | ⟨g, hg, -⟩
    · exact fun h1 h2 => absurd ⟨h1, h2⟩ hno
    · rw [storeAt, if_neg ht] at hg
      exact absurd hg (by simp)
  split at h
  next h0 => exact hfits (by rw [h0]; decide)
  next h0 => exact hfits (by rw [h0]; decide)
  next h0 => exact hfits (by rw [h0]; decide)
  next h0 => exact hfits (by rw [h0]; decide)
  next h0 => exact hfits (by rw [h0]; decide)
  next h0 =>
    have hmail : mailBase ≤ a := by
      by_contra hc
      have hbase : dieBase 0 = 0x10000000000 ∧ dieBase 2 = 0x10200000000 ∧ mailBase = 0x11000000000 := ⟨rfl, rfl, rfl⟩
      unfold fwTarget at h0
      dsimp only at h0
      repeat' split at h0
      all_goals omega
    rw [domOf, if_pos (.inr (by omega))] at hd
    exact absurd hd (by simp)
  · exact absurd h (by decide)

theorem State.readBy_leaves (s : State) (a n : Nat) : (s.readBy a n).leaves s [.mem, .dev, .ktl, .regs] :=
  (State.settleBuf_leaves _ _ _).mono.trans (State.touch_keeps _ _ _).leaves

theorem State.readBy_ringAs (s : State) (a n : Nat) : (s.readBy a n).ringAs s :=
  ((State.settleBuf_leaves _ _ _).keeps.ringAs).trans (s.touch_ringAs _ _)

/-- The domains and the bytes of two states are the same. -/
structure State.storedAs (u s : State) : Prop where
  ktl : u.ktl = s.ktl
  mem : u.mem = s.mem
  psn : u.psn = s.psn

theorem State.storedAs.inc (h : u.storedAs s) (o : Nat) : (u.inc o).storedAs (s.inc o) :=
  ⟨by rw [State.inc_ktl, State.inc_ktl, h.ktl], by rw [State.inc_mem, State.inc_mem, h.mem], by rw [State.inc_psn, State.inc_psn, h.psn]⟩

theorem State.heal_congr (h : u.psn = s.psn) : (u.heal a n).psn = (s.heal a n).psn := by
  rw [State.heal, State.heal, h]

theorem State.storedAs.shut (h : u.storedAs s) (g : Nat) : (u.shut g).storedAs (s.shut g) := by
  refine ⟨by rw [State.shut_ktl, State.shut_ktl, h.ktl], ?_, ?_⟩
  · rw [State.shut, State.shut, State.store_mem, State.store_mem, State.poke, State.poke, State.peekN, State.peekN, h.mem]
  · rw [State.shut, State.shut, State.store_psn, State.store_psn, State.peekN, State.peekN, h.mem]
    exact State.heal_congr h.psn

theorem State.storedAs.touchDom (h : u.storedAs s) (d : Nat) : (u.touchDom d).storedAs (s.touchDom d) := by
  have hdom : u.dom d = s.dom d := by rw [State.dom, State.dom, h.ktl]
  have hset (y : Dom) : (u.setDom d y).storedAs (s.setDom d y) := ⟨by rw [State.setDom, State.setDom, h.ktl], h.mem, h.psn⟩
  unfold State.touchDom State.wakeDom
  rw [hdom]
  split
  · dsimp only
    split
    · exact ((hset _).shut _).inc _
    · exact (hset _).inc _
  · exact h

theorem State.storedAs.touch (h : u.storedAs s) (a n : Nat) : (u.touch a n).storedAs (s.touch a n) := by
  unfold State.touch
  generalize domsOf a n = ds
  induction ds generalizing u s with
  | nil => exact h
  | cons d ds ih => exact ih (h.touchDom d)

/-- A range reads the same whatever the queues hold. -/
theorem State.readBy_popped (s : State) (fn q a n : Nat) : ((s.popped fn q).readBy a n).mem = (s.readBy a n).mem := by
  have hpop : (s.popped fn q).storedAs s := ⟨rfl, rfl, rfl⟩
  have htouch := hpop.touch a n
  have hdev : ((s.popped fn q).touch a n).dev = (s.touch a n).dev :=
    (State.touch_keeps _ a n .dev (by decide)).trans (State.touch_keeps s a n .dev (by decide)).symm
  exact (State.settleBuf_congr hdev htouch.mem htouch.psn).1

theorem State.readBy_plain (hgen : s.dev.bufGen = 0) : s.readBy a n = s.touch a n := by
  have hdev : (s.touch a n).dev = s.dev := State.touch_keeps s a n .dev (by decide)
  rw [State.readBy, State.settleBuf_eq, hdev, if_pos (.inl hgen)]

theorem host_copyOut_pf (hcalm : s.calm) (hfn : c.fn = 0) (hwarm : s.dev.warm = none) (hretry : c.retry = []) (hfail : c.fail = [])
    (hcheck : (decHCmd (c.bytes.take 64)).check = false) (h : (s.at c.t).takesHost c 2)
    (hfw : (s.at c.t).fwOk .pf false ((s.at c.t).near (decHCmd (c.bytes.take 64)).dev) (decHCmd (c.bytes.take 64)).len = true)
    (hok : (s.at c.t).poisoned ((s.at c.t).near (decHCmd (c.bytes.take 64)).dev) (decHCmd (c.bytes.take 64)).len = false) :
    ∃ u, exec (.copyOut c) s = .next u ∧ u.answered (s.at c.t) c hsOK 0
      ∧ (∀ e ∈ blocksOf (decHCmd (c.bytes.take 64)).host (decHCmd (c.bytes.take 64)).len,
          ({ addr := (decHCmd (c.bytes.take 64)).host + e.1
             data := ((s.at c.t).readBy ((s.at c.t).near (decHCmd (c.bytes.take 64)).dev) (decHCmd (c.bytes.take 64)).len).peek
               ((s.at c.t).near (decHCmd (c.bytes.take 64)).dev + e.1) e.2 } : HostWrite) ∈ u.hostW)
      ∧ (fwTarget ((s.at c.t).near (decHCmd (c.bytes.take 64)).dev) ≠ 2 → s.dev.bufGen = 0 → u.memAs (s.at c.t) 0 0 ∧ u.dev = (s.at c.t).dev)
      ∧ u.keeps (s.at c.t) [.hqs, .host, .ints, .regs, .mem, .ktl, .dev] := by
  have hripe := State.ripe_of_takesHost h
  have hpop := (s.at c.t).popped_keeps c.fn c.q
  have hexec := exec_copyOut_pf hfn hwarm hripe hretry hfail hcheck (hpop.knownAs.near _) (by rw [hpop.fwOk]; exact hfw)
    (by rw [hpop.poisoned]; exact hok)
  have hlength := (hripe.copy (.inr rfl)).length
  have hcalmv := s.at_calm c.t hcalm
  rw [← State.at_dev s c.t]
  generalize (s.at c.t).near (decHCmd (c.bytes.take 64)).dev = src at *
  generalize s.at c.t = x at *
  have hread := (x.popped c.fn c.q).readBy_leaves src (decHCmd (c.bytes.take 64)).len
  have hring := (x.popped c.fn c.q).readBy_ringAs src (decHCmd (c.bytes.take 64)).len
  have hsame : (x.readBy src (decHCmd (c.bytes.take 64)).len).mem = ((x.popped c.fn c.q).readBy src (decHCmd (c.bytes.take 64)).len).mem :=
    (x.readBy_popped _ _ _ _).symm
  have hplain (ht : fwTarget src ≠ 2) (hgen : x.dev.bufGen = 0) :
      ((x.popped c.fn c.q).readBy src (decHCmd (c.bytes.take 64)).len).memAs x 0 0
      ∧ ((x.popped c.fn c.q).readBy src (decHCmd (c.bytes.take 64)).len).keeps x [.hqs, .mem, .ktl, .regs] := by
    rw [State.readBy_plain (by rw [hpop .dev (by decide)]; exact hgen)]
    exact ⟨State.memAs_trans (State.touch_memAs (State.wakesIn_of_pf_read hfw ⟨by omega, by omega⟩ ht)) (hpop.memAs _ _),
      State.keeps_trans (State.touch_keeps _ _ _).widen hpop.widen⟩
  generalize (x.popped c.fn c.q).readBy src (decHCmd (c.bytes.take 64)).len = z at *
  have hsend := z.sends_keeps src (decHCmd (c.bytes.take 64)).host (blocksOf (decHCmd (c.bytes.take 64)).host (decHCmd (c.bytes.take 64)).len)
  have hposted := (State.mem_sends (s := z) (src := src) (host := (decHCmd (c.bytes.take 64)).host)
    (blocksOf (decHCmd (c.bytes.take 64)).host (decHCmd (c.bytes.take 64)).len)).2
  generalize z.sends src (decHCmd (c.bytes.take 64)).host (blocksOf (decHCmd (c.bytes.take 64)).host (decHCmd (c.bytes.take 64)).len) = y at *
  have hw : y.worked x c := (State.worked_popped hripe.length).after ((hsend .hqs (by decide)).trans (hread.keeps .hqs (by decide)))
    (hsend.ringAs.trans hring)
  have hc := y.complete_keeps c.fn c.q (decHCmd (c.bytes.take 64)).cid hsOK 0 (decHCmd (c.bytes.take 64)).notify
  have hans := hw.answered (status := hsOK) (result := 0) hripe
  have hkept {e : HostWrite} (he : e ∈ y.hostW) :
      e ∈ (y.complete c.fn c.q (decHCmd (c.bytes.take 64)).cid hsOK 0 (decHCmd (c.bytes.take 64)).notify).hostW :=
    State.complete_hostW (by rw [hw.length]; exact hripe.length) (by rw [hw.queue]; exact hripe.ready) (by rw [hw.queue]; exact hripe.room) he
  have hall : (y.complete c.fn c.q (decHCmd (c.bytes.take 64)).cid hsOK 0 (decHCmd (c.bytes.take 64)).notify).leaves x
      [.hqs, .host, .ints, .regs, .mem, .ktl, .dev] := hc.leaves.trans (hsend.leaves.trans (hread.mono.trans hpop.leaves))
  have hend := State.keeps_trans hc.widen (hsend.widen (m := [.hqs, .host, .ints, .regs]))
  generalize y.complete c.fn c.q (decHCmd (c.bytes.take 64)).cid hsOK 0 (decHCmd (c.bytes.take 64)).notify = r at *
  have hf := hall.calm hcalmv
  obtain ⟨hfmem, hfpsn⟩ := State.finish_bytes hf
  refine ⟨_, hexec, hans.congr (State.finish_hqs _ hf) (State.finish_hostW _ hf), fun e he => ?_, fun ht hgen => ?_, State.finish_keeps_of hf hall.keeps⟩
  · rw [State.finish_hostW _ hf]
    have := hkept (hposted e he)
    rwa [State.peek, ← hsame] at this
  · obtain ⟨hmem, hkeep⟩ := hplain ht hgen
    have hk := State.finish_keeps_of hf (State.keeps_trans (hend.widen (m := [.hqs, .host, .ints, .regs, .mem, .ktl])) hkeep.widen)
    exact ⟨State.memAs_trans (State.memAs_of_mem_eq hfmem hfpsn _ _) (State.memAs_trans (hend.memAs _ _) hmem), hk .dev (by decide)⟩

end Sys2Proof.Machine
end

section
/-! SUPPORT. A virtual function's COPY_IN run by the core that has drawn its item (20_host_interface.md R437). -/

namespace Sys2Proof.Machine

set_option Elab.async false

variable {s u v w x z : State} {l : List Piece} {c : HostIn} {m : Mover} {i : Item} {b : List Byte} {a n k fn q p cls d dst cid status result : Nat} {notify : Bool}

/-! ### A queue without a COPY in progress -/

/-- A queue that exists and has no COPY in progress. -/
def State.noCopy (s : State) (fn q : Nat) : Prop := 8 * fn + q < s.hqs.length ∧ (s.hq fn q).copy = none

theorem State.noCopy_setHq (h : 8 * fn + q < s.hqs.length) {y : HQueue} (hy : y.copy = none) : (s.setHq fn q y).noCopy fn q :=
  ⟨by rw [State.setHq_hqs_length]; exact h, by rw [State.setHq_hq_same _ _ h]; exact hy⟩

theorem State.noCopy.congr (h : s.noCopy fn q) (hqs : u.hqs = s.hqs) : u.noCopy fn q :=
  ⟨by rw [hqs]; exact h.1, by rw [State.hq, hqs]; exact h.2⟩

theorem State.noCopy.postOne (h : s.noCopy fn q) : (s.postOne fn q).noCopy fn q := by
  unfold State.postOne
  dsimp only
  split
  · exact h
  · split
    · exact h
    · have hset (addr : Nat) (bs : List Byte) (y : HQueue) (hy : y.copy = none) : ((s.toHost addr bs).setHq fn q y).noCopy fn q := State.noCopy_setHq h.1 hy
      split
      · refine State.noCopy.congr (hset _ _ _ ?_) (State.raiseP_keeps _ _ _ .hqs (by decide))
        exact h.2
      · refine hset _ _ _ ?_
        exact h.2

theorem State.noCopy.postReady (h : s.noCopy fn q) : (s.postReady fn q).noCopy fn q := by
  unfold State.postReady
  generalize List.range (s.hq fn q).ready.length = xs
  induction xs generalizing s with
  | nil => exact h
  | cons y xs ih => exact ih h.postOne

theorem State.noCopy.complete (h : s.noCopy fn q) : (s.complete fn q cid status result notify).noCopy fn q := by
  unfold State.complete
  split
  · exact h
  · refine (State.noCopy_setHq h.1 ?_).postReady
    exact h.2

theorem State.copyDone_noCopy (h : 8 * fn + q < s.hqs.length) : (s.copyDone fn q status result).noCopy fn q := by
  unfold State.copyDone
  dsimp only
  split
  next hnone => exact ⟨h, hnone⟩
  · split
    · exact State.noCopy_setHq h rfl
    · exact (State.noCopy_setHq h rfl).complete

theorem State.lt_hqs_of_copy (h : (s.hq fn q).copy = some b) : 8 * fn + q < s.hqs.length := by
  by_contra hlen
  have hnone : s.hq fn q = {} := List.getD_eq_default _ _ (by omega)
  rw [hnone] at h
  exact absurd h (by simp)

/-! ### The mover -/

theorem State.copyMover_eq (h : s.copyMover fn q = some m) : ∃ i k, m.item = some (i, k) ∧ m.who = .part i.part i.cls (k / 64) := by
  obtain ⟨⟨i, k⟩, -, hm⟩ := Option.bind_eq_some_iff.mp h
  split at hm
  · obtain rfl := Option.some.inj hm
    exact ⟨i, k, rfl, rfl⟩
  · exact absurd hm (by simp)

/-- A field store inside the range that a partition's work writes lies in it whole. -/
theorem State.wakesIn_of_part_write (h : s.fwOk (.part p cls d) true a n = true) (hn : n < 0x100000000) (y e : Nat) (hlo : a ≤ y)
    (hhi : y ≤ a + (n - 1)) (he : domOf y = some e) : wakesIn a n e := by
  intro h1 h2
  have hbase : dieBase 0 = 0x10000000000 ∧ mailBase = 0x11000000000 := ⟨rfl, rfl⟩
  unfold domOf at he
  rw [hbase.1, hbase.2] at he
  dsimp only at he
  split at he
  · exact absurd he (by simp)
  next hin =>
    unfold State.fwOk at h
    obtain ⟨hsame, h⟩ := Bool.and_eq_true_iff.mp h
    have hsame := of_decide_eq_true hsame
    split at h
    next h0 =>
      have := lt_hbm_of_fwTarget h0
      have := lt_hbm_of_fwTarget (hsame.symm.trans h0)
      omega
    next h0 =>
      obtain ⟨g0, g2, hpad, -⟩ := fwTarget_die (a := a) (by rw [h0]; decide)
      have hpad := hpad h0
      unfold State.fwPad at h
      simp only [Bool.and_eq_true, decide_eq_true_eq] at h
      have hfit := h.1.2
      rw [if_pos (by omega), Option.some.injEq] at he
      omega
    next => exact absurd h (by simp)
    next => exact absurd h (by simp)
    next h0 =>
      obtain ⟨g0, g2, -, -, -, hbuf⟩ := fwTarget_die (a := a) (by rw [h0]; decide)
      obtain ⟨k0, k2, -, -, -, kbuf⟩ := fwTarget_die (a := a + n - 1) (by rw [← hsame, h0]; decide)
      have hbuf := hbuf h0
      have kbuf := kbuf (hsame.symm.trans h0)
      split at he
      · rw [Option.some.injEq] at he
        omega
      split at he
      next hst =>
        simp only [domStore, Option.some.injEq] at he
        simp only [storeBase, dieBase, stControl]
        omega
      split at he
      · simp only [domSeg, Option.some.injEq] at he
        omega
      · exact absurd he (by simp)
    next =>
      obtain ⟨-, hpf⟩ := Bool.and_eq_true_iff.mp h
      exact Who.noConfusion (LawfulBEq.eq_of_beq hpf)
    · exact absurd h (by decide)

/-! ### The run -/

theorem ofLE_lt (l : List Byte) : ofLE l < 256 ^ l.length := by
  induction l with
  | nil => simp [ofLE]
  | cons y l ih =>
    have := y.isLt
    rw [ofLE, List.length_cons, Nat.pow_succ]
    omega

theorem decHCmd_len_lt (b : List Byte) : (decHCmd b).len < 0x100000000 := by
  have h := ofLE_lt (slice b 4 4)
  have hlen : (slice b 4 4).length ≤ 4 := by
    rw [slice, List.length_take]
    omega
  exact lt_of_lt_of_le h (Nat.pow_le_pow_right (by decide) hlen)

/-- The item of a COPY that has succeeded ends. -/
def State.itemEnds (s : State) (k n : Nat) : State :=
  (s.add64 (Reg.memDmaBytesLo k) n).setCore k
    { (s.add64 (Reg.memDmaBytesLo k) n).core k with dma := ((s.add64 (Reg.memDmaBytesLo k) n).core k).dma.free }

theorem State.hostItemEnd_ok (hitem : m.item = some (i, k)) (n : Nat) : s.hostItemEnd m hsOK n = s.itemEnds k n := by
  unfold State.hostItemEnd
  rw [hitem]
  dsimp only
  rw [if_pos rfl]
  rfl

theorem State.itemEnds_keeps (s : State) (k n : Nat) : (s.itemEnds k n).keeps s [.regs, .cores] :=
  (State.setCore_keeps _ _ _).after (s.add64_keeps _ _).widen

theorem State.runCopy_eq (hcopy : (s.hq c.fn c.q).copy = some b) (hm : s.copyMover c.fn c.q = some m) (hitem : m.item = some (i, k))
    (hop : (decHCmd b).op = 1) (hfar : s.farPkg (decHCmd b).dev = none) (hpcie : c.pcie = true) (hlen : (decHCmd b).len ≤ c.data.length)
    (hretry : c.retry = []) (hfail : c.fail = []) (hcheck : (decHCmd b).check = false) (hnear : s.near (decHCmd b).dev = dst)
    (hfw : s.fwOk m.who true dst (decHCmd b).len = true) :
    s.runCopy c true = ((((s.touch dst (decHCmd b).len).puts dst c.data (blocksOf dst (decHCmd b).len)).itemEnds k (decHCmd b).len).copyDone c.fn c.q hsOK 0) := by
  have hgives : hostGives c (decHCmd b) true = true := by
    rw [hostGives, decide_eq_true hlen, Bool.or_true]
  have hin := State.copyIn_eq (m := m) hpcie hretry hfail hcheck (by rw [hnear]; exact hfw)
  rw [hnear] at hin
  have hrun : s.hostCopy c (decHCmd b) m true
      = (((s.touch dst (decHCmd b).len).puts dst c.data (blocksOf dst (decHCmd b).len)).itemEnds k (decHCmd b).len, hsOK, 0) := by
    unfold State.hostCopy
    dsimp only
    rw [if_pos rfl, hin, hcheck]
    dsimp only
    rw [State.hostItemEnd_ok hitem]
    rfl
  unfold State.runCopy
  rw [hcopy, hm]
  dsimp only
  rw [if_pos ⟨hop, hgives⟩, hitem, hfar]
  dsimp only
  rw [hrun]

theorem host_copyRun (hcalm : s.calm) (hfn : c.fn ≠ 0) (hup : s.pcieUp = true) (hcopy : ((s.at c.t).hq c.fn c.q).copy = some b)
    (hm : (s.at c.t).copyMover c.fn c.q = some m) (hop : (decHCmd b).op = 1) (hfar : (s.at c.t).farPkg (decHCmd b).dev = none) (hpcie : c.pcie = true)
    (hlen : (decHCmd b).len ≤ c.data.length) (hretry : c.retry = []) (hfail : c.fail = []) (hcheck : (decHCmd b).check = false)
    (hfw : (s.at c.t).fwOk m.who true ((s.at c.t).near (decHCmd b).dev) (decHCmd b).len = true) :
    ∃ u, exec (.copyIn c) s = .next u ∧ u.peek ((s.at c.t).near (decHCmd b).dev) (decHCmd b).len = c.data.take (decHCmd b).len
      ∧ (u.hq c.fn c.q).copy = none ∧ u.memAs (s.at c.t) ((s.at c.t).near (decHCmd b).dev) (decHCmd b).len
      ∧ u.keeps (s.at c.t) [.hqs, .host, .ints, .regs, .mem, .ktl, .dev, .cores] := by
  obtain ⟨i, k, hitem, hwho⟩ := State.copyMover_eq hm
  have hexec : exec (.copyIn c) s = .next ((s.at c.t).runCopy c true).finish := by
    have hsome : (s.hq c.fn c.q).copy.isSome = true := by
      rw [← State.at_hq s c.t, hcopy]
      rfl
    change (s.takeCopy c true).done = _
    unfold State.takeCopy
    dsimp only
    rw [if_neg hfn, if_pos hsome, if_pos hup]
    rfl
  rw [State.runCopy_eq hcopy hm hitem hop hfar hpcie hlen hretry hfail hcheck rfl hfw] at hexec
  rw [hwho] at hfw
  have hcalmv := s.at_calm c.t hcalm
  generalize (s.at c.t).near (decHCmd b).dev = dst at *
  generalize s.at c.t = x at *
  have hin := State.puts_touched (s := x) (dst := dst) hlen (State.wakesIn_of_part_write hfw (decHCmd_len_lt b))
  generalize (x.touch dst (decHCmd b).len).puts dst c.data (blocksOf dst (decHCmd b).len) = z at *
  have hends := z.itemEnds_keeps k (decHCmd b).len
  have hdone := (z.itemEnds k (decHCmd b).len).copyDone_keeps c.fn c.q hsOK 0
  have hno : ((z.itemEnds k (decHCmd b).len).copyDone c.fn c.q hsOK 0).noCopy c.fn c.q := by
    refine State.copyDone_noCopy ?_
    rw [hends .hqs (by decide), hin.leaves.keeps .hqs (by decide)]
    exact State.lt_hqs_of_copy hcopy
  have hend := State.keeps_trans (hdone.widen (m := [.hqs, .host, .regs, .ints, .cores])) hends.widen
  generalize (z.itemEnds k (decHCmd b).len).copyDone c.fn c.q hsOK 0 = y at *
  have hall : y.leaves x [.hqs, .host, .ints, .regs, .mem, .ktl, .dev, .cores] := hend.leaves.trans hin.leaves.mono
  have hf := hall.calm hcalmv
  obtain ⟨hfmem, hfpsn⟩ := State.finish_bytes hf
  refine ⟨_, hexec, (State.peek_finish hf _ _).trans ((hend.peek _ _).trans hin.value), ?_,
    State.memAs_trans (State.memAs_of_mem_eq hfmem hfpsn _ _) (State.memAs_trans (hend.memAs _ _) hin.bytes), State.finish_keeps_of hf hall.keeps⟩
  rw [State.hq, State.finish_hqs _ hf]
  exact hno.2

end Sys2Proof.Machine
end

section
/-! SUPPORT. A virtual function's COPY released as an item of its HOST task, and the host commands together (20_host_interface.md R437, R439). -/

namespace Sys2Proof.Machine

set_option Elab.async false

variable {s u v x : State} {c : HostIn} {r : TaskRec} {t : TaskSt} {i : Item} {b : List Byte} {d p op fn q : Nat}

/-! ### Items with a core -/

theorem State.noCoreFor_congr (hload : u.loader = s.loader) (hfuses : u.fuses = s.fuses) (herrs : u.errs.bare = s.errs.bare) (d : Nat) (i : Item) :
    u.noCoreFor d i = s.noCoreFor d i := by
  have hcfg : u.cfg = s.cfg := by rw [State.cfg, State.cfg, hload]
  have hok (k : Nat) : u.coreOk k = s.coreOk k := by
    rw [State.coreOk, State.coreOk, State.coreEn, State.coreEn, hfuses, State.healthy_congr herrs]
  simp only [State.noCoreFor, State.pcfg, hcfg, hok]

/-- An item that a core can take is placed within its die's scheduling. -/
theorem State.place_keeps_of_core (h : s.noCoreFor d i = false) : (s.place d t [i]).keeps s relPieces := by
  unfold State.place
  extract_lets k is' t' good bad
  have hbad : bad = [] := by
    refine List.filter_eq_nil_iff.mpr fun y hy => ?_
    obtain rfl := List.mem_singleton.mp hy
    exact ne_true_of_eq_false h
  rw [hbad]
  generalize (if t'.held = true then (s.sch d, good) else enqueueAll (s.sch d) good) = y
  have hset (z : SchedDie) : (s.setSch d z).keeps s relPieces := (s.setSch_keeps _ _).widen
  refine State.keeps_ite (hset _) ?_
  split
  · exact hset _
  · exact (State.countHold_keeps _ _ _).after (hset _)

/-! ### The credit of a queue -/

theorem State.at_credit (s : State) (n fn q : Nat) : (s.at n).credit fn q = s.credit fn q := by
  unfold State.credit State.vfReset State.hostTask
  simp only [State.at_dev, State.at_prun, State.at_pcfg, State.at_sch, State.at_task?]

/-- A queue with credit has a group and a task. -/
theorem State.task_of_credit (hfn : fn ≠ 0) (hr : s.hostTask (fn - 1) q = some r) (h : s.credit fn q ≠ 0) :
    ∃ g t, (s.sch r.die).group (fn - 1) r.grp = some g ∧ s.task? r.die (fn - 1) r.task = some t := by
  unfold State.credit at h
  rw [if_neg hfn, hr] at h
  split at h
  · exact absurd rfl h
  · dsimp only at h
    split at h
    next g t hg ht => exact ⟨g, t, hg, ht⟩
    · exact absurd rfl h

/-! ### The release -/

/-- A queue with a COPY in progress. -/
def HQueue.copying (y : HQueue) (b : List Byte) : HQueue := { y with copy := some b, mute := false }

theorem exec_copy_taken (hfn : c.fn ≠ 0) (hcredit : s.credit c.fn c.q ≠ 0) (input : Bool) (h : (s.at c.t).ripe c (if input then 1 else 2)) :
    (s.takeCopy c input).done = .next (((s.at c.t).popped c.fn c.q).releaseCopy c).finish := by
  have hcopy : (s.hq c.fn c.q).copy.isSome = false := by
    obtain ⟨-, -, -, -, -, hnone, -⟩ := h.parts
    rw [← State.at_hq s c.t, hnone]
    rfl
  have hzero : (s.credit c.fn c.q == 0) = false := beq_false_of_ne hcredit
  have hmay : (s.credit c.fn c.q != 0) = true := bne_iff_ne.mpr hcredit
  unfold State.takeCopy
  dsimp only
  rw [if_neg hfn, hcopy, hzero, Bool.and_false, Bool.false_and, Bool.false_and, if_neg (by decide), if_neg (by decide), h.hostTake hmay]
  rfl

theorem State.releaseCopy_after (hfn : c.fn ≠ 0) (hlen : 8 * c.fn + c.q < x.hqs.length) (hr : x.hostTask (c.fn - 1) c.q = some r)
    (hcredit : x.credit c.fn c.q ≠ 0) (hcore : x.noCoreFor r.die (taskItem (c.fn - 1) r clsQ 0) = false) :
    ((x.popped c.fn c.q).releaseCopy c).hq c.fn c.q = (x.hq c.fn c.q).taken.copying (c.bytes.take 64)
    ∧ ((x.popped c.fn c.q).releaseCopy c).keeps x (.hqs :: relPieces) := by
  obtain ⟨g, t, hg, ht⟩ := State.task_of_credit hfn hr hcredit
  have hpop := State.worked_popped (s := x) (c := c) hlen
  have hplen : 8 * c.fn + c.q < (x.popped c.fn c.q).hqs.length := by rw [hpop.length]; exact hlen
  have hrp : (x.popped c.fn c.q).hostTask (c.fn - 1) c.q = some r := hr
  have hgp : ((x.popped c.fn c.q).sch r.die).group (c.fn - 1) r.grp = some g := hg
  have htp : (x.popped c.fn c.q).task? r.die (c.fn - 1) r.task = some t := ht
  have hkeep := x.popped_keeps c.fn c.q
  unfold State.releaseCopy
  dsimp only
  rw [hrp]
  dsimp only
  rw [hgp, htp]
  dsimp only
  generalize hi : ({ taskItem (c.fn - 1) r g.cls t.seq with
    frame := (x.popped c.fn c.q).frameAt (c.fn - 1) (x.popped c.fn c.q).time, epoch := (x.popped c.fn c.q).fld.epoch, arg := c.q } : Item) = i
  have hcore : x.noCoreFor r.die i = false := by
    rw [← hi]
    exact hcore
  have hset : ((x.popped c.fn c.q).setHq c.fn c.q ((x.hq c.fn c.q).taken.copying (c.bytes.take 64))).keeps x [.hqs] := (State.setHq_keeps _ _ _ _).after hkeep
  have hsame := (x.popped c.fn c.q).setHq_hq_same ((x.hq c.fn c.q).taken.copying (c.bytes.take 64)) hplen
  have hqueue : ({ (x.popped c.fn c.q).hq c.fn c.q with copy := some (c.bytes.take 64), mute := false } : HQueue)
      = (x.hq c.fn c.q).taken.copying (c.bytes.take 64) := by rw [hpop.queue]; rfl
  rw [hqueue]
  generalize (x.popped c.fn c.q).setHq c.fn c.q ((x.hq c.fn c.q).taken.copying (c.bytes.take 64)) = y at *
  have htrace := (State.trace_keeps (s := y) r.die 1 0xFF i 0)
  have herrs : (y.trace r.die 1 0xFF i 0).errs.bare = x.errs.bare :=
    (State.trace_relAs (s := y) r.die 1 0xFF i 0).errs.trans (congrArg (fun e => e.bare) (hset .errs (by decide)))
  have hz : (y.trace r.die 1 0xFF i 0).noCoreFor r.die i = false := by
    rw [State.noCoreFor_congr ((htrace .loader (by decide)).trans (hset .loader (by decide)))
      ((htrace .fuses (by decide)).trans (hset .fuses (by decide))) herrs]
    exact hcore
  have hplace := State.place_keeps_of_core (t := t) hz
  have hall := State.keeps_trans hplace (htrace.widen (m := relPieces))
  refine ⟨?_, State.keeps_trans hall.widen hset.widen⟩
  rw [State.hq, hall .hqs (by decide)]
  exact hsame

theorem host_copy_released (hcalm : s.calm) (hfn : c.fn ≠ 0) (hr : s.hostTask (c.fn - 1) c.q = some r) (hcredit : (s.at c.t).credit c.fn c.q ≠ 0)
    (hcore : (s.at c.t).noCoreFor r.die (taskItem (c.fn - 1) r clsQ 0) = false) (input : Bool)
    (h : (s.at c.t).takesHost c (if input then 1 else 2)) :
    ∃ u, (s.takeCopy c input).done = .next u ∧ u.hq c.fn c.q = ((s.at c.t).hq c.fn c.q).taken.copying (c.bytes.take 64)
      ∧ u.keeps (s.at c.t) (.hqs :: relPieces) := by
  have hripe := State.ripe_of_takesHost h
  have hrv : (s.at c.t).hostTask (c.fn - 1) c.q = some r := by
    rw [State.hostTask, State.at_pcfg]
    exact hr
  obtain ⟨hq, hk⟩ := State.releaseCopy_after hfn hripe.length hrv hcredit hcore
  have hf := hk.calm (s.at_calm c.t hcalm)
  refine ⟨_, exec_copy_taken hfn (by rwa [State.at_credit] at hcredit) input hripe, ?_, State.finish_keeps_of hf hk⟩
  rw [State.hq, State.finish_hqs _ hf]
  exact hq

/-! ### The obligation -/

/-- Settles O52: a clause for each kind of command; a COPY writes or posts its blocks one by one (`State.puts_after`, `State.mem_sends`). -/
theorem hostCommands : Obligations.HostCommands := by
  unfold Obligations.HostCommands
  intro c s hcalm v h x
  refine ⟨host_nop hcalm, fun hf hwarm => ⟨host_flag_undefined hcalm hf hwarm, fun r y hr hy hno => host_flag_kept hcalm hf hwarm hr hy hno⟩,
    fun w tref operand ht hcmd hfn hq hok => host_tally hcalm ht hcmd hfn hq hok, fun hfn hwarm hretry hfail hcheck => ⟨?_, ?_⟩,
    fun r hfn hr hcredit hcore => ⟨host_copy_released hcalm hfn hr hcredit hcore true, host_copy_released hcalm hfn hr hcredit hcore false⟩,
    fun b m hfn hup hcopy hm hop hfar hpcie hlen hretry hfail hcheck hfw =>
      host_copyRun hcalm hfn hup hcopy hm hop hfar hpcie hlen hretry hfail hcheck hfw⟩
  · exact host_copyIn_pf hcalm hfn hwarm hretry hfail hcheck
  · exact host_copyOut_pf hcalm hfn hwarm hretry hfail hcheck

end Sys2Proof.Machine
end
